-- ==== Sys2Proof/Word.lean ====
section
/-! DEFINITION. The word types of the node: 64-bit words (Bexorn registers, desk registers), 512-bit memory lines
(64 bytes, R10) and the plainest operations on bits. -/

namespace Sys2Proof

/-- A 64-bit word: a Bexorn register, a desk register. -/
abbrev Word := BitVec 64

/-- A byte. -/
abbrev Byte := BitVec 8

/-- The 64 data bytes of one memory line, byte 0 in bits 7:0 (R6, R10). -/
abbrev Line := BitVec 512

/-- A 512-bit vector register of a nib core. -/
abbrev VWord := BitVec 512

end Sys2Proof
end

