-- ==== Sys2Proof/Syntax.lean ====
section
/-! DEFINITION. The commands the node takes: one constructor per row of the opcode table. -/

namespace Sys2Proof

/-- How the reads of the memory array that a command makes turn out: the logical symbols of the line that come back
wrong, those wrong on the one re-read (R133), and what the walk of the counter tree met: the level of a tree line that
was corrected (false) or lost (true) (R225, R226). -/
structure ReadRun where
  errors : List (Fin 40) := []
  again : List (Fin 40) := []
  tree : Option (Fin 5 × Bool) := none
  deriving DecidableEq, Repr

/-- How many of a channel's oldest reads and writes have waited beyond their age caps (R111). -/
structure AgedRun where
  reads : Nat
  writes : Nat
  deriving DecidableEq, Repr

/-- What the test of the spare rank in a retraining pause finds (R89): whether it fails while the rank is unused, and how its
reads decode while the rank is in use. -/
structure SpareRun where
  fails : Bool
  reads : List ReadRun := []
  deriving DecidableEq, Repr

/-- A parity alert (R86, R134): whether it answers a reissued command, and how many commands have been issued since the last
that the die acknowledged. -/
structure AlertRun where
  reissue : Bool
  lost : Fin 65 := 0
  deriving DecidableEq, Repr

/-- The move of a slot, and how a read of its leaf's map block decodes (R150, R160). -/
structure MoveRun where
  slot : Fin 64
  map : ReadRun := {}
  deriving DecidableEq, Repr

/-- What PL_MOVE moves (R348): a leaf, with whether the node at the port of a loan accepts loans (R164), or a reserve quire. -/
inductive MoveKind where
  | leaf (accepts : Bool)
  | quire
  deriving DecidableEq, Repr

/-- The command byte and the index of a key message other than LOAD and CLEAR (R232). -/
structure KeyAsk where
  command : BitVec 8
  index : BitVec 16
  deriving DecidableEq, Repr

/-- A lane, and the rate that it equalizes for (R246). -/
structure LaneRate where
  lane : Fin 16
  rate : Fin 6
  deriving DecidableEq, Repr

/-- What the syndrome of a forwarded flit shows (R249, R255): the lanes with corrected symbols, and whether it is
uncorrectable. -/
structure FlitErrors where
  corrected : List (Fin 16) := []
  uncorrectable : Bool := false
  deriving DecidableEq, Repr

/-- What a configuration request names (R275, R248): the header and the other words of a function, a doubleword of the DVSEC of
Table 9-2, or the control word of a lane in the Lane Margining capability. -/
inductive ConfigArea where
  | header
  | dvsec (index : Fin 8)
  | margin (lane : Fin 16)
  deriving DecidableEq, Repr

/-- What a fetch of a queue entry gets (R381, R384): whether what another agent returns comes, and how the entry's read from
this node's media decodes. -/
structure FetchRun where
  ok : Bool
  read : ReadRun := {}
  deriving DecidableEq, Repr

/-- A nib core that starts an item, and how the reads of the argument lines decode (R389). -/
structure StartRun where
  core : Fin 256
  reads : List ReadRun := []
  deriving DecidableEq, Repr

/-- The line state a lent leaf's access carries beside the data (R164, R165): the holding node's REMOTE_SLOT, and for
a write the MAC field, key index and line state as stored. -/
structure LentLine where
  slot : BitVec 28
  mac : BitVec 48
  key : BitVec 10
  state : BitVec 6
  deriving DecidableEq, Repr

/-- A CXL.mem request as a link delivers it (R289): its logical device on a Peer port is 0. `tee` is the TSP key
identifier of a request with TEE intent; `cached` the copy the requester asks for (0 none, 1 Shared, 2 Exclusive);
`isDefined` whether CXL 3.1 defines the opcode for a Type 3 device, `ndr` whether it requires an S2M NDR beside the data of a
read (Table 9-4). -/
structure LinkReq where
  port : Fin 64
  sub : Fin 4
  ld : Fin 16
  pbr : BitVec 12
  tag : BitVec 16
  dpa : BitVec 52
  tee : Option (BitVec 10)
  cached : Fin 3
  isDefined : Bool
  lent : Option LentLine
  ndr : Bool := false
  opcode : BitVec 8 := 0
  deriving DecidableEq, Repr

/-- A memory line as a peer sends it as stored (R164, R165): data, MAC field, key index and line state. -/
structure StoredLine where
  data : BitVec 512
  mac : BitVec 48
  key : BitVec 10
  state : BitVec 6
  deriving DecidableEq, Repr

/-- What a three-margin reading of one fuse word shows (R477, R483): the normal-margin data and the
flags; `blank` when all 39 bits read 0 at every margin. -/
structure FuseReading where
  data : BitVec 32 := 0
  corrected : Bool := false
  uncorrectable : Bool := false
  marginal : Bool := false
  blank : Bool := true
  deriving DecidableEq, Repr

/-- What a sub-link received in one line (R249): its flits, those FEC corrected, those uncorrectable, those replayed,
and for each lane how many flits carried corrected bytes there and how many bytes. -/
structure FlitRun where
  port : Fin 64
  sub : Fin 4
  flits : Nat
  corrected : Nat
  uncorrectable : Nat
  replayed : Nat
  lanes : List (Fin 16 × Nat × Nat)
  deriving DecidableEq, Repr


/-- How a read of ECC-protected core memory turns out (R316). -/
inductive Ecc where
  | clean | corrected | uncorrectable
  deriving DecidableEq, Repr

/-- The core that an instruction comes to (0 to 7 the Scribes, 8 + g nib core g), how its fetch and its reads of local
memory turn out (R316), whether a reserved field of its encoding is not zero (R302), and, of a placement primitive, how a read
of its leaf's map block decodes (R145, R150). -/
structure CoreRun where
  core : Fin 264
  reserved : Bool := false
  fetch : Ecc := .clean
  data : Ecc := .clean
  map : ReadRun := {}
  deriving DecidableEq, Repr

/-- What the boot ROM and the Inkwell find at the internal reset release (R548, R481, R527, R471): the three samples of
the straps (STRAP_11:0, MGMT_SEL, BOOT_SEL_1:0), the fuse words whose readings are not clean, the sensors, the measured
period of the Local reference, which stored copies and records fail their CRC. -/
structure BootInput where
  straps1 : BitVec 15
  straps2 : BitVec 15
  straps3 : BitVec 15
  readings : List (Fin 1024 × FuseReading) := []
  sensors : List (Fin 370 × BitVec 12) := []
  localPs : BitVec 32 := 1000000#32
  copyABad : Bool := false
  copyBBad : Bool := false
  listABad : Bool := false
  listBBad : Bool := false
  minuteEnd : Option (BitVec 32) := none
  eventEnd : Option (BitVec 32) := none
  badSets : List (Fin 260 × Fin 6) := []
  deriving DecidableEq, Repr

/-- What tower training finds (R564): channels whose spare rank fails its test, TSVs found failed (command/address when
the flag is set), and the results of the full calibrations of an 8-high variant: channel, temperature, values, limits met,
drift; and the dies, by tower and layer, that answer on no channel (R98). -/
structure TrainingInput where
  spares : List (Fin 256) := []
  tsvs : List (Fin 256 × Bool × Fin 44) := []
  cals : List (Fin 256 × Int × List (Nat × Int) × Bool × Nat) := []
  dies : List (Fin 4 × Fin 17) := []
  deriving DecidableEq, Repr

/-- How an MCTP message reaches the node (R573): over PCIe VDM at a function of an LD (port, sub-link, LD, function), or
over MGMT0; its destination EID and the bytes of the message as reassembled. -/
structure Envelope where
  vdm : Option (Fin 64 × Fin 4 × Fin 16 × Fin 8) := none
  eid : BitVec 8 := 0
  size : Nat := 64
  deriving DecidableEq, Repr

/-- How far a channel's spare copy goes in a line (R135): rows, at most 4, and how the reads of some lines decode, by
position in the rank (bank × 1600 + row) and line. -/
structure CopyRun where
  chan : Fin 256
  rows : Fin 5
  reads : List (Fin 25600 × Fin 64 × ReadRun) := []
  deriving DecidableEq, Repr

/-- What the node's sensors and inputs give in one ruling line: the measured period of the Local reference and the trim
the oscillator needs (R55, R69); each sensor's sample, and whether its two readouts read equal (R441); each cluster's
filtered power in mW (R448); VIN voltage (10 mV), VIN power (100 mW) and ink-rail current (10 mA) (R418); the URG inputs,
two bits each (R193); what the links received (R249);
whether the fuse pump is inside its window, and the read-back if programming stops (R486); how far the RTC counted
(R531); how far the spare copies go (R135); the dies, by tower and layer, that have stopped responding on every channel
(R98). A sensor that is not listed keeps its last value. -/
structure EdgeInput where
  localPs : BitVec 32 := 1000000#32
  trim : BitVec 8 := 0
  samples : List (Fin 370 × BitVec 12 × Bool) := []
  milliwatts : List Nat := []
  vin : BitVec 16 := 0
  power : BitVec 16 := 0
  inkCurrent : BitVec 16 := 0
  urgency : BitVec 16 := 0
  flits : List FlitRun := []
  pump : Bool := true
  reading : FuseReading := {}
  rtc : Nat := 0
  copies : List CopyRun := []
  dies : List (Fin 4 × Fin 17) := []
  deriving DecidableEq, Repr

/-- How a setting of a lane's receiver-led equalization phase turns out (R246): the receiver's setting index, the eye height
and whether a pattern error was met. -/
structure EyeRun where
  setting : BitVec 12
  eye : Nat
  errors : Bool
  deriving DecidableEq, Repr

/-- A receiver-led equalization phase (R246): each preset and then each coefficient step tried, with its eye; and the drift of
the driving temperature in 0.25 °C (R469). -/
structure PhaseRun where
  presets : List (Fin 16 × EyeRun)
  steps : List (BitVec 24 × EyeRun) := []
  drift : Nat := 0
  deriving DecidableEq, Repr

/-- How one word's programming goes (R485, R486): the cause that stopped it, if any (0 VIN, 1 pump, 2 temperature), and the
read-back. -/
structure WordRun where
  stopped : Option (Fin 3) := none
  reading : FuseReading
  deriving DecidableEq, Repr

/-- The commands of the node, one constructor per row of the opcode table, in its order. An operand is what the
sender of the command or the world outside the node supplies. -/
inductive Instr where
  /-- LINE_EDGE (R38). -/
  | lineEdge (edge : EdgeInput)
  /-- RULE_PULSE (R46). Edge time in ticks after the predicted edge, pulse width in ns, ps since the edge before; `alt` is the receiver's choice within 5 ns of a class boundary. -/
  | rulePulse (offset : Int) (width period : Nat) (alt : Bool)
  /-- FOLIO_HEADER (R49). -/
  | folioHeader
  /-- ANNOUNCE (R51). The 32 bytes of Table 2-6, byte 0 in bits 7:0; the periods in ps of the source's lines since the announce before, newest first. -/
  | announce (port : Fin 64) (payload : BitVec 256) (periods : List Nat)
  /-- SYNC_REQUEST (R52). Bytes 15:0 and 31:16 of Table 2-6; the ticks of the line at receipt and at sending. -/
  | syncRequest (port : Fin 64) (head body : BitVec 128) (tick2 tick3 : Fin 1024)
  /-- SYNC_RESPONSE (R52). Bytes 15:0 of Table 2-6, t2 in bytes 23:16, t3 in bytes 31:24; the tick of the line at receipt. -/
  | syncResponse (port : Fin 64) (head : BitVec 128) (t2 t3 : BitVec 64) (tick4 : Fin 1024)
  /-- PTM_DIALOG_COMPLETE (R54). -/
  | ptmDialogComplete (ok : Bool) (master : BitVec 64) (tick : Fin 1024)
  /-- JUMP (R62). Ticks of the current line that have elapsed at the source's mark; the inputs of the line that begins there. -/
  | jump (elapsed : Fin 1024) (edge : EdgeInput)
  /-- SOURCE_REVERT (R60). -/
  | sourceRevert (source : Fin 4)
  /-- RUL_SOURCE_WRITE (R57). -/
  | rulSourceWrite (value : BitVec 64)
  /-- SOURCE_ORDER_APPLY (R57). -/
  | sourceOrderApply
  /-- RUL_EVENT_FIRE (R65). -/
  | rulEventFire (slot : Fin 64) (pump : Bool)
  /-- RUL_EVENT_CTRL_WRITE (R67). -/
  | rulEventCtrlWrite (slot : Fin 64) (value : BitVec 64)
  /-- RUL_EVENT_TIME_WRITE (R67). -/
  | rulEventTimeWrite (slot : Fin 64) (value : BitVec 64)
  /-- RUL_EVENT_ADDR_WRITE (R67). -/
  | rulEventAddrWrite (slot : Fin 64) (value : BitVec 64)
  /-- RUL_CLEAR_COUNTS (R71). -/
  | rulClearCounts
  /-- M2S_REQ (R19). -/
  | m2sReq (req : LinkReq)
  /-- M2S_RWD (R107). The mask names the bytes written; `run` is how the read of a merge goes. -/
  | m2sRwd (req : LinkReq) (data : BitVec 512) (mask : BitVec 64) (poison : Bool) (run : ReadRun)
  /-- COMMAND_PICK (R110). -/
  | commandPick (chan : Fin 256) (aged : AgedRun) (busy : List (Fin 272))
  /-- READ_DATA_RETURN (R78). -/
  | readDataReturn (chan : Fin 256) (run : ReadRun)
  /-- MAP_CACHE_MISS_FILL (R145). -/
  | mapCacheMissFill (map : ReadRun)
  /-- REREAD_COMPLETE (R133). -/
  | rereadComplete (chan : Fin 256) (run : ReadRun)
  /-- SPARE_COPY_COMPLETE (R135). How the reads of some lines decode: position in the rank (bank × 1600 + row), line, outcome. -/
  | spareCopyComplete (chan : Fin 256) (reads : List (Fin 25600 × Fin 64 × ReadRun))
  /-- ROW_IDLE_CLOSE (R112). -/
  | rowIdleClose (chan : Fin 256) (bank : Fin 272)
  /-- REFRESH_DUE (R118). -/
  | refreshDue (chan : Fin 256) (bank : Fin 272)
  /-- BACKSTOP_EXPIRY (R120). -/
  | backstopExpiry (chan : Fin 256) (bank : Fin 272)
  /-- TARGETED_REFRESH (R124). -/
  | targetedRefresh (chan : Fin 256)
  /-- RETRAINING_PAUSE (R127). -/
  | retrainingPause (chan : Fin 256) (low : List (Fin 59)) (steps : List (Fin 131 × Bool)) (spare : SpareRun)
  /-- PAUSE_COMPLETE (R127). -/
  | pauseComplete (chan : Fin 256) (length : Fin 512)
  /-- PAUSE_LENGTH_LIMIT (R127). -/
  | pauseLengthLimit (chan : Fin 256)
  /-- REPAIR_PAUSE (R92). -/
  | repairPause (chan : Fin 256) (declares : Option (Fin 15))
  /-- PARITY_ALERT (R86). The wire that it is traced to, if any. -/
  | parityAlert (chan : Fin 256) (rank : Fin 17) (traced : Option (Fin 15)) (alert : AlertRun)
  /-- SIGNAL_COPY_FAILED (R97). -/
  | signalCopyFailed (chan : Fin 256) (wire : Fin 14)
  /-- TOWER_SUPPLY_FAULT (R102). -/
  | towerSupplyFault (tower : Fin 4)
  /-- CHN_SCHED_WRITE (R141). -/
  | chnSchedWrite (chan : Fin 256) (value : BitVec 64)
  /-- CHN_POOL_READ (R140). -/
  | chnPoolRead (chan : Fin 256)
  /-- HEAT_SWEEP (R149). -/
  | heatSweep (map : ReadRun)
  /-- DECISION_EPOCH (R156). -/
  | decisionEpoch
  /-- MOVE_COPY_COMPLETE (R160). The lines that could not be decoded, and for a leaf coming home its 64 lines as the holding node sent them. -/
  | moveCopyComplete (slot : Fin 64) (reads : List (Fin 32768 × ReadRun)) (home : List StoredLine)
  /-- MAP_SWITCH (R160). -/
  | mapSwitch (run : MoveRun)
  /-- MOVING_CLEAR (R160). -/
  | movingClear (slot : Fin 64)
  /-- SOURCE_SLOT_FREE (R160). -/
  | sourceSlotFree (slot : Fin 64)
  /-- RECALL (R166). -/
  | recall (port : Fin 64) (pbr : BitVec 12) (slots : List (BitVec 28))
  /-- RECALL_TIMEOUT (R166). -/
  | recallTimeout
  /-- WORK_PLACE (R170). -/
  | workPlace
  /-- PREMIGRATE_RELEASE (R172). -/
  | premigrateRelease
  /-- DCT_SPREAD_SET_WRITE (R155). -/
  | dctSpreadSetWrite (slot : Fin 512) (word : Fin 4) (value : BitVec 64)
  /-- ACCOUNT_WINDOW_END (R186). -/
  | accountWindowEnd (account : Fin 4096)
  /-- MISS_CHECK (R188). -/
  | missCheck (account : Fin 4096)
  /-- SHORTFALL_EVALUATION (R189). -/
  | shortfallEvaluation
  /-- ADMIT_TAKE_EFFECT (R184). -/
  | admitTakeEffect
  /-- URGENCY_MESSAGE (R194). -/
  | urgencyMessage (port : Fin 64) (sub : Fin 4) (ld : Fin 16) (urgency : Fin 4)
  /-- KEY_LOAD (R232). -/
  | keyLoad (session : BitVec 32) (level : BitVec 2) (index binding clusters : BitVec 16) (xts : BitVec 512) (integrity : BitVec 256)
  /-- KEY_CLEAR (R232). -/
  | keyClear (session : BitVec 32) (index : BitVec 16)
  /-- KEY_QUERY (R232). -/
  | keyQuery (session : BitVec 32) (ask : KeyAsk)
  /-- KEY_CLEAR_COMPLETE (R201). -/
  | keyClearComplete (index : Fin 1024)
  /-- TSP_GET_VERSION (R233). -/
  | tspGetVersion (port : Fin 64) (sub : Fin 4) (ld : Fin 16)
  /-- TSP_SET_TARGET_CONFIG (R233). -/
  | tspSetTargetConfig (port : Fin 64) (sub : Fin 4) (ld : Fin 16) (config : BitVec 32) (confidential : Bool)
  /-- TSP_LOCK_TARGET_CONFIG (R233). -/
  | tspLockTargetConfig (port : Fin 64) (sub : Fin 4) (ld : Fin 16)
  /-- TSP_SET_KEY (R233). -/
  | tspSetKey (port : Fin 64) (sub : Fin 4) (ld : Fin 16) (index : BitVec 16) (xts : BitVec 512) (integrity : BitVec 256)
  /-- TSP_CLEAR_KEY (R233). -/
  | tspClearKey (port : Fin 64) (sub : Fin 4) (ld : Fin 16) (index : BitVec 16)
  /-- TSP_SET_TE_STATE (R233). -/
  | tspSetTeState (port : Fin 64) (sub : Fin 4) (ld : Fin 16) (dpa length : BitVec 52) (te : Bool)
  /-- RESEAL_START (R228). -/
  | resealStart (value : BitVec 64)
  /-- RESEAL_COMPLETE (R229). -/
  | resealComplete
  /-- IDE_KM_MESSAGE (R231). Operation 0 programs a key set, 1 switches to it, 2 stops the stream. -/
  | ideKmMessage (session : BitVec 32) (port : Fin 64) (stream : Fin 2) (op : Fin 3) (keySet : Fin 2) (containment : Bool) (key : BitVec 256)
  /-- IDE_INTEGRITY_FAILURE (R231). -/
  | ideIntegrityFailure (port : Fin 64) (stream : Fin 2)
  /-- LINK_TRAINING_COMPLETE (R244). Width and rate codes, whether the partner reversed the lanes, and the inverted lanes. -/
  | linkTrainingComplete (port : Fin 64) (sub : Fin 4) (width : Fin 6) (rate : Fin 6) (mirrored : Bool) (polarity : BitVec 16)
  /-- LOCK_LOSS (R250). -/
  | lockLoss (port : Fin 64) (lane : Fin 16)
  /-- LOCK_TIMEOUT (R250). -/
  | lockTimeout (port : Fin 64) (lane : Fin 16)
  /-- RECOVERY_COMPLETE (R251). Whether the partner completed Configuration, and the lanes that failed to lock while the others locked. -/
  | recoveryComplete (port : Fin 64) (sub : Fin 4) (partner : Bool) (unlocked : List (Fin 16))
  /-- LINK_DOWN (R291). -/
  | linkDown (port : Fin 64) (sub : Fin 4)
  /-- EQUALIZATION_REQUEST (R246). -/
  | equalizationRequest (port : Fin 64) (lane : LaneRate) (legal : Bool) (preset : Fin 16) (cm2 cm1 c0 cp1 : BitVec 6)
  /-- EQUALIZATION_PHASE_END (R246). -/
  | equalizationPhaseEnd (port : Fin 64) (lane : LaneRate) (tried : PhaseRun)
  /-- MARGIN_START (R248). -/
  | marginStart (port : Fin 64) (lane : Fin 16) (value : BitVec 64)
  /-- MARGIN_STEP_COMPLETE (R248). -/
  | marginStepComplete (port : Fin 64) (lane : Fin 16) (samples errors : Nat)
  /-- PORT_RETRAIN (R253). -/
  | portRetrain (port : Fin 64) (value : BitVec 64)
  /-- BIFURCATION_WRITE (R239). -/
  | bifurcationWrite (quad : Fin 4) (value : BitVec 64)
  /-- PAIR_ENABLE_WRITE (R260). -/
  | pairEnableWrite (pair : Fin 32) (value : BitVec 64)
  /-- PAIR_FORWARD (R255). Received on the odd port when `upper`; kind: 0 TS, 1 EIOS, 2 EIEOS, SDS or Control SKP, 3 SKP, 4 flit or data block, 5 compliance or loopback. -/
  | pairForward (pair : Fin 32) (upper : Bool) (sub : Fin 4) (kind : Fin 6) (rates : BitVec 6) (errors : FlitErrors) (overrun : Bool)
  /-- PAIR_READY (R261). -/
  | pairReady (pair : Fin 32) (latUp latDown : BitVec 8)
  /-- PAIR_READY_TIMEOUT (R262). -/
  | pairReadyTimeout (pair : Fin 32)
  /-- L0P_NARROW (R265). Whether the partner asked. -/
  | l0pNarrow (port : Fin 64) (sub : Fin 4) (partner : Bool)
  /-- L0P_WIDEN (R265). A lane that fails to lock while the others lock. -/
  | l0pWiden (port : Fin 64) (sub : Fin 4) (stuck : Option (Fin 16))
  /-- ASPM_L1_ENTRY (R264). -/
  | aspmL1Entry (port : Fin 64) (sub : Fin 4)
  /-- ASPM_L1_EXIT (R264). -/
  | aspmL1Exit (port : Fin 64) (sub : Fin 4)
  /-- DOZE_ENABLE_MESSAGE (R266). -/
  | dozeEnableMessage (port : Fin 64) (enable : Bool)
  /-- LAN_DOZE_WRITE (R266). -/
  | lanDozeWrite (port : Fin 64) (value : BitVec 64)
  /-- HALF_DOZE_ENTRY (R267). The partner's transmitter, else the node's. -/
  | halfDozeEntry (port : Fin 64) (sub : Fin 4) (partner : Bool)
  /-- HALF_DOZE_WAKE (R267). -/
  | halfDozeWake (port : Fin 64) (sub : Fin 4) (partner : Bool)
  /-- ELECTRICAL_IDLE_EXIT (R268). -/
  | electricalIdleExit (port : Fin 64) (lane : Fin 16)
  /-- FALSE_WAKE (R268). -/
  | falseWake (port : Fin 64) (lane : Fin 16)
  /-- BACKOFF_END (R268). -/
  | backoffEnd (port : Fin 64)
  /-- ROLE_WRITE (R271). -/
  | roleWrite (port : Fin 64) (value : BitVec 64)
  /-- PRT_LD_WRITE (R274). -/
  | prtLdWrite (port : Fin 64) (ld : Fin 16) (value : BitVec 64)
  /-- DC_REGION_WRITE (R276). -/
  | dcRegionWrite (port : Fin 64) (ld : Fin 16) (region : Fin 8) (value : BitVec 64)
  /-- EXTENT_ADD (R277). -/
  | extentAdd (value : BitVec 64)
  /-- EXTENT_BLANK_COMPLETE (R277). -/
  | extentBlankComplete
  /-- ADD_DC_RESPONSE (R277). The quires that the host accepts. -/
  | addDcResponse (port : Fin 64) (ld : Fin 16) (quires : List (Fin 262144))
  /-- RELEASE_REQUEST (R279). -/
  | releaseRequest (value : BitVec 64)
  /-- RELEASE_DYNAMIC_CAPACITY (R278). -/
  | releaseDynamicCapacity (port : Fin 64) (ld : Fin 16) (quires : List (Fin 262144))
  /-- RELEASE_RETRY (R279). -/
  | releaseRetry
  /-- BIRSP (R284). -/
  | birsp (port : Fin 64) (ld : Fin 16) (dpa : BitVec 52)
  /-- BI_TIMEOUT (R288). -/
  | biTimeout
  /-- COARSE_SWEEP (R285). -/
  | coarseSweep
  /-- PBR_TRANSIT (R280). -/
  | pbrTransit (port : Fin 64) (sub : Fin 4) (dpid spid : Fin 4096) (tag : BitVec 16) (write : Bool)
  /-- BAR_ACCESS (R30). -/
  | barAccess (port : Fin 64) (sub : Fin 4) (ld : Fin 16) (write : Bool) (addr : BitVec 64)
  /-- CONFIG_REQUEST (R275). The doubleword's number in the function's space, for a word of the header. -/
  | configRequest (port : Fin 64) (sub : Fin 4) (ld : Fin 16) (func : Fin 8) (area : ConfigArea) (offset : Fin 1024) (write : Option (BitVec 32))
  /-- VIRAL_RECEIVED (R273). -/
  | viralReceived (port : Fin 64) (sub : Fin 4)
  /-- IDENTIFY_MEMORY_DEVICE (R273). -/
  | identifyMemoryDevice (port : Fin 64) (ld : Fin 16)
  /-- GET_SUPPORTED_LOGS (R273). -/
  | getSupportedLogs (port : Fin 64) (ld : Fin 16)
  /-- GET_LOG (R273). -/
  | getLog (port : Fin 64) (ld : Fin 16) (uuid : BitVec 128) (offset length : Nat)
  /-- CXL_GET_EVENT_RECORDS (R511). -/
  | cxlGetEventRecords (port : Fin 64) (ld : Fin 16) (log : Fin 4)
  /-- CXL_CLEAR_EVENT_RECORDS (R511). -/
  | cxlClearEventRecords (port : Fin 64) (ld : Fin 16) (log : Fin 4) (all : Bool) (seqs : List (BitVec 64))
  /-- GET_DC_CONFIGURATION (R273). -/
  | getDcConfiguration (port : Fin 64) (ld : Fin 16)
  /-- GET_DC_EXTENT_LIST (R273). -/
  | getDcExtentList (port : Fin 64) (ld : Fin 16)
  /-- ADD (R325). -/
  | add (run : CoreRun) (d a b : Fin 32)
  /-- SUB (R325). -/
  | sub (run : CoreRun) (d a b : Fin 32)
  /-- AND (R325). -/
  | and (run : CoreRun) (d a b : Fin 32)
  /-- OR (R325). -/
  | or (run : CoreRun) (d a b : Fin 32)
  /-- XOR (R325). -/
  | xor (run : CoreRun) (d a b : Fin 32)
  /-- SHL (R325). -/
  | shl (run : CoreRun) (d a b : Fin 32)
  /-- SHR (R325). -/
  | shr (run : CoreRun) (d a b : Fin 32)
  /-- SAR (R325). -/
  | sar (run : CoreRun) (d a b : Fin 32)
  /-- MUL (R325). -/
  | mul (run : CoreRun) (d a b : Fin 32)
  /-- ADDI (R325). -/
  | addi (run : CoreRun) (d a : Fin 32) (imm : BitVec 5)
  /-- SHLI (R325). -/
  | shli (run : CoreRun) (d a : Fin 32) (imm : BitVec 5)
  /-- SHRI (R325). -/
  | shri (run : CoreRun) (d a : Fin 32) (imm : BitVec 5)
  /-- SARI (R325). -/
  | sari (run : CoreRun) (d a : Fin 32) (imm : BitVec 5)
  /-- LI (R325). -/
  | li (run : CoreRun) (d : Fin 32) (imm : BitVec 10)
  /-- CMP (R329). -/
  | cmp (run : CoreRun) (p : Fin 8) (cond : Fin 4) (a b : Fin 32)
  /-- CMPI (R329). -/
  | cmpi (run : CoreRun) (p : Fin 8) (cond : Fin 4) (a : Fin 32) (imm : BitVec 5)
  /-- CMPL (R329). -/
  | cmpl (run : CoreRun) (p : Fin 8) (cond : Fin 4) (a : Fin 32) (imm : BitVec 20)
  /-- PLOG (R330). -/
  | plog (run : CoreRun) (p : Fin 8) (op : Fin 4) (a b : Fin 8)
  /-- MOVC (R331). -/
  | movc (run : CoreRun) (d a : Fin 32) (guard : Fin 8) (neg : Bool)
  /-- ADDL (R326). -/
  | addl (run : CoreRun) (d a : Fin 32) (imm : BitVec 20)
  /-- ANDL (R326). -/
  | andl (run : CoreRun) (d a : Fin 32) (imm : BitVec 20)
  /-- ORL (R326). -/
  | orl (run : CoreRun) (d a : Fin 32) (imm : BitVec 20)
  /-- XORL (R326). -/
  | xorl (run : CoreRun) (d a : Fin 32) (imm : BitVec 20)
  /-- LIS (R326). -/
  | lis (run : CoreRun) (d a : Fin 32) (imm : BitVec 20)
  /-- ALUX_ADD (R327). -/
  | aluxAdd (run : CoreRun) (d a b : Fin 32) (guard : Fin 8) (neg : Bool)
  /-- ALUX_SUB (R327). -/
  | aluxSub (run : CoreRun) (d a b : Fin 32) (guard : Fin 8) (neg : Bool)
  /-- ALUX_AND (R327). -/
  | aluxAnd (run : CoreRun) (d a b : Fin 32) (guard : Fin 8) (neg : Bool)
  /-- ALUX_OR (R327). -/
  | aluxOr (run : CoreRun) (d a b : Fin 32) (guard : Fin 8) (neg : Bool)
  /-- ALUX_XOR (R327). -/
  | aluxXor (run : CoreRun) (d a b : Fin 32) (guard : Fin 8) (neg : Bool)
  /-- ALUX_ANDN (R327). -/
  | aluxAndn (run : CoreRun) (d a b : Fin 32) (guard : Fin 8) (neg : Bool)
  /-- ALUX_SHL (R327). -/
  | aluxShl (run : CoreRun) (d a b : Fin 32) (guard : Fin 8) (neg : Bool)
  /-- ALUX_SHR (R327). -/
  | aluxShr (run : CoreRun) (d a b : Fin 32) (guard : Fin 8) (neg : Bool)
  /-- ALUX_SAR (R327). -/
  | aluxSar (run : CoreRun) (d a b : Fin 32) (guard : Fin 8) (neg : Bool)
  /-- ALUX_MUL (R327). -/
  | aluxMul (run : CoreRun) (d a b : Fin 32) (guard : Fin 8) (neg : Bool)
  /-- ALUX_MULH (R327). -/
  | aluxMulh (run : CoreRun) (d a b : Fin 32) (guard : Fin 8) (neg : Bool)
  /-- ALUX_MULHU (R327). -/
  | aluxMulhu (run : CoreRun) (d a b : Fin 32) (guard : Fin 8) (neg : Bool)
  /-- ALUX_DIV (R328). -/
  | aluxDiv (run : CoreRun) (d a b : Fin 32) (guard : Fin 8) (neg : Bool)
  /-- ALUX_DIVU (R328). -/
  | aluxDivu (run : CoreRun) (d a b : Fin 32) (guard : Fin 8) (neg : Bool)
  /-- ALUX_REM (R328). -/
  | aluxRem (run : CoreRun) (d a b : Fin 32) (guard : Fin 8) (neg : Bool)
  /-- ALUX_REMU (R328). -/
  | aluxRemu (run : CoreRun) (d a b : Fin 32) (guard : Fin 8) (neg : Bool)
  /-- ALUX_MIN (R327). -/
  | aluxMin (run : CoreRun) (d a b : Fin 32) (guard : Fin 8) (neg : Bool)
  /-- ALUX_MAX (R327). -/
  | aluxMax (run : CoreRun) (d a b : Fin 32) (guard : Fin 8) (neg : Bool)
  /-- ALUX_MINU (R327). -/
  | aluxMinu (run : CoreRun) (d a b : Fin 32) (guard : Fin 8) (neg : Bool)
  /-- ALUX_MAXU (R327). -/
  | aluxMaxu (run : CoreRun) (d a b : Fin 32) (guard : Fin 8) (neg : Bool)
  /-- ALUX_CLZ (R327). -/
  | aluxClz (run : CoreRun) (d a b : Fin 32) (guard : Fin 8) (neg : Bool)
  /-- ALUX_CTZ (R327). -/
  | aluxCtz (run : CoreRun) (d a b : Fin 32) (guard : Fin 8) (neg : Bool)
  /-- ALUX_POPC (R327). -/
  | aluxPopc (run : CoreRun) (d a b : Fin 32) (guard : Fin 8) (neg : Bool)
  /-- ALUX_BSWAP (R327). -/
  | aluxBswap (run : CoreRun) (d a b : Fin 32) (guard : Fin 8) (neg : Bool)
  /-- ALUX_SEXT32 (R327). -/
  | aluxSext32 (run : CoreRun) (d a b : Fin 32) (guard : Fin 8) (neg : Bool)
  /-- ALUX_ZEXT32 (R327). -/
  | aluxZext32 (run : CoreRun) (d a b : Fin 32) (guard : Fin 8) (neg : Bool)
  /-- BR (R332). -/
  | br (run : CoreRun) (p : Fin 8) (neg : Bool) (offset : BitVec 10)
  /-- BRL (R332). -/
  | brl (run : CoreRun) (p : Fin 8) (neg : Bool) (offset : BitVec 20)
  /-- JAL (R332). -/
  | jal (run : CoreRun) (offset : BitVec 15)
  /-- JALL (R332). -/
  | jall (run : CoreRun) (d : Fin 32) (offset : BitVec 20)
  /-- JALR (R332). -/
  | jalr (run : CoreRun) (d a : Fin 32)
  /-- LD (R333). -/
  | ld (run : CoreRun) (d a : Fin 32) (imm : BitVec 5)
  /-- ST (R333). -/
  | st (run : CoreRun) (d a : Fin 32) (imm : BitVec 5) (merge : ReadRun)
  /-- LDX (R333). -/
  | ldx (run : CoreRun) (d a : Fin 32) (size : Fin 4) (sign : Bool) (offset : BitVec 17)
  /-- STX (R333). -/
  | stx (run : CoreRun) (d a : Fin 32) (size : Fin 4) (sign : Bool) (offset : BitVec 17) (merge : ReadRun)
  /-- DEVICE_LOAD_RETURN (R315). -/
  | deviceLoadReturn (core : Fin 264)
  /-- ATOM_SWAP (R334). -/
  | atomSwap (run : CoreRun) (d a b : Fin 32) (size order : Fin 4) (merge : ReadRun)
  /-- ATOM_ADD (R334). -/
  | atomAdd (run : CoreRun) (d a b : Fin 32) (size order : Fin 4) (merge : ReadRun)
  /-- ATOM_AND (R334). -/
  | atomAnd (run : CoreRun) (d a b : Fin 32) (size order : Fin 4) (merge : ReadRun)
  /-- ATOM_OR (R334). -/
  | atomOr (run : CoreRun) (d a b : Fin 32) (size order : Fin 4) (merge : ReadRun)
  /-- ATOM_XOR (R334). -/
  | atomXor (run : CoreRun) (d a b : Fin 32) (size order : Fin 4) (merge : ReadRun)
  /-- ATOM_MIN (R334). -/
  | atomMin (run : CoreRun) (d a b : Fin 32) (size order : Fin 4) (merge : ReadRun)
  /-- ATOM_MAX (R334). -/
  | atomMax (run : CoreRun) (d a b : Fin 32) (size order : Fin 4) (merge : ReadRun)
  /-- ATOM_MINU (R334). -/
  | atomMinu (run : CoreRun) (d a b : Fin 32) (size order : Fin 4) (merge : ReadRun)
  /-- ATOM_MAXU (R334). -/
  | atomMaxu (run : CoreRun) (d a b : Fin 32) (size order : Fin 4) (merge : ReadRun)
  /-- ATOM_CAS (R334). -/
  | atomCas (run : CoreRun) (d a b c : Fin 32) (size order : Fin 4) (merge : ReadRun)
  /-- NOP (R337). -/
  | nop (run : CoreRun)
  /-- FENCE (R337). -/
  | fence (run : CoreRun)
  /-- TRAP (R337). -/
  | trap (run : CoreRun) (code : BitVec 10)
  /-- IMPRECISE_FAULT (R321). -/
  | impreciseFault (core : Fin 264)
  /-- RETT (R319). -/
  | rett (run : CoreRun)
  /-- RDCS (R323). -/
  | rdcs (run : CoreRun) (d index : Fin 32)
  /-- WRCS (R323). -/
  | wrcs (run : CoreRun) (index a : Fin 32)
  /-- FAULT (R318). -/
  | fault (run : CoreRun) (code : BitVec 10)
  /-- VFMA_F32 (R371). -/
  | vfmaF32 (run : CoreRun) (d a b : Fin 16)
  /-- VDOT_BF16 (R371). -/
  | vdotBf16 (run : CoreRun) (d a b : Fin 16)
  /-- VDOT_FP16 (R371). -/
  | vdotFp16 (run : CoreRun) (d a b : Fin 16)
  /-- VDOT_I8 (R371). -/
  | vdotI8 (run : CoreRun) (d a b : Fin 16)
  /-- VADD_F32 (R371). -/
  | vaddF32 (run : CoreRun) (d a b : Fin 16)
  /-- VMUL_F32 (R371). -/
  | vmulF32 (run : CoreRun) (d a b : Fin 16)
  /-- VADD_I32 (R371). -/
  | vaddI32 (run : CoreRun) (d a b : Fin 16)
  /-- VXOR (R371). -/
  | vxor (run : CoreRun) (d a b : Fin 16)
  /-- VOP_ADD (R372). -/
  | vopAdd (run : CoreRun) (type : Fin 8) (d a b : Fin 16) (guard : Fin 8) (neg : Bool)
  /-- VOP_SUB (R372). -/
  | vopSub (run : CoreRun) (type : Fin 8) (d a b : Fin 16) (guard : Fin 8) (neg : Bool)
  /-- VOP_MUL (R372). -/
  | vopMul (run : CoreRun) (type : Fin 8) (d a b : Fin 16) (guard : Fin 8) (neg : Bool)
  /-- VOP_FMA (R372). -/
  | vopFma (run : CoreRun) (type : Fin 8) (d a b : Fin 16) (guard : Fin 8) (neg : Bool)
  /-- VOP_MIN (R372). -/
  | vopMin (run : CoreRun) (type : Fin 8) (d a b : Fin 16) (guard : Fin 8) (neg : Bool)
  /-- VOP_MAX (R372). -/
  | vopMax (run : CoreRun) (type : Fin 8) (d a b : Fin 16) (guard : Fin 8) (neg : Bool)
  /-- VOP_AND (R372). -/
  | vopAnd (run : CoreRun) (type : Fin 8) (d a b : Fin 16) (guard : Fin 8) (neg : Bool)
  /-- VOP_OR (R372). -/
  | vopOr (run : CoreRun) (type : Fin 8) (d a b : Fin 16) (guard : Fin 8) (neg : Bool)
  /-- VOP_XOR (R372). -/
  | vopXor (run : CoreRun) (type : Fin 8) (d a b : Fin 16) (guard : Fin 8) (neg : Bool)
  /-- VOP_CVT (R372). -/
  | vopCvt (run : CoreRun) (type : Fin 8) (d a b : Fin 16) (guard : Fin 8) (neg : Bool)
  /-- VOP_DOT (R372). -/
  | vopDot (run : CoreRun) (type : Fin 8) (d a b : Fin 16) (guard : Fin 8) (neg : Bool)
  /-- VSPLAT (R373). -/
  | vsplat (run : CoreRun) (type : Fin 8) (d : Fin 16) (a : Fin 32)
  /-- VEXT (R373). -/
  | vext (run : CoreRun) (type : Fin 8) (d : Fin 32) (a : Fin 16) (lane : Fin 64)
  /-- VINS (R373). -/
  | vins (run : CoreRun) (type : Fin 8) (d : Fin 16) (a : Fin 32) (lane : Fin 64)
  /-- VRSUM (R373). -/
  | vrsum (run : CoreRun) (type : Fin 8) (d : Fin 32) (a : Fin 16)
  /-- VLDS (R374). -/
  | vlds (run : CoreRun) (v : Fin 16) (a : Fin 32) (imm : BitVec 16)
  /-- VSTS (R374). -/
  | vsts (run : CoreRun) (v : Fin 16) (a : Fin 32) (imm : BitVec 16)
  /-- VLDL (R374). -/
  | vldl (run : CoreRun) (v : Fin 16) (a : Fin 32) (op : Fin 4) (imm : BitVec 16)
  /-- VSTL (R374). -/
  | vstl (run : CoreRun) (v : Fin 16) (a : Fin 32) (op : Fin 4) (imm : BitVec 16)
  /-- DRD (R341). -/
  | drd (run : CoreRun) (d a : Fin 32) (offset : Fin 16)
  /-- DWR (R341). `pump`: the fuse program pump is within its window. -/
  | dwr (run : CoreRun) (d a : Fin 32) (offset : Fin 16) (pump : Bool)
  /-- DRD_L (R341). -/
  | drdL (run : CoreRun) (d a : Fin 32) (offset : BitVec 19)
  /-- DWR_L (R341). -/
  | dwrL (run : CoreRun) (d a : Fin 32) (offset : BitVec 19) (pump : Bool)
  /-- RT_READ (R343). -/
  | rtRead (run : CoreRun) (d : Fin 32)
  /-- RT_WAITL (R343). -/
  | rtWaitl (run : CoreRun) (a : Fin 32)
  /-- RT_WAITT (R343). The tick of the line at which it issues. -/
  | rtWaitt (run : CoreRun) (a : Fin 32) (tick : Fin 1024)
  /-- WAIT_RESUME (R343). The tick of the line at which the wait is judged. -/
  | waitResume (core : Fin 264) (tick : Fin 1024)
  /-- RT_ARM (R343). -/
  | rtArm (run : CoreRun) (d a : Fin 32)
  /-- RT_DISARM (R343). -/
  | rtDisarm (run : CoreRun) (d : Fin 32)
  /-- EVT_WAIT (R344). -/
  | evtWait (run : CoreRun) (d a : Fin 32)
  /-- EVT_POLL (R344). -/
  | evtPoll (run : CoreRun) (d a : Fin 32)
  /-- EVT_POST (R345). -/
  | evtPost (run : CoreRun) (d a : Fin 32)
  /-- EVT_RECV (R346). -/
  | evtRecv (run : CoreRun) (d a : Fin 32)
  /-- EVT_BEAT (R353). -/
  | evtBeat (run : CoreRun)
  /-- PL_PIN (R173). -/
  | plPin (run : CoreRun) (d a : Fin 32)
  /-- PL_UNPIN (R173). -/
  | plUnpin (run : CoreRun) (d a : Fin 32)
  /-- PL_HEAT (R173). -/
  | plHeat (run : CoreRun) (d a : Fin 32)
  /-- PL_MOVE (R157). -/
  | plMove (run : CoreRun) (d a b : Fin 32) (cause : Fin 8) (kind : MoveKind)
  /-- PL_RESOLVE (R348). -/
  | plResolve (run : CoreRun) (d c a : Fin 32)
  /-- ACCT_SVC (R185). -/
  | acctSvc (run : CoreRun) (d a : Fin 32)
  /-- ACCT_ADMIT (R183). -/
  | acctAdmit (run : CoreRun) (d a b : Fin 32) (cool : Bool)
  /-- ACCT_ADJUST (R185). -/
  | acctAdjust (run : CoreRun) (d a b : Fin 32) (sel : Fin 4)
  /-- COH_INV (R350). -/
  | cohInv (run : CoreRun) (d a : Fin 32)
  /-- COH_DATA (R350). -/
  | cohData (run : CoreRun) (d a : Fin 32)
  /-- COH_INVR (R350). -/
  | cohInvr (run : CoreRun) (d a b : Fin 32)
  /-- COH_QRY (R350). -/
  | cohQry (run : CoreRun) (d a : Fin 32)
  /-- HEARTBEAT_CHECK (R353). -/
  | heartbeatCheck
  /-- SCRIBE_FAULT (R355). -/
  | scribeFault (scribe : Fin 8)
  /-- TAKEOVER_COPY_COMPLETE (R355). -/
  | takeoverCopyComplete
  /-- RUBRIC_HANDOVER (R357). -/
  | rubricHandover
  /-- LOAD_SESSION_EXPIRY (R357). -/
  | loadSessionExpiry
  /-- MAILBOX_DOORBELL (R358). The value written to MB_CTRL. -/
  | mailboxDoorbell (mailbox : Fin 4096) (value : BitVec 32)
  /-- MAILBOX_TIMEOUT (R359). -/
  | mailboxTimeout (mailbox : Fin 4096)
  /-- MBX_COMPLETE (R360). -/
  | mbxComplete (value : BitVec 64)
  /-- GET_INFO (R359). -/
  | getInfo (mailbox : Fin 4096)
  /-- RUBRIC_LIST (R359). -/
  | rubricList (mailbox : Fin 4096)
  /-- RUBRIC_LOAD_BEGIN (R357). -/
  | rubricLoadBegin (mailbox : Fin 4096)
  /-- RUBRIC_LOAD_CHUNK (R357). -/
  | rubricLoadChunk (mailbox : Fin 4096)
  /-- RUBRIC_LOAD_COMMIT (R357). -/
  | rubricLoadCommit (mailbox : Fin 4096)
  /-- RUBRIC_STOP (R359). -/
  | rubricStop (mailbox : Fin 4096)
  /-- RUBRIC_RESTORE_BASE (R359). -/
  | rubricRestoreBase (mailbox : Fin 4096)
  /-- RUBRIC_MESSAGE (R359). -/
  | rubricMessage (mailbox : Fin 4096)
  /-- GET_EVENT_RECORDS (R511). -/
  | getEventRecords (mailbox : Fin 4096)
  /-- PIN_RANGE (R359). -/
  | pinRange (mailbox : Fin 4096)
  /-- RESEAL_GET_CHALLENGE (R228). -/
  | resealGetChallenge (mailbox : Fin 4096)
  /-- RESEAL_SUBMIT (R228). -/
  | resealSubmit (mailbox : Fin 4096)
  /-- ACCOUNT_REQUEST (R359). -/
  | accountRequest (mailbox : Fin 4096)
  /-- KERNEL_LOAD_BEGIN (R377). -/
  | kernelLoadBegin (mailbox : Fin 4096)
  /-- KERNEL_LOAD_CHUNK (R377). -/
  | kernelLoadChunk (mailbox : Fin 4096)
  /-- KERNEL_LOAD_COMMIT (R377). -/
  | kernelLoadCommit (mailbox : Fin 4096)
  /-- KERNEL_REMOVE (R378). -/
  | kernelRemove (mailbox : Fin 4096)
  /-- KERNEL_REMOVE_COMPLETE (R378). -/
  | kernelRemoveComplete
  /-- KERNEL_LIST (R377). -/
  | kernelList (mailbox : Fin 4096)
  /-- QUEUE_CREATE (R377). -/
  | queueCreate (mailbox : Fin 4096)
  /-- QUEUE_DELETE (R394). -/
  | queueDelete (mailbox : Fin 4096)
  /-- GROUP_SET (R377). -/
  | groupSet (mailbox : Fin 4096)
  /-- SQ_DOORBELL (R380). The local index of the pair and the tail written. -/
  | sqDoorbell (port : Fin 64) (sub : Fin 4) (ld : Fin 16) (index : Fin 16384) (value : BitVec 32)
  /-- CQ_DOORBELL (R380). The local index of the pair and the head written. -/
  | cqDoorbell (port : Fin 64) (sub : Fin 4) (ld : Fin 16) (index : Fin 16384) (value : BitVec 32)
  /-- ITEM_FETCH (R384). What the host (for an SQ in host memory) or the holder of a lent leaf returns, and whether it does. -/
  | itemFetch (pair : Fin 16384) (data : BitVec 512) (fetch : FetchRun)
  /-- PLACEMENT_RETRY (R387). -/
  | placementRetry
  /-- DEFER_LIMIT_EXPIRY (R387). -/
  | deferLimitExpiry
  /-- CLUSTER_VOTE_RELEASE (R387). -/
  | clusterVoteRelease
  /-- ITEM_START (R389). -/
  | itemStart (start : StartRun)
  /-- DEADLINE_DROP (R388). -/
  | deadlineDrop
  /-- ITEM_END (R390). -/
  | itemEnd (core : Fin 256)
  /-- RUN_LIMIT_EXPIRY (R390). -/
  | runLimitExpiry (core : Fin 256)
  /-- QUE_PAIR_CFG_WRITE (R396). -/
  | quePairCfgWrite (value : BitVec 64)
  /-- QUE_PAIR_SQ_WRITE (R396). -/
  | quePairSqWrite (value : BitVec 64)
  /-- QUE_PAIR_CQ_WRITE (R396). -/
  | quePairCqWrite (value : BitVec 64)
  /-- NIB_CORE_PARK_WRITE (R100). -/
  | nibCoreParkWrite (core : Fin 256) (value : BitVec 64)
  /-- CORE_PARKED (R100). -/
  | coreParked (core : Fin 256)
  /-- REFCLK_LOSS (R406). -/
  | refclkLoss (input : Fin 4)
  /-- REFCLK_FREQUENCY_TRIP (R406). -/
  | refclkFrequencyTrip (input : Fin 4)
  /-- REFCLK_VALID (R406). -/
  | refclkValid (input : Fin 4)
  /-- REFCLK_READY (R406). -/
  | refclkReady (input : Fin 4)
  /-- PLL_RELOCK (R407). Loop 0 root, 1 to 4 quadrant SerDes PLLs, 5 to 8 tower PLLs, 9 NIBS, 10 NIBP. -/
  | pllRelock (loop : Fin 11)
  /-- PLL_COAST (R408). -/
  | pllCoast (loop : Fin 11)
  /-- COAST_ESCALATION (R415). -/
  | coastEscalation (loop : Fin 11)
  /-- PLL_LOCK_LOST (R410). -/
  | pllLockLost (loop : Fin 11)
  /-- OSC_LOCK_COMPLETE (R404). -/
  | oscLockComplete (trim : BitVec 8)
  /-- OSC_OUT_OF_RANGE (R405). -/
  | oscOutOfRange
  /-- OSC_RELOCK (R417). -/
  | oscRelock (value : BitVec 64)
  /-- DOMAIN_SWITCH_REQUEST (R412). -/
  | domainSwitchRequest (domain : Fin 32) (value : BitVec 64)
  /-- DOMAIN_SWITCH_COMPLETE (R413). -/
  | domainSwitchComplete (domain : Fin 32)
  /-- GATE_WRITE (R414). -/
  | gateWrite (gate : Fin 4096) (value : BitVec 64)
  /-- CLK_OUT_WRITE (R399). -/
  | clkOutWrite (out : Fin 2) (value : BitVec 64)
  /-- NIB_PLL_WRITE (R402). -/
  | nibPllWrite (pll : Fin 2) (value : BitVec 64)
  /-- CROSSING_OVERRUN (R402). -/
  | crossingOverrun
  /-- VIN_ON (R418). What the RTC counted while VIN was absent; none when it stopped. -/
  | vinOn (rtc : Option (BitVec 64))
  /-- VIN_OFF (R427). -/
  | vinOff
  /-- VIN_FAULT (R420). -/
  | vinFault
  /-- INK_PHASE_LOST (R419). -/
  | inkPhaseLost (phase : Fin 8)
  /-- INK_RAIL_FAULT (R420). -/
  | inkRailFault
  /-- DOMAIN_VOTE (R422). -/
  | domainVote (scribe : Fin 8) (domain : Fin 38)
  /-- DOMAIN_UNVOTE (R422). -/
  | domainUnvote (scribe : Fin 8) (domain : Fin 38)
  /-- DOMAIN_RISE_COMPLETE (R424). -/
  | domainRiseComplete (domain : Fin 38)
  /-- DOMAIN_DROP_COMPLETE (R424). -/
  | domainDropComplete (domain : Fin 38)
  /-- PWR_REQUEST (R429). -/
  | pwrRequest (value : BitVec 64)
  /-- SHUTDOWN_N_FALL (R429). -/
  | shutdownNFall
  /-- SHUTDOWN_N_RISE (R429). -/
  | shutdownNRise
  /-- WAKE_N (R431). -/
  | wakeN
  /-- DRAIN_TIMEOUT (R430). -/
  | drainTimeout
  /-- STATE_ENTRY_COMPLETE (R430). -/
  | stateEntryComplete
  /-- CAPPED_IDLE_EXPIRY (R432). -/
  | cappedIdleExpiry
  /-- LIMITER_WINDOW (R436). -/
  | limiterWindow
  /-- RESET_ASSERT (R550). -/
  | resetAssert
  /-- RESET_RELEASE (R557). -/
  | resetRelease (boot : BootInput)
  /-- INKWELL_CYCLE_RESTART (R429). -/
  | inkwellCycleRestart
  /-- THERMTRIP_RESTART_CHECK (R457). What every sensor reads, in 0.25 °C. -/
  | thermtripRestartCheck (readings : List (Fin 370 × BitVec 12))
  /-- STEP_DECAY (R443). Nib cluster 0 to 15, or 16 + tower. -/
  | stepDecay (unit : Fin 20)
  /-- LAYER_COOL (R446). -/
  | layerCool (tower : Fin 4) (layer : Fin 17)
  /-- FAST_LIMITER_RELEASE (R452). -/
  | fastLimiterRelease
  /-- PEAK_GRANT_WRITE (R450). -/
  | peakGrantWrite (value : BitVec 64)
  /-- THM_LIMITS_WRITE (R442). -/
  | thmLimitsWrite (value : BitVec 64)
  /-- THM_SENSOR_READ (R460). -/
  | thmSensorRead (sensor : Fin 370)
  /-- CAL_FOLIO_EVALUATE (R465). -/
  | calFolioEvaluate
  /-- LANE_SET_SWAP (R465). -/
  | laneSetSwap (quad : Fin 4)
  /-- CAL_HOLD_START (R467). -/
  | calHoldStart (chan : Fin 256)
  /-- CAL_HOLD_COMPLETE (R469). The measured values, the driving temperature in 0.25 °C and how far it moved, and whether eyes and codes pass. -/
  | calHoldComplete (chan : Fin 256) (temp : Int) (values : List (Nat × Int)) (eyes : Bool) (drift : Nat)
  /-- CAL_REQUEST (R476). -/
  | calRequest (value : BitVec 64)
  /-- CAL_RECORD_FLUSH (R473). -/
  | calRecordFlush (unit : Fin 260)
  /-- FUSE_PROGRAM (R485). The Scribe that writes (none: JTAG) and whether the program pump is inside its window. -/
  | fuseProgram (writer : Option (Fin 8)) (value : BitVec 64) (pump : Bool)
  /-- FUSE_PROGRAM_COMPLETE (R485). The window left during the pulse (0 VIN, 1 pump, 2 temperature) and the read-back. -/
  | fuseProgramComplete (stopped : Option (Fin 3)) (reading : FuseReading)
  /-- FUSE_READ (R482). -/
  | fuseRead (value : BitVec 64)
  /-- FUSE_READ_COMPLETE (R482). -/
  | fuseReadComplete (reading : FuseReading)
  /-- FUSE_LOCK_SET (R488). -/
  | fuseLockSet (value : BitVec 64)
  /-- BLOTTER_REPORT (R512). A source reports an event with what its capture holds. -/
  | blotterReport (type : Fin 384) (source : Fin 608) (master : Option (BitVec 16)) (access : Fin 10) (dpa : Option (BitVec 52)) (media : Option (BitVec 40)) (detail : BitVec 64) (queueFull : Bool)
  /-- WIRE_FAULT (R503). -/
  | wireFault (source : Fin 608)
  /-- SEVERITY_WRITE (R507). -/
  | severityWrite (type : Fin 384) (value : BitVec 64)
  /-- EVENT_INJECT (R507). -/
  | eventInject (writer : Option (Fin 8)) (value : BitVec 64)
  /-- LATCH_CLEAR (R512). -/
  | latchClear (source : Fin 608)
  /-- LATCH_REARM (R512). -/
  | latchRearm (source : Fin 608)
  /-- ALERT_CLEAR (R510). -/
  | alertClear (value : BitVec 64)
  /-- COLOPHON_COMMIT (R525). Whether the flash sector fails (R529). -/
  | colophonCommit (failed : Bool)
  /-- MINUTE_SUMMARY (R525). -/
  | minuteSummary
  /-- CHECKPOINT_WRITE (R526). Whether VIN is lost during the write. -/
  | checkpointWrite (lost : Bool)
  /-- COLOPHON_FLUSH (R536). -/
  | colophonFlush (value : BitVec 64)
  /-- CALENDAR_SET (R532). -/
  | calendarSet (management : Bool) (value : BitVec 64)
  /-- VIO_OVERLOAD (R545). -/
  | vioOverload
  /-- VIO_RETRY (R545). -/
  | vioRetry
  /-- CRYSTAL_FAILURE (R550). -/
  | crystalFailure
  /-- MGMT_BUS_STUCK (R550). -/
  | mgmtBusStuck
  /-- SLOT_CHECK_COMPLETE (R561). The slot's bytes, none when the flash does not answer; `reread`: the second reading of the loader gives the same digest. -/
  | slotCheckComplete (slot : Option (List (BitVec 8))) (reread : Bool)
  /-- TOWER_TRAINING_COMPLETE (R564). -/
  | towerTrainingComplete (found : TrainingInput)
  /-- BASE_RUBRICS_START (R567). Roles, counted from 0, whose image's second reading differs. -/
  | baseRubricsStart (changed : List (Fin 6))
  /-- MEMORY_ACTIVE (R568). Milliseconds from the reset release. -/
  | memoryActive (ms : BitVec 32)
  /-- RECOVERY_PACKAGE_RECEIVED (R563). -/
  | recoveryPackageReceived (bytes : List (BitVec 8))
  /-- SET_ENDPOINT_ID (R573). -/
  | setEndpointId (env : Envelope) (eid : BitVec 8)
  /-- GET_ENDPOINT_ID (R573). -/
  | getEndpointId (env : Envelope)
  /-- GET_ENDPOINT_UUID (R573). -/
  | getEndpointUuid (env : Envelope)
  /-- GET_MCTP_VERSION_SUPPORT (R573). -/
  | getMctpVersionSupport (env : Envelope) (type : BitVec 8)
  /-- GET_MESSAGE_TYPE_SUPPORT (R574). -/
  | getMessageTypeSupport (env : Envelope)
  /-- GET_VENDOR_DEFINED_MESSAGE_SUPPORT (R573). -/
  | getVendorDefinedMessageSupport (env : Envelope)
  /-- SETDASA (R572). -/
  | setdasa (static dynamic : BitVec 7)
  /-- ENTDAA (R572). -/
  | entdaa (assigned : BitVec 7)
  /-- COLOPHON_READ (R575). -/
  | colophonRead (env : Envelope) (tag : BitVec 16) (area : BitVec 8) (start : BitVec 32) (most : BitVec 16)
  /-- POWER (R575). -/
  | power (env : Envelope) (tag : BitVec 16) (target : BitVec 8)
  /-- INKWELL_ARM (R577). -/
  | inkwellArm (env : Envelope) (tag : BitVec 16)
  /-- INKWELL_CYCLE (R577). `inTime`: within 1 s of the last INKWELL_ARM. -/
  | inkwellCycle (env : Envelope) (tag : BitVec 16) (nonce : BitVec 32) (inTime : Bool)
  /-- OWNER_CHALLENGE (R576). -/
  | ownerChallenge (env : Envelope) (tag : BitVec 16) (slot : BitVec 8)
  /-- OWNER_PROVISION (R576). -/
  | ownerProvision (env : Envelope) (tag : BitVec 16) (slot : BitVec 8) (hash : BitVec 256) (signature : List (BitVec 8)) (pump : Bool) (runs : List WordRun)
  /-- ROLLBACK_RAISE (R578). What the flash answers for each slot. -/
  | rollbackRaise (env : Envelope) (tag : BitVec 16) (version : BitVec 16) (slotA slotB : Option (List (BitVec 8))) (pump : Bool) (runs : List WordRun)
  /-- GET_PDR_REPOSITORY_INFO (R579). -/
  | getPdrRepositoryInfo (env : Envelope)
  /-- GET_PDR (R579). -/
  | getPdr (env : Envelope) (handle : BitVec 32)
  /-- GET_SENSOR_READING (R579). `sample`: the Inkwell's measurement in Standby. -/
  | getSensorReading (env : Envelope) (sensor sample : BitVec 16)
  /-- GET_STATE_SENSOR_READINGS (R579). -/
  | getStateSensorReadings (env : Envelope) (sensor : BitVec 16)
  /-- SET_EVENT_RECEIVER (R579). -/
  | setEventReceiver (env : Envelope) (receiver : Option (BitVec 8))
  /-- POLL_FOR_PLATFORM_EVENT_MESSAGE (R579). -/
  | pollForPlatformEventMessage (env : Envelope)
  /-- QUERY_DEVICE_IDENTIFIERS (R580). -/
  | queryDeviceIdentifiers (env : Envelope)
  /-- GET_FIRMWARE_PARAMETERS (R580). -/
  | getFirmwareParameters (env : Envelope)
  /-- REQUEST_UPDATE (R581). -/
  | requestUpdate (env : Envelope)
  /-- PASS_COMPONENT_TABLE (R580). `other`: what the flash answers for the other slot. -/
  | passComponentTable (env : Envelope) (component : BitVec 16) (other : Option (List (BitVec 8)))
  /-- UPDATE_COMPONENT (R581). -/
  | updateComponent (env : Envelope) (component : BitVec 16) (length : BitVec 32)
  /-- FIRMWARE_DATA_RESPONSE (R581). -/
  | firmwareDataResponse (env : Envelope) (bytes : List (BitVec 8))
  /-- TRANSFER_COMPLETE (R581). The slot as read back. -/
  | transferComplete (slot : Option (List (BitVec 8)))
  /-- ACTIVATE_FIRMWARE (R581). -/
  | activateFirmware (env : Envelope)
  /-- GET_STATUS (R580). -/
  | getStatus (env : Envelope)
  /-- CANCEL_UPDATE_COMPONENT (R580). -/
  | cancelUpdateComponent (env : Envelope)
  /-- CANCEL_UPDATE (R580). -/
  | cancelUpdate (env : Envelope)
  /-- GET_VERSION (R582). -/
  | getVersion (env : Envelope)
  /-- GET_CAPABILITIES (R582). -/
  | getCapabilities (env : Envelope)
  /-- NEGOTIATE_ALGORITHMS (R582). `common`: the requester offers the extended algorithm. -/
  | negotiateAlgorithms (env : Envelope) (common : Bool)
  /-- GET_DIGESTS (R582). -/
  | getDigests (env : Envelope)
  /-- GET_CERTIFICATE (R583). -/
  | getCertificate (env : Envelope) (slot : Fin 16) (offset length : BitVec 16)
  /-- CHALLENGE (R583). -/
  | challenge (env : Envelope) (slot : Fin 16)
  /-- GET_MEASUREMENTS (R584). -/
  | getMeasurements (env : Envelope) (index : BitVec 8) (sign : Bool)
  /-- KEY_EXCHANGE (R582). -/
  | keyExchange (env : Envelope) (session : BitVec 32)
  /-- FINISH (R582). -/
  | finish (env : Envelope) (session : BitVec 32) (verified : Bool)
  /-- GET_ENCAPSULATED_REQUEST (R582). -/
  | getEncapsulatedRequest (env : Envelope) (session : BitVec 32)
  /-- DELIVER_ENCAPSULATED_RESPONSE (R582). -/
  | deliverEncapsulatedResponse (env : Envelope) (session : BitVec 32) (leaf root : BitVec 256) (valid : Bool)
  /-- HEARTBEAT (R582). -/
  | heartbeat (env : Envelope) (session : BitVec 32)
  /-- KEY_UPDATE (R582). -/
  | keyUpdate (env : Envelope) (session : BitVec 32)
  /-- END_SESSION (R582). -/
  | endSession (env : Envelope) (session : BitVec 32)
  /-- CHUNK_SEND (R582). -/
  | chunkSend (env : Envelope) (handle : BitVec 8) (seq : BitVec 16) (last : Bool)
  /-- CHUNK_GET (R582). -/
  | chunkGet (env : Envelope) (handle : BitVec 8) (seq : BitVec 16) (last : Bool)
  /-- IDENTIFY (R585). -/
  | identify (env : Envelope)
  /-- BACKGROUND_OPERATION_STATUS (R585). -/
  | backgroundOperationStatus (env : Envelope)
  /-- GET_LD_INFO (R585). -/
  | getLdInfo (env : Envelope) (port : Fin 64)
  /-- GET_LD_ALLOCATIONS (R585). -/
  | getLdAllocations (env : Envelope) (port : Fin 64)
  /-- GET_DCD_INFO (R585). -/
  | getDcdInfo (env : Envelope)
  /-- GET_HOST_DC_REGION_CONFIGURATION (R585). -/
  | getHostDcRegionConfiguration (env : Envelope) (port : Fin 64) (ld : Fin 16)
  /-- SET_DC_REGION_CONFIGURATION (R585). -/
  | setDcRegionConfiguration (env : Envelope) (port : Fin 64) (ld : Fin 16) (region : Fin 8) (value : BitVec 64)
  /-- GET_DC_REGION_EXTENT_LISTS (R585). -/
  | getDcRegionExtentLists (env : Envelope) (port : Fin 64) (ld : Fin 16)
  /-- INITIATE_DYNAMIC_CAPACITY_ADD (R585). -/
  | initiateDynamicCapacityAdd (env : Envelope) (value : BitVec 64)
  /-- INITIATE_DYNAMIC_CAPACITY_RELEASE (R585). -/
  | initiateDynamicCapacityRelease (env : Envelope) (value : BitVec 64)
  /-- JTAG_DESK_ACCESS (R491). The value to write, or none for a read. -/
  | jtagDeskAccess (addr : BitVec 24) (write : Option (BitVec 64)) (pump : Bool)
  /-- REGISTER_WRITE (R11). -/
  | registerWrite (scribe : Fin 8) (addr : BitVec 24) (value : BitVec 64) (pump : Bool)
  /-- INK_RAIL_RAISE (R429). What the RTC counted in Standby. -/
  | inkRailRaise (rtc : BitVec 32)
  /-- S2M_RESPONSE (R283). The line of a DRS as the holding node stores it; none for an NDR. -/
  | s2mResponse (tag : Nat) (line : Option StoredLine)
  /-- DEVICE_STORE_PERFORMED (R314). -/
  | deviceStorePerformed (core : Fin 264)
  /-- MAILBOX_AREA_WRITE (R358). -/
  | mailboxAreaWrite (mailbox : Fin 4096) (offset : BitVec 16) (bytes : List (BitVec 8))
  /-- LOCK_REGAINED (R250). -/
  | lockRegained (port : Fin 64) (lane : Fin 16)
  /-- RECOVERY_ENTRY (R291). -/
  | recoveryEntry (port : Fin 64) (sub : Fin 4)
  /-- LINK_TRAINING_FAILED (R240). 0 no Flit Mode, 1 PEER_UPSTREAM, 2 another. -/
  | linkTrainingFailed (port : Fin 64) (sub : Fin 4) (reason : Fin 3)
  deriving DecidableEq, Repr

end Sys2Proof
end

