-- ==== Sys2Proof/Decode.lean ====
section
/-! DEFINITION. The commands that words spell. No row of the opcode table gives bits, so no word spells a command. -/

namespace Sys2Proof

/-- The command a word spells by the opcode table's bits: none, since no row of the table gives a field. -/
def decodeTableWord (_nbits _w : Nat) : Option Instr := none

end Sys2Proof
end

