-- ==== Sys2Proof/Config.lean ====
section
/-! DEFINITION. What the spec leaves open (the free values, opaque, so that no proof can see them) and what it takes
from published standards without restating them (the ciphers, digests and signature checks, opaque for the same
reason). -/

namespace Sys2Proof.Config

/-- The n-th free value: a value the spec leaves open, drawn with the counter State.free (assumption 1). -/
opaque freeValue : Nat → BitVec 64

/-- AES-256-XTS of one memory line under a key with its DPA as tweak (R206, FIPS 197 and SP 800-38E): a permutation
of lines. The first argument identifies the key material (assumption 2). -/
opaque xts : BitVec 512 → Nat → Equiv.Perm (BitVec 512)

/-- KMAC128 with a 48-bit output (R208, SP 800-185): key, customisation string and message (assumption 2). -/
opaque kmac128 : BitVec 256 → List (BitVec 8) → List (BitVec 8) → BitVec 48

/-- The four check symbols of the Reed–Solomon code over GF(2^16) for 36 information symbols (R77): the spec does not
give the field's and the code's generator polynomials. -/
opaque rsCheck : BitVec 576 → BitVec 64

/-- The hash functions of the activation sketches (R122), which the spec does not give: bank, hashed row 0 to 3 and
DRAM row give a counter (assumption 1). -/
opaque sketchHash : Nat → Nat → Nat → BitVec 7

/-- SHA3-256 (FIPS 202) of a byte string (assumption 2). -/
opaque sha3 : List (BitVec 8) → BitVec 256

/-- Whether an ML-DSA-44 signature (FIPS 204) under a public key verifies over a message; key, message and signature
are byte strings (assumption 2). -/
opaque mldsaVerify : List (BitVec 8) → List (BitVec 8) → List (BitVec 8) → Bool

/-- The CRC-32 of Colophon, calibration and marginal-list records: Table 16-3 gives its polynomial and not its initial
value, its bit order or its final XOR (assumption 38). -/
opaque crc32 : List (BitVec 8) → BitVec 32

/-- The bytes of a Colophon record between its body and its CRC, by sequence number and offset, and those of a
checkpoint whose place Table 19-4 does not give (assumption 38). -/
opaque recordPad : Nat → Nat → BitVec 8

/-- The place, modulo 30, of a day's boost bucket in a checkpoint (assumption 38). -/
opaque boostPlace : Nat → Nat

/-- The boot ROM's fixed digest (Table 21-5), whose value the spec does not give (assumption 39). -/
opaque romDigest : BitVec 256

/-- The factory repairs that the repair fuses hold (R99), whose layout the spec does not give: from the words of region 1
that are not blank, repair word 0 to 2 of channel g at 3 g, 3 g + 1, 3 g + 2, and repair rows used of a bank at
768 + 272 g + bank (assumption 40). -/
opaque factoryRepair : List (Nat × Nat) → Nat → Nat

/-- The UUID of the MCTP endpoint (R573), whose value the spec does not give (assumption 41). -/
opaque endpointUuid : BitVec 128

/-- Tuofort's MIPI manufacturer ID (R572), whose value the spec does not give (assumption 41). -/
opaque mipiManufacturer : BitVec 15

/-- The ML-DSA-44 public key generated from a 32-byte seed (R583, FIPS 204; assumption 2). -/
opaque mldsaPublic : BitVec 256 → List (BitVec 8)

/-- The public key of a key slot's digest: a slot holds the digest alone (R492, R576; assumption 42). -/
opaque slotPublic : BitVec 256 → List (BitVec 8)

/-- The certificate chain of SPDM slot 0 (R583): the factory's part by the DeviceID key, the FirmwareID certificate by the
FirmwareID key with the digest of measurements 0 to 11, the slot security version and the device-state block. The format
is X.509's and the factory certificate is not the spec's (assumption 42). -/
opaque certChain : List (BitVec 8) → List (BitVec 8) → BitVec 256 → Nat → List (BitVec 8) → List (BitVec 8)

end Sys2Proof.Config
end

