-- ==== Sys2Proof/Machine/DeskMap.lean ====
section
/-! DEFINITION. The desk register map (R11, R29 and the register tables of chapters 2 to 19): every register of the
desk, its address, its fields with their access codes and ranges, and the reset value its table gives.
A register whose value the part keeps (a status, a counter, a setting) has its one home in the desk. -/

namespace Sys2Proof.Machine

/-- A field of one register instance: the desk address and the bits `lo + width - 1 : lo` (R6). -/
structure Fld where
  addr : Nat
  lo : Nat
  width : Nat
  deriving DecidableEq, Repr

/-- The access codes of Table 0-5 (R11). -/
inductive Access where
  | ro | rw | w1c | wo | rwl
  deriving DecidableEq, Repr

/-- One field of a register as its table gives it. `min`/`max` is the stated range, outside which the whole register
is left unchanged; `enc` is the highest encoding that is not reserved (R12). -/
structure FieldSpec where
  lo : Nat
  width : Nat
  acc : Access
  min : Nat
  max : Nat
  enc : Nat
  deriving DecidableEq, Repr

/-- Every register of the desk, by name. -/
inductive Reg where
  | RUL_TIME | RUL_STATUS | RUL_SOURCE | RUL_LINK | RUL_PEER_FORWARD | RUL_LOCAL_EPOCH
  | RUL_PERIOD | RUL_HEADER_LO | RUL_HEADER_HI | RUL_ERRORS | RUL_EVENT_FIRED | RUL_EVENT_LATE
  | RUL_EVENT_CTRL | RUL_EVENT_TIME | RUL_EVENT_ADDR | RUL_EVENT_DATA | CHN_SCHED | CHN_POOL
  | CHN_REFRESH | CHN_HAMMER | CHN_PAUSE_INTERVAL | CHN_PAUSE_STATUS | CHN_ERROR | CHN_REPAIR_STATE
  | CHN_DATA_TSV_FAILED | CHN_CA_TSV_FAILED | DCT_CTRL | DCT_HEAT | DCT_MAP_CACHE | DCT_MOVE_CTRL
  | DCT_MOVE_STATUS | DCT_EPOCH | DCT_WORK | DCT_LEND | DCT_HEAT_LIST | DCT_LOAD
  | DCT_SPREAD_SET | ACC_CTRL | ACC_ADMIT_STATUS | ACC_DEVICE | ACC_CHANNEL | ACC_LINK
  | ACC_MISS | ACC_REDUCED | ACC_VECTOR | ACC_CFG | ACC_RATE | ACC_SERVICE
  | SEL_CTRL | SEL_TREE | SEL_TREE_CACHE | SEL_MERGE | SEL_ERRORS | SEL_RESEAL_CHALLENGE
  | SEL_RESEAL_CMD | SEL_RESEAL_AUTH | SEL_RESEAL_STATUS | SEL_UNVERIFIABLE | SEL_IDE | SEL_KEY_ATTR
  | SEL_LD_KEY | LAN_PORT_CTRL | LAN_PORT_STATUS | LAN_LANES | LAN_PAIR | LAN_QUAD
  | LAN_DOZE | LAN_LINK_ERRORS | LAN_FLITS | LAN_WAKE | LAN_LANE_EQ | LAN_LANE_ERRORS
  | LAN_LANE_MARGIN | PRT_PORT_CTRL | PRT_PORT_STATUS | PRT_PORT_ERRORS | PRT_LD | PRT_DC_REGION
  | PRT_DC_USE | PRT_ROUTE | PRT_CTRL | PRT_SF_STATUS | PRT_BUFFER | PRT_EXTENT_CMD
  | PRT_EXTENT_STATUS | MBX_CTRL | MBX_SELECT | MBX_COMPLETE | MBX_SCRIBE | MBX_ADMIN
  | MBX_WINDOW | QUE_CTRL | QUE_COUNTS | QUE_SELECT | QUE_PAIR_CFG | QUE_PAIR_SQ
  | QUE_PAIR_CQ | QUE_PAIR_STATE | QUE_GROUP | NIB_CTRL | NIB_CLUSTER | NIB_CORE
  | NIB_KERNEL_LOC | NIB_KERNEL_EST | CLK_CTRL | CLK_ROOT | CLK_REF_STATUS | CLK_OSC
  | CLK_QUAD | CLK_OUT | CLK_NIB_PLL | CLK_DOMAIN | CLK_GATE | PWR_STATE
  | PWR_REQUEST | PWR_CTRL | PWR_CLASS | PWR_INK | PWR_WAKE | PWR_DOMAIN
  | THM_CTRL | THM_LIMITS | THM_PEAK | THM_TRIP | THM_CLUSTER | THM_TOWER
  | THM_BOOST | THM_SENSOR | COL_CAL_CTRL | COL_CAL_COUNTS | COL_CAL_REQUEST | COL_CAL_CHANNEL
  | COL_CAL_QUAD | FUS_STATUS | FUS_LOCK_SET | FUS_READ | FUS_READ_RESULT | FUS_PROG_DATA
  | FUS_PROG_CMD | FUS_PROG_STATUS | FUS_REGION | FUS_SHADOW | BLT_CTRL | BLT_STATUS
  | BLT_ALERT | BLT_LOG_SELECT | BLT_INJECT | BLT_LOG_RECORD | BLT_SOURCE | BLT_SEVERITY
  | COL_CTRL | COL_STATUS | COL_CALENDAR | COL_CALENDAR_SET | COL_LIFETIME | COL_SHUTDOWNS
  | COL_READ_SELECT | COL_READ_RECORD
  deriving DecidableEq, Repr

/-- Every register name, in address-table order. -/
def Reg.all0 : List Reg := [.RUL_TIME, .RUL_STATUS, .RUL_SOURCE, .RUL_LINK, .RUL_PEER_FORWARD, .RUL_LOCAL_EPOCH, .RUL_PERIOD, .RUL_HEADER_LO, .RUL_HEADER_HI, .RUL_ERRORS, .RUL_EVENT_FIRED, .RUL_EVENT_LATE, .RUL_EVENT_CTRL, .RUL_EVENT_TIME, .RUL_EVENT_ADDR, .RUL_EVENT_DATA, .CHN_SCHED, .CHN_POOL, .CHN_REFRESH, .CHN_HAMMER, .CHN_PAUSE_INTERVAL, .CHN_PAUSE_STATUS, .CHN_ERROR, .CHN_REPAIR_STATE, .CHN_DATA_TSV_FAILED, .CHN_CA_TSV_FAILED, .DCT_CTRL, .DCT_HEAT, .DCT_MAP_CACHE, .DCT_MOVE_CTRL, .DCT_MOVE_STATUS, .DCT_EPOCH, .DCT_WORK, .DCT_LEND, .DCT_HEAT_LIST, .DCT_LOAD, .DCT_SPREAD_SET, .ACC_CTRL, .ACC_ADMIT_STATUS, .ACC_DEVICE]
def Reg.all1 : List Reg := [.ACC_CHANNEL, .ACC_LINK, .ACC_MISS, .ACC_REDUCED, .ACC_VECTOR, .ACC_CFG, .ACC_RATE, .ACC_SERVICE, .SEL_CTRL, .SEL_TREE, .SEL_TREE_CACHE, .SEL_MERGE, .SEL_ERRORS, .SEL_RESEAL_CHALLENGE, .SEL_RESEAL_CMD, .SEL_RESEAL_AUTH, .SEL_RESEAL_STATUS, .SEL_UNVERIFIABLE, .SEL_IDE, .SEL_KEY_ATTR, .SEL_LD_KEY, .LAN_PORT_CTRL, .LAN_PORT_STATUS, .LAN_LANES, .LAN_PAIR, .LAN_QUAD, .LAN_DOZE, .LAN_LINK_ERRORS, .LAN_FLITS, .LAN_WAKE, .LAN_LANE_EQ, .LAN_LANE_ERRORS, .LAN_LANE_MARGIN, .PRT_PORT_CTRL, .PRT_PORT_STATUS, .PRT_PORT_ERRORS, .PRT_LD, .PRT_DC_REGION, .PRT_DC_USE, .PRT_ROUTE]
def Reg.all2 : List Reg := [.PRT_CTRL, .PRT_SF_STATUS, .PRT_BUFFER, .PRT_EXTENT_CMD, .PRT_EXTENT_STATUS, .MBX_CTRL, .MBX_SELECT, .MBX_COMPLETE, .MBX_SCRIBE, .MBX_ADMIN, .MBX_WINDOW, .QUE_CTRL, .QUE_COUNTS, .QUE_SELECT, .QUE_PAIR_CFG, .QUE_PAIR_SQ, .QUE_PAIR_CQ, .QUE_PAIR_STATE, .QUE_GROUP, .NIB_CTRL, .NIB_CLUSTER, .NIB_CORE, .NIB_KERNEL_LOC, .NIB_KERNEL_EST, .CLK_CTRL, .CLK_ROOT, .CLK_REF_STATUS, .CLK_OSC, .CLK_QUAD, .CLK_OUT, .CLK_NIB_PLL, .CLK_DOMAIN, .CLK_GATE, .PWR_STATE, .PWR_REQUEST, .PWR_CTRL, .PWR_CLASS, .PWR_INK, .PWR_WAKE, .PWR_DOMAIN]
def Reg.all3 : List Reg := [.THM_CTRL, .THM_LIMITS, .THM_PEAK, .THM_TRIP, .THM_CLUSTER, .THM_TOWER, .THM_BOOST, .THM_SENSOR, .COL_CAL_CTRL, .COL_CAL_COUNTS, .COL_CAL_REQUEST, .COL_CAL_CHANNEL, .COL_CAL_QUAD, .FUS_STATUS, .FUS_LOCK_SET, .FUS_READ, .FUS_READ_RESULT, .FUS_PROG_DATA, .FUS_PROG_CMD, .FUS_PROG_STATUS, .FUS_REGION, .FUS_SHADOW, .BLT_CTRL, .BLT_STATUS, .BLT_ALERT, .BLT_LOG_SELECT, .BLT_INJECT, .BLT_LOG_RECORD, .BLT_SOURCE, .BLT_SEVERITY, .COL_CTRL, .COL_STATUS, .COL_CALENDAR, .COL_CALENDAR_SET, .COL_LIFETIME, .COL_SHUTDOWNS, .COL_READ_SELECT, .COL_READ_RECORD]
/-- Every register of the desk. -/
def Reg.all : List Reg := Reg.all0 ++ Reg.all1 ++ Reg.all2 ++ Reg.all3

/-- The desk address of the first instance (the register tables of chapters 2 to 19). -/
def Reg.base : Reg → Nat
  | .RUL_TIME => 0x000000
  | .RUL_STATUS => 0x000008
  | .RUL_SOURCE => 0x000010
  | .RUL_LINK => 0x000018
  | .RUL_PEER_FORWARD => 0x000020
  | .RUL_LOCAL_EPOCH => 0x000028
  | .RUL_PERIOD => 0x000030
  | .RUL_HEADER_LO => 0x000038
  | .RUL_HEADER_HI => 0x000040
  | .RUL_ERRORS => 0x000048
  | .RUL_EVENT_FIRED => 0x000050
  | .RUL_EVENT_LATE => 0x000058
  | .RUL_EVENT_CTRL => 0x001000
  | .RUL_EVENT_TIME => 0x001008
  | .RUL_EVENT_ADDR => 0x001010
  | .RUL_EVENT_DATA => 0x001018
  | .CHN_SCHED => 0x100000
  | .CHN_POOL => 0x100008
  | .CHN_REFRESH => 0x100010
  | .CHN_HAMMER => 0x100018
  | .CHN_PAUSE_INTERVAL => 0x100020
  | .CHN_PAUSE_STATUS => 0x100028
  | .CHN_ERROR => 0x100030
  | .CHN_REPAIR_STATE => 0x100380
  | .CHN_DATA_TSV_FAILED => 0x100388
  | .CHN_CA_TSV_FAILED => 0x100390
  | .DCT_CTRL => 0x180000
  | .DCT_HEAT => 0x180008
  | .DCT_MAP_CACHE => 0x180010
  | .DCT_MOVE_CTRL => 0x180018
  | .DCT_MOVE_STATUS => 0x180020
  | .DCT_EPOCH => 0x180028
  | .DCT_WORK => 0x180030
  | .DCT_LEND => 0x180038
  | .DCT_HEAT_LIST => 0x184000
  | .DCT_LOAD => 0x186000
  | .DCT_SPREAD_SET => 0x188000
  | .ACC_CTRL => 0x1A0000
  | .ACC_ADMIT_STATUS => 0x1A0008
  | .ACC_DEVICE => 0x1A0010
  | .ACC_CHANNEL => 0x1A1000
  | .ACC_LINK => 0x1A1800
  | .ACC_MISS => 0x1A2000
  | .ACC_REDUCED => 0x1A2200
  | .ACC_VECTOR => 0x1A4000
  | .ACC_CFG => 0x1A8000
  | .ACC_RATE => 0x1B0000
  | .ACC_SERVICE => 0x1B8000
  | .SEL_CTRL => 0x1C0000
  | .SEL_TREE => 0x1C0008
  | .SEL_TREE_CACHE => 0x1C0010
  | .SEL_MERGE => 0x1C0018
  | .SEL_ERRORS => 0x1C0020
  | .SEL_RESEAL_CHALLENGE => 0x1C0028
  | .SEL_RESEAL_CMD => 0x1C0030
  | .SEL_RESEAL_AUTH => 0x1C0038
  | .SEL_RESEAL_STATUS => 0x1C0040
  | .SEL_UNVERIFIABLE => 0x1C0800
  | .SEL_IDE => 0x1C1000
  | .SEL_KEY_ATTR => 0x1C2000
  | .SEL_LD_KEY => 0x1C8000
  | .LAN_PORT_CTRL => 0x080000
  | .LAN_PORT_STATUS => 0x080008
  | .LAN_LANES => 0x080010
  | .LAN_PAIR => 0x080018
  | .LAN_QUAD => 0x080020
  | .LAN_DOZE => 0x080028
  | .LAN_LINK_ERRORS => 0x080030
  | .LAN_FLITS => 0x080038
  | .LAN_WAKE => 0x080040
  | .LAN_LANE_EQ => 0x080100
  | .LAN_LANE_ERRORS => 0x080108
  | .LAN_LANE_MARGIN => 0x080110
  | .PRT_PORT_CTRL => 0x0C0000
  | .PRT_PORT_STATUS => 0x0C0008
  | .PRT_PORT_ERRORS => 0x0C0010
  | .PRT_LD => 0x0C0100
  | .PRT_DC_REGION => 0x0D0000
  | .PRT_DC_USE => 0x0D0008
  | .PRT_ROUTE => 0x0F0000
  | .PRT_CTRL => 0x0F8000
  | .PRT_SF_STATUS => 0x0F8008
  | .PRT_BUFFER => 0x0F8010
  | .PRT_EXTENT_CMD => 0x0F8018
  | .PRT_EXTENT_STATUS => 0x0F8020
  | .MBX_CTRL => 0x300000
  | .MBX_SELECT => 0x300008
  | .MBX_COMPLETE => 0x300010
  | .MBX_SCRIBE => 0x300100
  | .MBX_ADMIN => 0x301000
  | .MBX_WINDOW => 0x310000
  | .QUE_CTRL => 0x1E0000
  | .QUE_COUNTS => 0x1E0008
  | .QUE_SELECT => 0x1E0010
  | .QUE_PAIR_CFG => 0x1E0018
  | .QUE_PAIR_SQ => 0x1E0020
  | .QUE_PAIR_CQ => 0x1E0028
  | .QUE_PAIR_STATE => 0x1E0030
  | .QUE_GROUP => 0x1E2000
  | .NIB_CTRL => 0x200000
  | .NIB_CLUSTER => 0x200100
  | .NIB_CORE => 0x201000
  | .NIB_KERNEL_LOC => 0x208000
  | .NIB_KERNEL_EST => 0x210000
  | .CLK_CTRL => 0x010000
  | .CLK_ROOT => 0x010008
  | .CLK_REF_STATUS => 0x010010
  | .CLK_OSC => 0x010018
  | .CLK_QUAD => 0x010020
  | .CLK_OUT => 0x010040
  | .CLK_NIB_PLL => 0x010050
  | .CLK_DOMAIN => 0x010100
  | .CLK_GATE => 0x011000
  | .PWR_STATE => 0x020000
  | .PWR_REQUEST => 0x020008
  | .PWR_CTRL => 0x020010
  | .PWR_CLASS => 0x020018
  | .PWR_INK => 0x020020
  | .PWR_WAKE => 0x020028
  | .PWR_DOMAIN => 0x020100
  | .THM_CTRL => 0x030000
  | .THM_LIMITS => 0x030008
  | .THM_PEAK => 0x030010
  | .THM_TRIP => 0x030018
  | .THM_CLUSTER => 0x030100
  | .THM_TOWER => 0x030200
  | .THM_BOOST => 0x030300
  | .THM_SENSOR => 0x031000
  | .COL_CAL_CTRL => 0x070000
  | .COL_CAL_COUNTS => 0x070008
  | .COL_CAL_REQUEST => 0x070010
  | .COL_CAL_CHANNEL => 0x070100
  | .COL_CAL_QUAD => 0x070900
  | .FUS_STATUS => 0x040000
  | .FUS_LOCK_SET => 0x040008
  | .FUS_READ => 0x040010
  | .FUS_READ_RESULT => 0x040018
  | .FUS_PROG_DATA => 0x040020
  | .FUS_PROG_CMD => 0x040028
  | .FUS_PROG_STATUS => 0x040030
  | .FUS_REGION => 0x040100
  | .FUS_SHADOW => 0x041000
  | .BLT_CTRL => 0x050000
  | .BLT_STATUS => 0x050008
  | .BLT_ALERT => 0x050010
  | .BLT_LOG_SELECT => 0x050018
  | .BLT_INJECT => 0x050020
  | .BLT_LOG_RECORD => 0x050040
  | .BLT_SOURCE => 0x051000
  | .BLT_SEVERITY => 0x054000
  | .COL_CTRL => 0x060000
  | .COL_STATUS => 0x060008
  | .COL_CALENDAR => 0x060010
  | .COL_CALENDAR_SET => 0x060018
  | .COL_LIFETIME => 0x060020
  | .COL_SHUTDOWNS => 0x060028
  | .COL_READ_SELECT => 0x060030
  | .COL_READ_RECORD => 0x060040

/-- Stride and count of each index of an array of registers, outermost first. -/
def Reg.dims : Reg → List (Nat × Nat)
  | .RUL_EVENT_CTRL => [(0x20, 64)]
  | .RUL_EVENT_TIME => [(0x20, 64)]
  | .RUL_EVENT_ADDR => [(0x20, 64)]
  | .RUL_EVENT_DATA => [(0x20, 64)]
  | .CHN_SCHED => [(0x400, 256)]
  | .CHN_POOL => [(0x400, 256)]
  | .CHN_REFRESH => [(0x400, 256)]
  | .CHN_HAMMER => [(0x400, 256)]
  | .CHN_PAUSE_INTERVAL => [(0x400, 256)]
  | .CHN_PAUSE_STATUS => [(0x400, 256)]
  | .CHN_ERROR => [(0x400, 256)]
  | .CHN_REPAIR_STATE => [(0x400, 256)]
  | .CHN_DATA_TSV_FAILED => [(0x400, 256)]
  | .CHN_CA_TSV_FAILED => [(0x400, 256)]
  | .DCT_HEAT_LIST => [(0x8, 1024)]
  | .DCT_LOAD => [(0x8, 256)]
  | .DCT_SPREAD_SET => [(0x20, 512), (0x8, 4)]
  | .ACC_CHANNEL => [(0x8, 256)]
  | .ACC_LINK => [(0x8, 256)]
  | .ACC_MISS => [(0x8, 64)]
  | .ACC_REDUCED => [(0x8, 64)]
  | .ACC_VECTOR => [(0x8, 1024)]
  | .ACC_CFG => [(0x8, 4096)]
  | .ACC_RATE => [(0x8, 4096)]
  | .ACC_SERVICE => [(0x8, 4096)]
  | .SEL_UNVERIFIABLE => [(0x8, 256)]
  | .SEL_IDE => [(0x8, 64)]
  | .SEL_KEY_ATTR => [(0x8, 1024)]
  | .SEL_LD_KEY => [(0x200, 64), (0x8, 64)]
  | .LAN_PORT_CTRL => [(0x400, 64)]
  | .LAN_PORT_STATUS => [(0x400, 64)]
  | .LAN_LANES => [(0x400, 64)]
  | .LAN_PAIR => [(0x800, 32)]
  | .LAN_QUAD => [(0x4000, 4)]
  | .LAN_DOZE => [(0x400, 64)]
  | .LAN_LINK_ERRORS => [(0x400, 64)]
  | .LAN_FLITS => [(0x400, 64)]
  | .LAN_WAKE => [(0x400, 64)]
  | .LAN_LANE_EQ => [(0x400, 64), (0x20, 16)]
  | .LAN_LANE_ERRORS => [(0x400, 64), (0x20, 16)]
  | .LAN_LANE_MARGIN => [(0x400, 64), (0x20, 16)]
  | .PRT_PORT_CTRL => [(0x400, 64)]
  | .PRT_PORT_STATUS => [(0x400, 64)]
  | .PRT_PORT_ERRORS => [(0x400, 64)]
  | .PRT_LD => [(0x400, 64), (0x8, 16)]
  | .PRT_DC_REGION => [(0x80, 1024), (0x10, 8)]
  | .PRT_DC_USE => [(0x80, 1024), (0x10, 8)]
  | .PRT_ROUTE => [(0x8, 4096)]
  | .MBX_SCRIBE => [(0x8, 8)]
  | .MBX_ADMIN => [(0x8, 64)]
  | .MBX_WINDOW => [(0x8, 8192)]
  | .QUE_GROUP => [(0x8, 1024)]
  | .NIB_CLUSTER => [(0x8, 16)]
  | .NIB_CORE => [(0x8, 256)]
  | .NIB_KERNEL_LOC => [(0x8, 4096)]
  | .NIB_KERNEL_EST => [(0x8, 4096)]
  | .CLK_QUAD => [(0x8, 4)]
  | .CLK_OUT => [(0x8, 2)]
  | .CLK_NIB_PLL => [(0x8, 2)]
  | .CLK_DOMAIN => [(0x8, 32)]
  | .CLK_GATE => [(0x8, 4096)]
  | .PWR_DOMAIN => [(0x8, 38)]
  | .THM_CLUSTER => [(0x8, 16)]
  | .THM_TOWER => [(0x8, 4)]
  | .THM_BOOST => [(0x8, 16)]
  | .THM_SENSOR => [(0x8, 370)]
  | .COL_CAL_CHANNEL => [(0x8, 256)]
  | .COL_CAL_QUAD => [(0x8, 4)]
  | .FUS_REGION => [(0x8, 14)]
  | .FUS_SHADOW => [(0x8, 1024)]
  | .BLT_LOG_RECORD => [(0x8, 8)]
  | .BLT_SOURCE => [(0x8, 608)]
  | .BLT_SEVERITY => [(0x8, 384)]
  | .COL_READ_RECORD => [(0x8, 24)]
  | _ => []

/-- A field of `w` bits at `lo` with no stated range. -/
def fsp (lo w : Nat) (a : Access) : FieldSpec := ⟨lo, w, a, 0, 2 ^ w - 1, 2 ^ w - 1⟩

/-- The fields of each register that are not reserved (the field tables of chapters 2 to 19). -/
def Reg.fields : Reg → List FieldSpec
  | .RUL_TIME => [fsp 20 44 .ro, fsp 10 10 .ro, fsp 0 10 .ro]
  | .RUL_STATUS => [fsp 48 16 .ro, fsp 44 4 .ro, fsp 42 2 .ro, fsp 40 2 .ro, fsp 39 1 .ro, fsp 38 1 .ro, fsp 0 32 .ro]
  | .RUL_SOURCE => [fsp 16 1 .rw, fsp 8 8 .rw, fsp 0 8 .rwl]
  | .RUL_LINK => [fsp 16 1 .rw, fsp 8 6 .rw, fsp 0 8 .rw]
  | .RUL_PEER_FORWARD => [fsp 0 64 .rw]
  | .RUL_LOCAL_EPOCH => [fsp 16 40 .rw, fsp 0 16 .rw]
  | .RUL_PERIOD => [fsp 0 32 .ro]
  | .RUL_HEADER_LO => [fsp 0 64 .ro]
  | .RUL_HEADER_HI => [fsp 0 64 .ro]
  | .RUL_ERRORS => [fsp 48 16 .ro, fsp 32 16 .ro, fsp 16 16 .ro, fsp 3 1 .w1c, fsp 2 1 .w1c, fsp 1 1 .w1c, fsp 0 1 .wo]
  | .RUL_EVENT_FIRED => [fsp 0 64 .w1c]
  | .RUL_EVENT_LATE => [fsp 0 64 .w1c]
  | .RUL_EVENT_CTRL => [fsp 8 8 .rw, fsp 3 1 .rw, fsp 2 1 .rw, fsp 1 1 .ro, fsp 0 1 .rw]
  | .RUL_EVENT_TIME => [fsp 0 64 .rw]
  | .RUL_EVENT_ADDR => [fsp 0 24 .rw]
  | .RUL_EVENT_DATA => [fsp 0 64 .rw]
  | .CHN_SCHED => [⟨48, 8, .rw, 1, 64, 255⟩, ⟨40, 8, .rw, 8, 255, 255⟩, fsp 32 8 .rw, fsp 24 8 .rw, ⟨0, 16, .rw, 50, 1000, 65535⟩]
  | .CHN_POOL => [fsp 32 8 .ro, ⟨24, 8, .rw, 8, 48, 255⟩, ⟨8, 8, .rw, 0, 16, 255⟩, ⟨0, 8, .rw, 0, 32, 255⟩]
  | .CHN_REFRESH => [fsp 48 16 .ro, fsp 35 5 .ro, fsp 34 1 .w1c, fsp 17 17 .rw, fsp 0 17 .ro]
  | .CHN_HAMMER => [fsp 32 32 .ro, fsp 26 1 .w1c, fsp 21 5 .ro, ⟨0, 14, .rwl, 256, 8192, 16383⟩]
  | .CHN_PAUSE_INTERVAL => [⟨32, 9, .rw, 150, 300, 511⟩, fsp 16 12 .ro, fsp 0 13 .ro]
  | .CHN_PAUSE_STATUS => [fsp 48 16 .ro, fsp 32 9 .ro, fsp 12 20 .ro, fsp 0 12 .ro]
  | .CHN_ERROR => [fsp 48 16 .ro, fsp 40 8 .ro, fsp 32 8 .ro, fsp 31 1 .ro, fsp 22 9 .ro, fsp 11 11 .ro]
  | .CHN_REPAIR_STATE => [fsp 24 16 .ro, fsp 19 5 .ro, fsp 17 2 .ro, fsp 13 4 .ro, fsp 7 6 .ro, fsp 0 3 .ro]
  | .CHN_DATA_TSV_FAILED => [fsp 0 44 .ro]
  | .CHN_CA_TSV_FAILED => [fsp 28 2 .ro, fsp 24 4 .ro, fsp 16 8 .ro, fsp 0 15 .ro]
  | .DCT_CTRL => [fsp 2 1 .rw, fsp 1 1 .rw, fsp 0 1 .ro]
  | .DCT_HEAT => [⟨24, 8, .rw, 16, 255, 255⟩, fsp 16 8 .rw, ⟨12, 4, .rw, 0, 12, 15⟩, fsp 0 7 .ro]
  | .DCT_MAP_CACHE => [fsp 40 24 .ro, fsp 22 18 .ro, ⟨0, 18, .rw, 0, 196608, 262143⟩]
  | .DCT_MOVE_CTRL => [⟨32, 16, .rw, 0, 64, 65535⟩, ⟨16, 8, .rw, 8, 64, 255⟩, ⟨0, 7, .rw, 1, 64, 127⟩]
  | .DCT_MOVE_STATUS => [fsp 56 8 .ro, fsp 32 16 .ro, fsp 8 24 .ro, fsp 7 1 .ro, fsp 0 7 .ro]
  | .DCT_EPOCH => [fsp 20 44 .ro, fsp 10 10 .ro, fsp 0 10 .ro]
  | .DCT_WORK => [⟨48, 16, .rw, 4, 65535, 65535⟩, ⟨32, 8, .rw, 1, 255, 255⟩, ⟨24, 8, .rw, 60, 110, 255⟩, ⟨16, 8, .rw, 1, 64, 255⟩]
  | .DCT_LEND => [fsp 36 28 .ro, fsp 8 28 .ro, fsp 2 6 .rw, fsp 1 1 .rw, fsp 0 1 .rw]
  | .DCT_HEAT_LIST => [fsp 56 8 .ro, fsp 48 8 .ro, fsp 32 1 .ro, fsp 0 32 .ro]
  | .DCT_LOAD => [fsp 32 32 .ro, fsp 0 32 .ro]
  | .DCT_SPREAD_SET => [fsp 0 64 .rw]
  | .ACC_CTRL => [⟨8, 8, .rw, 4, 255, 255⟩, fsp 1 3 .rw, fsp 0 1 .ro]
  | .ACC_ADMIT_STATUS => [fsp 56 8 .ro, fsp 54 2 .ro, fsp 46 8 .ro, fsp 24 22 .ro, fsp 0 12 .ro]
  | .ACC_DEVICE => [fsp 46 1 .ro, fsp 23 23 .ro, fsp 0 23 .ro]
  | .ACC_CHANNEL => [fsp 48 16 .ro, fsp 32 16 .ro, fsp 16 16 .ro, fsp 0 1 .ro]
  | .ACC_LINK => [fsp 44 20 .ro, fsp 24 20 .ro, fsp 0 1 .ro]
  | .ACC_MISS => [fsp 0 64 .w1c]
  | .ACC_REDUCED => [fsp 0 64 .ro]
  | .ACC_VECTOR => [fsp 63 1 .rw, fsp 48 12 .rw, fsp 47 1 .rw, fsp 32 12 .rw, fsp 31 1 .rw, fsp 16 12 .rw, fsp 15 1 .rw, fsp 0 12 .rw]
  | .ACC_CFG => [fsp 62 2 .ro, fsp 59 3 .ro, fsp 47 12 .ro, fsp 38 9 .ro, fsp 34 4 .ro, fsp 16 16 .ro]
  | .ACC_RATE => [fsp 24 24 .ro, fsp 0 24 .ro]
  | .ACC_SERVICE => [fsp 40 24 .ro, fsp 16 24 .ro, fsp 8 8 .ro, fsp 7 1 .ro, fsp 6 1 .ro, fsp 5 1 .ro, fsp 4 1 .ro, fsp 2 2 .ro]
  | .SEL_CTRL => [⟨16, 8, .rw, 1, 16, 255⟩, fsp 8 3 .rw, fsp 1 1 .rw, fsp 0 1 .ro]
  | .SEL_TREE => [fsp 36 28 .ro, fsp 0 28 .ro]
  | .SEL_TREE_CACHE => [fsp 44 20 .ro, fsp 28 16 .ro, ⟨0, 16, .rw, 0, 32768, 65535⟩]
  | .SEL_MERGE => [fsp 32 32 .ro, fsp 0 32 .ro]
  | .SEL_ERRORS => [fsp 48 16 .ro, fsp 32 16 .ro, fsp 16 16 .ro, fsp 8 8 .ro, fsp 0 8 .ro]
  | .SEL_RESEAL_CHALLENGE => [fsp 0 64 .ro]
  | .SEL_RESEAL_CMD => [⟨48, 10, .rw, 1, 1023, 1023⟩, ⟨45, 3, .rw, 0, 7, 4⟩, fsp 16 27 .rw, fsp 0 1 .wo]
  | .SEL_RESEAL_AUTH => [fsp 0 48 .wo]
  | .SEL_RESEAL_STATUS => [fsp 56 8 .ro, fsp 28 28 .ro]
  | .SEL_UNVERIFIABLE => [fsp 63 1 .ro, fsp 60 3 .ro, fsp 33 27 .ro]
  | .SEL_IDE => [fsp 48 16 .ro, fsp 14 2 .ro, fsp 13 1 .ro, fsp 12 1 .ro, fsp 10 2 .ro, fsp 9 1 .ro]
  | .SEL_KEY_ATTR => [fsp 62 2 .ro, fsp 60 2 .ro, fsp 58 2 .ro, fsp 42 16 .ro, fsp 24 16 .ro]
  | .SEL_LD_KEY => [fsp 25 1 .ro, fsp 24 1 .rwl, fsp 0 10 .rwl]
  | .LAN_PORT_CTRL => [⟨20, 4, .rw, 0, 15, 5⟩, ⟨18, 2, .rw, 0, 3, 2⟩, fsp 17 1 .rw, fsp 16 1 .rw, fsp 3 1 .rw, fsp 2 1 .wo, fsp 1 1 .rw]
  | .LAN_PORT_STATUS => [fsp 63 1 .ro, fsp 60 3 .ro, fsp 57 3 .ro, fsp 54 3 .ro, fsp 53 1 .ro, fsp 52 1 .ro, fsp 51 1 .ro, fsp 48 3 .ro, fsp 47 1 .ro, fsp 44 3 .ro, fsp 41 3 .ro, fsp 38 3 .ro, fsp 37 1 .ro, fsp 36 1 .ro, fsp 35 1 .ro, fsp 32 3 .ro, fsp 31 1 .ro, fsp 28 3 .ro, fsp 25 3 .ro, fsp 22 3 .ro, fsp 21 1 .ro, fsp 20 1 .ro, fsp 19 1 .ro, fsp 16 3 .ro, fsp 15 1 .ro, fsp 12 3 .ro, fsp 9 3 .ro, fsp 6 3 .ro, fsp 5 1 .ro, fsp 4 1 .ro, fsp 3 1 .ro, fsp 0 3 .ro]
  | .LAN_LANES => [fsp 48 16 .w1c, fsp 32 16 .ro, fsp 16 16 .ro]
  | .LAN_PAIR => [fsp 16 8 .ro, fsp 8 8 .ro, fsp 2 1 .ro, fsp 1 1 .rw, fsp 0 1 .rwl]
  | .LAN_QUAD => [⟨0, 2, .rwl, 0, 3, 2⟩]
  | .LAN_DOZE => [fsp 32 32 .ro, ⟨8, 8, .rw, 1, 255, 255⟩, fsp 1 1 .ro, fsp 0 1 .rw]
  | .LAN_LINK_ERRORS => [fsp 48 16 .ro, fsp 32 16 .ro, fsp 0 32 .ro]
  | .LAN_FLITS => [fsp 0 64 .ro]
  | .LAN_WAKE => [fsp 48 16 .ro, fsp 0 11 .ro]
  | .LAN_LANE_EQ => [fsp 32 12 .ro, fsp 22 6 .ro, fsp 16 6 .ro, fsp 10 6 .ro, fsp 4 6 .ro, fsp 0 4 .ro]
  | .LAN_LANE_ERRORS => [fsp 32 32 .ro, fsp 0 16 .ro]
  | .LAN_LANE_MARGIN => [fsp 48 16 .ro, fsp 32 16 .ro, ⟨10, 6, .rw, 1, 63, 63⟩, fsp 3 7 .rw, fsp 2 1 .rw, fsp 1 1 .rw, fsp 0 1 .wo]
  | .PRT_PORT_CTRL => [⟨24, 8, .rw, 0, 24, 255⟩, fsp 17 1 .rw, fsp 16 1 .ro, fsp 0 2 .rw]
  | .PRT_PORT_STATUS => [fsp 38 14 .ro, fsp 24 14 .ro, fsp 0 24 .ro]
  | .PRT_PORT_ERRORS => [fsp 32 32 .ro, fsp 16 16 .ro, fsp 0 16 .ro]
  | .PRT_LD => [fsp 63 1 .rw, fsp 61 2 .rw, fsp 60 1 .rw]
  | .PRT_DC_REGION => [fsp 63 1 .rw, fsp 62 1 .rw, fsp 18 18 .rw, fsp 0 18 .rw]
  | .PRT_DC_USE => [fsp 18 18 .ro, fsp 0 18 .ro]
  | .PRT_ROUTE => [fsp 63 1 .rw, fsp 62 1 .rw, fsp 8 8 .rw, fsp 0 8 .rw]
  | .PRT_CTRL => [fsp 52 12 .rw, ⟨40, 4, .rw, 1, 8, 15⟩, ⟨36, 4, .rw, 1, 8, 15⟩, ⟨24, 8, .rw, 4, 255, 255⟩, fsp 0 1 .rw]
  | .PRT_SF_STATUS => [fsp 41 23 .ro, fsp 27 14 .ro, fsp 9 18 .ro]
  | .PRT_BUFFER => [fsp 44 20 .ro, fsp 24 20 .ro, fsp 4 20 .ro]
  | .PRT_EXTENT_CMD => [fsp 62 2 .wo, fsp 56 6 .wo, fsp 52 4 .wo, fsp 49 3 .wo, fsp 18 18 .wo, fsp 0 18 .wo]
  | .PRT_EXTENT_STATUS => [fsp 56 8 .ro, fsp 18 18 .ro, fsp 0 18 .ro]
  | .MBX_CTRL => [fsp 8 1 .rwl, fsp 0 3 .ro]
  | .MBX_SELECT => [fsp 0 12 .rw]
  | .MBX_COMPLETE => [fsp 0 1 .wo]
  | .MBX_SCRIBE => [fsp 48 16 .ro, fsp 40 8 .ro, fsp 24 8 .ro, fsp 16 3 .ro, fsp 3 1 .ro, fsp 2 1 .ro, fsp 0 2 .ro]
  | .MBX_ADMIN => [fsp 0 64 .rw]
  | .MBX_WINDOW => [fsp 0 64 .rw]
  | .QUE_CTRL => [⟨8, 8, .rw, 1, 255, 255⟩]
  | .QUE_COUNTS => [fsp 32 32 .ro, fsp 16 16 .ro, fsp 0 16 .ro]
  | .QUE_SELECT => [fsp 0 14 .rw]
  | .QUE_PAIR_CFG => [fsp 63 1 .rw, fsp 62 1 .rw, fsp 61 1 .rw, fsp 60 1 .rw, fsp 48 12 .rw, fsp 38 10 .rw, fsp 16 16 .rw, fsp 12 4 .rw, fsp 8 4 .rw]
  | .QUE_PAIR_SQ => [fsp 12 52 .rw]
  | .QUE_PAIR_CQ => [fsp 12 52 .rw]
  | .QUE_PAIR_STATE => [fsp 52 12 .ro, fsp 40 12 .ro, fsp 28 12 .ro, fsp 16 12 .ro, fsp 3 13 .ro, fsp 2 1 .ro, fsp 1 1 .ro]
  | .QUE_GROUP => [fsp 63 1 .rw, fsp 32 16 .rw]
  | .NIB_CTRL => [⟨8, 8, .rw, 1, 255, 255⟩, fsp 0 1 .rw]
  | .NIB_CLUSTER => [fsp 62 2 .ro, fsp 58 4 .ro, fsp 57 1 .ro, fsp 0 16 .ro]
  | .NIB_CORE => [fsp 61 3 .ro, fsp 60 1 .rw, fsp 50 7 .ro, fsp 36 14 .ro, fsp 12 12 .ro]
  | .NIB_KERNEL_LOC => [fsp 63 1 .rw, fsp 62 1 .rw, fsp 61 1 .rw, ⟨44, 12, .rw, 0, 4031, 4095⟩, ⟨28, 16, .rw, 1, 26212, 65535⟩, fsp 0 28 .rw]
  | .NIB_KERNEL_EST => [fsp 32 32 .rw, fsp 0 32 .rw]
  | .CLK_CTRL => [fsp 3 1 .ro, fsp 1 1 .rw, fsp 0 1 .rw]
  | .CLK_ROOT => [fsp 23 1 .ro, fsp 22 1 .ro, fsp 21 1 .ro, fsp 20 1 .ro, fsp 8 3 .ro, fsp 0 8 .rw]
  | .CLK_REF_STATUS => [fsp 48 16 .ro, fsp 8 4 .w1c, fsp 4 4 .ro, fsp 0 4 .ro]
  | .CLK_OSC => [fsp 16 1 .ro, fsp 8 8 .ro, fsp 0 1 .wo]
  | .CLK_QUAD => [fsp 10 1 .ro, fsp 8 2 .ro, fsp 0 8 .rw]
  | .CLK_OUT => [fsp 3 1 .rw, ⟨0, 3, .rw, 0, 7, 4⟩]
  | .CLK_NIB_PLL => [fsp 16 1 .ro, fsp 0 12 .rw]
  | .CLK_DOMAIN => [fsp 11 1 .w1c, fsp 10 1 .ro, fsp 4 4 .ro, fsp 0 4 .rw]
  | .CLK_GATE => [fsp 20 12 .ro, fsp 2 1 .w1c, fsp 1 1 .ro, fsp 0 1 .rw]
  | .PWR_STATE => [fsp 8 8 .ro, fsp 7 1 .ro, fsp 4 3 .ro, fsp 3 1 .ro, fsp 0 3 .ro]
  | .PWR_REQUEST => [fsp 0 3 .wo]
  | .PWR_CTRL => [⟨16, 16, .rw, 64, 65535, 65535⟩, ⟨0, 8, .rw, 4, 255, 255⟩]
  | .PWR_CLASS => [fsp 8 5 .ro, fsp 4 2 .ro, fsp 2 2 .ro, fsp 0 2 .rwl]
  | .PWR_INK => [fsp 48 16 .ro, fsp 32 16 .ro, fsp 16 16 .ro, fsp 8 8 .ro]
  | .PWR_WAKE => [fsp 8 4 .ro, fsp 0 3 .rw]
  | .PWR_DOMAIN => [fsp 48 16 .ro, fsp 32 4 .ro, fsp 1 1 .wo, fsp 0 1 .wo]
  | .THM_CTRL => [fsp 8 8 .ro, fsp 4 1 .ro, fsp 0 3 .rw]
  | .THM_LIMITS => [⟨48, 8, .rw, 100, 115, 255⟩, ⟨40, 8, .rw, 85, 97, 255⟩, ⟨32, 8, .rw, 80, 95, 255⟩, ⟨24, 8, .rw, 2, 20, 255⟩, ⟨16, 8, .rw, 80, 100, 255⟩, ⟨8, 8, .rw, 85, 105, 255⟩, ⟨0, 8, .rw, 4, 24, 255⟩]
  | .THM_PEAK => [fsp 48 16 .ro, fsp 32 16 .ro, fsp 16 16 .rw, fsp 4 4 .ro, fsp 0 4 .ro]
  | .THM_TRIP => [fsp 56 8 .ro, fsp 44 12 .ro, fsp 32 12 .ro]
  | .THM_CLUSTER => [fsp 52 12 .ro, fsp 40 12 .ro, fsp 28 12 .ro, fsp 24 4 .ro, fsp 23 1 .ro, fsp 22 1 .ro, fsp 21 1 .ro]
  | .THM_TOWER => [fsp 52 12 .ro, fsp 40 12 .ro, fsp 35 5 .ro, fsp 31 4 .ro, fsp 0 17 .ro]
  | .THM_BOOST => [fsp 32 32 .ro, fsp 0 32 .ro]
  | .THM_SENSOR => [fsp 63 1 .ro, fsp 62 1 .ro, fsp 36 12 .ro, fsp 0 12 .ro]
  | .COL_CAL_CTRL => [⟨8, 8, .rw, 8, 80, 255⟩, fsp 1 1 .rw, fsp 0 1 .rw]
  | .COL_CAL_COUNTS => [fsp 32 32 .ro, fsp 0 32 .ro]
  | .COL_CAL_REQUEST => [fsp 8 1 .wo, fsp 0 8 .wo]
  | .COL_CAL_CHANNEL => [fsp 52 12 .ro, fsp 51 1 .ro, fsp 50 1 .ro, fsp 49 1 .ro, fsp 40 4 .ro, fsp 0 32 .ro]
  | .COL_CAL_QUAD => [fsp 52 12 .ro, fsp 51 1 .ro, fsp 50 1 .ro]
  | .FUS_STATUS => [fsp 61 3 .ro, fsp 60 1 .ro, fsp 56 4 .ro, fsp 55 1 .ro, fsp 36 10 .ro, fsp 26 10 .ro, fsp 16 10 .ro, fsp 0 9 .ro]
  | .FUS_LOCK_SET => [fsp 16 14 .wo, fsp 0 14 .wo]
  | .FUS_READ => [fsp 16 1 .wo, fsp 0 10 .rw]
  | .FUS_READ_RESULT => [fsp 63 1 .ro, fsp 62 1 .ro, fsp 61 1 .ro, fsp 60 1 .ro, fsp 58 2 .ro, fsp 0 32 .ro]
  | .FUS_PROG_DATA => [fsp 0 32 .rw]
  | .FUS_PROG_CMD => [fsp 16 1 .wo, fsp 0 10 .wo]
  | .FUS_PROG_STATUS => [fsp 56 8 .ro, fsp 32 10 .ro]
  | .FUS_REGION => [fsp 61 3 .ro, fsp 60 1 .ro, fsp 59 1 .ro, fsp 58 1 .ro, fsp 57 1 .ro, fsp 56 1 .ro, fsp 32 10 .ro, fsp 16 16 .ro, fsp 0 16 .ro]
  | .FUS_SHADOW => [fsp 35 1 .ro, fsp 34 1 .ro, fsp 33 1 .ro, fsp 32 1 .ro, fsp 0 32 .ro]
  | .BLT_CTRL => [fsp 16 8 .rw, fsp 8 5 .rw, fsp 3 5 .rw, fsp 0 3 .rw]
  | .BLT_STATUS => [fsp 63 1 .ro, fsp 54 9 .ro, fsp 44 10 .ro, fsp 32 12 .ro, fsp 0 32 .ro]
  | .BLT_ALERT => [fsp 0 5 .w1c]
  | .BLT_LOG_SELECT => [fsp 0 64 .rw]
  | .BLT_INJECT => [fsp 20 3 .wo, fsp 11 9 .wo, fsp 0 10 .wo]
  | .BLT_LOG_RECORD => [fsp 0 64 .ro]
  | .BLT_SOURCE => [fsp 63 1 .ro, fsp 62 1 .ro, fsp 61 1 .ro, fsp 60 1 .wo, fsp 57 3 .ro, fsp 48 9 .ro, fsp 32 16 .ro, fsp 0 32 .ro]
  | .BLT_SEVERITY => [fsp 32 16 .ro, fsp 8 3 .ro, ⟨0, 3, .rw, 0, 7, 4⟩]
  | .COL_CTRL => [fsp 8 1 .wo, ⟨0, 5, .rw, 1, 16, 31⟩]
  | .COL_STATUS => [fsp 63 1 .ro, fsp 61 2 .ro, fsp 60 1 .ro, fsp 58 2 .ro, fsp 56 2 .ro, fsp 48 8 .ro, fsp 32 16 .ro, fsp 0 32 .ro]
  | .COL_CALENDAR => [fsp 0 64 .ro]
  | .COL_CALENDAR_SET => [fsp 0 64 .wo]
  | .COL_LIFETIME => [fsp 32 32 .ro, fsp 0 32 .ro]
  | .COL_SHUTDOWNS => [fsp 48 16 .ro, fsp 32 16 .ro, fsp 16 16 .ro, fsp 0 16 .ro]
  | .COL_READ_SELECT => [fsp 63 1 .rw, fsp 0 32 .rw]
  | .COL_READ_RECORD => [fsp 0 64 .ro]

/-- The reset value of each register from the Reset column where it does not depend on the instance, a strap or a fuse. -/
def Reg.resetWord : Reg → Nat
  | .RUL_STATUS => 0x4F0000000000
  | .RUL_SOURCE => 0x1000
  | .RUL_LINK => 0x10000
  | .RUL_PEER_FORWARD => 0xFFFFFFFFFFFFFFFF
  | .RUL_PERIOD => 0xF4240
  | .CHN_SCHED => 0x102030100000C8
  | .CHN_POOL => 0x20000410
  | .CHN_HAMMER => 0x800
  | .CHN_PAUSE_INTERVAL => 0x12C00001000
  | .DCT_CTRL => 0x6
  | .DCT_HEAT => 0x80086040
  | .DCT_MAP_CACHE => 0x20000
  | .DCT_MOVE_CTRL => 0x1000400040
  | .DCT_WORK => 0x100004064080000
  | .ACC_CTRL => 0x4000
  | .ACC_CFG => 0x1800000000000000
  | .SEL_CTRL => 0x100002
  | .SEL_TREE_CACHE => 0x4000
  | .LAN_PORT_CTRL => 0x53000A
  | .LAN_DOZE => 0x401
  | .PRT_CTRL => 0x34010000001
  | .MBX_CTRL => 0x107
  | .QUE_CTRL => 0x1000
  | .NIB_CTRL => 0x400
  | .CLK_CTRL => 0x3
  | .CLK_ROOT => 0x4E4
  | .CLK_OUT => 0x8
  | .CLK_GATE => 0x1
  | .PWR_STATE => 0x44
  | .PWR_CTRL => 0x4000040
  | .PWR_CLASS => 0xC
  | .PWR_WAKE => 0x7
  | .THM_CTRL => 0x3
  | .THM_LIMITS => 0x73615F0764690C
  | .COL_CAL_CTRL => 0x1402
  | .FUS_SHADOW => 0x800000000
  | .BLT_CTRL => 0x11CFC
  | .COL_CTRL => 0x10
  | _ => 0

/-! ### Fields by name -/

def RUL_TIME_FOLIO : Fld := ⟨0x000000, 20, 44⟩
def RUL_TIME_LINE : Fld := ⟨0x000000, 10, 10⟩
def RUL_TIME_TICK : Fld := ⟨0x000000, 0, 10⟩
def RUL_STATUS_EPOCH_ID : Fld := ⟨0x000008, 48, 16⟩
def RUL_STATUS_QUALITY : Fld := ⟨0x000008, 44, 4⟩
def RUL_STATUS_ACTIVE_SOURCE : Fld := ⟨0x000008, 42, 2⟩
def RUL_STATUS_STATE : Fld := ⟨0x000008, 40, 2⟩
def RUL_STATUS_JUMP_PENDING : Fld := ⟨0x000008, 39, 1⟩
def RUL_STATUS_SLEWING : Fld := ⟨0x000008, 38, 1⟩
def RUL_STATUS_OFFSET : Fld := ⟨0x000008, 0, 32⟩
def RUL_SOURCE_NONREVERTIVE : Fld := ⟨0x000010, 16, 1⟩
def RUL_SOURCE_REVERT_HOLDOFF : Fld := ⟨0x000010, 8, 8⟩
def RUL_SOURCE_ORDER : Fld := ⟨0x000010, 0, 8⟩
def RUL_LINK_OUT_ENABLE : Fld := ⟨0x000018, 16, 1⟩
def RUL_LINK_PTM_PORT : Fld := ⟨0x000018, 8, 6⟩
def RUL_LINK_IN_COMP : Fld := ⟨0x000018, 0, 8⟩
def RUL_PEER_FORWARD_ALL : Fld := ⟨0x000020, 0, 64⟩
def RUL_LOCAL_EPOCH_UTC_SECONDS : Fld := ⟨0x000028, 16, 40⟩
def RUL_LOCAL_EPOCH_EPOCH_ID : Fld := ⟨0x000028, 0, 16⟩
def RUL_PERIOD_PS : Fld := ⟨0x000030, 0, 32⟩
def RUL_HEADER_LO_ALL : Fld := ⟨0x000038, 0, 64⟩
def RUL_HEADER_HI_ALL : Fld := ⟨0x000040, 0, 64⟩
def RUL_ERRORS_CRC_FAILS : Fld := ⟨0x000048, 48, 16⟩
def RUL_ERRORS_VIOLATIONS : Fld := ⟨0x000048, 32, 16⟩
def RUL_ERRORS_MISSING : Fld := ⟨0x000048, 16, 16⟩
def RUL_ERRORS_JUMPED : Fld := ⟨0x000048, 3, 1⟩
def RUL_ERRORS_SOURCE_LOST : Fld := ⟨0x000048, 2, 1⟩
def RUL_ERRORS_HOLDOVER_ENTERED : Fld := ⟨0x000048, 1, 1⟩
def RUL_ERRORS_CLEAR_COUNTS : Fld := ⟨0x000048, 0, 1⟩
def RUL_EVENT_FIRED_ALL : Fld := ⟨0x000050, 0, 64⟩
def RUL_EVENT_LATE_ALL : Fld := ⟨0x000058, 0, 64⟩
def RUL_EVENT_CTRL_WAKE (i : Nat) : Fld := ⟨0x001000 + 0x20 * i, 8, 8⟩
def RUL_EVENT_CTRL_WRITE (i : Nat) : Fld := ⟨0x001000 + 0x20 * i, 3, 1⟩
def RUL_EVENT_CTRL_PERIODIC (i : Nat) : Fld := ⟨0x001000 + 0x20 * i, 2, 1⟩
def RUL_EVENT_CTRL_ARMED (i : Nat) : Fld := ⟨0x001000 + 0x20 * i, 1, 1⟩
def RUL_EVENT_CTRL_ENABLE (i : Nat) : Fld := ⟨0x001000 + 0x20 * i, 0, 1⟩
def RUL_EVENT_TIME_ALL (i : Nat) : Fld := ⟨0x001008 + 0x20 * i, 0, 64⟩
def RUL_EVENT_ADDR_ADDR (i : Nat) : Fld := ⟨0x001010 + 0x20 * i, 0, 24⟩
def RUL_EVENT_DATA_ALL (i : Nat) : Fld := ⟨0x001018 + 0x20 * i, 0, 64⟩
def CHN_SCHED_HIT_RUN_MAX (i : Nat) : Fld := ⟨0x100000 + 0x400 * i, 48, 8⟩
def CHN_SCHED_IDLE_CLOSE_NS (i : Nat) : Fld := ⟨0x100000 + 0x400 * i, 40, 8⟩
def CHN_SCHED_WRITE_HIGH (i : Nat) : Fld := ⟨0x100000 + 0x400 * i, 32, 8⟩
def CHN_SCHED_WRITE_LOW (i : Nat) : Fld := ⟨0x100000 + 0x400 * i, 24, 8⟩
def CHN_SCHED_AGE_CAP_NS (i : Nat) : Fld := ⟨0x100000 + 0x400 * i, 0, 16⟩
def CHN_POOL_OCCUPIED_MAX (i : Nat) : Fld := ⟨0x100008 + 0x400 * i, 32, 8⟩
def CHN_POOL_LOOSE_LIMIT (i : Nat) : Fld := ⟨0x100008 + 0x400 * i, 24, 8⟩
def CHN_POOL_INTERNAL_RESERVE (i : Nat) : Fld := ⟨0x100008 + 0x400 * i, 8, 8⟩
def CHN_POOL_HARD_RESERVE (i : Nat) : Fld := ⟨0x100008 + 0x400 * i, 0, 8⟩
def CHN_REFRESH_BACKSTOP_COUNT (i : Nat) : Fld := ⟨0x100010 + 0x400 * i, 48, 16⟩
def CHN_REFRESH_LAST_BACKSTOP_RANK (i : Nat) : Fld := ⟨0x100010 + 0x400 * i, 35, 5⟩
def CHN_REFRESH_BACKSTOP_SEEN (i : Nat) : Fld := ⟨0x100010 + 0x400 * i, 34, 1⟩
def CHN_REFRESH_FORCE_HOT (i : Nat) : Fld := ⟨0x100010 + 0x400 * i, 17, 17⟩
def CHN_REFRESH_HOT_RANKS (i : Nat) : Fld := ⟨0x100010 + 0x400 * i, 0, 17⟩
def CHN_HAMMER_ISSUED (i : Nat) : Fld := ⟨0x100018 + 0x400 * i, 32, 32⟩
def CHN_HAMMER_OVER_BUDGET (i : Nat) : Fld := ⟨0x100018 + 0x400 * i, 26, 1⟩
def CHN_HAMMER_PENDING (i : Nat) : Fld := ⟨0x100018 + 0x400 * i, 21, 5⟩
def CHN_HAMMER_THRESHOLD (i : Nat) : Fld := ⟨0x100018 + 0x400 * i, 0, 14⟩
def CHN_PAUSE_INTERVAL_LENGTH_NS (i : Nat) : Fld := ⟨0x100020 + 0x400 * i, 32, 9⟩
def CHN_PAUSE_INTERVAL_PHASE (i : Nat) : Fld := ⟨0x100020 + 0x400 * i, 16, 12⟩
def CHN_PAUSE_INTERVAL_INTERVAL (i : Nat) : Fld := ⟨0x100020 + 0x400 * i, 0, 13⟩
def CHN_PAUSE_STATUS_ABORTS (i : Nat) : Fld := ⟨0x100028 + 0x400 * i, 48, 16⟩
def CHN_PAUSE_STATUS_LAST_LENGTH_NS (i : Nat) : Fld := ⟨0x100028 + 0x400 * i, 32, 9⟩
def CHN_PAUSE_STATUS_PAUSES (i : Nat) : Fld := ⟨0x100028 + 0x400 * i, 12, 20⟩
def CHN_PAUSE_STATUS_SLOT_COUNT (i : Nat) : Fld := ⟨0x100028 + 0x400 * i, 0, 12⟩
def CHN_ERROR_CORRECTED (i : Nat) : Fld := ⟨0x100030 + 0x400 * i, 48, 16⟩
def CHN_ERROR_TRANSIENT (i : Nat) : Fld := ⟨0x100030 + 0x400 * i, 40, 8⟩
def CHN_ERROR_PENDING_ROWS (i : Nat) : Fld := ⟨0x100030 + 0x400 * i, 32, 8⟩
def CHN_ERROR_COPY_ACTIVE (i : Nat) : Fld := ⟨0x100030 + 0x400 * i, 31, 1⟩
def CHN_ERROR_COPY_BANK (i : Nat) : Fld := ⟨0x100030 + 0x400 * i, 22, 9⟩
def CHN_ERROR_COPY_ROW (i : Nat) : Fld := ⟨0x100030 + 0x400 * i, 11, 11⟩
def CHN_REPAIR_STATE_RETIRED_RANKS (i : Nat) : Fld := ⟨0x100380 + 0x400 * i, 24, 16⟩
def CHN_REPAIR_STATE_SPARE_FOR (i : Nat) : Fld := ⟨0x100380 + 0x400 * i, 19, 5⟩
def CHN_REPAIR_STATE_SPARE_STATE (i : Nat) : Fld := ⟨0x100380 + 0x400 * i, 17, 2⟩
def CHN_REPAIR_STATE_CA_FAILED (i : Nat) : Fld := ⟨0x100380 + 0x400 * i, 13, 4⟩
def CHN_REPAIR_STATE_DATA_FAILED (i : Nat) : Fld := ⟨0x100380 + 0x400 * i, 7, 6⟩
def CHN_REPAIR_STATE_STATE (i : Nat) : Fld := ⟨0x100380 + 0x400 * i, 0, 3⟩
def CHN_DATA_TSV_FAILED_FAILED (i : Nat) : Fld := ⟨0x100388 + 0x400 * i, 0, 44⟩
def CHN_CA_TSV_FAILED_ALERT_COPY (i : Nat) : Fld := ⟨0x100390 + 0x400 * i, 28, 2⟩
def CHN_CA_TSV_FAILED_CLOCK_COPY (i : Nat) : Fld := ⟨0x100390 + 0x400 * i, 24, 4⟩
def CHN_CA_TSV_FAILED_STROBE_COPY (i : Nat) : Fld := ⟨0x100390 + 0x400 * i, 16, 8⟩
def CHN_CA_TSV_FAILED_FAILED (i : Nat) : Fld := ⟨0x100390 + 0x400 * i, 0, 15⟩
def DCT_CTRL_WORK_PLACE_ENABLE : Fld := ⟨0x180000, 2, 1⟩
def DCT_CTRL_HEAT_MOVES_ENABLE : Fld := ⟨0x180000, 1, 1⟩
def DCT_CTRL_MAP_READY : Fld := ⟨0x180000, 0, 1⟩
def DCT_HEAT_HOT_THRESHOLD : Fld := ⟨0x180008, 24, 8⟩
def DCT_HEAT_COLD_THRESHOLD : Fld := ⟨0x180008, 16, 8⟩
def DCT_HEAT_SAMPLE_SHIFT : Fld := ⟨0x180008, 12, 4⟩
def DCT_HEAT_DECAY_FOLIOS : Fld := ⟨0x180008, 0, 7⟩
def DCT_MAP_CACHE_MISSES : Fld := ⟨0x180010, 40, 24⟩
def DCT_MAP_CACHE_LOCKED : Fld := ⟨0x180010, 22, 18⟩
def DCT_MAP_CACHE_LOCK_LIMIT : Fld := ⟨0x180010, 0, 18⟩
def DCT_MOVE_CTRL_HEAT_BUDGET_MIB : Fld := ⟨0x180018, 32, 16⟩
def DCT_MOVE_CTRL_RATE_GBPS : Fld := ⟨0x180018, 16, 8⟩
def DCT_MOVE_CTRL_SLOTS : Fld := ⟨0x180018, 0, 7⟩
def DCT_MOVE_STATUS_WRITE_HOT_LINES : Fld := ⟨0x180020, 56, 8⟩
def DCT_MOVE_STATUS_ABORTS : Fld := ⟨0x180020, 32, 16⟩
def DCT_MOVE_STATUS_COMPLETED : Fld := ⟨0x180020, 8, 24⟩
def DCT_MOVE_STATUS_EVACUATING : Fld := ⟨0x180020, 7, 1⟩
def DCT_MOVE_STATUS_IN_FLIGHT : Fld := ⟨0x180020, 0, 7⟩
def DCT_EPOCH_FOLIO : Fld := ⟨0x180028, 20, 44⟩
def DCT_EPOCH_HOT_COUNT : Fld := ⟨0x180028, 10, 10⟩
def DCT_EPOCH_COLD_COUNT : Fld := ⟨0x180028, 0, 10⟩
def DCT_WORK_PREMIGRATE_MIN_KIB : Fld := ⟨0x180030, 48, 16⟩
def DCT_WORK_SPLIT_MAX : Fld := ⟨0x180030, 32, 8⟩
def DCT_WORK_WARM_LIMIT_C : Fld := ⟨0x180030, 24, 8⟩
def DCT_WORK_MLP : Fld := ⟨0x180030, 16, 8⟩
def DCT_LEND_LENT : Fld := ⟨0x180038, 36, 28⟩
def DCT_LEND_HOSTED : Fld := ⟨0x180038, 8, 28⟩
def DCT_LEND_HOST_QUIRES : Fld := ⟨0x180038, 2, 6⟩
def DCT_LEND_ACCEPT : Fld := ⟨0x180038, 1, 1⟩
def DCT_LEND_LEND : Fld := ⟨0x180038, 0, 1⟩
def DCT_HEAT_LIST_HEAT (i : Nat) : Fld := ⟨0x184000 + 0x8 * i, 56, 8⟩
def DCT_HEAT_LIST_LAST_SAMPLER (i : Nat) : Fld := ⟨0x184000 + 0x8 * i, 48, 8⟩
def DCT_HEAT_LIST_COLD (i : Nat) : Fld := ⟨0x184000 + 0x8 * i, 32, 1⟩
def DCT_HEAT_LIST_LEAF (i : Nat) : Fld := ⟨0x184000 + 0x8 * i, 0, 32⟩
def DCT_LOAD_FREE (i : Nat) : Fld := ⟨0x186000 + 0x8 * i, 32, 32⟩
def DCT_LOAD_SERVED (i : Nat) : Fld := ⟨0x186000 + 0x8 * i, 0, 32⟩
def DCT_SPREAD_SET_ALL (i j : Nat) : Fld := ⟨0x188000 + 0x20 * i + 0x8 * j, 0, 64⟩
def ACC_CTRL_MISS_HOLDOFF : Fld := ⟨0x1A0000, 8, 8⟩
def ACC_CTRL_RUBRIC_SCRIBE : Fld := ⟨0x1A0000, 1, 3⟩
def ACC_CTRL_ASSUME_COOL : Fld := ⟨0x1A0000, 0, 1⟩
def ACC_ADMIT_STATUS_STATUS : Fld := ⟨0x1A0008, 56, 8⟩
def ACC_ADMIT_STATUS_RESOURCE : Fld := ⟨0x1A0008, 54, 2⟩
def ACC_ADMIT_STATUS_INDEX : Fld := ⟨0x1A0008, 46, 8⟩
def ACC_ADMIT_STATUS_EXCESS : Fld := ⟨0x1A0008, 24, 22⟩
def ACC_ADMIT_STATUS_ACCOUNT : Fld := ⟨0x1A0008, 0, 12⟩
def ACC_DEVICE_SHORTFALL : Fld := ⟨0x1A0010, 46, 1⟩
def ACC_DEVICE_COMMITTED : Fld := ⟨0x1A0010, 23, 23⟩
def ACC_DEVICE_CAPACITY : Fld := ⟨0x1A0010, 0, 23⟩
def ACC_CHANNEL_DELIVERABLE (i : Nat) : Fld := ⟨0x1A1000 + 0x8 * i, 48, 16⟩
def ACC_CHANNEL_HARD (i : Nat) : Fld := ⟨0x1A1000 + 0x8 * i, 32, 16⟩
def ACC_CHANNEL_FIRM (i : Nat) : Fld := ⟨0x1A1000 + 0x8 * i, 16, 16⟩
def ACC_CHANNEL_SHORTFALL (i : Nat) : Fld := ⟨0x1A1000 + 0x8 * i, 0, 1⟩
def ACC_LINK_CAPACITY (i : Nat) : Fld := ⟨0x1A1800 + 0x8 * i, 44, 20⟩
def ACC_LINK_COMMITTED (i : Nat) : Fld := ⟨0x1A1800 + 0x8 * i, 24, 20⟩
def ACC_LINK_SHORTFALL (i : Nat) : Fld := ⟨0x1A1800 + 0x8 * i, 0, 1⟩
def ACC_MISS_ALL (i : Nat) : Fld := ⟨0x1A2000 + 0x8 * i, 0, 64⟩
def ACC_REDUCED_ALL (i : Nat) : Fld := ⟨0x1A2200 + 0x8 * i, 0, 64⟩
def ACC_VECTOR_E3_ENABLE (i : Nat) : Fld := ⟨0x1A4000 + 0x8 * i, 63, 1⟩
def ACC_VECTOR_E3_VECTOR (i : Nat) : Fld := ⟨0x1A4000 + 0x8 * i, 48, 12⟩
def ACC_VECTOR_E2_ENABLE (i : Nat) : Fld := ⟨0x1A4000 + 0x8 * i, 47, 1⟩
def ACC_VECTOR_E2_VECTOR (i : Nat) : Fld := ⟨0x1A4000 + 0x8 * i, 32, 12⟩
def ACC_VECTOR_E1_ENABLE (i : Nat) : Fld := ⟨0x1A4000 + 0x8 * i, 31, 1⟩
def ACC_VECTOR_E1_VECTOR (i : Nat) : Fld := ⟨0x1A4000 + 0x8 * i, 16, 12⟩
def ACC_VECTOR_E0_ENABLE (i : Nat) : Fld := ⟨0x1A4000 + 0x8 * i, 15, 1⟩
def ACC_VECTOR_E0_VECTOR (i : Nat) : Fld := ⟨0x1A4000 + 0x8 * i, 0, 12⟩
def ACC_CFG_CLASS (i : Nat) : Fld := ⟨0x1A8000 + 0x8 * i, 62, 2⟩
def ACC_CFG_WINDOW_LOG2 (i : Nat) : Fld := ⟨0x1A8000 + 0x8 * i, 59, 3⟩
def ACC_CFG_STANDING (i : Nat) : Fld := ⟨0x1A8000 + 0x8 * i, 47, 12⟩
def ACC_CFG_SPREAD (i : Nat) : Fld := ⟨0x1A8000 + 0x8 * i, 38, 9⟩
def ACC_CFG_URG_SOURCE (i : Nat) : Fld := ⟨0x1A8000 + 0x8 * i, 34, 4⟩
def ACC_CFG_OWNER (i : Nat) : Fld := ⟨0x1A8000 + 0x8 * i, 16, 16⟩
def ACC_RATE_CEILING (i : Nat) : Fld := ⟨0x1B0000 + 0x8 * i, 24, 24⟩
def ACC_RATE_GUARANTEE (i : Nat) : Fld := ⟨0x1B0000 + 0x8 * i, 0, 24⟩
def ACC_SERVICE_EFFECTIVE (i : Nat) : Fld := ⟨0x1B8000 + 0x8 * i, 40, 24⟩
def ACC_SERVICE_SERVED (i : Nat) : Fld := ⟨0x1B8000 + 0x8 * i, 16, 24⟩
def ACC_SERVICE_MISSES (i : Nat) : Fld := ⟨0x1B8000 + 0x8 * i, 8, 8⟩
def ACC_SERVICE_REDUCED (i : Nat) : Fld := ⟨0x1B8000 + 0x8 * i, 7, 1⟩
def ACC_SERVICE_MISSED (i : Nat) : Fld := ⟨0x1B8000 + 0x8 * i, 6, 1⟩
def ACC_SERVICE_AT_CEILING (i : Nat) : Fld := ⟨0x1B8000 + 0x8 * i, 5, 1⟩
def ACC_SERVICE_URG_CAPPED (i : Nat) : Fld := ⟨0x1B8000 + 0x8 * i, 4, 1⟩
def ACC_SERVICE_URGENCY (i : Nat) : Fld := ⟨0x1B8000 + 0x8 * i, 2, 2⟩
def SEL_CTRL_RESEAL_RATE_GBPS : Fld := ⟨0x1C0000, 16, 8⟩
def SEL_CTRL_EVENT_SCRIBE : Fld := ⟨0x1C0000, 8, 3⟩
def SEL_CTRL_MERGE_ENABLE : Fld := ⟨0x1C0000, 1, 1⟩
def SEL_CTRL_TREE_READY : Fld := ⟨0x1C0000, 0, 1⟩
def SEL_TREE_FRESH_LEAVES : Fld := ⟨0x1C0008, 36, 28⟩
def SEL_TREE_BASE_INDEX : Fld := ⟨0x1C0008, 0, 28⟩
def SEL_TREE_CACHE_MISSES : Fld := ⟨0x1C0010, 44, 20⟩
def SEL_TREE_CACHE_LOCKED : Fld := ⟨0x1C0010, 28, 16⟩
def SEL_TREE_CACHE_LOCK_LIMIT : Fld := ⟨0x1C0010, 0, 16⟩
def SEL_MERGE_HITS : Fld := ⟨0x1C0018, 32, 32⟩
def SEL_MERGE_MISSES : Fld := ⟨0x1C0018, 0, 32⟩
def SEL_ERRORS_TAG_FAILS : Fld := ⟨0x1C0020, 48, 16⟩
def SEL_ERRORS_CHECK_FAILS : Fld := ⟨0x1C0020, 32, 16⟩
def SEL_ERRORS_VIOLATIONS : Fld := ⟨0x1C0020, 16, 16⟩
def SEL_ERRORS_TREE_CORRECTED : Fld := ⟨0x1C0020, 8, 8⟩
def SEL_ERRORS_TREE_LOST : Fld := ⟨0x1C0020, 0, 8⟩
def SEL_RESEAL_CHALLENGE_ALL : Fld := ⟨0x1C0028, 0, 64⟩
def SEL_RESEAL_CMD_KEY_INDEX : Fld := ⟨0x1C0030, 48, 10⟩
def SEL_RESEAL_CMD_LEVEL : Fld := ⟨0x1C0030, 45, 3⟩
def SEL_RESEAL_CMD_NODE : Fld := ⟨0x1C0030, 16, 27⟩
def SEL_RESEAL_CMD_START : Fld := ⟨0x1C0030, 0, 1⟩
def SEL_RESEAL_AUTH_AUTH : Fld := ⟨0x1C0038, 0, 48⟩
def SEL_RESEAL_STATUS_STATUS : Fld := ⟨0x1C0040, 56, 8⟩
def SEL_RESEAL_STATUS_LEFT : Fld := ⟨0x1C0040, 28, 28⟩
def SEL_UNVERIFIABLE_VALID (i : Nat) : Fld := ⟨0x1C0800 + 0x8 * i, 63, 1⟩
def SEL_UNVERIFIABLE_LEVEL (i : Nat) : Fld := ⟨0x1C0800 + 0x8 * i, 60, 3⟩
def SEL_UNVERIFIABLE_NODE (i : Nat) : Fld := ⟨0x1C0800 + 0x8 * i, 33, 27⟩
def SEL_IDE_FAILS (i : Nat) : Fld := ⟨0x1C1000 + 0x8 * i, 48, 16⟩
def SEL_IDE_S1_STATE (i : Nat) : Fld := ⟨0x1C1000 + 0x8 * i, 14, 2⟩
def SEL_IDE_S1_KEYSET (i : Nat) : Fld := ⟨0x1C1000 + 0x8 * i, 13, 1⟩
def SEL_IDE_S1_MODE (i : Nat) : Fld := ⟨0x1C1000 + 0x8 * i, 12, 1⟩
def SEL_IDE_S0_STATE (i : Nat) : Fld := ⟨0x1C1000 + 0x8 * i, 10, 2⟩
def SEL_IDE_S0_KEYSET (i : Nat) : Fld := ⟨0x1C1000 + 0x8 * i, 9, 1⟩
def SEL_KEY_ATTR_STATE (i : Nat) : Fld := ⟨0x1C2000 + 0x8 * i, 62, 2⟩
def SEL_KEY_ATTR_LEVEL (i : Nat) : Fld := ⟨0x1C2000 + 0x8 * i, 60, 2⟩
def SEL_KEY_ATTR_SOURCE (i : Nat) : Fld := ⟨0x1C2000 + 0x8 * i, 58, 2⟩
def SEL_KEY_ATTR_NIB_CLUSTERS (i : Nat) : Fld := ⟨0x1C2000 + 0x8 * i, 42, 16⟩
def SEL_KEY_ATTR_BINDING (i : Nat) : Fld := ⟨0x1C2000 + 0x8 * i, 24, 16⟩
def SEL_LD_KEY_LOCKED (i j : Nat) : Fld := ⟨0x1C8000 + 0x200 * i + 0x8 * j, 25, 1⟩
def SEL_LD_KEY_MODE (i j : Nat) : Fld := ⟨0x1C8000 + 0x200 * i + 0x8 * j, 24, 1⟩
def SEL_LD_KEY_DEFAULT_KEY (i j : Nat) : Fld := ⟨0x1C8000 + 0x200 * i + 0x8 * j, 0, 10⟩
def LAN_PORT_CTRL_MAX_RATE (i : Nat) : Fld := ⟨0x080000 + 0x400 * i, 20, 4⟩
def LAN_PORT_CTRL_CLOCK_MODE (i : Nat) : Fld := ⟨0x080000 + 0x400 * i, 18, 2⟩
def LAN_PORT_CTRL_L0P_ENABLE (i : Nat) : Fld := ⟨0x080000 + 0x400 * i, 17, 1⟩
def LAN_PORT_CTRL_L1_ENABLE (i : Nat) : Fld := ⟨0x080000 + 0x400 * i, 16, 1⟩
def LAN_PORT_CTRL_LANE_REVERSE_ALLOW (i : Nat) : Fld := ⟨0x080000 + 0x400 * i, 3, 1⟩
def LAN_PORT_CTRL_RETRAIN (i : Nat) : Fld := ⟨0x080000 + 0x400 * i, 2, 1⟩
def LAN_PORT_CTRL_HOLD_DETECT (i : Nat) : Fld := ⟨0x080000 + 0x400 * i, 1, 1⟩
def LAN_PORT_STATUS_LINK_UP_3 (i : Nat) : Fld := ⟨0x080008 + 0x400 * i, 63, 1⟩
def LAN_PORT_STATUS_STATE_3 (i : Nat) : Fld := ⟨0x080008 + 0x400 * i, 60, 3⟩
def LAN_PORT_STATUS_WIDTH_3 (i : Nat) : Fld := ⟨0x080008 + 0x400 * i, 57, 3⟩
def LAN_PORT_STATUS_RATE_3 (i : Nat) : Fld := ⟨0x080008 + 0x400 * i, 54, 3⟩
def LAN_PORT_STATUS_REVERSED_3 (i : Nat) : Fld := ⟨0x080008 + 0x400 * i, 53, 1⟩
def LAN_PORT_STATUS_DOZE_TX_3 (i : Nat) : Fld := ⟨0x080008 + 0x400 * i, 52, 1⟩
def LAN_PORT_STATUS_DOZE_RX_3 (i : Nat) : Fld := ⟨0x080008 + 0x400 * i, 51, 1⟩
def LAN_PORT_STATUS_ACTIVE_WIDTH_3 (i : Nat) : Fld := ⟨0x080008 + 0x400 * i, 48, 3⟩
def LAN_PORT_STATUS_LINK_UP_2 (i : Nat) : Fld := ⟨0x080008 + 0x400 * i, 47, 1⟩
def LAN_PORT_STATUS_STATE_2 (i : Nat) : Fld := ⟨0x080008 + 0x400 * i, 44, 3⟩
def LAN_PORT_STATUS_WIDTH_2 (i : Nat) : Fld := ⟨0x080008 + 0x400 * i, 41, 3⟩
def LAN_PORT_STATUS_RATE_2 (i : Nat) : Fld := ⟨0x080008 + 0x400 * i, 38, 3⟩
def LAN_PORT_STATUS_REVERSED_2 (i : Nat) : Fld := ⟨0x080008 + 0x400 * i, 37, 1⟩
def LAN_PORT_STATUS_DOZE_TX_2 (i : Nat) : Fld := ⟨0x080008 + 0x400 * i, 36, 1⟩
def LAN_PORT_STATUS_DOZE_RX_2 (i : Nat) : Fld := ⟨0x080008 + 0x400 * i, 35, 1⟩
def LAN_PORT_STATUS_ACTIVE_WIDTH_2 (i : Nat) : Fld := ⟨0x080008 + 0x400 * i, 32, 3⟩
def LAN_PORT_STATUS_LINK_UP_1 (i : Nat) : Fld := ⟨0x080008 + 0x400 * i, 31, 1⟩
def LAN_PORT_STATUS_STATE_1 (i : Nat) : Fld := ⟨0x080008 + 0x400 * i, 28, 3⟩
def LAN_PORT_STATUS_WIDTH_1 (i : Nat) : Fld := ⟨0x080008 + 0x400 * i, 25, 3⟩
def LAN_PORT_STATUS_RATE_1 (i : Nat) : Fld := ⟨0x080008 + 0x400 * i, 22, 3⟩
def LAN_PORT_STATUS_REVERSED_1 (i : Nat) : Fld := ⟨0x080008 + 0x400 * i, 21, 1⟩
def LAN_PORT_STATUS_DOZE_TX_1 (i : Nat) : Fld := ⟨0x080008 + 0x400 * i, 20, 1⟩
def LAN_PORT_STATUS_DOZE_RX_1 (i : Nat) : Fld := ⟨0x080008 + 0x400 * i, 19, 1⟩
def LAN_PORT_STATUS_ACTIVE_WIDTH_1 (i : Nat) : Fld := ⟨0x080008 + 0x400 * i, 16, 3⟩
def LAN_PORT_STATUS_LINK_UP_0 (i : Nat) : Fld := ⟨0x080008 + 0x400 * i, 15, 1⟩
def LAN_PORT_STATUS_STATE_0 (i : Nat) : Fld := ⟨0x080008 + 0x400 * i, 12, 3⟩
def LAN_PORT_STATUS_WIDTH_0 (i : Nat) : Fld := ⟨0x080008 + 0x400 * i, 9, 3⟩
def LAN_PORT_STATUS_RATE_0 (i : Nat) : Fld := ⟨0x080008 + 0x400 * i, 6, 3⟩
def LAN_PORT_STATUS_REVERSED_0 (i : Nat) : Fld := ⟨0x080008 + 0x400 * i, 5, 1⟩
def LAN_PORT_STATUS_DOZE_TX_0 (i : Nat) : Fld := ⟨0x080008 + 0x400 * i, 4, 1⟩
def LAN_PORT_STATUS_DOZE_RX_0 (i : Nat) : Fld := ⟨0x080008 + 0x400 * i, 3, 1⟩
def LAN_PORT_STATUS_ACTIVE_WIDTH_0 (i : Nat) : Fld := ⟨0x080008 + 0x400 * i, 0, 3⟩
def LAN_LANES_LANE_FAILED (i : Nat) : Fld := ⟨0x080010 + 0x400 * i, 48, 16⟩
def LAN_LANES_POLARITY_INVERTED (i : Nat) : Fld := ⟨0x080010 + 0x400 * i, 32, 16⟩
def LAN_LANES_LANE_ACTIVE (i : Nat) : Fld := ⟨0x080010 + 0x400 * i, 16, 16⟩
def LAN_PAIR_LAT_DOWN (i : Nat) : Fld := ⟨0x080018 + 0x800 * i, 16, 8⟩
def LAN_PAIR_LAT_UP (i : Nat) : Fld := ⟨0x080018 + 0x800 * i, 8, 8⟩
def LAN_PAIR_READY (i : Nat) : Fld := ⟨0x080018 + 0x800 * i, 2, 1⟩
def LAN_PAIR_ORIENT (i : Nat) : Fld := ⟨0x080018 + 0x800 * i, 1, 1⟩
def LAN_PAIR_ENABLE (i : Nat) : Fld := ⟨0x080018 + 0x800 * i, 0, 1⟩
def LAN_QUAD_BIFURCATION (i : Nat) : Fld := ⟨0x080020 + 0x4000 * i, 0, 2⟩
def LAN_DOZE_ENTRIES (i : Nat) : Fld := ⟨0x080028 + 0x400 * i, 32, 32⟩
def LAN_DOZE_IDLE_LINES (i : Nat) : Fld := ⟨0x080028 + 0x400 * i, 8, 8⟩
def LAN_DOZE_PARTNER_ENABLE (i : Nat) : Fld := ⟨0x080028 + 0x400 * i, 1, 1⟩
def LAN_DOZE_ENABLE (i : Nat) : Fld := ⟨0x080028 + 0x400 * i, 0, 1⟩
def LAN_LINK_ERRORS_UNCORRECTABLE (i : Nat) : Fld := ⟨0x080030 + 0x400 * i, 48, 16⟩
def LAN_LINK_ERRORS_REPLAYS (i : Nat) : Fld := ⟨0x080030 + 0x400 * i, 32, 16⟩
def LAN_LINK_ERRORS_FEC_CORRECTED (i : Nat) : Fld := ⟨0x080030 + 0x400 * i, 0, 32⟩
def LAN_FLITS_ALL (i : Nat) : Fld := ⟨0x080038 + 0x400 * i, 0, 64⟩
def LAN_WAKE_FALSE_WAKES (i : Nat) : Fld := ⟨0x080040 + 0x400 * i, 48, 16⟩
def LAN_WAKE_BACKOFF (i : Nat) : Fld := ⟨0x080040 + 0x400 * i, 0, 11⟩
def LAN_LANE_EQ_RX_SETTING (i j : Nat) : Fld := ⟨0x080100 + 0x400 * i + 0x20 * j, 32, 12⟩
def LAN_LANE_EQ_CM2 (i j : Nat) : Fld := ⟨0x080100 + 0x400 * i + 0x20 * j, 22, 6⟩
def LAN_LANE_EQ_CM1 (i j : Nat) : Fld := ⟨0x080100 + 0x400 * i + 0x20 * j, 16, 6⟩
def LAN_LANE_EQ_C0 (i j : Nat) : Fld := ⟨0x080100 + 0x400 * i + 0x20 * j, 10, 6⟩
def LAN_LANE_EQ_CP1 (i j : Nat) : Fld := ⟨0x080100 + 0x400 * i + 0x20 * j, 4, 6⟩
def LAN_LANE_EQ_PRESET (i j : Nat) : Fld := ⟨0x080100 + 0x400 * i + 0x20 * j, 0, 4⟩
def LAN_LANE_ERRORS_CORRECTED_SYMBOLS (i j : Nat) : Fld := ⟨0x080108 + 0x400 * i + 0x20 * j, 32, 32⟩
def LAN_LANE_ERRORS_LOCK_LOSSES (i j : Nat) : Fld := ⟨0x080108 + 0x400 * i + 0x20 * j, 0, 16⟩
def LAN_LANE_MARGIN_SAMPLES (i j : Nat) : Fld := ⟨0x080110 + 0x400 * i + 0x20 * j, 48, 16⟩
def LAN_LANE_MARGIN_ERRORS (i j : Nat) : Fld := ⟨0x080110 + 0x400 * i + 0x20 * j, 32, 16⟩
def LAN_LANE_MARGIN_ERROR_LIMIT (i j : Nat) : Fld := ⟨0x080110 + 0x400 * i + 0x20 * j, 10, 6⟩
def LAN_LANE_MARGIN_STEPS (i j : Nat) : Fld := ⟨0x080110 + 0x400 * i + 0x20 * j, 3, 7⟩
def LAN_LANE_MARGIN_SIDE (i j : Nat) : Fld := ⟨0x080110 + 0x400 * i + 0x20 * j, 2, 1⟩
def LAN_LANE_MARGIN_KIND (i j : Nat) : Fld := ⟨0x080110 + 0x400 * i + 0x20 * j, 1, 1⟩
def LAN_LANE_MARGIN_START (i j : Nat) : Fld := ⟨0x080110 + 0x400 * i + 0x20 * j, 0, 1⟩
def PRT_PORT_CTRL_EXTRA_RESERVE (i : Nat) : Fld := ⟨0x0C0000 + 0x400 * i, 24, 8⟩
def PRT_PORT_CTRL_PEER_UPSTREAM (i : Nat) : Fld := ⟨0x0C0000 + 0x400 * i, 17, 1⟩
def PRT_PORT_CTRL_VIRAL_SENT (i : Nat) : Fld := ⟨0x0C0000 + 0x400 * i, 16, 1⟩
def PRT_PORT_CTRL_ROLE (i : Nat) : Fld := ⟨0x0C0000 + 0x400 * i, 0, 2⟩
def PRT_PORT_STATUS_RESERVE_PEAK (i : Nat) : Fld := ⟨0x0C0008 + 0x400 * i, 38, 14⟩
def PRT_PORT_STATUS_RESERVE_USED (i : Nat) : Fld := ⟨0x0C0008 + 0x400 * i, 24, 14⟩
def PRT_PORT_STATUS_WITHHELD (i : Nat) : Fld := ⟨0x0C0008 + 0x400 * i, 0, 24⟩
def PRT_PORT_ERRORS_VIOLATIONS (i : Nat) : Fld := ⟨0x0C0010 + 0x400 * i, 32, 32⟩
def PRT_PORT_ERRORS_BI_TIMEOUTS (i : Nat) : Fld := ⟨0x0C0010 + 0x400 * i, 16, 16⟩
def PRT_PORT_ERRORS_LINK_DOWNS (i : Nat) : Fld := ⟨0x0C0010 + 0x400 * i, 0, 16⟩
def PRT_LD_VALID (i j : Nat) : Fld := ⟨0x0C0100 + 0x400 * i + 0x8 * j, 63, 1⟩
def PRT_LD_SUB_LINK (i j : Nat) : Fld := ⟨0x0C0100 + 0x400 * i + 0x8 * j, 61, 2⟩
def PRT_LD_HDM_DB (i j : Nat) : Fld := ⟨0x0C0100 + 0x400 * i + 0x8 * j, 60, 1⟩
def PRT_DC_REGION_VALID (i j : Nat) : Fld := ⟨0x0D0000 + 0x80 * i + 0x10 * j, 63, 1⟩
def PRT_DC_REGION_SHARABLE (i j : Nat) : Fld := ⟨0x0D0000 + 0x80 * i + 0x10 * j, 62, 1⟩
def PRT_DC_REGION_LENGTH (i j : Nat) : Fld := ⟨0x0D0000 + 0x80 * i + 0x10 * j, 18, 18⟩
def PRT_DC_REGION_BASE (i j : Nat) : Fld := ⟨0x0D0000 + 0x80 * i + 0x10 * j, 0, 18⟩
def PRT_DC_USE_PENDING (i j : Nat) : Fld := ⟨0x0D0008 + 0x80 * i + 0x10 * j, 18, 18⟩
def PRT_DC_USE_HELD (i j : Nat) : Fld := ⟨0x0D0008 + 0x80 * i + 0x10 * j, 0, 18⟩
def PRT_ROUTE_VALID (i : Nat) : Fld := ⟨0x0F0000 + 0x8 * i, 63, 1⟩
def PRT_ROUTE_ALT_VALID (i : Nat) : Fld := ⟨0x0F0000 + 0x8 * i, 62, 1⟩
def PRT_ROUTE_ALT_PORT (i : Nat) : Fld := ⟨0x0F0000 + 0x8 * i, 8, 8⟩
def PRT_ROUTE_PORT (i : Nat) : Fld := ⟨0x0F0000 + 0x8 * i, 0, 8⟩
def PRT_CTRL_PBR_ID : Fld := ⟨0x0F8000, 52, 12⟩
def PRT_CTRL_VOQ_SHIFT : Fld := ⟨0x0F8000, 40, 4⟩
def PRT_CTRL_ACCOUNT_SHIFT : Fld := ⟨0x0F8000, 36, 4⟩
def PRT_CTRL_BI_TIMEOUT_LINES : Fld := ⟨0x0F8000, 24, 8⟩
def PRT_CTRL_COARSE_SWEEP : Fld := ⟨0x0F8000, 0, 1⟩
def PRT_SF_STATUS_ENTRIES : Fld := ⟨0x0F8008, 41, 23⟩
def PRT_SF_STATUS_VICTIMS : Fld := ⟨0x0F8008, 27, 14⟩
def PRT_SF_STATUS_COARSE_QUIRES : Fld := ⟨0x0F8008, 9, 18⟩
def PRT_BUFFER_SHARED_FREE : Fld := ⟨0x0F8010, 44, 20⟩
def PRT_BUFFER_ACCOUNT_RESERVED : Fld := ⟨0x0F8010, 24, 20⟩
def PRT_BUFFER_PORT_RESERVED : Fld := ⟨0x0F8010, 4, 20⟩
def PRT_EXTENT_CMD_OP : Fld := ⟨0x0F8018, 62, 2⟩
def PRT_EXTENT_CMD_PORT : Fld := ⟨0x0F8018, 56, 6⟩
def PRT_EXTENT_CMD_LD : Fld := ⟨0x0F8018, 52, 4⟩
def PRT_EXTENT_CMD_REGION : Fld := ⟨0x0F8018, 49, 3⟩
def PRT_EXTENT_CMD_COUNT : Fld := ⟨0x0F8018, 18, 18⟩
def PRT_EXTENT_CMD_FIRST : Fld := ⟨0x0F8018, 0, 18⟩
def PRT_EXTENT_STATUS_STATUS : Fld := ⟨0x0F8020, 56, 8⟩
def PRT_EXTENT_STATUS_ACCEPTED : Fld := ⟨0x0F8020, 18, 18⟩
def PRT_EXTENT_STATUS_LEFT : Fld := ⟨0x0F8020, 0, 18⟩
def MBX_CTRL_HEARTBEAT : Fld := ⟨0x300000, 8, 1⟩
def MBX_CTRL_LOADER_SCRIBE : Fld := ⟨0x300000, 0, 3⟩
def MBX_SELECT_MAILBOX : Fld := ⟨0x300008, 0, 12⟩
def MBX_COMPLETE_COMPLETE : Fld := ⟨0x300010, 0, 1⟩
def MBX_SCRIBE_HANDLE (i : Nat) : Fld := ⟨0x300100 + 0x8 * i, 48, 16⟩
def MBX_SCRIBE_RESTARTS (i : Nat) : Fld := ⟨0x300100 + 0x8 * i, 40, 8⟩
def MBX_SCRIBE_LAST_CAUSE (i : Nat) : Fld := ⟨0x300100 + 0x8 * i, 24, 8⟩
def MBX_SCRIBE_ROLE (i : Nat) : Fld := ⟨0x300100 + 0x8 * i, 16, 3⟩
def MBX_SCRIBE_LOADER (i : Nat) : Fld := ⟨0x300100 + 0x8 * i, 3, 1⟩
def MBX_SCRIBE_BLOCKED (i : Nat) : Fld := ⟨0x300100 + 0x8 * i, 2, 1⟩
def MBX_SCRIBE_STATE (i : Nat) : Fld := ⟨0x300100 + 0x8 * i, 0, 2⟩
def MBX_ADMIN_ALL (i : Nat) : Fld := ⟨0x301000 + 0x8 * i, 0, 64⟩
def MBX_WINDOW_ALL (i : Nat) : Fld := ⟨0x310000 + 0x8 * i, 0, 64⟩
def QUE_CTRL_DEFER_LIMIT : Fld := ⟨0x1E0000, 8, 8⟩
def QUE_COUNTS_DISPATCHED : Fld := ⟨0x1E0008, 32, 32⟩
def QUE_COUNTS_FAULTS : Fld := ⟨0x1E0008, 16, 16⟩
def QUE_COUNTS_NO_CORE : Fld := ⟨0x1E0008, 0, 16⟩
def QUE_SELECT_PAIR : Fld := ⟨0x1E0010, 0, 14⟩
def QUE_PAIR_CFG_ENABLE : Fld := ⟨0x1E0018, 63, 1⟩
def QUE_PAIR_CFG_SQ_HOST : Fld := ⟨0x1E0018, 62, 1⟩
def QUE_PAIR_CFG_CQ_HOST : Fld := ⟨0x1E0018, 61, 1⟩
def QUE_PAIR_CFG_INT_ENABLE : Fld := ⟨0x1E0018, 60, 1⟩
def QUE_PAIR_CFG_VECTOR : Fld := ⟨0x1E0018, 48, 12⟩
def QUE_PAIR_CFG_GROUP : Fld := ⟨0x1E0018, 38, 10⟩
def QUE_PAIR_CFG_OWNER : Fld := ⟨0x1E0018, 16, 16⟩
def QUE_PAIR_CFG_SQ_SIZE_LOG2 : Fld := ⟨0x1E0018, 12, 4⟩
def QUE_PAIR_CFG_CQ_SIZE_LOG2 : Fld := ⟨0x1E0018, 8, 4⟩
def QUE_PAIR_SQ_BASE : Fld := ⟨0x1E0020, 12, 52⟩
def QUE_PAIR_CQ_BASE : Fld := ⟨0x1E0028, 12, 52⟩
def QUE_PAIR_STATE_SQ_TAIL : Fld := ⟨0x1E0030, 52, 12⟩
def QUE_PAIR_STATE_SQ_HEAD : Fld := ⟨0x1E0030, 40, 12⟩
def QUE_PAIR_STATE_CQ_TAIL : Fld := ⟨0x1E0030, 28, 12⟩
def QUE_PAIR_STATE_CQ_HEAD : Fld := ⟨0x1E0030, 16, 12⟩
def QUE_PAIR_STATE_IN_FLIGHT : Fld := ⟨0x1E0030, 3, 13⟩
def QUE_PAIR_STATE_PHASE : Fld := ⟨0x1E0030, 2, 1⟩
def QUE_PAIR_STATE_ERROR : Fld := ⟨0x1E0030, 1, 1⟩
def QUE_GROUP_VALID (i : Nat) : Fld := ⟨0x1E2000 + 0x8 * i, 63, 1⟩
def QUE_GROUP_RUN_LIMIT_LINES (i : Nat) : Fld := ⟨0x1E2000 + 0x8 * i, 32, 16⟩
def NIB_CTRL_IDLE_HOLD_FOLIOS : Fld := ⟨0x200000, 8, 8⟩
def NIB_CTRL_SCRATCH_CLEAR_ALWAYS : Fld := ⟨0x200000, 0, 1⟩
def NIB_CLUSTER_CLOCK (i : Nat) : Fld := ⟨0x200100 + 0x8 * i, 62, 2⟩
def NIB_CLUSTER_THROTTLE (i : Nat) : Fld := ⟨0x200100 + 0x8 * i, 58, 4⟩
def NIB_CLUSTER_POWERED (i : Nat) : Fld := ⟨0x200100 + 0x8 * i, 57, 1⟩
def NIB_CLUSTER_PARKED (i : Nat) : Fld := ⟨0x200100 + 0x8 * i, 0, 16⟩
def NIB_CORE_STATE (i : Nat) : Fld := ⟨0x201000 + 0x8 * i, 61, 3⟩
def NIB_CORE_PARK (i : Nat) : Fld := ⟨0x201000 + 0x8 * i, 60, 1⟩
def NIB_CORE_DEPTH (i : Nat) : Fld := ⟨0x201000 + 0x8 * i, 50, 7⟩
def NIB_CORE_PAIR (i : Nat) : Fld := ⟨0x201000 + 0x8 * i, 36, 14⟩
def NIB_CORE_KERNEL (i : Nat) : Fld := ⟨0x201000 + 0x8 * i, 12, 12⟩
def NIB_KERNEL_LOC_VALID (i : Nat) : Fld := ⟨0x208000 + 0x8 * i, 63, 1⟩
def NIB_KERNEL_LOC_SPLITTABLE (i : Nat) : Fld := ⟨0x208000 + 0x8 * i, 62, 1⟩
def NIB_KERNEL_LOC_HOLD (i : Nat) : Fld := ⟨0x208000 + 0x8 * i, 61, 1⟩
def NIB_KERNEL_LOC_DATA_LINES (i : Nat) : Fld := ⟨0x208000 + 0x8 * i, 44, 12⟩
def NIB_KERNEL_LOC_SYLLABLES (i : Nat) : Fld := ⟨0x208000 + 0x8 * i, 28, 16⟩
def NIB_KERNEL_LOC_OFFSET (i : Nat) : Fld := ⟨0x208000 + 0x8 * i, 0, 28⟩
def NIB_KERNEL_EST_FIXED_NS (i : Nat) : Fld := ⟨0x210000 + 0x8 * i, 32, 32⟩
def NIB_KERNEL_EST_NS_PER_KIB (i : Nat) : Fld := ⟨0x210000 + 0x8 * i, 0, 32⟩
def CLK_CTRL_MODE : Fld := ⟨0x010000, 3, 1⟩
def CLK_CTRL_SSC_AUTO : Fld := ⟨0x010000, 1, 1⟩
def CLK_CTRL_SSC : Fld := ⟨0x010000, 0, 1⟩
def CLK_ROOT_COAST : Fld := ⟨0x010008, 23, 1⟩
def CLK_ROOT_LOCKED : Fld := ⟨0x010008, 22, 1⟩
def CLK_ROOT_READY : Fld := ⟨0x010008, 21, 1⟩
def CLK_ROOT_HOLDING : Fld := ⟨0x010008, 20, 1⟩
def CLK_ROOT_ACTIVE : Fld := ⟨0x010008, 8, 3⟩
def CLK_ROOT_ORDER : Fld := ⟨0x010008, 0, 8⟩
def CLK_REF_STATUS_TRIPS : Fld := ⟨0x010010, 48, 16⟩
def CLK_REF_STATUS_TRIPPED : Fld := ⟨0x010010, 8, 4⟩
def CLK_REF_STATUS_READY : Fld := ⟨0x010010, 4, 4⟩
def CLK_REF_STATUS_VALID : Fld := ⟨0x010010, 0, 4⟩
def CLK_OSC_READY : Fld := ⟨0x010018, 16, 1⟩
def CLK_OSC_TRIM : Fld := ⟨0x010018, 8, 8⟩
def CLK_OSC_RELOCK : Fld := ⟨0x010018, 0, 1⟩
def CLK_QUAD_COAST (i : Nat) : Fld := ⟨0x010020 + 0x8 * i, 10, 1⟩
def CLK_QUAD_ACTIVE (i : Nat) : Fld := ⟨0x010020 + 0x8 * i, 8, 2⟩
def CLK_QUAD_ORDER (i : Nat) : Fld := ⟨0x010020 + 0x8 * i, 0, 8⟩
def CLK_OUT_ENABLE (i : Nat) : Fld := ⟨0x010040 + 0x8 * i, 3, 1⟩
def CLK_OUT_SOURCE (i : Nat) : Fld := ⟨0x010040 + 0x8 * i, 0, 3⟩
def CLK_NIB_PLL_LOCKED (i : Nat) : Fld := ⟨0x010050 + 0x8 * i, 16, 1⟩
def CLK_NIB_PLL_FREQ_MHZ (i : Nat) : Fld := ⟨0x010050 + 0x8 * i, 0, 12⟩
def CLK_DOMAIN_REFUSED (i : Nat) : Fld := ⟨0x010100 + 0x8 * i, 11, 1⟩
def CLK_DOMAIN_PENDING (i : Nat) : Fld := ⟨0x010100 + 0x8 * i, 10, 1⟩
def CLK_DOMAIN_ACTIVE (i : Nat) : Fld := ⟨0x010100 + 0x8 * i, 4, 4⟩
def CLK_DOMAIN_SOURCE (i : Nat) : Fld := ⟨0x010100 + 0x8 * i, 0, 4⟩
def CLK_GATE_PARENT (i : Nat) : Fld := ⟨0x011000 + 0x8 * i, 20, 12⟩
def CLK_GATE_REFUSED (i : Nat) : Fld := ⟨0x011000 + 0x8 * i, 2, 1⟩
def CLK_GATE_IN_USE (i : Nat) : Fld := ⟨0x011000 + 0x8 * i, 1, 1⟩
def CLK_GATE_ON (i : Nat) : Fld := ⟨0x011000 + 0x8 * i, 0, 1⟩
def PWR_STATE_LAST_CAUSE : Fld := ⟨0x020000, 8, 8⟩
def PWR_STATE_IN_TRANSITION : Fld := ⟨0x020000, 7, 1⟩
def PWR_STATE_TARGET : Fld := ⟨0x020000, 4, 3⟩
def PWR_STATE_SHUTDOWN : Fld := ⟨0x020000, 3, 1⟩
def PWR_STATE_STATE : Fld := ⟨0x020000, 0, 3⟩
def PWR_REQUEST_TARGET : Fld := ⟨0x020008, 0, 3⟩
def PWR_CTRL_DRAIN_LINES : Fld := ⟨0x020010, 16, 16⟩
def PWR_CTRL_CAPPED_IDLE_LINES : Fld := ⟨0x020010, 0, 8⟩
def PWR_CLASS_LIMIT_STEP : Fld := ⟨0x020018, 8, 5⟩
def PWR_CLASS_IN_FORCE : Fld := ⟨0x020018, 4, 2⟩
def PWR_CLASS_MAX_CLASS : Fld := ⟨0x020018, 2, 2⟩
def PWR_CLASS_CLASS : Fld := ⟨0x020018, 0, 2⟩
def PWR_INK_VIN : Fld := ⟨0x020020, 48, 16⟩
def PWR_INK_POWER : Fld := ⟨0x020020, 32, 16⟩
def PWR_INK_INK_CURRENT : Fld := ⟨0x020020, 16, 16⟩
def PWR_INK_PHASES_OK : Fld := ⟨0x020020, 8, 8⟩
def PWR_WAKE_LAST_SOURCE : Fld := ⟨0x020028, 8, 4⟩
def PWR_WAKE_ENABLE : Fld := ⟨0x020028, 0, 3⟩
def PWR_DOMAIN_VOTES (i : Nat) : Fld := ⟨0x020100 + 0x8 * i, 48, 16⟩
def PWR_DOMAIN_STATUS (i : Nat) : Fld := ⟨0x020100 + 0x8 * i, 32, 4⟩
def PWR_DOMAIN_VOTE (i : Nat) : Fld := ⟨0x020100 + 0x8 * i, 1, 1⟩
def PWR_DOMAIN_UNVOTE (i : Nat) : Fld := ⟨0x020100 + 0x8 * i, 0, 1⟩
def THM_CTRL_THETA : Fld := ⟨0x030000, 8, 8⟩
def THM_CTRL_FAST_ACTIVE : Fld := ⟨0x030000, 4, 1⟩
def THM_CTRL_EVENT_SCRIBE : Fld := ⟨0x030000, 0, 3⟩
def THM_LIMITS_INK_THROTTLE_C : Fld := ⟨0x030008, 48, 8⟩
def THM_LIMITS_DRAM_THROTTLE_C : Fld := ⟨0x030008, 40, 8⟩
def THM_LIMITS_PEAK_L0_C : Fld := ⟨0x030008, 32, 8⟩
def THM_LIMITS_REARM_DROP_C : Fld := ⟨0x030008, 24, 8⟩
def THM_LIMITS_NIB_PEAK_C : Fld := ⟨0x030008, 16, 8⟩
def THM_LIMITS_NIB_THROTTLE_C : Fld := ⟨0x030008, 8, 8⟩
def THM_LIMITS_RISE_LIMIT : Fld := ⟨0x030008, 0, 8⟩
def THM_PEAK_ACTIVE : Fld := ⟨0x030010, 48, 16⟩
def THM_PEAK_ELIGIBLE : Fld := ⟨0x030010, 32, 16⟩
def THM_PEAK_GRANT : Fld := ⟨0x030010, 16, 16⟩
def THM_PEAK_LAST_END : Fld := ⟨0x030010, 4, 4⟩
def THM_PEAK_LAST_END_CLUSTER : Fld := ⟨0x030010, 0, 4⟩
def THM_TRIP_DIE : Fld := ⟨0x030018, 56, 8⟩
def THM_TRIP_SENSOR : Fld := ⟨0x030018, 44, 12⟩
def THM_TRIP_TEMP : Fld := ⟨0x030018, 32, 12⟩
def THM_CLUSTER_READING (i : Nat) : Fld := ⟨0x030100 + 0x8 * i, 52, 12⟩
def THM_CLUSTER_MODEL (i : Nat) : Fld := ⟨0x030100 + 0x8 * i, 40, 12⟩
def THM_CLUSTER_RISE (i : Nat) : Fld := ⟨0x030100 + 0x8 * i, 28, 12⟩
def THM_CLUSTER_STEP (i : Nat) : Fld := ⟨0x030100 + 0x8 * i, 24, 4⟩
def THM_CLUSTER_SUSPECT (i : Nat) : Fld := ⟨0x030100 + 0x8 * i, 23, 1⟩
def THM_CLUSTER_REARM_WAIT (i : Nat) : Fld := ⟨0x030100 + 0x8 * i, 22, 1⟩
def THM_CLUSTER_BUDGET_OUT (i : Nat) : Fld := ⟨0x030100 + 0x8 * i, 21, 1⟩
def THM_TOWER_L0_TEMP (i : Nat) : Fld := ⟨0x030200 + 0x8 * i, 52, 12⟩
def THM_TOWER_MAX_TEMP (i : Nat) : Fld := ⟨0x030200 + 0x8 * i, 40, 12⟩
def THM_TOWER_HOTTEST_LAYER (i : Nat) : Fld := ⟨0x030200 + 0x8 * i, 35, 5⟩
def THM_TOWER_CHANNEL_STEP (i : Nat) : Fld := ⟨0x030200 + 0x8 * i, 31, 4⟩
def THM_TOWER_HOT (i : Nat) : Fld := ⟨0x030200 + 0x8 * i, 0, 17⟩
def THM_BOOST_PEAK_SECONDS (i : Nat) : Fld := ⟨0x030300 + 0x8 * i, 32, 32⟩
def THM_BOOST_POWERED_SECONDS (i : Nat) : Fld := ⟨0x030300 + 0x8 * i, 0, 32⟩
def THM_SENSOR_VALID (i : Nat) : Fld := ⟨0x031000 + 0x8 * i, 63, 1⟩
def THM_SENSOR_FAULT (i : Nat) : Fld := ⟨0x031000 + 0x8 * i, 62, 1⟩
def THM_SENSOR_HIGHEST (i : Nat) : Fld := ⟨0x031000 + 0x8 * i, 36, 12⟩
def THM_SENSOR_TEMP (i : Nat) : Fld := ⟨0x031000 + 0x8 * i, 0, 12⟩
def COL_CAL_CTRL_TRIGGER_DELTA : Fld := ⟨0x070000, 8, 8⟩
def COL_CAL_CTRL_APPLY_ENABLE : Fld := ⟨0x070000, 1, 1⟩
def COL_CAL_CTRL_FULL_ENABLE : Fld := ⟨0x070000, 0, 1⟩
def COL_CAL_COUNTS_ACCEPTED : Fld := ⟨0x070008, 32, 32⟩
def COL_CAL_COUNTS_REJECTED : Fld := ⟨0x070008, 0, 32⟩
def COL_CAL_REQUEST_START : Fld := ⟨0x070010, 8, 1⟩
def COL_CAL_REQUEST_CHANNEL : Fld := ⟨0x070010, 0, 8⟩
def COL_CAL_CHANNEL_LAST_FULL_TEMP (i : Nat) : Fld := ⟨0x070100 + 0x8 * i, 52, 12⟩
def COL_CAL_CHANNEL_HOLDING (i : Nat) : Fld := ⟨0x070100 + 0x8 * i, 51, 1⟩
def COL_CAL_CHANNEL_REJECTED_LAST (i : Nat) : Fld := ⟨0x070100 + 0x8 * i, 50, 1⟩
def COL_CAL_CHANNEL_DRIFT (i : Nat) : Fld := ⟨0x070100 + 0x8 * i, 49, 1⟩
def COL_CAL_CHANNEL_TRIM_MAX (i : Nat) : Fld := ⟨0x070100 + 0x8 * i, 40, 4⟩
def COL_CAL_CHANNEL_LAST_FULL_FOLIO (i : Nat) : Fld := ⟨0x070100 + 0x8 * i, 0, 32⟩
def COL_CAL_QUAD_TEMP (i : Nat) : Fld := ⟨0x070900 + 0x8 * i, 52, 12⟩
def COL_CAL_QUAD_DRIFT (i : Nat) : Fld := ⟨0x070900 + 0x8 * i, 51, 1⟩
def COL_CAL_QUAD_REJECTED_LAST (i : Nat) : Fld := ⟨0x070900 + 0x8 * i, 50, 1⟩
def FUS_STATUS_LIFECYCLE : Fld := ⟨0x040000, 61, 3⟩
def FUS_STATUS_QUARANTINE : Fld := ⟨0x040000, 60, 1⟩
def FUS_STATUS_Q_CAUSE : Fld := ⟨0x040000, 56, 4⟩
def FUS_STATUS_DEBUG_OPEN : Fld := ⟨0x040000, 55, 1⟩
def FUS_STATUS_MARGINAL : Fld := ⟨0x040000, 36, 10⟩
def FUS_STATUS_UNCORRECTABLE : Fld := ⟨0x040000, 26, 10⟩
def FUS_STATUS_CORRECTED : Fld := ⟨0x040000, 16, 10⟩
def FUS_STATUS_MIN_SECURITY : Fld := ⟨0x040000, 0, 9⟩
def FUS_LOCK_SET_READ_LOCK : Fld := ⟨0x040008, 16, 14⟩
def FUS_LOCK_SET_PROG_LOCK : Fld := ⟨0x040008, 0, 14⟩
def FUS_READ_START : Fld := ⟨0x040010, 16, 1⟩
def FUS_READ_WORD : Fld := ⟨0x040010, 0, 10⟩
def FUS_READ_RESULT_DONE : Fld := ⟨0x040018, 63, 1⟩
def FUS_READ_RESULT_MISMATCH : Fld := ⟨0x040018, 62, 1⟩
def FUS_READ_RESULT_MARGINAL : Fld := ⟨0x040018, 61, 1⟩
def FUS_READ_RESULT_BLANK : Fld := ⟨0x040018, 60, 1⟩
def FUS_READ_RESULT_ECC : Fld := ⟨0x040018, 58, 2⟩
def FUS_READ_RESULT_DATA : Fld := ⟨0x040018, 0, 32⟩
def FUS_PROG_DATA_DATA : Fld := ⟨0x040020, 0, 32⟩
def FUS_PROG_CMD_START : Fld := ⟨0x040028, 16, 1⟩
def FUS_PROG_CMD_WORD : Fld := ⟨0x040028, 0, 10⟩
def FUS_PROG_STATUS_STATUS : Fld := ⟨0x040030, 56, 8⟩
def FUS_PROG_STATUS_WORD : Fld := ⟨0x040030, 32, 10⟩
def FUS_REGION_STATE (i : Nat) : Fld := ⟨0x040100 + 0x8 * i, 61, 3⟩
def FUS_REGION_PERM_LOCK (i : Nat) : Fld := ⟨0x040100 + 0x8 * i, 60, 1⟩
def FUS_REGION_PROG_LOCK (i : Nat) : Fld := ⟨0x040100 + 0x8 * i, 59, 1⟩
def FUS_REGION_READ_LOCK (i : Nat) : Fld := ⟨0x040100 + 0x8 * i, 58, 1⟩
def FUS_REGION_USABLE (i : Nat) : Fld := ⟨0x040100 + 0x8 * i, 57, 1⟩
def FUS_REGION_REVOKED (i : Nat) : Fld := ⟨0x040100 + 0x8 * i, 56, 1⟩
def FUS_REGION_MARGINAL_WORDS (i : Nat) : Fld := ⟨0x040100 + 0x8 * i, 32, 10⟩
def FUS_REGION_PROGRAMMED (i : Nat) : Fld := ⟨0x040100 + 0x8 * i, 16, 16⟩
def FUS_REGION_MANDATORY (i : Nat) : Fld := ⟨0x040100 + 0x8 * i, 0, 16⟩
def FUS_SHADOW_BLANK (i : Nat) : Fld := ⟨0x041000 + 0x8 * i, 35, 1⟩
def FUS_SHADOW_CORRECTED (i : Nat) : Fld := ⟨0x041000 + 0x8 * i, 34, 1⟩
def FUS_SHADOW_UNCORRECTABLE (i : Nat) : Fld := ⟨0x041000 + 0x8 * i, 33, 1⟩
def FUS_SHADOW_MARGINAL (i : Nat) : Fld := ⟨0x041000 + 0x8 * i, 32, 1⟩
def FUS_SHADOW_VALUE (i : Nat) : Fld := ⟨0x041000 + 0x8 * i, 0, 32⟩
def BLT_CTRL_REARM_FOLIOS : Fld := ⟨0x050000, 16, 8⟩
def BLT_CTRL_ALERT_CLASSES : Fld := ⟨0x050000, 8, 5⟩
def BLT_CTRL_EVENT_CLASSES : Fld := ⟨0x050000, 3, 5⟩
def BLT_CTRL_EVENT_SCRIBE : Fld := ⟨0x050000, 0, 3⟩
def BLT_STATUS_FATAL : Fld := ⟨0x050008, 63, 1⟩
def BLT_STATUS_CAUSE_TYPE : Fld := ⟨0x050008, 54, 9⟩
def BLT_STATUS_CAUSE_SOURCE : Fld := ⟨0x050008, 44, 10⟩
def BLT_STATUS_WIRE_FAULTS : Fld := ⟨0x050008, 32, 12⟩
def BLT_STATUS_NEXT_SEQ : Fld := ⟨0x050008, 0, 32⟩
def BLT_ALERT_CLASSES : Fld := ⟨0x050010, 0, 5⟩
def BLT_LOG_SELECT_ALL : Fld := ⟨0x050018, 0, 64⟩
def BLT_INJECT_SEVERITY : Fld := ⟨0x050020, 20, 3⟩
def BLT_INJECT_TYPE : Fld := ⟨0x050020, 11, 9⟩
def BLT_INJECT_SOURCE : Fld := ⟨0x050020, 0, 10⟩
def BLT_LOG_RECORD_ALL (i : Nat) : Fld := ⟨0x050040 + 0x8 * i, 0, 64⟩
def BLT_SOURCE_LATCHED (i : Nat) : Fld := ⟨0x051000 + 0x8 * i, 63, 1⟩
def BLT_SOURCE_OVERFLOW (i : Nat) : Fld := ⟨0x051000 + 0x8 * i, 62, 1⟩
def BLT_SOURCE_WIRE_FAULT (i : Nat) : Fld := ⟨0x051000 + 0x8 * i, 61, 1⟩
def BLT_SOURCE_CLEAR (i : Nat) : Fld := ⟨0x051000 + 0x8 * i, 60, 1⟩
def BLT_SOURCE_CAPTURES (i : Nat) : Fld := ⟨0x051000 + 0x8 * i, 57, 3⟩
def BLT_SOURCE_FIRST_TYPE (i : Nat) : Fld := ⟨0x051000 + 0x8 * i, 48, 9⟩
def BLT_SOURCE_COUNT (i : Nat) : Fld := ⟨0x051000 + 0x8 * i, 32, 16⟩
def BLT_SOURCE_FIRST_SEQ (i : Nat) : Fld := ⟨0x051000 + 0x8 * i, 0, 32⟩
def BLT_SEVERITY_RECORDED (i : Nat) : Fld := ⟨0x054000 + 0x8 * i, 32, 16⟩
def BLT_SEVERITY_DEFAULT (i : Nat) : Fld := ⟨0x054000 + 0x8 * i, 8, 3⟩
def BLT_SEVERITY_SEVERITY (i : Nat) : Fld := ⟨0x054000 + 0x8 * i, 0, 3⟩
def COL_CTRL_FLUSH : Fld := ⟨0x060000, 8, 1⟩
def COL_CTRL_EVENT_RATE : Fld := ⟨0x060000, 0, 5⟩
def COL_STATUS_RTC_VALID : Fld := ⟨0x060008, 63, 1⟩
def COL_STATUS_CAL_SOURCE : Fld := ⟨0x060008, 61, 2⟩
def COL_STATUS_CHECKPOINT_COPY : Fld := ⟨0x060008, 60, 1⟩
def COL_STATUS_CHECKPOINT_VALID : Fld := ⟨0x060008, 58, 2⟩
def COL_STATUS_MARGINAL_VALID : Fld := ⟨0x060008, 56, 2⟩
def COL_STATUS_BAD_SECTORS : Fld := ⟨0x060008, 48, 8⟩
def COL_STATUS_DROPPED : Fld := ⟨0x060008, 32, 16⟩
def COL_STATUS_EVENT_SEQ : Fld := ⟨0x060008, 0, 32⟩
def COL_CALENDAR_ALL : Fld := ⟨0x060010, 0, 64⟩
def COL_CALENDAR_SET_ALL : Fld := ⟨0x060018, 0, 64⟩
def COL_LIFETIME_POWERED_SECONDS : Fld := ⟨0x060020, 32, 32⟩
def COL_LIFETIME_ENERGY_KJ : Fld := ⟨0x060020, 0, 32⟩
def COL_SHUTDOWNS_VIN_FAULT : Fld := ⟨0x060028, 48, 16⟩
def COL_SHUTDOWNS_THERMTRIP : Fld := ⟨0x060028, 32, 16⟩
def COL_SHUTDOWNS_FATAL : Fld := ⟨0x060028, 16, 16⟩
def COL_SHUTDOWNS_UNRECORDED : Fld := ⟨0x060028, 0, 16⟩
def COL_READ_SELECT_RING : Fld := ⟨0x060030, 63, 1⟩
def COL_READ_SELECT_SEQ : Fld := ⟨0x060030, 0, 32⟩
def COL_READ_RECORD_ALL (i : Nat) : Fld := ⟨0x060040 + 0x8 * i, 0, 64⟩

end Sys2Proof.Machine
end

