-- ==== Sys2Proof/Machine/Tab.lean ====
section
/-! DEFINITION. Sparse tables: the one container for repeated units (registers of the desk, media lines, leaves,
accounts, queue pairs). A table is a list of key and value pairs with strictly rising keys. -/

namespace Sys2Proof.Machine

/-- A sparse table from natural keys, keys strictly rising. -/
abbrev Tab (α : Type) := List (Nat × α)

/-- The entry at key `k`, if one is listed. -/
def Tab.find {α : Type} (t : Tab α) (k : Nat) : Option α :=
  match t with
  | [] => none
  | (a, v) :: r => if a = k then some v else Tab.find r k

/-- The entry at key `k`, or `d` when none is listed. -/
def Tab.at {α : Type} (t : Tab α) (k : Nat) (d : α) : α := (Tab.find t k).getD d

/-- The table with `v` listed at `k`. -/
def Tab.set {α : Type} (t : Tab α) (k : Nat) (v : α) : Tab α :=
  match t with
  | [] => [(k, v)]
  | (a, w) :: r => if k < a then (k, v) :: (a, w) :: r else if k = a then (k, v) :: r else (a, w) :: Tab.set r k v

/-- The table with nothing listed at `k`. -/
def Tab.del {α : Type} (t : Tab α) (k : Nat) : Tab α :=
  match t with
  | [] => []
  | (a, w) :: r => if a = k then Tab.del r k else (a, w) :: Tab.del r k

/-- The keys of a table rise strictly. -/
def Tab.Sorted {α : Type} (t : Tab α) : Bool :=
  match t with
  | [] => true
  | (a, _) :: r => (match r with | [] => true | (b, _) :: _ => decide (a < b)) && Tab.Sorted r

/-- List `v` at `k`, or nothing when `v` is what an unlisted key reads as. -/
def Tab.put {α : Type} [DecidableEq α] (t : Tab α) (k : Nat) (v d : α) : Tab α :=
  if v = d then Tab.del t k else Tab.set t k v

/-- The canonical form of a table whose unlisted keys read as `d`: keys rising, and no entry equal to what its key would
read as unlisted, so that equal contents are equal tables. -/
def Tab.Canon {α : Type} [DecidableEq α] (t : Tab α) (d : Nat → α) : Bool :=
  Tab.Sorted t && t.all fun x => decide (x.2 ≠ d x.1)

end Sys2Proof.Machine
end

