-- ==== Sys2Proof/Machine/State.lean ====
section
/-! DEFINITION. The state of the node as plain data: the desk (every desk register's value), what each unit of the
node keeps beside its registers, the messages sent, and the queue of waiting commands. -/

namespace Sys2Proof.Machine

/-- Why the node's model stops on a command with a fault: for no reason. The spec gives every command an effect, a
refusal the node reports or no effect at all, and each of these is a next state, so this type has no constructor. Safe: no
run ends in a fault. -/
inductive Fault
  deriving DecidableEq, Repr

/-- Why a command has no meaning in this model. -/
inductive Refusal where
  /-- Raised by an arm of exec whose command has no meaning yet. Safe: nothing is claimed of it. -/
  | notModelled (mnemonic : String)
  deriving DecidableEq, Repr

/-- The three variants of the family (R2). -/
inductive Variant where
  | v4384 | v4192 | v2096
  deriving DecidableEq, Repr

/-! ### The Blotter (chapter 18) -/

/-- A Blotter record (Table 18-4). -/
structure Record where
  time : BitVec 64 := 0
  seq : Nat := 0
  type : Nat := 0
  severity : Nat := 0
  quality : Nat := 0
  source : Nat := 0
  capture : Bool := false
  overflow : Bool := false
  injected : Bool := false
  masterValid : Bool := false
  dpaValid : Bool := false
  mediaValid : Bool := false
  access : Nat := 0
  master : Nat := 0xC000
  pbr : Nat := 0
  dpa : Nat := 0
  media : Nat := 0
  count : Nat := 0
  detail : BitVec 64 := 0
  deriving DecidableEq, Repr

/-- What the Blotter keeps beside its registers. -/
structure Blotter where
  nextSeq : Nat := 0
  log : List Record := []               -- newest last, at most 2,048 (R515)
  latchClass : Tab Nat := []            -- class of the latched event of a source (R512)
  latchFolio : Tab Nat := []            -- folio in which a source's latch was set
  absorbed : Tab Nat := []              -- events absorbed since the source's last record
  captureFull : Tab Bool := []          -- the source's capture queue has filled and 0x122 is recorded
  sevChange : Tab (Nat × Nat) := []     -- type: line of the last severity write, severity before it
  cxlLogs : Tab (List Record) := []     -- CXL event logs, key 8 * ld + log (0 info, 1 warning, 2 failure)
  cxlOverflow : Tab Nat := []           -- records lost in each CXL event log
  badRecords : List Nat := []           -- sequence numbers whose ring copy is uncorrectable (R515)
  firstSeen : List (Nat × Nat × Nat) := []  -- (folio, type, unit): events recorded only first in a folio
  overflowDue : List Nat := []          -- Scribes whose event queue has just overflowed (R344)
  fatalRecords : Nat := 0               -- Fatal records sent to the Colophon since the cause
  fatalTime : BitVec 64 := 0            -- ruled time of the cause (Table 18-7)
  deriving DecidableEq, Repr

/-! ### Ruling (chapter 2) -/

/-- Reception on RULE_P/N (R44 to R46, R58). -/
structure PinRul where
  pos : Option Nat := none        -- lines since the last folio mark
  bits : BitVec 128 := 0          -- header bits received since the mark
  mark : Bool := false            -- line 0 of the folio in progress carried its mark
  marks : Nat := 0                -- folio marks 1,024 lines apart with at most 16 violations between
  violations : Nat := 0           -- line violations since the last mark
  missing : Nat := 0              -- consecutive missing lines
  counted : Bool := false         -- the current line has its counted edge
  countedNext : Bool := false     -- an edge early for the next line has been counted
  offset : Int := 0               -- ticks by which the last edge came before its predicted edge
  last : Option (BitVec 128) := none -- last valid header
  acted : Option (BitVec 128) := none -- last valid header that agreed with the one before it (R49)
  folio : Nat := 0                -- the source's folio in progress: that of the header acted on and those begun since
  deriving DecidableEq, Repr

/-- Reception of ruling messages on one Peer port (R51 to R53). -/
structure PeerRul where
  last : Option (BitVec 128) := none -- header of the last valid announce
  acted : Option (BitVec 128) := none -- the last that agreed with the one before it (R49)
  folio : Nat := 0                -- the source's folio in progress: that of the header acted on and those begun since
  hop : Nat := 0
  agreed : Nat := 0               -- consecutive agreeing announces
  seen : Bool := false            -- an announce has come in the node's current folio
  missed : Nat := 0               -- consecutive folios without an announce
  qualified : Bool := false
  valid : Nat := 0                -- valid exchanges since the last announce
  sum : Int := 0                  -- sum of their offsets
  offset : Int := 0               -- mean of the last folio's valid exchanges
  seq : Nat := 0                  -- sequence number of the next sync request
  asked : Option Nat := none      -- sequence number of the sync request that waits for its response
  periods : List Nat := []        -- the source's line periods in ps, newest first, at most 1,024 (R36, R38, R59)
  deriving DecidableEq, Repr

/-- Qualification of one source (R58, R60). -/
structure SourceQual where
  qualified : Bool := false
  folios : Nat := 0               -- folios for which it has stayed qualified
  used : Bool := false            -- has been in use since the last reset
  lost : Bool := false            -- lost since the last reset after being in use
  deriving DecidableEq, Repr

/-- What the ruling keeps beside its registers. -/
structure Ruling where
  running : Bool := false         -- the boot ROM has started the flywheel (R64)
  line : Nat := 0                 -- line index: folio * 1024 + line (R37)
  gen : Nat := 0                  -- generated lines, the count basis of R41
  utc : Nat := 0                  -- UTC seconds of the epoch in force
  edges : Nat := 0                -- line edges so far, the line 0 of a jump among them even where its line does not count
  tick : Nat := 0                 -- the greatest tick of the current line at which ruled time has been read (R38)
  periods : List Nat := []        -- the Pin source's line periods in ps, newest first, at most 1,024 (R38, R59)
  pin : PinRul := {}
  peers : Tab PeerRul := []       -- by port
  peer : Option Nat := none       -- the Peer port taken (R53)
  hop : Nat := 0                  -- hop count of the ruling in use
  ptmOk : Nat := 0                -- consecutive successful PTM dialogs
  ptmBad : Nat := 0               -- consecutive failed dialogs
  ptmOffset : Int := 0
  ptmFolio : Nat := 0             -- folio of the Host source at the last dialog
  quals : Tab SourceQual := []    -- by source code
  order : Nat := 0xE4             -- source order in force (R57)
  nonrevertive : Bool := false    -- NONREVERTIVE in force (R57, R60)
  holdoff : Nat := 16             -- REVERT_HOLDOFF in force (R57, R60)
  orderPending : Option Nat := none -- a rewrite of RUL_SOURCE, made after this many line edges, waits for the folio boundary
  holdFolios : Nat := 0           -- folios of holdover
  holdReported : Bool := false    -- event 0x22 has been made in this holdover
  outHeader : BitVec 128 := 0     -- header of the folio in progress as RULE_OUT sends it (R64)
  armEdge : Tab Nat := []         -- by slot: line edges when it was armed or last changed
  firedEdge : Tab Nat := []       -- by slot: line edge on which it last fired
  ruleOutFault : Bool := false
  deriving DecidableEq, Repr

/-! ### Media and requests (chapters 1, 3, 4) -/

/-- A media location: one row of one bank (Table 3-5). -/
structure Loc where
  chan : Nat := 0
  rank : Nat := 0
  group : Nat := 0
  bank : Nat := 0
  row : Nat := 0
  deriving DecidableEq, Repr

/-- A memory line without its check symbols (Tables 3-1 and 3-2). The default is a blank line
(R210): zero data, MAC field, key index and line state. -/
structure MediaLine where
  data : BitVec 512 := 0
  mac : BitVec 48 := 0
  key : Nat := 0
  heat : Nat := 0
  fresh : Bool := false
  isSealed : Bool := false
  poison : Bool := false
  deriving DecidableEq, Repr

/-- A line as the array stores it: its 36 information symbols and the four check symbols (R72, Table 3-1). -/
structure Codeword where
  line : MediaLine := {}
  check : BitVec 64 := 0
  deriving DecidableEq, Repr

/-- Who asked for an access, and where its answer goes. -/
inductive Origin where
  /-- A CXL.mem request of a Host or Peer link, with the tag its answer carries and the source PBR identifier. -/
  | link (port sub ld tag pbr : Nat)
  /-- A device-window access of a core's program (0 to 7 Scribes, 8 + g nib core g) and its outstanding slot. -/
  | core (c slot : Nat)
  /-- The queue engine's access for a queue pair (R381). -/
  | queue (pair : Nat)
  /-- A lending node's read of one of the lent-in slots, with the tag its answer carries (R165). -/
  | lentIn (port tag pbr slot : Nat)
  deriving DecidableEq, Repr

/-- An atomic operation on a line (R334): Table 10-18 code, size and offset in bytes, operand and compare value. -/
structure AtomOp where
  op : Nat
  size : Nat
  offset : Nat
  operand : BitVec 64
  compare : BitVec 64
  deriving DecidableEq, Repr

/-- What part of the switch buffer a message of a link takes up (R294): nothing once its channel controller has it, its
account's reservation, or a shared cell. -/
inductive Room where
  | outside | account | shared
  deriving DecidableEq, Repr

/-- A read on its way to memory, classified at step 3 of Table 1-3. -/
structure MemRead where
  origin : Origin
  dpa : Nat                 -- canonical DPA of the line
  key : Nat                 -- key index the request resolved to
  account : Nat
  room : Room := .outside
  deriving DecidableEq, Repr

/-- A write on its way to memory (R107, R222, R286). -/
structure Write where
  origin : Origin
  dpa : Nat
  key : Nat
  account : Nat
  data : BitVec 512
  mask : BitVec 64          -- bytes written
  poison : Bool := false
  atom : Option AtomOp := none
  run : ReadRun := {}       -- how the read of its merge goes
  room : Room := .outside
  deriving DecidableEq, Repr

/-- A request past the checks of steps 2 and 3. -/
inductive Work where
  | read (a : MemRead)
  | write (w : Write)
  deriving DecidableEq, Repr

/-- The bandwidth class of a request in a pool (R106). -/
inductive PoolClass where
  | hard | firm | loose | internal
  deriving DecidableEq, Repr

/-- A read waiting in a request pool (R105, R108). -/
structure Req where
  access : MemRead
  bank : Nat                -- in-channel bank index of the leaf-map location (R110)
  row : Nat
  line : Nat
  cls : PoolClass
  level : Nat               -- service level 1 to 4 (Table 4-1)
  urgency : Nat := 0
  deriving DecidableEq, Repr

/-- A line in a channel's write buffer (R107). -/
structure WLine where
  bank : Nat
  row : Nat
  line : Nat
  dpa : Nat
  account : Nat
  content : MediaLine
  fixedLevel : Option Nat := none -- the level of a move's write (R162)
  level : Nat := 4          -- service level and urgency, set when it entered the buffer and at window boundaries (R108)
  urgency : Nat := 0
  deriving DecidableEq, Repr

/-- A read whose column command has issued: the line as the array held it. -/
structure Issued where
  req : Req
  content : MediaLine
  deriving DecidableEq, Repr

/-- A command that the channel controller has issued into its channel, kept until the die acknowledges it (R86); a write
with what its place held before. -/
inductive ChanCmd where
  | activate (bank row : Nat)
  | read (i : Issued)
  | write (w : WLine) (old : List (Loc × MediaLine))
  deriving DecidableEq, Repr

/-- What step 4 of a retraining pause finds (R127, R89): whether the read-back of a free spare rank fails, and how the
reads of a spare rank in use decode. -/
structure SpareTest where
  fails : Bool
  reads : List ReadRun
  deriving DecidableEq, Repr

/-- A row with corrected errors (R138): the folio of each corrected symbol, newest first. -/
structure RowErr where
  bank : Nat
  row : Nat
  folios : List Nat
  pending : Bool := false
  deriving DecidableEq, Repr

/-- A channel controller (chapters 3 and 4). -/
structure Chan where
  pool : List Req := []              -- the four pools' requests in arrival order
  ingress : List Req := []           -- requests that found no pool entry (R106)
  writes : List WLine := []          -- write buffer, at most 64 lines (R107)
  ingressWrites : List (Option Write × WLine) := []  -- writes on their way into the buffer, with the request to complete
  writeMode : Bool := false          -- R113
  openRow : Tab Nat := []            -- bank: open row (R112)
  hits : Tab Nat := []               -- bank: row hits served since the open row's first access; unlisted before that access (R111)
  pointer : Nat := 0                 -- rotating pointer (R110)
  issued : List Issued := []
  reread : List Issued := []         -- uncorrectable reads being re-read (R133)
  refreshed : Tab Nat := []          -- bank: generated line of its last refresh
  rowPtr : Tab Nat := []             -- bank: refresh row pointer (R122)
  sketch : Tab Nat := []             -- current sketch: bank * 512 + 128 * hash + cell (R122)
  sketchPrev : Tab Nat := []
  mitigation : Tab (List (Nat × Nat)) := [] -- bank: (row, recorded estimate), oldest first, at most 8 (R123)
  targeted : List (Nat × Nat) := []  -- (bank, aggressor row) pending (R124)
  targetedGen : Nat := 0             -- generated line of the last targeted refresh, plus 1
  stopped : Bool := false            -- activates stopped (R125)
  backstopGen : Nat := 0             -- generated line of the last backstop refresh, plus 1
  backstopLines : Nat := 0           -- lines of the folio with a backstop refresh
  paused : Option (Option SpareTest) := none  -- in a retraining pause; inner: step 4 runs, with what it finds
  pausedGen : Nat := 0               -- generated line of its last retraining pause, plus 1 (R126)
  testPtr : Nat := 0                 -- next line of rank 16 that the pause test reads while it is in use (R89)
  testDue : Bool := false            -- an abandoned spare test is made in the next pause (R127)
  applied : Nat := 0                 -- data TSVs left out by the remap in force (R91)
  appliedCa : Nat := 0
  declared : Tab Nat := []           -- data TSV: generated line of its declaration (R77)
  caRepair : Bool := false           -- a command/address remap waits for its repair pause (R92)
  eyeLow : Tab Nat := []             -- TSV: consecutive pauses with the eye below the limit; C TSVs at 64 + i
  corrections : Tab Nat := []        -- data TSV: symbols corrected in the folio (R79)
  reads : Nat := 0                   -- reads decoded in the folio
  alerts : Tab Nat := []             -- command/address TSV: parity alerts traced in the folio (R90)
  unacked : List ChanCmd := []       -- commands issued that the die has not acknowledged, oldest first (R86)
  discarded : List ChanCmd := []     -- commands to issue again, oldest first (R86)
  reissues : Nat := 0                -- consecutive reissues that met an alert again (R134)
  commandFailure : Option Nat := none -- rank of a command failure awaiting the repair pause (R134)
  rowErrs : List RowErr := []        -- row error table, at most 32 entries (R138)
  repairUsed : Tab Nat := []         -- bank: repair rows used (R83)
  boundRemoved : Bool := false       -- the bound of R116 does not hold (R141)
  selfRefresh : Bool := false        -- R121
  wokeGen : Nat := 0                 -- generated line of its last exit from self-refresh, plus 1 (R121)
  servedBySpare : Option Nat := none -- user rank whose rows rank 16 serves (R88, R135)
  badLines : List (Nat × Nat) := []  -- lines of the substituted rank that no read decodes: position in the rank, line (R135)
  copyStop : Option Nat := none      -- where a spare copy ended early, rank 16 having failed (R136)
  served : Nat := 0                  -- bytes served in the folio (DCT_LOAD)
  deriving DecidableEq, Repr

/-! ### The Ductus (chapter 5) -/

/-- A leaf-map entry (Tables 5-1 and 5-2); an unlisted leaf has KIND 0b00. -/
structure Leaf where
  remote : Bool := false
  pinned : Bool := false
  hard : Bool := false
  moving : Bool := false
  heat : Nat := 0
  spreadAccount : Nat := 0
  lastSampler : Nat := 0xFF
  loc : Loc := {}
  port : Nat := 0
  pbr : Nat := 0
  slot : Nat := 0
  deriving DecidableEq, Repr

/-- Where a move goes. -/
inductive MoveDest where
  | local (loc : Loc)
  | remote (port pbr slot : Nat)
  deriving DecidableEq, Repr

/-- The stages of a move (R157 to R160). -/
inductive MoveStage where
  | copying | armed | switched | done
  deriving DecidableEq, Repr

/-- A move in flight (R157). -/
structure Move where
  leaf : Nat                -- leaf number, reserve quire or lent-in slot
  quire : Bool := false
  hosted : Bool := false    -- a lent-in leaf, named by its slot (R94)
  seq : Nat := 0            -- its place in the order in which moves were accepted (R162)
  cause : Nat
  dest : MoveDest
  source : Loc
  stage : MoveStage := .copying
  stageGen : Nat := 0       -- generated line on which the stage was entered
  inked : BitVec 64 := 0    -- inked mask (R159)
  item : Option Nat := none -- work item waiting for it (R172)
  selector : Option Nat := none -- counter quire reserved at the destination (R157)
  left : Option Nat := none -- counter quire at the source, in use until the source slot is free (R160)
  sourceRemote : Option (Nat × Nat × Nat) := none -- holding node of a leaf coming home: port, PBR identifier, slot
  hotLines : Nat := 0       -- lines copied whose heat sample is 4 or more (R151)
  deriving DecidableEq, Repr

/-- An order to evacuate (R94, R98, R136): a channel, or one rank of it; only hard-class leaves in Erasure. -/
structure Evacuation where
  chan : Nat
  rank : Option Nat := none
  hardOnly : Bool := false
  poisoned : Bool := false  -- nothing can be read: lines move poisoned (R96)
  deriving DecidableEq, Repr

/-- A loan recall being answered (R166). -/
structure RecallJob where
  port : Nat
  pbr : Nat                 -- the holding node
  slots : List Nat
  folio : Nat
  late : Bool := false      -- its Degraded event has been recorded
  deriving DecidableEq, Repr

/-- What the Ductus keeps. -/
structure Ductus where
  map : Tab Leaf := []
  slots : Tab Nat := []          -- used slots of user ranks by media row key, with the leaf that uses them
  reserve : Tab (Option Nat) := [] -- reserve quires off their boot channel: their channel, none when dropped (R146)
  moves : Tab Move := []         -- by move slot
  moveSeq : Nat := 0             -- moves accepted so far
  counterQuires : Tab Nat := []  -- 16 × channel + SELECTOR: the reserve quire that is this counter quire (R217)
  freeNext : List Nat := []      -- media row keys freed at the next line (Table 5-4)
  pinBroken : List Nat := []     -- hard accounts whose stripe a pinned leaf keeps broken (R163)
  budget : Nat := 0              -- bytes left of causes 3 and 4 in the folio (R156)
  evacuations : List Evacuation := []
  heatCount : Tab Nat := []      -- requester: accesses since its last sample (R148)
  hot : List (Nat × Nat × Nat) := []   -- current half: (HEAT, leaf, LAST_SAMPLER)
  cold : List (Nat × Nat × Nat) := []
  sweep : Nat := 0               -- next map block of the sweep (R149)
  cache : Tab (List Nat) := []   -- map cache: set: blocks, most recently used first (R145)
  missWait : List (Nat × Work) := [] -- requests waiting for a map block, with it
  heatForce : BitVec 64 := 0x0000000080086040 -- DCT_HEAT in force (R175)
  ctrlForce : Nat := 6           -- DCT_CTRL enables in force
  workForce : BitVec 64 := 0x0100004064080000 -- DCT_WORK in force
  spreadForce : Tab (BitVec 64) := []  -- spread-set words in force for striping (R155), key 4 n + w
  deferred : Tab Nat := []       -- leaf: folio until which its heat move is deferred (R151)
  recalls : List RecallJob := []
  hosted : Tab Loc := []         -- lending-pool slots in use, with their media rows (R165)
  lent : Tab (Nat × Nat) := []   -- lent-in slot: Peer port and PBR identifier of the lending node (R165)
  noPlace : List (Nat × Nat × Nat) := [] -- (channel, bank, row) with no repair row left (R138)
  deriving DecidableEq, Repr

/-! ### Accounts (chapter 6) -/

/-- What the regulator keeps for an account beside its registers. -/
structure Acct where
  arrived : Nat := 0           -- bytes arrived in the window (R186)
  counted : Nat := 0           -- bytes counted in the window (R180)
  waiting : Nat := 0           -- bytes arrived and not yet counted
  ent : Nat := 0               -- entitlement E
  entFrom : Nat := 0           -- E before the accrual of the current line
  held : Nat := 0              -- requests held at the ceiling in the window
  lastEnt : Nat := 0           -- E of the last completed window (R185)
  lastCounted : Nat := 0
  grace : Option (Nat × Nat × Bool) := none -- E or target to judge, counted then, closed by a jump (R188, R62)
  urgNow : Nat := 0            -- urgency source as last sampled
  urgChanged : Bool := false   -- a change has taken effect in this window (R195)
  urgSoon : Option Nat := none -- change that takes effect on the next line (R195)
  urgPending : Option Nat := none -- change held for the next window
  urgThree : Nat := 0          -- consecutive windows at urgency 3
  urgBelow : Bool := true      -- the source has read below 3 throughout the window
  msiLine : Option Nat := none -- generated lines at the last MSI-X (R196)
  adjust : Option (BitVec 64 × BitVec 64) := none -- configuration and rate images waiting for the next window (R185)
  lines : Nat := 0             -- generated lines of the window so far (R62)
  deriving DecidableEq, Repr

/-- What the account regulator keeps. -/
structure Accounts where
  acct : Tab Acct := []
  held : List Work := []               -- requests held at their ceilings, oldest first (R180)
  admitted : Option (List (BitVec 64 × BitVec 64) × Bool × Nat) := none -- accepted set, COOL, line it takes effect (R183)
  urgMessage : Tab Nat := []           -- account: last in-band level of the line (R194)
  counting : Tab (List Nat) := []      -- account: channels of its spread set that count (R181)
  shortfalls : List Nat := []          -- resources in shortfall: channel g, 256 + link, 512 device
  deriving DecidableEq, Repr

/-! ### Seal (chapter 7) -/

/-- Key material of a loaded index, never readable (R200), with who loaded it (R232). -/
structure Key where
  xts : BitVec 512 := 0
  integrity : BitVec 256 := 0
  loader : BitVec 256 := 0      -- digest of the loading session's leaf key
  deriving DecidableEq, Repr

/-- A counter line (Table 7-3) with the base its major started at (R219) and its SELECTOR (R217). -/
structure Counter where
  major : Nat := 0
  base : Nat := 0
  minors : Tab Nat := []        -- line: minor, 0 unlisted
  selector : Nat := 0
  mac : BitVec 48 := 0          -- tree MAC as last written back (R220)
  deriving DecidableEq, Repr

/-- A tree node of levels 1 to 4 (Table 7-3): its major, minors, and version in its parent as last written back. -/
structure TreeNode where
  major : Nat := 0
  minors : Tab Nat := []
  mac : BitVec 48 := 0
  deriving DecidableEq, Repr

/-- A reseal that runs (R228, R229). -/
structure Reseal where
  key : Nat
  level : Nat
  node : Nat
  deriving DecidableEq, Repr

/-- An IDE stream key set pair (R231). -/
structure IdeStream where
  keys : List (Nat × BitVec 256) := []   -- key set: key
  deriving DecidableEq, Repr

/-- What Seal keeps beside its registers. -/
structure Seal where
  keys : Tab Key := []
  bootNonce : BitVec 64 := 0
  treeKey : BitVec 256 := 0
  counters : Tab Counter := []           -- by leaf
  tree : Tab TreeNode := []              -- key 2^30 * level + node
  cache : List (Nat × Nat × Bool) := []  -- counter cache: (level, node, modified), levels 0 and 1, newest use first (R221)
  locks : List Nat := []                 -- level-1 nodes locked in the counter cache (R221)
  dirty : List Nat := []                 -- nodes of levels 2 and 3 modified in the counter cache, keys as in `tree`
  extraLost : List (Nat × Nat) := []     -- unverifiable (level, node) that the full list has no place for (R227)
  stale : Tab Nat := []                  -- line of a lent leaf: counter value its tag was made under (R215)
  freshBase : Nat := 0                   -- FRESH_BASE / 2^28 (R219)
  te : List Nat := []                    -- quires with TE set, rising (R205)
  prot : List Nat := []                  -- quires with PROTECTED set, rising
  merge : List (Nat × Nat × BitVec 512) := [] -- line-merge cache: line, key index, plaintext; newest first (R223)
  reseal : Option Reseal := none
  auth : BitVec 48 := 0                  -- SEL_RESEAL_AUTH as written
  challenge : BitVec 64 := 0
  tspConf : List Nat := []               -- logical devices whose TSP configuration selects confidential (R233)
  tspSet : Tab Nat := []                 -- logical device: TSP configuration word
  ide : Tab IdeStream := []              -- key 2 * port + stream
  deriving DecidableEq, Repr

/-! ### Lanes (chapter 8) -/

/-- What the lanes keep beside their registers. Global lane number: 16 × port + lane. -/
structure Lanes where
  lockLost : List Nat := []        -- lanes of links in L0 that have lost symbol lock (R250)
  recFails : Tab Nat := []         -- lane: consecutive Recovery attempts in which it failed to lock
  retrain : List Nat := []         -- sub-links (4 × port + k) that Recovery takes to the widest width (R253)
  narrowing : List Nat := []       -- sub-links in Recovery after a lane failure (R251)
  margins : List Nat := []         -- lanes with a margining step running (R248)
  attempts : List Nat := []        -- lanes with a wake attempt (R268)
  ignoring : List Nat := []        -- lanes in a false-wake backoff
  mirrored : List Nat := []        -- sub-links whose partner reverses its lanes (R245)
  hostMargin : Tab Nat := []       -- lane: the control word a host last wrote in the Lane Margining capability (R248)
  pairIdle : List Nat := []        -- ports whose receive direction a pair has seen enter electrical idle
  flits : Tab Nat := []            -- sub-link: flits received in the folio (R250)
  bad : Tab Nat := []              -- lane: flits of the folio with a corrected byte at its positions
  deriving DecidableEq, Repr


/-! ### Fabric ports and coherence (chapter 9) -/

/-- A snoop-filter entry (R284). -/
structure Filter where
  exclusive : Bool := false
  ports : Nat := 0                   -- bitmap of Host ports
  used : Nat := 0                    -- when it was last used, for replacement
  deriving DecidableEq, Repr

/-- What a set of outstanding BISnp messages is for. -/
inductive SnoopWhy where
  | victim
  | write (w : Write)
  | release (quire : Nat) (ld : Nat)
  | coarse (quire : Nat)
  | read (a : MemRead)
  | reseal
  | core (k : Nat) (inv : Bool)      -- a coherence request of a core (R350), BISnpInv or BISnpData
  deriving DecidableEq, Repr

/-- What a memory access came back with. -/
inductive Reply where
  | data (d : BitVec 512)
  | poison
  | refused                          -- a violation (R204, R205, R212, R214, R290)
  | unmapped                         -- a core's access to a leaf of KIND 0b00 (R312)
  | failed                           -- a store refused under R219, R224 or R226, or whose peer path is down
  | done                             -- a store performed (R314)
  | timeout                          -- a store refused under R288
  deriving DecidableEq, Repr

/-- Outstanding BISnp messages of one line (R284 to R288). -/
structure Snoop where
  line : Nat                         -- canonical DPA / 64
  waiting : List Nat                 -- LDs (16 * port + LD) that have not answered
  why : SnoopWhy
  since : Nat                        -- generated lines when they were sent (R288)
  deriving DecidableEq, Repr

/-- What an access to a lent leaf's holder is: the request itself, the read of a merge, or that read made again (R222,
R224). -/
inductive LentStep where
  | plain | merge | again
  deriving DecidableEq, Repr

/-- An extent of quires being added or offered (R277). -/
structure Extent where
  port : Nat
  ld : Nat
  region : Nat
  first : Nat
  count : Nat
  placed : Bool := true             -- its leaves are placed; false while recalled slots are awaited (R166)
  fresh : List Nat := []            -- its quires that no LD held, which are blanked
  deriving DecidableEq, Repr

/-- The fabric ports' own state. -/
structure Fabric where
  holders : Tab (List Nat) := []     -- quire: the LDs (16 * port + LD) that hold it (R278)
  added : List (Nat × Nat) := []     -- (LD, quire) in the order they were accepted (R279)
  adding : Option Extent := none     -- extent being blanked
  offered : List Extent := []        -- extents offered and not answered
  filter : Tab Filter := []          -- by line
  useCount : Nat := 0
  snoops : List Snoop := []          -- oldest first
  coarse : List Nat := []            -- COARSE quires (R285)
  sweepLine : Nat := 0               -- next line of the quire the coarse sweep works on
  parked : List Write := []          -- writes behind a conflicting write to the same line (R286)
  wanted : Nat := 0                  -- quires whose release restores the free pool's minimum (R95, R136)
  release : Option (Nat × Nat) := none -- quires still asked for and the folio the request began (R279)
  reserve : List Work := []          -- messages that wait in their port's reserve, their credits withheld (R294), oldest first
  withheld : List Nat := []          -- ports that have withheld a credit in this line
  recalled : List Nat := []          -- lent-in slots recalled and not yet read back whole (R166)
  viralSeen : List (Nat × Nat) := [] -- (port, sub-link) viral received (R273)
  lentOut : Tab (Work × LentStep) := []  -- lent-leaf accesses outstanding on Peer links, by tag
  lentWait : List Write := []        -- writes waiting behind a merge of their line at a lent leaf, oldest first (R222)
  nextTag : Nat := 0                 -- tag of the next
  busMaster : List Nat := []         -- OWNERs of the LDs whose function 1 has Bus Master Enable set (R381)
  replies : Tab Reply := []          -- answers to cores' accesses, key 512 * slot + core
  deriving DecidableEq, Repr

/-! ### Cores (chapter 10) -/

/-- What an outstanding access of a core delivers (R315); a destination that a later instruction has written since
takes nothing. -/
inductive Await where
  | load (wd : Option Nat) (size : Nat) (sext : Bool)
  | vector (vd : Option Nat)
  | atomic (wd : Option Nat) (size : Nat) (acquire : Bool)
  | store
  deriving DecidableEq, Repr

/-- A device-window or working-memory access that a core has issued and that is outstanding (R315, R321). -/
structure CoreAccess where
  slot : Nat                 -- names it in the answers
  pc : BitVec 64             -- of its instruction
  addr : BitVec 64           -- effective address
  kind : Await
  deriving DecidableEq, Repr

/-- What a core waits for. -/
inductive CoreWait where
  | line (target : BitVec 64)              -- rt.waitl
  | time (target : BitVec 64)              -- rt.waitt
  | event (wd : Nat) (mask : BitVec 64)    -- evt.wait
  | fence
  | snoops (wd : Nat) (lines : Nat)        -- coh.inv, coh.data, coh.invr: lines snooped
  | itemEnd                                -- the implicit FENCE of R390
  | stopped                                -- at RUN_LIMIT_LINES, until its outstanding stores are settled (R390)
  deriving DecidableEq, Repr

/-- A core: 0 to 7 the Scribes, 8 + g nib core g (R307 to R310, R323). -/
structure CoreState where
  running : Bool := false
  regs : Tab (BitVec 64) := []         -- w1 to w31; unlisted reads 0
  preds : BitVec 8 := 0                -- p1 to p7 in bits 7:1
  vregs : Tab (BitVec 512) := []       -- v0 to v15 of a nib core; unlisted reads 0
  pc : BitVec 64 := 0
  tvec : BitVec 64 := 0                -- CS_TVEC
  epc : BitVec 64 := 0                 -- CS_EPC
  cause : BitVec 64 := 0               -- CS_CAUSE
  faddr : BitVec 64 := 0               -- CS_FADDR
  enable : Bool := true                -- CS_TSTATE.ENABLE
  retired : BitVec 64 := 0             -- CS_RETIRED
  scratch : BitVec 64 := 0             -- CS_SCRATCH
  code : Nat := 0                      -- code-space size in syllables (CS_LIMITS)
  loaded : Option (Nat × BitVec 64) := none   -- code size and entry of the kernel in its instruction SRAM (R389)
  mem : Tab (BitVec 8) := []           -- local space, canonical: no zero byte listed
  outstanding : List CoreAccess := []  -- oldest first
  nextSlot : Nat := 0
  wait : Option CoreWait := none
  item : Option Nat := none            -- work item a nib core runs
  itemLine : Nat := 0                  -- generated line on which it started
  queue : List Nat := []               -- dispatch queue of a nib core, in order of placement (R386)
  lastGroup : Option Nat := none       -- queue group of the item before (R368)
  stale : Bool := false                -- its kernel reloads before the next item (R378)
  fetchFolio : Option Nat := none      -- folio of the last uncorrectable instruction-SRAM error (R355)
  deriving DecidableEq, Repr


/-! ### Scribes and rubrics (chapter 11) -/

/-- A 64-byte message of a rubric's inbox with its header (R346). -/
structure Message where
  kind : Nat            -- SOURCE_KIND
  source : Nat
  body : BitVec 512
  deriving DecidableEq, Repr

/-- A rubric that is loaded (R351 to R357), with the verified copy that the loader keeps. -/
structure Rubric where
  handle : Nat := 0
  role : Nat := 0
  base : Bool := false            -- a base rubric of the firmware (Table 11-5)
  vendor : Bool := false          -- VENDOR of its header (Table 11-7)
  signer : Nat := 0               -- fuse region of the key slot it is signed under, 4 to 10
  mask : BitVec 32 := 0           -- event subscription mask
  readGrant : BitVec 16 := 0      -- desk read grant, by block of Table 11-11
  writeGrant : BitVec 16 := 0     -- desk write grant
  slots : BitVec 64 := 0          -- slot mask
  region : Nat := 0               -- first 2 MiB unit of its working-memory region
  units : Nat := 0                -- units of it
  code : Nat := 0                 -- code syllables
  entry : BitVec 32 := 0
  data : List (BitVec 8) := []    -- initial data
  version : Nat := 0              -- security version
  name : List (BitVec 8) := []
  digest : BitVec 256 := 0        -- SHA3-256 of its image (Table 22-5)
  started : Nat := 0              -- generated line on which its program last started
  restarts : List Nat := []       -- folios of its restarts, newest first
  beat : Bool := false            -- has executed evt.beat, or been blocked, since the last check (R353)
  overBase : Bool := false        -- replaced the base rubric of its role
  stopped : Bool := false         -- stopped, or its handover to come
  events : List (BitVec 64) := [] -- event queue, oldest first, at most 64 (R344)
  eventsLost : Nat := 0
  inbox : List Message := []      -- oldest first, at most 32 (R346)
  deriving DecidableEq, Repr

/-- A load of a rubric or kernel image (R357, R377). -/
structure LoadSession where
  kernel : Bool
  length : Nat
  bytes : Tab (BitVec 8) := []
  folio : Nat                     -- in which it began
  deriving DecidableEq, Repr

/-- A host mailbox (Table 11-8). -/
structure Mailbox where
  mem : Tab (BitVec 8) := []      -- the bytes of BAR0 from 0x0004 on, canonical: no zero byte listed
  since : Option Nat := none      -- folio in which the command under way was submitted
  token : Option Nat := none      -- of a RUBRIC_MESSAGE under way
  seq : Nat := 0                  -- async entries written
  deriving DecidableEq, Repr

/-- What the Scribes' loader and the mailbox engine keep. -/
structure Scribes where
  sessions : Tab LoadSession := []
  boxes : Tab Mailbox := []
  handover : List (Nat × Nat) := []      -- (handle, Scribe) of committed rubrics that start at the next line 0 (R357)
  takeover : List (Nat × Nat) := []      -- (handle, Scribe) being copied after a Scribe fault (R355)
  nextHandle : Nat := 0x100
  loader : Option Nat := none            -- its Scribe; none before boot and while it pauses (R351, R355)
  work : Tab (BitVec 8) := []            -- Scribe working memory, canonical: no zero byte listed
  firmware : Tab Rubric := []            -- by role: the base rubrics of the running firmware slot
  deriving DecidableEq, Repr

/-! ### Queues and kernels (chapter 12) -/

/-- A kernel of the library (R376). -/
structure Kernel where
  flags : Nat := 0                -- header bits: 0 VENDOR, 1 SPLITTABLE
  signer : Nat := 0
  code : Nat := 0                 -- syllables
  entry : BitVec 32 := 0
  data : List (BitVec 8) := []
  version : Nat := 0
  name : List (BitVec 8) := []
  removing : Option Nat := none   -- mailbox that asked for its removal (R378)
  digest : BitVec 256 := 0        -- SHA3-256 of its image (Table 22-5)
  size : Nat := 0                 -- 64-byte units of its body in the library
  deriving DecidableEq, Repr

/-- A queue pair (R379, Tables 12-16 to 12-18). -/
structure Pair where
  cfg : BitVec 64 := 0            -- QUE_PAIR_CFG
  sq : BitVec 64 := 0             -- QUE_PAIR_SQ
  cq : BitVec 64 := 0             -- QUE_PAIR_CQ
  sqTail : Nat := 0
  sqHead : Nat := 0
  cqTail : Nat := 0
  cqHead : Nat := 0
  inFlight : Nat := 0
  phase : Bool := false           -- of the next completion; 1 from the pair's creation
  used : Nat := 0                 -- CQ entries written and not released
  error : Bool := false
  deleting : Bool := false        -- QUEUE_DELETE waits for running items (R394)
  asker : Option Nat := none      -- mailbox that asked for the deletion
  deriving DecidableEq, Repr

/-- An operand of a work item: address in bytes, alias bits included, and length in memory lines. -/
structure Operand where
  addr : Nat
  lines : Nat
  deriving DecidableEq, Repr

/-- Where a fetched item stands. -/
inductive ItemPlace where
  | waiting                      -- for WORK_PLACE
  | migrating (core : Nat)       -- pre-migrated (R172)
  | queued (core : Nat)          -- in a core's dispatch queue
  | running (core : Nat)
  deriving DecidableEq, Repr

/-- A fetched work item, or a sub-item of a split one (R171, R383). -/
structure Item where
  pair : Nat
  order : Nat                    -- position in its pair's fetch order
  kernel : Nat
  hint : Nat := 0
  flags : Nat := 0
  operands : List Operand := []  -- operands 0 to 3
  args : Operand := { addr := 0, lines := 0 }
  tag : BitVec 64 := 0
  deadline : BitVec 64 := 0
  sqHead : Nat := 0              -- SQ head after its fetch
  copy : BitVec 512 := 0         -- the item as written
  place : ItemPlace := .waiting
  offset : Nat := 0              -- byte offset of operand 0 within the original (R171)
  parent : Option (Nat × Nat) := none -- split item it belongs to and its index
  parts : Nat := 0               -- of a split item: how many sub-items; 0 not split
  left : Nat := 0                -- sub-items not yet complete
  worst : Nat := 0               -- worst status so far, with its sub-item and core
  worstAt : Nat := 0
  worstCore : Nat := 0
  worstCause : Nat := 0
  since : Option Nat := none     -- folio in which it was first found without a candidate
  retry : Bool := false          -- placed again at the next line (R386, R387)
  told : Bool := false           -- the Notice of Table 5-8 has been recorded
  cluster : Option Nat := none   -- its core's channel has been Retired: placed on that cluster's other cores (Table 3-9)
  toMove : List Nat := []        -- leaves of its pre-migration whose move has not been accepted yet (R172)
  started : Bool := false        -- a core has started it
  deriving DecidableEq, Repr

/-- What the queue engine keeps. -/
structure Queues where
  pairs : Tab Pair := []
  items : Tab Item := []
  nextItem : Nat := 0
  kernels : Tab Kernel := []
  idle : Tab Nat := []           -- cluster whose vote is held: folio from which it has been idle
  deriving DecidableEq, Repr

/-! ### Clocks (chapter 13) -/

/-- A multiplying loop beside its registers: 0 root, 1 + q quadrant q's SerDes PLL, 5 + t tower t's, 9 NIBS, 10 NIBP. -/
structure Loop where
  holding : Bool := false      -- reference lost (R407)
  coast : Bool := false        -- R408
  escalated : Bool := false    -- Table 13-3 step 5 recorded
  relock : Bool := false       -- has a new reference and not yet relocked
  lost : Option Nat := none    -- source whose lock was lost while it was valid (R410)
  deriving DecidableEq, Repr

/-- What the clock unit keeps beside its registers. -/
structure Clocks where
  loops : Tab Loop := []
  oscLock : Bool := false          -- a start-up lock runs (R404)
  switches : Tab (List Nat) := []  -- domain: sources switched to, first to complete first (R413)
  deriving DecidableEq, Repr


/-! ### Power (chapter 14) -/

/-- What Standby and Off add to the states of PWR_STATE (Table 14-3). -/
inductive Rails where
  | off          -- VIN below 20 V
  | standby      -- Inkwell controller only
  | up           -- ink rail up: Quiet, Capped or Writing
  deriving DecidableEq, Repr

/-- What the sequencer and the Inkwell keep beside the registers. -/
structure Power where
  rails : Rails := .up
  shutdownGen : Option Nat := none -- generated line of the last change of SHUTDOWN_N that took effect (R550)
  wakeGen : Option Nat := none     -- generated line of the last wake by WAKE_N (R550)
  capByPin : Bool := false         -- the Capped state in force was entered for SHUTDOWN_N (R429)
  wakeDue : Option Nat := none     -- wake source that came during an entry (Table 14-5): LAST_SOURCE code
  drained : Bool := false          -- DRAIN_LINES has passed in the entry that runs
  limOver : Nat := 0               -- consecutive windows above the cap at the last limiter step (R437)
  limUnder : Nat := 0              -- consecutive windows below 95 % of the cap
  cycling : Bool := false          -- an Inkwell cycle has removed the rails (R429)
  entryLine : Nat := 0             -- generated line on which the running entry began
  activeGen : Nat := 0             -- generated line of the last request for this node in Capped (R432)
  request : Option Nat := none     -- target of a PWR_REQUEST made while a transition runs
  reissue : List Move := []      -- moves aborted at an entry (R430)
  phasesLost : BitVec 8 := 0       -- Inkwell phases that have failed (R419)
  windowSum : Nat := 0             -- VIN power of the lines of the running limiter window, 100 mW units (R436)
  windowLines : Nat := 0
  vioOff : Bool := false           -- VIO_OUT is off after an overload (R545)
  bootEvents : List (Nat × Nat) := [] -- events that the Inkwell holds until the Blotter runs (R571): type and detail
  deriving DecidableEq, Repr


/-! ### Heat (chapter 15) -/

/-- What the thermal unit keeps beside its registers. Unit c is nib cluster c, unit 16 + t tower t. -/
structure Thermal where
  atTrip : List Nat := []         -- sensors whose last sample was at its THERMTRIP limit (R455)
  history : Tab (List Int) := []   -- unit: its temperature on each line, newest first, at most 4,097 (R442)
  below : Tab Nat := []            -- unit: consecutive lines 3 °C or more below its step's limits (R443)
  model : Tab Nat := []            -- cluster: consecutive lines with the model 8 °C or more above the reading (R449)
  cool : Tab Nat := []             -- 32 * tower + layer: consecutive lines at or below 83 °C (R446)
  riseTrip : List Nat := []        -- clusters whose rise limit has tripped since their last rearm (R450)
  chanZero : Tab Nat := []         -- tower: generated line of the last sample with channel step 0
  idleFolios : Tab Nat := []       -- cluster: folios in a row in which none of its cores had 4 queued items (R451)
  inkHot : Bool := false           -- an Inkwell sensor keeps the power class one lower (R442)
  fastOver : Nat := 0              -- consecutive lines above the cap (R452)
  fastUnder : Nat := 0             -- consecutive lines below the cap
  deriving DecidableEq, Repr
/-! ### Calibration (chapter 16) -/

/-- A calibrated unit: channel g at key g (values 0 to 62 its TSV delays D0 to D43, C0 to C14, S0 to S3; 63 + 4 r + k
its DRAM values of rank r), lane quadrant q at key 256 + q (4 l + k of lane l). Values are steps from nominal. -/
structure CalUnit where
  sets : Tab (Tab Int) := []               -- by set point 0 to 4
  field : Option (Int × Tab Int) := none   -- the field set with its temperature in 0.25 °C (R462)
  base : Tab Int := []                     -- base values in force
  trim : Tab Int := []                     -- trims (R464)
  shadow : Option (Tab Int) := none        -- shadow bank loaded (R465)
  loadFolio : Option Nat := none           -- folio in which the shadow bank was last loaded
  holdGen : Option Nat := none             -- generated line on which a hold began (R467)
  heldFolio : Option Nat := none           -- folio of its last hold
  requested : Bool := false
  rejections : Nat := 0                    -- consecutive rejected results (R470)
  rejectedAt : Option Int := none          -- driving temperature at the last rejection, from the second running on (R470)
  stored : Option (Int × Tab Int) := none  -- the field record as the flash holds it (R473)
  storedAt : Option Nat := none            -- powered seconds at its last write
  deriving DecidableEq, Repr


/-! ### Fuses (chapter 17) -/

/-- The fuse array and what its controller is doing. The shadows are FUS_SHADOW's values. -/
structure Fuses where
  array : Tab (BitVec 32) := []           -- every word that is not blank, with its normal-margin data
  program : Option (Nat × BitVec 32) := none  -- the word being programmed, with its data (R485)
  reading : Option Nat := none            -- the word of an on-demand read (R482)
  deriving DecidableEq, Repr


/-! ### The Colophon (chapter 19) -/

/-- The body of a Colophon record (Table 19-3). -/
inductive ColBody where
  | minute (seconds energy : Nat) (classes : List Nat) (dropped : Nat) (clusters : List (Nat × Nat)) (bins : List Nat)
  | blotter (time : BitVec 64) (record : Record)
  | shutdown (cause : Nat) (trip time : BitVec 64) (boost : List (Nat × Nat))
  | repair (channel kind index : Nat) (image : BitVec 64)
  | fuse (word data status : Nat)
  | calendar (old new source : Nat)
  | marker (copy generation : Nat)
  deriving DecidableEq, Repr

/-- A committed Colophon record with its header (Table 19-2). -/
structure ColRecord where
  seq : Nat
  calendar : Nat
  body : ColBody
  deriving DecidableEq, Repr

/-- The lifetime counters (Table 19-4). Port counters and repair state are kept with the units they count. -/
structure Life where
  seconds : Nat := 0
  joules : Nat := 0
  vinFaults : Nat := 0
  thermtrips : Nat := 0
  fatals : Nat := 0
  unrecorded : Nat := 0
  cycles : Nat := 0
  hist : Tab Nat := []                       -- minutes, key 16 * die + bin
  boost : Tab (Nat × Nat) := []              -- powered and peak milliseconds, key 2^24 * cluster + day
  repair : Tab (BitVec 64 × BitVec 64 × BitVec 64) := []  -- the three CHN repair images by channel
  rowRepairs : Tab Nat := []                 -- row repairs consumed, key 272 * channel + bank
  portCounts : Tab (Nat × Nat × Nat × Nat) := [] -- uncorrectable flits, replays, lanes failed, link downs
  deriving DecidableEq, Repr

/-- A checkpoint copy. -/
structure Checkpoint where
  generation : Nat
  calendar : Nat
  time : BitVec 64
  life : Life
  eventSeq : Nat       -- event-ring sequence the checkpoint has taken in
  minuteSeq : Nat
  deriving DecidableEq, Repr

/-- What the Inkwell holds of the Colophon. -/
structure Colophon where
  rtc : Nat := 0                             -- 1/32,768 s since the calendar epoch (R531)
  waiting : List ColBody := []               -- records sent and not yet committed, oldest first
  eventRing : List ColRecord := []           -- oldest first, at most 4,096 records of 128 bytes
  minuteRing : List ColRecord := []          -- oldest first, at most 2,730
  minuteSeq : Nat := 0
  eventSeq : Nat := 0
  classCounts : List Nat := [0, 0, 0, 0, 0]  -- Blotter records of the minute by class
  droppedMinute : Nat := 0
  blotterMinute : Nat := 0                   -- Blotter records committed this minute (R528)
  clusterUse : Tab (Nat × Nat) := []         -- lines of the minute powered and at peak, by cluster
  dieMax : Tab Nat := []                     -- highest sample of the minute by die, 0.25 °C above -128 °C
  life : Life := {}
  copyA : Option Checkpoint := none
  copyB : Option Checkpoint := none
  generation : Nat := 0
  summaries : Nat := 0                       -- minute summaries since the last checkpoint
  checkpointDue : Bool := false
  marginalA : Option (List (Nat × Nat × Nat)) := some []  -- (word, treatment, value), none when its CRC fails
  marginalB : Option (List (Nat × Nat × Nat)) := some []
  stepFolio : Option Nat := none             -- folio of the last calendar step (R532)
  everSet : Bool := false
  shutdownSeen : Bool := true                -- a shutdown record follows the last minute summary (R527)
  restartLock : Bool := false                -- THERMTRIP restart lock (R457)
  fatalShadow : Bool := false                -- the Fatal latch in the Inkwell (R518)
  rtcValid : Bool := false                   -- RTC_VALID (R531)
  calSource : Nat := 0                       -- who last set the calendar (Table 19-9)
  dropped : Nat := 0                         -- Blotter records dropped under R528
  badSectors : Nat := 0                      -- sectors retired (R529)
  copyLast : Nat := 0                        -- checkpoint copy written last
  tripImage : BitVec 64 := 0                 -- THM_TRIP image of the last THERMTRIP
  tripNew : Bool := false                    -- a THERMTRIP that the next boot reports (Table 15-8)
  vinCycled : Bool := false                  -- VIN has come back since the last boot (R527)
  lockCycled : Bool := false                 -- the restart lock has seen a VIN or Inkwell cycle (R457)
  energy : Nat := 0                          -- VIN energy of the running minute, in 100 nJ (100 mW for 1 µs)
  deriving DecidableEq, Repr

/-! ### Pins (chapter 20) -/

/-- The level of each pin the node drives and each it follows; true is high. -/
structure Pins where
  alertN : Bool := true
  faultN : Bool := true
  thermtripN : Bool := true
  resetN : Bool := true
  shutdownN : Bool := true
  wakeN : Bool := true
  pwrGood : Bool := true
  deriving DecidableEq, Repr

/-! ### Bring-up (chapter 21) -/

/-- Where the boot sequence stands (Table 21-1). -/
inductive BootStage where
  | held          -- the internal reset release has not come
  | checking      -- step 5: the next slot of the order is being checked
  | training      -- step 7: the towers train
  | starting      -- step 8: the base rubrics are re-read
  | activating    -- step 9 is next
  | running
  | recovery      -- MCTP recovery waits for a package (R563)
  | stopped       -- SCRAPPED, or a Fatal record stopped the boot
  deriving DecidableEq, Repr

/-- What the boot ROM keeps. -/
structure Boot where
  stage : BootStage := .held
  order : List Nat := []           -- slots still to be tried: 0 A, 1 B
  slot : Option Nat := none        -- slot that runs: 0 A, 1 B, 2 MCTP package
  security : Nat := 0              -- its security version (R578)
  signer : Nat := 0                -- fuse region of its key slot
  trained : Bool := false          -- the towers are trained
  ready : Bool := false            -- step 6 is complete: configuration requests are served (R558)
  active : Bool := false           -- Memory_Active is set on every LD (R568)
  straps : BitVec 15 := 0          -- STRAP_11:0, MGMT_SEL and BOOT_SEL in force (R548)
  disagreed : BitVec 15 := 0       -- strap capture: pins whose samples disagreed
  locks : BitVec 8 := 0            -- strap-override groups whose LOCK was 1 at this boot (R496, R487)
  loader : BitVec 256 := 0         -- the loader's digest (R567)
  images : Tab (BitVec 256) := []  -- digests of the base rubric images by role
  entries : Tab Nat := []          -- place in the slot directory of each role's image
  measured : List (BitVec 256) := [] -- measurement log entries 0 to 11 (Table 21-5)
  deriving DecidableEq, Repr

/-! ### Management (chapter 22) -/

/-- An SPDM secured session (R582). -/
structure Session where
  port : Option Nat := none        -- the Host port whose DOE or MCTP carries it; none: MGMT0
  established : Bool := false      -- FINISH has completed
  mutAuth : Bool := false          -- the requester has been authenticated
  leaf : BitVec 256 := 0           -- SHA3-256 of the public key of the requester's leaf certificate (R232)
  root : BitVec 256 := 0           -- SHA3-256 of its chain's root public key
  deriving DecidableEq, Repr

/-- How far an SPDM connection has come on one binding. -/
structure SpdmConn where
  version : Bool := false
  caps : Bool := false
  algs : Bool := false
  chunks : Option (Nat × Nat) := none -- handle and next sequence number of a transfer in chunks
  deriving DecidableEq, Repr

/-- The stages of a PLDM Type 5 update (R580, R581). -/
inductive UpdateStage where
  | learning | ready | downloading | verified
  deriving DecidableEq, Repr

/-- A firmware update under way. -/
structure Update where
  stage : UpdateStage := .learning
  component : Nat := 0             -- 1 slot A, 2 slot B, 3 recovery package
  length : Nat := 0
  received : Nat := 0              -- bytes received, in the order of the node's requests
  staged : Tab (BitVec 8) := []    -- a recovery package staged in the reserve, canonical: no zero byte listed
  deriving DecidableEq, Repr

/-- What the management endpoints keep. Bindings: 0 MGMT0, 1 CXL.io. -/
structure Mgmt where
  sessions : Tab Session := []     -- by session identifier
  eid : Tab Nat := []              -- binding: its EID, none until Set Endpoint ID (R573)
  address : Option Nat := none     -- I3C dynamic address (R572)
  armed : Option (BitVec 32) := none  -- nonce of the last INKWELL_ARM (R577)
  challenge : Option (Nat × BitVec 64) := none -- owner slot and challenge of the last OWNER_CHALLENGE (R576)
  update : Option Update := none
  receiver : Option Nat := none    -- PLDM event receiver (R579)
  sensors : Tab Nat := []          -- state sensor: state at the last reading update
  events : List (Nat × Nat) := []  -- platform events to poll: sensor and state, oldest first
  spdm : Tab SpdmConn := []        -- key 0 MGMT0, 1 + p the CXL.io binding of port p
  deriving DecidableEq, Repr


/-! ### What the node sends -/

/-- What leaves the node: messages on its ports, pulses and pins, answers to hosts and to the management
controller. -/
inductive Output where
  /-- A line symbol on RULE_OUT: 0, 1, or 2 for the folio mark (R64). -/
  | ruleOut (symbol : Nat)
  /-- A ruling message on a Peer port, an announce, a sync request or a sync response by its subtype (R51, Table 2-6). -/
  | ruling (port : Nat) (payload : BitVec 256)
  /-- A PTM dialog on the Host source port (R54). -/
  | ptmRequest (port : Nat)
  /-- The value a read of a desk register returned. -/
  | deskValue (addr : Nat) (value : BitVec 64)
  /-- A desk read answered over JTAG (R491). -/
  | jtagRead (value : BitVec 64)
  /-- S2M DRS: data for a link's request; with poison no data is defined, and `devLoad` is Table 6-7's. -/
  | drs (port sub ld tag pbr : Nat) (data : Option (BitVec 512)) (poison : Bool) (devLoad : Nat)
  /-- S2M NDR: a completion without data. -/
  | ndr (port sub ld tag pbr : Nat) (devLoad : Nat)
  /-- A lent-in line sent back as stored (R165). -/
  | lentLine (port tag pbr : Nat) (line : MediaLine)
  /-- An access to a lent leaf sent over a Peer link; a write carries the line as stored (R164, R283). -/
  | lentAccess (port pbr slot line tag : Nat) (write : Option MediaLine)
  /-- A back-invalidate snoop to a logical device: 0 BISnpInv, 1 BISnpData. -/
  | biSnp (port ld line kind : Nat)
  /-- An MSI-X message with a vector to the host of an owner (R196). -/
  | msix (owner vector : Nat)
  /-- Viral on a link (R297). -/
  | viral (port sub : Nat)
  /-- A DC event for a logical device: 0 add, which offers quires, 1 release request (R277, R279). -/
  | dcEvent (port ld kind first count : Nat)
  /-- A recall of lent-in slots (R166). -/
  | recall (port pbr : Nat) (slots : List Nat)
  /-- A transit flit sent on (R280, R281). -/
  | transit (port sub dpid spid tag : Nat)
  /-- The response to a transit flit with no route (Table 9-4): poisoned zeros for a read, a completion for a write. -/
  | transitRefused (port sub spid tag : Nat) (write : Bool)
  /-- The half-doze vendor message on a Peer port (R266). -/
  | dozeMessage (port : Nat) (enable : Bool)
  /-- A lane's request to its partner's transmitter in the phase its receiver leads (R246): a preset, or coefficients CM2,
  CM1, C0 and CP1 of 6 bits each. -/
  | equalize (port lane : Nat) (preset : Option Nat) (coefficients : BitVec 24)
  /-- What a through-pair forwards out of a port: Table 8-4's kind, and the data-rate bits of a TS1 or TS2. -/
  | pairForward (port sub kind : Nat) (rates : BitVec 6)
  /-- A posted write to host memory on a sub-link: a completion entry (R391). -/
  | hostWrite (port sub : Nat) (addr : BitVec 64) (bytes : List (BitVec 8))
  /-- A CXL.io read completion. -/
  | ioData (port sub ld : Nat) (value : BitVec 64)
  /-- A CXL.io completion with Configuration Request Retry Status (R558). -/
  | ioRetry (port sub ld : Nat)
  /-- The erasure of a firmware slot of the QSPI flash: 0 A, 1 B (R581). -/
  | flashErase (slot : Nat)
  /-- Bytes written to a firmware slot of the QSPI flash (R581). -/
  | flashWrite (slot offset : Nat) (bytes : List (BitVec 8))
  /-- A PLDM PlatformEventMessage: a state sensor's new state (R579). -/
  | platformEvent (sensor state : Nat)
  /-- A CXL.io completion with Unsupported Request. -/
  | ioUnsupported (port sub ld : Nat)
  /-- A management-bus answer: command name, status and data. -/
  | answer (name : String) (status : Nat) (data : List Nat)
  deriving DecidableEq, Repr

/-! ### The whole state -/

/-- The state of the node. -/
structure State where
  variant : Variant := .v4384
  /-- Every desk register whose value differs from its reset value, by address, canonical (R11). -/
  desk : Tab (BitVec 64) := []
  blotter : Blotter := {}
  ruling : Ruling := {}
  /-- The DRAM arrays: every line that is not blank, by media line address, canonical. -/
  media : Tab Codeword := []
  chans : Tab Chan := []                -- by global channel
  rankFails : List (Nat × Nat × Nat) := [] -- (channel, rank, folio) rank failures for the layer rule (R98)
  layersFailed : List (Nat × Nat) := [] -- (tower, layer) declared failed
  ductus : Ductus := {}
  accounts : Accounts := {}
  sealing : Seal := {}
  fabric : Fabric := {}
  colophon : Colophon := {}
  cal : Tab CalUnit := []               -- calibration sets and values (R461, R462)
  pins : Pins := {}
  fuses : Fuses := {}
  lanes : Lanes := {}
  mgmt : Mgmt := {}
  power : Power := {}
  thermal : Thermal := {}
  boot : Boot := {}
  clocks : Clocks := {}
  rubrics : Tab Rubric := []            -- by handle
  scribes : Scribes := {}
  queues : Queues := {}
  cores : Tab CoreState := []           -- 0 to 7 the Scribes, 8 + g nib core g
  /-- Everything the node has sent, oldest first (the model's own record, assumption 3). -/
  out : List Output := []
  /-- How many free values have been drawn (the model's own field, assumption 1). -/
  free : Nat := 0
  /-- The commands waiting, first in first out. -/
  pending : List Instr := []
  deriving DecidableEq, Repr

/-- The node right after reset: every register at its reset value, nothing waiting. -/
def State.reset : State := {}

end Sys2Proof.Machine
end

