-- ==== Sys2Proof/Machine/Ops.lean ====
section
/-! DEFINITION. The named operations on the state that every family uses: bit fields, reading and writing desk
registers (R3, R11, R12), free values, messages sent, ruled time. -/

namespace Sys2Proof.Machine

/-! ### Numbers -/

/-- The `w` bits of `n` from bit `lo`. -/
def bitsOf (n lo w : Nat) : Nat := n / 2 ^ lo % 2 ^ w

/-- Bit `i` of `n`. -/
def bit (n i : Nat) : Bool := n / 2 ^ i % 2 = 1

/-- `n` with bit `i` set. -/
def setBit (n i : Nat) : Nat := if bit n i then n else n + 2 ^ i

/-- `n` with bit `i` cleared. -/
def clearBit (n i : Nat) : Nat := if bit n i then n - 2 ^ i else n

/-- `n` with bit `i` holding `b`. -/
def putBit (n i : Nat) (b : Bool) : Nat := if b then setBit n i else clearBit n i

/-- How many of the low `w` bits of `n` are set. -/
def popCount (w n : Nat) : Nat := ((List.range w).filter (fun i => bit n i)).length

/-- 1 for true, 0 for false. -/
def b2n (b : Bool) : Nat := if b then 1 else 0

/-- The value of the low `w` bits of `n` read as a two's-complement number. -/
def signed (w n : Nat) : Int := if bit n (w - 1) then (n % 2 ^ w : Nat) - (2 ^ w : Nat) else (n % 2 ^ w : Nat)

/-- An integer as `w` bits in two's complement, held at the ends of the range (a saturating field). -/
def satSigned (w : Nat) (z : Int) : Nat :=
  let hi : Int := 2 ^ (w - 1) - 1
  let c := if z > hi then hi else if z < -hi - 1 then -hi - 1 else z
  (c % (2 ^ w : Nat)).toNat

/-- The little-endian number that a list of bytes spells (R6). -/
def leNat : List Byte → Nat
  | [] => 0
  | b :: r => b.toNat + 256 * leNat r

/-- The `n` little-endian bytes of a number (R6). -/
def leBytes : Nat → Nat → List Byte
  | 0, _ => []
  | n + 1, v => BitVec.ofNat 8 v :: leBytes n (v / 256)

/-! ### The desk -/

/-- The instance of register `r` at desk address `a`, if `a` is one. -/
def Reg.instanceAt (r : Reg) (a : Nat) : Option (Nat × Nat) :=
  if a < r.base then none else
  let o := a - r.base
  match r.dims with
  | [] => if o = 0 then some (0, 0) else none
  | [(st, n)] => if o % st = 0 ∧ o / st < n then some (o / st, 0) else none
  | (st, n) :: (tt, m) :: _ =>
    if o % st % tt = 0 ∧ o / st < n ∧ o % st / tt < m then some (o / st, o % st / tt) else none

/-- Search a list of registers for the one at desk address `a`. -/
def locateIn : List Reg → Nat → Option (Reg × Nat × Nat)
  | [], _ => none
  | r :: rest, a =>
    match r.instanceAt a with
    | some (i, j) => some (r, i, j)
    | none => locateIn rest a

/-- The register and instance at a desk address; none where the block lists nothing. -/
def locate (a : Nat) : Option (Reg × Nat × Nat) := locateIn Reg.all a

/-- The default severity of each event type (R506 and the event tables of chapters 2 to 21), per group, row by row. -/
def severityRows : Nat → List Nat
  | 2 => [0, 0, 2, 0, 0, 2]
  | 3 => [1, 1, 2, 2, 2, 3, 2, 2, 4]
  | 4 => [1, 3, 2, 2, 0, 2, 0, 0, 0, 0]
  | 5 => [0, 2, 4, 3, 2, 0]
  | 6 => [2, 0, 0, 0, 0]
  | 7 => [3, 3, 3, 1, 3, 2, 1, 4, 2, 0, 3]
  | 8 => [2, 2, 0, 0, 0, 0, 2, 2, 0]
  | 9 => [3, 3, 0, 2, 0, 2, 0]
  | 11 => [3, 2, 2, 2, 0, 0]
  | 12 => [0, 0, 0, 0, 3]
  | 13 => [0, 2, 2, 0, 2, 2, 0, 4]
  | 14 => [2, 4, 4, 2, 0, 0, 2, 0]
  | 15 => [2, 2, 0, 2, 0, 0, 0, 2]
  | 16 => [0, 0, 2, 2]
  | 17 => [1, 2, 0, 0, 2, 2, 2, 2]
  | 18 => [2, 4, 0, 2, 1, 3, 4, 2, 4, 0, 0, 0]
  | 19 => [0, 2, 1, 2, 1, 2, 0, 0, 0]
  | 20 => [0, 0, 2, 2]
  | 21 => [0, 2, 0, 2, 0, 2]
  | 22 => [7, 7, 0, 0, 7, 0, 0, 0, 0]
  | _ => []

/-- The default severity of an event type; 7 for a reserved type (R505, R506, Table 18-13). -/
def defaultSeverity (t : Nat) : Nat := (severityRows (t / 16)).getD (t % 16) 7

/-- How many ports a variant has (Table 0-2). -/
def Variant.ports (v : Variant) : Nat := match v with | .v2096 => 32 | _ => 64
/-- How many vertical channels. -/
def Variant.channels (v : Variant) : Nat := match v with | .v2096 => 128 | _ => 256
/-- How many nib clusters. -/
def Variant.clusters (v : Variant) : Nat := match v with | .v2096 => 8 | _ => 16
/-- How many towers. -/
def Variant.towers (v : Variant) : Nat := match v with | .v2096 => 2 | _ => 4
/-- User layers per tower, which are the user ranks of a channel (Table 0-2). -/
def Variant.layers (v : Variant) : Nat := match v with | .v4384 => 16 | _ => 8
/-- User capacity in 4 KiB leaves (Table 0-2). -/
def Variant.leaves (v : Variant) : Nat := match v with | .v4384 => 384 * 262144 | .v4192 => 192 * 262144 | .v2096 => 96 * 262144

/-- The reset value of each instance of a register, strap, fuse and index dependent parts included (R11). -/
def Reg.resetAt (v : Variant) (r : Reg) (i : Nat) : Nat :=
  match r with
  | .RUL_SOURCE => r.resetWord + 0xE4
  | .CHN_PAUSE_INTERVAL => r.resetWord + (64 * (i % 64) + 16 * (i / 64)) * 2 ^ 16
  | .ACC_DEVICE => (match v with | .v2096 => 3000000 | _ => 6000000)
  | .ACC_CHANNEL => 24500 * 2 ^ 48
  | .ACC_CFG =>
    if 4092 ≤ i then (if i = 4092 then 3 else 2) * 2 ^ 62 + 3 * 2 ^ 59 + (0xC000 + (4095 - i)) * 2 ^ 16 else r.resetWord
  | .ACC_RATE => if 4092 ≤ i then (if i = 4095 then 8000 else 0xFFFFFF) * 2 ^ 24 else 0
  | .SEL_KEY_ATTR =>
    if i = 0 then 2 ^ 62 + 2 * 2 ^ 58 + (match v with | .v2096 => 0xFF | _ => 0xFFFF) * 2 ^ 42 + 0xFFFF * 2 ^ 24 else 0
  | .PRT_BUFFER => (524288 - 2048 * v.ports) * 2 ^ 44 + 2048 * v.ports * 2 ^ 4
  | .MBX_ADMIN => 2 ^ 0
  | .FUS_STATUS => 2 ^ 55
  | .PWR_DOMAIN => (if i < 16 then 4 else if i < 20 ∨ 36 ≤ i then 1 else 0) * 2 ^ 48
  | .CLK_QUAD => i + (i + 1) % 4 * 4 + (i + 2) % 4 * 16 + (i + 3) % 4 * 64
  | .CLK_OUT => 8 + i
  | .CLK_NIB_PLL => if i = 0 then 1400 else 1800
  | .CLK_DOMAIN => if i = 0 then 0x11 else if i = 1 then 0x66 else 0
  | .COL_CAL_CTRL => r.resetWord + (match v with | .v4384 => 0 | _ => 1)
  | .BLT_SEVERITY => defaultSeverity i * 257
  | _ => r.resetWord

/-- The reset word of the register at a desk address; zero where nothing is listed. -/
def resetAt (v : Variant) (a : Nat) : BitVec 64 :=
  match locate a with
  | none => 0
  | some (r, i, _) => BitVec.ofNat 64 (r.resetAt v i)

/-- Whether a thermal sensor belongs to an absent cluster, quadrant, tower or layer (R3, R440). -/
def absentSensor (v : Variant) (i : Nat) : Bool :=
  let layer := (i - 96) % 68 / 4
  let dram := decide (96 ≤ i ∧ i < 368)
  let missingLayer := dram && v != .v4384 && decide (8 ≤ layer ∧ layer < 16)
  let missingUnit := v == .v2096 && decide ((16 ≤ i ∧ i < 32) ∨ (48 ≤ i ∧ i < 64) ∨ (80 ≤ i ∧ i < 96) ∨ (232 ≤ i ∧ i < 368))
  missingLayer || missingUnit

/-- Whether a register instance belongs to a unit that the variant lacks (R3). -/
def absentUnit (v : Variant) (r : Reg) (i j : Nat) : Bool :=
  if r = .THM_SENSOR then absentSensor v i else
  match v with
  | .v2096 =>
    match r with
    | .CHN_SCHED | .CHN_POOL | .CHN_REFRESH | .CHN_HAMMER | .CHN_PAUSE_INTERVAL | .CHN_PAUSE_STATUS | .CHN_ERROR
    | .CHN_REPAIR_STATE | .CHN_DATA_TSV_FAILED | .CHN_CA_TSV_FAILED | .ACC_CHANNEL | .ACC_LINK | .DCT_LOAD | .NIB_CORE
    | .COL_CAL_CHANNEL => decide (128 ≤ i)
    | .LAN_PORT_CTRL | .LAN_PORT_STATUS | .LAN_LANES | .LAN_DOZE | .LAN_LINK_ERRORS | .LAN_FLITS | .LAN_WAKE
    | .LAN_LANE_EQ | .LAN_LANE_ERRORS | .LAN_LANE_MARGIN | .PRT_PORT_CTRL | .PRT_PORT_STATUS | .PRT_PORT_ERRORS
    | .PRT_LD | .SEL_LD_KEY | .SEL_IDE => decide (32 ≤ i)
    | .LAN_PAIR => decide (16 ≤ i)
    | .MBX_ADMIN => decide (32 ≤ i)
    | .LAN_QUAD | .CLK_QUAD | .THM_TOWER | .COL_CAL_QUAD => decide (2 ≤ i)
    | .PRT_DC_REGION | .PRT_DC_USE => decide (512 ≤ i)
    | .CLK_DOMAIN => decide (24 ≤ i)
    | .PWR_DOMAIN => decide ((8 ≤ i ∧ i ≤ 15) ∨ i = 18 ∨ i = 19 ∨ (28 ≤ i ∧ i ≤ 35))
    | .THM_CLUSTER | .THM_BOOST | .NIB_CLUSTER => decide (8 ≤ i)
    | .DCT_SPREAD_SET => decide (2 ≤ j)
    | .BLT_SOURCE => decide ((128 ≤ i ∧ i < 256) ∨ (288 ≤ i ∧ i < 320) ∨ (352 ≤ i ∧ i < 384) ∨ (392 ≤ i ∧ i < 400) ∨
        (402 ≤ i ∧ i < 404) ∨ (480 ≤ i ∧ i < 512))
    | _ => false
  | _ => false

/-- The bits of a shared register that name present units (R3). -/
def presentBits (v : Variant) (r : Reg) : Nat :=
  match v, r with
  | .v2096, .RUL_PEER_FORWARD => 2 ^ 32 - 1
  | .v2096, .THM_PEAK => 2 ^ 64 - 1 - 0xFF00FF00FF000000
  | .v2096, .CLK_REF_STATUS => 2 ^ 64 - 1 - 0xCCC
  | .v4192, .CHN_REFRESH | .v2096, .CHN_REFRESH => 2 ^ 64 - 1 - 0x1FE00FF00
  | _, _ => 2 ^ 64 - 1

/-- The stored word of the register at a desk address. -/
def State.word (s : State) (a : Nat) : BitVec 64 := (Tab.find s.desk a).getD (resetAt s.variant a)

/-- Store a word at a desk address, keeping the table canonical: a reset value is not listed. -/
def State.setWord (s : State) (a : Nat) (w : BitVec 64) : State :=
  { s with desk := Tab.put s.desk a w (resetAt s.variant a) }

/-- The canonical form of the desk: addresses rising, no register listed at its reset value. -/
def State.deskWf (s : State) : Bool := Tab.Canon s.desk (resetAt s.variant)

/-- The value of a field. -/
def State.get (s : State) (f : Fld) : Nat := ((s.word f.addr).extractLsb' f.lo f.width).toNat

/-- The word with a field replaced. -/
def putField (w : BitVec 64) (lo width v : Nat) : BitVec 64 :=
  (w &&& ~~~(BitVec.ofNat 64 (2 ^ width - 1) <<< lo)) ||| (BitVec.ofNat 64 (v % 2 ^ width) <<< lo)

/-- Set a field to the low bits of `v`. -/
def State.put (s : State) (f : Fld) (v : Nat) : State := s.setWord f.addr (putField (s.word f.addr) f.lo f.width v)

/-- Set a field to 1 or 0. -/
def State.putB (s : State) (f : Fld) (b : Bool) : State := s.put f (b2n b)

/-- A one-bit field as a Bool. -/
def State.on (s : State) (f : Fld) : Bool := s.get f != 0

/-- Add to a saturating counter field. -/
def State.inc (s : State) (f : Fld) (k : Nat := 1) : State := s.put f (min (s.get f + k) (2 ^ f.width - 1))

/-- Add to a wrapping counter field. -/
def State.incW (s : State) (f : Fld) (k : Nat := 1) : State := s.put f (s.get f + k)

/-- Subtract from a counter field, not below zero. -/
def State.dec (s : State) (f : Fld) (k : Nat := 1) : State := s.put f (s.get f - k)

/-- Set bit `i` of a field. -/
def State.setFlag (s : State) (f : Fld) (i : Nat) (b : Bool := true) : State := s.put f (putBit (s.get f) i b)

/-- Bit `i` of a field. -/
def State.flag (s : State) (f : Fld) (i : Nat) : Bool := bit (s.get f) i

/-! ### Free values, messages, time -/

/-- The next free value (assumption 1). -/
def State.freeNow (s : State) : BitVec 64 := Config.freeValue s.free

/-- The state after a free value has been drawn. -/
def State.drew (s : State) : State := { s with free := s.free + 1 }

/-- Send one message. -/
def State.send (s : State) (o : Output) : State := { s with out := s.out ++ [o] }

/-- Apply an operation for each element of a list, first element first. -/
def State.each {α : Type} (s : State) (l : List α) (f : State → α → State) : State := l.foldl f s

/-- Apply an operation when a condition holds. -/
def State.when (s : State) (c : Bool) (f : State → State) : State := if c then f s else s

/-- Folio of the ruled time (R37). -/
def State.folio (s : State) : Nat := s.ruling.line / 1024

/-- Line within the folio. -/
def State.lineInFolio (s : State) : Nat := s.ruling.line % 1024

/-- The tick at which ruled time is read now: a free value, because a command carries no instant within its line
(assumption 4), but none before an earlier reading of the line (R38); 0 until the flywheel runs. -/
def State.tickNow (s : State) : Nat :=
  if s.ruling.running then s.ruling.tick + s.freeNow.toNat % (1024 - s.ruling.tick) else 0

/-- A ruled time of the current line, as it is read now. -/
def State.stamp (s : State) : BitVec 64 := BitVec.ofNat 64 (s.ruling.line * 1024 + s.tickNow)

/-- The state once ruled time has been read: the free value is drawn, and no later reading of the line is earlier. -/
def State.timed (s : State) : State := { s.drew with ruling := { s.ruling with tick := s.tickNow } }

/-- The state once a tick of the current line has passed. -/
def State.passed (s : State) (tick : Nat) : State := { s with ruling := { s.ruling with tick := max s.ruling.tick tick } }

/-- Whether the Fatal latch is set (R518). -/
def State.fatal (s : State) : Bool := s.on BLT_STATUS_FATAL

end Sys2Proof.Machine
end

