-- ==== Sys2Proof/Machine/Blotter.lean ====
section
/-! DEFINITION. The Blotter (chapter 18): reporting an event is ONE shared operation, `report`, which every unit of the
node calls; and the commands of the Blotter's own registers. -/

namespace Sys2Proof.Machine

/-! ### Events to Scribes -/

/-- Queue an event descriptor for the rubric of Scribe `k` (R344): discarded outside the subscription mask, dropped
and counted when 64 wait. -/
def queueEvent (s : State) (k : Nat) (d : BitVec 64) : State :=
  let h := s.get (MBX_SCRIBE_HANDLE k)
  match Tab.find s.rubrics h with
  | none => s
  | some r =>
    let c := d.toNat % 256
    if h = 0 || !bit r.mask.toNat c || 31 < c then s else
    if r.events.length < 64 then { s with rubrics := Tab.set s.rubrics h { r with events := r.events ++ [d] } }
    else { s with
      rubrics := Tab.set s.rubrics h { r with eventsLost := r.eventsLost + 1 }
      blotter := { s.blotter with overflowDue := s.blotter.overflowDue ++ [k] } }

/-- An event descriptor: the class in bits 7:0 and data above (R344). -/
def descriptor (cls data : Nat) : BitVec 64 := BitVec.ofNat 64 (cls + 256 * data)

/-! ### Masters (Table 18-4) -/

/-- MASTER of a link's logical device. -/
def linkMaster (port sub ld : Nat) : Nat := port * 256 + sub * 64 + ld
/-- MASTER of a nib core. -/
def nibMaster (g : Nat) : Nat := 0x4000 + g
/-- MASTER of an internal unit: Scribe 0 to 7, 8 move, 9 reseal, 0xA management DMA, 0xB JTAG, 0xC queue, 0xD blanking. -/
def internalMaster (k : Nat) : Nat := 0x8000 + k

/-- An event as its source reports it. -/
structure Event where
  type : Nat
  source : Nat
  master : Option Nat := none
  access : Nat := 0
  dpa : Option Nat := none
  media : Option Nat := none
  pbr : Nat := 0
  detail : BitVec 64 := 0
  /-- Severity of an injected event (R507). -/
  injected : Option Nat := none
  /-- Severity of one case of an event whose rule gives it a class other than its type's. -/
  severity : Option Nat := none
  /-- The source's capture queue is full when the event arrives (R513). -/
  queueFull : Bool := false
  deriving DecidableEq, Repr

/-- The privileged sources of Table 18-1. -/
def privileged (src : Nat) : Bool :=
  src < 256 || (320 ≤ src && src < 384) || (404 ≤ src && src < 430) || src == 443

/-- The logical devices that exist: every PRT_LD entry with VALID set, as (port, LD). -/
def State.lds (s : State) : List (Nat × Nat) :=
  s.desk.filterMap fun (a, w) =>
    if 0xC0000 ≤ a ∧ a < 0xD0000 ∧ 0x100 ≤ a % 0x400 ∧ a % 0x400 < 0x180 ∧ w.getLsbD 63 then
      some ((a - 0xC0000) / 0x400, (a % 0x400 - 0x100) / 8) else none

/-- Whether a record concerns a logical device (R511). -/
def concerns (s : State) (r : Record) (port ld : Nat) : Bool :=
  let sub := s.get (PRT_LD_SUB_LINK port ld)
  let mb := 16 * (4 * port + sub) + ld
  let byMaster := r.masterValid && r.master == linkMaster port sub ld
  let byDpa := r.dpaValid && (Tab.at s.fabric.holders (r.dpa % 2 ^ 42 / 2 ^ 21) []).contains (16 * port + ld)
  let byAdmin := !r.masterValid && !r.dpaValid && 2 ≤ r.severity && s.flag (MBX_ADMIN_ALL (mb / 64)) (mb % 64)
  byMaster || byDpa || byAdmin

/-- Place a record in the CXL event log its class names, 64 records to a log, for every device it concerns
(R511, Table 18-3). -/
def toCxlLogs (s : State) (r : Record) : State :=
  if 4 ≤ r.severity then s else
  let log := if r.severity < 2 then 0 else r.severity - 1
  s.each (s.lds.filter fun (p, d) => concerns s r p d) fun s (p, d) =>
    let k := 8 * (16 * p + d) + log
    let b := s.blotter
    let l := Tab.at b.cxlLogs k []
    if l.length < 64 then { s with blotter := { b with cxlLogs := Tab.set b.cxlLogs k (l ++ [r]) } }
    else { s with blotter := { b with cxlOverflow := Tab.set b.cxlOverflow k (Tab.at b.cxlOverflow k 0 + 1) } }

/-- ALERT_N follows the pending classes that ALERT_CLASSES holds, and stays low in the Fatal state (R510). -/
def driveAlert (s : State) : State :=
  let pending := (List.range 5).any fun k => s.flag BLT_ALERT_CLASSES k && s.flag BLT_CTRL_ALERT_CLASSES k
  { s with pins := { s.pins with alertN := !pending && !s.fatal } }

/-- The severity in force for an event type: a write to BLT_SEVERITY applies from the next line (R507, Table 18-8). -/
def severityOf (s : State) (t : Nat) : Nat :=
  match Tab.find s.blotter.sevChange t with
  | some (l, old) => if l = s.ruling.line then old else s.get (BLT_SEVERITY_SEVERITY t)
  | none => s.get (BLT_SEVERITY_SEVERITY t)

/-- Count a record of class `c` in the running minute (Table 18-3, Table 19-3). -/
def countMinute (s : State) (c : Nat) : State :=
  { s with colophon := { s.colophon with classCounts := s.colophon.classCounts.modify c (· + 1) } }

/-- Send a body to the Colophon, to be committed later (R525). -/
def toColophon (s : State) (b : ColBody) : State :=
  { s with colophon := { s.colophon with waiting := s.colophon.waiting ++ [b] } }

/-- Add to a port's lifetime counters (Table 19-4). -/
def countPort (s : State) (p uncorrectable replays lanes downs : Nat) : State :=
  let (a, b, c, d) := Tab.at s.colophon.life.portCounts p (0, 0, 0, 0)
  { s with colophon := { s.colophon with life := { s.colophon.life with
      portCounts := Tab.set s.colophon.life.portCounts p (a + uncorrectable, b + replays, c + lanes, d + downs) } } }

/-- Viral on every Host and Peer link in L0 (R297). -/
def sendViral (s : State) : State :=
  s.each (List.range s.variant.ports) fun s p =>
    let role := s.get (PRT_PORT_CTRL_ROLE p)
    let up := [s.on (LAN_PORT_STATUS_LINK_UP_0 p), s.on (LAN_PORT_STATUS_LINK_UP_1 p),
      s.on (LAN_PORT_STATUS_LINK_UP_2 p), s.on (LAN_PORT_STATUS_LINK_UP_3 p)]
    if role < 2 ∧ up.any id then
      (s.each (List.range 4) fun s k => if up.getD k false then s.send (.viral p k) else s).put (PRT_PORT_CTRL_VIRAL_SENT p) 1
    else s

/-- A core that the Fatal sequence stops: a nib core loses its memory with its cluster (R310, R426). -/
def stopOfFatal (k : Nat) (c : CoreState) : CoreState :=
  if k < 8 then { c with running := false, wait := none, outstanding := [] }
  else { nextSlot := c.nextSlot, queue := c.queue, stale := true }

/-- A nib cluster drops: its cores are off, but for those parked, and its clock is stopped. -/
def haltCluster (s : State) (c : Nat) : State :=
  let s := ((s.put (PWR_DOMAIN_STATUS (20 + c)) 0).put (NIB_CLUSTER_POWERED c) 0).put (NIB_CLUSTER_CLOCK c) 0
  let s := ((s.put (CLK_DOMAIN_SOURCE (16 + c)) 0).put (CLK_DOMAIN_ACTIVE (16 + c)) 0).put (CLK_DOMAIN_PENDING (16 + c)) 0
  s.each ((List.range 16).map (16 * c + ·)) fun s g =>
    let s := (s.put (NIB_CORE_PAIR g) 0).put (NIB_CORE_KERNEL g) 0
    if s.get (NIB_CORE_STATE g) = 4 then s else s.put (NIB_CORE_STATE g) 0

/-- Steps 3 and 4 of Table 18-7: Scribes and nib cores halt, the move and reseal engines stop, request pools are
discarded, towers enter self-refresh, nib clusters drop; a fuse word's pulse stops (R499), a boot stops (Table 21-6) and
SPDM sessions end (R582). -/
def haltAll (s : State) : State :=
  let gs := List.range s.variant.channels
  let chan (g : Nat) : Nat × Chan := (g, { Tab.at s.chans g {} with pool := [], ingress := [], issued := [], reread := [], selfRefresh := true })
  let s := { s with
    cores := s.cores.map fun (k, c) => (k, stopOfFatal k c)
    chans := gs.map chan
    ductus := { s.ductus with moves := [] }
    sealing := { s.sealing with reseal := none }
    fuses := { s.fuses with program := none }
    mgmt := { s.mgmt with sessions := [], spdm := [] }
    clocks := { s.clocks with switches := s.clocks.switches.filter fun (n, _) => n < 16 }
    boot := if s.boot.stage = BootStage.running then s.boot else { s.boot with stage := BootStage.stopped } }
  let s := s.each (List.range s.variant.towers) fun s t =>
    if s.get (PWR_DOMAIN_STATUS (16 + t)) = 2 then s.put (PWR_DOMAIN_STATUS (16 + t)) 4 else s
  s.each (List.range s.variant.clusters) haltCluster

/-- The Fatal sequence of Table 18-7, for the first Fatal record of a boot, the cause. -/
def fatalSequence (s : State) (r : Record) (before : List Record) : State :=
  let s := (s.put BLT_STATUS_FATAL 1).put BLT_STATUS_CAUSE_TYPE r.type |>.put BLT_STATUS_CAUSE_SOURCE r.source
  let s := { s with
    colophon := { s.colophon with fatalShadow := true }
    pins := { s.pins with faultN := false, alertN := false }
    blotter := { s.blotter with fatalRecords := 0, fatalTime := r.time } }
  let s := haltAll (sendViral s)
  (before.reverse.take 15).reverse.foldl (fun s q => toColophon s (.blotter s.stamp q)) s
    |> fun s => toColophon s.timed (.blotter s.stamp r)

/-- Act on a record by its severity (Table 18-3, R508 to R510, R518). In the Fatal state later events are logged
without action, and the first three later Fatal records, of the 1 ms (1,000 lines) after the cause, go to the Colophon
(R519, Table 18-7). -/
def actOn (s : State) (r : Record) (before : List Record) : State :=
  if s.fatal then
    if r.severity = 4 ∧ s.blotter.fatalRecords < 3 ∧ r.time.toNat ≤ s.blotter.fatalTime.toNat + 1024000 then
      toColophon { s with blotter := { s.blotter with fatalRecords := s.blotter.fatalRecords + 1 } } (.blotter r.time r)
    else s
  else
    let s := toCxlLogs (countMinute s r.severity) r
    let s := if s.flag BLT_CTRL_EVENT_CLASSES r.severity && r.severity < 4 then
        queueEvent s (s.get BLT_CTRL_EVENT_SCRIBE)
          (BitVec.ofNat 64 (4 + r.type * 2 ^ 8 + r.severity * 2 ^ 17 + r.source * 2 ^ 20 + r.seq % 2 ^ 32 * 2 ^ 32))
      else s
    let s := if s.flag BLT_CTRL_ALERT_CLASSES r.severity then driveAlert (s.setFlag BLT_ALERT_CLASSES r.severity) else s
    if r.severity = 2 then toColophon s (.blotter r.time r)
    else if r.severity = 4 then fatalSequence s r before
    else s

/-- Make the record of an event and act on it (R514, R515). -/
def record (s : State) (e : Event) (sev : Nat) (cap : Bool) : State :=
  let b := s.blotter
  let r : Record :=
    { time := s.stamp, seq := b.nextSeq, type := e.type, severity := sev, quality := s.get RUL_STATUS_QUALITY
      source := e.source, capture := cap, overflow := s.on (BLT_SOURCE_OVERFLOW e.source)
      injected := e.injected.isSome, masterValid := e.master.isSome, dpaValid := e.dpa.isSome
      mediaValid := e.media.isSome, access := e.access, master := e.master.getD 0xC000, pbr := e.pbr
      dpa := e.dpa.getD 0, media := e.media.getD 0, count := Tab.at b.absorbed e.source 0, detail := e.detail }
  let before := b.log
  let log := b.log ++ [r]
  let s := { s.timed with blotter := { b with
      nextSeq := b.nextSeq + 1, log := log.drop (log.length - 2048), absorbed := Tab.del b.absorbed e.source } }
  let s := (s.put BLT_STATUS_NEXT_SEQ (b.nextSeq + 1)).inc (BLT_SEVERITY_RECORDED e.type)
  actOn s r before

/-- Set the latch of a source with an event (R512). -/
def latch (s : State) (e : Event) (sev : Nat) : State :=
  let s := (s.put (BLT_SOURCE_LATCHED e.source) 1).put (BLT_SOURCE_FIRST_TYPE e.source) e.type
    |>.put (BLT_SOURCE_FIRST_SEQ e.source) s.blotter.nextSeq
  { s with blotter := { s.blotter with
      latchClass := Tab.set s.blotter.latchClass e.source sev
      latchFolio := Tab.set s.blotter.latchFolio e.source s.folio } }

/-- Count an event in its source's latch without a record (R512, R513). -/
def absorb (s : State) (src : Nat) : State :=
  let s := (s.put (BLT_SOURCE_OVERFLOW src) 1).inc (BLT_SOURCE_COUNT src)
  { s with blotter := { s.blotter with absorbed := Tab.set s.blotter.absorbed src (Tab.at s.blotter.absorbed src 0 + 1) } }

/-- A record that bypasses every latch and whose source is the Blotter itself (R503, R513). -/
def recordOwn (s : State) (type : Nat) (detail : Nat) : State :=
  record s { type := type, source := 444, detail := BitVec.ofNat 64 detail } (severityOf s type) false

/-- Report an event (R502, R507, R512, R513). A masked
source reports nothing; a privileged source's event is always recorded, with a capture unless its queue is full; of
another source's events the latch absorbs those no worse than the latched one. -/
def reportOne (s : State) (e : Event) : State :=
  if s.on (BLT_SOURCE_WIRE_FAULT e.source) then s else
  let e := if e.injected.isSome ∧ defaultSeverity e.type = 7 then
    { e with type := 0x12B, detail := BitVec.ofNat 64 e.type } else e
  let sev := e.injected.getD (e.severity.getD (severityOf s e.type))
  let latched := s.on (BLT_SOURCE_LATCHED e.source)
  let worse := !latched || Tab.at s.blotter.latchClass e.source 0 < sev
  if privileged e.source then
    if e.queueFull then
      let first := !(Tab.at s.blotter.captureFull e.source false)
      let s := absorb s e.source
      let s := { s with blotter := { s.blotter with captureFull := Tab.set s.blotter.captureFull e.source true } }
      let s := record (if worse then latch s e sev else s) e sev false
      if first then recordOwn s 0x122 e.source else s
    else
      let s := { s with blotter := { s.blotter with captureFull := Tab.del s.blotter.captureFull e.source } }
      record (if worse then latch s e sev else s) e sev true
  else if worse then record (latch s e sev) e sev false
  else absorb s e.source

/-- Record the Notice of each event queue that has just overflowed (R344, event 0xB5, by the Scribe's source). A
Notice whose own event finds the queue full again makes no further Notice (assumption 12). -/
def drainOverflow (s : State) : State :=
  match s.blotter.overflowDue with
  | [] => s
  | due =>
    let s := { s with blotter := { s.blotter with overflowDue := [] } }
    let s := s.each due fun s k => reportOne s { type := 0xB5, source := 404 + k }
    { s with blotter := { s.blotter with overflowDue := [] } }

/-- Report an event: the ONE operation by which every unit of the node reports. -/
def report (s : State) (e : Event) : State := drainOverflow (reportOne s e)

/-- Send an event to Scribe `k` (R344), with the Notice of a full queue. -/
def postEvent (s : State) (k : Nat) (d : BitVec 64) : State := drainOverflow (queueEvent s k d)

/-- Report an event of a type from a source with nothing else to say. -/
def event (s : State) (type source : Nat) (detail : Nat := 0) : State :=
  report s { type := type, source := source, detail := BitVec.ofNat 64 detail }

/-- Report an event only the first time in a folio for its unit (the "first in a folio" rows of the event tables). -/
def eventOnce (s : State) (type source unit : Nat) (detail : Nat := 0) : State :=
  let k := (s.folio, type, unit)
  if s.blotter.firstSeen.contains k then s else
  let keep := s.blotter.firstSeen.filter fun x => x.1 == s.folio
  event { s with blotter := { s.blotter with firstSeen := keep ++ [k] } } type source detail

/-- An event that a rule asks for and no event table lists: its type is a free value (assumption 11), its severity the
rule's, its source the reporting unit's. -/
def openEvent (s : State) (source sev : Nat) (master : Option Nat := none) (access : Nat := 0) (detail : Nat := 0) : State :=
  report s.drew { type := s.freeNow.toNat % 384, source := source, severity := some sev, master := master, access := access
                  detail := BitVec.ofNat 64 detail }

/-- A violation whose address is not a DPA, an access to the desk or to a BAR (R513, R516, Table 18-5): its address
stands in DETAIL (assumption 71). -/
def deskRefused (s : State) (master access addr : Nat) : State :=
  report s { type := 0x129, source := 443, master := some master, access := access, detail := BitVec.ofNat 64 addr }

/-- A Notice that a rule asks for and no event table lists (R11, R12, R30). -/
def notice (s : State) (source : Nat) : State := openEvent s source 0

/-! ### The Blotter's commands -/

/-- BLOTTER_REPORT (R512): a source reports an event. -/
def execBlotterReport (type : Fin 384) (source : Fin 608) (master : Option (BitVec 16)) (access : Fin 10)
    (dpa : Option (BitVec 52)) (media : Option (BitVec 40)) (detail : BitVec 64) (queueFull : Bool) (s : State) :
    Host.Outcome State Fault Refusal :=
  .next (if defaultSeverity type < 5 ∧ ¬absentUnit s.variant .BLT_SOURCE source 0 then
    report s { type := type, source := source, master := master.map BitVec.toNat, access := access
               dpa := dpa.map BitVec.toNat, media := media.map BitVec.toNat, detail := detail, queueFull := queueFull }
  else s)

/-- The event groups a source reports (Table 18-1). -/
def sourceGroups (src : Nat) : List Nat :=
  if src < 256 then [3, 4] else if src < 320 then [8] else if src < 384 then [9] else if src < 400 then [12]
  else if src < 404 then [3] else if src < 412 then [11] else if src < 429 then [7] else if src = 429 then [5]
  else if src = 430 then [5, 12] else if src = 431 then [6] else if src = 432 then [9] else if src = 433 then [2]
  else if src = 434 then [13] else if src < 437 then [14] else if src = 437 then [15] else if src = 438 then [17]
  else if src = 439 then [16] else if src = 440 then [11, 21] else if src = 441 then [22] else if src = 442 then [19]
  else if src < 445 then [18] else if src < 448 then [] else if src < 512 then [7] else if src < 608 then [18] else []

/-- Whether a source reports any event type whose default severity is Fatal (R503). -/
def guardsFatal (src : Nat) : Bool := (sourceGroups src).any fun g => (severityRows g).contains 4

/-- WIRE_FAULT (R503): a pair read equal on 8 samples; the source is masked until the next boot and the Blotter
records 0x120, or 0x121 for a source that can report Fatal, bypassing every latch. -/
def execWireFault (source : Fin 608) (s : State) : Host.Outcome State Fault Refusal :=
  .next (if s.on (BLT_SOURCE_WIRE_FAULT source) || absentUnit s.variant .BLT_SOURCE source 0 then s else
    let s := (s.put (BLT_SOURCE_WIRE_FAULT source) 1).inc BLT_STATUS_WIRE_FAULTS
    drainOverflow (recordOwn s (if guardsFatal source then 0x121 else 0x120) source))

/-- SEVERITY_WRITE (R507): sets an event type's class from the next line; a Fatal default cannot be lowered. -/
def writeSeverity (s : State) (t : Nat) (w : BitVec 64) : State :=
  let v := w.toNat % 8
  if defaultSeverity t = 4 ∧ v < 4 then event s 0x12A 444 t
  else if 4 < v then notice s 444
  else
    let old := severityOf s t
    let s := s.put (BLT_SEVERITY_SEVERITY t) v
    { s with blotter := { s.blotter with sevChange := Tab.set s.blotter.sevChange t (s.ruling.line, old) } }

/-- SEVERITY_WRITE (R507). -/
def execSeverityWrite (type : Fin 384) (value : BitVec 64) (s : State) : Host.Outcome State Fault Refusal :=
  .next (writeSeverity s type value)

/-- The master of a desk write that comes from a Scribe, or over JTAG (Table 18-4). -/
def deskMaster (writer : Option (Fin 8)) : Nat := internalMaster (match writer with | some k => k.val | none => 0xB)

/-- Inject an event (R507, Table 18-8): only while debug is open; otherwise a refused write of BLT_INJECT. -/
def injectEvent (s : State) (writer : Option (Fin 8)) (w : BitVec 64) : State :=
  if !s.on FUS_STATUS_DEBUG_OPEN then deskRefused s (deskMaster writer) 8 0x050020 else
  let sev := bitsOf w.toNat 20 3
  let src := bitsOf w.toNat 0 10
  if 4 < sev ∨ 608 ≤ src then notice s 444 else
  report s { type := bitsOf w.toNat 11 9, source := src, injected := some sev }

/-- EVENT_INJECT (R507). -/
def execEventInject (writer : Option (Fin 8)) (value : BitVec 64) (s : State) : Host.Outcome State Fault Refusal :=
  .next (injectEvent s writer value)

/-- Clear a latch: LATCHED, OVERFLOW and COUNT (Table 18-12). -/
def clearLatch (s : State) (src : Nat) : State :=
  let s := ((s.put (BLT_SOURCE_LATCHED src) 0).put (BLT_SOURCE_OVERFLOW src) 0).put (BLT_SOURCE_COUNT src) 0
  { s with blotter := { s.blotter with
      latchClass := Tab.del s.blotter.latchClass src, latchFolio := Tab.del s.blotter.latchFolio src } }

/-- LATCH_CLEAR (R512): a write of 1 to BLT_SOURCE.CLEAR. -/
def execLatchClear (source : Fin 608) (s : State) : Host.Outcome State Fault Refusal := .next (clearLatch s source)

/-- LATCH_REARM (R512): at line 0 of a folio at least REARM_FOLIOS folios after a latch was set, it clears; never
with REARM_FOLIOS 0. -/
def execLatchRearm (source : Fin 608) (s : State) : Host.Outcome State Fault Refusal :=
  .next (
    let n := s.get BLT_CTRL_REARM_FOLIOS
    match Tab.find s.blotter.latchFolio source with
    | some f => if n ≠ 0 ∧ s.lineInFolio = 0 ∧ f + n ≤ s.folio then clearLatch s source else s
    | none => s)

/-- ALERT_CLEAR (R510): a write of ones to BLT_ALERT clears those bits and releases ALERT_N unless another enabled
bit remains set. -/
def clearAlert (s : State) (w : BitVec 64) : State :=
  driveAlert (s.put BLT_ALERT_CLASSES (s.get BLT_ALERT_CLASSES &&& (31 - w.toNat % 32)))

/-- ALERT_CLEAR (R510). -/
def execAlertClear (value : BitVec 64) (s : State) : Host.Outcome State Fault Refusal := .next (clearAlert s value)

end Sys2Proof.Machine
end

