-- ==== Sys2Proof/Machine/Accounts.lean ====
section
/-! DEFINITION. Accounts (chapter 6): shares, capacities, admission, windows, entitlement, urgency and the shortfall
rule. The commands that release held requests are in Fabric.lean. -/

namespace Sys2Proof.Machine

/-! ### Links -/

/-- A field of sub-link `k` of LAN_PORT_STATUS (Table 8-11). -/
def subFld (p k lo width : Nat) : Fld := { LAN_PORT_STATUS_LINK_UP_0 p with lo := 16 * k + lo, width := width }
def linkUpF (p k : Nat) : Fld := subFld p k 15 1
def linkStateF (p k : Nat) : Fld := subFld p k 12 3
def linkWidthF (p k : Nat) : Fld := subFld p k 9 3
def linkRateF (p k : Nat) : Fld := subFld p k 6 3
def linkReversedF (p k : Nat) : Fld := subFld p k 5 1
def linkDozeTxF (p k : Nat) : Fld := subFld p k 4 1
def linkDozeRxF (p k : Nat) : Fld := subFld p k 3 1
def linkActiveF (p k : Nat) : Fld := subFld p k 0 3

/-- Lanes of a width code of Table 8-11. -/
def widthLanes (c : Nat) : Nat := if c = 0 then 0 else 2 ^ (c - 1)
/-- Hundredths of GT/s of a MAX_RATE code. -/
def rateOf (c : Nat) : Nat := [250, 500, 800, 1600, 3200, 6400].getD c 0

/-- A sub-link is up in the sense of R291: in L0, Recovery, L1, L0p or half-doze. -/
def linkUp (s : State) (p k : Nat) : Bool := let c := s.get (linkStateF p k); c == 3 || c == 4 || c == 5

/-- Capacity of a link by its effective width (R182, R241); 0 when it is down. -/
def linkCapacity (s : State) (p k : Nat) : Nat :=
  if !linkUp s p k then 0 else
  let w := widthLanes (s.get (linkActiveF p k)) * rateOf (s.get (linkRateF p k)) / 6400
  if 16 ≤ w then 110000 else if 8 ≤ w then 55000 else 27500

/-! ### Channels -/

/-- Global channel `g` is in Normal state (Table 3-8). -/
def normalChan (s : State) (g : Nat) : Bool := decide (g < s.variant.channels) && s.get (CHN_REPAIR_STATE_STATE g) == 0
/-- It is in Normal or Erasure state. -/
def usableChan (s : State) (g : Nat) : Bool :=
  decide (g < s.variant.channels) && decide (s.get (CHN_REPAIR_STATE_STATE g) ≤ 1)
/-- The channels in Normal or Erasure state. -/
def usable (s : State) : List Nat := (List.range s.variant.channels).filter (usableChan s)

/-- A user rank of the channel uses the hot refresh interval (R119). -/
def hotChan (s : State) (g : Nat) : Bool :=
  s.get (CHN_REFRESH_HOT_RANKS g) % 2 ^ s.variant.layers != 0

/-- Capacity of a channel per line (Table 6-2), before throttling. -/
def chanCapacity (s : State) (g : Nat) (cool : Bool) : Nat :=
  let st := s.get (CHN_REPAIR_STATE_STATE g)
  if st = 5 ∨ s.variant.channels ≤ g then 0
  else if st = 2 ∨ (st = 4 ∧ 3 < s.get (CHN_REPAIR_STATE_CA_FAILED g)) then (if cool then 14700 else 14040)
  else if cool then 24500 else 23400

/-- The throttle steps the limiter asks of clusters and of channels (R436, Table 14-10). -/
def limiterNib (s : State) : Nat := min 15 (s.get PWR_CLASS_LIMIT_STEP - 1)
def limiterChannel (s : State) : Nat := s.get PWR_CLASS_LIMIT_STEP - 16

/-- The throttle step in force on a channel: the higher of the thermal and the limiter's request (R436, R444). -/
def channelStep (s : State) (g : Nat) : Nat := max (s.get (THM_TOWER_CHANNEL_STEP (g / 64))) (limiterChannel s)

/-- What a channel delivers per line now (R182). -/
def chanDeliverable (s : State) (g : Nat) : Nat :=
  chanCapacity s g (!hotChan s g) * (16 - channelStep s g) / 16

/-- The device's capacity (Table 6-2). -/
def deviceCapacity (s : State) : Nat := match s.variant with | .v2096 => 3000000 | _ => 6000000

/-- The channels of a DCT_SPREAD_SET slot. -/
def spreadSet (s : State) (n : Nat) : List Nat :=
  (List.range s.variant.channels).filter fun g => s.flag (DCT_SPREAD_SET_ALL n (g / 64)) (g % 64)

/-! ### Accounts -/

/-- The configured accounts (R176): every ACC_CFG with CLASS not 0. -/
def configured (s : State) : List Nat :=
  s.desk.filterMap fun (a, w) =>
    if 0x1A8000 ≤ a ∧ a < 0x1AFFE0 ∧ w.toNat / 2 ^ 62 ≠ 0 then some ((a - 0x1A8000) / 8) else none

/-- Every account: the configured ones and the four fixed ones of Table 6-1. -/
def accounts (s : State) : List Nat := configured s ++ [4092, 4093, 4094, 4095]

def acctClass (s : State) (a : Nat) : Nat := s.get (ACC_CFG_CLASS a)
def isHard (s : State) (a : Nat) : Bool := acctClass s a == 1
def isFirm (s : State) (a : Nat) : Bool := acctClass s a == 2
/-- Window length in lines (R178). -/
def window (s : State) (a : Nat) : Nat := 2 ^ s.get (ACC_CFG_WINDOW_LOG2 a)
/-- Guarantee in bytes per window. -/
def guarantee (s : State) (a : Nat) : Nat := 64 * s.get (ACC_RATE_GUARANTEE a)
/-- Effective guarantee in bytes (R190). -/
def effective (s : State) (a : Nat) : Nat := 64 * s.get (ACC_SERVICE_EFFECTIVE a)
/-- Ceiling in bytes per window; none when there is none (Table 6-6). -/
def ceilingOf (s : State) (a : Nat) : Option Nat :=
  let c := s.get (ACC_RATE_CEILING a)
  if c = 0xFFFFFF then none else some (64 * c)

def acct (s : State) (a : Nat) : Acct := Tab.at s.accounts.acct a {}
def setAcct (s : State) (a : Nat) (x : Acct) : State :=
  { s with accounts := { s.accounts with acct := Tab.set s.accounts.acct a x } }
def modAcct (s : State) (a : Nat) (f : Acct → Acct) : State := setAcct s a (f (acct s a))

/-- The account charged for an OWNER (R177); the default account where none matches (Table 6-1). -/
def accountOf (s : State) (owner : Nat) : Nat :=
  ((configured s).find? fun a => s.get (ACC_CFG_OWNER a) == owner).getD 4092

/-- OWNER of a link's logical device (Table 6-13). -/
def linkOwner (p k d : Nat) : Nat := p * 256 + k * 64 + d
/-- OWNER of a queue group. -/
def groupOwner (g : Nat) : Nat := 0x4000 + g
/-- OWNER of a nib cluster. -/
def clusterOwner (c : Nat) : Nat := 0x8000 + c

/-- Queue group of a pair (Table 12-17). -/
def pairGroup (s : State) (n : Nat) : Nat := bitsOf (Tab.at s.queues.pairs n {}).cfg.toNat 38 10
/-- OWNER of a pair. -/
def pairOwner (s : State) (n : Nat) : Nat := bitsOf (Tab.at s.queues.pairs n {}).cfg.toNat 16 16

/-- The account of a request's origin (R177). -/
def originAccount (s : State) (o : Origin) : Nat :=
  match o with
  | .link p k d _ _ => accountOf s (linkOwner p k (if s.get (PRT_PORT_CTRL_ROLE p) = 0 then d else 0))
  | .core c _ => if c < 8 then 4094 else accountOf s (clusterOwner ((c - 8) / 16))
  | .queue n => accountOf s (groupOwner (pairGroup s n))
  | .lentIn _ _ _ _ => 4095

/-- Service level of an account's requests (Table 4-1, R187). -/
def level (s : State) (a : Nat) : Nat :=
  let x := acct s a
  match acctClass s a with
  | 1 => if x.counted < x.ent then 1 else 3
  | 2 => if x.counted < x.ent then 2 else 3
  | _ => 4

/-- Pool class of an account (R106): the migration account and Scribe traffic are internal. -/
def poolClass (s : State) (a : Nat) : PoolClass :=
  if a = 4094 ∨ a = 4095 then .internal else
  match acctClass s a with | 1 => .hard | 2 => .firm | _ => .loose

/-- A request of `n` bytes reaches the account's regulator (R186). -/
def arrive (s : State) (a n : Nat) : State :=
  modAcct s a fun x => { x with arrived := x.arrived + n, waiting := x.waiting + n }

/-- Bytes counted at a column command (R180). -/
def count (s : State) (a n : Nat) : State :=
  modAcct s a fun x => { x with counted := x.counted + n, waiting := x.waiting - n }

/-- A request of `n` bytes leaves without a column command: refused, or served elsewhere (R186). -/
def leave (s : State) (a n : Nat) : State := modAcct s a fun x => { x with waiting := x.waiting - n }

/-- The node's own traffic: it arrives and is counted at once. -/
def chargeNow (s : State) (a n : Nat) : State := count (arrive s a n) a n

/-- Counting 64 more bytes would take the account above its ceiling (R180). -/
def overCeiling (s : State) (a : Nat) : Bool :=
  match ceilingOf s a with | some c => decide (c < (acct s a).counted + 64) | none => false

/-- Set the service level and urgency of every waiting request of an account again (R108). -/
def resetLevels (s : State) (a : Nat) : State :=
  let set (r : Req) : Req :=
    if r.access.account = a then { r with level := level s a, urgency := s.get (ACC_SERVICE_URGENCY a) } else r
  let setW (w : WLine) : WLine :=
    if w.account = a then { w with level := w.fixedLevel.getD (level s a), urgency := s.get (ACC_SERVICE_URGENCY a) } else w
  { s with chans := s.chans.map fun (g, c) => (g, { c with pool := c.pool.map set, writes := c.writes.map setW }) }

/-! ### Shares and admission -/

/-- The terms of an account as its images give them. -/
structure Terms where
  account : Nat
  cls : Nat
  win : Nat
  standing : Nat
  slot : Nat
  urg : Nat
  owner : Nat
  ceiling : Nat
  guarantee : Nat
  deriving DecidableEq, Repr

/-- Read the terms off an ACC_CFG and an ACC_RATE image (Tables 6-5 and 6-6). -/
def termsOf (a : Nat) (cfg rate : BitVec 64) : Terms :=
  let c := cfg.toNat
  let r := rate.toNat
  { account := a, cls := bitsOf c 62 2, win := 2 ^ bitsOf c 59 3, standing := bitsOf c 47 12, slot := bitsOf c 38 9
    urg := bitsOf c 34 4, owner := bitsOf c 16 16, ceiling := bitsOf r 24 24, guarantee := bitsOf r 0 24 }

/-- ⌈n ÷ d⌉. -/
def ceilDiv (n d : Nat) : Nat := (n + d - 1) / d

/-- Rate of an account, bytes per line (R181). -/
def Terms.rate (t : Terms) : Nat := ceilDiv (64 * t.guarantee) t.win

/-- Share of an account on channel `g`, with the channels that count of its spread set and those in Normal or Erasure
(R181). -/
def Terms.share (t : Terms) (spread use : List Nat) (g : Nat) : Nat :=
  if t.cls = 1 then (if spread.contains g then ceilDiv (64 * t.guarantee) (t.win * spread.length) else 0)
  else if t.cls = 2 then (if use.contains g then ceilDiv (64 * t.guarantee) (t.win * use.length) else 0)
  else 0

/-- The link of an OWNER of kind 0b00, as 4 × port + sub-link. -/
def ownerLink (o : Nat) : Option Nat := if o / 2 ^ 14 = 0 then some (bitsOf o 8 6 * 4 + bitsOf o 6 2) else none

/-- An OWNER uses no reserved bit (Table 6-13). -/
def ownerOk (o : Nat) : Bool :=
  match o / 2 ^ 14 with
  | 0 => bitsOf o 4 2 == 0
  | 2 => bitsOf o 4 10 == 0
  | 3 => bitsOf o 2 12 == 0
  | _ => true

/-- The field rules of R178 and R179 on proposed terms. -/
def termsOk (s : State) (t : Terms) : Bool :=
  decide (4 ≤ t.win ∧ t.win ≤ 64) && ownerOk t.owner && decide (t.urg < 2 ∨ 8 ≤ t.urg)
    && decide (t.guarantee ≤ t.ceiling) && (t.cls != 3 || t.guarantee == 0)
    && (if t.cls = 1 then !(spreadSet s t.slot).isEmpty else t.slot == 0) && (t.cls == 2 || t.urg == 0)

/-- The terms in force of an account. -/
def currentTerms (s : State) (a : Nat) : Terms :=
  termsOf a (s.word (ACC_CFG_CLASS a).addr) (s.word (ACC_RATE_CEILING a).addr)

/-- What an admission needs and has, resource by resource: channels ascending, then links, then the device, as
(RESOURCE, INDEX, need, capacity) (R183). -/
def needs (s : State) (ts : List Terms) (cool : Bool) : List (Nat × Nat × Nat × Nat) :=
  let use := usable s
  let paid := ts.filter fun t => t.cls = 1 ∨ t.cls = 2
  let sum (f : Terms → Nat) : Nat := (paid.map f).foldl (· + ·) 0
  let spread (t : Terms) : List Nat := if t.cls = 1 then spreadSet s t.slot else []
  ((List.range s.variant.channels).map fun g =>
    (1, g, sum (fun t => t.share (spread t) use g), chanCapacity s g cool))
  ++ ((List.range (4 * s.variant.ports)).map fun k =>
    (2, k, sum (fun t => if ownerLink t.owner = some k then t.rate else 0), linkCapacity s (k / 4) (k % 4)))
  ++ [(3, 0, sum Terms.rate, deviceCapacity s)]

/-- Write ACC_ADMIT_STATUS (Table 6-11). -/
def admitStatus (s : State) (st res idx exc acc : Nat) : State :=
  ((((s.put ACC_ADMIT_STATUS_STATUS st).put ACC_ADMIT_STATUS_RESOURCE res).put ACC_ADMIT_STATUS_INDEX idx).put
    ACC_ADMIT_STATUS_EXCESS exc).put ACC_ADMIT_STATUS_ACCOUNT acc

/-- The account-admission primitive (acct.admit) (R183): the records as (ACC_CFG image, ACC_RATE image) pairs. Answers Table 6-3's status. -/
def admitAccount (s : State) (records : List (BitVec 64 × BitVec 64)) (cool : Bool) : State × Nat :=
  let ts := records.map fun (c, r) => termsOf (bitsOf c.toNat 0 12) c r
  let bad := ts.find? fun t => 4092 ≤ t.account ∨ (t.cls ≠ 0 ∧ !termsOk s t) ∨ 1 < (ts.filter (·.account == t.account)).length
  match bad with
  | some t => (admitStatus s 2 0 0 0 t.account, 2)
  | none =>
    let kept := ((configured s).filter fun a => !(ts.any fun t => t.account == a)).map (currentTerms s)
    let proposed := kept ++ ts.filter fun t => t.cls ≠ 0
    let owners := proposed.map (·.owner) ++ [0xC000, 0xC001, 0xC002, 0xC003]
    let dup := ts.find? fun t => t.cls ≠ 0 ∧ 1 < (owners.filter (· == t.owner)).length
    match dup with
    | some t => (admitStatus s 3 0 0 0 t.account, 3)
    | none =>
      if s.accounts.admitted.isSome then (admitStatus s 4 0 0 0 0, 4) else
      match (needs s proposed cool).find? fun (_, _, n, c) => decide (c < n) with
      | some (res, idx, n, c) => (admitStatus s 1 res idx (n - c) 0, 1)
      | none =>
        let s := { s with accounts := { s.accounts with
            admitted := some (records, cool, (s.ruling.line / 64 + 1) * 64) } }
        (admitStatus s 0 0 0 0 0, 0)

/-- The images an account has from its next window on: those of an adjust that waits for it, or those in force. -/
def nextImages (s : State) (a : Nat) : BitVec 64 × BitVec 64 :=
  (acct s a).adjust.getD (s.word (ACC_CFG_CLASS a).addr, s.word (ACC_RATE_CEILING a).addr)

/-- The adjust primitive (R185): a ceiling, standing or urgency source changes, or a guarantee falls; the change waits
for the account's next window. -/
def adjust (s : State) (a : Nat) (cfg rate : BitVec 64) : State × Nat :=
  let old := termsOf a (nextImages s a).1 (nextImages s a).2
  let new := termsOf a cfg rate
  let ok := decide (a < 4092) && old.cls != 0 && new.cls == old.cls && new.win == old.win && new.slot == old.slot
    && new.owner == old.owner && decide (new.guarantee ≤ old.guarantee) && termsOk s new
  if ok then (modAcct s a fun x => { x with adjust := some (cfg, rate) }, 0) else (s, 2)

/-- Place configuration and rate images in an account's registers. -/
def setTerms (s : State) (a : Nat) (cfg rate : BitVec 64) : State :=
  (s.setWord (ACC_CFG_CLASS a).addr (BitVec.ofNat 64 (cfg.toNat / 2 ^ 34 * 2 ^ 34 + bitsOf cfg.toNat 16 16 * 2 ^ 16))).setWord
    (ACC_RATE_CEILING a).addr (BitVec.ofNat 64 (bitsOf rate.toNat 0 48))

/-- Recompute the account reservation cells of the switch buffer (Table 9-6). -/
def reserveCells (s : State) : State :=
  let cells := ((configured s).filter fun a => isHard s a || isFirm s a).foldl
    (fun n a => n + ceilDiv (2 * (currentTerms s a).rate) 64) 0
  let port := s.get PRT_BUFFER_PORT_RESERVED
  (s.put PRT_BUFFER_ACCOUNT_RESERVED cells).put PRT_BUFFER_SHARED_FREE (524288 - port - cells)

/-- One record of an accepted set takes effect (R183, R184): class 0 removes the account; the channels of an account that was
hard before count as they did until an evaluation (R181). -/
def applyTerms (s : State) (c r : BitVec 64) : State :=
  let a := bitsOf c.toNat 0 12
  let t := termsOf a c r
  if t.cls = 0 then
    let s := (s.setWord (ACC_CFG_CLASS a).addr (resetAt s.variant (ACC_CFG_CLASS a).addr)).setWord
      (ACC_RATE_CEILING a).addr 0
    let s := (s.setWord (ACC_SERVICE_EFFECTIVE a).addr 0).setFlag (ACC_REDUCED_ALL (a / 64)) (a % 64) false
    { s with accounts := { s.accounts with
        acct := Tab.del s.accounts.acct a, counting := Tab.del s.accounts.counting a } }
  else
    let fresh := acctClass s a = 0
    let wasHard := isHard s a
    let s := (setTerms s a c r).put (ACC_SERVICE_EFFECTIVE a) t.guarantee
    let s := if fresh then modAcct s a fun x => { x with lines := 1 } else s
    if wasHard then s else
    { s with accounts := { s.accounts with counting := Tab.set s.accounts.counting a (spreadSet s t.slot) } }

/-- An accepted set takes effect (R184, R292): every record is applied at once. -/
def applyAdmitted (s : State) : State :=
  match s.accounts.admitted with
  | none => s
  | some (records, cool, due) =>
    if s.ruling.line < due ∨ s.ruling.line % 64 ≠ 0 then s else
    let s := { s with accounts := { s.accounts with admitted := none } }
    let s := s.each records fun s x => applyTerms s x.1 x.2
    let s := reserveCells (s.putB ACC_CTRL_ASSUME_COOL cool)
    s.each (List.range 8) fun s k => postEvent s k (descriptor 7 s.ruling.line)

/-- ADMIT_TAKE_EFFECT (R184). -/
def execAdmitTakeEffect (s : State) : Host.Outcome State Fault Refusal := .next (applyAdmitted s)

/-! ### Windows -/

/-- Accrual of an account on one line (R186). -/
def accrue (s : State) (a : Nat) : State :=
  let e := effective s a
  modAcct s a fun x => { x with entFrom := x.ent, ent := min e (min x.arrived (x.ent + ceilDiv e (window s a))) }

/-- The current line's accrual is made again after EFFECTIVE has changed on it (R190). -/
def accrueAgain (s : State) (a : Nat) : State := accrue (modAcct s a fun x => { x with ent := x.entFrom }) a

/-- Set the urgency in force, capped at 2 while URG_CAPPED is set (R195). -/
def setUrgency (s : State) (a u : Nat) : State :=
  s.put (ACC_SERVICE_URGENCY a) (if s.on (ACC_SERVICE_URG_CAPPED a) then min u 2 else u)

/-- Urgency at a window's end and the next one's start (R195): 64 windows at 3 cap the account; a whole window with the
source below 3 lifts the cap; a held change takes effect. A first change that the line's own edge has just sampled is the
new window's. -/
def urgencyWindow (s : State) (a : Nat) : State :=
  let x := acct s a
  let three := if s.get (ACC_SERVICE_URGENCY a) = 3 then x.urgThree + 1 else 0
  let lift := s.on (ACC_SERVICE_URG_CAPPED a) && x.urgBelow
  let s := setAcct s a { x with
    urgThree := three, urgBelow := decide (x.urgNow < 3), urgChanged := x.urgSoon.isSome || x.urgPending.isSome, urgPending := none }
  let s := if lift then (s.put (ACC_SERVICE_URG_CAPPED a) 0).put (ACC_SERVICE_URGENCY a) x.urgNow else s
  let s := match x.urgPending with | some u => setUrgency s a u | none => s
  if 64 ≤ three then
    event (((modAcct s a fun x => { x with urgThree := 0 }).put (ACC_SERVICE_URG_CAPPED a) 1).put (ACC_SERVICE_URGENCY a) 2)
      0x63 431 a
  else s

/-- MSI-X of an account's event (R196): at most one in every MISS_HOLDOFF lines. -/
def missMsix (s : State) (a : Nat) : State :=
  let f (lo w : Nat) : Fld := { ACC_VECTOR_E0_ENABLE (a / 4) with lo := 16 * (a % 4) + lo, width := w }
  let clear := match (acct s a).msiLine with
    | some l => decide (l + s.get ACC_CTRL_MISS_HOLDOFF ≤ s.ruling.gen) | none => true
  if s.on (f 15 1) && clear then
    (modAcct s a fun x => { x with msiLine := some s.ruling.gen }).send (.msix (s.get (ACC_CFG_OWNER a)) (s.get (f 0 12)))
  else s

/-- The judgement of the window that waits for the end of its grace line (R188, R62, R196). -/
def judgeMiss (s : State) (a : Nat) : State :=
  let x := acct s a
  match x.grace with
  | none => s
  | some (e, c, jumped) =>
    let s := modAcct s a fun x => { x with grace := none }
    if e ≤ c + x.counted then s else
    let s := ((s.inc (ACC_SERVICE_MISSES a)).put (ACC_SERVICE_MISSED a) 1).setFlag (ACC_MISS_ALL (a / 64)) (a % 64)
    let s := eventOnce s 0x62 431 a a
    if jumped then s else
      missMsix (postEvent s (s.get ACC_CTRL_RUBRIC_SCRIBE) (descriptor 3 a)) a

/-- An account's window ends and the next begins on the current line (R180, R185, R186, R188): what is uncounted
counts as arrived in the new window, whose first line accrues at once. -/
def turnWindow (s : State) (a : Nat) : State :=
  let x := acct s a
  let s := (s.put (ACC_SERVICE_SERVED a) (x.counted / 64)).putB (ACC_SERVICE_AT_CEILING a) (x.held != 0)
  let s := (s.put (ACC_SERVICE_MISSED a) 0)
  let s := setAcct s a { x with
    lastEnt := x.ent, lastCounted := x.counted, grace := if isHard s a then some (x.ent, x.counted, false) else none
    arrived := x.waiting, counted := 0, ent := 0, held := 0, lines := 1, adjust := none }
  let s := match x.adjust with | some (c, r) => setTerms s a c r | none => s
  let s := if (x.adjust.isSome : Bool) then s.put (ACC_SERVICE_EFFECTIVE a) (min (s.get (ACC_SERVICE_EFFECTIVE a)) (s.get (ACC_RATE_GUARANTEE a))) else s
  resetLevels (accrue (urgencyWindow s a) a) a

/-- The window of account `a` ends on the current line: a window boundary not yet taken. -/
def windowDue (s : State) (a : Nat) : Bool :=
  s.ruling.line % window s a == 0 && (acct s a).lines != 1 && acctClass s a != 0

/-- The check at the end of the grace line (R188, R62, R196). -/
def missCheck (s : State) (a : Nat) : State := if (acct s a).lines < 2 then s else judgeMiss s a

/-- MISS_CHECK (R188). -/
def execMissCheck (account : Fin 4096) (s : State) : Host.Outcome State Fault Refusal := .next (missCheck s account)

/-- The jump closes every window still open (R62): a hard account's target is the lesser of E and its guarantee in
proportion to the lines the window lasted, the current line among them when it counts. A window that closed at the start of
the line is judged now when that line counts, its grace ending at the mark; otherwise its grace goes on to the end of the
line that follows, and no line of the window that the jump closes has counted. -/
def jumpWindow (s : State) (counts : Bool) (a : Nat) : State :=
  let x := acct s a
  let g := guarantee s a
  let s := if counts || decide (2 ≤ x.lines) then judgeMiss s a else s
  let open' := (acct s a).grace
  let s := turnWindow s a
  let target := min x.ent (g * (x.lines - b2n (!counts)) / window s a)
  if isHard s a then
    modAcct s a fun y => { y with grace := match open' with
      | some (e, c, j) => some (e, c + x.counted, j)
      | none => some (target, x.counted, true) }
  else s

/-- Sample the urgency inputs at a line edge (R193, R195): `pins` are the URG_n inputs, two bits each. -/
def sampleUrgency (s : State) (pins : BitVec 16) : State :=
  let s := s.each ((configured s).filter (isFirm s)) fun s a =>
    let x := acct s a
    let s := match x.urgSoon with
      | some u => setUrgency (modAcct s a fun x => { x with urgSoon := none }) a u
      | none => s
    let src := s.get (ACC_CFG_URG_SOURCE a)
    let u := if src = 0 then 0 else if src = 1 then (Tab.find s.accounts.urgMessage a).getD x.urgNow
      else bitsOf pins.toNat (2 * (src % 8)) 2
    let s := modAcct s a fun x => { x with urgBelow := x.urgBelow && decide (u < 3) }
    if u = x.urgNow then s
    else modAcct s a fun x =>
      if x.urgChanged then { x with urgNow := u, urgPending := some u }
      else { x with urgNow := u, urgChanged := true, urgSoon := some u }
  { s with accounts := { s.accounts with urgMessage := [] } }

/-- The accounts' part of a line edge (R186, R193): entitlement accrues on every line but a window's first, whose
accrual the window's own turn makes. -/
def accountEdge (s : State) (pins : BitVec 16) : State :=
  let s := s.each (accounts s) fun s a =>
    let s := modAcct s a fun x => { x with lines := x.lines + 1 }
    if (isHard s a || isFirm s a) && s.ruling.line % window s a != 0 then accrue s a else s
  sampleUrgency s pins

/-- URGENCY_MESSAGE (R194): an in-band message for the account of a link's logical device; for none, a Notice. -/
def execUrgencyMessage (port : Fin 64) (sub : Fin 4) (ld : Fin 16) (urgency : Fin 4) (s : State) :
    Host.Outcome State Fault Refusal :=
  .next (
    match (configured s).find? fun a => s.get (ACC_CFG_OWNER a) == linkOwner port sub ld with
    | some a => { s with accounts := { s.accounts with urgMessage := Tab.set s.accounts.urgMessage a urgency } }
    | none => event s 0x64 431 (linkOwner port sub ld))

/-! ### Shortfall -/

/-- The standing rule of R189.3: hard shares lowered in ascending standing, ties in descending account number, until
they fit. The list is in that order; `excess` is what remains to cut. -/
def cutHard : List (Nat × Nat) → Nat → List (Nat × Nat)
  | [], _ => []
  | (a, sh) :: r, excess => (a, sh - min sh excess) :: cutHard r (excess - min sh excess)

/-- Put an element into a list before the first that it does not follow. -/
def insertBy {α : Type} (le : α → α → Bool) (x : α) : List α → List α
  | [] => [x]
  | y :: l => if le x y then x :: y :: l else y :: insertBy le x l

/-- A list in the order `le`. -/
def sortBy {α : Type} (le : α → α → Bool) (l : List α) : List α := l.foldr (insertBy le) []

/-- Retained shares on a resource (R189): `shares` are (account, hard?, standing, share). -/
def retained (shares : List (Nat × Bool × Nat × Nat)) (d : Nat) : List (Nat × Nat) :=
  let sum (l : List (Nat × Bool × Nat × Nat)) : Nat := (l.map fun x => x.2.2.2).foldl (· + ·) 0
  let hard := shares.filter fun x => x.2.1
  let firm := shares.filter fun x => !x.2.1
  let h := sum hard
  let f := sum firm
  if h + f ≤ d then shares.map fun x => (x.1, x.2.2.2)
  else if h ≤ d then (hard.map fun x => (x.1, x.2.2.2)) ++ firm.map fun x => (x.1, x.2.2.2 * (d - h) / f)
  else
    let order := sortBy (fun x y => decide (x.2.2.1 < y.2.2.1 ∨ (x.2.2.1 = y.2.2.1 ∧ y.1 ≤ x.1))) hard
    cutHard (order.map fun x => (x.1, x.2.2.2)) (h - d) ++ firm.map fun x => (x.1, 0)

/-- One resource under evaluation: its number (channel g, 256 + link, 512 device), deliverable and shares. -/
structure Resource where
  id : Nat
  deliverable : Nat
  shares : List (Nat × Bool × Nat × Nat)

/-- The channels of an account's spread set that count from this evaluation line (R181): those that counted and stay,
and the added ones once `striped`. -/
def countingNow (s : State) (a : Nat) (striped : Bool) : List Nat :=
  let now := spreadSet s (s.get (ACC_CFG_SPREAD a))
  if striped then now else now.filter (Tab.at s.accounts.counting a []).contains

/-- Every resource with its shares in the current state. -/
def resources (s : State) : List Resource :=
  let use := usable s
  let ts := ((configured s).filter fun a => isHard s a || isFirm s a).map (currentTerms s)
  let sharesBy (f : Terms → Nat) : List (Nat × Bool × Nat × Nat) :=
    (ts.map fun t => (t.account, t.cls == 1, t.standing, f t)).filter fun x => x.2.2.2 != 0
  ((List.range s.variant.channels).map fun g =>
    { id := g, deliverable := chanDeliverable s g
      shares := sharesBy fun t => t.share (Tab.at s.accounts.counting t.account []) use g })
  ++ ((List.range (4 * s.variant.ports)).map fun k =>
    { id := 256 + k, deliverable := linkCapacity s (k / 4) (k % 4)
      shares := sharesBy fun t => if ownerLink t.owner = some k then t.rate else 0 })
  ++ [{ id := 512, deliverable := deviceCapacity s, shares := sharesBy Terms.rate }]

/-- Sum of the shares of a class on a resource. -/
def Resource.sum (x : Resource) (hard : Bool) : Nat :=
  ((x.shares.filter fun y => y.2.1 == hard).map fun y => y.2.2.2).foldl (· + ·) 0

/-- A link that is down is left out of shortfall evaluation (R291). -/
def Resource.down (x : Resource) : Bool := decide (256 ≤ x.id) && decide (x.id < 512) && x.deliverable == 0

/-- The resource is in shortfall. -/
def Resource.short (x : Resource) : Bool := decide (x.deliverable < x.sum true + x.sum false) && !x.down

/-- Whether resource `id` is in shortfall as last evaluated. -/
def inShortfall (s : State) (id : Nat) : Bool := s.accounts.shortfalls.contains id

/-- Write the figures of one resource to its register (Table 6-9). -/
def showResource (s : State) (x : Resource) : State :=
  let sat (w n : Nat) : Nat := min n (2 ^ w - 1)
  if x.id < 256 then
    (((s.put (ACC_CHANNEL_DELIVERABLE x.id) x.deliverable).put (ACC_CHANNEL_HARD x.id) (sat 16 (x.sum true))).put
      (ACC_CHANNEL_FIRM x.id) (sat 16 (x.sum false))).putB (ACC_CHANNEL_SHORTFALL x.id) x.short
  else if x.id < 512 then
    ((s.put (ACC_LINK_CAPACITY (x.id - 256)) x.deliverable).put (ACC_LINK_COMMITTED (x.id - 256))
      (x.sum true + x.sum false)).putB (ACC_LINK_SHORTFALL (x.id - 256)) x.short
  else
    ((s.put ACC_DEVICE_CAPACITY x.deliverable).put ACC_DEVICE_COMMITTED (x.sum true + x.sum false)).putB
      ACC_DEVICE_SHORTFALL x.short

/-- EFFECTIVE of an account from the retained shares (R190), in units of 64 bytes: ⌊guarantee × least fraction⌋, of which
`deliver` is one (R163). -/
def effectiveOf (s : State) (rs : List Resource) (a : Nat) (deliver : Nat × Nat) : Nat :=
  let g := guarantee s a
  let most := min g (g * deliver.1 / max 1 deliver.2)
  (rs.foldl (fun e x =>
    match x.shares.find? (fun y => y.1 == a), (retained x.shares x.deliverable).find? (fun y => y.1 == a) with
    | some y, some z => min e (g * z.2 / y.2.2.2)
    | _, _ => e) most) / 64

/-- The evaluation of every resource on a line whose index is a multiple of 4 (R181, R189 to R191, R196). `striped` says
for which accounts both conditions of R154 hold, `deliver` the fraction of its bandwidth that an account's stripe delivers
(R163). -/
def evaluate (s : State) (striped : Nat → Bool) (deliver : Nat → Nat × Nat) : State :=
  let hard := (configured s).filter (isHard s)
  let s := { s with accounts := { s.accounts with
      counting := hard.foldl (fun t a => Tab.set t a (countingNow s a (striped a))) s.accounts.counting } }
  let all := resources s
  let rs := all.filter fun x => !x.down
  let was := s.accounts.shortfalls
  let now := (rs.filter Resource.short).map (·.id)
  let s := s.each all showResource
  let s := { s with accounts := { s.accounts with shortfalls := now } }
  let s := s.each (now.filter fun i => !was.contains i) fun s i => event s 0x60 431 i
  let s := s.each (was.filter fun i => !now.contains i) fun s i => event s 0x61 431 i
  s.each ((configured s).filter fun a => isHard s a || isFirm s a) fun s a =>
    let e := effectiveOf s rs a (deliver a)
    let s := if e = s.get (ACC_SERVICE_EFFECTIVE a) then s else accrueAgain (s.put (ACC_SERVICE_EFFECTIVE a) e) a
    let red := isHard s a && decide (e < s.get (ACC_RATE_GUARANTEE a))
    let before := s.on (ACC_SERVICE_REDUCED a)
    let s := (s.putB (ACC_SERVICE_REDUCED a) red).setFlag (ACC_REDUCED_ALL (a / 64)) (a % 64) red
    if red && !before then missMsix (postEvent s (s.get ACC_CTRL_RUBRIC_SCRIBE) (descriptor 3 (a + 4096))) a else s

/-- The resources an account is charged on. -/
def chargedOn (s : State) (a : Nat) : List Nat :=
  let o := match ownerLink (s.get (ACC_CFG_OWNER a)) with | some k => [256 + k] | none => []
  (if isHard s a then Tab.at s.accounts.counting a [] else if isFirm s a then usable s else []) ++ o ++ [512]

/-- DevLoad of a response to an account's host (R197, Table 6-7): 0 light, 1 optimal, 2 moderate overload, 3 severe
overload, as CXL 3.1 encodes them. `waits` says whether a request of the account is held or pooled. -/
def devLoad (s : State) (a : Nat) (waits : Bool) : Nat :=
  if s.on (ACC_SERVICE_REDUCED a) || (chargedOn s a).any (inShortfall s) then 3
  else if (acct s a).held ≠ 0 then 2
  else if 2 * (acct s a).lastCounted < effective s a ∧ !waits then 0
  else 1

end Sys2Proof.Machine
end

