-- ==== Sys2Proof/Machine/Media.lean ====
section
/-! DEFINITION. Where lines lie (chapters 3 and 5): media line addresses, the spare rank's substitution, the stored
lines, and the leaf map as data. -/

namespace Sys2Proof.Machine

/-- Media line address of line `i` of a location (Table 3-5). -/
def Loc.addr (l : Loc) (i : Nat) : Nat :=
  l.chan * 2 ^ 26 + l.rank * 2 ^ 21 + l.group * 2 ^ 19 + l.bank * 2 ^ 17 + l.row * 2 ^ 6 + i

/-- In-channel bank index (R110). -/
def Loc.bankIndex (l : Loc) : Nat := 16 * l.rank + 4 * l.group + l.bank

/-- Slot index of a location on its channel (R217). -/
def Loc.slotIndex (l : Loc) : Nat := ((l.rank * 4 + l.group) * 4 + l.bank) * 1600 + l.row

/-- The location with a slot index on a channel. -/
def locOfSlot (g x : Nat) : Loc :=
  { chan := g, rank := x / 25600, group := x / 6400 % 4, bank := x / 1600 % 4, row := x % 1600 }

/-- The location of a bank index and row on a channel. -/
def locOfBank (g bank row : Nat) : Loc :=
  { chan := g, rank := bank / 16, group := bank / 4 % 4, bank := bank % 4, row := row }

/-- Slots of a channel's user ranks. -/
def Variant.slots (v : Variant) : Nat := v.layers * 25600
/-- Slots of a channel's reserve share, the highest slot indexes (R218). -/
def Variant.reserveSlots (v : Variant) : Nat := match v with | .v4384 => 16384 | _ => 8192
/-- Reserve quires (R146). -/
def Variant.reserveQuires (v : Variant) : Nat := match v with | .v4384 => 8192 | .v4192 => 4096 | .v2096 => 2048
/-- Counter quires a channel may hold (R217). -/
def Variant.counterQuires (v : Variant) : Nat := match v with | .v4384 => 12 | _ => 6

def chan (s : State) (g : Nat) : Chan := Tab.at s.chans g {}
def setChan (s : State) (g : Nat) (c : Chan) : State := { s with chans := Tab.set s.chans g c }
def modChan (s : State) (g : Nat) (f : Chan → Chan) : State := setChan s g (f (chan s g))

/-- The position in a rank of a bank index and row, in the order the spare copy works through them (R135). -/
def copyPos (bank row : Nat) : Nat := bank % 16 * 1600 + row

/-- The user rank of a location is served by rank 16. -/
def substituted (s : State) (l : Loc) : Bool := (chan s l.chan).servedBySpare == some l.rank

/-- How far rank 16 serves the substituted rank: rows before it are copied; none when all are. -/
def copyAt (s : State) (g : Nat) : Option Nat :=
  if s.on (CHN_ERROR_COPY_ACTIVE g) then some (copyPos (s.get (CHN_ERROR_COPY_BANK g)) (s.get (CHN_ERROR_COPY_ROW g)))
  else (chan s g).copyStop

/-- The location that serves reads of a leaf-map location (R135, R144). -/
def physRead (s : State) (l : Loc) : Loc :=
  if !substituted s l then l else
  match copyAt s l.chan with
  | some p => if copyPos l.bankIndex l.row < p then { l with rank := 16 } else l
  | none => { l with rank := 16 }

/-- The locations that a write to a leaf-map location reaches: both ranks for the row under copy (R135). -/
def physWrite (s : State) (l : Loc) : List Loc :=
  if !substituted s l then [l] else
  match copyAt s l.chan with
  | some p =>
    let q := copyPos l.bankIndex l.row
    if q < p then [{ l with rank := 16 }] else if q = p then [l, { l with rank := 16 }] else [l]
  | none => [{ l with rank := 16 }]

/-- The 36 information symbols of a line: symbol s is bits 16 s + 15 to 16 s (Tables 3-1 and 3-2). -/
def MediaLine.info (m : MediaLine) : BitVec 576 :=
  BitVec.ofNat 576 (m.data.toNat + m.mac.toNat * 2 ^ 512 + m.key % 1024 * 2 ^ 560
    + (b2n m.poison + 2 * b2n m.isSealed + 4 * b2n m.fresh + 8 * (m.heat % 8)) * 2 ^ 570)

/-- The codeword of a line (R73, R77); the code is linear, so the check symbols of an all-zero line are zero. -/
def MediaLine.coded (m : MediaLine) : Codeword :=
  { line := m, check := if m.info = 0 then 0 else Config.rsCheck m.info }

/-- Symbol `s` of a codeword, 0 to 39 (Table 3-1). -/
def Codeword.symbol (c : Codeword) (s : Nat) : BitVec 16 :=
  if s < 36 then c.line.info.extractLsb' (16 * s) 16 else c.check.extractLsb' (16 * (s - 36)) 16

/-- Beat `b` of a codeword's burst: bit `j` is bit `b` of symbol `j`, on logical data position `j` (R73). -/
def Codeword.beat (c : Codeword) (b : Nat) : BitVec 40 :=
  BitVec.ofNat 40 ((List.range 40).foldl (fun n j => n + b2n ((c.symbol j).getLsbD b) * 2 ^ j) 0)

/-- Glyph `n` of a memory line, 0 to 31: 16 data bits and above them 4 serif bits (R72, R73). -/
def Codeword.glyph (c : Codeword) (n : Nat) : BitVec 20 :=
  (c.beat (n / 2)).extractLsb' (32 + 4 * (n % 2)) 4 ++ (c.beat (n / 2)).extractLsb' (16 * (n % 2)) 16

/-- The line stored at a physical location. -/
def lineAt (s : State) (l : Loc) (i : Nat) : MediaLine := (Tab.at s.media (l.addr i) {}).line

/-- Store a line at a physical location as its codeword, keeping the media canonical: a blank line is not listed
(R210). -/
def setLine (s : State) (l : Loc) (i : Nat) (m : MediaLine) : State :=
  { s with media := Tab.put s.media (l.addr i) m.coded {} }

/-- Store a line everywhere a write to a leaf-map location goes. -/
def storeLine (s : State) (l : Loc) (i : Nat) (m : MediaLine) : State :=
  s.each (physWrite s l) fun s l => setLine s l i m

/-- The line that a read of a leaf-map location gets from the array. -/
def loadLine (s : State) (l : Loc) (i : Nat) : MediaLine := lineAt s (physRead s l) i

/-- The canonical form of the media: addresses rising, no blank line listed (R210). -/
def Memory.wf (m : Tab Codeword) : Bool := Tab.Canon m fun _ => {}

/-! ### The leaf map as data (R142) -/

/-- Leaf number of a canonical DPA. -/
def leafOf (dpa : Nat) : Nat := dpa % 2 ^ 42 / 2 ^ 12
/-- Line within its leaf. -/
def lineOf (dpa : Nat) : Nat := dpa / 64 % 64
/-- Quire of a canonical DPA. -/
def quireOf (dpa : Nat) : Nat := dpa % 2 ^ 42 / 2 ^ 21
/-- Canonical DPA of line `i` of a leaf. -/
def dpaOf (leaf i : Nat) : Nat := leaf * 4096 + i * 64

def leafEntry (s : State) (leaf : Nat) : Option Leaf := Tab.find s.ductus.map leaf
def setDuctus (s : State) (d : Ductus) : State := { s with ductus := d }
def setLeaf (s : State) (leaf : Nat) (e : Leaf) : State :=
  { s with ductus := { s.ductus with map := Tab.set s.ductus.map leaf e } }

/-- A move of a leaf of the map. -/
def Move.ofLeaf (m : Move) : Bool := !m.quire && !m.hosted

/-- The move of a leaf in flight, with its slot. -/
def moveOf (s : State) (leaf : Nat) : Option (Nat × Move) :=
  s.ductus.moves.find? fun (_, m) => m.ofLeaf && m.leaf == leaf && m.stage != .done

/-- The move of a lent-in slot in flight, with its slot in the move engine. -/
def hostedMove (s : State) (slot : Nat) : Option (Nat × Move) :=
  s.ductus.moves.find? fun (_, m) => m.hosted && m.leaf == slot && m.stage != .done

/-- The local locations that a write to a leaf reaches: its own, and while a move of it runs the other copy's (R159,
R160). -/
def copiesOf (s : State) (leaf : Nat) : List Loc :=
  match leafEntry s leaf with
  | none => []
  | some e =>
    let own := if e.remote then [] else [e.loc]
    match moveOf s leaf with
    | some (_, m) =>
      match m.stage, m.dest with
      | .switched, _ => own ++ (if m.source = e.loc then [] else [m.source])
      | _, .local l => own ++ [l]
      | _, .remote _ _ _ => own
    | none => own

/-! ### Slots and the reserve (R87, R146, R217) -/

/-- Key of a media row in the table of used slots. -/
def slotKey (l : Loc) : Nat := l.chan * 2 ^ 19 + l.slotIndex
/-- Slots of a channel that hold host-visible leaves at boot: all but its reserve share (R218). -/
def Variant.hostSlots (v : Variant) : Nat := v.slots - v.reserveSlots

/-- Reserve quires fixed at boot: leaf map, Scribe working memory, tree levels 1 to 3 (Table 3-7); numbered first
(assumption 20). -/
def Variant.fixedQuires (v : Variant) : Nat := match v with | .v4384 => 689 | .v4192 => 473 | .v2096 => 365

/-- Boot channel of a reserve quire, and its place in the channel's share (assumption 20). -/
def reserveBoot (s : State) (q : Nat) : Nat × Nat := (q % s.variant.channels, q / s.variant.channels)

/-- The channel a reserve quire lies on (R146); none once dropped. -/
def reserveChan (s : State) (q : Nat) : Option Nat :=
  match Tab.find s.ductus.reserve q with | some c => c | none => some (reserveBoot s q).1

/-- A reserve quire is a counter quire. -/
def counterQuire (s : State) (q : Nat) : Bool := s.ductus.counterQuires.any fun x => x.2 == q

/-- A move of a reserve quire is in flight. -/
def quireMoving (s : State) (q : Nat) : Bool := s.ductus.moves.any fun (_, m) => m.quire && m.leaf == q

/-- A slot of the channel's reserve share belongs to the migration free pool (R87, assumption 20): its quire is neither in
use, nor dropped, nor on the move; a quire that has been moved leaves its slots to the pool. -/
def poolSlot (s : State) (g x : Nat) : Bool :=
  let q := (x - s.variant.hostSlots) / 512 * s.variant.channels + g
  decide (s.variant.hostSlots ≤ x) && (match Tab.find s.ductus.reserve q with
    | none => decide (s.variant.fixedQuires ≤ q) && !counterQuire s q && !quireMoving s q
    | some none => false
    | some (some _) => !quireMoving s q)

/-- A rank of a channel takes leaves: not retired. -/
def rankOk (s : State) (g r : Nat) : Bool := !s.flag (CHN_REPAIR_STATE_RETIRED_RANKS g) r

/-- A slot is free: no leaf uses it, its rank is in service, and its row is not one that repair has given up (R138). -/
def slotFree (s : State) (g x : Nat) : Bool :=
  let l := locOfSlot g x
  (Tab.find s.ductus.slots (slotKey l)).isNone && rankOk s g l.rank
    && !s.ductus.noPlace.contains (g, l.bankIndex, l.row)

/-- Owner codes of slots that no leaf of the map uses: a reserve quire off its boot place, such a quire's slots while it
moves off them, and a lent-in slot. -/
def quireOwner (q : Nat) : Nat := 2 ^ 30 + q
def leavingOwner (q : Nat) : Nat := 2 ^ 30 + 2 ^ 20 + q
def hostedOwner (slot : Nat) : Nat := 2 ^ 31 + slot

/-- The slot of a reserve quire that holds its slot `j`, 0 to 511 (assumption 20): in its boot place by channel and
number, elsewhere the `j`-th slot it has taken. -/
def quireSlot (s : State) (q j : Nat) : Option Loc :=
  match Tab.find s.ductus.reserve q with
  | none => some (locOfSlot (reserveBoot s q).1 (s.variant.hostSlots + 512 * (reserveBoot s q).2 + j))
  | some none => none
  | some (some _) =>
    let moving := s.ductus.moves.any fun (_, m) => m.quire && m.leaf == q && (m.stage == .copying || m.stage == .armed)
    let owner := if moving then leavingOwner q else quireOwner q
    ((s.ductus.slots.filter fun x => x.2 == owner)[j]?).map fun (k, _) => locOfSlot (k / 2 ^ 19) (k % 2 ^ 19)

/-- The media place of line `i` of a reserve quire, 0 to 32,767. -/
def quireLine (s : State) (q i : Nat) : Option (Loc × Nat) := (quireSlot s q (i / 64)).map fun l => (l, i % 64)

/-- Reserve quires of the leaf map, and those before the tree's: the map's and the Scribes' working memory's (Table 3-7,
assumption 20). -/
def Variant.mapQuires (v : Variant) : Nat := match v with | .v4384 => 384 | .v4192 => 192 | .v2096 => 96
def Variant.treeQuire (v : Variant) : Nat := v.mapQuires + 256

/-- Nodes of a tree level, 1 to 3 (Table 7-4). -/
def Variant.nodes (v : Variant) (level : Nat) : Nat := v.leaves / 64 ^ level

/-- Where the lines of a tree level begin in the tree quires: the levels lie one after another (assumption 20). -/
def Variant.levelStart (v : Variant) (level : Nat) : Nat :=
  (if 2 ≤ level then v.nodes 1 else 0) + (if 3 ≤ level then v.nodes 2 else 0)

/-- The tree node, as level and number, on line `i` of reserve quire `q` (R216). -/
def Variant.nodeAt (v : Variant) (q i : Nat) : Option (Nat × Nat) :=
  let x := 32768 * (q - v.treeQuire) + i
  if q < v.treeQuire then none
  else if x < v.levelStart 2 then some (1, x)
  else if x < v.levelStart 3 then some (2, x - v.levelStart 2)
  else if x < v.levelStart 3 + v.nodes 3 then some (3, x - v.levelStart 3)
  else none

/-- The media place of a tree node of levels 1 to 3: at offset 64 × node of its level's region (R216). -/
def treePlace (s : State) (level node : Nat) : Option (Loc × Nat) :=
  let x := s.variant.levelStart level + node
  quireLine s (s.variant.treeQuire + x / 32768) (x % 32768)

/-- The place of a map block in the reserve (R142, R145). -/
def mapPlace (s : State) (b : Nat) : Option (Loc × Nat) := quireLine s (b / 32768) (b % 32768)

/-- The counter quires of a channel that could be opened: of its free pool, with no slot in use, the highest first. -/
def spareQuire (s : State) (g : Nat) : Option Nat :=
  let n := s.variant.reserveSlots / 512
  ((List.range n).map fun j => (n - 1 - j) * s.variant.channels + g).find? fun q =>
    let j := q / s.variant.channels
    poolSlot s g (s.variant.hostSlots + 512 * j) && !(s.ductus.slots.any fun (k, _) =>
      k / 2 ^ 19 == g && (k % 2 ^ 19 - s.variant.hostSlots) / 512 == j && decide (s.variant.hostSlots ≤ k % 2 ^ 19))

end Sys2Proof.Machine
end

