-- ==== Sys2Proof/Machine/Seal.lean ====
section
/-! DEFINITION. Seal's engines (chapter 7): key indexes, protection levels, tags and checks, the counter tree, the
unverifiable list. The keys' and reseal's commands are in KeyLoad.lean. -/

namespace Sys2Proof.Machine

/-- Run a free value's draw: the value and the state after. -/
def draw (s : State) : BitVec 64 × State := (s.freeNow, s.drew)

/-- The bytes of a short text. -/
def text (t : String) : List Byte := t.toList.map fun c => BitVec.ofNat 8 c.toNat

def setSeal (s : State) (x : Seal) : State := { s with sealing := x }

/-! ### Levels and keys -/

/-- State code of a key-table entry (Table 7-15). -/
def keyState (s : State) (k : Nat) : Nat := s.get (SEL_KEY_ATTR_STATE k)
/-- Protection level of a key index (Table 7-1). -/
def keyLevel (s : State) (k : Nat) : Nat := s.get (SEL_KEY_ATTR_LEVEL k)
def keyOf (s : State) (k : Nat) : Key := Tab.at s.sealing.keys k {}

/-- A requester is authorised for a key index (R204): the entry is LOADED, and a link's OWNER matches BINDING or a nib
core's cluster has its bit; Scribes, management DMA and JTAG use index 0 and plain-level indexes only. -/
def authorised (s : State) (o : Origin) (k : Nat) : Bool :=
  keyState s k == 1 && (match o with
  | .link p sub d _ _ =>
    let b := s.get (SEL_KEY_ATTR_BINDING k)
    b == 0xFFFF || b == linkOwner p sub (if s.get (PRT_PORT_CTRL_ROLE p) = 0 then d else 0)
  | .core c _ => if c < 8 then k == 0 || keyLevel s k == 0 else s.flag (SEL_KEY_ATTR_NIB_CLUSTERS k) ((c - 8) / 16)
  | .queue n =>
    let b := s.get (SEL_KEY_ATTR_BINDING k)
    b == 0xFFFF || b == pairOwner s n
  | .lentIn _ _ _ _ => k == 0)

/-- TE and PROTECTED of a quire (R205). -/
def teSet (s : State) (q : Nat) : Bool := s.sealing.te.contains q
def protectedQuire (s : State) (q : Nat) : Bool := s.sealing.prot.contains q

/-- A write that R205 rejects: from a Scribe, or from a nib core under a plain-level index, to a PROTECTED quire. -/
def protectedFrom (s : State) (o : Origin) (k q : Nat) : Bool :=
  protectedQuire s q && (match o with
  | .link _ _ _ _ _ => false
  | .core c _ => c < 8 || keyLevel s k == 0
  | .queue _ | .lentIn _ _ _ _ => false)

/-! ### Checks and tags -/

/-- One bit of the CRC-48 of R209. -/
def crc48Bit (c : Nat) (b : Bool) : Nat :=
  let top := bit c 47
  let sh := c * 2 % 2 ^ 48
  if top != b then sh ^^^ 0x800000000097 else sh

/-- The 48-bit CRC over bytes: initial value all ones, each byte's most significant bit first (no reflection), no final
XOR (R209). -/
def crc48 (bytes : List Byte) : Nat :=
  bytes.foldl (fun c b => (List.range 8).foldl (fun c i => crc48Bit c (b.getLsbD (7 - i))) c) (2 ^ 48 - 1)

/-- The extended detection check of a plain or confidential line (R209). -/
def lineCheck (data : BitVec 512) (dpa key : Nat) : BitVec 48 :=
  BitVec.ofNat 48 (crc48 (leBytes 64 data.toNat ++ leBytes 8 dpa ++ leBytes 2 key))

/-- The tag of a sealed or sealed-fresh line (R208, Table 7-2); the counter is 0 for a sealed line. -/
def lineTag (s : State) (data : BitVec 512) (dpa key : Nat) (fresh : Bool) (counter : Nat) : BitVec 48 :=
  let custom := if fresh then text "VYT-FRESH" ++ leBytes 8 s.sealing.bootNonce.toNat else text "VYT-LINE"
  let state := if fresh then 3 else 1
  Config.kmac128 (keyOf s key).integrity custom
    (leBytes 64 data.toNat ++ leBytes 8 dpa ++ leBytes 2 key ++ leBytes 1 state ++ leBytes 8 (if fresh then counter else 0))

/-! ### The counter tree -/

/-- Maximum minor of a child of a node at a level (Table 7-3). -/
def minorMax (level : Nat) : Nat := if level = 1 then 7 else 127

/-- A tree node of levels 1 to 4 (4: the on-die top level). -/
def treeNode (s : State) (level node : Nat) : TreeNode := Tab.at s.sealing.tree (level * 2 ^ 30 + node) {}
def setNode (s : State) (level node : Nat) (n : TreeNode) : State :=
  setSeal s { s.sealing with tree := Tab.set s.sealing.tree (level * 2 ^ 30 + node) n }

/-- The version of a child at `level` in its parent (R216). -/
def version (s : State) (level node : Nat) : Nat :=
  let p := treeNode s (level + 1) (node / 64)
  p.major * (minorMax (level + 1) + 1) + Tab.at p.minors (node % 64) 0

/-- The 512 data bits of a counter line or tree node (Table 7-3). -/
def treeData (s : State) (level node : Nat) : Nat :=
  if level = 0 then
    match Tab.find s.sealing.counters node with
    | some c => c.major * 2 ^ 448 + c.minors.foldl (fun n (i, m) => n + m * 2 ^ (7 * i)) 0
    | none => 0
  else
    let n := treeNode s level node
    n.major * 2 ^ 448 + n.minors.foldl (fun x (i, m) => x + m * 2 ^ (7 * i)) 0
      + (if level = 1 then (List.range 64).foldl (fun x i =>
          match Tab.find s.sealing.counters (node * 64 + i) with
          | some c => x + c.selector * 2 ^ (7 * i + 3)
          | none => x) 0 else 0)

/-- The tree MAC of a counter line or node under its current version (R220). -/
def treeMac (s : State) (level node : Nat) : BitVec 48 :=
  Config.kmac128 s.sealing.treeKey (text "VYT-TREE")
    (leBytes 64 (treeData s level node) ++ leBytes 1 level ++ leBytes 4 node ++ leBytes 8 (version s level node))

/-- Compute a line's tree MAC again and keep it. -/
def remac (s : State) (level node : Nat) : State :=
  let m := treeMac s level node
  if level = 0 then
    match Tab.find s.sealing.counters node with
    | some c => setSeal s { s.sealing with counters := Tab.set s.sealing.counters node { c with mac := m } }
    | none => s
  else setNode s level node { treeNode s level node with mac := m }

/-- The tree MAC that a node of levels 1 to 3 has in DRAM (R220): as last written back, or as the boot ROM built it. -/
def nodeMac (s : State) (level node : Nat) : BitVec 48 :=
  match Tab.find s.sealing.tree (level * 2 ^ 30 + node) with | some n => n.mac | none => treeMac s level node

/-- A tree line of levels 1 to 3 as stored: under key index 0 with SEALED set (R220). -/
def treeLine (s : State) (level node : Nat) : MediaLine :=
  { data := BitVec.ofNat 512 (treeData s level node), mac := nodeMac s level node, isSealed := true }

/-- A leaf's counter line as stored (R220). -/
def counterLine (s : State) (leaf : Nat) : MediaLine :=
  { data := BitVec.ofNat 512 (treeData s 0 leaf), isSealed := true
    mac := match Tab.find s.sealing.counters leaf with | some c => c.mac | none => 0 }

/-- The media place of a leaf's counter line (R217): line (slot index mod 32,768) of the counter quire that its SELECTOR
names; none for a lent leaf. -/
def counterPlace (s : State) (leaf : Nat) : Option (Loc × Nat) :=
  match Tab.find s.sealing.counters leaf, leafEntry s leaf with
  | some c, some e =>
    if e.remote then none
    else (Tab.find s.ductus.counterQuires (16 * e.loc.chan + c.selector)).bind fun q => quireLine s q (e.loc.slotIndex % 32768)
  | _, _ => none

/-- List a node of the tree before it changes, with the MAC it has in DRAM. -/
def listNode (s : State) (level node : Nat) : State :=
  if (Tab.find s.sealing.tree (level * 2 ^ 30 + node)).isSome then s
  else setNode s level node { mac := nodeMac s level node }

/-- The children of a node that DRAM holds with a MAC of their own; those as the boot ROM built them follow. -/
def residentChildren (s : State) (level node : Nat) : List Nat :=
  if level = 1 then (s.sealing.counters.filter fun (k, _) => k / 64 == node).map (·.1)
  else (s.sealing.tree.filter fun (k, _) => k / 2 ^ 30 == level - 1 && k % 2 ^ 30 / 64 == node).map (·.1 % 2 ^ 30)

/-- A node has changed in the counter cache (R221): a level-1 node is brought in if need be; the top level is on-die. -/
def noteModified (s : State) (level node : Nat) : State :=
  let l := s.sealing.cache
  if level = 1 then
    let held := l.any fun x => x.1 == 1 && x.2.1 == node
    let marked := l.map fun x => if x.1 == 1 && x.2.1 == node then (1, node, true) else x
    setSeal s { s.sealing with cache := if held then marked else (1, node, true) :: l }
  else if level = 2 ∨ level = 3 then
    let k := level * 2 ^ 30 + node
    setSeal s { s.sealing with dirty := k :: s.sealing.dirty.filter (· != k) }
  else s

/-- A line of the tree is written back to DRAM (R216, R220): its version increments; a minor that would pass its
maximum turns the parent's major over and gives every resident child a new MAC. The parent has changed. -/
def writeBack (s : State) (level node : Nat) : State :=
  let pn := node / 64
  let s := listNode s (level + 1) pn
  let p := treeNode s (level + 1) pn
  let m := Tab.at p.minors (node % 64) 0
  let s := if m < minorMax (level + 1) then
      setNode s (level + 1) pn { p with minors := Tab.set p.minors (node % 64) (m + 1) }
    else
      let s := setNode s (level + 1) pn { p with major := p.major + 1, minors := [] }
      s.each (residentChildren s (level + 1) pn) fun s c => remac s level c
  noteModified (remac s level node) (level + 1) pn

/-- The nodes of a level that are modified in the counter cache. -/
def modifiedAt (s : State) (level : Nat) : List Nat :=
  if level < 2 then (s.sealing.cache.filter fun x => x.1 == level && x.2.2).map fun x => x.2.1
  else (s.sealing.dirty.filter fun k => k / 2 ^ 30 == level).map (· % 2 ^ 30)

/-- The counter cache writes back its modified lines, level by level (R433). -/
def flushTree (s : State) : State :=
  let s := s.each (List.range 4) fun s lv => s.each (modifiedAt s lv) fun s n => writeBack s lv n
  setSeal s { s.sealing with cache := s.sealing.cache.map fun x => (x.1, x.2.1, false), dirty := [] }

/-- Entries of levels 0 and 1 that the 4 MiB counter cache has room for beside levels 2 and 3 (R221, Table 7-4). -/
def cacheRoom (s : State) : Nat :=
  65536 - (match s.variant with | .v4384 => 24960 | .v4192 => 12480 | .v2096 => 6240)

/-- A level-1 node is locked (R221). -/
def lockedNode (s : State) (node : Nat) : Bool := s.sealing.locks.contains node

/-- The level-1 nodes that are to be locked (R221): those with a child whose leaf has HARD set. -/
def nodesToLock (s : State) : List Nat := ((s.ductus.map.filter fun (_, e) => e.hard).map fun (k, _) => k / 64).eraseDups

/-- The locks of the counter cache follow the hard leaves (R221), none beyond LOCK_LIMIT: what would need a further lock
has been refused. -/
def relock (s : State) : State :=
  let need := nodesToLock s
  let kept := s.sealing.locks.filter need.contains
  let more := (need.filter fun n => !kept.contains n).take (s.get SEL_TREE_CACHE_LOCK_LIMIT - kept.length)
  (setSeal s { s.sealing with locks := kept ++ more }).put SEL_TREE_CACHE_LOCKED (kept ++ more).length

/-- Evict the least recently used unlocked entry while the counter cache is over its room (R221); node write-backs are
charged to account 4,093, counter lines' too, as no request causes them. -/
def evictOne (s : State) : State :=
  if s.sealing.cache.length ≤ cacheRoom s then s else
  match s.sealing.cache.reverse.find? fun (l, n, _) => !(l == 1 && lockedNode s n) with
  | none => s
  | some (l, n, d) =>
    let s := setSeal s { s.sealing with cache := s.sealing.cache.filter fun (a, b, _) => !(a == l && b == n) }
    if d then chargeNow (writeBack s l n) 4093 64 else s

/-- Whether the counter cache holds an entry. -/
def cached (s : State) (level node : Nat) : Bool := s.sealing.cache.any fun (l, n, _) => l == level && n == node

/-- Set the modified mark of an entry of the counter cache. -/
def setModified (s : State) (level node : Nat) (d : Bool) : State :=
  setSeal s { s.sealing with
    cache := s.sealing.cache.map fun x => if x.1 == level && x.2.1 == node then (level, node, d) else x }

/-- A leaf moves: its counter line, if modified in the cache, is written back (R221). -/
def cleanCounter (s : State) (leaf : Nat) : State :=
  if s.sealing.cache.contains (0, leaf, true) then setModified (chargeNow (writeBack s 0 leaf) 4093 64) 0 leaf false else s

/-- Use an entry of the counter cache: a miss is counted, the entry becomes the newest, an eviction makes room. -/
def touch (s : State) (level node : Nat) (modified : Bool) : State :=
  let old := s.sealing.cache.find? fun (l, n, _) => l == level && n == node
  let d := modified || (match old with | some (_, _, d) => d | none => false)
  let s := if old.isNone then s.incW SEL_TREE_CACHE_MISSES else s
  let s := setSeal s { s.sealing with
    cache := (level, node, d) :: s.sealing.cache.filter fun (l, n, _) => !(l == level && n == node) }
  evictOne (evictOne s)

/-- Use a leaf's counter line: on a miss the walk runs up to the first cached ancestor, and the read is charged to the
request's account (R177, R221). -/
def touchCounter (s : State) (leaf account : Nat) (modified : Bool) : State :=
  if cached s 0 leaf then touch s 0 leaf modified else
  let s := if cached s 1 (leaf / 64) then touch s 1 (leaf / 64) false
    else chargeNow (touch s 1 (leaf / 64) false) account 64
  touch (chargeNow s account 64) 0 leaf modified

/-- The counter value of a line (R215); that its tag was made under, while a lent leaf's line has not been written since
its leaf's major turned over (assumption 80). -/
def counterValue (s : State) (dpa : Nat) : Nat :=
  match Tab.find s.sealing.stale (dpa / 64), Tab.find s.sealing.counters (leafOf dpa) with
  | some v, _ => v
  | none, some c => c.major * 128 + Tab.at c.minors (lineOf dpa) 0
  | none, none => 0

/-! ### The unverifiable list (R226, R227) -/

/-- The entries of the list in use, as (index, level, node). -/
def unverifiable (s : State) : List (Nat × Nat × Nat) :=
  ((List.range 256).filter fun i => s.on (SEL_UNVERIFIABLE_VALID i)).map fun i =>
    (i, s.get (SEL_UNVERIFIABLE_LEVEL i), s.get (SEL_UNVERIFIABLE_NODE i))

/-- Node (level, node) lies at or beneath (la, na). -/
def beneath (level node la na : Nat) : Bool := decide (level ≤ la) && node / 64 ^ (la - level) == na

/-- The nodes whose lines are unverifiable: the entries of the list, and what it had no place for (R227). -/
def lostNodes (s : State) : List (Nat × Nat) := (unverifiable s).map (·.2) ++ s.sealing.extraLost

/-- A leaf lies beneath an unverifiable node. -/
def leafLost (s : State) (leaf : Nat) : Bool := (lostNodes s).any fun (l, n) => beneath 0 leaf l n

/-- A Seal event: the Blotter's record and the event to the Seal Scribe (Table 11-3 class 0x05). -/
def sealEvent (s : State) (row source : Nat) (detail : Nat := 0) : State :=
  postEvent (event s (0x70 + row) source detail) (s.get SEL_CTRL_EVENT_SCRIBE) (descriptor 5 row)

/-- Put an entry into slot `i` of the list. -/
def setEntry (s : State) (i level node : Nat) : State :=
  ((s.put (SEL_UNVERIFIABLE_VALID i) 1).put (SEL_UNVERIFIABLE_LEVEL i) level).put (SEL_UNVERIFIABLE_NODE i) node
def clearEntry (s : State) (i : Nat) : State := s.setWord (SEL_UNVERIFIABLE_VALID i).addr 0

/-- Put a node in the list in place of the entries beneath it. -/
def placeEntry (s : State) (lv nd : Nat) : State :=
  let s := s.each ((unverifiable s).filter fun (_, a, n) => beneath a n lv nd) fun s (i, _, _) => clearEntry s i
  match (List.range 256).find? fun i => !s.on (SEL_UNVERIFIABLE_VALID i) with
  | some i => setEntry s i lv nd
  | none => setSeal s { s.sealing with extraLost := s.sealing.extraLost ++ [(lv, nd)] }

/-- What the full list had no place for enters it as entries become free. -/
def settleLost (s : State) : State :=
  (setSeal s { s.sealing with extraLost := [] }).each s.sealing.extraLost fun s (lv, nd) => placeEntry s lv nd

/-- Enter a node in the list (R227): not below an existing entry; entries below it are absorbed; a full list absorbs
the entry into its lowest ancestor that covers some entry, or its top-level node, with a Degraded event. DESIGN CHOICE
(assumption 81): a top-level node that covers no entry is kept beside the full list. -/
def addUnverifiable (s : State) (level node : Nat) : State :=
  let l := unverifiable s
  if (lostNodes s).any fun (a, n) => beneath level node a n then s else
  let absorbs := l.any fun (_, a, n) => beneath a n level node
  if l.length < 256 ∨ absorbs then placeEntry s level node else
  let up := ((List.range 3).map (· + 1)).find? fun a =>
    decide (level < a) && l.any fun (_, b, n) => beneath b n a (node / 64 ^ (a - level))
  let a := up.getD 4
  sealEvent (placeEntry s a (node / 64 ^ (a - level))) 5 428 a

/-! ### Opening and sealing a line -/

/-- What Seal makes of a line read for a request (R206, R212). -/
inductive Opened where
  | data (d : BitVec 512)
  | poison
  | orphaned
  | violation
  | badTag
  | badCheck
  deriving DecidableEq, Repr

/-- Seal opens a line as the array held it, for a request's key index (R76, R206 to R212, R226). -/
def openLine (s : State) (dpa key : Nat) (m : MediaLine) : Opened :=
  if m.poison then .poison else
  if m.data = 0 ∧ m.mac = 0 ∧ m.key = 0 ∧ m.heat = 0 ∧ !m.fresh ∧ !m.isSealed then .data 0 else
  if m.key ≠ key then (if keyState s m.key = 0 then .orphaned else .violation) else
  let lv := keyLevel s key
  let plain := if lv = 0 then m.data else (Config.xts (keyOf s key).xts dpa).symm m.data
  if m.isSealed != decide (2 ≤ lv) || m.fresh != decide (lv = 3) then .badTag
  else if lv < 2 then (if m.mac = lineCheck m.data dpa key then .data plain else .badCheck)
  else if lv = 3 ∧ leafLost s (leafOf dpa) then .poison
  else if m.mac = lineTag s m.data dpa key (lv = 3) (counterValue s dpa) then .data plain else .badTag

/-- The line that Seal stores for plaintext under a key index (R206 to R209), with the leaf's heat sample (R151). -/
def closeLine (s : State) (dpa key heat : Nat) (plain : BitVec 512) : MediaLine :=
  let lv := keyLevel s key
  let data := if lv = 0 then plain else Config.xts (keyOf s key).xts dpa plain
  { data := data, key := key, heat := heat / 32 % 8, fresh := lv == 3, isSealed := decide (2 ≤ lv)
    mac := if lv < 2 then lineCheck data dpa key else lineTag s data dpa key (lv = 3) (counterValue s dpa) }

/-- Set PROTECTED for the quire of a line written under an index that is not plain (R205). -/
def markProtected (s : State) (dpa key : Nat) : State :=
  let q := quireOf dpa
  if keyLevel s key = 0 || protectedQuire s q then s else setSeal s { s.sealing with prot := q :: s.sealing.prot }

/-- Two places of one channel share their counter slots (R217). -/
def sameCounterSlot (a b : Loc) : Bool := a.chan == b.chan && a.slotIndex % 32768 == b.slotIndex % 32768

/-- The selectors of counter quires in use for the residue of a slot index on a channel (R217). -/
def usedSelectors (s : State) (l : Loc) : List Nat :=
  (s.sealing.counters.filter fun (k, _) =>
    match leafEntry s k with
    | some e => !e.remote && sameCounterSlot e.loc l
    | none => false).map (fun (_, c) => c.selector) ++
  (s.ductus.moves.filterMap fun (_, m) => match m.dest with
    | .local d => if sameCounterSlot d l then m.selector else none
    | .remote _ _ _ => none) ++
  s.ductus.moves.filterMap fun (_, m) => if sameCounterSlot m.source l then m.left else none

/-- A channel has this counter quire open (R217). -/
def counterOpen (s : State) (g k : Nat) : Bool := (Tab.find s.ductus.counterQuires (16 * g + k)).isSome

/-- The counter quire a leaf's counter line takes: the lowest SELECTOR with its line unused, of a counter quire that is
open or can be opened from the channel's free pool (R217). -/
def freeSelector (s : State) (l : Loc) : Option Nat :=
  let used := usedSelectors s l
  (List.range s.variant.counterQuires).find? fun k =>
    !used.contains k && (counterOpen s l.chan k || (spareQuire s l.chan).isSome)

/-- Take a counter quire from a channel's free pool when it is first needed (R217). -/
def openCounter (s : State) (g k : Nat) : State :=
  if counterOpen s g k then s else
  match spareQuire s g with
  | some q => { s with ductus := { s.ductus with counterQuires := Tab.set s.ductus.counterQuires (16 * g + k) q } }
  | none => s

/-- A counter quire holds a counter line, or a move has reserved one in it. -/
def counterUsed (s : State) (g k : Nat) : Bool :=
  (s.sealing.counters.any fun (leaf, c) => c.selector == k && (match leafEntry s leaf with
    | some e => !e.remote && e.loc.chan == g
    | none => false))
  || s.ductus.moves.any fun (_, m) => (m.left == some k && m.source.chan == g)
    || (m.selector == some k && (match m.dest with | .local d => d.chan == g | .remote _ _ _ => false))

/-- Counter quires left empty return to the migration free pool (R218). -/
def closeCounters (s : State) : State :=
  { s with ductus := { s.ductus with
      counterQuires := s.ductus.counterQuires.filter fun x => counterUsed s (x.1 / 16) (x.1 % 16) } }

/-- SELECTOR of the counter line that a leaf gets, its own where it has one: none where its channel has no slot for it
(assumption 77). A lent leaf's counter line has no place until the leaf comes home (assumption 80). -/
def counterSelector (s : State) (leaf : Nat) : Option Nat :=
  match Tab.find s.sealing.counters leaf, leafEntry s leaf with
  | some c, _ => some c.selector
  | none, some e => if e.remote then some 0 else freeSelector s e.loc
  | none, none => freeSelector s {}

/-- The counter line of a leaf starts at the current FRESH_BASE, which moves on, in the slot SELECTOR names (R219). -/
def placeCounter (s : State) (leaf sel : Nat) : State :=
  let had := (Tab.find s.sealing.counters leaf).isSome
  let base := s.sealing.freshBase * 2 ^ 28
  let s := match leafEntry s leaf with
    | some e => if e.remote then s else openCounter s e.loc.chan sel
    | none => openCounter s 0 sel
  let s := listNode s 1 (leaf / 64)
  let s := setSeal s { s.sealing with
    freshBase := s.sealing.freshBase + 1
    counters := Tab.set s.sealing.counters leaf { major := base, base := base, selector := sel } }
  let s := s.put SEL_TREE_BASE_INDEX s.sealing.freshBase
  if had then s else s.put SEL_TREE_FRESH_LEAVES (s.get SEL_TREE_FRESH_LEAVES + 1)

/-- Give a leaf a counter line at the current FRESH_BASE (R219); none once FRESH_BASE is exhausted, or where the leaf's
channel has no counter slot for it. -/
def allocCounter (s : State) (leaf : Nat) : Option State :=
  if 2 ^ 28 ≤ s.sealing.freshBase then none else (counterSelector s leaf).map (placeCounter s leaf)

/-- Free a leaf's counter line. -/
def freeCounter (s : State) (leaf : Nat) : State :=
  if (Tab.find s.sealing.counters leaf).isNone then s else
  closeCounters ((setSeal s { s.sealing with
    counters := Tab.del s.sealing.counters leaf
    stale := s.sealing.stale.filter fun (x, _) => x / 64 != leaf
    cache := s.sealing.cache.filter fun (l, n, _) => !(l == 0 && n == leaf) }).dec SEL_TREE_FRESH_LEAVES)

/-- Apply a change to every copy of every stored or buffered line of a leaf. -/
def mapLeafLines (s : State) (leaf : Nat) (f : Nat → MediaLine → MediaLine) : State :=
  let s := s.each (copiesOf s leaf) fun s l =>
    s.each (List.range 64) fun s i =>
      s.each (physWrite s l) fun s p => setLine s p i (f i (lineAt s p i))
  let places := copiesOf s leaf
  let fix (g : Nat) (w : WLine) : WLine :=
    if places.any fun l => l.chan == g && l.bankIndex == w.bank && l.row == w.row then { w with content := f w.line w.content } else w
  { s with chans := s.chans.map fun (g, c) => (g, { c with
      writes := c.writes.map (fix g), ingressWrites := c.ingressWrites.map fun (q, w) => (q, fix g w) }) }

/-- Re-tag a leaf's FRESH lines but `skip` after their counter values changed from `before` (R215): each is verified
under its old value and tagged again; charged to the write's account. -/
def retag (s : State) (before : State) (leaf skip account : Nat) : State :=
  let again (i : Nat) (m : MediaLine) : MediaLine :=
    let dpa := dpaOf leaf i
    if m.fresh && i != skip && m.mac == lineTag before m.data dpa m.key true (counterValue before dpa) then
      { m with mac := lineTag s m.data dpa m.key true (counterValue s dpa) }
    else m
  let s := match leafEntry s leaf with
    | some e => if e.remote then setSeal s { s.sealing with
        stale := ((List.range 64).filter fun i => i != skip).foldl
          (fun t i => Tab.set t (dpaOf leaf i / 64) (counterValue before (dpaOf leaf i))) s.sealing.stale } else s
    | none => s
  chargeNow (mapLeafLines s leaf again) account (63 * 128)

/-- Increment the counter of a line about to be written sealed-fresh (R215, R219); none where a counter line is needed
and FRESH_BASE is exhausted. -/
def bumpCounter (s : State) (dpa account : Nat) : Option State :=
  let leaf := leafOf dpa
  let i := lineOf dpa
  let s := setSeal s { s.sealing with stale := Tab.del s.sealing.stale (dpa / 64) }
  match Tab.find s.sealing.counters leaf with
  | none => (allocCounter s leaf).map fun s =>
      match Tab.find s.sealing.counters leaf with
      | some c => touchCounter (setSeal s { s.sealing with
          counters := Tab.set s.sealing.counters leaf { c with minors := Tab.set c.minors i 1 } }) leaf account true
      | none => s
  | some c =>
    let m := Tab.at c.minors i 0
    if m < 127 then
      some (touchCounter (setSeal s { s.sealing with
        counters := Tab.set s.sealing.counters leaf { c with minors := Tab.set c.minors i (m + 1) } }) leaf account true)
    else if c.major + 1 < c.base + 2 ^ 28 then
      let s' := setSeal s { s.sealing with
        counters := Tab.set s.sealing.counters leaf { c with major := c.major + 1, minors := [] } }
      some (touchCounter (retag s' s leaf i account) leaf account true)
    else (allocCounter s leaf).map fun s' => touchCounter (retag s' s leaf i account) leaf account true

/-! ### Violations -/

/-- MASTER of a request's origin (Table 18-4). -/
def originMaster (o : Origin) : Nat :=
  match o with
  | .link p k d _ _ => linkMaster p k d
  | .core c _ => if c < 8 then internalMaster c else nibMaster (c - 8)
  | .queue _ => internalMaster 0xC
  | .lentIn p _ _ _ => linkMaster p 0 0

/-- Source PBR identifier of an origin. -/
def originPbr (o : Origin) : Nat := match o with | .link _ _ _ _ q | .lentIn _ _ q _ => q | _ => 0

/-- The memory pipe an access passes: which of the 16 the spec does not say, so its number is a free value
(assumption 13). -/
def pipe (s : State) : Nat := 412 + s.freeNow.toNat % 16

/-- A violation of Seal's rules (R214): counted, captured with DPA, requester and, at step 3 of a link's request, its opcode
(R289), a Contained event. -/
def sealViolation (s : State) (o : Origin) (dpa access : Nat) (opcode : Nat := 0) : State :=
  let src := pipe s
  let s := s.drew.inc SEL_ERRORS_VIOLATIONS
  let s := report s { type := 0x70, source := src, master := some (originMaster o), pbr := originPbr o, access := access
                      dpa := some dpa, detail := opcode }
  postEvent s (s.get SEL_CTRL_EVENT_SCRIBE) (descriptor 5 0)

/-- Another Seal event of an access: 1 orphaned read, 2 partial write on a failing line. -/
def sealAccessEvent (s : State) (row : Nat) (o : Origin) (dpa access : Nat) : State :=
  let src := pipe s
  let s := report s.drew { type := 0x70 + row, source := src, master := some (originMaster o), pbr := originPbr o
                           access := access, dpa := some dpa }
  postEvent s (s.get SEL_CTRL_EVENT_SCRIBE) (descriptor 5 row)

/-! ### The line-merge cache (R223) -/

/-- The cached plaintext of a line under a key index. -/
def mergeHit (s : State) (dpa key : Nat) : Option (BitVec 512) :=
  if !s.on SEL_CTRL_MERGE_ENABLE then none
  else (s.sealing.merge.find? fun (d, k, _) => d == dpa && k == key).map fun (_, _, v) => v

/-- Fill or renew an entry; the oldest of 16,384 gives way. -/
def mergeFill (s : State) (dpa key : Nat) (v : BitVec 512) : State :=
  if !s.on SEL_CTRL_MERGE_ENABLE then s else
  setSeal s { s.sealing with
    merge := ((dpa, key, v) :: s.sealing.merge.filter fun (d, k, _) => !(d == dpa && k == key)).take 16384 }

/-- Drop the entries a predicate names. -/
def mergeDrop (s : State) (p : Nat → Nat → Bool) : State :=
  setSeal s { s.sealing with merge := s.sealing.merge.filter fun (d, k, _) => !p d k }

end Sys2Proof.Machine
end

