-- ==== Sys2Proof/Machine/Leaves.lean ====
section
/-! DEFINITION. The Ductus's shared operations (chapter 5): free slots, where leaves go, the map cache, heat, starting
and aborting a move. The Ductus's commands are in Ductus.lean. -/

namespace Sys2Proof.Machine

/-! ### Slots -/

/-- The element of a list with the least measure, the first among equals. -/
def leastBy {α : Type} (f : α → Nat) : List α → Option α
  | [] => none
  | a :: r => match leastBy f r with
    | none => some a
    | some b => if f b < f a then some b else some a

/-- The first result of a function over a list. -/
def firstSome {α β : Type} : List α → (α → Option β) → Option β
  | [], _ => none
  | a :: r, f => match f a with | some b => some b | none => firstSome r f

/-- A leaf may take a slot: a sealed-fresh one needs a free counter slot there (R147, R157). -/
def fitsLeaf (s : State) (leaf : Nat) (l : Loc) : Bool :=
  (Tab.find s.sealing.counters leaf).isNone || (freeSelector s l).isSome

/-- Any slot will do. -/
def anySlot (_ : Loc) : Bool := true

/-- Free host slots of a channel within a rank: those that nothing uses and repair has not given up. -/
def freeInRank (s : State) (g r : Nat) : Nat :=
  if !rankOk s g r then 0 else
  let total := min 25600 (s.variant.hostSlots - 25600 * r)
  let lost := ((s.ductus.noPlace.filter fun (c, b, _) => c == g && b / 16 == r).map fun (c, b, row) => locOfBank c b row).eraseDups
  let gone := (lost.filter fun l => decide (l.slotIndex < s.variant.hostSlots) && (Tab.find s.ductus.slots (slotKey l)).isNone).length
  total - gone - (s.ductus.slots.filter fun (k, _) =>
    k / 2 ^ 19 == g && k % 2 ^ 19 / 25600 == r && decide (k % 2 ^ 19 < s.variant.hostSlots)).length

/-- Free host-visible leaf slots of a channel. -/
def freeOn (s : State) (g : Nat) : Nat :=
  (List.range s.variant.layers).foldl (fun n r => n + freeInRank s g r) 0

/-- The free host slot with the lowest index of `n` slots from `x` on that satisfies a condition. -/
def slotFrom (s : State) (g x n : Nat) (ok : Loc → Bool) : Option Loc :=
  ((List.range n).find? fun i =>
    decide (x + i < s.variant.hostSlots) && slotFree s g (x + i) && ok (locOfSlot g (x + i))).map fun i => locOfSlot g (x + i)

/-- The free host slot of a rank and bank group with the lowest index. -/
def slotIn (s : State) (g r grp : Nat) (ok : Loc → Bool) : Option Loc := slotFrom s g (r * 25600 + grp * 6400) 6400 ok

/-- A slot on a channel (R153): the rank with the most free slots, the lowest among equals, or another where that one has
none that will do; the bank groups in rotation from `rot`. -/
def slotOn (s : State) (g rot : Nat) (ok : Loc → Bool) : Option Loc :=
  let best := (List.range s.variant.layers).foldl
    (fun b r => if freeInRank s g b < freeInRank s g r then r else b) 0
  let inRank (r : Nat) : Option Loc := firstSome ((List.range 4).map fun i => (rot + i) % 4) fun grp => slotIn s g r grp ok
  (inRank best) <|> firstSome ((List.range s.variant.layers).filter fun r => r != best && rankOk s g r) inRank

/-- A slot of a channel's migration free pool (R95). -/
def poolOn (s : State) (g : Nat) (ok : Loc → Bool) : Option Loc :=
  (((List.range s.variant.reserveSlots).map (· + s.variant.hostSlots)).find? fun x =>
    poolSlot s g x && slotFree s g x && ok (locOfSlot g x)).map (locOfSlot g)

/-- Take a slot for an owner: a leaf number, or 2^30 + a reserve quire. -/
def takeSlot (s : State) (l : Loc) (owner : Nat) : State :=
  { s with ductus := { s.ductus with slots := Tab.set s.ductus.slots (slotKey l) owner } }
def freeSlot (s : State) (l : Loc) : State :=
  { s with ductus := { s.ductus with slots := Tab.del s.ductus.slots (slotKey l) } }

/-! ### Spread sets -/

/-- The channels of a spread set in force for striping (R155). -/
def stripeSet (s : State) (n : Nat) : List Nat :=
  (List.range s.variant.channels).filter fun g =>
    (Tab.at s.ductus.spreadForce (4 * n + g / 64) 0).getLsbD (g % 64)

/-- The leaves of a hard-class account. -/
def leavesOf (s : State) (a : Nat) : List (Nat × Leaf) := s.ductus.map.filter fun (_, e) => e.hard && e.spreadAccount == a

/-- How many of a list of leaves lie on a channel, and in one of its banks. -/
def countOn (ls : List (Nat × Leaf)) (g : Nat) : Nat := (ls.filter fun (_, e) => e.loc.chan == g).length
def countIn (ls : List (Nat × Leaf)) (g b : Nat) : Nat :=
  (ls.filter fun (_, e) => e.loc.chan == g && e.loc.bankIndex == b).length

/-- Where a leaf lies or is on its way to. -/
def aimOf (s : State) (k : Nat) (e : Leaf) : Loc :=
  match moveOf s k with
  | some (_, m) => (match m.dest with | .local l => l | .remote _ _ _ => e.loc)
  | none => e.loc

/-- The leaves of a hard-class account as they will lie once the moves in flight have switched. -/
def aimedLeaves (s : State) (a : Nat) : List (Nat × Leaf) := (leavesOf s a).map fun (k, e) => (k, { e with loc := aimOf s k e })

/-- Both conditions of R154 hold for an account over a set of channels. -/
def stripedOver (s : State) (a : Nat) (set : List Nat) : Bool :=
  let ls := leavesOf s a
  let n := ls.length
  let m := set.length
  m != 0 && ls.all (fun (_, e) => set.contains e.loc.chan)
    && set.all (fun g => decide (n / m ≤ countOn ls g) && decide (countOn ls g ≤ ceilDiv n m))
    && ls.all fun (_, e) => decide (countIn ls e.loc.chan e.loc.bankIndex ≤ ceilDiv n (16 * m) + 1)

/-- The fraction of its bandwidth that an account's stripe delivers (R163): all of it, but where a pinned leaf keeps the
stripe broken as much as the channel with most of its leaves allows. DESIGN CHOICE (assumption 79): the spec gives no
formula. -/
def stripeDelivers (s : State) (a : Nat) : Nat × Nat :=
  let ls := leavesOf s a
  let set := spreadSet s (s.get (ACC_CFG_SPREAD a))
  if !s.ductus.pinBroken.contains a then (1, 1)
  else (ls.length, set.length * set.foldl (fun n g => max n (countOn ls g)) 1)

/-- The free host slot of an in-channel bank with the lowest index. -/
def bankSlot (s : State) (g b : Nat) (ok : Loc → Bool) : Option Loc := slotFrom s g (b * 1600) 1600 ok

/-- A slot for a leaf of a hard-class account on a channel: in the bank that holds, or is about to hold, fewest of its
leaves among those with a free slot. -/
def hardSlotOn (s : State) (a g : Nat) (ok : Loc → Bool) : Option Loc :=
  let ls := aimedLeaves s a
  let banks := (List.range (16 * s.variant.layers)).filter fun b => (bankSlot s g b ok).isSome
  (leastBy (countIn ls g) banks).bind fun b => bankSlot s g b ok

/-- A slot for a leaf of a hard-class account: on the Normal channel of its set that holds, or is about to hold, fewest of
its leaves (R154). -/
def hardSlot (s : State) (a : Nat) (set : List Nat) (ok : Loc → Bool) : Option Loc :=
  let ls := aimedLeaves s a
  let cand := set.filter fun g => normalChan s g && decide (0 < freeOn s g) && (slotOn s g 0 ok).isSome
  (leastBy (countOn ls) cand).bind fun g => hardSlotOn s a g ok

/-- Where R153 places leaf `k` of quire `q`: from channel (q + 37 k) mod C upwards; the bank groups rotate through the
leaves of the quire on the channel. -/
def placeLeaf (s : State) (q k : Nat) : Option Loc :=
  let c := s.variant.channels
  let start := (q + 37 * k) % c
  match ((List.range c).map fun i => (start + i) % c).find? fun g => normalChan s g && decide (0 < freeOn s g) with
  | some g => slotOn s g (s.ductus.map.filter fun (n, e) => n / 512 == q && !e.remote && e.loc.chan == g).length anySlot
  | none => none

/-! ### The map cache (R145) -/

/-- Map block of a leaf. -/
def blockOf (leaf : Nat) : Nat := leaf / 8
/-- A block is locked: it holds an entry with HARD set. -/
def blockLocked (s : State) (b : Nat) : Bool := s.ductus.map.any fun (k, e) => k / 8 == b && e.hard
/-- The distinct locked blocks. -/
def lockedBlocks (s : State) : List Nat :=
  ((s.ductus.map.filter fun (_, e) => e.hard).map fun (k, _) => k / 8).eraseDups
/-- DCT_MAP_CACHE.LOCKED and SEL_TREE_CACHE.LOCKED follow the map (R145, R221). -/
def showLocked (s : State) : State :=
  (relock s).put DCT_MAP_CACHE_LOCKED (lockedBlocks s).length

/-- The set of the map cache a block falls into: the low bits of its number (assumption 21). -/
def cacheSet (b : Nat) : Nat := b % 16384
/-- The cache holds the block of a leaf. -/
def mapHit (s : State) (leaf : Nat) : Bool := (Tab.at s.ductus.cache (cacheSet (blockOf leaf)) []).contains (blockOf leaf)

/-- Use a block: it becomes the newest of its set. -/
def useBlock (s : State) (b : Nat) : State :=
  let l := Tab.at s.ductus.cache (cacheSet b) []
  { s with ductus := { s.ductus with cache := Tab.set s.ductus.cache (cacheSet b) (b :: l.filter (· != b)) } }

/-- Install a block: of a full set the least recently used unlocked block gives way; with all 16 locked nothing does. -/
def installBlock (s : State) (b : Nat) : State :=
  let l := (Tab.at s.ductus.cache (cacheSet b) []).filter (· != b)
  let l' := if l.length < 16 then l else
    match l.reverse.find? fun x => !blockLocked s x with | some v => l.filter (· != v) | none => l
  if 16 ≤ l'.length then s else
  { s with ductus := { s.ductus with cache := Tab.set s.ductus.cache (cacheSet b) (b :: l') } }

/-! ### Heat (R148, R152) -/

/-- LAST_SAMPLER code of an origin, which also names the requester whose accesses are counted (Table 5-1). -/
def samplerOf (o : Origin) : Nat :=
  match o with | .link p _ _ _ _ => p | .core c _ => if c < 8 then 0xFE else 0x80 + (c - 8) / 16 | .queue _ | .lentIn _ _ _ _ => 0xFE

/-- Insert a hot candidate into the current half: by falling HEAT; when full it displaces the coolest only if hotter. -/
def insertHot (l : List (Nat × Nat × Nat)) (x : Nat × Nat × Nat) : List (Nat × Nat × Nat) :=
  let l := l.filter fun y => y.2.1 != x.2.1
  let ins := l.takeWhile (fun y => decide (x.1 ≤ y.1)) ++ [x] ++ l.dropWhile (fun y => decide (x.1 ≤ y.1))
  ins.take 512

/-- Count an access to a leaf, and sample one in 2^SAMPLE_SHIFT of a requester's (R148): HEAT rises by 1 or 2,
LAST_SAMPLER is set, and the crossing of HOT_THRESHOLD lists the leaf. -/
def heatSample (s : State) (o : Origin) (leaf : Nat) (write : Bool) : State :=
  if (match o with | .queue _ | .lentIn _ _ _ _ => true | _ => false) then s else
  let c := samplerOf o
  let n := Tab.at s.ductus.heatCount c 0 + 1
  let shift := bitsOf s.ductus.heatForce.toNat 12 4
  if n < 2 ^ shift then { s with ductus := { s.ductus with heatCount := Tab.set s.ductus.heatCount c n } } else
  let s := { s with ductus := { s.ductus with heatCount := Tab.set s.ductus.heatCount c 0 } }
  match leafEntry s leaf with
  | none => s
  | some e =>
    let h := min 255 (e.heat + (if write then 2 else 1))
    let hot := bitsOf s.ductus.heatForce.toNat 24 8
    let s := setLeaf s leaf { e with heat := h, lastSampler := c }
    if e.heat < hot ∧ hot ≤ h then { s with ductus := { s.ductus with hot := insertHot s.ductus.hot (h, leaf, c) } } else s

/-! ### Moves -/

/-- DCT_MOVE_STATUS follows the moves in flight. -/
def showMoves (s : State) : State :=
  let live := s.ductus.moves.filter fun (_, m) => m.stage != .done
  (s.put DCT_MOVE_STATUS_IN_FLIGHT live.length).putB DCT_MOVE_STATUS_EVACUATING (live.any fun (_, m) => m.cause == 1)

/-- The lowest free move slot within SLOTS (R157); the move engine is stopped in the Fatal state (Table 18-7). -/
def freeMoveSlot (s : State) : Option Nat :=
  if s.fatal then none else (List.range (s.get DCT_MOVE_CTRL_SLOTS)).find? fun k => (Tab.find s.ductus.moves k).isNone

/-- The counter quire a move of a leaf reserves: one when the leaf is sealed-fresh and goes to a channel (R157). -/
def moveSelector (s : State) (leaf : Nat) (dest : MoveDest) : Option Nat :=
  match dest with
  | .local l => if (Tab.find s.sealing.counters leaf).isSome then freeSelector s l else none
  | .remote _ _ _ => none

/-- A move has what it reserves at its destination: a counter slot for a sealed-fresh leaf (R147, R157). -/
def reservable (s : State) (leaf : Nat) (dest : MoveDest) : Bool :=
  match dest with | .local l => fitsLeaf s leaf l | .remote _ _ _ => true

/-- Record a move in a slot of the move engine (R157). -/
def addMove (s : State) (k : Nat) (m : Move) : State :=
  showMoves { s with ductus := { s.ductus with
    moveSeq := s.ductus.moveSeq + 1
    moves := Tab.set s.ductus.moves k { m with seq := s.ductus.moveSeq, stageGen := s.ruling.gen } } }

/-- Spend the folio's budget of causes 3 and 4 (R156). -/
def spend (s : State) (cause bytes : Nat) : State :=
  if 3 ≤ cause then { s with ductus := { s.ductus with budget := s.ductus.budget - bytes } } else s

/-- Accept a move of a leaf (R157): the destination slot and a counter slot are reserved, MOVING set, the move recorded;
nothing happens without a move slot or the counter slot. -/
def startMove (s : State) (leaf cause : Nat) (e : Leaf) (dest : MoveDest) (item : Option Nat) : State :=
  match freeMoveSlot s with
  | none => s
  | some k =>
    if !reservable s leaf dest then s else
    let sel := moveSelector s leaf dest
    let s := match dest with
      | .local l => takeSlot (match sel with | some x => openCounter s l.chan x | none => s) l leaf
      | .remote _ _ _ => s
    addMove (setLeaf (spend s cause 4096) leaf { e with moving := true }) k
      { leaf := leaf, cause := cause, dest := dest, source := e.loc, item := item, selector := sel
        left := (Tab.find s.sealing.counters leaf).map Counter.selector
        sourceRemote := if e.remote then some (e.port, e.pbr, e.slot) else none }

/-- Send a class-0x06 event, "move ended", to every Scribe that subscribes (Table 11-3). -/
def moveEnded (s : State) (slot leaf : Nat) (aborted : Bool) : State :=
  s.each (List.range 8) fun s k => postEvent s k (descriptor 6 (slot + b2n aborted * 64 + leaf * 2 ^ 12))

/-- A slot on the channel of a list with the lowest DCT_LOAD bytes among those that have one, the lowest-numbered among
equals. -/
def loadedSlot (s : State) (gs : List Nat) (slot : Nat → Option Loc) : Option Loc :=
  (leastBy (fun g => s.get (DCT_LOAD_SERVED g)) (gs.filter fun g => (slot g).isSome)).bind slot

/-- Where what lies at a place goes (R95, R167.2, R167.3): to a free host-visible slot of its tower, then of the device,
then to one of the migration free pool. `stay` keeps its own channel among the candidates, as when a rank retires
(R136). What comes home from another node has no tower. -/
def softDest (s : State) (own : Option Loc) (stay : Bool) (ok : Loc → Bool) : Option Loc :=
  let normal := (List.range s.variant.channels).filter fun g =>
    normalChan s g && (stay || match own with | some l => g != l.chan | none => true)
  let tower := normal.filter fun g => match own with | some l => g / 64 == l.chan / 64 | none => false
  let host (g : Nat) : Option Loc := slotOn s g 0 ok
  let pool (g : Nat) : Option Loc := poolOn s g ok
  loadedSlot s tower host <|> loadedSlot s normal host <|> loadedSlot s tower pool <|> loadedSlot s normal pool

/-- Where an evacuated leaf goes (R167): a hard one first to the emptiest channel of its spread set. -/
def chooseDest (s : State) (leaf : Nat) (e : Leaf) (stay : Bool := false) : Option Loc :=
  let ok := fitsLeaf s leaf
  let set := (spreadSet s (s.get (ACC_CFG_SPREAD e.spreadAccount))).filter fun g => stay || g != e.loc.chan
  (if e.hard then hardSlot s e.spreadAccount set ok else none) <|>
    softDest s (if e.remote then none else some e.loc) stay ok

/-! ### Reserve quires and lent-in leaves on the move (R94, R146) -/

/-- 512 free slots of a channel for a reserve quire (R167.4). -/
def quireSlots (s : State) (g : Nat) : List Nat :=
  ((List.range s.variant.slots).filter fun x => slotFree s g x && (decide (x < s.variant.hostSlots) || poolSlot s g x)).take 512

/-- The channel a reserve quire goes to (R167.4): a Normal one of the same tower with room, then of any tower; its own
only when a rank of it retires. -/
def quireDest (s : State) (g : Nat) (stay : Bool := false) : Option Nat :=
  let ok (c : Nat) : Bool := normalChan s c && (stay || c != g) && (quireSlots s c).length == 512
  ((List.range s.variant.channels).find? fun c => c / 64 == g / 64 && ok c) <|>
    (List.range s.variant.channels).find? ok

/-- The slots that a reserve quire uses off its boot place are from now on those that it leaves. -/
def relabel (s : State) (old new : Nat) : State :=
  { s with ductus := { s.ductus with slots := s.ductus.slots.map fun (k, o) => (k, if o = old then new else o) } }

/-- Start moving a reserve quire whole to 512 slots of a channel (R146). -/
def moveQuireTo (s : State) (k q cause g c : Nat) (xs : List Nat) : State :=
  let s := (relabel s (quireOwner q) (leavingOwner q)).each xs fun s x => takeSlot s (locOfSlot c x) (quireOwner q)
  addMove (spend s cause (2 ^ 21)) k
    { leaf := q, quire := true, cause := cause, dest := .local { chan := c }, source := { chan := g } }

/-- Start moving a reserve quire to where R167.4 sends it. -/
def startQuireMove (s : State) (q cause g : Nat) (stay : Bool) : State :=
  match freeMoveSlot s, quireDest s g stay with
  | some k, some c => moveQuireTo s k q cause g c (quireSlots s c)
  | _, _ => s

/-- Start moving a lent-in leaf (R94): it goes where R167 sends a leaf that is not hard-class. -/
def startHostedMove (s : State) (slot : Nat) (l : Loc) (stay : Bool) : State :=
  match freeMoveSlot s, softDest s (some l) stay anySlot with
  | some k, some d => addMove (takeSlot s d (hostedOwner slot)) k
      { leaf := slot, hosted := true, cause := 1, dest := .local d, source := l }
  | _, _ => s

/-- Slots of a reserve quire that a table of owners lists. -/
def slotsOf (s : State) (owner : Nat) : List Loc :=
  (s.ductus.slots.filter fun (_, o) => o == owner).map fun (k, _) => locOfSlot (k / 2 ^ 19) (k % 2 ^ 19)

/-- The media places that a move fills. -/
def moveDests (s : State) (m : Move) : List Loc :=
  match m.dest with
  | .remote _ _ _ => []
  | .local d => if m.quire then slotsOf s (quireOwner m.leaf) else [d]

/-- The media places that a move empties. -/
def moveSources (s : State) (m : Move) : List Loc :=
  if m.quire then (List.range 512).filterMap (quireSlot s m.leaf)
  else if m.sourceRemote.isSome then [] else [m.source]

/-- A place lies where a whole channel, or one of its ranks, is under evacuation. -/
def Evacuation.at (v : Evacuation) (l : Loc) : Bool :=
  l.chan == v.chan && (match v.rank with | some r => l.rank == r | none => true)

/-- A rank of the place's own channel retires: that channel may still take what lies there (R136). -/
def rankLeaves (s : State) (l : Loc) : Bool := s.ductus.evacuations.any fun v => v.rank.isSome && v.at l

/-- Free slots now, or at the next line where the host has released the extent (Table 5-4). -/
def giveSlots (s : State) (later : Bool) (ls : List Loc) : State :=
  if later then { s with ductus := { s.ductus with freeNext := s.ductus.freeNext ++ ls.map slotKey } }
  else s.each ls freeSlot

/-- A move ends without a switch (R161): its destination is freed and what it moved stays where it was. -/
def dropMove (s : State) (k : Nat) (m : Move) (later : Bool) : State :=
  let s := giveSlots s later (moveDests s m)
  let s := closeCounters { s with ductus := { s.ductus with moves := Tab.del s.ductus.moves k } }
  if m.quire then relabel s (leavingOwner m.leaf) (quireOwner m.leaf)
  else if m.hosted then s
  else match leafEntry s m.leaf with
    | some e => setLeaf s m.leaf { e with moving := false }
    | none => s

/-- Issue an aborted move again, to a new destination (Table 5-4, R430). -/
def reissueMove (s : State) (m : Move) : State :=
  let stay := m.cause == 2 || rankLeaves s m.source
  if m.quire then startQuireMove s m.leaf m.cause m.source.chan ((moveSources s m).any (rankLeaves s))
  else if m.hosted then startHostedMove s m.leaf m.source stay
  else match leafEntry s m.leaf with
    | some e => match chooseDest s m.leaf e stay with | some l => startMove s m.leaf m.cause e (.local l) m.item | none => s
    | none => s

/-- Abort a move that has not switched (R161); a move of cause 1 or 2 is reissued at once when asked to. -/
def abortMove (s : State) (k : Nat) (reissue : Bool) (later : Bool := false) : State :=
  match Tab.find s.ductus.moves k with
  | none => s
  | some m =>
    if m.stage = .done ∨ m.stage = .switched then s else
    let s := dropMove s k m later
    let s := moveEnded (event (showMoves (s.inc DCT_MOVE_STATUS_ABORTS)) 0x50 429 k) k m.leaf true
    if reissue && decide (m.cause ≤ 2) then reissueMove s m else s

/-- Abort every move whose destination a predicate names, reissuing those of causes 1 and 2 (Table 5-4). -/
def abortTo (s : State) (p : Loc → Bool) : State :=
  s.each (s.ductus.moves.filter fun (_, m) => (moveDests s m).any p) fun s (k, _) => abortMove s k true

/-- Moves whose source a predicate names become cause 1 (Table 5-4). -/
def reclass (s : State) (p : Loc → Bool) : State :=
  showMoves { s with ductus := { s.ductus with
    moves := s.ductus.moves.map fun (k, m) => (k, if (moveSources s m).any p then { m with cause := 1 } else m) } }

/-- A lent-in slot is given back: a move of it ends, and its row is free. -/
def unhost (s : State) (slot : Nat) : State :=
  let s := match hostedMove s slot with | some (k, _) => abortMove s k false | none => s
  match Tab.find s.ductus.hosted slot with
  | none => s
  | some l =>
    let s := (freeSlot s l).dec DCT_LEND_HOSTED
    { s with
      ductus := { s.ductus with hosted := Tab.del s.ductus.hosted slot, lent := Tab.del s.ductus.lent slot }
      fabric := { s.fabric with recalled := s.fabric.recalled.filter (· != slot) } }

/-! ### Evacuation -/

/-- The leaf lies where an evacuation order reaches. A pinned leaf moves only if its media is being retired (R26), which
Erasure mode does not do. -/
def Evacuation.covers (v : Evacuation) (e : Leaf) : Bool :=
  !e.remote && v.at e.loc && (!v.hardOnly || (e.hard && !e.pinned))

/-- Reserve quires in use where an evacuation order reaches (R94): fixed ones; counter lines move with their leaves
(R218). -/
def Evacuation.quires (s : State) (v : Evacuation) : List Nat :=
  if v.hardOnly then [] else
  (List.range s.variant.fixedQuires).filter fun q => reserveChan s q == some v.chan &&
    (v.rank.isNone || (List.range 512).any fun j => (quireSlot s q j).any v.at)

/-- Lent-in leaves where an evacuation order reaches (R94). -/
def Evacuation.hosted (s : State) (v : Evacuation) : List (Nat × Loc) :=
  if v.hardOnly then [] else s.ductus.hosted.filter fun (_, l) => v.at l

/-- The fixed reserve quires of a channel that is Retired at boot are built on other channels, and its free-pool quires do
not exist (R146). -/
def replaceQuires (s : State) (g : Nat) : State :=
  s.each (List.range s.variant.reserveQuires) fun s q =>
    if reserveChan s q != some g then s else
    let c := if q < s.variant.fixedQuires then quireDest s g else none
    let s := match c with
      | some c => s.each (quireSlots s c) fun s x => takeSlot s (locOfSlot c x) (quireOwner q)
      | none => s
    { s with ductus := { s.ductus with reserve := Tab.set s.ductus.reserve q c } }

/-- Start as many moves of the evacuation orders as there are move slots (R94, R162, R167). -/
def pump (s : State) : State :=
  s.each s.ductus.evacuations fun s v =>
    let stay := v.rank.isSome
    let s := s.each (s.ductus.map.filter fun (_, e) => v.covers e && !e.moving) fun s (leaf, e) =>
      if (freeMoveSlot s).isNone then s else
      match chooseDest s leaf e stay with
      | some l => startMove s leaf 1 e (.local l) none
      | none => s
    let s := s.each (v.hosted s) fun s (slot, l) =>
      if (freeMoveSlot s).isNone || (hostedMove s slot).isSome then s else startHostedMove s slot l stay
    s.each (v.quires s) fun s q =>
      if (freeMoveSlot s).isNone || quireMoving s q then s else startQuireMove s q 1 v.chan stay

/-- Order an evacuation (R94, R98, R136): moves off the place become cause 1, free-pool quires of a channel that is
evacuated whole are dropped (R146), and moves begin. -/
def orderEvacuation (s : State) (v : Evacuation) : State :=
  let s := reclass s v.at
  let s := if v.rank.isNone && !v.hardOnly then
      let gone := (List.range s.variant.reserveQuires).filter fun q =>
        decide (s.variant.fixedQuires ≤ q) && !counterQuire s q && reserveChan s q == some v.chan
      { s with ductus := { s.ductus with reserve := gone.foldl (fun t q => Tab.set t q none) s.ductus.reserve } }
    else s
  let old := s.ductus.evacuations.filter fun o => !(o.chan == v.chan && o.rank == v.rank)
  pump { s with ductus := { s.ductus with evacuations := old ++ [v] } }

/-- Nothing is left for an evacuation order to move. -/
def evacuated (s : State) (v : Evacuation) : Bool :=
  !(s.ductus.map.any fun (_, e) => v.covers e) && (v.quires s).isEmpty && (v.hosted s).isEmpty
    && !(s.ductus.moves.any fun (_, m) => m.source.chan == v.chan && (m.quire || m.hosted))

/-- The base rubric of a role runs on some Scribe (Table 11-5); none does in the Fatal state (R519). -/
def baseRuns (s : State) (role : Nat) : Bool :=
  (List.range 8).any fun k =>
    match Tab.find s.rubrics (s.get (MBX_SCRIBE_HANDLE k)) with
    | some r => r.base && r.role == role && s.get (MBX_SCRIBE_HANDLE k) != 0 && s.get (MBX_SCRIBE_STATE k) == 1 && !s.fatal
    | none => false

end Sys2Proof.Machine
end

