-- ==== Sys2Proof/Machine/Calibration.lean ====
section
/-! DEFINITION. Calibration (chapter 16): sets and interpolation, trims, bank swaps, full-calibration holds and the
plausibility of their results. -/

namespace Sys2Proof.Machine

/-! ### Temperatures (R440, R441) -/

/-- A sensor's last sample, in 0.25 °C. -/
def sensorTemp (s : State) (i : Nat) : Int := signed 12 (s.get (THM_SENSOR_TEMP i))
def sensorFault (s : State) (i : Nat) : Bool := s.on (THM_SENSOR_FAULT i)
/-- The higher of two. -/
def imax (a b : Int) : Int := if a < b then b else a
/-- The sensors of a DRAM die (Table 15-1). -/
def dieSensors (t l : Nat) : List Nat := (List.range 4).map fun i => 96 + 68 * t + 4 * l + i
/-- Temperature of a DRAM die: the highest of its sensors that have not faulted, and at least PEAK_L0_C when one has
(R441). -/
def dieTemp (s : State) (t l : Nat) : Int :=
  let ss := dieSensors t l
  let good := (ss.filter fun i => !sensorFault s i).map (sensorTemp s)
  let m := good.foldl imax (-512)
  if ss.any (sensorFault s) then imax m (4 * s.get THM_LIMITS_PEAK_L0_C) else m

/-! ### Units -/

def calUnit (s : State) (u : Nat) : CalUnit := Tab.at s.cal u {}
def setCal (s : State) (u : Nat) (x : CalUnit) : State := { s with cal := Tab.set s.cal u x }

/-- The values of a unit. -/
def unitValues (u : Nat) : List Nat := List.range (if u < 256 then 131 else 1024)

/-- Driving temperature of a value (Table 16-1): the tower's L0 for TSV delays, the die of the rank's layer for DRAM
values, the hottest base-die sensor of the quadrant for lanes. -/
def drivingTemp (s : State) (u v : Nat) : Int :=
  if 256 ≤ u then ((List.range 8).map fun i => sensorTemp s (32 + 8 * (u - 256) + i)).foldl imax (-512)
  else if v < 63 then dieTemp s (u / 64) 0
  else dieTemp s (u / 64) ((v - 63) / 4)

/-- The points of a unit for a value, as (temperature in 0.25 °C, value): the five set points and the field set (R462,
R463). -/
def points (x : CalUnit) (v : Nat) : List (Int × Int) :=
  ((List.range 5).map fun (i : Nat) => ((-20 + 100 * (i : Int) : Int), Tab.at (Tab.at x.sets i []) v 0))
    ++ (match x.field with | some (t, f) => [(t, Tab.at f v 0)] | none => [])

/-- n / d rounded to the nearest, halves away from zero, d positive. -/
def roundDiv (n d : Int) : Int := if 0 ≤ n then (2 * n + d) / (2 * d) else -((2 * (-n) + d) / (2 * d))

/-- The base value of a quantity at a temperature (R463). -/
def baseValue (x : CalUnit) (v : Nat) (t : Int) : Int :=
  let t := if t < -20 then -20 else if 380 < t then 380 else t
  let ps := points x v
  let below := ps.foldl (fun (b : Int × Int) p => if p.1 ≤ t ∧ b.1 ≤ p.1 then p else b) (-20, Tab.at (Tab.at x.sets 0 []) v 0)
  let above := ps.foldl (fun (a : Int × Int) p => if t ≤ p.1 ∧ p.1 ≤ a.1 then p else a) (380, Tab.at (Tab.at x.sets 4 []) v 0)
  if below.1 = t then below.2 else if above.1 = t then above.2
  else below.2 + roundDiv ((above.2 - below.2) * (t - below.1)) (above.1 - below.1)

/-- The Fld of a unit's DRIFT and REJECTED_LAST bits. -/
def driftF (u : Nat) : Fld := if u < 256 then COL_CAL_CHANNEL_DRIFT u else COL_CAL_QUAD_DRIFT (u - 256)
def rejectedF (u : Nat) : Fld := if u < 256 then COL_CAL_CHANNEL_REJECTED_LAST u else COL_CAL_QUAD_REJECTED_LAST (u - 256)

/-- A unit's largest trim magnitude (Table 16-6). -/
def trimMax (x : CalUnit) : Nat := x.trim.foldl (fun n (_, t) => max n t.natAbs) 0

/-- Show the largest trim of a channel. -/
def showTrim (s : State) (u : Nat) : State :=
  if u < 256 then s.put (COL_CAL_CHANNEL_TRIM_MAX u) (trimMax (calUnit s u)) else s

/-- Move the trims of some values by one step each (R127 step 2, R464): clamped to 8 steps either way; a trim that
reaches the clamp sets DRIFT, with a Notice the first time. -/
def trimSteps (s : State) (u : Nat) (moves : List (Nat × Bool)) : State :=
  let x := calUnit s u
  let clamp (t : Int) : Int := if 8 < t then 8 else if t < -8 then -8 else t
  let trim := moves.foldl (fun tr (v, up) => Tab.put tr v (clamp (Tab.at tr v 0 + (if up then 1 else -1))) 0) x.trim
  let hit := moves.any fun (v, _) => (Tab.at trim v 0).natAbs == 8
  let s := showTrim (setCal s u { x with trim := trim }) u
  if hit && !s.on (driftF u) then event (s.put (driftF u) 1) 0x101 439 u else s

/-- Swap a loaded shadow bank in (R465): the base values change at once, the trims stay. -/
def swapBank (s : State) (u : Nat) : State :=
  let x := calUnit s u
  match x.shadow with
  | some b => setCal s u { x with base := b, shadow := none }
  | none => s

/-- Evaluate a unit at line 0 (R465): when a base value differs from the one in force the whole set goes to the shadow
bank; a unit whose hold runs is skipped (Table 16-4). -/
def evaluateUnit (s : State) (u : Nat) : State :=
  let x := calUnit s u
  if x.holdGen.isSome ∨ !s.on COL_CAL_CTRL_APPLY_ENABLE then s else
  let new := (unitValues u).foldl (fun t v => Tab.put t v (baseValue x v (drivingTemp s u v)) 0) []
  if new = x.base then s else setCal s u { x with shadow := some new, loadFolio := some s.folio }

/-- The units of the variant: channels and lane quadrants. -/
def calUnits (s : State) : List Nat :=
  List.range s.variant.channels ++ (List.range (s.variant.ports / 16)).map (256 + ·)

/-- A full calibration of a channel falls due (R464, R467): it is in Normal or Erasure state, and its DRIFT is set or its
tower's L0 temperature has moved by more than TRIGGER_DELTA since the last accepted one; after a second rejection running
the temperature has moved a further 5.0 °C (R470). -/
def fullDue (s : State) (g : Nat) : Bool :=
  let x := calUnit s g
  let t := dieTemp s (g / 64) 0
  let moved := decide (s.get COL_CAL_CTRL_TRIGGER_DELTA < (t - signed 12 (s.get (COL_CAL_CHANNEL_LAST_FULL_TEMP g))).natAbs)
  let freed := match x.rejectedAt with | some r => decide (20 ≤ (t - r).natAbs) | none => true
  usableChan s g && x.holdGen.isNone && freed && (s.on (driftF g) || moved)

/-- The base calibration rubric's requests at line 0 (R467), on the variants that may calibrate in the field. -/
def baseCalibration (s : State) : State :=
  if s.variant = .v4384 ∨ !s.on COL_CAL_CTRL_FULL_ENABLE ∨ !baseRuns s 5 then s else
  s.each ((List.range s.variant.channels).filter (fullDue s)) fun s g => setCal s g { calUnit s g with requested := true }

/-- CAL_FOLIO_EVALUATE (R465, R467): at line 0 of a folio. -/
def execCalFolioEvaluate (s : State) : Host.Outcome State Fault Refusal :=
  .next (
    if s.lineInFolio ≠ 0 then s else
    let s := s.each (List.range (s.variant.ports / 16)) fun s q =>
      s.put (COL_CAL_QUAD_TEMP q) (satSigned 12 (drivingTemp s (256 + q) 0))
    baseCalibration (s.each (calUnits s) fun s u => if (calUnit s u).loadFolio = some s.folio then s else evaluateUnit s u))

/-- LANE_SET_SWAP (R465): a lane unit's loaded bank swaps at the line edge after the line 0 that loaded it. -/
def execLaneSetSwap (quad : Fin 4) (s : State) : Host.Outcome State Fault Refusal :=
  .next (
    let loadedNow := (calUnit s (256 + quad)).loadFolio == some s.folio && s.lineInFolio == 0
    if loadedNow then s else swapBank s (256 + quad))

/-- CAL_REQUEST (R466, R467): COL_CAL_REQUEST START; refused with a Notice on the V4384 or while FULL_ENABLE is 0. -/
def requestCal (s : State) (w : BitVec 64) : State :=
  let g := w.toNat % 256
  if !w.getLsbD 8 then s
  else if s.variant = .v4384 ∨ !s.on COL_CAL_CTRL_FULL_ENABLE ∨ s.variant.channels ≤ g then notice s 439
  else setCal s g { calUnit s g with requested := true }

/-- CAL_REQUEST. -/
def execCalRequest (value : BitVec 64) (s : State) : Host.Outcome State Fault Refusal := .next (requestCal s value)

/-- CAL_HOLD_START (R467): the hold of a requested channel in Normal or Erasure state begins on the line edge with
s mod 64 = 16 t + 1; a tower holds one channel per folio, the lowest-numbered that waits. -/
def execCalHoldStart (chan : Fin 256) (s : State) : Host.Outcome State Fault Refusal :=
  .next (
    let g := chan.val
    let x := calUnit s g
    let other := s.cal.any fun (u, y) => decide (u < 256) && u / 64 == g / 64 &&
      y.heldFolio == some s.folio
    let lower := (List.range (g % 64)).any fun i =>
      (calUnit s (64 * (g / 64) + i)).requested && usableChan s (64 * (g / 64) + i)
    if x.requested && usableChan s g && !lower && s.ruling.gen % 64 == 16 * (g / 64) + 1 && !other && x.holdGen.isNone then
      (setCal s g { x with requested := false, holdGen := some s.ruling.gen, heldFolio := some s.folio }).put (COL_CAL_CHANNEL_HOLDING g) 1
    else s)

/-- A result is rejected (R470): discarded; a second consecutive rejection is a Degraded event. -/
def rejectResult (s : State) (u : Nat) : State :=
  let x := calUnit s u
  let s := setCal s u { x with
    rejections := x.rejections + 1, holdGen := none
    rejectedAt := if 1 ≤ x.rejections then some (drivingTemp s u 0) else none }
  let s := event ((s.put (rejectedF u) 1).inc COL_CAL_COUNTS_REJECTED) 0x100 439 u
  if x.rejections + 1 = 2 then event s 0x102 439 u else s

/-- The hold of a channel ends with its result discarded (Table 16-4). -/
def cancelHold (s : State) (g : Nat) (again : Bool) : State :=
  let x := calUnit s g
  if x.holdGen.isNone then s else
  (setCal s g { x with holdGen := none, requested := x.requested || again }).put (COL_CAL_CHANNEL_HOLDING g) 0

/-- An accepted full calibration at temperature `t` (R462, R464): the result becomes the field set, and the set of a
set point within 2.5 °C; the trims are zeroed and DRIFT clears. -/
def acceptResult (s : State) (u : Nat) (t : Int) (r : Tab Int) : State :=
  let x := calUnit s u
  let near := (List.range 5).find? fun (i : Nat) => decide ((t - (-20 + 100 * (i : Int))).natAbs ≤ 10)
  let s := setCal s u { x with
    field := some (t, r), sets := (match near with | some i => Tab.set x.sets i r | none => x.sets)
    base := r, trim := [], rejections := 0, rejectedAt := none, holdGen := none }
  let s := (showTrim s u).inc COL_CAL_COUNTS_ACCEPTED
  let s := (s.put (driftF u) 0).put (rejectedF u) 0
  if u < 256 then (s.put (COL_CAL_CHANNEL_LAST_FULL_TEMP u) (satSigned 12 t)).put (COL_CAL_CHANNEL_LAST_FULL_FOLIO u) (s.folio % 2 ^ 32)
  else s

/-! ### Lanes (R461, R466, R469, R470) -/

/-- The values of a lane in its quadrant's sets (Table 16-3): RX_SETTING at 4 × its number there, then the offset trim at + 2
and the preset at + 3. -/
def laneValue (p l : Nat) : Nat := 4 * (16 * (p % 16) + l)

/-- The equalization of a lane is its full calibration (R466): `best` the setting it keeps with its eye height in mV and the
best preset. It is accepted within Table 16-2: its setting is the lane's, and its unit's field set; else it is rejected and
the lane uses its interpolated setting (R470). Answers the setting. -/
def calibrateLane (s : State) (p l : Nat) (best : Option (Nat × Nat × Nat)) (drift : Nat) : State × Nat :=
  let u := 256 + p / 16
  let v := laneValue p l
  let b := (calUnit s u).base
  match best with
  | some (setting, preset, eye) =>
    if 6 ≤ eye ∧ drift ≤ 12 then
      (acceptResult s u (drivingTemp s u 0) (Tab.put (Tab.put b v setting 0) (v + 3) preset 0), setting)
    else (rejectResult s u, (Tab.at b v 0).toNat % 4096)
  | none => (rejectResult s u, (Tab.at b v 0).toNat % 4096)

/-- The limits of Table 16-2 on delays: at most 16 steps from the value in force for TSV delays, 24 for DRAM values. -/
def withinSteps (x : CalUnit) (r : Tab Int) : Bool :=
  (unitValues 0).all fun v =>
    let d := (Tab.at r v 0 - (Tab.at x.base v 0 + Tab.at x.trim v 0)).natAbs
    decide (d ≤ (if v < 63 then 16 else if v % 4 = 2 then 100000 else 24))

/-- CAL_HOLD_COMPLETE (R469, R470): the hold's result with its temperature; `eyes` says whether eye widths, spread and
reference codes are within Table 16-2, `drift` by how much the driving temperature moved, in 0.25 °C. -/
def execCalHoldComplete (chan : Fin 256) (temp : Int) (values : List (Nat × Int)) (eyes : Bool) (drift : Nat) (s : State) :
    Host.Outcome State Fault Refusal :=
  .next (
    let g := chan.val
    let x := calUnit s g
    if x.holdGen.isNone then s else
    let s := s.put (COL_CAL_CHANNEL_HOLDING g) 0
    let r : Tab Int := values.foldl (fun t (v, z) => if v < 131 then Tab.put t v z 0 else t) []
    if eyes && decide (drift ≤ 12) && withinSteps x r then acceptResult s g temp r else rejectResult s g)

/-- CAL_RECORD_FLUSH (R473): an accepted field set is written to flash at most once in 600 s of powered time. -/
def execCalRecordFlush (unit : Fin 260) (s : State) : Host.Outcome State Fault Refusal :=
  .next (
    let x := calUnit s unit
    let now := s.colophon.life.seconds
    let due := match x.storedAt with | some t => decide (t + 600 ≤ now) | none => true
    if due && x.field != x.stored && x.field.isSome then
      setCal s unit { x with stored := x.field, storedAt := some now }
    else s)

end Sys2Proof.Machine
end

