-- ==== Sys2Proof/Machine/Cores.lean ====
section
/-! DEFINITION. The registers, predicates and local memory of the cores (R307 to R311): what every Bexorn meaning reads
and writes them through. -/

namespace Sys2Proof.Machine

def core (s : State) (k : Nat) : CoreState := Tab.at s.cores k {}
def setCore (s : State) (k : Nat) (c : CoreState) : State := { s with cores := Tab.set s.cores k c }
def modCore (s : State) (k : Nat) (f : CoreState → CoreState) : State := setCore s k (f (core s k))

/-- Cores 0 to 7 are the Scribes. -/
def isScribe (k : Nat) : Bool := decide (k < 8)

/-- MASTER of a core (Table 18-4). -/
def coreMaster (k : Nat) : Nat := if k < 8 then internalMaster k else nibMaster (k - 8)

/-- The Blotter source of a core (Table 18-1): its Scribe, or its nib cluster. -/
def coreSource (k : Nat) : Nat := if k < 8 then 404 + k else 384 + (k - 8) / 16

/-! ### Registers (R307 to R309) -/

/-- w registers: w0 reads as zero. -/
def CoreState.w (c : CoreState) (n : Nat) : BitVec 64 := if n = 0 then 0 else Tab.at c.regs n 0
/-- An access that an instruction's write of `n` overtakes delivers nothing any more (R315). -/
def CoreAccess.overtaken (a : CoreAccess) (n : Nat) : CoreAccess :=
  match a.kind with
  | .load (some w) z x => if w = n then { a with kind := .load none z x } else a
  | .atomic (some w) z q => if w = n then { a with kind := .atomic none z q } else a
  | _ => a
/-- Write a w register: a write to w0 is discarded. -/
def CoreState.setW (c : CoreState) (n : Nat) (v : BitVec 64) : CoreState :=
  if n = 0 then c else { c with regs := Tab.put c.regs n v 0, outstanding := c.outstanding.map fun a => a.overtaken n }
/-- p0 reads as 1. -/
def CoreState.p (c : CoreState) (n : Nat) : Bool := n == 0 || c.preds.getLsbD n
/-- A write to p0 is discarded. -/
def CoreState.setP (c : CoreState) (n : Nat) (v : Bool) : CoreState :=
  if n = 0 then c else { c with preds := BitVec.ofNat 8 (putBit c.preds.toNat n v) }
/-- A guard (R308). -/
def CoreState.guard (c : CoreState) (p : Nat) (neg : Bool) : Bool := c.p p != neg
/-- v registers of a nib core (R309). -/
def CoreState.v (c : CoreState) (n : Nat) : BitVec 512 := Tab.at c.vregs n 0
/-- An access whose vector destination is overtaken. -/
def CoreAccess.overtakenV (a : CoreAccess) (n : Nat) : CoreAccess :=
  match a.kind with
  | .vector (some w) => if w = n then { a with kind := .vector none } else a
  | _ => a
def CoreState.setV (c : CoreState) (n : Nat) (x : BitVec 512) : CoreState :=
  { c with vregs := Tab.put c.vregs n x 0, outstanding := c.outstanding.map fun a => a.overtakenV n }

def setReg (s : State) (k n : Nat) (v : BitVec 64) : State := modCore s k fun c => c.setW n v

/-! ### Byte memories (R6, R311) -/

/-- `n` bytes from address `a` of a byte memory; unlisted bytes read as zero. -/
def bytesAt (m : Tab (BitVec 8)) (a n : Nat) : List (BitVec 8) := (List.range n).map fun i => Tab.at m (a + i) 0

/-- The memory with bytes written from address `a` on. -/
def putBytes (m : Tab (BitVec 8)) (a : Nat) (l : List (BitVec 8)) : Tab (BitVec 8) :=
  l.zipIdx.foldl (fun m (b, i) => Tab.put m (a + i) b 0) m

/-- The little-endian number at an address. -/
def numAt (m : Tab (BitVec 8)) (a n : Nat) : Nat := leNat (bytesAt m a n)

/-- Size of the local space (Table 10-4). -/
def localSize : Nat := 0x40000

/-- Code of the variant in CS_CORE and GET_INFO. -/
def variantCode (v : Variant) : Nat := match v with | .v4384 => 0 | .v4192 => 1 | .v2096 => 2

/-! ### Answers to outstanding accesses (R315, R318, R321, R334) -/

/-- The answer to an outstanding access, once it is there. -/
def answerTo (s : State) (k : Nat) (a : CoreAccess) : Option Reply := Tab.find s.fabric.replies (512 * a.slot + k)

/-- The fault cause (Table 10-5) that an answer brings; none for a good one. -/
def replyCause (a : Await) (r : Reply) : Option Nat :=
  let st := match a with | .store => true | _ => false
  match r with
  | .data _ | .done => none
  | .poison => some (if st then 0x0A else 0x09)
  | .refused => some 0x08
  | .unmapped => some 0x07
  | .failed | .timeout => some 0x0A

/-- The oldest outstanding access that has failed, with its cause. -/
def failedAccess (s : State) (k : Nat) : Option (CoreAccess × Nat) :=
  (core s k).outstanding.findSome? fun a => match answerTo s k a with
    | some r => (replyCause a.kind r).map fun c => (a, c)
    | none => none

/-- Take an access and its answer off the books. -/
def dropAccess (s : State) (k slot : Nat) : State :=
  let s := modCore s k fun c => { c with outstanding := c.outstanding.filter fun a => a.slot != slot }
  { s with fabric := { s.fabric with replies := Tab.del s.fabric.replies (512 * slot + k) } }

/-! ### Work items -/

def itemAt (s : State) (i : Nat) : Option Item := Tab.find s.queues.items i
def setItem (s : State) (i : Nat) (x : Item) : State := { s with queues := { s.queues with items := Tab.set s.queues.items i x } }

/-- NIB_CORE.DEPTH follows a core's dispatch queue. -/
def showDepth (s : State) (k : Nat) : State := s.put (NIB_CORE_DEPTH (k - 8)) (core s k).queue.length

/-- A nib cluster was last in use in this folio (R387). -/
def noteUse (s : State) (k : Nat) : State :=
  { s with queues := { s.queues with idle := Tab.set s.queues.idle ((k - 8) / 16) s.folio } }

/-- The items of a core's dispatch queue that have not started are placed again (R100, R386). -/
def requeueItems (s : State) (k : Nat) : State :=
  let is := (core s k).queue
  if is.isEmpty then s else
  let s := is.foldl (fun s i => match itemAt s i with
    | some x => setItem s i { x with place := .waiting, retry := false }
    | none => s) s
  noteUse (showDepth (modCore s k fun c => { c with queue := [] }) k) k

/-- The work of a core whose channel is Retired is to go to other cores of its cluster (Table 3-9). -/
def keepCluster (s : State) (k : Nat) : State :=
  (core s k).queue.foldl (fun s i => match itemAt s i with
    | some x => setItem s i { x with cluster := some ((k - 8) / 16) }
    | none => s) s

/-- The pairs whose OWNER is a sub-link's logical device. -/
def pairsOn (s : State) (p j : Nat) : List Nat :=
  (s.queues.pairs.filter fun (_, x) => x.cfg.getLsbD 63 && bitsOf x.cfg.toNat 22 10 == 4 * p + j).map (·.1)

/-- An item has started: itself, or for a split item some sub-item of it. -/
def begun (s : State) (i : Nat) : Bool :=
  let whole := match itemAt s i with | some x => (match x.parent with | some (p, _) => p | none => i) | none => i
  s.queues.items.any fun (j, x) => x.started && (j == whole || (match x.parent with | some (p, _) => p == whole | none => false))

/-- The items of a sub-link's pairs that have not started are discarded when it goes down (Table 12-14). -/
def discardItems (s : State) (p j : Nat) : State :=
  let ps := pairsOn s p j
  let gone := s.queues.items.filter fun (i, x) => ps.contains x.pair && !begun s i
  if gone.isEmpty then s else
  let ids := gone.map (·.1)
  let lost (n : Nat) : Nat := (gone.filter fun (_, x) => x.pair == n && x.parent.isNone).length
  let pairs := s.queues.pairs.map fun (n, q) => (n, { q with inFlight := q.inFlight - lost n })
  let items := s.queues.items.filter fun (i, _) => !ids.contains i
  let s := { s with queues := { s.queues with items := items, pairs := pairs } }
  let ks := (s.cores.filter fun (_, c) => c.queue.any ids.contains).map (·.1)
  let s := ks.foldl (fun s k =>
    noteUse (showDepth (modCore s k fun c => { c with queue := c.queue.filter fun i => !ids.contains i }) k) k) s
  event s 0xC3 430 gone.length

end Sys2Proof.Machine
end

