-- ==== Sys2Proof/Machine/Channel.lean ====
section
/-! DEFINITION. The channel controllers' shared operations (chapters 3 and 4): the code and the repair cascade, rank
failure, the request pools, refresh and targeted refresh. Their commands are in ChannelRows.lean. -/

namespace Sys2Proof.Machine

/-- Send an event descriptor to every Scribe that subscribes to its class. -/
def broadcast (s : State) (d : BitVec 64) : State := s.each (List.range 8) fun s k => postEvent s k d

/-- A field repair goes to the Colophon (R99, Table 19-3): kind and index as the table gives. -/
def recordRepair (s : State) (g kind index : Nat) : State :=
  toColophon s (.repair g kind index (s.word (CHN_REPAIR_STATE_STATE g).addr))

/-! ### Channel states (R93) -/

/-- The badness of a state code, to compare states. -/
def stateRank (c : Nat) : Nat := if c = 5 then 4 else if c = 4 then 3 else c

/-- User ranks of a channel that are retired. -/
def retiredRanks (s : State) (g : Nat) : Nat := popCount 16 (s.get (CHN_REPAIR_STATE_RETIRED_RANKS g))

/-- Some strobe, clock or alert signal has lost both copies (R97). -/
def signalLost (s : State) (g : Nat) : Bool :=
  let st := s.get (CHN_CA_TSV_FAILED_STROBE_COPY g)
  let ck := s.get (CHN_CA_TSV_FAILED_CLOCK_COPY g)
  (List.range 4).any (fun k => bitsOf st (2 * k) 2 == 3) || (bitsOf ck 0 2 != 0 && bitsOf ck 2 2 != 0)
    || s.get (CHN_CA_TSV_FAILED_ALERT_COPY g) == 3

/-- The state that a channel's failures call for (Table 3-8). -/
def stateFor (s : State) (g : Nat) : Nat :=
  let d := s.get (CHN_REPAIR_STATE_DATA_FAILED g)
  let c := s.get (CHN_REPAIR_STATE_CA_FAILED g)
  let limit := match s.variant with | .v4384 => 4 | _ => 2
  if 9 ≤ d ∨ 10 ≤ c ∨ signalLost s g then 5
  else if 6 ≤ d ∨ limit ≤ retiredRanks s g then 4
  else if 4 ≤ c then 2
  else if d = 5 then 1 else 0

/-- A channel leaves every spread set (R155). -/
def leaveSpreadSets (s : State) (g : Nat) : State :=
  s.each (List.range 512) fun s n => s.setFlag (DCT_SPREAD_SET_ALL n (g / 64)) (g % 64) false

/-- Count a demand for the release of quires (R95, R136). -/
def wantRelease (s : State) (n : Nat) : State := { s with fabric := { s.fabric with wanted := s.fabric.wanted + n } }

/-- A channel enters a worse state (R93 to R98): STATE, the events, the spread sets, moves towards it, the
release that a Retired channel calls for (R95), and the evacuation that the state orders. `lost` says that nothing of the channel can be read. -/
def enterState (s : State) (g new : Nat) (lost : Bool) : State :=
  let s := s.put (CHN_REPAIR_STATE_STATE g) new
  let s := if 2 ≤ new then requeueItems (if new = 5 then keepCluster s (8 + g) else s) (8 + g) else s
  let s := if new = 5 then wantRelease s (match s.variant with | .v4384 => 800 | _ => 400) else s
  let s := event s (if new = 1 then 0x32 else if new = 5 then 0x34 else 0x33) g new
  let s := recordRepair s g 5 new
  let s := broadcast s (descriptor 10 (g + new * 256))
  let s := cancelHold (leaveSpreadSets s g) g false
  let s := abortTo s fun l => l.chan == g
  if new = 1 then orderEvacuation s { chan := g, hardOnly := true }
  else if new = 5 ∧ !lost then s
  else orderEvacuation s { chan := g, poisoned := lost }

/-- Move a channel to the state its failures call for, if that is worse (R93). -/
def updateState (s : State) (g : Nat) : State :=
  let new := stateFor s g
  if stateRank new ≤ stateRank (s.get (CHN_REPAIR_STATE_STATE g)) then s else enterState s g new (new == 5)

/-- An evacuation order that has nothing left ends; a Slow-command or Retiring channel with no order to evacuate it whole
left is Retired (Table 3-8). -/
def finishEvacuations (s : State) : State :=
  let s := { s with ductus := { s.ductus with evacuations := s.ductus.evacuations.filter fun v => !evacuated s v } }
  s.each (List.range s.variant.channels) fun s g =>
    let st := s.get (CHN_REPAIR_STATE_STATE g)
    if (st == 2 || st == 4) && !(s.ductus.evacuations.any fun v => v.chan == g && v.rank.isNone && !v.hardOnly) then
      enterState s g 5 false
    else s

/-! ### TSVs (R77, R90 to R92) -/

/-- Physical data TSV of each logical position under the remap in force; none when unmapped (R91). -/
def physTsv (applied j : Nat) : Option Nat := ((List.range 44).filter fun i => !bit applied i)[j]?

/-- A logical position is an erasure (R77): unmapped, or on a TSV declared failed in an earlier line and not yet
remapped. -/
def erased (s : State) (g j : Nat) : Bool :=
  match physTsv (chan s g).applied j with
  | none => true
  | some t => s.flag (CHN_DATA_TSV_FAILED_FAILED g) t
      && (match Tab.find (chan s g).declared t with | some l => decide (l < s.ruling.gen) | none => true)

/-- Physical command/address TSV of each logical position under the remap in force; none when unmapped (R91). -/
def caTsv (applied j : Nat) : Option Nat := if j < 12 then ((List.range 15).filter fun i => !bit applied i)[j]? else none

/-- The command/address TSVs that carry a channel's commands: those of its logical positions, or with more failures than
spares the six lowest-numbered working ones (Table 3-8). -/
def caWires (s : State) (g : Nat) : List Nat :=
  let n := if 3 < s.get (CHN_REPAIR_STATE_CA_FAILED g) then 6 else 12
  (List.range n).filterMap (caTsv (chan s g).appliedCa)

/-- The erasures of a channel. -/
def erasures (s : State) (g : Nat) : List Nat := (List.range 40).filter (erased s g)

/-- A data TSV is declared failed (R90): permanent, an event while a spare is left, the remap waits for the next
pause. -/
def declareData (s : State) (g t : Nat) : State :=
  if s.flag (CHN_DATA_TSV_FAILED_FAILED g) t then s else
  let s := (s.setFlag (CHN_DATA_TSV_FAILED_FAILED g) t).put (CHN_REPAIR_STATE_DATA_FAILED g) (s.get (CHN_REPAIR_STATE_DATA_FAILED g) + 1)
  let s := modChan s g fun c => { c with declared := Tab.set c.declared t s.ruling.gen }
  let s := cancelHold (recordRepair s g 0 t) g true
  let s := if s.get (CHN_REPAIR_STATE_DATA_FAILED g) ≤ 4 then event s 0x30 g t else s
  updateState s g

/-- A command/address TSV is declared failed (R90, R92): a repair pause will apply its remap. -/
def declareCa (s : State) (g t : Nat) : State :=
  if s.flag (CHN_CA_TSV_FAILED_FAILED g) t then s else
  let s := (s.setFlag (CHN_CA_TSV_FAILED_FAILED g) t).put (CHN_REPAIR_STATE_CA_FAILED g) (s.get (CHN_REPAIR_STATE_CA_FAILED g) + 1)
  let s := modChan s g fun c => { c with caRepair := true }
  let s := cancelHold (recordRepair s g 1 t) g true
  let s := if s.get (CHN_REPAIR_STATE_CA_FAILED g) ≤ 3 then event s 0x30 g (64 + t) else s
  updateState s g

/-! ### Decoding (R77 to R79, R138) -/

/-- The errors of a burst at positions that are not erasures. -/
def unknownErrors (s : State) (g : Nat) (errors : List (Fin 40)) : List Nat :=
  ((errors.map Fin.val).eraseDups).filter fun j => !erased s g j

/-- A decode succeeds when 2 e + f ≤ 4 (R77); nothing of a Retired channel can be read (R96). -/
def decodes (s : State) (g : Nat) (errors : List (Fin 40)) : Bool :=
  decide (2 * (unknownErrors s g errors).length + (erasures s g).length ≤ 4) && s.get (CHN_REPAIR_STATE_STATE g) != 5

/-- Reads a bank's rows can still be given a repair row (R83). -/
def outOfRepair (s : State) (g bank : Nat) : Bool := decide (8 ≤ Tab.at (chan s g).repairUsed bank 0)

/-- The row of a bank as the leaf map names it: a row of rank 16 by the rank it serves; none while it serves none. -/
def mapBank (s : State) (g bank : Nat) : Option Nat :=
  if bank < 256 then some bank else (chan s g).servedBySpare.map fun r => 16 * r + bank % 16

/-- A pending row whose bank is out of repair rows is reported to the Ductus (R138). -/
def reportRow (s : State) (g bank row : Nat) : State :=
  match mapBank s g bank with
  | some b => { s with ductus := { s.ductus with noPlace := (g, b, row) :: s.ductus.noPlace } }
  | none => s

/-- PENDING_ROWS follows the row error table (Table 4-12). -/
def showPending (s : State) (g : Nat) : State :=
  s.put (CHN_ERROR_PENDING_ROWS g) ((chan s g).rowErrs.filter (·.pending)).length

/-- The row error table takes corrected symbols of a row (R138): 4 within 64 folios mark the row pending repair; of a
full table the oldest row not pending gives way. -/
def rowErrors (s : State) (g bank row n : Nat) : State :=
  let c := chan s g
  let old := c.rowErrs.find? fun r => r.bank == bank && r.row == row
  let before := match old with | some r => r.folios | none => []
  let folios := List.replicate n s.folio ++ before.filter fun f => decide (s.folio < f + 64)
  let pending := match old with | some r => r.pending | none => false
  let rest := c.rowErrs.filter fun r => !(r.bank == bank && r.row == row)
  let rest := if rest.length < 32 then rest else
    match rest.findIdx? fun r => !r.pending with | some i => rest.eraseIdx i | none => rest
  if 32 ≤ rest.length then s else
  let mark := decide (4 ≤ folios.length) && !pending
  let s := setChan s g { c with
    rowErrs := rest ++ [{ bank := bank, row := row, folios := folios.take 4, pending := pending || mark }] }
  if !mark then s else
  let s := event (showPending s g) 0x49 g (bank * 2 ^ 11 + row)
  if outOfRepair s g bank then reportRow s g bank row else s

/-- Account for a decoded read (R78, R79, R90, R138): a read with corrected symbols is counted, each symbol at its
physical TSV; a TSV whose symbol was corrected in 1 % of at least 1,024 reads of the folio is declared failed. DESIGN
CHOICE (assumption 75, R90): the counts are judged at each decoded read from the folio's 1,024th on, not at its end. -/
def countDecode (s : State) (g bank row : Nat) (errors : List (Fin 40)) : State :=
  let es := unknownErrors s g errors
  let tsvs := es.filterMap (physTsv (chan s g).applied)
  let s := modChan s g fun c => { c with
    reads := c.reads + 1
    corrections := tsvs.foldl (fun t i => Tab.set t i (Tab.at t i 0 + 1)) c.corrections }
  let sound := (tsvs.filter fun t => !s.flag (CHN_DATA_TSV_FAILED_FAILED g) t).length
  let s := if es.isEmpty then s else s.inc (CHN_ERROR_CORRECTED g)
  let s := if sound = 0 then s else rowErrors s g bank row sound
  let c := chan s g
  if c.reads < 1024 then s else
  s.each (c.corrections.filter fun (_, n) => c.reads ≤ 100 * n) fun s (t, _) => declareData s g t

/-! ### Rank and layer failure (R98, R133 to R137) -/

/-- The spare rank of a channel is free. -/
def spareFree (s : State) (g : Nat) : Bool := s.get (CHN_REPAIR_STATE_SPARE_STATE g) == 0

/-- A user rank is substituted by rank 16 (R88, R135): the copy starts at its first bank and row. -/
def substitute (s : State) (g r : Nat) : State :=
  let s := (s.put (CHN_REPAIR_STATE_SPARE_STATE g) 1).put (CHN_REPAIR_STATE_SPARE_FOR g) r
  let s := ((s.put (CHN_ERROR_COPY_ACTIVE g) 1).put (CHN_ERROR_COPY_BANK g) (16 * r)).put (CHN_ERROR_COPY_ROW g) 0
  let s := modChan s g fun c => { c with servedBySpare := some r, copyStop := none }
  event (recordRepair s g 3 r) 0x42 g r

/-- A user rank is retired (R136): 50 quires are to be released, its leaves are relocated, the channel may enter Retiring
(R137). -/
def retire (s : State) (g r : Nat) : State :=
  if s.flag (CHN_REPAIR_STATE_RETIRED_RANKS g) r then s else
  let s := wantRelease (event (recordRepair (s.setFlag (CHN_REPAIR_STATE_RETIRED_RANKS g) r) g 4 r) 0x43 g r) 50
  let s := abortTo s fun l => l.chan == g && l.rank == r
  updateState (orderEvacuation s { chan := g, rank := some r }) g

/-- Rank 16 is marked failed (R89, R136): while it serves a user rank, that rank is retired, a running copy ends.
A spare rank that fails unused is recorded like a retired rank 16 (assumption 75). -/
def failSpare (s : State) (g : Nat) : State :=
  let stop := copyAt s g
  let serving := (chan s g).servedBySpare
  let s := (s.put (CHN_REPAIR_STATE_SPARE_STATE g) 2).put (CHN_ERROR_COPY_ACTIVE g) 0
  let s := modChan s g fun c => { c with copyStop := stop }
  match serving with
  | some r => retire s g r
  | none => recordRepair s g 4 16

/-- A rank of a channel fails on its own account: substituted, or retired on the second-failure path (R135, R136). -/
def failRank (s : State) (g r : Nat) : State :=
  if r = 16 then failSpare s g else if spareFree s g then substitute s g r else retire s g r

/-- A layer of a tower is declared failed (R98), reported by channel `by'`: each channel of the tower substitutes, does
nothing, or retires as its spare rank allows. -/
def failLayer (s : State) (t l by' : Nat) : State :=
  if s.layersFailed.contains (t, l) then s else
  let s := event { s with layersFailed := s.layersFailed ++ [(t, l)] } 0x36 by' l
  let s := recordRepair s by' 6 l
  s.each ((List.range 64).map (64 * t + ·)) fun s g =>
    if s.get (CHN_REPAIR_STATE_STATE g) = 5 then s
    else if l = 16 then (if s.get (CHN_REPAIR_STATE_SPARE_STATE g) = 2 then s else recordRepair (failSpare s g) g 6 16)
    else if (chan s g).servedBySpare = some l ∧ s.get (CHN_REPAIR_STATE_SPARE_STATE g) = 1 then s
    else if s.flag (CHN_REPAIR_STATE_RETIRED_RANKS g) l then s
    else failRank s g l

/-- Count a rank failure towards the layer rule (R98): once a channel and rank; 4 channels of a tower within 64 folios
declare the layer failed. -/
def countRankFail (s : State) (g r : Nat) : State :=
  if s.rankFails.any fun (c, k, _) => c == g && k == r then s else
  let s := { s with rankFails := s.rankFails ++ [(g, r, s.folio)] }
  let n := (s.rankFails.filter fun (c, k, f) => c / 64 == g / 64 && k == r && decide (s.folio < f + 64)).length
  if 4 ≤ n then failLayer s (g / 64) r g else s

/-- The spare rank of a channel fails its test (R89, R98, Table 3-11). -/
def spareTestFails (s : State) (g : Nat) : State := countRankFail (failSpare (event s 0x37 g) g) g 16

/-- A die stops responding on every channel of its tower (R98): its layer is declared failed, reported by the tower's
lowest-numbered channel. -/
def dieStops (s : State) (t l : Nat) : State :=
  if t < s.variant.towers ∧ (l < s.variant.layers ∨ l = 16) then failLayer s t l (64 * t) else s

/-- The rank that holds a line has failed (R133, R134), with the Contained event and its capture. A rank whose copy to
rank 16 runs has already failed (R135); a retired rank is served in place. -/
def rankFailed (s : State) (g r : Nat) (master : Option Nat) (access : Nat) (dpa : Option Nat) (media : Option Nat) : State :=
  let s := report s { type := 0x41, source := g, master := master, access := access, dpa := dpa, media := media
                      detail := BitVec.ofNat 64 r }
  if (r ≠ 16 ∧ ((chan s g).servedBySpare = some r ∨ s.flag (CHN_REPAIR_STATE_RETIRED_RANKS g) r))
      ∨ (r = 16 ∧ s.get (CHN_REPAIR_STATE_SPARE_STATE g) = 2) ∨ s.get (CHN_REPAIR_STATE_STATE g) = 5 then s
  else countRankFail (failRank s g r) g r

/-- An uncorrectable read was clean on its re-read (R133). -/
def transient (s : State) (g : Nat) : State := event (s.inc (CHN_ERROR_TRANSIENT g)) 0x40 g

/-- A read that the node makes for itself decodes, on its one re-read at the latest (R78, R133). -/
def readOk (s : State) (g : Nat) (run : ReadRun) : Bool := decodes s g run.errors || decodes s g run.again

/-- What the channel controller does about such a read of line `i` at a leaf-map location (R78, R79, R133): it is
counted, with the event of a transient; a read that fails twice fails its rank. -/
def readSeen (s : State) (l : Loc) (i : Nat) (run : ReadRun) (master dpa : Option Nat) : State :=
  let p := physRead s l
  if decodes s l.chan run.errors then countDecode s l.chan p.bankIndex l.row run.errors
  else if decodes s l.chan run.again then transient (countDecode s l.chan p.bankIndex l.row run.again) l.chan
  else rankFailed s l.chan p.rank master 1 dpa (some (p.addr i))

/-! ### Answers -/

/-- A request of the account is held at ingress or waits in a pool (Table 6-7): for its map block, behind another write
of its line, or at its channel. -/
def accountWaits (s : State) (a : Nat) : Bool :=
  let mine (w : Work) : Bool := match w with | .read r => r.account == a | .write r => r.account == a
  s.accounts.held.any mine || s.fabric.reserve.any mine || s.ductus.missWait.any (fun x => mine x.2) || s.fabric.parked.any (fun w => w.account == a)
    || s.chans.any fun (_, c) => c.pool.any (fun r => r.access.account == a) || c.ingress.any (fun r => r.access.account == a)
      || c.ingressWrites.any fun x => x.2.account == a

/-- Answer a request (Table 9-4, R197): a link that is up by an S2M message, a core through its outstanding slot. -/
def respond (s : State) (o : Origin) (account : Nat) (r : Reply) : State :=
  match o with
  | .core c slot =>
    if (Tab.find s.fabric.replies (512 * slot + c)).isSome then s
    else { s with fabric := { s.fabric with replies := Tab.set s.fabric.replies (512 * slot + c) r } }
  | .queue _ | .lentIn _ _ _ _ => s
  | .link p k d tag pbr =>
    if !linkUp s p k then s else
    let dl := devLoad s account (accountWaits s account)
    match r with
    | .data v => s.send (.drs p k d tag pbr (some v) false dl)
    | .poison => s.send (.drs p k d tag pbr none true dl)
    | .refused => s.send (.drs p k d tag pbr (some 0) true dl)
    | .done | .timeout | .unmapped | .failed => s.send (.ndr p k d tag pbr dl)

/-! ### Request pools (R105, R106) -/

/-- Bank-group number of a request's pool. -/
def poolOf (bank : Nat) : Nat := bank / 4 % 4

/-- How many requests of a pool are of a class. -/
def inPool (c : Chan) (p : Nat) (k : PoolClass) : Nat :=
  (c.pool.filter fun r => poolOf r.bank == p && r.cls == k).length

/-- An entry of a pool is open to a request of a class (R106): the unmet part of the other reserves stays free, and
loose requests hold no more than their limit, which is 8 for a channel in shortfall (R191). -/
def entryOpen (s : State) (g : Nat) (c : Chan) (p : Nat) (k : PoolClass) : Bool :=
  let n (k : PoolClass) : Nat := inPool c p k
  let total := n .hard + n .firm + n .loose + n .internal
  let hardLeft := s.get (CHN_POOL_HARD_RESERVE g) - n .hard
  let intLeft := s.get (CHN_POOL_INTERNAL_RESERVE g) - n .internal
  let limit := if inShortfall s g then 8 else s.get (CHN_POOL_LOOSE_LIMIT g)
  match k with
  | .hard => decide (total + intLeft < 64)
  | .internal => decide (total + hardLeft < 64)
  | .firm => decide (total + hardLeft + intLeft < 64)
  | .loose => decide (total + hardLeft + intLeft < 64) && decide (n .loose < limit)
      && !(inShortfall s g && c.ingress.any fun r => r.cls == .hard || r.cls == .firm)

/-- Take requests from the channel's ingress in arrival order while entries are open to them; a class that waits blocks
later requests of its class (R106), and in a shortfall a hard or firm request that waits blocks every loose one (R191). -/
def fillLoop (s : State) (g : Nat) : List Req → List PoolClass → Chan → Chan
  | [], _, c => c
  | r :: rest, blocked, c =>
    let c := { c with ingress := c.ingress.drop 1 }
    let yields := r.cls == .loose && inShortfall s g && (blocked.contains .hard || blocked.contains .firm)
    if !blocked.contains r.cls && !yields && entryOpen s g { c with ingress := rest } (poolOf r.bank) r.cls then
      fillLoop s g rest blocked { c with pool := c.pool ++
        [{ r with level := level s r.access.account, urgency := s.get (ACC_SERVICE_URGENCY r.access.account) }] }
    else
      let c' := fillLoop s g rest (r.cls :: blocked) c
      { c' with ingress := r :: c'.ingress }

/-- Fill a channel's pools from its ingress and keep OCCUPIED_MAX (Table 4-7). -/
def fillPools (s : State) (g : Nat) : State :=
  let c := chan s g
  let c := fillLoop s g c.ingress [] c
  let most := (List.range 4).foldl (fun m p => max m (c.pool.filter fun r => poolOf r.bank == p).length) 0
  let s := setChan s g c
  s.put (CHN_POOL_OCCUPIED_MAX g) (max (s.get (CHN_POOL_OCCUPIED_MAX g)) most)

/-- Fill the pools of every channel whose ingress holds requests: limits have changed (R106, R191). -/
def fillWaiting (s : State) : State := s.each (s.chans.filter fun x => !x.2.ingress.isEmpty) fun s x => fillPools s x.1

/-- A read reaches its channel controller (R105, R106). -/
def enterPool (s : State) (a : MemRead) (l : Loc) : State :=
  let r : Req := { access := a, bank := l.bankIndex, row := l.row, line := lineOf a.dpa, cls := poolClass s a.account
                   level := level s a.account, urgency := s.get (ACC_SERVICE_URGENCY a.account) }
  fillPools (modChan s l.chan fun c => { c with ingress := c.ingress ++ [r] }) l.chan

/-- Move waiting writes into the write buffer as it has room (R107): a write's completion returns when it enters. Its
service level is set then (R108). -/
def fillWrites (s : State) (g : Nat) : State :=
  let c := chan s g
  let room := 64 - c.writes.length
  let now := c.ingressWrites.take room
  let leveled (w : WLine) : WLine := { w with level := w.fixedLevel.getD (level s w.account), urgency := s.get (ACC_SERVICE_URGENCY w.account) }
  let s := setChan s g { c with writes := c.writes ++ now.map fun x => leveled x.2, ingressWrites := c.ingressWrites.drop room }
  s.each now fun s (w, _) => match w with | some w => respond s w.origin w.account .done | none => s

/-- The newest buffered write of a line on a channel. -/
def bufferedLine (c : Chan) (bank row line : Nat) : Option MediaLine :=
  ((c.writes ++ c.ingressWrites.map (·.2)).reverse.find? fun w => w.bank == bank && w.row == row && w.line == line).map (·.content)

/-- The line that a requester sees at a leaf-map location: the newest buffered write of it, else the array's. -/
def currentLine (s : State) (l : Loc) (i : Nat) : MediaLine :=
  (bufferedLine (chan s l.chan) l.bankIndex l.row i).getD (loadLine s l i)

/-! ### Refresh and hammer (R117 to R125) -/

/-- The slot counter (R117): generated lines since the flywheel started. -/
def slotCounter (s : State) : Nat := s.ruling.gen % 4096

/-- A rank uses the hot refresh interval (R119). -/
def rankHot (s : State) (g r : Nat) : Bool := s.flag (CHN_REFRESH_HOT_RANKS g) r

/-- The position of a bank in the refresh order (R118). -/
def refreshPos (s : State) (bank : Nat) : Nat :=
  match s.variant with
  | .v4384 => bank * 128 / 272
  | _ => (if 256 ≤ bank then bank - 128 else bank) * 128 / 144

/-- A bank exists and takes refreshes: not of a retired rank, nor of a spare rank marked failed (R118), nor in
self-refresh or the line of its exit (R121). DESIGN CHOICE (assumption 75, R118): a Retired channel refreshes none. -/
def refreshable (s : State) (g bank : Nat) : Bool :=
  let r := bank / 16
  decide (g < s.variant.channels) && (if r = 16 then s.get (CHN_REPAIR_STATE_SPARE_STATE g) != 2
    else decide (r < s.variant.layers) && rankOk s g r)
    && s.get (CHN_REPAIR_STATE_STATE g) != 5 && !(chan s g).selfRefresh && (chan s g).wokeGen != s.ruling.gen + 1

/-- A bank's ruled refresh is due in the current line (R118, Table 4-3). -/
def refreshDue (s : State) (g bank : Nat) : Bool :=
  let i := if rankHot s g (bank / 16) then 64 else 128
  slotCounter s % i == refreshPos s bank % i

/-- The cells of a bank in a sketch, moved to the other sketch. -/
def moveSketch (cur prev : Tab Nat) (bank : Nat) : Tab Nat :=
  cur.foldl (fun t (k, n) => if k / 512 = bank then Tab.set t k n else t) (prev.filter fun (k, _) => k / 512 != bank)

/-- A refresh of a bank (R118, R120, R122): the bank's row closes, its timer restarts, its row pointer advances by 8
rows; a wrap to row 0 ends a full pass and rotates the sketches. -/
def refreshBank (s : State) (g bank : Nat) : State :=
  modChan s g fun c =>
    let p := Tab.at c.rowPtr bank 0 + 8
    let c := { c with openRow := Tab.del c.openRow bank, hits := Tab.del c.hits bank, refreshed := Tab.set c.refreshed bank s.ruling.gen }
    if 1608 ≤ p then { c with
      rowPtr := Tab.set c.rowPtr bank 0, sketchPrev := moveSketch c.sketch c.sketchPrev bank
      sketch := c.sketch.filter fun (k, _) => k / 512 != bank }
    else { c with rowPtr := Tab.set c.rowPtr bank p }

/-- A row's cell in a hashed row of a bank's sketch (R122); the hash functions are Config's. -/
def sketchCell (bank h row : Nat) : Nat := bank * 512 + 128 * h + (Config.sketchHash bank h row).toNat

/-- The minimum of a row's cells over the hashed rows of a sketch. -/
def sketchMin (t : Tab Nat) (bank row : Nat) : Nat :=
  (List.range 4).foldl (fun m h => min m (Tab.at t (sketchCell bank h row) 0)) 16383

/-- The estimate for a row (R122). -/
def estimate (c : Chan) (bank row : Nat) : Nat := sketchMin c.sketch bank row + sketchMin c.sketchPrev bank row

/-- The estimate recorded when a row was last mitigated; zero with no entry (R123). -/
def recorded (c : Chan) (bank row : Nat) : Nat :=
  match (Tab.at c.mitigation bank []).find? fun (r, _) => r == row with | some (_, e) => e | none => 0

/-- Count an activate in the current sketch and see whether its row is due for targeted refresh (R122, R123, R125).
DESIGN CHOICE (assumption 75, R123): only the activated row is judged, so a row whose estimate only other rows' activates
raise falls due at its own next activate. -/
def countActivate (s : State) (g bank row : Nat) : State :=
  let s := modChan s g fun c => { c with sketch := (List.range 4).foldl (fun t h =>
      let k := sketchCell bank h row
      Tab.set t k (min 16383 (Tab.at t k 0 + 1))) c.sketch }
  let c := chan s g
  let due := decide (recorded c bank row + s.get (CHN_HAMMER_THRESHOLD g) ≤ estimate c bank row)
  if !due || c.targeted.contains (bank, row) then s else
  let s := setChan s g { c with targeted := c.targeted ++ [(bank, row)] }
  let s := s.put (CHN_HAMMER_PENDING g) (c.targeted.length + 1)
  if 16 ≤ c.targeted.length + 1 ∧ !c.stopped then event (modChan s g fun c => { c with stopped := true }) 0x47 g else s

/-- Record a mitigated row with its estimate: of 8 entries the oldest gives way (R123). -/
def recordMitigation (c : Chan) (bank row : Nat) : Chan :=
  let l := (Tab.at c.mitigation bank []).filter fun (r, _) => r != row
  let l := if l.length < 8 then l else l.drop 1
  { c with mitigation := Tab.set c.mitigation bank (l ++ [(row, estimate c bank row)]) }

/-- A channel takes commands now: not paused, held, Retired or in self-refresh. DESIGN CHOICE (assumption 75, R96): what
waits in the pools of a channel that goes straight to Retired stays unanswered. -/
def inService (s : State) (g : Nat) : Bool :=
  let c := chan s g
  decide (g < s.variant.channels) && c.paused.isNone && !c.selfRefresh && !c.caRepair && (calUnit s g).holdGen.isNone
    && s.get (CHN_REPAIR_STATE_STATE g) != 5

end Sys2Proof.Machine
end

