-- ==== Sys2Proof/Machine/Access.lean ====
section
/-! DEFINITION. The path of a memory access (R19 to R22, chapters 7 and 9): checks, key, account, leaf map, snoop
filter, merge and commit. Who enters it: links (Fabric.lean) and cores (Bexorn.lean). -/

namespace Sys2Proof.Machine

/-! ### The snoop filter (R284 to R286) -/

/-- LD number 16 × port + LD of an origin on a Host link. -/
def ldOf (o : Origin) : Option Nat := match o with | .link p _ d _ _ => some (16 * p + d) | _ => none

def setFabric (s : State) (f : Fabric) : State := { s with fabric := f }

/-- PRT_SF_STATUS follows the filter. -/
def showFilter (s : State) : State :=
  ((s.put PRT_SF_STATUS_ENTRIES s.fabric.filter.length).put PRT_SF_STATUS_VICTIMS
    (s.fabric.snoops.filter fun x => x.why == .victim).length).put PRT_SF_STATUS_COARSE_QUIRES s.fabric.coarse.length

/-- The HDM-DB logical devices that may hold a line: those of the ports in its filter entry, or of every port while
its quire is COARSE, whose extents hold it (R284, R285). -/
def holdersOf (s : State) (line : Nat) : List Nat :=
  let q := line / 32768
  let coarse := s.fabric.coarse.contains q
  let ports := match Tab.find s.fabric.filter line with | some f => f.ports | none => 0
  ((s.lds.filter fun (p, d) => s.on (PRT_LD_HDM_DB p d) && s.get (PRT_PORT_CTRL_ROLE p) == 0
      && (coarse || bit ports p) && (Tab.at s.fabric.holders q []).contains (16 * p + d))).map fun (p, d) => 16 * p + d

/-- A logical device's sub-link is up. -/
def ldUp (s : State) (ld : Nat) : Bool := linkUp s (ld / 16) (s.get (PRT_LD_SUB_LINK (ld / 16) (ld % 16)))

/-- Send BISnp messages for a line to logical devices; those whose sub-link is down count as answered (R284). Answers
the devices awaited. -/
def sendSnoops (s : State) (line kind : Nat) (lds : List Nat) : State × List Nat :=
  let up := lds.filter (ldUp s)
  (s.each up fun s ld => s.send (.biSnp (ld / 16) (ld % 16) line kind), up)

/-- Note outstanding snoops. -/
def addSnoop (s : State) (line : Nat) (lds : List Nat) (why : SnoopWhy) : State :=
  setFabric s { s.fabric with snoops := s.fabric.snoops ++
    [{ line := line, waiting := lds, why := why, since := s.ruling.gen }] }

/-- Set a quire COARSE (R285), with its Notice. -/
def setCoarse (s : State) (q : Nat) : State :=
  if s.fabric.coarse.contains q then s
  else eventOnce (setFabric s { s.fabric with coarse := s.fabric.coarse ++ [q] }) 0x92 432 q q

/-- Allocate or update a line's entry for an HDM-DB host that obtains a copy (R284, R285): of a full set the least
recently used entry becomes a victim and receives BISnpInv, unless the victim buffer is full. -/
def allocFilter (s : State) (port line : Nat) (exclusive : Bool) : State :=
  let f := s.fabric
  let n := f.useCount + 1
  let put (f : Fabric) (e : Filter) : Fabric := { f with filter := Tab.set f.filter line e, useCount := n }
  match Tab.find f.filter line with
  | some e => showFilter (setFabric s (put f { exclusive := exclusive, ports := setBit e.ports port, used := n }))
  | none =>
    let new : Filter := { exclusive := exclusive, ports := 2 ^ port, used := n }
    let mates := f.filter.filter fun (l, _) => l % 262144 == line % 262144
    if mates.length < 16 then showFilter (setFabric s (put f new)) else
    if 8192 ≤ (f.snoops.filter fun x => x.why == .victim).length then showFilter (setCoarse s (line / 32768)) else
    match leastBy (fun (x : Nat × Filter) => x.2.used) mates with
    | none => s
    | some (v, _) =>
      let lds := holdersOf s v
      let s := setFabric s (put { f with filter := Tab.del f.filter v } new)
      let (s, up) := sendSnoops s v 0 lds
      showFilter (if up.isEmpty then s else addSnoop s v up .victim)

/-- Clear holders from a line's entry, all but a writer's port (R286). -/
def clearHolders (s : State) (line : Nat) (keep : Option Nat) : State :=
  match Tab.find s.fabric.filter line with
  | none => s
  | some e =>
    let ports := match keep with | some ld => if bit e.ports (ld / 16) then 2 ^ (ld / 16) else 0 | none => 0
    let f := if ports = 0 then Tab.del s.fabric.filter line else Tab.set s.fabric.filter line { e with ports := ports }
    showFilter (setFabric s { s.fabric with filter := f })

/-! ### Reading a line for a request -/

/-- Act on what Seal made of a line read for a request (R76, R212, R214) other than a failed tag or check: the state
and the answer. -/
def opened (s : State) (a : MemRead) (o : Opened) (access : Nat) : State × Reply :=
  match o with
  | .data d => (s, .data d)
  | .poison => (s, .poison)
  | .orphaned => (sealAccessEvent s 1 a.origin a.dpa access, .poison)
  | .violation => (sealViolation s a.origin a.dpa access, .refused)
  | .badTag | .badCheck => (s, .poison)

/-- Seal could not verify the line. -/
def Opened.bad (o : Opened) : Bool := match o with | .badTag | .badCheck => true | _ => false

/-- A top-level node's copy has failed on-die (R227): rebuilt from the other, or both lost, which is Fatal. -/
def topFailed (s : State) (leaf : Nat) (both : Bool) : State :=
  let node := leaf / 64 ^ 4
  sealEvent s (if both then 7 else 6) 428 node

/-- A tree line met on the way to a sealed-fresh line's counter (R225, R226): corrected, and written back, or lost, when
the cache holds no such line; levels 2 and 3 are always in the cache (R221), and a lent leaf's counter line has no place. A
lost line fails the rank that holds it. -/
def treeMet (s : State) (dpa : Nat) (fresh : Bool) (t : Option (Fin 5 × Bool)) : State :=
  match t with
  | none => s
  | some (lv, lost) =>
    let node := leafOf dpa / 64 ^ lv.val
    if !fresh then s
    else if lv.val = 4 then topFailed s (leafOf dpa) lost
    else if 2 ≤ lv.val || cached s 0 (leafOf dpa) || cached s lv node then s else
    match (if lv.val = 0 then counterPlace s node else treePlace s 1 node) with
    | none => s
    | some (p, i) =>
      if !lost then chargeNow (writeBack (sealEvent (s.inc SEL_ERRORS_TREE_CORRECTED) 3 428 node) lv node) 4093 64
      else
        let s := sealEvent (addUnverifiable (s.inc SEL_ERRORS_TREE_LOST) lv node) 4 428 node
        rankFailed s p.chan (physRead s p).rank none 1 none (some ((physRead s p).addr i))

/-- Count a tag or check failure that stood on the re-read (Table 7-12). -/
def countBad (s : State) (o : Opened) : State :=
  match o with | .badTag => s.inc SEL_ERRORS_TAG_FAILS | .badCheck => s.inc SEL_ERRORS_CHECK_FAILS | _ => s

/-- Capture a line's failed re-read and fail its rank (R133). -/
def failLine (s : State) (o : Origin) (dpa access : Nat) (l : Loc) : State :=
  let p := physRead s l
  rankFailed s l.chan p.rank (some (originMaster o)) access (some dpa) (some (p.addr (lineOf dpa)))

/-- Decode and open the line that a merge has read (R133, R222): wrong symbols get the one re-read. -/
def mergeOpen (s : State) (w : Write) (l : Loc) (m : MediaLine) : State × (BitVec 512 ⊕ Reply) :=
  let a : MemRead := { origin := w.origin, dpa := w.dpa, key := w.key, account := w.account }
  let g := l.chan
  let ok1 := decodes s g w.run.errors
  let s := if ok1 then countDecode s g (physRead s l).bankIndex l.row w.run.errors else s
  let o := openLine s w.dpa w.key m
  let first := ok1 && !o.bad
  let ok2 := decodes s g w.run.again
  if first || (ok2 && !o.bad) then
    let s := if first then s else transient s g
    let (s, r) := opened s a o 3
    match r with
    | .data d => (s, .inl d)
    | r => (if r = .poison then sealAccessEvent s 2 w.origin w.dpa 3 else s, .inr r)
  else
    let s := countBad s o
    let s := mergeDrop (storeLine s l (lineOf w.dpa) { m with poison := true }) fun d _ => d == w.dpa
    let s := failLine (sealAccessEvent s 2 w.origin w.dpa 3) w.origin w.dpa 3 l
    (s, .inr .poison)

/-- The read that a merge makes (R222 to R224): from the line-merge cache, else from the line as it now stands, with
one re-read. Answers the plaintext, or the reply that ends the write. -/
def mergeRead (s : State) (w : Write) (l : Loc) : State × (BitVec 512 ⊕ Reply) :=
  match mergeHit s w.dpa w.key with
  | some v => (s.incW SEL_MERGE_HITS, .inl v)
  | none =>
    let s := if s.on SEL_CTRL_MERGE_ENABLE then s.incW SEL_MERGE_MISSES else s
    let m := currentLine s l (lineOf w.dpa)
    mergeOpen (chargeNow s w.account 64) w l m

/-! ### Committing a write (R86, R107, R159, R222) -/

/-- The bytes of a mask, as a mask of bits. -/
def maskBits (m : BitVec 64) : Nat := (List.range 64).foldl (fun n i => if m.getLsbD i then n + 255 * 2 ^ (8 * i) else n) 0

/-- Bytes of `new` where the mask says so, of `old` elsewhere. -/
def mergeBytes (old new : BitVec 512) (m : BitVec 64) : BitVec 512 :=
  let k := BitVec.ofNat 512 (maskBits m)
  (old &&& ~~~k) ||| (new &&& k)

/-- The result of an atomic operation on an old value of `n` bytes (Table 10-18). -/
def atomResult (a : AtomOp) (old : Nat) : Nat :=
  let w := 8 * a.size
  let x := a.operand.toNat % 2 ^ w
  let pick (b : Bool) : Nat := if b then old else x
  match a.op with
  | 0 => x
  | 1 => (old + x) % 2 ^ w
  | 2 => old &&& x
  | 3 => old ||| x
  | 4 => old ^^^ x
  | 5 => pick (decide (signed w old ≤ signed w x))
  | 6 => pick (decide (signed w x ≤ signed w old))
  | 7 => pick (decide (old ≤ x))
  | 8 => pick (decide (x ≤ old))
  | _ => if old = a.compare.toNat % 2 ^ w then x else old

/-- The line after an atomic operation. -/
def atomLine (a : AtomOp) (v : BitVec 512) : BitVec 512 :=
  let old := bitsOf v.toNat (8 * a.offset) (8 * a.size)
  BitVec.ofNat 512 (v.toNat - old * 2 ^ (8 * a.offset) + atomResult a old * 2 ^ (8 * a.offset))

/-- A write of a full line without an atomic. -/
def Write.full (w : Write) : Bool := w.mask == BitVec.allOnes 64 && w.atom.isNone

/-- A CAS whose compare value does not match writes nothing (R336). -/
def Write.declines (w : Write) (old : BitVec 512) : Bool :=
  match w.atom with
  | some a => a.op == 9 && bitsOf old.toNat (8 * a.offset) (8 * a.size) != a.compare.toNat % 2 ^ (8 * a.size)
  | none => false

/-- The line written after a merge. -/
def Write.merged (w : Write) (old : BitVec 512) : BitVec 512 :=
  match w.atom with | some a => atomLine a old | none => mergeBytes old w.data w.mask

def Work.dpa (w : Work) : Nat := match w with | .read a => a.dpa | .write w => w.dpa

/-- Number of the next lent-leaf access, sent over its Peer link (R164, R283). -/
def sendLent (s : State) (e : Leaf) (line : Nat) (w : Work) (step : LentStep) (m : Option MediaLine) : State :=
  let t := s.fabric.nextTag
  let s := setFabric s { s.fabric with nextTag := t + 1, lentOut := Tab.set s.fabric.lentOut t (w, step) }
  s.send (.lentAccess e.port e.pbr e.slot line t m)

/-- The Peer path of a lent leaf is up: some sub-link of its port. -/
def lentUp (s : State) (e : Leaf) : Bool := (List.range 4).any fun k => linkUp s e.port k

/-- An access to a lent leaf whose peer path is down (R166). -/
def lentDown (s : State) (o : Origin) (dpa access : Nat) : State :=
  report s { type := 0x53, source := 429, master := some (originMaster o), access := access, dpa := some dpa }

/-- What the reader of a lent leaf gets while its peer path is down (R166): a link the error response of step 2, a core
poison. -/
def lentReply (o : Origin) : Reply := match o with | .link _ _ _ _ _ => .refused | _ => .poison

/-- The heat byte of a leaf (R151). -/
def leafHeat (s : State) (leaf : Nat) : Nat := match leafEntry s leaf with | some e => e.heat | none => 0

/-- Put a line on its way into a channel's write buffer. -/
def enterWrite (s : State) (l : Loc) (w : Option Write) (dpa account : Nat) (m : MediaLine) (fixed : Option Nat := none) : State :=
  fillWrites (modChan s l.chan fun c => { c with ingressWrites := c.ingressWrites ++
    [(w, { bank := l.bankIndex, row := l.row, line := lineOf dpa, dpa := dpa, account := account, content := m
           fixedLevel := fixed })] }) l.chan

/-- The second copy of a line on one of the node's own channels, at the level of its move's cause (R162). -/
def mirrorHere (s : State) (cause dpa : Nat) (m : MediaLine) (l : Loc) : State :=
  enterWrite (arrive (s.when m.fresh fun s => chargeNow s 4095 64) 4095 64) l none dpa 4095 m (some (if cause ≤ 2 then 3 else 4))

/-- The second copy of line `i` of a leaf on another node. -/
def mirrorAway (s : State) (i : Nat) (m : MediaLine) (p q sl : Nat) : State :=
  let t := s.fabric.nextTag
  (setFabric s { s.fabric with nextTag := t + 1 }).send (.lentAccess p q sl i t (some m))

/-- Write the second copy of a leaf under a move (R27, R159, R160): before the switch at the destination, with the
line's inked bit set; in the switch line at the source. Charged to the migration account, with the counter line of a
sealed-fresh line. -/
def mirror (s : State) (dpa : Nat) (m : MediaLine) : State :=
  let i := lineOf dpa
  match moveOf s (leafOf dpa) with
  | none => s
  | some (k, mv) =>
    if mv.stage = .switched then
      match mv.sourceRemote with
      | some (p, q, sl) => mirrorAway s i m p q sl
      | none => mirrorHere s mv.cause dpa m mv.source
    else
      let s := { s with ductus := { s.ductus with
          moves := Tab.set s.ductus.moves k { mv with inked := mv.inked ||| (1#64 <<< i) } } }
      match mv.dest with | .remote p q sl => mirrorAway s i m p q sl | .local l => mirrorHere s mv.cause dpa m l

/-- Place a full line on the way to its leaf (R107): the own copy's entry completes the write; a leaf under a move gets
its second copy. -/
def placeLine (s : State) (w : Option Write) (dpa account : Nat) (m : MediaLine) : State :=
  match leafEntry s (leafOf dpa) with
  | none => s
  | some e => mirror (if e.remote then s else enterWrite s e.loc w dpa account m) dpa m

/-- A write that ends without being applied: a link gets its completion (Table 9-4), a core the answer. It is never counted
(R186). -/
def endWrite (s : State) (w : Write) (r : Reply) : State :=
  let s := leave s w.account 64
  match w.origin with
  | .link _ _ _ _ _ => respond s w.origin w.account .done
  | _ => respond s w.origin w.account r

/-- A write Seal refuses (R219, R226): the violation response. -/
def refuseWrite (s : State) (w : Write) : State :=
  endWrite (sealViolation s w.origin w.dpa (if w.full then 2 else 3)) w .failed

/-- A sealed-fresh write increments its line's counter (R215); none where that is exhausted. -/
def freshened (s : State) (w : Write) : Option State :=
  if keyLevel s w.key = 3 then bumpCounter s w.dpa w.account else some s

/-- The line-merge cache after a write has sealed a line: a full line or one with POISON drops its entries, a merged line is
an entry (R76, R223). -/
def mergeKeep (s : State) (w : Write) (plain : BitVec 512) : State :=
  let s := markProtected s w.dpa w.key
  if w.full || w.poison then mergeDrop s fun d _ => d == w.dpa else mergeFill s w.dpa w.key plain

/-- Seal and place the plaintext of a write at a local leaf (R205 to R209, R215, R223). -/
def sealAndPlace (s : State) (w : Write) (plain : BitVec 512) : State :=
  match freshened s w with
  | none => refuseWrite (sealEvent s 8 428) w
  | some s =>
    let m := { closeLine s w.dpa w.key (leafHeat s (leafOf w.dpa)) plain with poison := w.poison }
    let s := mergeKeep s w plain
    placeLine s (if w.atom.isSome then none else some w) w.dpa w.account m

/-- Commit a write at its local leaf: merge it first when partial (R222), refuse what the unverifiable list covers
(R226). A sealed-fresh write meets its counter line on the way. -/
def commitLocal (s : State) (w : Write) (l : Loc) : State :=
  let leaf := leafOf w.dpa
  let s := if keyLevel s w.key = 3 then treeMet s w.dpa (Tab.find s.sealing.counters leaf).isSome w.run.tree else s
  if leafLost s leaf && (keyLevel s w.key == 3 || (currentLine s l (lineOf w.dpa)).fresh) then refuseWrite s w else
  if w.full then sealAndPlace s w w.data else
  match mergeRead s w l with
  | (s, .inl old) =>
    let s := if w.declines old then leave s w.account 64 else sealAndPlace s w (w.merged old)
    if w.atom.isSome then respond s w.origin w.account (.data old) else s
  | (s, .inr r) => endWrite s w r

/-- A read ends without a column read of its line: it is answered, and never counted (R186). -/
def endRead (s : State) (a : MemRead) (r : Reply) : State := respond (leave s a.account 64) a.origin a.account r

/-- Seal the plaintext of a write at a lent leaf and send the line to its holder (R164, R205 to R209, R215, R223). -/
def sealAndSend (s : State) (w : Write) (e : Leaf) (plain : BitVec 512) : State :=
  match freshened s w with
  | none => refuseWrite (sealEvent s 8 428) w
  | some s =>
    let m := { closeLine s w.dpa w.key e.heat plain with poison := w.poison }
    let s := mergeKeep s w plain
    let done : Work := .write { w with atom := none }
    mirror (if w.atom.isSome then leave (s.send (.lentAccess e.port e.pbr e.slot (lineOf w.dpa) s.fabric.nextTag (some m))) w.account 64
      else sendLent s e (lineOf w.dpa) done .plain (some m)) w.dpa m

/-- The end of a merge at a lent leaf: the write with the line's plaintext (R222, R336). -/
def mergeLent (s : State) (w : Write) (e : Leaf) (old : BitVec 512) : State :=
  let s := if w.declines old then leave s w.account 64 else sealAndSend s w e (w.merged old)
  if w.atom.isSome then respond s w.origin w.account (.data old) else s

/-- A merge of a line of a lent leaf is under way. -/
def lentMerging (s : State) (dpa : Nat) : Bool :=
  s.fabric.lentOut.any fun x => x.2.2 != .plain && Work.dpa x.2.1 == dpa

/-- Commit a write to a lent leaf (R164, R222, R223, R226): behind a merge of its line it waits; a full line is sealed here
and sent, a partial one merged with the line-merge cache's or the holder's line. -/
def commitRemote (s : State) (w : Write) (e : Leaf) : State :=
  let fresh := keyLevel s w.key == 3
  if !lentUp s e then endWrite (lentDown s w.origin w.dpa 2) w .failed
  else if lentMerging s w.dpa then setFabric s { s.fabric with lentWait := s.fabric.lentWait ++ [w] }
  else
    let s := if fresh then treeMet s w.dpa (Tab.find s.sealing.counters (leafOf w.dpa)).isSome w.run.tree else s
    if fresh && leafLost s (leafOf w.dpa) then refuseWrite s w
    else if w.full then sealAndSend s w e w.data
    else match mergeHit s w.dpa w.key with
      | some old => mergeLent (s.incW SEL_MERGE_HITS) w e old
      | none =>
        let s := if s.on SEL_CTRL_MERGE_ENABLE then s.incW SEL_MERGE_MISSES else s
        sendLent s e (lineOf w.dpa) (.write w) .merge none

/-- Commit a write, and clear the holders of its line but the writer (R286.3, R286.4). -/
def commitWrite (s : State) (w : Write) : State :=
  let s := clearHolders s (w.dpa / 64) (ldOf w.origin)
  match leafEntry s (leafOf w.dpa) with
  | none => endWrite s w .failed
  | some e => if e.remote then commitRemote s w e else commitLocal s w e.loc

/-- Some conflicting write of the line is under way (R286). -/
def lineBusy (s : State) (line : Nat) : Bool :=
  s.fabric.snoops.any (fun x => x.line == line && (match x.why with | .write _ => true | _ => false))
    || s.fabric.parked.any fun w => w.dpa / 64 == line

/-- A write reaches the point of order of its line (R286): behind another conflicting write it parks, unless it is a
holder's write-back; a conflicting write snoops the other holders and waits. -/
def startWrite (s : State) (w : Write) : State :=
  let line := w.dpa / 64
  let me := ldOf w.origin
  let backs := match me with
    | some ld => s.fabric.snoops.any fun x => x.line == line && x.waiting.contains ld
    | none => false
  if backs then commitWrite s w
  else if lineBusy s line then setFabric s { s.fabric with parked := s.fabric.parked ++ [w] }
  else
    let others := (holdersOf s line).filter fun ld => some ld != me
    if others.isEmpty then commitWrite s w else
    let (s, up) := sendSnoops s line 0 others
    if up.isEmpty then commitWrite s w else addSnoop s line up (.write w)

/-- Writes parked behind a line go on in order (R286). -/
def unpark (s : State) (line : Nat) : State :=
  let ws := s.fabric.parked.filter fun w => w.dpa / 64 == line
  let s := setFabric s { s.fabric with parked := s.fabric.parked.filter fun w => w.dpa / 64 != line }
  s.each ws startWrite

/-! ### Reads -/

/-- A read reaches its line: in a write buffer it is served at once (R107), else it enters the channel's pools; a lent
leaf's goes to its holder. -/
def dispatchRead (s : State) (a : MemRead) : State :=
  match leafEntry s (leafOf a.dpa) with
  | none => endRead s a .refused
  | some e =>
    if e.remote then
      if lentUp s e then sendLent s e (lineOf a.dpa) (.read a) .plain none
      else endRead (lentDown s a.origin a.dpa 1) a (lentReply a.origin)
    else
      match bufferedLine (chan s e.loc.chan) e.loc.bankIndex e.loc.row (lineOf a.dpa) with
      | some m =>
        let o := openLine s a.dpa a.key m
        let (s, r) := opened (countBad s o) a o 1
        endRead s a r
      | none => enterPool s a e.loc

/-- A read is ready for its line: a nib core's read of a line that a host holds Exclusive first snoops that host
(R286). -/
def startRead (s : State) (a : MemRead) : State :=
  let line := a.dpa / 64
  let nib := match a.origin with | .core c _ => decide (8 ≤ c) | _ => false
  let excl := match Tab.find s.fabric.filter line with | some f => f.exclusive | none => false
  if nib && excl then
    let (s, up) := sendSnoops s line 1 (holdersOf s line)
    if up.isEmpty then dispatchRead s a else addSnoop s line up (.read a)
  else dispatchRead s a

/-! ### Account and leaf map -/

def Work.origin (w : Work) : Origin := match w with | .read a => a.origin | .write w => w.origin
def Work.account (w : Work) : Nat := match w with | .read a => a.account | .write w => w.account

/-- Go on with work whose leaf-map block is at hand. -/
def proceed (s : State) (w : Work) : State := match w with | .read a => startRead s a | .write w => startWrite s w

/-- Look the leaf up (R145, R148): a hit samples heat and goes on; a miss waits for the block. -/
def lookup (s : State) (w : Work) : State :=
  let leaf := leafOf w.dpa
  let b := blockOf leaf
  if mapHit s leaf then
    proceed (heatSample (useBlock s b) w.origin leaf (match w with | .write _ => true | _ => false)) w
  else
    let s := s.incW DCT_MAP_CACHE_MISSES
    { s with ductus := { s.ductus with missWait := s.ductus.missWait ++ [(b, w)] } }

/-- Hold work at its account's ceiling until the account's next window (R180). -/
def hold (s : State) (w : Work) : State :=
  let s := { s with accounts := { s.accounts with held := s.accounts.held ++ [w] } }
  modAcct s w.account fun x => { x with held := x.held + 1 }

/-- A charged request goes to its lookup, or is held at its account's ceiling (R180). -/
def enter (s : State) (w : Work) : State := if overCeiling s w.account then hold s w else lookup s w

/-- A request past its checks is charged and looked up (R177, R180, R186). -/
def submit (s : State) (w : Work) : State := enter (arrive s w.account 64) w

/-- The requests held at an account's ceiling go on in its new window (R180): those that now exceed it stay held. -/
def releaseHeld (s : State) (a : Nat) : State :=
  let ws := s.accounts.held.filter fun w => w.account == a
  let s := { s with accounts := { s.accounts with held := s.accounts.held.filter fun w => w.account != a } }
  s.each ws fun s w => if overCeiling s a then hold s w else lookup s w

/-! ### The switch buffer (R292 to R295) -/

def Work.room (w : Work) : Room := match w with | .read a => a.room | .write w => w.room
def Work.takes (w : Work) (r : Room) : Work := match w with | .read a => .read { a with room := r } | .write w => .write { w with room := r }

/-- Every request between its classification and its channel's pools or write buffer: what may hold a cell. -/
def waitingWork (s : State) : List Work :=
  s.accounts.held ++ s.ductus.missWait.map (·.2) ++ s.fabric.parked.map .write ++ s.fabric.lentWait.map .write
    ++ (s.fabric.snoops.filterMap fun x => match x.why with | .write w => some (.write w) | .read a => some (.read a) | _ => none)
    ++ s.chans.flatMap fun (_, c) => c.ingress.map (fun r => .read r.access) ++ c.ingressWrites.filterMap fun x => x.1.map .write

/-- The virtual queue of a request (R294): its leaf's channel, or 256 + port for a leaf lent over that port. -/
def virtualQueue (s : State) (w : Work) : Nat :=
  match leafEntry s (leafOf w.dpa) with | some e => if e.remote then 256 + e.port else e.loc.chan | none => 512

/-- Shared cells that are free (Table 9-6). -/
def sharedFree (s : State) : Nat :=
  524288 - s.get PRT_BUFFER_PORT_RESERVED - s.get PRT_BUFFER_ACCOUNT_RESERVED
    - ((waitingWork s).filter fun w => w.room == .shared).length

/-- A cell of its account's reservation is free for a hard or firm request below its ceiling (R294). -/
def accountRoom (s : State) (a : Nat) : Bool :=
  (isHard s a || isFirm s a) && !overCeiling s a
    && decide (((waitingWork s).filter fun w => w.room == .account && w.account == a).length < ceilDiv (2 * (currentTerms s a).rate) 64)

/-- A shared cell within the thresholds of R295: of its virtual queue and of its account. -/
def sharedRoom (s : State) (w : Work) : Bool :=
  let taken := (waitingWork s).filter fun x => x.room == .shared
  let free := sharedFree s
  decide ((taken.filter fun x => virtualQueue s x == virtualQueue s w).length < free / 2 ^ s.get PRT_CTRL_VOQ_SHIFT)
    && decide ((taken.filter fun x => x.account == w.account).length < free / 2 ^ s.get PRT_CTRL_ACCOUNT_SHIFT)

/-- Where a classified message leaves its port's reserve for (R294), if anywhere. -/
def takePlace (s : State) (w : Work) : Option Room :=
  if accountRoom s w.account then some .account else if sharedRoom s w then some .shared else none

def Work.port (w : Work) : Nat := match w.origin with | .link p _ _ _ _ => p | _ => 0

/-- Port-reserve cells in use: the data of writes that wait there (R292). -/
def reserveUsed (s : State) (p : Nat) : Nat :=
  (s.fabric.reserve.filter fun w => w.port == p && match w with | .write _ => true | .read _ => false).length

/-- A message stays in its port's reserve and its credit is withheld (R294). -/
def withhold (s : State) (w : Work) : State :=
  let s := setFabric s { s.fabric with
    reserve := s.fabric.reserve ++ [w], withheld := w.port :: s.fabric.withheld.filter (· != w.port) }
  s.put (PRT_PORT_STATUS_RESERVE_PEAK w.port) (max (s.get (PRT_PORT_STATUS_RESERVE_PEAK w.port)) (reserveUsed s w.port))

/-- A classified message takes its place, behind those of its virtual queue that still wait in the reserve (R294). -/
def place (s : State) (w : Work) : State :=
  if s.fabric.reserve.any fun x => x.port == w.port && virtualQueue s x == virtualQueue s w then withhold s w else
  match takePlace s w with
  | some r => enter s (w.takes r)
  | none => withhold s w

/-- A link's message past its checks (R177, R186, R294). -/
def receive (s : State) (w : Work) : State := place (arrive s w.account 64) w

/-- Messages leave the port reserves as cells come free, in order (R294). -/
def drainReserve (s : State) : State :=
  if s.fabric.reserve.isEmpty then s else
  (setFabric s { s.fabric with reserve := [] }).each s.fabric.reserve place

/-! ### The checks of steps 2 and 3 -/

/-- The key index a link's request resolves to (R202); none for a violation. -/
def linkKey (s : State) (r : LinkReq) : Option Nat :=
  let index := r.dpa.toNat / 2 ^ 42
  if s.get (PRT_PORT_CTRL_ROLE r.port) ≠ 0 then some index
  else
    let j := 16 * r.sub.val + r.ld.val
    if s.get (SEL_LD_KEY_MODE r.port j) = 0 then some index
    else if index ≠ 0 then none
    else match r.tee with
      | some k => if k.toNat = 0 then none else some k.toNat
      | none => some (s.get (SEL_LD_KEY_DEFAULT_KEY r.port j))

/-- TE forbids a request without TEE intent on a device in TSP mode (R205). -/
def teForbids (s : State) (r : LinkReq) : Bool :=
  s.get (PRT_PORT_CTRL_ROLE r.port) == 0 && s.get (SEL_LD_KEY_MODE r.port (16 * r.sub.val + r.ld.val)) == 1
    && r.tee.isNone && teSet s (quireOf r.dpa.toNat)

/-- The checks of step 2 (R289): device, extent, KIND, opcode. -/
def linkAllowed (s : State) (r : LinkReq) : Bool :=
  let role := s.get (PRT_PORT_CTRL_ROLE r.port)
  let d := if role = 0 then r.ld.val else 0
  s.on (PRT_LD_VALID r.port d) && s.get (PRT_LD_SUB_LINK r.port d) == r.sub.val
    && (Tab.at s.fabric.holders (quireOf r.dpa.toNat) []).contains (16 * r.port.val + d)
    && (leafEntry s (leafOf r.dpa.toNat)).isSome && r.isDefined

/-- Origin of a link's request. -/
def reqOrigin (r : LinkReq) : Origin := .link r.port r.sub r.ld r.tag.toNat r.pbr.toNat

/-- A request that step 2 rejects (R20, R289): captured with its opcode, counted, never charged. -/
def portViolation (s : State) (r : LinkReq) (access : Nat) : State :=
  report (s.inc (PRT_PORT_ERRORS_VIOLATIONS r.port))
    { type := 0x90, source := 320 + r.port, master := some (originMaster (reqOrigin r)), pbr := r.pbr.toNat, access := access
      dpa := some r.dpa.toNat, detail := r.opcode.toNat }

/-- The answer to a refused request (Table 9-4): a read gets poisoned zeros, with the S2M NDR that its
opcode requires, a write its completion. -/
def answerRefused (s : State) (r : LinkReq) (write : Bool) : State :=
  let a := originAccount s (reqOrigin r)
  if write then respond s (reqOrigin r) a .done else
  let s := respond s (reqOrigin r) a .refused
  if r.ndr then respond s (reqOrigin r) a .done else s

/-- Steps 2 and 3 for a link's request: the classified access, or none with the refusal answered. -/
def classify (s : State) (r : LinkReq) (access : Nat) : State × Option MemRead :=
  let write := decide (2 ≤ access)
  if !linkAllowed s r then (answerRefused (portViolation s r access) r write, none) else
  let dpa := r.dpa.toNat % 2 ^ 42 / 64 * 64
  match linkKey s r with
  | none => (answerRefused (sealViolation s (reqOrigin r) dpa access r.opcode.toNat) r write, none)
  | some k =>
    if teForbids s r || !authorised s (reqOrigin r) k then
      (answerRefused (sealViolation s (reqOrigin r) dpa access r.opcode.toNat) r write, none)
    else (s, some { origin := reqOrigin r, dpa := dpa, key := k, account := originAccount s (reqOrigin r) })

/-- Whether an HDM-DB host obtains a copy by a request (R284). -/
def obtainsCopy (s : State) (r : LinkReq) : Bool :=
  s.get (PRT_PORT_CTRL_ROLE r.port) == 0 && s.on (PRT_LD_HDM_DB r.port r.ld) && r.cached != 0

/-- A quire is being blanked for the extent that is added: nothing reaches its leaves yet (R211). -/
def blanking (s : State) (q : Nat) : Bool :=
  match s.fabric.adding with | some e => e.fresh.contains q | none => false

/-- What a core's device-window access meets at steps 2 and 3 (R312): fault cause 0x07 or 0x08, or the access. -/
def coreClassify (s : State) (c slot : Nat) (addr : Nat) (write : Bool) (access : Nat) : State × (Nat ⊕ MemRead) :=
  let o : Origin := .core c slot
  let dpa := addr % 2 ^ 42 / 64 * 64
  let k := addr / 2 ^ 42 % 1024
  if (leafEntry s (leafOf dpa)).isNone || blanking s (quireOf dpa) then (s, .inl 7) else
  if !authorised s o k || (write && protectedFrom s o k (quireOf dpa)) then (sealViolation s o dpa access, .inl 8)
  else (s, .inr { origin := o, dpa := dpa, key := k, account := originAccount s o })

end Sys2Proof.Machine
end

