-- ==== Sys2Proof/Machine/ChannelRows.lean ====
section
/-! DEFINITION. The commands of the channel controllers (chapters 3 and 4): the pick, returning reads, refresh, pauses,
repair, and the writes and reads of their registers. -/

namespace Sys2Proof.Machine

/-! ### The pick (R109 to R113) -/

/-- A candidate command of a bank: the physical bank and row, its order key (level, then urgency), its place in its
queue. -/
structure Cand where
  bank : Nat
  row : Nat
  key : Nat
  idx : Nat
  deriving DecidableEq, Repr

/-- Order key of a level and urgency: lower first; urgency orders level 2 only (Table 4-1). -/
def orderKey (level urgency : Nat) : Nat := 4 * level + (if level = 2 then 3 - urgency else 0)

/-- The waiting requests of a queue as candidates, oldest first. -/
def readCands (s : State) (g : Nat) : List Cand :=
  (chan s g).pool.zipIdx.map fun (r, i) =>
    { bank := (physRead s (locOfBank g r.bank r.row)).bankIndex, row := r.row, key := orderKey r.level r.urgency, idx := i }

/-- The buffered writes whose account's ceiling lets them go (R180). -/
def writeCands (s : State) (g : Nat) : List Cand :=
  ((chan s g).writes.zipIdx.filter fun (w, _) => !overCeiling s w.account).map fun (w, i) =>
    { bank := ((physWrite s (locOfBank g w.bank w.row)).head?.getD {}).bankIndex, row := w.row
      key := orderKey w.level w.urgency, idx := i }

/-- The candidate of one bank's queue (R111): the oldest aged request, else the oldest row hit of the lowest level
present while the run of hits is short, else the oldest of the lowest level. DESIGN CHOICE (assumption 75, R111): within
level 2 the urgency ranks before a row hit, as Table 4-1 orders the level. -/
def bankCand (c : Chan) (hitMax aged : Nat) (q : List Cand) : Option Cand :=
  match q.find? fun x => decide (x.idx < aged) with
  | some x => some x
  | none =>
    match leastBy Cand.key q with
    | none => none
    | some m =>
      let same := q.filter fun x => x.key == m.key
      let hit := if Tab.at c.hits m.bank 0 < hitMax then
          same.find? fun x => Tab.find c.openRow x.bank == some x.row else none
      hit <|> same.head?

/-- A bank's ruled refresh of the current line is still to be issued (R118). -/
def refreshLeft (s : State) (g bank : Nat) : Bool :=
  refreshDue s g bank && Tab.find (chan s g).refreshed bank != some s.ruling.gen && refreshable s g bank

/-- A due maintenance command of a bank precedes every request to it (R109, R124): a ruled refresh of the current line,
or a targeted refresh that is pending. -/
def maintenanceDue (s : State) (g bank : Nat) : Bool :=
  (chan s g).targeted.any (fun x => x.1 == bank) || refreshLeft s g bank

/-- A request to a bank has begun its service: its row has been opened and not yet accessed (R109). -/
def serviceBegun (c : Chan) (x : Cand) : Bool :=
  Tab.find c.openRow x.bank == some x.row && (Tab.find c.hits x.bank).isNone

/-- The bank may take the candidate's command: its timing allows one, no maintenance command of the bank is due, and an
activate is not stopped in the channel (R109, R124, R125). -/
def allowed (s : State) (g : Nat) (busy : List Nat) (x : Cand) : Bool :=
  let c := chan s g
  !busy.contains x.bank &&
    (serviceBegun c x || (!maintenanceDue s g x.bank && (Tab.find c.openRow x.bank == some x.row || !c.stopped)))

/-- The command slot's choice (R110): the lowest level among the banks' candidates, ties by the rotating pointer. -/
def choose (s : State) (g : Nat) (cands : List Cand) (aged : Nat) (busy : List Nat) : Option Cand :=
  let c := chan s g
  let banks := (cands.map Cand.bank).eraseDups
  let per := banks.filterMap fun b =>
    (bankCand c (s.get (CHN_SCHED_HIT_RUN_MAX g)) aged (cands.filter fun x => x.bank == b)).filter (allowed s g busy)
  leastBy (fun x => x.key / 4 * 100000 + x.key % 4 * 1000 + (x.bank + 272 - c.pointer % 272) % 272) per

/-- Reads of the pools whose account would pass its ceiling go back to ingress (R180). -/
def holdPooled (s : State) (g : Nat) : State :=
  let above := (chan s g).pool.filter fun r => overCeiling s r.access.account
  let s := modChan s g fun c => { c with pool := c.pool.filter fun r => !overCeiling s r.access.account }
  s.each above fun s r => hold s (.read r.access)

/-- The read or write batch (R113): to writes at the high watermark or with no read waiting; back to reads at the low
watermark or when a level-1 read has waited longer than the age cap. -/
def batch (s : State) (g aged : Nat) : State :=
  let c := chan s g
  let n := c.writes.length
  let late := (c.pool.take aged).any fun r => r.level == 1
  let w := if c.writeMode then !((decide (n ≤ s.get (CHN_SCHED_WRITE_LOW g)) && !c.pool.isEmpty) || late || n == 0)
    else (decide (s.get (CHN_SCHED_WRITE_HIGH g) ≤ n) || (c.pool.isEmpty && n != 0))
  setChan s g { c with writeMode := w }

/-- Keep a command until the die acknowledges it; of the last 64 the channel keeps note (R86, assumption 76). -/
def noteCmd (c : Chan) (x : ChanCmd) : Chan := { c with unacked := (c.unacked ++ [x]).drop (c.unacked.length - 63) }

/-- Activate a row (R110, R122): it opens, its run of hits starts, the pointer advances past the bank. -/
def activate (s : State) (g bank row : Nat) : State :=
  let s := modChan s g fun c => noteCmd { c with
    openRow := Tab.set c.openRow bank row, hits := Tab.del c.hits bank, pointer := (bank + 1) % 272 } (.activate bank row)
  countActivate s g bank row

/-- A column command (R111, R180): the bytes are counted; after the row's first access the run of hits grows. -/
def column (s : State) (g : Nat) (x : Cand) (account : Nat) : State :=
  modChan (count s account 64) g fun c => { c with
    hits := Tab.set c.hits x.bank (match Tab.find c.hits x.bank with | some n => n + 1 | none => 0)
    served := c.served + 64 }

/-- The array's part of a column read: the burst is on its way. -/
def readArray (s : State) (g : Nat) (r : Req) : State :=
  let i : Issued := { req := r, content := loadLine s (locOfBank g r.bank r.row) r.line }
  modChan s g fun c => noteCmd { c with issued := c.issued ++ [i] } (.read i)

/-- The array's part of a column write: the line is stored (R86: always a full line). -/
def writeArray (s : State) (g : Nat) (w : WLine) : State :=
  let l := locOfBank g w.bank w.row
  let old := (physWrite s l).map fun p => (p, lineAt s p w.line)
  modChan (storeLine s l w.line w.content) g fun c => noteCmd c (.write w old)

/-- Issue the chosen read's command: an activate when its row is not open, else the column read. -/
def issueRead (s : State) (g : Nat) (x : Cand) : State :=
  let c := chan s g
  if Tab.find c.openRow x.bank ≠ some x.row then activate s g x.bank x.row else
  match c.pool[x.idx]? with
  | none => s
  | some r =>
    let s := readArray (column s g x r.access.account) g r
    fillPools (modChan s g fun c => { c with pool := c.pool.eraseIdx x.idx }) g

/-- Issue the chosen write's command. -/
def issueWrite (s : State) (g : Nat) (x : Cand) : State :=
  let c := chan s g
  if Tab.find c.openRow x.bank ≠ some x.row then activate s g x.bank x.row else
  match c.writes[x.idx]? with
  | none => s
  | some w =>
    let s := writeArray (column s g x w.account) g w
    fillWrites (modChan s g fun c => { c with writes := c.writes.eraseIdx x.idx }) g

/-! ### Commands issued again (R86) -/

/-- Take back a command that the die has discarded: its row stays closed, its burst does not come, its line keeps what it
held. -/
def undoCmd (s : State) (g : Nat) (x : ChanCmd) : State :=
  match x with
  | .activate b _ => modChan s g fun c => { c with openRow := Tab.del c.openRow b, hits := Tab.del c.hits b }
  | .read i => modChan s g fun c => { c with issued := c.issued.filter (· != i) }
  | .write w old => s.each old fun s (p, m) => setLine s p w.line m

/-- A discarded command that is still to be issued again: a read whose burst has come back is not. -/
def stillLost (c : Chan) (x : ChanCmd) : Bool := match x with | .read i => c.issued.contains i | _ => true

/-- Issue a command again (R86). -/
def reissueCmd (s : State) (g : Nat) (x : ChanCmd) : State :=
  match x with
  | .activate b r => activate s g b r
  | .read i => readArray s g i.req
  | .write w _ => writeArray s g w

/-- Issue again every command that waits for it. -/
def reissueAll (s : State) (g : Nat) : State :=
  let xs := (chan s g).discarded
  (modChan s g fun c => { c with discarded := [] }).each xs fun s x => reissueCmd s g x

/-- Serve the candidate that a bank's queue and the rotating pointer bring forward. -/
def serveSlot (s : State) (g agedReads agedWrites : Nat) (busy : List Nat) : State :=
  if (chan s g).writeMode then
    -- Two writes to one line reach the array in arrival order (R107).
    let ws := (chan s g).writes
    let first := (writeCands s g).filter fun x => !((ws.take x.idx).any fun v =>
      match ws[x.idx]? with | some w => v.bank == w.bank && v.row == w.row && v.line == w.line | none => false)
    match choose s g first agedWrites busy with | some x => issueWrite s g x | none => s
  else
    match choose s g (readCands s g) agedReads busy with | some x => issueRead s g x | none => s

/-- COMMAND_PICK (R109 to R113): one command slot of a channel. `aged` and `agedWrites` are how many of the oldest reads
and buffered writes exceed the age cap, `busy` the banks whose timing forbids a command. A command that must be issued
again comes first (R86). -/
def execCommandPick (chan : Fin 256) (aged : AgedRun) (busy : List (Fin 272)) (s : State) :
    Host.Outcome State Fault Refusal :=
  .next (
    let g := chan.val
    if !inService s g then s else
    match (Sys2Proof.Machine.chan s g).discarded with
    | x :: rest => reissueCmd (modChan s g fun c => { c with discarded := rest }) g x
    | [] => drainReserve (serveSlot (batch (fillPools (holdPooled s g) g) g aged.reads) g aged.reads aged.writes (busy.map Fin.val)))

/-! ### Returning reads (R77 to R79, R133) -/

/-- The answer to a lending node's read: the line as stored (R165). A recalled slot is free once its last line has been
read (assumption 25). -/
def answerLentIn (s : State) (o : Origin) (line : Nat) (m : MediaLine) : State :=
  match o with
  | .lentIn p tag q slot =>
    let s := s.send (.lentLine p tag q m)
    if line = 63 ∧ s.fabric.recalled.contains slot then unhost s slot else s
  | _ => s

/-- A read comes from a lending node, which gets the line as stored. -/
def Origin.lends (o : Origin) : Bool := match o with | .lentIn _ _ _ _ => true | _ => false

/-- A read's line is decoded and opened: the answer goes out, or none where the read must be re-read. -/
def readBack (s : State) (g : Nat) (i : Issued) (run : ReadRun) : State × Option Opened :=
  let l := locOfBank g i.req.bank i.req.row
  let ok := decodes s g run.errors
  let s := if ok then countDecode s g (physRead s l).bankIndex i.req.row run.errors else s
  let a := i.req.access
  if a.origin.lends then
    (if ok then (answerLentIn s a.origin i.req.line i.content, none) else (s, some .badCheck))
  else
  let s := treeMet s a.dpa i.content.fresh run.tree
  let s := if i.content.fresh then touchCounter s (leafOf a.dpa) a.account false else s
  let o := openLine s a.dpa a.key i.content
  if !ok then (s, some .badCheck) else if o.bad then (s, some o) else
  let (s, r) := opened s a o 1
  (respond s a.origin a.account r, none)

/-- READ_DATA_RETURN (R78): the channel's oldest burst returns; an uncorrectable one is held for its re-read. -/
def execReadDataReturn (chan : Fin 256) (run : ReadRun) (s : State) : Host.Outcome State Fault Refusal :=
  .next (
    let g := chan.val
    match (Sys2Proof.Machine.chan s g).issued with
    | [] => s
    | i :: rest =>
      let s := modChan s g fun c => { c with issued := rest }
      match readBack s g i run with
      | (s, none) => s
      | (s, some _) => modChan s g fun c => { c with reread := c.reread ++ [i] })

/-- A line of a row that the spare copy has not reached cannot be read: it will be moved poisoned (R135). -/
def noteLost (s : State) (l : Loc) (i : Nat) : State :=
  if substituted s l && (physRead s l).rank != 16 then
    modChan s l.chan fun c => { c with badLines := c.badLines ++ [(copyPos l.bankIndex l.row, i)] }
  else s

/-- REREAD_COMPLETE (R133): a clean re-read returns the data with a Corrected event; otherwise poison is returned and
the rank has failed. -/
def execRereadComplete (chan : Fin 256) (run : ReadRun) (s : State) : Host.Outcome State Fault Refusal :=
  .next (
    let g := chan.val
    match (Sys2Proof.Machine.chan s g).reread with
    | [] => s
    | i :: rest =>
      let s := modChan s g fun c => { c with reread := rest }
      let a := i.req.access
      match readBack s g i run with
      | (s, none) => transient s g
      | (s, some o) =>
        let l := locOfBank g i.req.bank i.req.row
        let s := if decodes s g run.errors then countBad s o else noteLost s l i.req.line
        if a.origin.lends then
          readSeen (answerLentIn s a.origin i.req.line { i.content with poison := true }) l i.req.line run
            (some (originMaster a.origin)) none
        else failLine (respond s a.origin a.account .poison) a.origin a.dpa 1 l)

/-! ### The spare copy (R96, R135) -/

/-- A media line address lies in a rank of a channel, between two positions of the rank. -/
def inRows (g lo hi rank a : Nat) : Bool :=
  let p := copyPos (a / 2 ^ 17 % 16) (a / 64 % 2048)
  a / 2 ^ 26 == g && a / 2 ^ 21 % 32 == rank && decide (lo ≤ p) && decide (p < hi)

/-- The lines of the substituted rank between two positions, as rank 16 holds them from now on. -/
def moveRows (s : State) (g r lo hi : Nat) : State :=
  let src := s.media.filter fun x => inRows g lo hi r x.1
  let kept := s.media.filter fun x => !inRows g lo hi 16 x.1
  { s with media := src.foldl (fun t x => Tab.put t (x.1 - r * 2 ^ 21 + 16 * 2 ^ 21) x.2 {}) kept }

/-- The leaf whose map entry names a location. -/
def leafAt (s : State) (l : Loc) : Option Nat := (s.ductus.map.find? fun (_, e) => !e.remote && e.loc == l).map (·.1)

/-- The location of a position of a rank. -/
def locOfPos (g r p : Nat) : Loc :=
  { chan := g, rank := r, group := p / 1600 / 4, bank := p / 1600 % 4, row := p % 1600 }

/-- A line that the spare copy cannot decode goes poisoned to rank 16, with its event (R96, R135). -/
def copyBad (s : State) (l : Loc) (i : Nat) : State :=
  let dpa := (leafAt s l).map fun k => dpaOf k i
  let s := setLine s { l with rank := 16 } i { lineAt s l i with poison := true }
  let s := match dpa with | some d => mergeDrop s fun x _ => x == d | none => s
  report s { type := 0x35, source := l.chan, master := some (internalMaster 8), access := 9, dpa := dpa
             media := some (l.addr i) }

/-- Copy the rows of the substituted rank between two positions to rank 16, charged to the migration account. `reads` says
how the reads of some lines decode, by position in the rank and line: a line that neither a read of the copy nor an
earlier one decodes goes poisoned. -/
def copyRows (s : State) (g r lo hi : Nat) (reads : List (Nat × Nat × ReadRun)) : State :=
  let here (p : Nat) : Bool := decide (lo ≤ p) && decide (p < hi)
  let seen := reads.filter fun x => here x.1
  let lost := (chan s g).badLines.filter (fun x => here x.1) ++
    (seen.filter fun x => !readOk s g x.2.2).map fun x => (x.1, x.2.1)
  let s := s.each seen fun s x => readSeen s (locOfPos g r x.1) x.2.1 x.2.2 (some (internalMaster 8)) none
  let s := (moveRows s g r lo hi).each lost.eraseDups fun s x => copyBad s (locOfPos g r x.1) x.2
  chargeNow (modChan s g fun c => { c with badLines := c.badLines.filter fun x => !here x.1 }) 4095 ((hi - lo) * 8192)

/-- Let the spare copy of a channel go on to a position of the rank. -/
def advanceCopy (s : State) (g upto : Nat) (reads : List (Nat × Nat × ReadRun)) : State :=
  if !s.on (CHN_ERROR_COPY_ACTIVE g) then s else
  let r := s.get (CHN_REPAIR_STATE_SPARE_FOR g)
  let p := copyPos (s.get (CHN_ERROR_COPY_BANK g)) (s.get (CHN_ERROR_COPY_ROW g))
  if upto ≤ p then s else
  (copyRows s g r p upto reads).put (CHN_ERROR_COPY_BANK g) (16 * r + upto / 1600) |>.put (CHN_ERROR_COPY_ROW g) (upto % 1600)

/-- The rows that a running copy takes in a line (R135): at 16 GB/s no more than 4. The last row is
SPARE_COPY_COMPLETE's. -/
def copyStep (s : State) (x : CopyRun) : State :=
  let g := x.chan.val
  if !s.on (CHN_ERROR_COPY_ACTIVE g) || overCeiling s 4095 then s else
  let p := copyPos (s.get (CHN_ERROR_COPY_BANK g)) (s.get (CHN_ERROR_COPY_ROW g))
  advanceCopy s g (min 25599 (p + x.rows.val)) (x.reads.map fun y => (y.1.val, y.2.1.val, y.2.2))

/-- SPARE_COPY_COMPLETE (R135): the copy reaches the end of the rank and rank 16 serves all of it. -/
def execSpareCopyComplete (chan : Fin 256) (reads : List (Fin 25600 × Fin 64 × ReadRun)) (s : State) :
    Host.Outcome State Fault Refusal :=
  .next (
    let g := chan.val
    if !s.on (CHN_ERROR_COPY_ACTIVE g) || overCeiling s 4095 then s else
    let s := advanceCopy s g 25600 (reads.map fun y => (y.1.val, y.2.1.val, y.2.2))
    ((s.put (CHN_ERROR_COPY_ACTIVE g) 0).put (CHN_ERROR_COPY_BANK g) 0).put (CHN_ERROR_COPY_ROW g) 0)

/-! ### Rows and refresh -/

/-- ROW_IDLE_CLOSE (R112): a bank with no request for IDLE_CLOSE_NS closes its row. -/
def execRowIdleClose (chan : Fin 256) (bank : Fin 272) (s : State) : Host.Outcome State Fault Refusal :=
  .next (
    let g := chan.val
    if (readCands s g ++ writeCands s g).any fun x => x.bank == bank.val then s
    else modChan s g fun c => { c with openRow := Tab.del c.openRow bank, hits := Tab.del c.hits bank })

/-- The due refreshes of the banks below one are issued before its maintenance (R109). -/
def refreshBelow (s : State) (g bank : Nat) : State :=
  s.each (List.range bank) fun s b => if refreshLeft s g b then refreshBank s g b else s

/-- REFRESH_DUE (R118): a due bank of the current line is refreshed once, after those below it (R109). DESIGN CHOICE
(assumption 75, R118): a backstop refresh of the bank in its due line is that refresh. -/
def execRefreshDue (chan : Fin 256) (bank : Fin 272) (s : State) : Host.Outcome State Fault Refusal :=
  .next (
    let g := chan.val
    if refreshLeft s g bank then refreshBank (refreshBelow s g bank) g bank else s)

/-- BACKSTOP_EXPIRY (R120): a bank's backstop timer expires and it is refreshed; the first of a folio is a Notice, one in
every line of a folio a Degraded event (Table 4-5). -/
def execBackstopExpiry (chan : Fin 256) (bank : Fin 272) (s : State) : Host.Outcome State Fault Refusal :=
  .next (
    let g := chan.val
    if !refreshable s g bank then s else
    let c := Sys2Proof.Machine.chan s g
    let again := c.backstopGen == s.ruling.gen + 1
    let s := refreshBank s g bank
    let s := modChan s g fun c => { c with
      backstopGen := s.ruling.gen + 1, backstopLines := if again then c.backstopLines else c.backstopLines + 1 }
    let s := ((s.inc (CHN_REFRESH_BACKSTOP_COUNT g)).put (CHN_REFRESH_BACKSTOP_SEEN g) 1).put
      (CHN_REFRESH_LAST_BACKSTOP_RANK g) (bank / 16)
    let s := eventOnce s 0x44 g g (bank / 16)
    if (Sys2Proof.Machine.chan s g).backstopLines = 1024 ∧ !again then event s 0x45 g else s)

/-- The targeted refresh to issue next: of the lowest bank with one pending (R109), its oldest. -/
def nextTargeted (c : Chan) : Option (Nat × Nat) := leastBy Prod.fst c.targeted

/-- TARGETED_REFRESH (R123 to R125): the channel's next pending row is mitigated, after the refreshes due in lower banks
(R109); a second one in a line sets OVER_BUDGET; activates resume below 8 pending. -/
def execTargetedRefresh (chan : Fin 256) (s : State) : Host.Outcome State Fault Refusal :=
  .next (
    let g := chan.val
    match nextTargeted (Sys2Proof.Machine.chan s g) with
    | none => s
    | some (bank, row) =>
      let s := refreshBelow s g bank
      let c := Sys2Proof.Machine.chan s g
      let rest := c.targeted.filter (· != (bank, row))
      let above := c.targetedGen == s.ruling.gen + 1
      let c := recordMitigation { c with
        targeted := rest, targetedGen := s.ruling.gen + 1, openRow := Tab.del c.openRow bank, hits := Tab.del c.hits bank
        stopped := c.stopped && decide (8 ≤ rest.length) } bank row
      let s := ((setChan s g c).inc (CHN_HAMMER_ISSUED g)).put (CHN_HAMMER_PENDING g) rest.length
      if above then eventOnce (s.put (CHN_HAMMER_OVER_BUDGET g) 1) 0x46 g g else s)

/-! ### Pauses (R126 to R128) -/

/-- The eye rule of R90: a TSV whose eye is below the limit in two consecutive pauses is declared failed; 0 to 43 are
data TSVs, 44 to 58 command/address TSVs. -/
def eyeRule (s : State) (g : Nat) (low : List (Fin 59)) : State :=
  let c := chan s g
  let streak := (low.map Fin.val).eraseDups.foldl (fun t i => Tab.set t i (Tab.at c.eyeLow i 0 + 1)) []
  let s := setChan s g { c with eyeLow := streak }
  s.each (streak.filter fun (_, n) => decide (2 ≤ n)) fun s (i, _) => if i < 44 then declareData s g i else declareCa s g (i - 44)

/-- RETRAINING_PAUSE (R126, R127): at the channel's slot, once a line and not in the line of an exit from self-refresh
(R121). The eyes below the limit, the delays moved by a step, and in every 8th pause the spare rank's test with what it
finds. DESIGN CHOICE (assumption 75, R92): a TSV that this pause's eyes declare failed is remapped in the same pause. -/
def execRetrainingPause (chan : Fin 256) (low : List (Fin 59)) (steps : List (Fin 131 × Bool)) (spare : SpareRun)
    (s : State) : Host.Outcome State Fault Refusal :=
  .next (
    let g := chan.val
    let c := Sys2Proof.Machine.chan s g
    let go := decide (g < s.variant.channels) && slotCounter s == s.get (CHN_PAUSE_INTERVAL_PHASE g) && c.paused.isNone
      && c.pausedGen != s.ruling.gen + 1 && c.wokeGen != s.ruling.gen + 1 && !c.selfRefresh
      && s.get (CHN_REPAIR_STATE_STATE g) != 5
    if !go then s else
    let s := (swapBank s g).incW (CHN_PAUSE_STATUS_PAUSES g)
    let s := trimSteps (eyeRule s g low) g (steps.map fun (v, up) => (v.val, up))
    let test := (s.get (CHN_PAUSE_STATUS_PAUSES g) % 8 == 0 || c.testDue) && s.get (CHN_REPAIR_STATE_SPARE_STATE g) != 2
    modChan s g fun c => { c with
      applied := s.get (CHN_DATA_TSV_FAILED_FAILED g), pausedGen := s.ruling.gen + 1
      paused := some (if test then some { fails := spare.fails, reads := spare.reads } else none) })

/-- A pause reaches its length limit during the spare test: the test is abandoned and made in the next pause (R127). -/
def abandonTest (s : State) (g : Nat) : State :=
  let s := modChan s g fun c => { c with paused := none, testDue := true }
  event ((s.inc (CHN_PAUSE_STATUS_ABORTS g)).put (CHN_PAUSE_STATUS_LAST_LENGTH_NS g) (s.get (CHN_PAUSE_INTERVAL_LENGTH_NS g)))
    0x48 g

/-- The line of the rank in service that the pause test's pointer names (R89, assumption 75): the banks in turn, then the
rows, then the lines. -/
def testPlace (g r t : Nat) : Loc × Nat := (locOfPos g r (t % 16 * 1600 + t / 16 % 1600), t / 25600 % 64)

/-- The pause test of a spare rank in use (R89): 4 lines that rank 16 holds are read, each judged under R133; a line of a
row not yet copied holds no substituted data and is passed over. -/
def testInUse (s : State) (g : Nat) (reads : List ReadRun) : State :=
  let r := s.get (CHN_REPAIR_STATE_SPARE_FOR g)
  let t := (chan s g).testPtr
  let s := modChan s g fun c => { c with testPtr := (t + 4) % 1638400 }
  s.each (List.range 4) fun s i =>
    let x := testPlace g r (t + i)
    if (physRead s x.1).rank != 16 then s
    else readSeen s x.1 x.2 (reads[i]?.getD {}) (some (internalMaster 0xB)) none

/-- PAUSE_COMPLETE (R127, R89): the pause ends after `length` ns, never above LENGTH_NS, and service resumes; a spare
test that failed marks a free spare rank failed. With a LENGTH_NS below 245 ns the test never completes. -/
def execPauseComplete (chan : Fin 256) (length : Fin 512) (s : State) : Host.Outcome State Fault Refusal :=
  .next (
    let g := chan.val
    match (Sys2Proof.Machine.chan s g).paused with
    | none => s
    | some t =>
      if s.get (CHN_PAUSE_INTERVAL_LENGTH_NS g) < length.val then s
      else if t.isSome && decide (s.get (CHN_PAUSE_INTERVAL_LENGTH_NS g) < 245) then abandonTest s g else
      let s := modChan s g fun c => { c with paused := none, testDue := c.testDue && t.isNone }
      let s := s.put (CHN_PAUSE_STATUS_LAST_LENGTH_NS g) length
      match t with
      | none => s
      | some x =>
        if s.get (CHN_REPAIR_STATE_SPARE_STATE g) = 0 then (if x.fails then spareTestFails s g else s)
        else if s.get (CHN_REPAIR_STATE_SPARE_STATE g) = 1 then testInUse s g x.reads
        else s)

/-- PAUSE_LENGTH_LIMIT (R127): the spare test is abandoned and made in the next pause; service resumes. All parts fit into
245 ns (Table 4-13), so a higher LENGTH_NS is never reached. -/
def execPauseLengthLimit (chan : Fin 256) (s : State) : Host.Outcome State Fault Refusal :=
  .next (
    let g := chan.val
    match (Sys2Proof.Machine.chan s g).paused with
    | some (some _) => if s.get (CHN_PAUSE_INTERVAL_LENGTH_NS g) < 245 then abandonTest s g else s
    | _ => s)

/-- REPAIR_PAUSE (R92, R134): a command/address remap is applied, the commands that wait are issued again and service
resumes. After a command failure, a TSV that the eye rule declares in this pause takes the blame; otherwise the rank
addressed has failed. -/
def execRepairPause (chan : Fin 256) (declares : Option (Fin 15)) (s : State) : Host.Outcome State Fault Refusal :=
  .next (
    let g := chan.val
    let c := Sys2Proof.Machine.chan s g
    if !c.caRepair then s else
    let s := match declares with | some t => declareCa s g t | none => s
    let s := match c.commandFailure, declares with
      | some r, none => rankFailed s g r none 0 none none
      | _, _ => s
    let s := modChan s g fun c => { c with
      caRepair := false, commandFailure := none, appliedCa := s.get (CHN_CA_TSV_FAILED_FAILED g) }
    if s.get (CHN_REPAIR_STATE_STATE g) = 5 then s else reissueAll s g)

/-- PARITY_ALERT (R86, R90, R134): the command with the parity error is discarded, and every command since the last
acknowledged one, `lost` of them and at least that one, is to be issued again. An alert traced to a TSV that carries
commands counts against it, more than 16 in a folio declare it failed; an alert on 3 consecutive reissues is a command
failure. -/
def execParityAlert (chan : Fin 256) (rank : Fin 17) (traced : Option (Fin 15)) (alert : AlertRun) (s : State) :
    Host.Outcome State Fault Refusal :=
  .next (
    let g := chan.val
    let c := Sys2Proof.Machine.chan s g
    let n := if alert.reissue then c.reissues + 1 else 0
    let again := (c.unacked.drop (c.unacked.length - max 1 alert.lost.val)).filter (stillLost c)
    let s := s.each again.reverse fun s x => undoCmd s g x
    let s := modChan s g fun c => { c with
      unacked := [], discarded := again ++ c.discarded
      reissues := if n = 3 then 0 else n
      commandFailure := if n = 3 then some rank.val else c.commandFailure
      caRepair := c.caRepair || n == 3 }
    match traced with
    | some t =>
      if !(caWires s g).contains t.val then s else
      let s := modChan s g fun c => { c with alerts := Tab.set c.alerts t (Tab.at c.alerts t 0 + 1) }
      if 16 < Tab.at (Sys2Proof.Machine.chan s g).alerts t 0 then declareCa s g t else s
    | none => s)

/-- SIGNAL_COPY_FAILED (R97): one wire of the strobe, clock and alert copies fails, bit `wire` + 16 of
CHN_CA_TSV_FAILED; the loss of both copies of a signal retires the channel. -/
def execSignalCopyFailed (chan : Fin 256) (wire : Fin 14) (s : State) : Host.Outcome State Fault Refusal :=
  .next (
    let g := chan.val
    let all : Fld := { CHN_CA_TSV_FAILED_STROBE_COPY g with width := 14 }
    if s.flag all wire ∨ s.variant.channels ≤ g then s else
    let twin := (wire.val == 8 && s.flag all 9) || (wire.val == 9 && s.flag all 8) || (wire.val == 10 && s.flag all 11)
      || (wire.val == 11 && s.flag all 10)
    let s := recordRepair (s.setFlag all wire) g 2 wire
    let s := if signalLost s g || twin then s else event s 0x31 g wire
    updateState s g)

/-- TOWER_SUPPLY_FAULT (R102): Fatal. -/
def execTowerSupplyFault (tower : Fin 4) (s : State) : Host.Outcome State Fault Refusal :=
  .next (if s.variant.towers ≤ tower.val then s else event s 0x38 (400 + tower))

/-! ### Registers -/

/-- A write of CHN_SCHED (R141): refused whole with a Notice where a range or relation breaks; raised caps remove the
bound of R116. -/
def writeSched (s : State) (g : Nat) (w : BitVec 64) : State :=
  let v := w.toNat
  let hit := bitsOf v 48 8
  let idle := bitsOf v 40 8
  let high := bitsOf v 32 8
  let low := bitsOf v 24 8
  let age := bitsOf v 0 16
  if hit < 1 ∨ 64 < hit ∨ idle < 8 ∨ high ≤ low + 16 ∨ age < 50 ∨ 1000 < age then notice s g else
  let s := ((s.put (CHN_SCHED_HIT_RUN_MAX g) hit).put (CHN_SCHED_IDLE_CLOSE_NS g) idle).put (CHN_SCHED_WRITE_HIGH g) high
  let s := (s.put (CHN_SCHED_WRITE_LOW g) low).put (CHN_SCHED_AGE_CAP_NS g) age
  modChan s g fun c => { c with boundRemoved := decide (200 < age) || decide (16 < hit) }

/-- CHN_SCHED_WRITE (R141). -/
def execChnSchedWrite (chan : Fin 256) (value : BitVec 64) (s : State) : Host.Outcome State Fault Refusal :=
  .next (if s.variant.channels ≤ chan.val then s else writeSched s chan value)

/-- A read of CHN_POOL returns OCCUPIED_MAX and clears it (Table 4-7). -/
def readPool (s : State) (g : Nat) : State × BitVec 64 :=
  (s.put (CHN_POOL_OCCUPIED_MAX g) 0, s.word (CHN_POOL_OCCUPIED_MAX g).addr)

/-- A write of CHN_POOL is in: requests that its limits now admit enter their pools (R106). -/
def poolWritten (s : State) (g : Nat) : State := fillPools s g

/-- CHN_POOL_READ (R140); the register of an absent channel reads zero (R3). -/
def execChnPoolRead (chan : Fin 256) (s : State) : Host.Outcome State Fault Refusal :=
  .next (
    let a := (CHN_POOL_OCCUPIED_MAX chan).addr
    if absentUnit s.variant .CHN_POOL chan 0 then s.send (.deskValue a 0) else
    let (s, v) := readPool s chan
    s.send (.deskValue a v))

/-- The channels' part of the line that begins a folio: per-folio counts restart (R79, R90). -/
def channelFolio (s : State) : State :=
  { s with chans := s.chans.map fun (g, c) => (g, { c with corrections := [], reads := 0, alerts := [], backstopLines := 0 }) }

end Sys2Proof.Machine
end

