-- ==== Sys2Proof/Machine/Ductus.lean ====
section
/-! DEFINITION. The Ductus's commands (chapter 5): map-cache fills, the heat sweep, the decision epoch with the base
placement rubric's decisions, the placement primitives, moves and loans; and the accounts' commands that hand requests
back to the access path (chapter 6). -/

namespace Sys2Proof.Machine

/-! ### Map blocks (R145, R150) -/

/-- A map block cannot be decoded (R150): a Fatal event. -/
def mapLost (s : State) (block : Nat) : State := event s 0x52 429 block

/-- A map block is read from the reserve (R145): the state, and whether it decoded; one that does not is Fatal (R150). -/
def readMap (s : State) (b : Nat) (run : ReadRun) : State × Bool :=
  match mapPlace s b with
  | none => (s, true)
  | some (l, i) =>
    let ok := readOk s l.chan run
    let s := readSeen s l i run (some (internalMaster 8)) none
    (if ok then s else mapLost s b, ok)

/-- A lookup of a leaf by the Ductus itself (R145, R150): a miss is counted and reads the block. Answers whether the entry
is known. -/
def lookupBlock (s : State) (leaf : Nat) (run : ReadRun) : State × Bool :=
  let b := blockOf leaf
  if mapHit s leaf then (useBlock s b, true) else
  match readMap (s.incW DCT_MAP_CACHE_MISSES) b run with
  | (s, true) => (installBlock s b, true)
  | (s, false) => (s, false)

/-- A request whose map block is lost has no location: a read gets poison, a write is not performed. -/
def endLost (s : State) (w : Work) : State :=
  match w with
  | .read a => endRead s a .poison
  | .write w => endWrite s w .failed

/-- MAP_CACHE_MISS_FILL (R145, R150): the oldest missed block returns and is installed, and the requests that wait for
it go on; a block that cannot be decoded leaves them without a location. -/
def execMapCacheMissFill (map : ReadRun) (s : State) : Host.Outcome State Fault Refusal :=
  .next (
    match s.ductus.missWait with
    | [] => s
    | (b, _) :: _ =>
      let ws := (s.ductus.missWait.filter fun x => x.1 == b).map (·.2)
      let s := { s with ductus := { s.ductus with missWait := s.ductus.missWait.filter fun x => x.1 != b } }
      match readMap s b map with
      | (s, true) => (installBlock s b).each ws fun s w =>
          proceed (heatSample s w.origin (leafOf w.dpa) (match w with | .write _ => true | .read _ => false)) w
      | (s, false) => s.each ws endLost)

/-! ### Heat (R149, R152) -/

/-- Insert a cold candidate: it displaces nothing. -/
def insertCold (l : List (Nat × Nat × Nat)) (x : Nat × Nat × Nat) : List (Nat × Nat × Nat) :=
  if l.length < 512 && !(l.any fun y => y.2.1 == x.2.1) then l ++ [x] else l

/-- The sweep visits one entry (R149). -/
def sweepEntry (s : State) (leaf : Nat) (e : Leaf) : State :=
  let hot := bitsOf s.ductus.heatForce.toNat 24 8
  let cold := bitsOf s.ductus.heatForce.toNat 16 8
  let x := (e.heat, leaf, e.lastSampler)
  let d := s.ductus
  let d := if hot ≤ e.heat then { d with hot := insertHot d.hot x }
    else if e.heat ≤ cold && !e.hard && !e.pinned then { d with cold := insertCold d.cold x } else d
  setLeaf { s with ductus := d } leaf { e with heat := e.heat / 2, lastSampler := 0xFF }

/-- HEAT_SWEEP (R149, R150): the sweep visits its next map block through the cache, charged to the migration account; a
block that the cache does not hold is read from the reserve. -/
def execHeatSweep (map : ReadRun) (s : State) : Host.Outcome State Fault Refusal :=
  .next (
    if overCeiling s 4095 then s else
    let b := s.ductus.sweep
    let s := { s with ductus := { s.ductus with sweep := (b + 1) % (s.variant.leaves / 8) } }
    match (if mapHit s (8 * b) then (s, true) else readMap s b map) with
    | (s, true) =>
      chargeNow (s.each (s.ductus.map.filter fun (k, _) => k / 8 == b) fun s (k, e) => sweepEntry s k e) 4095 128
    | (s, false) => s)

/-! ### The placement primitives (R173) -/

/-- Table 5-7. -/
def stOk : Nat := 0
def stBusy : Nat := 1
def stPinned : Nat := 2
def stHard : Nat := 3
def stNospace : Nat := 4
def stInvalid : Nat := 5
def stDisabled : Nat := 6
def stLockfull : Nat := 7
def stBudget : Nat := 8

/-- Where a MOVE is to go (Table 11-4). -/
inductive MoveTo where
  | any
  | onChannel (g : Nat)
  | slot (l : Loc)
  | loan (port : Nat)
  deriving DecidableEq, Repr

/-- A recall asks for a lent leaf (R166). -/
def RecallJob.wants (r : RecallJob) (e : Leaf) : Bool :=
  e.remote && r.port == e.port && r.pbr == e.pbr && r.slots.contains e.slot

/-- A leaf lies on a channel, rank or layer under evacuation, or is recalled, so that cause 1 is allowed. -/
def underEvacuation (s : State) (e : Leaf) : Bool :=
  s.ductus.evacuations.any (fun v => v.covers e) || s.ductus.recalls.any fun r => r.wants e

/-- A location that exists and may take a leaf: a Normal channel, a user rank not retired, a row in range. -/
def locOk (s : State) (l : Loc) : Bool :=
  normalChan s l.chan && decide (l.rank < s.variant.layers) && decide (l.row < 1600) && rankOk s l.chan l.rank

/-- A Peer port reaches a node that may hold loans: its link is up (R164). -/
def peerPort (s : State) (p : Nat) : Bool :=
  decide (p < s.variant.ports) && s.get (PRT_PORT_CTRL_ROLE p) == 1 && (List.range 4).any fun k => linkUp s p k

/-- Some line of the leaf is FRESH: its key index is sealed-fresh (R164). -/
def freshLeaf (s : State) (leaf : Nat) : Bool := (Tab.find s.sealing.counters leaf).isSome

/-- The slot a MOVE's destination comes to; none without space. Any destination is as R167 rules 2 and 3 choose
(Table 11-4); a hard leaf's place in its channel is as its stripe asks. -/
def findSlot (s : State) (leaf : Nat) (e : Leaf) (dest : MoveTo) : Option Loc :=
  let ok := fitsLeaf s leaf
  match dest with
  | .any =>
    let l := chooseDest s leaf { e with hard := false }
    if e.hard then l.bind fun l => hardSlotOn s e.spreadAccount l.chan ok else l
  | .onChannel g => if e.hard then hardSlotOn s e.spreadAccount g ok else slotOn s g leaf ok
  | .slot l => if slotFree s l.chan l.slotIndex && decide (l.slotIndex < s.variant.hostSlots) && ok l then some l else none
  | .loan _ => none

/-- The channel a MOVE names is absent or not Normal. -/
def badDest (s : State) (dest : MoveTo) : Bool :=
  match dest with
  | .any => false
  | .onChannel g => !normalChan s g
  | .slot l => !locOk s l
  | .loan p => !peerPort s p

/-- A MOVE takes a hard leaf outside its spread set. -/
def leavesSet (s : State) (leaf : Nat) (e : Leaf) (dest : MoveTo) : Bool :=
  let set := spreadSet s (s.get (ACC_CFG_SPREAD e.spreadAccount))
  e.hard && (match dest with
    | .any => (match chooseDest s leaf { e with hard := false } with | some l => !set.contains l.chan | none => false)
    | .onChannel g => !set.contains g
    | .slot l => !set.contains l.chan
    | .loan _ => true)

/-- More is locked than the limits of R145 and R221 allow. -/
def overLocked (s : State) : Bool :=
  decide (s.get DCT_MAP_CACHE_LOCK_LIMIT < (lockedBlocks s).length) || decide (s.get SEL_TREE_CACHE_LOCK_LIMIT < (nodesToLock s).length)

/-- Why a MOVE is refused before its slot is looked for (Table 5-7). `accepts`: the node that a loan would go to has
DCT_LEND.ACCEPT set (R164); without it the loan's destination is absent. -/
def moveRefusal (s : State) (leaf : Nat) (e : Leaf) (cause : Nat) (dest : MoveTo) (accepts : Bool) : Option Nat :=
  let loan := match dest with | .loan _ => true | _ => false
  let heat := decide (3 ≤ cause)
  if badDest s dest || (cause == 1 && !underEvacuation s e) || (loan && e.remote) then some stInvalid
  else if e.moving || (freeMoveSlot s).isNone then some stBusy
  else if e.pinned && (decide (2 ≤ cause) || loan) then some stPinned
  else if e.hard && (heat || loan || leavesSet s leaf e dest) then some stHard
  else if (heat && !bit s.ductus.ctrlForce 1) || (loan && !s.on DCT_LEND_LEND) then some stDisabled
  else if loan && (!accepts || freshLeaf s leaf) then some stInvalid
  else if e.hard && overLocked s then some stLockfull
  else if heat && decide (s.ductus.budget < 4096) then some stBudget
  else none

/-- MOVE of a leaf (R157, R164, R173): the status, and the move slot when accepted. The slot that the holding node
gives a loan, and its PBR identifier, are free values: the spec gives no message that settles them (assumption 23). -/
def moveLeaf (s : State) (leaf cause : Nat) (dest : MoveTo) (accepts : Bool := false) (item : Option Nat := none) :
    State × Nat × Nat :=
  match leafEntry s leaf with
  | none => (s, stInvalid, 0)
  | some e =>
    match moveRefusal s leaf e cause dest accepts with
    | some st => (s, st, 0)
    | none =>
      let k := (freeMoveSlot s).getD 0
      match dest with
      | .loan p =>
        let f := s.freeNow.toNat
        (startMove s.drew leaf cause e (.remote p (f % 4096) (f / 4096 % 2 ^ 28)) item, stOk, k)
      | _ =>
        match findSlot s leaf e dest with
        | some l => (startMove s leaf cause e (.local l) item, stOk, k)
        | none => (s, stNospace, 0)

/-- The PL_MOVE of a leaf: its entry is looked up first (R145, R150); a leaf whose block is lost has no entry. -/
def moveLooked (s : State) (leaf cause : Nat) (dest : MoveTo) (accepts : Bool) (map : ReadRun) : State × Nat × Nat :=
  if (leafEntry s leaf).isNone then (s, stInvalid, 0) else
  match lookupBlock s leaf map with
  | (s, true) => moveLeaf s leaf cause dest accepts
  | (s, false) => (s, stInvalid, 0)

/-- The 512 slots that a MOVE of a reserve quire is given: on the channel named, or from the slot named on. -/
def quireTarget (s : State) (g : Nat) (dest : MoveTo) : Option (Nat × List Nat) :=
  match dest with
  | .any => (quireDest s g).map fun c => (c, quireSlots s c)
  | .onChannel c => some (c, quireSlots s c)
  | .slot l => some (l.chan, ((List.range 512).map (l.slotIndex + ·)).filter fun x =>
      decide (x < s.variant.slots) && slotFree s l.chan x && (decide (x < s.variant.hostSlots) || poolSlot s l.chan x))
  | .loan _ => none

/-- MOVE of a reserve quire (R146, R173): to 512 free slots of a channel. DESIGN CHOICE (assumption 78): a slot
destination names the first of 512 consecutive slots. -/
def moveQuire (s : State) (q cause : Nat) (dest : MoveTo) : State × Nat × Nat :=
  match (if q < s.variant.reserveQuires && !counterQuire s q then reserveChan s q else none) with
  | none => (s, stInvalid, 0)
  | some g =>
    let evac := s.ductus.evacuations.any fun v => (v.quires s).contains q
    let loan := match dest with | .loan _ => true | _ => false
    if loan || badDest s dest || (cause == 1 && !evac) then (s, stInvalid, 0)
    else if quireMoving s q then (s, stBusy, 0)
    else if 3 ≤ cause && !bit s.ductus.ctrlForce 1 then (s, stDisabled, 0)
    else if 3 ≤ cause && decide (s.ductus.budget < 2 ^ 21) then (s, stBudget, 0)
    else match freeMoveSlot s, quireTarget s g dest with
      | none, _ => (s, stBusy, 0)
      | some _, none => (s, stNospace, 0)
      | some k, some (c, xs) =>
        if xs.length = 512 then (moveQuireTo s k q cause g c xs, stOk, k) else (s, stNospace, 0)

/-- PIN and UNPIN (R163, R173): a pin aborts a cause 3 or 4 move of the leaf (Table 5-4). -/
def pinLeaf (s : State) (leaf : Nat) (pin : Bool) : State × Nat :=
  match leafEntry s leaf with
  | none => (s, stInvalid)
  | some e =>
    if e.remote then (s, stInvalid) else
    let s := setLeaf s leaf { e with pinned := pin }
    let s := match moveOf s leaf with
      | some (k, m) => if pin && decide (3 ≤ m.cause) then abortMove s k false else s
      | none => s
    (s, stOk)

/-- The PL_PIN and PL_UNPIN of a leaf: its entry is looked up first (R145, R150). -/
def pinLooked (s : State) (leaf : Nat) (pin : Bool) (map : ReadRun) : State × Nat :=
  if (leafEntry s leaf).isNone then (s, stInvalid) else
  match lookupBlock s leaf map with
  | (s, true) => pinLeaf s leaf pin
  | (s, false) => (s, stInvalid)

/-- READ HEAT (R173, Table 11-1): HEAT and LAST_SAMPLER of a leaf, changing nothing but the map cache. -/
def readHeat (s : State) (leaf : Nat) (map : ReadRun) : State × Nat × Nat :=
  match leafEntry s leaf with
  | none => (s, stInvalid, 0)
  | some e =>
    match lookupBlock s leaf map with
    | (s, true) => (s, stOk, e.heat * 256 + if e.remote then 0 else e.lastSampler)
    | (s, false) => (s, stInvalid, 0)

/-- A location in the layout of Table 5-1 bits 27:0. -/
def locWord (l : Loc) : Nat := l.chan * 2 ^ 20 + l.rank * 2 ^ 15 + l.group * 2 ^ 13 + l.bank * 2 ^ 11 + l.row

/-- The location that bits 27:0 of a word name. -/
def locOfWord (w : Nat) : Loc :=
  { chan := bitsOf w 20 8, rank := bitsOf w 15 5, group := bitsOf w 13 2, bank := bitsOf w 11 2, row := bitsOf w 0 11 }

/-- A leaf-map entry as a word (Tables 5-1 and 5-2). -/
def entryWord (e : Option Leaf) : BitVec 64 :=
  match e with
  | none => 0
  | some e =>
    BitVec.ofNat 64 (if e.remote then 2 ^ 63 + e.port * 2 ^ 56 + e.heat * 2 ^ 48 + e.pbr * 2 ^ 28 + e.slot
      else 2 ^ 62 + b2n e.pinned * 2 ^ 61 + b2n e.hard * 2 ^ 60 + b2n e.moving * 2 ^ 59 + e.heat * 2 ^ 48
        + (if e.hard then e.spreadAccount else 0) * 2 ^ 36 + e.lastSampler * 2 ^ 28 + locWord e.loc)

/-- A map block as the line that the reserve holds (R142, R209): plain, with the check over its reserve offset, bit 63 set. -/
def mapLine (s : State) (b : Nat) : MediaLine :=
  let data := BitVec.ofNat 512 ((List.range 8).foldl (fun n i => n + (entryWord (leafEntry s (8 * b + i))).toNat * 2 ^ (64 * i)) 0)
  { data := data, mac := lineCheck data (2 ^ 63 + 64 * b) 0 }

/-- RESOLVE (R173, R348): the entry of a DPA, the status, and the destination of a move in flight. -/
def resolveLeaf (s : State) (dpa : Nat) (map : ReadRun) : State × BitVec 64 × Nat × Nat :=
  let leaf := leafOf dpa
  if s.variant.leaves ≤ leaf || (leafEntry s leaf).isNone then (s, entryWord none, stInvalid, 0) else
  match lookupBlock s leaf map with
  | (s, false) => (s, entryWord none, stInvalid, 0)
  | (s, true) =>
    let d := match moveOf s leaf with
      | some (_, m) => (match m.dest with | .local l => locWord l | .remote _ _ sl => sl)
      | none => 0
    (s, entryWord (leafEntry s leaf), stOk, d)

/-! ### Stripes (R154) -/

/-- One step of restoring a stripe: how it went. -/
inductive StripeStep where
  | done | moved | pinned | noSlot
  deriving DecidableEq, Repr

/-- Try to move, by cause 2, the first leaf of a list that may move and that a place will take. -/
def stripeMove (s : State) (ls : List (Nat × Leaf)) (dest : (Loc → Bool) → Option Loc) : State × StripeStep :=
  let free := ls.filter fun (_, e) => !e.pinned && !e.moving
  if free.isEmpty && ls.any fun (_, e) => e.pinned then (s, .pinned) else
  if (freeMoveSlot s).isNone then (s, .noSlot) else
  match firstSome free fun (k, e) => (dest (fitsLeaf s k)).map fun l => (k, e, l) with
  | some (k, e, l) => (startMove s k 2 e (.local l) none, .moved)
  | none => (s, .noSlot)

/-- One step of restoring an account's stripe (R154): from outside the set, or from its fullest channel, to the emptiest;
then from the fullest bank of a channel to its emptiest. -/
def stripeStep (s : State) (a : Nat) (set : List Nat) : State × StripeStep :=
  let ls := aimedLeaves s a
  let n := ls.length
  let m := set.length
  let on (p : Loc → Bool) : List (Nat × Leaf) := (ls.filter fun (_, e) => p e.loc).filterMap fun (k, _) => (leafEntry s k).map fun e => (k, e)
  let out := on fun l => !set.contains l.chan
  match leastBy (countOn ls) set, leastBy (fun g => n - countOn ls g) set with
  | some lo, some hi =>
    if !out.isEmpty then stripeMove s out (hardSlotOn s a lo)
    else if countOn ls lo < n / m || ceilDiv n m < countOn ls hi then stripeMove s (on fun l => l.chan == hi) (hardSlotOn s a lo)
    else
      let lim := ceilDiv n (16 * m) + 1
      let crowded := ls.filter fun (_, e) => decide (lim < countIn ls e.loc.chan e.loc.bankIndex)
      match leastBy (fun (x : Nat × Leaf) => n - countIn ls x.2.loc.chan x.2.loc.bankIndex) crowded with
      | none => (s, .done)
      | some (_, f) =>
        stripeMove s (on fun l => l.chan == f.loc.chan && l.bankIndex == f.loc.bankIndex) (hardSlotOn s a f.loc.chan)
  | _, _ => (s, .done)

/-- A pinned leaf keeps an account's stripe broken, or does so no more (R163). -/
def setPinBroken (s : State) (a : Nat) (broken : Bool) : State :=
  let rest := s.ductus.pinBroken.filter (· != a)
  { s with ductus := { s.ductus with pinBroken := if broken then a :: rest else rest } }

/-- Restore a stripe with as many moves as there are slots. -/
def stripeLoop (a : Nat) (set : List Nat) : Nat → State → State
  | 0, s => s
  | fuel + 1, s =>
    match stripeStep s a set with
    | (s, .moved) => stripeLoop a set fuel s
    | (s, .pinned) => setPinBroken (eventOnce s 0x51 429 a a) a true
    | (s, _) => s

/-- Restore every broken stripe (R154, R163). -/
def restoreStripes (s : State) : State :=
  s.each ((configured s).filter (isHard s)) fun s a =>
    let set := (stripeSet s (s.get (ACC_CFG_SPREAD a))).filter (normalChan s)
    let s := if s.ductus.pinBroken.contains a then setPinBroken s a false else s
    if stripedOver s a set then s else stripeLoop a set 64 s

/-! ### The decision epoch (R156) -/

/-- Write entry `i` of DCT_HEAT_LIST: heat, source, class, leaf. -/
def putHeat (s : State) (i c : Nat) (x : Nat × Nat × Nat) : State :=
  s.setWord (DCT_HEAT_LIST_HEAT i).addr (BitVec.ofNat 64 (x.1 * 2 ^ 56 + x.2.2 * 2 ^ 48 + c * 2 ^ 32 + x.2.1))

/-- DCT_HEAT_LIST is emptied. -/
def clearHeatList (s : State) : State :=
  { s with desk := s.desk.filter fun x => !(decide (0x184000 ≤ x.1) && decide (x.1 < 0x186000)) }

/-- Freeze the current half into DCT_HEAT_LIST (R152). -/
def freezeHeat (s : State) : State :=
  let hot := s.ductus.hot
  let cold := s.ductus.cold
  let s := clearHeatList s
  let s := s.each hot.zipIdx fun s (x, i) => putHeat s i 0 x
  let s := s.each cold.zipIdx fun s (x, i) => putHeat s (512 + i) 1 x
  let s := ((s.put DCT_EPOCH_FOLIO s.folio).put DCT_EPOCH_HOT_COUNT hot.length).put DCT_EPOCH_COLD_COUNT cold.length
  { s with ductus := { s.ductus with hot := [], cold := [] } }

/-- DCT_LOAD takes the counts of the folio just ended. -/
def takeLoad (s : State) : State :=
  s.each (List.range s.variant.channels) fun s g =>
    let s := (s.put (DCT_LOAD_FREE g) (freeOn s g)).put (DCT_LOAD_SERVED g) ((chan s g).served / 64)
    if (chan s g).served = 0 then s else modChan s g fun c => { c with served := 0 }

/-- What the registers hold takes effect (R155, R175), and the budget is refilled. -/
def takeEffect (s : State) : State :=
  let words := (List.range 512).flatMap fun n => (List.range 4).map fun w => (4 * n + w, s.word (DCT_SPREAD_SET_ALL n w).addr)
  { s with ductus := { s.ductus with
      budget := s.get DCT_MOVE_CTRL_HEAT_BUDGET_MIB * 2 ^ 20
      ctrlForce := (s.word DCT_CTRL_MAP_READY.addr).toNat % 8
      heatForce := s.word DCT_HEAT_HOT_THRESHOLD.addr
      workForce := s.word DCT_WORK_MLP.addr
      spreadForce := words.filter fun (_, v) => v != 0
      deferred := s.ductus.deferred.filter fun (_, f) => decide (s.folio < f) } }

/-- The tower a nib cluster lies under. -/
def towerOfCluster (c : Nat) : Nat := c / 4

/-- The base rubric's heat move of a hot candidate, none while R151 defers the leaf. -/
def baseMove (s : State) (leaf cause : Nat) (dest : Option MoveTo) : State :=
  match dest with
  | none => s
  | some d => if (Tab.find s.ductus.deferred leaf).isSome then s else (moveLeaf s leaf cause d).1

/-- The least-loaded Normal channel of a list with a free slot. -/
def leastLoaded (s : State) (gs : List Nat) : Option MoveTo :=
  (leastBy (fun g => s.get (DCT_LOAD_SERVED g)) (gs.filter fun g => normalChan s g && decide (0 < freeOn s g))).map .onChannel

/-- Thermal relief (Table 5-3, 2): leaves of hot layers go to ranks of the same channel on layers below 80 °C, up to a
quarter of the budget. -/
def thermalRelief (s : State) (cand : List (Nat × Nat × Nat)) : State :=
  let floor := s.ductus.budget - s.ductus.budget / 4
  s.each cand fun s (_, leaf, _) =>
    match leafEntry s leaf with
    | none => s
    | some e =>
      let g := e.loc.chan
      if e.remote || e.hard || e.pinned || !s.flag (THM_TOWER_HOT (g / 64)) e.loc.rank || decide (s.ductus.budget < floor + 4096) then s
      else
        let cool := (List.range s.variant.layers).filter fun r => decide (dieTemp s (g / 64) r < 320) && decide (0 < freeInRank s g r)
        match leastBy (fun r => 25600 - freeInRank s g r) cool with
        | none => s
        | some r => baseMove s leaf 3 ((firstSome (List.range 4) fun grp => slotIn s g r grp (fitsLeaf s leaf)).map .slot)

/-- Locality (Table 5-3, 3): a hot candidate whose sampler is a nib cluster under another tower goes under that cluster. -/
def localityMoves (s : State) (cand : List (Nat × Nat × Nat)) : State :=
  s.each cand fun s (_, leaf, sampler) =>
    match leafEntry s leaf with
    | none => s
    | some e =>
      let c := sampler - 0x80
      if !e.remote && !e.moving && decide (0x80 ≤ sampler) && decide (sampler < 0x90) && towerOfCluster c != e.loc.chan / 64 then
        baseMove s leaf 4 (leastLoaded s ((List.range 16).map (16 * c + ·)))
      else s

/-- Locality, then load balance (Table 5-3, 3 and 4): a hot candidate on a channel that served over 1.25 times the mean
goes to the least-loaded channel of its tower. -/
def heatMoves (s : State) (cand : List (Nat × Nat × Nat)) : State :=
  let total := (List.range s.variant.channels).foldl (fun n g => n + s.get (DCT_LOAD_SERVED g)) 0
  (localityMoves s cand).each cand fun s (_, leaf, _) =>
    match leafEntry s leaf with
    | none => s
    | some e =>
      if !e.remote && !e.moving && decide (5 * total < 4 * s.variant.channels * s.get (DCT_LOAD_SERVED e.loc.chan)) then
        baseMove s leaf 4 (leastLoaded s ((List.range 64).map (64 * (e.loc.chan / 64) + ·)))
      else s

/-- Free host-visible leaf slots of the node: those of its Normal channels, the only ones that take leaves (R94). -/
def freeSlots (s : State) : Nat := (List.range s.variant.channels).foldl (fun n g => if normalChan s g then n + freeOn s g else n) 0

/-- Lending (Table 5-3, 5): cold candidates go to the lowest Peer port that reaches a node which accepts loans (R164). Whether
the node at a port has DCT_LEND.ACCEPT set is that node's state, here a bit of a free value (assumption 78). -/
def lendCold (s : State) (cand : List (Nat × Nat × Nat)) : State :=
  if !s.on DCT_LEND_LEND || decide (4096 ≤ freeSlots s) then s else
  match (List.range s.variant.ports).find? fun p => peerPort s p && s.freeNow.getLsbD p with
  | none => s.drew
  | some p => s.drew.each cand fun s (_, leaf, _) => (moveLeaf s leaf 4 (.loan p) true).1

/-- DECISION_EPOCH (R156, Table 5-3): only at line 0 of a folio. Slot 48's wake is RUL_EVENT_FIRE's. -/
def execDecisionEpoch (s : State) : Host.Outcome State Fault Refusal :=
  .next (if s.lineInFolio ≠ 0 then s else
    let hot := s.ductus.hot
    let cold := s.ductus.cold
    let s := takeEffect (takeLoad (freezeHeat s))
    if !baseRuns s 1 then s else
    lendCold (heatMoves (thermalRelief (restoreStripes s) hot) hot) cold)

/-! ### A move's course (R158 to R161) -/

/-- The line that stored words spell (Table 3-2). -/
def StoredLine.media (l : StoredLine) : MediaLine :=
  { data := l.data, mac := l.mac, key := l.key.toNat, heat := l.state.toNat / 8, fresh := l.state.getLsbD 2
    isSealed := l.state.getLsbD 1, poison := l.state.getLsbD 0 }

/-- An evacuation that reads nothing covers the source of a move (R96). -/
def copyPoisoned (s : State) (m : Move) : Bool :=
  m.sourceRemote.isNone && s.ductus.evacuations.any fun v => v.poisoned && v.chan == m.source.chan

/-- What a move copies: places 0 to 63 of a leaf, 0 to 32,767 of a reserve quire. -/
def Move.size (m : Move) : Nat := if m.quire then 32768 else 64

/-- The DPA of place `i` of a move, where it has one. -/
def Move.dpa (m : Move) (i : Nat) : Option Nat := if m.ofLeaf then some (dpaOf m.leaf i) else none

/-- The media place that place `i` of a move is copied from. -/
def moveFrom (s : State) (m : Move) (i : Nat) : Loc :=
  if m.quire then (quireSlot s m.leaf (i / 64)).getD m.source else m.source

/-- Place `i` of a move is skipped: a write has double-inked it (R159). -/
def Move.skips (m : Move) (i : Nat) : Bool := !m.quire && m.inked.getLsbD i

/-- Store one copied line at a move's destination. -/
def copyLine (s : State) (m : Move) (i : Nat) (l : MediaLine) : State :=
  match m.dest with
  | .local d => storeLine s d i l
  | .remote p q sl =>
    let t := s.fabric.nextTag
    (setFabric s { s.fabric with nextTag := t + 1 }).send (.lentAccess p q sl i t (some l))

/-- A line of a moved reserve quire is lost: a map block (R150), or a tree node (R226), whose line number in its level the
assumption 20 gives. Other lines are Scribe working memory. -/
def quireLost (s : State) (q i : Nat) : State :=
  if q < s.variant.mapQuires then mapLost s (32768 * q + i)
  else match s.variant.nodeAt q i with
    | some (lv, n) => sealEvent (addUnverifiable (s.inc SEL_ERRORS_TREE_LOST) lv n) 4 428 n
    | none => s

/-- The copy meets a line that cannot be decoded (R96, Table 5-4): its event, and what hangs on the line. -/
def copyLost (s : State) (m : Move) (i : Nat) : State :=
  let l := moveFrom s m i
  let s := report s { type := 0x35, source := l.chan, master := some (internalMaster 8), access := 1
                      dpa := m.dpa i, media := some ((physRead s l).addr (i % 64)) }
  let s := match m.dpa i with | some d => mergeDrop s fun x _ => x == d | none => s
  if m.quire then quireLost s m.leaf i else s

/-- How the copy's own reads decode: those from this node's media are judged by the channel controller (R78, R133). -/
def copyReads (s : State) (m : Move) (reads : List (Nat × ReadRun)) : State × List Nat :=
  if m.sourceRemote.isSome then (s, []) else
  if copyPoisoned s m then (s, (List.range m.size).filter fun i => !m.skips i) else
  let seen := reads.filter fun x => decide (x.1 < m.size) && !m.skips x.1
  (s.each seen fun s x => readSeen s (moveFrom s m x.1) (x.1 % 64) x.2 (some (internalMaster 8)) (m.dpa x.1),
   (seen.filter fun x => !readOk s (moveFrom s m x.1).chan x.2).map (·.1))

/-- The line at place `i` of what a leaf's move copies: its source's as it stands, or the holding node's. -/
def copySource (s : State) (m : Move) (home : List StoredLine) (i : Nat) : MediaLine :=
  if m.sourceRemote.isSome then (match home[i]? with | some l => StoredLine.media l | none => {}) else currentLine s m.source i

/-- Copy a leaf's lines to the destination, those in `lost` poisoned. Lines in the write buffer are as they will be
stored. -/
def copyLeaf (s : State) (m : Move) (home : List StoredLine) (lost : List Nat) : State :=
  let lines := (List.range 64).filter fun i => !m.skips i
  let copied := lines.map fun i =>
    let l := copySource s m home i
    (i, if lost.contains i then { l with poison := true } else l)
  s.each copied fun s (i, l) => copyLine s m i l

/-- Copy a reserve quire's stored lines to the destination, those in `lost` poisoned. -/
def copyQuire (s : State) (m : Move) (lost : List Nat) : State :=
  let dests := slotsOf s (quireOwner m.leaf)
  let s := s.each ((List.range 512).zip dests) fun s (j, d) =>
    let src := moveFrom s m (64 * j)
    s.each ((s.media.filter fun x => x.1 / 64 == (physRead s src).addr 0 / 64)) fun s x => storeLine s d (x.1 % 64) x.2.line
  s.each lost fun s i => match dests[i / 64]? with
    | some d => storeLine s d (i % 64) { loadLine s d (i % 64) with poison := true }
    | none => s

/-- Lines of the whole leaf whose heat sample is 4 or more (R151). -/
def writeHot (s : State) (m : Move) (home : List StoredLine) : Nat :=
  ((List.range 64).filter fun i => decide (4 ≤ (copySource s m home i).heat)).length

/-- A copy that is in front of another at the move engine: of a lower cause, or accepted earlier (R26, R162). -/
def Move.before (a b : Move) : Bool :=
  a.stage == .copying && (decide (a.cause < b.cause) || (a.cause == b.cause && decide (a.seq < b.seq)))

/-- The move engine carries a copy now: no more copies are in front of it than RATE_GBPS carries at 16 GB/s each (R26,
R157, R162). -/
def copyCarried (s : State) (m : Move) : Bool :=
  decide ((s.ductus.moves.filter fun x => x.2.before m).length < max 1 (ceilDiv (s.get DCT_MOVE_CTRL_RATE_GBPS) 16))

/-- MOVE_COPY_COMPLETE (R158 to R160, R96): every line not inked has been copied as stored, poisoned where it could not
be decoded, and the switch is armed. A leaf's counter line is copied first; one in the counter cache is written back
(R221). The copy's reads and writes are made and counted when it completes (assumption 78): not while the migration
account stands at its ceiling (R180), nor while it is not the copy's turn (R26, R162). -/
def execMoveCopyComplete (slot : Fin 64) (reads : List (Fin 32768 × ReadRun)) (home : List StoredLine) (s : State) :
    Host.Outcome State Fault Refusal :=
  .next (
    match Tab.find s.ductus.moves slot with
    | none => s
    | some m =>
      if m.stage ≠ .copying || !copyCarried s m || overCeiling s 4095 then s else
      let hot := if m.ofLeaf then writeHot s m home else 0
      let done := (List.range m.size).filter fun i => !m.skips i
      match copyReads s m (reads.map fun x => (x.1.val, x.2)) with
      | (s, lost) =>
        let s := s.each lost fun s i => copyLost s m i
        let s := if m.quire then copyQuire s m lost else copyLeaf s m home lost
        let fresh := m.ofLeaf && freshLeaf s m.leaf
        let s := if fresh then cleanCounter s m.leaf else s
        let s := chargeNow s 4095 (64 * m.size + 64 * done.length + if fresh then 128 else 0)
        { s with ductus := { s.ductus with
            moves := Tab.set s.ductus.moves slot { m with stage := .armed, stageGen := s.ruling.gen, hotLines := hot } } })

/-- The entry that a switch writes (Tables 5-1 and 5-2). -/
def switched (e : Leaf) (dest : MoveDest) : Leaf :=
  match dest with
  | .local l => { e with remote := false, loc := l }
  | .remote p q sl => { e with remote := true, port := p, pbr := q, slot := sl, loc := {}, lastSampler := 0xFF }

/-- The switch of a leaf's entry and its counter line's place (R160), with what the base rubric notes (R151). -/
def switchLeaf (s : State) (m : Move) (e : Leaf) : State :=
  let s := setLeaf s m.leaf (switched e m.dest)
  let s := match m.selector, Tab.find s.sealing.counters m.leaf with
    | some k, some c => setSeal s { s.sealing with counters := Tab.set s.sealing.counters m.leaf { c with selector := k } }
    | _, _ => s
  let s := match m.dest, m.sourceRemote with
    | .remote _ _ _, none => s.inc DCT_LEND_LENT
    | .local _, some _ => s.dec DCT_LEND_LENT
    | _, _ => s
  { s with ductus := { s.ductus with
      deferred := if 32 ≤ m.hotLines then Tab.set s.ductus.deferred m.leaf (s.folio + 16) else Tab.del s.ductus.deferred m.leaf } }

/-- The switch of what a move carries: a leaf's entry, a quire's directory entry, or a lent-in slot's row. -/
def switchMove (s : State) (m : Move) : State :=
  if m.ofLeaf then (match leafEntry s m.leaf with | some e => switchLeaf s m e | none => s)
  else match m.dest with
    | .remote _ _ _ => s
    | .local l =>
      if m.quire then { s with ductus := { s.ductus with reserve := Tab.set s.ductus.reserve m.leaf (some l.chan) } }
      else if (Tab.find s.ductus.hosted m.leaf).isNone then s
      else { s with ductus := { s.ductus with hosted := Tab.set s.ductus.hosted m.leaf l } }

/-- MAP_SWITCH (R160): at the generated edge after it was armed, the entry takes the destination location. The entry is
written through the map cache; a block that cannot be decoded is lost (R150). -/
def execMapSwitch (run : MoveRun) (s : State) : Host.Outcome State Fault Refusal :=
  .next (
    match Tab.find s.ductus.moves run.slot with
    | none => s
    | some m =>
      if m.stage ≠ .armed ∨ s.ruling.gen ≤ m.stageGen then s else
      match (if m.ofLeaf then lookupBlock s m.leaf run.map else (s, true)) with
      | (s, false) => s
      | (s, true) =>
        let s := switchMove s m
        let s := (s.incW DCT_MOVE_STATUS_COMPLETED).put DCT_MOVE_STATUS_WRITE_HOT_LINES m.hotLines
        { s with ductus := { s.ductus with
            moves := Tab.set s.ductus.moves run.slot { m with stage := .switched, stageGen := s.ruling.gen } } })

/-- MOVING_CLEAR (R160): at the edge after the switch MOVING clears; writes go to the new copy only. -/
def execMovingClear (slot : Fin 64) (s : State) : Host.Outcome State Fault Refusal :=
  .next (
    match Tab.find s.ductus.moves slot with
    | none => s
    | some m =>
      if m.stage ≠ .switched ∨ s.ruling.gen ≤ m.stageGen then s else
      let s := { s with ductus := { s.ductus with
          moves := Tab.set s.ductus.moves slot { m with stage := .done, stageGen := s.ruling.gen } } }
      let s := if !m.ofLeaf then s else match leafEntry s m.leaf with
        | some e => setLeaf s m.leaf { e with moving := false }
        | none => s
      moveEnded (showMoves s) slot m.leaf false)

/-- Some request is still resolved to a row of a channel. -/
def rowBusy (s : State) (l : Loc) : Bool :=
  let c := chan s l.chan
  let at' (b r : Nat) : Bool := b == l.bankIndex && r == l.row
  c.pool.any (fun r => at' r.bank r.row) || c.ingress.any (fun r => at' r.bank r.row)
    || c.issued.any (fun i => at' i.req.bank i.req.row) || c.reread.any (fun i => at' i.req.bank i.req.row)
    || c.writes.any (fun w => at' w.bank w.row) || c.ingressWrites.any fun w => at' w.2.bank w.2.row

/-- The slots that a move has emptied and that are still listed as in use. -/
def emptied (s : State) (m : Move) : List Loc :=
  if m.quire then slotsOf s (leavingOwner m.leaf) else if m.sourceRemote.isSome then [] else [m.source]

/-- Moves home of recalled leaves begin as move slots allow (R166), to the channels of R167.3. -/
def pumpRecalls (s : State) : State :=
  s.each s.ductus.recalls fun s r =>
    s.each (s.ductus.map.filter fun (_, e) => r.wants e && !e.moving) fun s (k, e) =>
      if (freeMoveSlot s).isNone then s else
      match chooseDest s k e with | some l => startMove s k 1 e (.local l) none | none => s

/-- Recalls whose leaves are all home have completed. -/
def endRecalls (s : State) : State :=
  { s with ductus := { s.ductus with
      recalls := s.ductus.recalls.filter fun r => s.ductus.map.any fun (_, e) => r.wants e } }

/-- SOURCE_SLOT_FREE (R160): the source slot is freed once every request resolved to it has completed, and no later
than the edge after MOVING cleared. A counter quire left empty returns to the free pool (R218). -/
def execSourceSlotFree (slot : Fin 64) (s : State) : Host.Outcome State Fault Refusal :=
  .next (
    match Tab.find s.ductus.moves slot with
    | none => s
    | some m =>
      let busy := !m.quire && m.sourceRemote.isNone && rowBusy s m.source
      if m.stage ≠ .done ∨ (busy ∧ s.ruling.gen = m.stageGen) then s else
      let s := s.each (emptied s m) freeSlot
      let s := closeCounters { s with ductus := { s.ductus with moves := Tab.del s.ductus.moves slot } }
      pumpRecalls (endRecalls (finishEvacuations (pump s))))

/-! ### Recalls (R166) -/

/-- RECALL (R166): the lent leaves of a holding node's recalled slots move home as cause 1. -/
def execRecall (port : Fin 64) (pbr : BitVec 12) (slots : List (BitVec 28)) (s : State) : Host.Outcome State Fault Refusal :=
  .next (
    let mine := (slots.map BitVec.toNat).filter fun x =>
      s.ductus.map.any fun (_, e) => e.remote && e.port == port.val && e.pbr == pbr.toNat && e.slot == x
    if s.get (PRT_PORT_CTRL_ROLE port) ≠ 1 ∨ s.fatal ∨ mine.isEmpty then s else
    pumpRecalls { s with ductus := { s.ductus with
      recalls := s.ductus.recalls ++ [{ port := port, pbr := pbr.toNat, slots := mine, folio := s.folio }] } })

/-- RECALL_TIMEOUT (R166): a recall not completed within 256 folios records a Degraded event, once. -/
def execRecallTimeout (s : State) : Host.Outcome State Fault Refusal :=
  .next (
    let tooLate (r : RecallJob) : Bool := !r.late && decide (r.folio + 256 ≤ s.folio)
    let late := s.ductus.recalls.filter tooLate
    let s := { s with ductus := { s.ductus with
      recalls := s.ductus.recalls.map fun r => if tooLate r then { r with late := true } else r } }
    s.each late fun s r => event s 0x54 429 r.port)

/-! ### Spread sets and accounts -/

/-- A write of a spread-set word (R155): the bits of channels not in Normal state stay clear, with a Notice. -/
def writeSpread (s : State) (n w : Nat) (v : BitVec 64) : State :=
  if absentUnit s.variant .DCT_SPREAD_SET n w then s else
  let bad := (List.range 64).filter fun b => v.getLsbD b && !normalChan s (64 * w + b)
  let s := s.setWord (DCT_SPREAD_SET_ALL n w).addr
    (BitVec.ofNat 64 (bad.foldl (fun x b => clearBit x b) v.toNat))
  if bad.isEmpty then s else notice s 429

/-- DCT_SPREAD_SET_WRITE (R155). -/
def execDctSpreadSetWrite (slot : Fin 512) (word : Fin 4) (value : BitVec 64) (s : State) : Host.Outcome State Fault Refusal :=
  .next (if absentUnit s.variant .DCT_SPREAD_SET slot word then s else writeSpread s slot word value)

/-- ACCOUNT_WINDOW_END (R180, R186): the account's window ends on this line and its held requests go on. -/
def execAccountWindowEnd (account : Fin 4096) (s : State) : Host.Outcome State Fault Refusal :=
  .next (if windowDue s account then releaseHeld (turnWindow s account) account else s)

end Sys2Proof.Machine
end

