-- ==== Sys2Proof/Machine/Fuses.lean ====
section
/-! DEFINITION. The fuse array (chapter 17): regions, their states, locks, key slots, programming and reading. -/

namespace Sys2Proof.Machine

/-! ### Regions (Table 17-1) -/

/-- First and last words of each region. -/
def regionSpan (n : Nat) : Nat × Nat :=
  [(0, 127), (128, 383), (384, 399), (400, 415), (416, 425), (426, 435), (436, 445), (448, 457), (458, 467), (468, 477),
   (478, 487), (512, 768), (769, 784), (785, 1007)].getD n (1, 0)

/-- The region of a word, its lock words being at 1,008 + n. -/
def regionOf (w : Nat) : Option Nat :=
  if 1008 ≤ w ∧ w < 1022 then some (w - 1008)
  else (List.range 14).find? fun n => decide ((regionSpan n).1 ≤ w) && decide (w ≤ (regionSpan n).2)

/-- A security region: its fields take their safe polarity (Table 17-1). -/
def securityRegion (n : Nat) : Bool := decide (2 ≤ n) && decide (n ≤ 11)

/-- A key slot's region. -/
def slotRegion (n : Nat) : Bool := decide (4 ≤ n) && decide (n ≤ 10)
def ownerSlot (n : Nat) : Bool := decide (7 ≤ n) && decide (n ≤ 10)

/-- The shadow of a word is blank. -/
def shadowBlank (s : State) (w : Nat) : Bool := s.on (FUS_SHADOW_BLANK w)
/-- The shadow is marginal or uncorrectable, so that its fields take the treatment of R483. -/
def shadowBad (s : State) (w : Nat) : Bool := s.on (FUS_SHADOW_MARGINAL w) || s.on (FUS_SHADOW_UNCORRECTABLE w)
def shadowValue (s : State) (w : Nat) : Nat := s.get (FUS_SHADOW_VALUE w)

/-- The words of a region, its lock word apart. -/
def regionWords (n : Nat) : List Nat :=
  let (a, b) := regionSpan n
  (List.range (b + 1 - a)).map (a + ·)

/-- The manifest's count, if the manifest is valid (R479). -/
def manifestCount (s : State) (n : Nat) : Option Nat :=
  let (a, b) := regionSpan n
  let v := shadowValue s a
  if !shadowBlank s a && bitsOf v 24 8 == n && bitsOf v 16 8 == 1 && decide (v % 2 ^ 16 ≤ b + 1 - a) then some (v % 2 ^ 16)
  else none

/-- The lock word of a region is programmed; a marginal lock word counts as Locked. -/
def permLocked (s : State) (n : Nat) : Bool := !shadowBlank s (1008 + n) || shadowBad s (1008 + n)

/-- Lifecycle: the number of lifecycle step words not blank; a marginal one counts as programmed (R490). -/
def lifecycleOf (s : State) : Nat := ((List.range 4).filter fun k => !shadowBlank s (402 + k) || shadowBad s (402 + k)).length

/-- The lifecycle in force: a step takes effect at the next boot (R487). -/
def lifecycle (s : State) : Nat := s.get FUS_STATUS_LIFECYCLE

/-- State of a region (Table 17-2). -/
def regionStateOf (s : State) (n : Nat) : Nat :=
  let (a, _) := regionSpan n
  let full := match manifestCount s n with
    | some c => (List.range c).all fun i => !shadowBlank s (a + i)
    | none => false
  let vendorOpen := lifecycle s == 2 && (n == 2 || n == 3 || (decide (4 ≤ n) && decide (n ≤ 6)) || n == 11) && !permLocked s n
  if (permLocked s n && !full) || vendorOpen then 3
  else if full then 2
  else if (manifestCount s n).isSome then 1
  else if shadowBlank s a && !permLocked s n then 0
  else 1

/-- A key slot is revoked: its revoke word is programmed, a word of it takes its safe polarity, or the lifecycle treats
every owner slot so (Tables 17-1 and 17-4). -/
def slotRevoked (s : State) (n : Nat) : Bool :=
  let (a, b) := regionSpan n
  !shadowBlank s b || (List.range (b + 1 - a)).any (fun i => shadowBad s (a + i)) || (ownerSlot n && lifecycle s == 3)

/-- A key slot is usable (R492, R498). -/
def slotUsableNow (s : State) (n : Nat) : Bool :=
  regionStateOf s n == 2 && permLocked s n && !slotRevoked s n
    && (!ownerSlot n || (lifecycle s == 2 && !s.on FUS_STATUS_QUARANTINE))

def slotUsable (s : State) (n : Nat) : Bool := s.on (FUS_REGION_USABLE n)

/-- The minimum security version (R495). -/
def minSecurityOf (s : State) : Nat :=
  (List.range 256).foldl (fun m i => if !shadowBlank s (513 + i) || shadowBad s (513 + i) then i + 1 else m) 0

/-- Debug is open (Table 17-4, R491). -/
def debugOpenOf (s : State) : Bool :=
  let policy := !shadowBad s 401 && bit (shadowValue s 401) 1
  match lifecycle s with
  | 0 | 1 | 3 => !s.on FUS_STATUS_QUARANTINE
  | 2 => policy && !s.on FUS_STATUS_QUARANTINE
  | _ => false

/-- A key slot that FUS_REGION shows revoked: an INCOMPLETE owner slot counts so once a higher one is usable (R498). -/
def countsRevoked (s : State) (n : Nat) : Bool :=
  slotRevoked s n || (ownerSlot n && regionStateOf s n == 3 && (List.range 4).any fun h => decide (n < 7 + h) && slotUsableNow s (7 + h))

/-- FUS_REGION follows the shadows of a region; USABLE as given. -/
def showRegion (s : State) (n : Nat) (usable : Bool) : State :=
  let ws := regionWords n
  let s := (s.put (FUS_REGION_STATE n) (regionStateOf s n)).putB (FUS_REGION_PERM_LOCK n) (permLocked s n)
  let s := if slotRegion n then (s.putB (FUS_REGION_USABLE n) usable).putB (FUS_REGION_REVOKED n) (countsRevoked s n) else s
  let s := s.put (FUS_REGION_MARGINAL_WORDS n) (ws.filter fun w => s.on (FUS_SHADOW_MARGINAL w)).length
  (s.put (FUS_REGION_PROGRAMMED n) (ws.filter fun w => !shadowBlank s w).length).put (FUS_REGION_MANDATORY n)
    ((manifestCount s n).getD 0)

/-- FUS_STATUS's counts of words follow the shadows. -/
def showCounts (s : State) : State :=
  let n (f : Nat → Fld) : Nat := min 1023 ((List.range 1024).filter fun w => s.on (f w)).length
  ((s.put FUS_STATUS_MARGINAL (n FUS_SHADOW_MARGINAL)).put FUS_STATUS_UNCORRECTABLE (n FUS_SHADOW_UNCORRECTABLE)).put
    FUS_STATUS_CORRECTED (n FUS_SHADOW_CORRECTED)

/-- A fuse event, also recorded in the Colophon (R500): a Degraded record goes there of itself (R509). -/
def fuseEvent (s : State) (row detail : Nat) : State :=
  let s := event s (0x110 + row) 438 detail
  match s.blotter.log.getLast? with
  | some r => if r.severity = 2 ∨ r.severity = 4 ∨ r.type ≠ 0x110 + row then s else toColophon s (.blotter r.time r)
  | none => s

/-- After a word of region `n` was programmed (R485, R487): the region's state is computed again; what restricts takes
effect at once, what does not waits for the next boot. -/
def recompute (s : State) (n : Nat) : State :=
  let before := s.get (FUS_REGION_STATE n)
  let s := showRegion s n (slotUsable s n && slotUsableNow s n)
  let s := (showCounts s).put FUS_STATUS_MIN_SECURITY (max (s.get FUS_STATUS_MIN_SECURITY) (minSecurityOf s))
  let s := s.putB FUS_STATUS_DEBUG_OPEN (s.on FUS_STATUS_DEBUG_OPEN && debugOpenOf s)
  if before ≠ 3 ∧ s.get (FUS_REGION_STATE n) = 3 then fuseEvent s 5 n else s

/-! ### Key slots -/

/-- The digest a key slot holds, little-endian words (R478). -/
def slotHash (s : State) (n : Nat) : BitVec 256 :=
  let a := (regionSpan n).1 + 1
  BitVec.ofNat 256 ((List.range 8).foldl (fun x i => x + shadowValue s (a + i) * 2 ^ (32 * i)) 0)

/-- A public key's digest matches a usable owner slot: its session is the device owner's (R232). -/
def ownerKey (s : State) (digest : BitVec 256) : Bool :=
  (List.range 4).any fun o => slotUsable s (7 + o) && slotHash s (7 + o) == digest

/-- No owner slot is usable. -/
def noOwner (s : State) : Bool := !((List.range 4).any fun o => slotUsable s (7 + o))

/-- Owner slot `o` may be programmed at all (R494): every lower slot is usable, revoked or INCOMPLETE. -/
def ownerSlotOpen (s : State) (o : Nat) : Bool :=
  (List.range o).all fun k =>
    slotUsable s (7 + k) || s.on (FUS_REGION_REVOKED (7 + k)) || s.get (FUS_REGION_STATE (7 + k)) == 3

/-! ### Programming (R485, R486) -/

/-- Whom a word is programmed by: nothing but JTAG, a rubric's image (VENDOR, the region of its key slot), or the
vendor's authorised command (R494). -/
inductive Programmer where
  | jtag
  | image (vendor : Bool) (slot : Nat)
  | authorised
  deriving DecidableEq, Repr

/-- The image that runs on a Scribe. -/
def programmerOf (s : State) (k : Option (Fin 8)) : Programmer :=
  match k with
  | none => .jtag
  | some k =>
    match Tab.find s.rubrics (s.get (MBX_SCRIBE_HANDLE k)) with
    | some r => .image (r.vendor || r.base) r.signer
    | none => .jtag

/-- Table 17-1, R490, R493, R494, R498: whether the running image may program a word of a region in this lifecycle. -/
def programAllowed (s : State) (p : Programmer) (w n data : Nat) : Bool :=
  let early := decide (lifecycle s < 2)
  let vendor := match p with | .image v _ => v | .authorised => true | .jtag => lifecycle s == 0
  let slot := match p with | .image _ k => k | _ => 0
  let owner := ownerSlot slot && slotUsable s slot && !vendor
  if lifecycle s = 4 then false
  else if n ≤ 2 then vendor && early
  else if n = 3 then
    if w = 404 then (ownerSlot slot && !s.on (FUS_REGION_REVOKED slot)) || (vendor && noOwner s)
    else if w = 405 then vendor || owner
    else if w = 401 then vendor && decide (data < 4)
    else vendor
  else if n ≤ 6 then
    if w = (regionSpan n).2 then vendor && decide (4 ≤ slot) && decide (slot ≤ 6) && slot != n && slotUsable s slot else vendor
  else if n ≤ 10 then
    if w = (regionSpan n).2 then owner && (slot == n || decide (n < slot))
    else ownerSlotOpen s (n - 7) && (match p with
      | .authorised => n == 7 || noOwner s
      | _ => owner && n != 7)
  else if n = 13 then owner
  else (vendor && (match p with | .image _ k => decide (4 ≤ k) && slotUsable s k || k == 0 | _ => true)) || owner

/-- A lower step is blank (R490, Table 17-3 ORDER). -/
def outOfOrder (s : State) (w : Nat) : Bool :=
  (decide (514 ≤ w) && decide (w ≤ 768) && shadowBlank s (w - 1))
    || (decide (403 ≤ w) && decide (w ≤ 405) && (List.range (w - 402)).any fun i => shadowBlank s (402 + i))

/-- VIN is inside 40 V to 60 V as PWR_INK reports it. -/
def vinOk (s : State) : Bool := decide (4000 ≤ s.get PWR_INK_VIN) && decide (s.get PWR_INK_VIN ≤ 6000)

/-- Every base-die sensor reads 0 °C to 85 °C. -/
def baseTempOk (s : State) : Bool :=
  (List.range 64).all fun i => absentSensor s.variant i ||
    (decide (0 ≤ sensorTemp s i) && decide (sensorTemp s i ≤ 340))

/-- Why a program command is refused: the first condition of Table 17-3 that fails. -/
def programRefusal (s : State) (p : Programmer) (w data : Nat) (pump : Bool) : Option Nat :=
  if s.fuses.program.isSome then some 3 else
  match regionOf w with
  | none => some 4
  | some n =>
    let lock := decide (1008 ≤ w)
    if s.on (FUS_REGION_PROG_LOCK n) || (if lock then !shadowBlank s w else permLocked s n) then some 5
    else if !shadowBlank s w then some 6
    else if !programAllowed s p w n data then some 7
    else if outOfOrder s w then some 8
    else if !vinOk s then some 9
    else if !pump then some 10
    else if !baseTempOk s then some 11
    else none

def progStatus (s : State) (st w : Nat) : State := (s.put FUS_PROG_STATUS_STATUS st).put FUS_PROG_STATUS_WORD w

/-- Start programming a word, or refuse with a status and a Notice; the second of two commands shows BUSY until the first
ends (R499). -/
def programWord (s : State) (p : Programmer) (w data : Nat) (pump : Bool) : State × Nat :=
  match programRefusal s p w data pump with
  | some st => (fuseEvent (progStatus s st w) 3 w, st)
  | none => (progStatus { s with fuses := { s.fuses with program := some (w, BitVec.ofNat 32 data) } } 1 w, 1)

/-- A write of FUS_PROG_CMD (R485). -/
def writeProgCmd (s : State) (p : Programmer) (v : BitVec 64) (pump : Bool) : State :=
  if !v.getLsbD 16 then s else (programWord s p (v.toNat % 1024) (s.get FUS_PROG_DATA_DATA) pump).1

/-- The writer may write the FUS_ block: JTAG, or a rubric with its write grant (R494, Table 11-2); another's write faults in
its rubric and reaches no register. -/
def fusWriter (s : State) (k : Option (Fin 8)) : Bool :=
  match k with
  | none => true
  | some k => match Tab.find s.rubrics (s.get (MBX_SCRIBE_HANDLE k)) with | some r => r.writeGrant.getLsbD 4 | none => false

/-- FUSE_PROGRAM (R485). -/
def execFuseProgram (writer : Option (Fin 8)) (value : BitVec 64) (pump : Bool) (s : State) : Host.Outcome State Fault Refusal :=
  .next (if fusWriter s writer then writeProgCmd s (programmerOf s writer) value pump else s)

/-- The shadow that a reading gives (R483): a security field's safe polarity shows in the region's state; a marginal
policy word reads 0; an uncorrectable trim word takes the boot ROM's nominal default, which the spec does not give, so it
is a free value (assumption 24). -/
def setShadow (s : State) (w : Nat) (blank : Bool) (r : FuseReading) : State :=
  let trim := match regionOf w with | some n => !securityRegion n && decide (w < 1008) | none => true
  let nominal := r.uncorrectable && trim
  let v := if nominal then s.freeNow.toNat % 2 ^ 32 else if w = 401 && (r.marginal || r.uncorrectable) then 0 else r.data.toNat
  let s := if nominal then s.drew else s
  s.setWord (FUS_SHADOW_VALUE w).addr (BitVec.ofNat 64 (b2n blank * 2 ^ 35 + b2n r.corrected * 2 ^ 34
    + b2n r.uncorrectable * 2 ^ 33 + b2n r.marginal * 2 ^ 32 + v))

/-- The end of a word's programming (R485, R486): status, event, what the array holds, its shadow, its region. -/
def programmed (s : State) (stopped : Option (Fin 3)) (r : FuseReading) : State × Nat :=
  match s.fuses.program with
  | none => (s, 0)
  | some (w, d) =>
    let blank := r.blank
    let clean := !r.blank && !r.corrected && !r.uncorrectable && !r.marginal && r.data == d
    let st := match stopped with
      | some c => if blank then 9 + c.val else 12
      | none => if clean then 2 else 12
    let s := progStatus { s with fuses := { s.fuses with
        program := none, array := if blank then s.fuses.array else Tab.set s.fuses.array w r.data } } st w
    let s := if blank then s else setShadow s w false r
    let s := match regionOf w with | some n => recompute s n | none => s
    let s := if st = 12 then fuseEvent s 4 w else s
    (toColophon s (.fuse w d.toNat st), st)

/-- FUSE_PROGRAM_COMPLETE (R485, R486). -/
def execFuseProgramComplete (stopped : Option (Fin 3)) (reading : FuseReading) (s : State) : Host.Outcome State Fault Refusal :=
  .next (programmed s stopped reading).1

/-! ### Reading and locks (R482, R488) -/

/-- A write of FUS_READ (R482). -/
def writeFusRead (s : State) (v : BitVec 64) : State :=
  let w := v.toNat % 1024
  let s := s.put FUS_READ_WORD w
  if !v.getLsbD 16 then s
  else (s.put FUS_READ_RESULT_DONE 0) |> fun s => { s with fuses := { s.fuses with reading := some w } }

/-- FUSE_READ (R482). -/
def execFuseRead (value : BitVec 64) (s : State) : Host.Outcome State Fault Refusal := .next (writeFusRead s value)

/-- A reading agrees with a word's shadow. -/
def agreesShadow (s : State) (w : Nat) (r : FuseReading) : Bool :=
  r.blank == shadowBlank s w && r.data.toNat == shadowValue s w && r.corrected == s.on (FUS_SHADOW_CORRECTED w)
    && r.uncorrectable == s.on (FUS_SHADOW_UNCORRECTABLE w) && r.marginal == s.on (FUS_SHADOW_MARGINAL w)

/-- FUS_READ_RESULT of a reading: DONE alone for a read-locked word (R482, R488). -/
def readResult (hidden bad : Bool) (r : FuseReading) : BitVec 64 :=
  let ecc := if r.uncorrectable then 2 else b2n r.corrected
  BitVec.ofNat 64 (if hidden then 2 ^ 63 else 2 ^ 63 + b2n bad * 2 ^ 62 + b2n r.marginal * 2 ^ 61
    + b2n r.blank * 2 ^ 60 + ecc * 2 ^ 58 + r.data.toNat)

/-- FUSE_READ_COMPLETE (R482, R488, Table 17-6): served after a word being programmed; a read-locked word reads 0. -/
def execFuseReadComplete (reading : FuseReading) (s : State) : Host.Outcome State Fault Refusal :=
  .next (
    match s.fuses.reading with
    | none => s
    | some w =>
      if s.fuses.program.isSome then s else
      let s := { s with fuses := { s.fuses with reading := none } }
      let hidden := match regionOf w with | some n => s.on (FUS_REGION_READ_LOCK n) | none => false
      let bad := !agreesShadow s w reading
      let s := s.setWord FUS_READ_RESULT_DONE.addr (readResult hidden bad reading)
      if bad then fuseEvent s 2 w else s)

/-- A write of FUS_LOCK_SET (R488): the locks are sticky. -/
def writeLockSet (s : State) (v : BitVec 64) : State :=
  s.each (List.range 14) fun s n =>
    let s := if v.getLsbD (16 + n) then s.put (FUS_REGION_READ_LOCK n) 1 else s
    if v.getLsbD n then s.put (FUS_REGION_PROG_LOCK n) 1 else s

/-- FUSE_LOCK_SET (R488). -/
def execFuseLockSet (value : BitVec 64) (s : State) : Host.Outcome State Fault Refusal := .next (writeLockSet s value)

end Sys2Proof.Machine
end

