-- ==== Sys2Proof/Machine/Power.lean ====
section
/-! DEFINITION. Power domains and states (chapter 14): votes, what a state permits, wakes, the towers' self-refresh.
The power commands are in PowerRows.lean. -/

namespace Sys2Proof.Machine

/-- State codes of PWR_STATE (Table 14-9). -/
def stQuiet : Nat := 2
def stCapped : Nat := 3
def stWriting : Nat := 4

/-- The power state; 0 in Off and Standby. -/
def powerState (s : State) : Nat := if s.power.rails = .up then s.get PWR_STATE_STATE else 0

/-- A domain that the variant has (R421). -/
def domainPresent (s : State) (n : Nat) : Bool :=
  match s.variant with
  | .v2096 => !((decide (8 ≤ n) && decide (n ≤ 15)) || n == 18 || n == 19 || (decide (28 ≤ n) && decide (n ≤ 35)))
  | _ => true

/-- What a power state permits (Table 14-3), and the votes that count. -/
def domainWanted (s : State) (n : Nat) : Bool :=
  let v := s.get (PWR_DOMAIN_VOTES n)
  domainPresent s n && (
    if powerState s = stQuiet then (if n < 16 then bit v 1 else decide (16 ≤ n) && decide (n < 20) && v != 0)
    else if powerState s = stCapped then v != 0 && (decide (n < 20) || decide (36 ≤ n))
    else v != 0)

/-- Domain status codes (Table 14-11). -/
def domainStatus (s : State) (n : Nat) : Nat := s.get (PWR_DOMAIN_STATUS n)

/-- A domain is up, self-refresh of a tower included. -/
def domainUp (s : State) (n : Nat) : Bool := domainStatus s n == 2 || domainStatus s n == 4

/-- Start the next rise or drop that votes and state call for: the sequencer works on one domain at a time (R426). -/
def pumpDomains (s : State) : State :=
  if (List.range 38).any fun n => domainStatus s n == 1 || domainStatus s n == 3 then s else
  match (List.range 38).find? fun n => domainWanted s n != domainUp s n with
  | some n => s.put (PWR_DOMAIN_STATUS n) (if domainWanted s n then 1 else 3)
  | none => s

/-- Set or clear a vote (R422). -/
def vote (s : State) (n b : Nat) (on' : Bool) : State := pumpDomains (s.setFlag (PWR_DOMAIN_VOTES n) b on')

/-- LINK votes follow the ports' roles (R422). -/
def linkVotes (s : State) (port : Nat) : State :=
  let n := port / 4
  let any := (List.range 4).any fun i => decide (s.get (PRT_PORT_CTRL_ROLE (4 * n + i)) < 2)
  vote s n 2 any

/-- Power domain of a nib cluster. -/
def clusterDomain (c : Nat) : Nat := 20 + c
/-- A nib cluster is powered. -/
def clusterUp (s : State) (c : Nat) : Bool := domainStatus s (clusterDomain c) == 2

/-! ### Towers (R121, R430, R432) -/

/-- The towers enter self-refresh. -/
def towersSleep (s : State) : State :=
  let s := s.each (List.range s.variant.channels) fun s g => modChan s g fun c => { c with selfRefresh := true, openRow := [] }
  s.each (List.range s.variant.towers) fun s t =>
    if domainStatus s (16 + t) = 2 then s.put (PWR_DOMAIN_STATUS (16 + t)) 4 else s

/-- The towers leave self-refresh: the requests that wait are taken up, every backstop timer restarts and ruled slots
resume at the next line (R121). -/
def towersWake (s : State) : State :=
  let s := s.each (List.range s.variant.channels) fun s g =>
    if (chan s g).selfRefresh then modChan s g fun c => { c with selfRefresh := false, wokeGen := s.ruling.gen + 1 } else s
  s.each (List.range s.variant.towers) fun s t =>
    if domainStatus s (16 + t) = 4 then s.put (PWR_DOMAIN_STATUS (16 + t)) 2 else s

/-! ### Transitions (R429, R431) -/

/-- Begin a transition: TARGET, IN_TRANSITION and the cause. -/
def beginTransition (s : State) (target cause : Nat) : State :=
  let s := ((s.put PWR_STATE_TARGET target).put PWR_STATE_IN_TRANSITION 1).put PWR_STATE_LAST_CAUSE cause
  { s with power := { s.power with drained := false, entryLine := s.ruling.gen } }

/-- Serve a wake in Capped or Quiet: to Writing; with SHUTDOWN_N low a request wakes the towers alone (R432), and Quiet is
left for Capped (Table 14-4). -/
def serveWake (s : State) (source cause : Nat) : State :=
  let s := s.put PWR_WAKE_LAST_SOURCE source
  if powerState s = stCapped then
    (if s.on PWR_STATE_SHUTDOWN then (if source = 1 then towersWake s else s) else beginTransition s stWriting cause)
  else if powerState s = stQuiet then beginTransition s (if s.on PWR_STATE_SHUTDOWN then stCapped else stWriting) cause
  else s

/-- A wake source acts (R431): sources 1 link activity, 2 WAKE_N, 3 management. During an entry it waits (Table 14-5). -/
def wake (s : State) (source : Nat) : State :=
  if !s.flag PWR_WAKE_ENABLE (source - 1) then s
  else if s.on PWR_STATE_IN_TRANSITION then
    (if s.get PWR_STATE_TARGET = stWriting then s else { s with power := { s.power with wakeDue := some source } })
  else if powerState s = stWriting then s
  else serveWake s source (source + 2)

/-- A request for this node on a Host or Peer sub-link is link activity, in Capped only (R431); in Capped with SHUTDOWN_N low
it wakes the towers alone, which is no transition and asks for no enable (R432, assumption 84). -/
def linkActivity (s : State) : State :=
  if powerState s = stCapped ∧ s.on PWR_STATE_SHUTDOWN ∧ s.get PWR_STATE_IN_TRANSITION = 0 then
    serveWake { s with power := { s.power with activeGen := s.ruling.gen } } 1 3
  else if powerState s = stCapped ∨ (s.on PWR_STATE_IN_TRANSITION ∧ s.get PWR_STATE_TARGET = stCapped) then
    wake { s with power := { s.power with activeGen := s.ruling.gen } } 1
  else s

/-! ### Standby and Off (R420, R429, R456, R520) -/

/-- What is left of the node when the main dies lose every rail: the fuse array, the Inkwell's flash and its own state,
the pins, the straps in force (R548), the rows that wait for a repair row at the next boot (R138), and the model's own fields. A field calibration result that waits is kept when `flushed` (R473). -/
def mainDiesLost (s : State) (flushed : Bool) : State :=
  { variant := s.variant
    colophon := { s.colophon with clusterUse := [] }
    cal := s.cal.map fun (u, x) =>
      let kept := if flushed then x.field else x.stored
      (u, { sets := x.sets, field := kept, stored := kept, storedAt := x.storedAt })
    fuses := { array := s.fuses.array }
    chans := s.chans.filterMap fun (g, c) =>
      let rows := c.rowErrs.filter (·.pending)
      if rows.isEmpty then none else some (g, { rowErrs := rows })
    pins := s.pins
    boot := { straps := s.boot.straps, disagreed := s.boot.disagreed }
    mgmt := { eid := s.mgmt.eid, address := s.mgmt.address, armed := s.mgmt.armed, receiver := s.mgmt.receiver
              sensors := s.mgmt.sensors, events := s.mgmt.events }
    power := { rails := .standby, phasesLost := s.power.phasesLost, vioOff := s.power.vioOff, bootEvents := s.power.bootEvents }
    out := s.out, free := s.free, pending := s.pending }

/-- The pins as the Inkwell drives them with the ink rail down (Table 20-9a). -/
def standbyPins (s : State) : State :=
  { s with pins := { s.pins with
      alertN := true, pwrGood := false, faultN := !s.colophon.fatalShadow, thermtripN := !s.colophon.restartLock } }

/-- Milliseconds powered and at peak of the partial minute, by cluster (Table 19-3). -/
def partialBoost (s : State) : List (Nat × Nat) :=
  (List.range 16).map fun c => let (p, k) := Tab.at s.colophon.clusterUse c (0, 0); (p / 1000, k / 1000)

/-- The rails drop and the node is in Standby, with a shutdown record for a VIN fault, THERMTRIP, a Fatal fault of the
rail and an Inkwell cycle. -/
def toStandby (s : State) (cause : Nat) : State :=
  let s := if cause = 7 ∨ cause = 8 ∨ cause = 9 ∨ cause = 0xA then
      toColophon s.timed (.shutdown cause s.colophon.tripImage s.stamp (partialBoost s)) else s
  (standbyPins (mainDiesLost s true)).put PWR_STATE_LAST_CAUSE cause

end Sys2Proof.Machine
end

