-- ==== Sys2Proof/Machine/Ruling.lean ====
section
/-! DEFINITION. Ruling (chapter 2): the line flywheel, the sources and their qualification, slewing and jumping, the
ruled-event slots. What happens to the rest of the node at a line edge is in LineEdge.lean. -/

namespace Sys2Proof.Machine

/-- The source codes of RUL_STATUS.ACTIVE_SOURCE. -/
def srcPin : Nat := 0
def srcPeer : Nat := 1
def srcHost : Nat := 2
def srcLocal : Nat := 3

/-! ### The folio header (Table 2-4) -/

def hdrFolio (h : BitVec 128) : Nat := (h.extractLsb' 84 44).toNat
def hdrUtc (h : BitVec 128) : Nat := (h.extractLsb' 44 40).toNat
def hdrEpoch (h : BitVec 128) : Nat := (h.extractLsb' 28 16).toNat
/-- Source quality; a reserved value counts as 0xF (R50). -/
def hdrQuality (h : BitVec 128) : Nat :=
  let q := (h.extractLsb' 24 4).toNat
  if q < 5 then q else 15

/-- One bit of the CRC-16 of R48: polynomial 0x1021, not reflected. -/
def crcBit (c : Nat) (b : Bool) : Nat :=
  let top := decide (c / 32768 % 2 = 1)
  let sh := c * 2 % 65536
  if top != b then sh ^^^ 0x1021 else sh

/-- The CRC-16 of header bits 127:16 in transmission order, initial value 0xFFFF, no final XOR (R48). -/
def headerCrc (h : BitVec 128) : Nat :=
  (List.range 112).foldl (fun c i => crcBit c (h.getLsbD (127 - i))) 0xFFFF

/-- The header's CRC matches. -/
def headerOk (h : BitVec 128) : Bool := headerCrc h == (h.extractLsb' 0 16).toNat

/-- Two headers in a row agree (R49): same epoch identifier and UTC seconds, folio numbers one apart. -/
def headersAgree (a b : BitVec 128) : Bool :=
  hdrEpoch a == hdrEpoch b && hdrUtc a == hdrUtc b && hdrFolio b == hdrFolio a + 1

/-- The header of the node's own ruling (R64): reserved bits zero and the CRC recomputed. -/
def ownHeader (s : State) : BitVec 128 :=
  let body := s.folio % 2 ^ 44 * 2 ^ 84 + s.ruling.utc % 2 ^ 40 * 2 ^ 44 + s.get RUL_STATUS_EPOCH_ID * 2 ^ 28
    + s.get RUL_STATUS_QUALITY * 2 ^ 24
  BitVec.ofNat 128 (body + headerCrc (BitVec.ofNat 128 body))

/-! ### Source order and qualification -/

/-- The source order in force, later namings ignored and Local always last (R55, R57). -/
def sourceOrder (s : State) : List Nat :=
  let raw := (List.range 4).map fun i => bitsOf s.ruling.order (2 * i) 2
  ((raw.filter (· != srcLocal)).foldl (fun l c => if l.contains c then l else l ++ [c]) []) ++ [srcLocal]

/-- The qualification record of a source; Local is always qualified (R55, R58). -/
def qual (s : State) (c : Nat) : SourceQual :=
  let q := Tab.at s.ruling.quals c {}
  if c = srcLocal then { q with qualified := true } else q

def setQual (s : State) (c : Nat) (q : SourceQual) : State :=
  { s with ruling := { s.ruling with quals := Tab.set s.ruling.quals c q } }

def setPin (s : State) (p : PinRul) : State := { s with ruling := { s.ruling with pin := p } }
def peerOf (s : State) (p : Nat) : PeerRul := Tab.at s.ruling.peers p {}
def setPeer (s : State) (p : Nat) (r : PeerRul) : State :=
  { s with ruling := { s.ruling with peers := Tab.set s.ruling.peers p r } }

/-- The measured line periods of a source, newest first: Pin's edges, the Peer port taken, the exact line of PTM master
time (R54). -/
def sourcePeriods (s : State) (c : Nat) : List Nat :=
  if c = srcPin then s.ruling.periods
  else if c = srcPeer then (match s.ruling.peer with | some p => (peerOf s p).periods | none => [])
  else if c = srcHost then [1000000] else []

/-- Mean of the first `n` line periods of a list; of none, the period in force. -/
def meanPeriod (s : State) (l : List Nat) (n : Nat) : Nat :=
  let l := l.take n
  if l.isEmpty then s.get RUL_PERIOD_PS else l.foldl (· + ·) 0 / l.length

/-- The period measured over 64 lines lies within 0.9 µs to 1.1 µs (R36). -/
def periodOk (l : List Nat) : Bool :=
  let m := (l.take 64).foldl (· + ·) 0
  decide (64 ≤ l.length) && decide (64 * 900000 ≤ m) && decide (m ≤ 64 * 1100000)

/-- While the node is locked RUL_PERIOD is the mean of the last 64 lines of its source (R38). -/
def showPeriod (s : State) : State :=
  if s.get RUL_STATUS_STATE = 1 then
    s.put RUL_PERIOD_PS (meanPeriod s (sourcePeriods s (s.get RUL_STATUS_ACTIVE_SOURCE)) 64)
  else s

/-- What a source offers when it is taken up: its offset in ticks (source minus node), its epoch identifier, UTC
seconds, quality, hop count, and the folio number at its next mark. -/
structure Offer where
  offset : Int
  epoch : Nat
  utc : Nat
  quality : Nat
  hop : Nat
  next : Nat

/-- The mean offset of a port's valid exchanges, rounded down to a whole tick; of the folio before when the folio in
progress has none yet (R52; the rounding is the model's choice, assumption 60). -/
def peerOffset (r : PeerRul) : Int := if r.valid = 0 then r.offset else r.sum / r.valid

/-- The offer of each source now (R51 to R54, R61). Pin's line is that of its last edge, which may be early for the
node's next line; its next mark is the one that begins the folio in progress while that mark is its last edge. Local offers
the flywheel itself. -/
def offer (s : State) (c : Nat) : Offer :=
  let same : Offer :=
    { offset := 0, epoch := s.get RUL_STATUS_EPOCH_ID, utc := s.ruling.utc, quality := 4, hop := s.ruling.hop, next := s.folio + 1 }
  if c = srcPin then
    let p := s.ruling.pin
    match p.acted with
    | some h =>
      { offset := ((p.folio * 1024 + p.pos.getD 0 : Nat) - ((s.ruling.line + b2n p.countedNext : Nat) : Int)) * 1024 + p.offset
        epoch := hdrEpoch h, utc := hdrUtc h, quality := hdrQuality h, hop := 0
        next := if p.pos = some 0 then p.folio else p.folio + 1 }
    | none => same
  else if c = srcPeer then
    match s.ruling.peer with
    | some p =>
      let r := peerOf s p
      match r.acted with
      | some h =>
        { offset := peerOffset r, epoch := hdrEpoch h, utc := hdrUtc h, quality := hdrQuality h, hop := r.hop + 1, next := r.folio + 1 }
      | none => same
    | none => same
  else if c = srcHost then
    { offset := s.ruling.ptmOffset, epoch := s.get RUL_LOCAL_EPOCH_EPOCH_ID, utc := s.get RUL_LOCAL_EPOCH_UTC_SECONDS
      quality := 1, hop := 0, next := s.ruling.ptmFolio + 1 }
  else same

/-- Judge an offer of the source taken up (R61): jump at the next mark when the epoch or UTC differ or the offset
exceeds 8,192 ticks, otherwise slew until the offset is zero. -/
def judge (s : State) (o : Offer) : State :=
  let s := s.put RUL_STATUS_OFFSET (satSigned 32 o.offset)
  let jump := o.epoch != s.get RUL_STATUS_EPOCH_ID || o.utc != s.ruling.utc || decide (8192 < o.offset.natAbs)
  if jump then (s.put RUL_STATUS_JUMP_PENDING 1).put RUL_STATUS_SLEWING 0
  else
    let s := (((s.put RUL_STATUS_JUMP_PENDING 0).putB RUL_STATUS_SLEWING (o.offset != 0)).put RUL_STATUS_STATE 1).put
      RUL_STATUS_QUALITY o.quality
    showPeriod { s with ruling := { s.ruling with hop := o.hop } }

/-- Take up a source (R60, R61). Local continues the flywheel unchanged (R55). -/
def takeUp (s : State) (c : Nat) : State :=
  let s := setQual s c { qual s c with used := true, lost := false }
  let s := s.put RUL_STATUS_ACTIVE_SOURCE c
  if c = srcLocal then
    ((((s.put RUL_STATUS_STATE 3).put RUL_STATUS_QUALITY 4).put RUL_STATUS_SLEWING 0).put RUL_STATUS_JUMP_PENDING 0).put
      RUL_STATUS_OFFSET 0
  else
    let s := if s.get RUL_STATUS_STATE = 2 then s else s.put RUL_STATUS_STATE 0
    judge s (offer s c)

/-- Sources that may be taken now: in holdover or acquiring, the first qualified external source in order; with a
source in use, a qualified source higher in the order that has never been in use (R58, R60). -/
def consider (s : State) : State :=
  if !s.ruling.running then s else
  let st := s.get RUL_STATUS_STATE
  let a := s.get RUL_STATUS_ACTIVE_SOURCE
  let order := sourceOrder s
  let idle := st == 2 || (st == 0 && !s.on RUL_STATUS_JUMP_PENDING)
  let pool := if idle then order.filter (· != srcLocal) else order.takeWhile (· != a)
  match pool.find? fun c => (qual s c).qualified && (idle || !((qual s c).used && (qual s c).lost)) with
  | some c => takeUp s c
  | none => s

/-- A source meets its qualification condition. -/
def qualify (s : State) (c : Nat) : State :=
  let q := qual s c
  if q.qualified then s else consider (setQual s c { q with qualified := true, folios := 0 })

/-- What a source was qualified on is gone when it is lost: it qualifies again from the start (R58). -/
def forget (s : State) (c : Nat) : State :=
  if c = srcPin then { s with ruling := { s.ruling with periods := [], pin := { counted := s.ruling.pin.counted } } }
  else if c = srcHost then { s with ruling := { s.ruling with ptmOk := 0 } } else s

/-- A source meets a loss condition (R58). When it is the one in use, the node enters holdover with the clamped mean
period of that source's last 1,024 lines, and takes the first qualified external source in the order (R60); otherwise it
tries the next source, and Local next ends holdover at once (R59, R63). -/
def loseSource (s : State) (c : Nat) : State :=
  if c = srcLocal then s else
  let q := qual s c
  let inUse := s.get RUL_STATUS_ACTIVE_SOURCE = c ∧ (s.get RUL_STATUS_STATE = 1 ∨ s.on RUL_STATUS_JUMP_PENDING)
  let p := meanPeriod s (sourcePeriods s c) 1024
  let s := forget s c
  if ¬inUse then (if q.qualified then setQual s c { q with qualified := false, folios := 0 } else s) else
  let s := setQual s c { q with qualified := false, folios := 0, used := true, lost := true }
  let p := if p < 900000 then 900000 else if 1100000 < p then 1100000 else p
  let s := ((s.put RUL_STATUS_SLEWING 0).put RUL_STATUS_JUMP_PENDING 0).put RUL_PERIOD_PS p
  let s := ((s.put RUL_ERRORS_SOURCE_LOST 1).put RUL_ERRORS_HOLDOVER_ENTERED 1).put RUL_STATUS_STATE 2
  let s := s.put RUL_STATUS_QUALITY 2
  let s := { s with ruling := { s.ruling with holdFolios := 0, holdReported := false } }
  let next := (((sourceOrder s).dropWhile (· != c)).drop 1).head?.getD srcLocal
  let other := ((sourceOrder s).filter (· != srcLocal)).find? fun x => (qual s x).qualified
  let s := s.put RUL_STATUS_ACTIVE_SOURCE next
  match other with
  | some x => takeUp (event s 0x21 433) x
  | none => if next = srcLocal then event (takeUp s srcLocal) 0x22 433 else event s 0x21 433

/-! ### Reception -/

/-- The symbol of a pulse width in ns: 0, 1, 2 for the folio mark (Table 2-3); `alt` classes a width within 5 ns of a
class boundary the other way (R597). -/
def pulseClass (width : Nat) (alt : Bool) : Option Nat :=
  let near (b : Nat) : Bool := decide (b ≤ width + 5 ∧ width ≤ b + 5)
  let inClass (lo hi : Nat) : Bool := decide (lo ≤ width ∧ width ≤ hi) != (alt && (near lo || near hi))
  if inClass 100 200 then some 0 else if inClass 300 400 then some 1 else if inClass 500 600 then some 2 else none

/-- Count a line violation (R46): more than 16 in one folio lose the Pin source (Table 2-8). -/
def violation (s : State) : State :=
  let s := s.inc RUL_ERRORS_VIOLATIONS
  let p := s.ruling.pin
  let s := setPin s { p with violations := p.violations + 1 }
  if 16 < p.violations + 1 then loseSource (setPin s { s.ruling.pin with marks := 0 }) srcPin else s

/-- The Pin source qualifies, or, once qualified, is lost by its period (Table 2-8). -/
def checkPin (s : State) : State :=
  let ok := periodOk s.ruling.periods
  if (qual s srcPin).qualified && !ok then loseSource s srcPin
  else if s.ruling.pin.marks ≥ 1 ∧ s.ruling.pin.acted.isSome ∧ ok then qualify s srcPin else s

/-- The Pin receiver after a counted edge of class `c` (R44, R45): its position, its header bits and what it knows of the
folio. A folio mark on a line other than 0 is a violation and starts the count of lines again (the model's choice,
assumption 60). -/
def PinRul.edge (p : PinRul) (c : Option Nat) (off : Int) : PinRul :=
  let at0 := decide (p.pos = some 1023)
  let pos' := if c = some 2 then some 0 else p.pos.map fun k => if k = 1023 then 0 else k + 1
  let good := c == some 2 && at0 && p.mark && decide (p.violations ≤ 16)
  { p with
    pos := pos'
    bits := match pos' with
      | some k => if 1 ≤ k ∧ k ≤ 128 then (p.bits <<< 1) ||| (if c = some 1 then 1 else 0) else p.bits
      | none => p.bits
    mark := if pos' = some 0 then c == some 2 else p.mark
    marks := if good then p.marks + 1 else if pos' = some 0 then 0 else p.marks
    violations := if c = some 2 then 0 else p.violations
    missing := 0
    folio := if pos' = some 0 then p.folio + 1 else p.folio
    counted := p.counted || decide (0 ≤ off)
    countedNext := p.countedNext || decide (off < 0)
    offset := -off }

/-- RULE_PULSE (R44 to R46, R58, R597): an edge `offset` ticks after its predicted edge with a pulse of `width` ns,
`period` ps after the edge before it, which lies as many lines back as lines are missing, and one. -/
def execRulePulse (offset : Int) (width period : Nat) (alt : Bool) (s : State) : Host.Outcome State Fault Refusal :=
  .next (
    if !s.ruling.running then s else
    let comp : Int := (s.get RUL_LINK_IN_COMP * 1024000 / max (s.get RUL_PERIOD_PS) 1 : Nat)
    let off := offset - comp
    if s.get RUL_STATUS_STATE = 1 ∧ 256 < off.natAbs then violation s else
    let p := s.ruling.pin
    let c := pulseClass width alt
    let at0 := decide (p.pos = some 1023)
    let bad := c.isNone || (c == some 2 && p.pos.isSome && !at0) || (c != some 2 && at0)
    let n := p.missing + 1
    let s := setPin s (p.edge c off)
    let s := { s with ruling := { s.ruling with periods := (List.replicate n (period / n) ++ s.ruling.periods).take 1024 } }
    let s := if s.get RUL_STATUS_ACTIVE_SOURCE = srcPin then showPeriod s else s
    checkPin (if bad then violation s else s))

/-- Record a failed header CRC (R48). -/
def headerFails (s : State) : State := event (s.inc RUL_ERRORS_CRC_FAILS) 0x20 433

/-- Keep the last valid header in RUL_HEADER. -/
def keepHeader (s : State) (h : BitVec 128) : State :=
  (s.setWord 0x38 (h.extractLsb' 0 64)).setWord 0x40 (h.extractLsb' 64 64)

/-- FOLIO_HEADER (R45, R48, R49, R58): the 128 bits received since the mark are a complete header. It is acted on when it
agrees with the valid header before it; one that disagrees changes nothing but what the next is compared with. -/
def execFolioHeader (s : State) : Host.Outcome State Fault Refusal :=
  .next (
    if !s.ruling.running || s.ruling.pin.pos != some 128 then s else
    let h := s.ruling.pin.bits
    if !headerOk h then headerFails s else
    let agreed : Bool := match s.ruling.pin.last with | some a => headersAgree a h | none => false
    let s := keepHeader (setPin s { s.ruling.pin with last := some h }) h
    if !agreed then s else
    let s := setPin s { s.ruling.pin with acted := some h, folio := hdrFolio h }
    if s.get RUL_STATUS_ACTIVE_SOURCE = srcPin ∧ s.get RUL_STATUS_STATE = 1 then judge s (offer s srcPin)
    else checkPin s)

/-- Whether a port carries ruling messages: a Peer-role port whose first sub-link is up. -/
def peerUp (s : State) (p : Nat) : Bool :=
  s.get (PRT_PORT_CTRL_ROLE p) == 1 && s.on (LAN_PORT_STATUS_LINK_UP_0 p) && !s.fatal

/-- The Peer port to take: the lowest hop count among qualified ports, then the lowest number (R53). -/
def bestPeer (s : State) : Option Nat :=
  (s.ruling.peers.filter fun x => x.2.qualified && decide (x.2.hop ≤ 14)).foldl
    (fun b x => match b with | some k => if x.2.hop < (peerOf s k).hop then some x.1 else b | none => some x.1) none

/-- Choose among the qualified Peer ports and qualify or lose the Peer source accordingly (R53, R58). A change of port
measures the offset from scratch, a pending jump to the old one ended (R63). -/
def choosePeer (s : State) : State :=
  let b := bestPeer s
  let inUse := s.get RUL_STATUS_ACTIVE_SOURCE = srcPeer ∧ (s.get RUL_STATUS_STATE = 1 ∨ s.on RUL_STATUS_JUMP_PENDING)
  if b = s.ruling.peer then s else
  let s' := { s with ruling := { s.ruling with peer := b } }
  match b with
  | none => { loseSource s srcPeer with ruling := { (loseSource s srcPeer).ruling with peer := none } }
  | some _ => if inUse then takeUp s' srcPeer else qualify s' srcPeer

/-! ### Ruling messages (Table 2-6): the 32-byte payload, byte 0 in bits 7:0 -/

/-- A payload: its subtype, hop count, sequence number, bytes 23:8 and bytes 31:24. -/
def rulingPayload (subtype hop seq : Nat) (mid : BitVec 128) (last : BitVec 64) : BitVec 256 :=
  last ++ mid ++ BitVec.ofNat 32 seq ++ 0#16 ++ BitVec.ofNat 8 hop ++ BitVec.ofNat 8 subtype

/-- Subtype: 1 announce, 2 sync request, 3 sync response. -/
def payloadSubtype (p : BitVec 256) : Nat := (p.extractLsb' 0 8).toNat
def payloadHop (p : BitVec 256) : Nat := (p.extractLsb' 8 8).toNat
def payloadSeq (p : BitVec 256) : Nat := (p.extractLsb' 32 32).toNat
/-- The folio header of an announce: bytes 23:8. -/
def payloadHeader (p : BitVec 256) : BitVec 128 := p.extractLsb' 64 128
/-- The times of a sync message: t1 in bytes 15:8, t2 in bytes 23:16, t3 in bytes 31:24. -/
def payloadT1 (p : BitVec 256) : BitVec 64 := p.extractLsb' 64 64
def payloadT2 (p : BitVec 256) : BitVec 64 := p.extractLsb' 128 64
def payloadT3 (p : BitVec 256) : BitVec 64 := p.extractLsb' 192 64

/-- The reception of an announce on a port: a folio of the source begins there, with the mean of the exchanges of the one
that ended; a folio that had none loses the port (Table 2-8). -/
def PeerRul.beginFolio (r : PeerRul) (periods : List Nat) : PeerRul :=
  { r with
    folio := r.folio + 1, seen := true, missed := 0, offset := peerOffset r, valid := 0, sum := 0
    qualified := r.qualified && !(r.last.isSome && r.valid == 0), periods := (periods ++ r.periods).take 1024 }

/-- ANNOUNCE (R49 to R53): a Peer announce with its hop count and folio header starts a folio of the source on that
port; the mean of the folio that ends corrects the node. A header is acted on when it agrees with the valid one before it.
`periods`: the source's line periods since the announce before, in ps, newest first. -/
def execAnnounce (port : Fin 64) (payload : BitVec 256) (periods : List Nat) (s : State) : Host.Outcome State Fault Refusal :=
  .next (
    if !s.ruling.running || !peerUp s port || payloadSubtype payload ≠ 1 then s else
    let h := payloadHeader payload
    let r := peerOf s port
    let began := r.beginFolio periods
    if !headerOk h then choosePeer (headerFails (setPeer s port began)) else
    let agree : Bool := match r.last with | some a => headersAgree a h | none => false
    let hop := payloadHop payload
    let began := { began with
      last := some h, hop := hop, agreed := if agree then r.agreed + 1 else 0, qualified := began.qualified && decide (hop ≤ 14) }
    let s := keepHeader (setPeer s port (if agree then { began with acted := some h, folio := hdrFolio h } else began)) h
    let inUse := s.ruling.peer = some port.val ∧ s.get RUL_STATUS_ACTIVE_SOURCE = srcPeer ∧ s.get RUL_STATUS_STATE = 1
    choosePeer (if inUse ∧ began.qualified then judge s (offer s srcPeer) else s))

/-- A port on which the node announces its ruling: enabled in RUL_PEER_FORWARD, and not the port it takes its ruling from
(R51, R53). -/
def announcesOn (s : State) (p : Nat) : Bool :=
  peerUp s p && s.flag RUL_PEER_FORWARD_ALL p && !(s.ruling.peer == some p && s.get RUL_STATUS_ACTIVE_SOURCE == srcPeer)

/-- SYNC_REQUEST (R51, R52): as responder on a port it announces to, the node answers with t1, t2 and t3 under the
request's sequence number. The ticks are those of receipt and of sending. -/
def execSyncRequest (port : Fin 64) (head body : BitVec 128) (tick2 tick3 : Fin 1024) (s : State) :
    Host.Outcome State Fault Refusal :=
  .next (
    let payload : BitVec 256 := body ++ head
    if s.ruling.running && announcesOn s port && payloadSubtype payload == 2 then
      let s := s.passed tick2
      let t2 : BitVec 64 := BitVec.ofNat 64 (s.ruling.line * 1024 + s.ruling.tick)
      let s := s.passed tick3
      let t3 : BitVec 64 := BitVec.ofNat 64 (s.ruling.line * 1024 + s.ruling.tick)
      s.send (.ruling port (rulingPayload 3 0 (payloadSeq payload) (t2 ++ payloadT1 payload) t3))
    else s)

/-- SYNC_RESPONSE (R51, R52, R58): as requester, the node takes the response under the sequence number of the request that
waits, whose offset is ((t2 - t1) + (t3 - t4)) / 2 when t4 - t1 is below 256 ticks; four valid exchanges after two agreeing
announces qualify a port whose line period is that of R36. -/
def execSyncResponse (port : Fin 64) (head : BitVec 128) (t2 t3 : BitVec 64) (tick4 : Fin 1024) (s : State) :
    Host.Outcome State Fault Refusal :=
  .next (
    let payload : BitVec 256 := t3 ++ (t2 ++ head)
    let r := peerOf s port
    if !s.ruling.running || !peerUp s port || payloadSubtype payload ≠ 3 || r.asked ≠ some (payloadSeq payload) then s else
    let s := s.passed tick4
    let t4 : Int := (s.ruling.line * 1024 + s.ruling.tick : Nat)
    let i (t : BitVec 64) : Int := (t.toNat : Nat)
    let t1 := i (payloadT1 payload)
    let r := { r with asked := none }
    if t4 < t1 ∨ 256 ≤ t4 - t1 then setPeer s port r else
    let r := { r with valid := r.valid + 1, sum := r.sum + ((i t2 - t1) + (i t3 - t4)) / 2 }
    let q := r.qualified || (decide (1 ≤ r.agreed) && decide (4 ≤ r.valid) && decide (r.hop ≤ 14) && periodOk r.periods)
    choosePeer (setPeer s port { r with qualified := q }))

/-- PTM_DIALOG_COMPLETE (R54, R58): four dialogs in a row qualify the Host source or lose it. `master` is PTM master
time in ns, `tick` the node's tick at the same instant. -/
def execPtmDialogComplete (ok : Bool) (master : BitVec 64) (tick : Fin 1024) (s : State) : Host.Outcome State Fault Refusal :=
  .next (
    if !s.ruling.running then s else
    if ok then
      let s := s.passed tick
      let off : Int := (master.toNat * 1024 / 1000 : Nat) - ((s.ruling.line * 1024 + s.ruling.tick : Nat) : Int)
      let s := { s with ruling := { s.ruling with
          ptmOk := s.ruling.ptmOk + 1, ptmBad := 0, ptmOffset := off, ptmFolio := master.toNat / 1000 / 1024 } }
      if s.get RUL_STATUS_ACTIVE_SOURCE = srcHost ∧ s.get RUL_STATUS_STATE = 1 then judge s (offer s srcHost)
      else if 4 ≤ s.ruling.ptmOk then qualify s srcHost else s
    else
      let s := { s with ruling := { s.ruling with ptmOk := 0, ptmBad := s.ruling.ptmBad + 1 } }
      if 4 ≤ s.ruling.ptmBad then loseSource s srcHost else s)

/-- SOURCE_REVERT (R60): a source higher in the order that was lost since reset is taken back once it has stayed
qualified for REVERT_HOLDOFF folios; never while NONREVERTIVE is 1. -/
def execSourceRevert (source : Fin 4) (s : State) : Host.Outcome State Fault Refusal :=
  .next (
    let q := qual s source
    let higher := ((sourceOrder s).takeWhile (· != s.get RUL_STATUS_ACTIVE_SOURCE)).contains source.val
    let st := s.get RUL_STATUS_STATE
    if s.ruling.running && higher && (st == 1 || st == 3) && q.qualified && q.used && q.lost
        && !s.ruling.nonrevertive && decide (s.ruling.holdoff ≤ q.folios)
    then takeUp s source else s)

/-! ### RUL_SOURCE -/

/-- Whether the LOCK bit of a strap-override group is in force (R496): as it was read at this boot (R487). -/
def strapLocked (s : State) (g : Nat) : Bool := s.boot.locks.getLsbD g

/-- A write of RUL_SOURCE (R11, R57): ORDER under its lock; the rewrite waits for the next folio boundary. -/
def writeRulSource (s : State) (w : BitVec 64) : State :=
  let n := w.toNat
  let refuse := strapLocked s 2 && bitsOf n 0 8 != s.get RUL_SOURCE_ORDER
  let s := (s.put RUL_SOURCE_NONREVERTIVE (bitsOf n 16 1)).put RUL_SOURCE_REVERT_HOLDOFF (bitsOf n 8 8)
  let s := if refuse then notice s 433 else s.put RUL_SOURCE_ORDER (bitsOf n 0 8)
  { s with ruling := { s.ruling with orderPending := some s.ruling.edges } }

/-- RUL_SOURCE_WRITE (R57). -/
def execRulSourceWrite (value : BitVec 64) (s : State) : Host.Outcome State Fault Refusal := .next (writeRulSource s value)

/-- SOURCE_ORDER_APPLY (R57): at the folio boundary after the write the rewritten order, NONREVERTIVE and REVERT_HOLDOFF take
effect. -/
def execSourceOrderApply (s : State) : Host.Outcome State Fault Refusal :=
  .next (
    match s.ruling.orderPending with
    | some n =>
      if s.lineInFolio = 0 ∧ n < s.ruling.edges then
        consider { s with ruling := { s.ruling with
          order := s.get RUL_SOURCE_ORDER, nonrevertive := s.on RUL_SOURCE_NONREVERTIVE, holdoff := s.get RUL_SOURCE_REVERT_HOLDOFF
          orderPending := none } }
      else s
    | none => s)

/-- Zero the ruling error counters, bits 63:16 of RUL_ERRORS (R71, Table 2-17). -/
def clearRulCounts (s : State) : State :=
  ((s.put RUL_ERRORS_CRC_FAILS 0).put RUL_ERRORS_VIOLATIONS 0).put RUL_ERRORS_MISSING 0

/-- RUL_CLEAR_COUNTS (R71). -/
def execRulClearCounts (s : State) : Host.Outcome State Fault Refusal := .next (clearRulCounts s)

/-! ### The ruled-event table (R65 to R67) -/

/-- The arm checks of R67 on a slot's registers. -/
def armChecks (periodic write : Bool) (time addr : Nat) : Bool :=
  (!periodic || (bitsOf time 0 24 != 0 && decide (bitsOf time 24 24 < bitsOf time 0 24)))
    && (!write || (addr % 8 == 0 && !(decide (0x1000 ≤ addr) && decide (addr < 0x1800))))

/-- Note that a slot's arming took place now: it takes effect from the next line edge. -/
def noteArm (s : State) (n : Nat) : State :=
  { s with ruling := { s.ruling with armEdge := Tab.set s.ruling.armEdge n s.ruling.edges } }

/-- A write of RUL_EVENT_CTRL (R67). -/
def writeEventCtrl (s : State) (n : Nat) (w : BitVec 64) : State :=
  let v := w.toNat
  let ok := armChecks (bit v 2) (bit v 3) (s.get (RUL_EVENT_TIME_ALL n)) (s.get (RUL_EVENT_ADDR_ADDR n))
  let armed := s.on (RUL_EVENT_CTRL_ARMED n)
  let enable := bit v 0
  if armed && enable && !ok then notice s 433 else
  let s := ((s.put (RUL_EVENT_CTRL_WAKE n) (bitsOf v 8 8)).putB (RUL_EVENT_CTRL_WRITE n) (bit v 3)).putB
    (RUL_EVENT_CTRL_PERIODIC n) (bit v 2)
  let s := (s.putB (RUL_EVENT_CTRL_ENABLE n) (enable && ok)).putB (RUL_EVENT_CTRL_ARMED n) (enable && ok)
  let s := if bit v 2 then s.put (RUL_EVENT_TIME_ALL n) (s.get (RUL_EVENT_TIME_ALL n) % 2 ^ 48) else s
  let s := noteArm s n
  if enable && !ok then notice s 433 else s

/-- A write of RUL_EVENT_TIME (R67): discarded whole with a Notice where it would leave an armed slot failing. The
periodic form has no bits 63:48 (Table 2-19). -/
def writeEventTime (s : State) (n : Nat) (w : BitVec 64) : State :=
  let ok := armChecks (s.on (RUL_EVENT_CTRL_PERIODIC n)) (s.on (RUL_EVENT_CTRL_WRITE n)) w.toNat (s.get (RUL_EVENT_ADDR_ADDR n))
  if s.on (RUL_EVENT_CTRL_ARMED n) && !ok then notice s 433 else noteArm (s.put (RUL_EVENT_TIME_ALL n) (if s.on (RUL_EVENT_CTRL_PERIODIC n) then w.toNat % 2 ^ 48 else w.toNat)) n

/-- A write of RUL_EVENT_ADDR (R67): the same. -/
def writeEventAddr (s : State) (n : Nat) (w : BitVec 64) : State :=
  let ok := armChecks (s.on (RUL_EVENT_CTRL_PERIODIC n)) (s.on (RUL_EVENT_CTRL_WRITE n)) (s.get (RUL_EVENT_TIME_ALL n))
    (bitsOf w.toNat 0 24)
  if s.on (RUL_EVENT_CTRL_ARMED n) && !ok then notice s 433 else noteArm (s.put (RUL_EVENT_ADDR_ADDR n) w.toNat) n

/-- RUL_EVENT_CTRL_WRITE (R67). -/
def execRulEventCtrlWrite (slot : Fin 64) (value : BitVec 64) (s : State) : Host.Outcome State Fault Refusal :=
  .next (writeEventCtrl s slot value)
/-- RUL_EVENT_TIME_WRITE (R67). -/
def execRulEventTimeWrite (slot : Fin 64) (value : BitVec 64) (s : State) : Host.Outcome State Fault Refusal :=
  .next (writeEventTime s slot value)
/-- RUL_EVENT_ADDR_WRITE (R67). -/
def execRulEventAddrWrite (slot : Fin 64) (value : BitVec 64) (s : State) : Host.Outcome State Fault Refusal :=
  .next (writeEventAddr s slot value)

/-- Whether an armed slot fires on the current line edge (R65, R67, R42). -/
def slotDue (s : State) (n : Nat) : Bool :=
  let t := s.get (RUL_EVENT_TIME_ALL n)
  let when := if s.on (RUL_EVENT_CTRL_PERIODIC n) then s.ruling.line % bitsOf t 0 24 == bitsOf t 24 24
    else decide (t / 1024 ≤ s.ruling.line)
  s.on (RUL_EVENT_CTRL_ARMED n) && when
    && (match Tab.find s.ruling.armEdge n with | some g => decide (g < s.ruling.edges) | none => true)
    && Tab.find s.ruling.firedEdge n != some s.ruling.edges

/-- The firing of slot `n` but for its desk write: flags, disarming of a one-shot, lateness, wakes (R65, R67). -/
def fireSlot (s : State) (n : Nat) : State :=
  let t := s.get (RUL_EVENT_TIME_ALL n)
  let one := !s.on (RUL_EVENT_CTRL_PERIODIC n)
  let late := one && decide (t / 1024 < s.ruling.line)
  let wake := s.get (RUL_EVENT_CTRL_WAKE n)
  let s := { s with ruling := { s.ruling with firedEdge := Tab.set s.ruling.firedEdge n s.ruling.edges } }
  let s := s.setFlag RUL_EVENT_FIRED_ALL n
  let s := if late then event (s.setFlag RUL_EVENT_LATE_ALL n) 0x24 433 n else s
  let s := if one then s.put (RUL_EVENT_CTRL_ARMED n) 0 else s
  s.each (List.range 8) fun s k => if bit wake k then postEvent s k (descriptor 1 n) else s

/-! ### The line edge, the ruling's part -/

/-- The ruled time of the current line with a tick. -/
def ruledTime (s : State) (tick : Nat) : BitVec 64 := BitVec.ofNat 64 (s.ruling.line * 1024 + tick)

/-- The Pin receiver when a line without a counted edge ends: while the node is locked, its place in the source's folio
moves on with the flywheel. -/
def PinRul.skip (p : PinRul) : PinRul :=
  let pos' := p.pos.map fun k => if k = 1023 then 0 else k + 1
  { p with
    pos := pos', bits := if pos' = some 0 then p.bits else p.bits <<< 1
    mark := p.mark && pos' != some 0, marks := if pos' = some 0 then 0 else p.marks
    folio := if pos' = some 0 then p.folio + 1 else p.folio }

/-- At each line edge a line of the Pin source without a counted edge is a missing line, and a line violation where it
was the source's line 0; four in a row lose the source (R46, Table 2-8). A receiver that has met no folio mark has no lines to
miss. -/
def missingLine (s : State) : State :=
  let p := s.ruling.pin
  let miss := !p.counted && p.pos.isSome
  let moved := if miss && s.get RUL_STATUS_STATE == 1 then p.skip else p
  let s := setPin s { moved with counted := p.countedNext, countedNext := false, missing := if miss then p.missing + 1 else 0 }
  if miss then
    let s := s.inc RUL_ERRORS_MISSING
    let s := if s.get RUL_STATUS_STATE = 1 ∧ p.pos = some 1023 then violation s else s
    if 4 ≤ s.ruling.pin.missing then loseSource s srcPin else s
  else s

/-- One slew step: the line is lengthened or shortened by one tick towards a zero offset (R61). -/
def slewStep (s : State) : State :=
  if !s.on RUL_STATUS_SLEWING then s else
  let o := signed 32 (s.get RUL_STATUS_OFFSET)
  let o' := if 0 < o then o - 1 else if o < 0 then o + 1 else 0
  (s.put RUL_STATUS_OFFSET (satSigned 32 o')).putB RUL_STATUS_SLEWING (o' != 0)

/-- An announce on each Peer port that the ruling is forwarded to, on line 0 of a folio (R51, R53). Its sequence number,
which nothing answers, and the hop count of a Local ruling are free values (assumption 60). -/
def announceAll (s : State) : State :=
  let local' := s.get RUL_STATUS_STATE = 3
  let seq := s.freeNow.toNat % 2 ^ 32
  let hop := if local' then s.freeNow.toNat / 2 ^ 32 % 16 else s.ruling.hop
  let s := s.drew
  s.each ((List.range s.variant.ports).filter (announcesOn s)) fun s p =>
    s.send (.ruling p (rulingPayload 1 hop seq (ownHeader s) 0))

/-- The header that RULE_OUT sends in the folio that begins (R64). -/
def holdHeader (s : State) : State := { s with ruling := { s.ruling with outHeader := ownHeader s } }

/-- What the ruling does on line 0 of a folio: holdover ages (R59, event 0x22), qualified sources age (R60), Peer ports
without an announce for two folios are lost (Table 2-8), announces go out (R51, R53). -/
def ruleFolio (s : State) : State :=
  let r := s.ruling
  let s := { s with ruling := { r with
    quals := r.quals.map fun (c, q) => (c, if q.qualified then { q with folios := q.folios + 1 } else q)
    peers := r.peers.map fun (p, x) =>
      let missed := if x.seen then 0 else x.missed + 1
      (p, { x with seen := false, missed := missed, folio := if x.seen then x.folio else x.folio + 1
                   qualified := x.qualified && decide (missed < 2) && peerUp s p }) } }
  let s := choosePeer s
  let s := if s.get RUL_STATUS_STATE = 2 then
      let n := s.ruling.holdFolios + 1
      let s := { s with ruling := { s.ruling with holdFolios := n } }
      let s := if 1024 < n then s.put RUL_STATUS_QUALITY 3 else s
      if 16 ≤ n ∧ !s.ruling.holdReported then
        event { s with ruling := { s.ruling with holdReported := true } } 0x22 433
      else s
    else s
  announceAll (holdHeader s)

/-- A PTM dialog starts on every 16th generated line (R54). -/
def startPtm (s : State) : State :=
  let h := s.get RUL_LINK_PTM_PORT
  if s.ruling.gen % 16 = 0 ∧ s.get (PRT_PORT_CTRL_ROLE h) = 0 ∧ s.on (LAN_PORT_STATUS_LINK_UP_0 h) then
    s.send (.ptmRequest h) else s

/-- The RULE_OUT pulse of a line (R64): the folio mark on line 0, then the header's bits. -/
def pulseOut (s : State) : State :=
  let n := s.lineInFolio
  if s.on RUL_LINK_OUT_ENABLE then
    s.send (.ruleOut (if n = 0 then 2 else if n ≤ 128 then b2n (s.ruling.outHeader.getLsbD (128 - n)) else 0))
  else s

/-- The messages and the RULE_OUT pulse of a line (R51, R54, R64). A sync request is sent at tick 0 of its line, which is
the model's choice: the spec does not say when in the line (assumption 60). -/
def ruleSends (s : State) : State :=
  let s := if s.lineInFolio % 128 = 64 then
      s.each (s.ruling.peers.filter fun x => x.2.last.isSome) fun s (p, x) =>
        if peerUp s p then
          (setPeer s p { x with seq := (x.seq + 1) % 2 ^ 32, asked := some x.seq }).send
            (.ruling p (rulingPayload 2 0 x.seq (0#64 ++ ruledTime s 0) 0))
        else s
    else s
  pulseOut (startPtm s)

/-- The trim of the scribe oscillator, once a folio (R69): against REFCLK or a traceable source, otherwise it stays. -/
def trimOsc (s : State) (trim : BitVec 8) : State :=
  let traceable := s.get RUL_STATUS_STATE = 1 ∧ s.get RUL_STATUS_QUALITY ≤ 1
  if s.get CLK_REF_STATUS_VALID ≠ 0 ∨ traceable then s.put CLK_OSC_TRIM trim.toNat else s

/-- The ruling's part of a line edge: the flywheel counts one line on both bases (R38, R41), then the rules of a line
and of a folio. `localPs` is the measured period of the Local reference, `trim` the trim the oscillator needs (R69). -/
def ruleEdge (localPs : Nat) (trim : BitVec 8) (s : State) : State :=
  let s := missingLine s
  let s := { s with ruling := { s.ruling with
    line := s.ruling.line + 1, gen := s.ruling.gen + 1, edges := s.ruling.edges + 1, tick := 0 } }
  let s := slewStep s
  let s := if s.get RUL_STATUS_STATE = 3 then s.put RUL_PERIOD_PS localPs else s
  ruleSends (if s.lineInFolio = 0 then ruleFolio (trimOsc s trim) else s)

/-- The jump of R62, the ruling's part: ruled time becomes the source's folio with line 0 at its mark; when at least 512
ticks of the line have elapsed that line ends at the mark and the new line is a generated one, otherwise the current line
does not count. The mark is the counted edge of a Pin source's line. A folio that a jump begins ages neither the sources'
qualification nor the Peer ports' announces, which is the model's choice (R60, assumption 60). -/
def ruleJump (s : State) (elapsed : Nat) : State :=
  let a := s.get RUL_STATUS_ACTIVE_SOURCE
  let o := offer s a
  let r := s.ruling
  let s := { s with ruling := { r with
    line := o.next * 1024, gen := if 512 ≤ elapsed then r.gen + 1 else r.gen, edges := r.edges + 1, tick := 0, utc := o.utc, hop := o.hop
    pin := if a = srcPin then { r.pin with counted := true, countedNext := false } else r.pin } }
  let s := ((s.put RUL_STATUS_EPOCH_ID o.epoch).put RUL_STATUS_JUMP_PENDING 0).put RUL_STATUS_SLEWING 0
  let s := (((s.put RUL_STATUS_STATE 1).put RUL_STATUS_QUALITY o.quality).put RUL_STATUS_OFFSET 0).put RUL_ERRORS_JUMPED 1
  holdHeader (showPeriod (event s 0x23 433))

end Sys2Proof.Machine
end

