-- ==== Sys2Proof/Machine/Coherence.lean ====
section
/-! DEFINITION. What the fabric ports' commands share (chapter 9): lent-in lines, extents, the end of a snoop, a link
that goes down. -/

namespace Sys2Proof.Machine

/-! ### Lent-in lines (R165, R166, R283) -/

/-- The lending pool has room for one more leaf (R165). -/
def poolRoom (s : State) : Bool :=
  s.on DCT_LEND_ACCEPT && decide (s.ductus.hosted.length < 4096 * s.get DCT_LEND_HOST_QUIRES)

/-- A free host-visible slot for the lending pool: on the channel with the most free slots. -/
def poolPlace (s : State) : Option Loc :=
  match leastBy (fun g => s.variant.hostSlots - freeOn s g)
      ((List.range s.variant.channels).filter fun g => normalChan s g && decide (0 < freeOn s g)) with
  | some g => slotOn s g 0 anySlot
  | none => none

/-- The media row of a lent-in slot, taken at its first write (R165). -/
def hostedRow (s : State) (port pbr slot : Nat) : State × Option Loc :=
  match Tab.find s.ductus.hosted slot with
  | some l => (s, some l)
  | none =>
    if !poolRoom s then (s, none) else
    match poolPlace s with
    | none => (s, none)
    | some l =>
      let s := takeSlot s l (hostedOwner slot)
      let s := { s with ductus := { s.ductus with
          hosted := Tab.set s.ductus.hosted slot l, lent := Tab.set s.ductus.lent slot (port, pbr) } }
      (s.inc DCT_LEND_HOSTED, some l)

/-- The line that lent-leaf words spell. -/
def lentMedia (l : LentLine) (data : BitVec 512) : MediaLine :=
  { data := data, mac := l.mac, key := l.key.toNat, heat := l.state.toNat / 8, fresh := l.state.getLsbD 2
    isSealed := l.state.getLsbD 1, poison := l.state.getLsbD 0 }

/-- A lending node reads a lent-in line (R165): charged to the migration account and served as stored, from the write
buffer or by its channel. -/
def readLentIn (s : State) (r : LinkReq) (l : LentLine) : State :=
  let i := lineOf r.dpa.toNat
  match Tab.find s.ductus.hosted l.slot.toNat with
  | none => answerRefused (portViolation s r 1) r false
  | some loc =>
    let o : Origin := .lentIn r.port r.tag.toNat r.pbr.toNat l.slot.toNat
    let s := arrive s 4095 64
    match bufferedLine (chan s loc.chan) loc.bankIndex loc.row i with
    | some m => answerLentIn (leave s 4095 64) o i m
    | none => enterPool s { origin := o, dpa := i * 64, key := 0, account := 4095 } loc

/-- The second copy of a lent-in line while its row moves (R159, R160). -/
def mirrorLentIn (s : State) (slot dpa : Nat) (m : MediaLine) : State :=
  match hostedMove s slot with
  | none => s
  | some (k, mv) =>
    if mv.stage = .switched then mirrorHere s mv.cause dpa m mv.source else
    match mv.dest with
    | .remote _ _ _ => s
    | .local l =>
      let s := { s with ductus := { s.ductus with
          moves := Tab.set s.ductus.moves k { mv with inked := mv.inked ||| (1#64 <<< lineOf dpa) } } }
      mirrorHere s mv.cause dpa m l

/-- A lending node writes a lent-in line: stored as received, with fresh ECC only (R165). -/
def writeLentIn (s : State) (r : LinkReq) (l : LentLine) (data : BitVec 512) : State :=
  match hostedRow s r.port r.pbr.toNat l.slot.toNat with
  | (s, none) => answerRefused (portViolation s r 2) r true
  | (s, some loc) =>
    let m := lentMedia l data
    let s := mirrorLentIn (enterWrite (arrive s 4095 64) loc none r.dpa.toNat 4095 m) l.slot.toNat r.dpa.toNat m
    respond s (reqOrigin r) 4095 .done

/-! ### Extents (R276 to R279) -/

/-- LDs that hold a quire. -/
def quireHolders (s : State) (q : Nat) : List Nat := Tab.at s.fabric.holders q []

/-- A quire has been offered to an LD, or is being added for it, and not yet answered. -/
def offeredTo (s : State) (ld q : Nat) : Bool :=
  (s.fabric.offered ++ s.fabric.adding.toList).any fun e =>
    16 * e.port + e.ld == ld && decide (e.first ≤ q) && decide (q < e.first + e.count)

/-- DC regions that are VALID: (port, LD, region). -/
def validRegions (s : State) : List (Nat × Nat × Nat) :=
  s.desk.filterMap fun (a, w) =>
    if 0xD0000 ≤ a ∧ a < 0xF0000 ∧ a % 16 = 0 ∧ w.getLsbD 63 then
      some ((a - 0xD0000) / 2048, (a - 0xD0000) / 128 % 16, (a - 0xD0000) / 16 % 8) else none

/-- Quires of an extent. -/
def Extent.quires (e : Extent) : List Nat := (List.range e.count).map (e.first + ·)

/-- The hard-class account of a logical device, if it has one. -/
def hardAccount (s : State) (port ld : Nat) : Option Nat :=
  let a := accountOf s (linkOwner port (s.get (PRT_LD_SUB_LINK port ld)) ld)
  if isHard s a && (configured s).contains a then some a else none

/-- Place the leaves of one quire (R153, R154); leaves of a hard-class account carry HARD and its number. -/
def placeQuire (s : State) (hard : Option Nat) (q : Nat) : State :=
  s.each (List.range 512) fun s k =>
    let leaf := q * 512 + k
    let at' := match hard with
      | some a => hardSlot s a (spreadSet s (s.get (ACC_CFG_SPREAD a))) anySlot
      | none => placeLeaf s q k
    match at' with
    | some l =>
      let s := setLeaf (takeSlot s l leaf) leaf { hard := hard.isSome, spreadAccount := hard.getD 0, loc := l }
      if hard.isSome then installBlock s (blockOf leaf) else s
    | none => s

/-- Free slots that an extent's leaves may take: of Normal channels, of the account's set for a hard one. -/
def roomFor (s : State) (hard : Option Nat) : Nat :=
  let gs := match hard with
    | some a => spreadSet s (s.get (ACC_CFG_SPREAD a))
    | none => List.range s.variant.channels
  gs.foldl (fun n g => if normalChan s g then n + freeOn s g else n) 0

/-- Blank one quire (R211): every line of its leaves, with PROTECTED and TE cleared, charged to account 4,093. -/
def blankQuire (s : State) (q : Nat) : State :=
  let s := s.each ((s.ductus.map.filter fun (k, _) => k / 512 == q).map (·.1)) fun s leaf =>
    mapLeafLines s leaf fun _ _ => {}
  let s := mergeDrop s fun d _ => quireOf d == q
  chargeNow (setSeal s { s.sealing with te := s.sealing.te.filter (· != q), prot := s.sealing.prot.filter (· != q) })
    4093 (512 * 4096)

/-- Free a quire's leaves: KIND becomes 0b00, the slots return, moves in progress abort (R278, Table 5-4). -/
def freeQuire (s : State) (q : Nat) : State :=
  let s := s.each (s.ductus.moves.filter fun (_, m) => m.ofLeaf && m.leaf / 512 == q && m.stage != .switched && m.stage != .done)
    fun s (k, m) => giveSlots (abortMove s k false true) true (if m.sourceRemote.isSome then [] else [m.source])
  let s := s.each (s.ductus.map.filter fun (k, _) => k / 512 == q) fun s (leaf, e) =>
    let s := freeCounter s leaf
    let s := if e.remote then s.dec DCT_LEND_LENT
      else if s.ductus.freeNext.contains (slotKey e.loc) then s else freeSlot s e.loc
    { s with ductus := { s.ductus with map := Tab.del s.ductus.map leaf } }
  showLocked (mergeDrop s fun d _ => quireOf d == q)

/-- The filter lists a port for the lines of a quire no longer when no other HDM-DB LD of the port holds it (R278, R284). -/
def unlistQuire (s : State) (ld q : Nat) : State :=
  let p := ld / 16
  let listed := s.fabric.filter.filter fun (l, e) => l / 32768 == q && bit e.ports p
  if listed.isEmpty || (quireHolders s q).any (fun x => x / 16 == p && x != ld && s.on (PRT_LD_HDM_DB p (x % 16))) then s else
  showFilter (setFabric s { s.fabric with
    filter := (s.fabric.filter.map fun (l, e) => if l / 32768 == q then (l, { e with ports := clearBit e.ports p }) else (l, e)).filter
      fun (_, e) => e.ports != 0 })

/-- A quire leaves an LD; with no holder left its leaves are freed (R278). -/
def leaveQuire (s : State) (ld q : Nat) : State :=
  let s := unlistQuire s ld q
  let rest := (quireHolders s q).filter (· != ld)
  let r := (validRegions s).find? fun (p, d, r) => 16 * p + d == ld && decide (s.get (PRT_DC_REGION_BASE (16 * p + d) r) ≤ q)
    && decide (q < s.get (PRT_DC_REGION_BASE (16 * p + d) r) + s.get (PRT_DC_REGION_LENGTH (16 * p + d) r))
  let s := setFabric s { s.fabric with
    holders := if rest.isEmpty then Tab.del s.fabric.holders q else Tab.set s.fabric.holders q rest
    added := s.fabric.added.filter fun x => !(x.1 == ld && x.2 == q) }
  let s := match r with | some (p, d, r) => s.dec (PRT_DC_USE_HELD (16 * p + d) r) | none => s
  if rest.isEmpty then freeQuire (setFabric s { s.fabric with wanted := s.fabric.wanted - 1 }) q else s

/-- A quire is held by an LD. -/
def holdQuire (s : State) (e : Extent) (q : Nat) : State :=
  let ld := 16 * e.port + e.ld
  (setFabric s { s.fabric with
    holders := Tab.set s.fabric.holders q (quireHolders s q ++ [ld]), added := s.fabric.added ++ [(ld, q)] }).inc
      (PRT_DC_USE_HELD (16 * e.port + e.ld) e.region)

/-- Recalls for lent-in slots that are needed back (R166). -/
def recallHosted (s : State) (n : Nat) : State :=
  let slots := (s.ductus.lent.filter fun (sl, _) => !s.fabric.recalled.contains sl).take n
  let s := setFabric s { s.fabric with recalled := s.fabric.recalled ++ slots.map (·.1) }
  s.each slots fun s (sl, p, q) => s.send (.recall p q [sl])

/-! ### The end of a snoop (R284 to R286, R278) -/

/-- What a release or a coarse sweep waits for has been answered. -/
def snoopsLeft (s : State) (p : SnoopWhy → Bool) : Bool := s.fabric.snoops.any fun x => p x.why

/-- COARSE is clear once every line has been snooped and answered (R285). -/
def endCoarse (s : State) (q : Nat) : State :=
  if s.fabric.sweepLine < 32768 || snoopsLeft s (fun w => w == .coarse q) then s else
  showFilter (setFabric s { s.fabric with coarse := s.fabric.coarse.filter (· != q), sweepLine := 0 })

/-- A core's coherence request ends with a status (R350): 0 OK with the lines snooped in bits 39:8, 1 TIMEOUT. -/
def cohEnd (s : State) (k status : Nat) : State :=
  match (core s k).wait with
  | some (.snoops wd n) =>
    setReg (modCore s k fun c => { c with wait := none }) k wd (BitVec.ofNat 64 (if status = 0 then 256 * n else status))
  | _ => s

/-- Every holder has answered: go on with what the snoop was for. -/
def snoopDone (s : State) (x : Snoop) : State :=
  match x.why with
  | .victim => showFilter s
  | .write w => unpark (commitWrite s w) x.line
  | .release q ld => if snoopsLeft s (fun w => w == .release q ld) then s else leaveQuire s ld q
  | .coarse q => endCoarse s q
  | .read a => dispatchRead s a
  | .reseal => s
  | .core k inv =>
    let s := if inv then clearHolders s x.line none else s
    if snoopsLeft s (fun w => w == .core k inv) then s else cohEnd s k 0

/-- An LD answers the snoops a predicate names (a BIRsp, or its sub-link going down). -/
def answerSnoops (s : State) (ld : Nat) (p : Snoop → Bool) : State :=
  let hit (x : Snoop) : Bool := p x && x.waiting.contains ld
  let done := s.fabric.snoops.filter fun x => hit x && x.waiting.length == 1
  let s := setFabric s { s.fabric with
    snoops := (s.fabric.snoops.map fun x => if hit x then { x with waiting := x.waiting.filter (· != ld) } else x).filter
      fun x => !x.waiting.isEmpty }
  s.each done snoopDone

/-! ### A sub-link goes down (R291) -/

/-- An origin on a sub-link. -/
def onLink (o : Origin) (p k : Nat) : Bool := match o with | .link a b _ _ _ => a == p && b == k | _ => false

/-- Reads of a sub-link are discarded; its writes past step 2 commit (Table 9-5). -/
def dropReads (s : State) (p k : Nat) : State :=
  let mine (w : Work) : Bool := match w with | .read a => onLink a.origin p k | .write _ => false
  let keep (r : Req) : Bool := !onLink r.access.origin p k
  let s := { s with
    ductus := { s.ductus with missWait := s.ductus.missWait.filter fun (_, w) => !mine w }
    accounts := { s.accounts with held := s.accounts.held.filter fun w => !mine w }
    fabric := { s.fabric with
      lentOut := s.fabric.lentOut.filter fun (_, w, _) => !mine w, reserve := s.fabric.reserve.filter fun w => !mine w } }
  { s with chans := s.chans.map fun (g, c) => (g, { c with
      pool := c.pool.filter keep, ingress := c.ingress.filter keep
      issued := c.issued.filter fun i => keep i.req, reread := c.reread.filter fun i => keep i.req }) }

/-- The port's bit leaves every filter entry once no HDM-DB LD of it remains on a sub-link that is up; answers how many
entries that clears. -/
def clearPort (s : State) (p : Nat) : State × Nat :=
  let left := s.lds.any fun (a, d) => a == p && s.on (PRT_LD_HDM_DB p d) && ldUp s (16 * p + d)
  if left then (s, 0) else
  let n := (s.fabric.filter.filter fun (_, e) => bit e.ports p).length
  let f := s.fabric.filter.filterMap fun (l, e) =>
    let e := { e with ports := clearBit e.ports p }
    if e.ports = 0 then none else some (l, e)
  (showFilter (setFabric s { s.fabric with filter := f }), n)

/-- Lent-leaf accesses outstanding on a Peer port that is down end as refused (R166). -/
def failLent (s : State) (p : Nat) : State :=
  let goes (w : Work) : Bool := match leafEntry s (leafOf w.dpa) with | some e => e.remote && e.port == p | none => false
  let gone := s.fabric.lentOut.filter fun (_, w, _) => goes w
  let s := setFabric s { s.fabric with lentOut := s.fabric.lentOut.filter fun (_, w, _) => !goes w }
  let late := s.fabric.lentWait.filter fun w => goes (.write w)
  let s := setFabric s { s.fabric with lentWait := s.fabric.lentWait.filter fun w => !goes (.write w) }
  let s := s.each late fun s w => endWrite (lentDown s w.origin w.dpa 2) w .failed
  s.each gone fun s (_, w, _) => match w with
    | .read a => endRead (lentDown s a.origin a.dpa 1) a (lentReply a.origin)
    | .write w => endWrite (lentDown s w.origin w.dpa 2) w .failed

/-- A ruling source on a port that is down is lost (R58). -/
def loseRuling (s : State) (p : Nat) : State :=
  let s := if s.get (PRT_PORT_CTRL_ROLE p) = 1 ∧ (Tab.find s.ruling.peers p).isSome then
      choosePeer (setPeer s p { seq := (peerOf s p).seq }) else s
  if s.get (PRT_PORT_CTRL_ROLE p) = 0 ∧ s.get RUL_LINK_PTM_PORT = p then loseSource s srcHost else s

/-- Set a sub-link's STATE; LINK_UP is 1 in L0 (Table 8-11). -/
def setLink (s : State) (p k state : Nat) : State := (s.put (linkStateF p k) state).putB (linkUpF p k) (state == 3)

/-- STATE of a sub-link that is down (R244, Table 8-11): held on a terminated port with HOLD_DETECT set, else Detect. -/
def restState (s : State) (p k : Nat) : Nat :=
  if decide (s.get (PRT_PORT_CTRL_ROLE p) < 2) && s.on (LAN_PORT_CTRL_HOLD_DETECT p)
      && decide (k < 2 ^ s.get (LAN_QUAD_BIFURCATION (p / 16))) then 6 else 0

/-- A sub-link goes down (R291, Table 9-5); one of a through-pair terminates nothing here (R255). -/
def linkDown (s : State) (p k : Nat) : State :=
  if !linkUp s p k then setLink s p k (restState s p k) else
  let role := s.get (PRT_PORT_CTRL_ROLE p)
  if 2 ≤ role then setLink s p k 0 else
  let s := countPort (setLink s p k (restState s p k)) p 0 0 0 1
  let s := (((s.put (linkActiveF p k) 0).put (linkDozeTxF p k) 0).put (linkDozeRxF p k) 0).inc (PRT_PORT_ERRORS_LINK_DOWNS p)
  let lds := s.lds.filter fun (a, d) => a == p && s.get (PRT_LD_SUB_LINK p d) == k
  let s := dropReads s p k
  let s := setFabric s { s.fabric with busMaster := s.fabric.busMaster.filter fun o => o / 64 != 4 * p + k }
  let s := s.each lds fun s (a, d) => answerSnoops s (16 * a + d) fun _ => true
  let (s, n) := if role = 0 then clearPort s p else (s, 0)
  let s := if role = 1 ∧ !(List.range 4).any (fun j => linkUp s p j) then failLent s p else s
  event (discardItems (loseRuling s p) p k) 0x93 (320 + p) n

end Sys2Proof.Machine
end

