-- ==== Sys2Proof/Machine/Lanes.lean ====
section
/-! DEFINITION. Lanes, terminated links and through-pairs (chapter 8) and their commands. -/

namespace Sys2Proof.Machine

/-! ### Widths (R237, R252) -/

/-- Bifurcation code of a port's quadrant: sub-links are 2 to its power. -/
def bifurcation (s : State) (p : Nat) : Nat := s.get (LAN_QUAD_BIFURCATION (p / 16))
/-- A sub-link exists under the bifurcation. -/
def subExists (s : State) (p k : Nat) : Bool := decide (p < s.variant.ports) && decide (k < 2 ^ bifurcation s p)
/-- Width code of a whole sub-link: 5 x16, 4 x8, 3 x4. -/
def fullWidth (s : State) (p : Nat) : Nat := 5 - bifurcation s p
/-- First lane and number of lanes of a sub-link. -/
def subLanes (s : State) (p k : Nat) : Nat × Nat := (16 / 2 ^ bifurcation s p * k, 16 / 2 ^ bifurcation s p)
/-- The sub-link a lane belongs to. -/
def subOf (s : State) (p l : Nat) : Nat := l / (16 / 2 ^ bifurcation s p)
/-- A port that terminates links: Host or Peer. -/
def terminated (s : State) (p : Nat) : Bool := decide (p < s.variant.ports) && decide (s.get (PRT_PORT_CTRL_ROLE p) < 2)
/-- The receiver terminations of a port's lanes are on (R244, R261, R271): a terminated port's unless it is held in Detect,
a through-pair's once it is ready; a Disabled port's are off. -/
def terminationsOn (s : State) (p : Nat) : Bool :=
  if terminated s p then !s.on (LAN_PORT_CTRL_HOLD_DETECT p)
  else s.get (PRT_PORT_CTRL_ROLE p) == 2 && s.on (LAN_PAIR_READY (p / 2))
def laneFailed (s : State) (p l : Nat) : Bool := s.flag (LAN_LANES_LANE_FAILED p) l

/-- The lanes of a width code on a sub-link: the lowest, or with reversal the highest. -/
def lanesOf (s : State) (p k w : Nat) (high : Bool) : List Nat :=
  let (a, n) := subLanes s p k
  let m := widthLanes w
  (List.range m).map fun i => if high then a + n - m + i else a + i

/-- The lane set that R252 takes at a width: the lowest lanes, else the highest with lane reversal where the node may
request it; none when both hold a failed lane. -/
def laneSet (s : State) (p k w : Nat) : Option Bool :=
  if (lanesOf s p k w false).all fun l => !laneFailed s p l then some false
  else if s.on (LAN_PORT_CTRL_LANE_REVERSE_ALLOW p) && (lanesOf s p k w true).all fun l => !laneFailed s p l then some true
  else none

/-- The width and lane set that R252 selects. -/
def selectWidth (s : State) (p k : Nat) : Option (Nat × Bool) :=
  firstSome [5, 4, 3, 2, 1] fun w => if fullWidth s p < w then none else (laneSet s p k w).map fun h => (w, h)

/-- Set the trained width: WIDTH, ACTIVE_WIDTH, REVERSED and the lanes that carry data. A reversal accepted from the partner
stays in use until the sub-link goes down (R245). -/
def setWidth (s : State) (p k w : Nat) (high : Bool) : State :=
  let s := ((s.put (linkWidthF p k) w).put (linkActiveF p k) w).putB (linkReversedF p k)
    (high || s.lanes.mirrored.contains (4 * p + k))
  let (a, n) := subLanes s p k
  let on' := lanesOf s p k w high
  s.each ((List.range n).map (a + ·)) fun s l => s.setFlag (LAN_LANES_LANE_ACTIVE p) l (on'.contains l)

/-- The lanes in use under L0p. -/
def showActive (s : State) (p k : Nat) : State :=
  let (a, n) := subLanes s p k
  let w := s.get (linkActiveF p k)
  let high := (laneSet s p k (s.get (linkWidthF p k))).getD false
  let on' := lanesOf s p k w high
  s.each ((List.range n).map (a + ·)) fun s l => s.setFlag (LAN_LANES_LANE_ACTIVE p) l (on'.contains l)

def setLanes (s : State) (x : Lanes) : State := { s with lanes := x }

/-- A wake has succeeded: the port's backoff returns to 0 (R268). -/
def goodWake (s : State) (p : Nat) : State :=
  let s := s.put (LAN_WAKE_BACKOFF p) 0
  setLanes s { s.lanes with
    attempts := s.lanes.attempts.filter (· / 16 != p), ignoring := s.lanes.ignoring.filter (· / 16 != p) }

/-- The lanes and widths of a sub-link that is down carry nothing. -/
def subDown (s : State) (p k : Nat) : State :=
  let s := linkDown s p k
  let s := (((s.put (linkWidthF p k) 0).put (linkRateF p k) 0).put (linkActiveF p k) 0).put (linkReversedF p k) 0
  let (a, n) := subLanes s p k
  let s := s.each ((List.range n).map (a + ·)) fun s l => s.setFlag (LAN_LANES_LANE_ACTIVE p) l false
  let id := 4 * p + k
  setLanes s { s.lanes with
    retrain := s.lanes.retrain.filter (· != id), narrowing := s.lanes.narrowing.filter (· != id)
    mirrored := s.lanes.mirrored.filter (· != id)
    lockLost := s.lanes.lockLost.filter fun l => !(l / 16 == p && decide (a ≤ l % 16) && decide (l % 16 < a + n)) }

/-- Every sub-link of a port goes to Detect. -/
def portDown (s : State) (p : Nat) : State := s.each (List.range 4) fun s k => subDown s p k

/-- Sub-links that are down show whether they are held (R244), after a change of role, bifurcation or HOLD_DETECT. -/
def showRest (s : State) (p : Nat) : State :=
  s.each (List.range 4) fun s k => if linkUp s p k then s else setLink s p k (restState s p k)

/-- Every lane of a quadrant goes to Detect, through-pairs included (R408). -/
def quadToDetect (s : State) (q : Nat) : State := s.each ((List.range 16).map (16 * q + ·)) portDown

/-! ### Training (R240, R244, R272) -/

/-- The half-doze message of a Peer port (R266). -/
def sendDoze (s : State) (p : Nat) : State :=
  if s.get (PRT_PORT_CTRL_ROLE p) = 1 then s.send (.dozeMessage p (s.on (LAN_DOZE_ENABLE p))) else s

/-- LINK_TRAINING_COMPLETE (R244, R245, R252): a terminated sub-link that is not held in Detect comes to L0. -/
def execLinkTrainingComplete (port : Fin 64) (sub : Fin 4) (width : Fin 6) (rate : Fin 6) (mirrored : Bool) (polarity : BitVec 16)
    (s : State) : Host.Outcome State Fault Refusal :=
  .next (
    let p := port.val
    let k := sub.val
    if !terminated s p || !terminationsOn s p || !subExists s p k || linkUp s p k
        || width.val == 0 || decide (fullWidth s p < width.val) || decide (s.get (LAN_PORT_CTRL_MAX_RATE p) < rate.val) then s else
    match laneSet s p k width with
    | none => s
    | some high =>
      let s := if mirrored then setLanes s { s.lanes with mirrored := (4 * p + k) :: s.lanes.mirrored } else s
      let s := (setWidth s p k width high).put (linkRateF p k) rate
      let (a, n) := subLanes s p k
      let s := s.each ((List.range n).map (a + ·)) fun s l => s.setFlag (LAN_LANES_POLARITY_INVERTED p) l (polarity.getLsbD l)
      sendDoze (goodWake (setLink s p k 3) p) p)

/-- LINK_TRAINING_FAILED (R240, R272): back to Detect, with a Notice. -/
def execLinkTrainingFailed (port : Fin 64) (sub : Fin 4) (reason : Fin 3) (s : State) : Host.Outcome State Fault Refusal :=
  .next (
    let p := port.val
    if !terminated s p || linkUp s p sub then s else
    let s := setLink s p sub (restState s p sub)
    if reason = 0 then event s 0x84 (256 + p) sub else if reason = 1 then event s 0x96 (320 + p) sub else notice s (256 + p))

/-! ### Lane failure (R250 to R253) -/

/-- Declare a lane failed (R250, R251, R263): its sub-link goes through Recovery to the width of R252, or down; a pair
lane is only reported. -/
def declareLane (s : State) (p l : Nat) : State :=
  if laneFailed s p l then s else
  let s := event (countPort (s.setFlag (LAN_LANES_LANE_FAILED p) l) p 0 0 1 0) 0x80 (256 + p) l
  let s := setLanes s { s.lanes with lockLost := s.lanes.lockLost.filter (· != 16 * p + l), recFails := Tab.del s.lanes.recFails (16 * p + l) }
  if !terminated s p then s else
  let k := subOf s p l
  if (selectWidth s p k).isNone then event (subDown s p k) 0x81 (256 + p) k else
  let s := setLink s p k 4
  setLanes s { s.lanes with narrowing := (4 * p + k) :: s.lanes.narrowing.filter (· != 4 * p + k) }

/-- A lane carries data of a link in L0, or of a pair that forwards. -/
def laneInUse (s : State) (p l : Nat) : Bool :=
  s.get (linkStateF p (subOf s p l)) == 3
    && (if terminated s p then s.flag (LAN_LANES_LANE_ACTIVE p) l else s.get (PRT_PORT_CTRL_ROLE p) == 2)

/-- LOCK_LOSS (R249, R250): every lane counts it; only one that carries data is monitored. -/
def execLockLoss (port : Fin 64) (lane : Fin 16) (s : State) : Host.Outcome State Fault Refusal :=
  .next (
    let id := 16 * port.val + lane.val
    if s.variant.ports ≤ port.val then s else
    let s := s.inc (LAN_LANE_ERRORS_LOCK_LOSSES port lane)
    if !laneInUse s port lane then s else
    setLanes s { s.lanes with lockLost := id :: s.lanes.lockLost.filter (· != id) })

/-- LOCK_REGAINED (R250): within 1 µs, so the lane is not declared. -/
def execLockRegained (port : Fin 64) (lane : Fin 16) (s : State) : Host.Outcome State Fault Refusal :=
  .next (setLanes s { s.lanes with lockLost := s.lanes.lockLost.filter (· != 16 * port.val + lane.val) })

/-- LOCK_TIMEOUT (R250): not regained within 1 µs. -/
def execLockTimeout (port : Fin 64) (lane : Fin 16) (s : State) : Host.Outcome State Fault Refusal :=
  .next (if s.lanes.lockLost.contains (16 * port.val + lane.val) then declareLane s port lane else s)

/-- RECOVERY_ENTRY (R291): a terminated sub-link in L0 enters Recovery without a lane failure. -/
def execRecoveryEntry (port : Fin 64) (sub : Fin 4) (s : State) : Host.Outcome State Fault Refusal :=
  .next (if terminated s port && s.get (linkStateF port sub) == 3 then setLink s port sub 4 else s)

/-- Note the lanes that failed to lock in a Recovery while the others of their sub-link locked: two in a row declare a lane
(R250). A terminated link checks lanes that carry data, and every lane at a retrain. -/
def noteUnlocked (s : State) (p k : Nat) (retrain : Bool) (unlocked : List Nat) : State :=
  let (a, n) := subLanes s p k
  let checked := ((List.range n).map (a + ·)).filter fun l => retrain || !terminated s p || s.flag (LAN_LANES_LANE_ACTIVE p) l
  let some' := checked.any fun l => !unlocked.contains l
  s.each checked fun s l =>
    let id := 16 * p + l
    if !unlocked.contains l || !some' then setLanes s { s.lanes with recFails := Tab.del s.lanes.recFails id }
    else if Tab.at s.lanes.recFails id 0 = 0 then setLanes s { s.lanes with recFails := Tab.set s.lanes.recFails id 1 }
    else declareLane s p l

/-- RECOVERY_COMPLETE (R251 to R253): L0 again, with unacknowledged flits replayed; at the width of R252 after a lane
failure or a retrain, with a Notice where the width does not change; down when the partner does not complete Configuration. On a
through-pair, which follows its partners, it only says which lanes locked (R263). -/
def execRecoveryComplete (port : Fin 64) (sub : Fin 4) (partner : Bool) (unlocked : List (Fin 16)) (s : State) :
    Host.Outcome State Fault Refusal :=
  .next (
    let p := port.val
    let k := sub.val
    let id := 4 * p + k
    if s.get (linkStateF p k) ≠ 4 then s else
    if !terminated s p then noteUnlocked s p k false (unlocked.map Fin.val) else
    let failed := s.lanes.narrowing.contains id
    if !partner then (if failed then event (subDown s p k) 0x81 (256 + p) k else subDown s p k) else
    let before := s.get (LAN_LANES_LANE_FAILED p)
    let s := noteUnlocked s p k (s.lanes.retrain.contains id) (unlocked.map Fin.val)
    if s.get (LAN_LANES_LANE_FAILED p) ≠ before || s.get (linkStateF p k) ≠ 4 then s else
    let width := s.get (linkWidthF p k)
    let s := if failed || s.lanes.retrain.contains id then
        (match selectWidth s p k with | some (w, h) => setWidth s p k w h | none => s)
      else s
    let s := if s.get (linkWidthF p k) = width then eventOnce s 0x82 (256 + p) p k else s
    let s := setLanes s { s.lanes with
      retrain := s.lanes.retrain.filter (· != id), narrowing := s.lanes.narrowing.filter (· != id) }
    setLink s p k 3)

/-! ### Received flits (R249, R250) -/

/-- Count what a sub-link received in one line. -/
def countFlits (s : State) (r : FlitRun) : State :=
  let p := r.port.val
  let k := 4 * p + r.sub.val
  let s := (s.incW (LAN_FLITS_ALL p) r.flits).incW (LAN_LINK_ERRORS_FEC_CORRECTED p) r.corrected
  let s := countPort s p r.uncorrectable r.replayed 0 0
  let s := (s.inc (LAN_LINK_ERRORS_UNCORRECTABLE p) r.uncorrectable).inc (LAN_LINK_ERRORS_REPLAYS p) r.replayed
  let s := setLanes s { s.lanes with flits := Tab.set s.lanes.flits k (Tab.at s.lanes.flits k 0 + r.flits) }
  s.each r.lanes fun s (l, n, bytes) =>
    let id := 16 * p + l.val
    let s := s.incW (LAN_LANE_ERRORS_CORRECTED_SYMBOLS p l) bytes
    setLanes s { s.lanes with bad := Tab.set s.lanes.bad id (Tab.at s.lanes.bad id 0 + n) }

/-- The end of a folio: a lane with corrected bytes in more than 1 flit in 16 of at least 4,096 is declared (R250); a
pair lane is not declared on this cause (R263). -/
def laneFolio (s : State) : State :=
  let bad := s.lanes.bad.filter fun (id, n) =>
    let p := id / 16
    let f := Tab.at s.lanes.flits (4 * p + subOf s p (id % 16)) 0
    terminated s p && laneInUse s p (id % 16) && decide (4096 ≤ f) && decide (f < 16 * n)
  let s := setLanes s { s.lanes with flits := [], bad := [] }
  s.each bad fun s (id, _) => declareLane s (id / 16) (id % 16)

/-! ### Equalization and margining (R246 to R248) -/

/-- Equalization runs on a lane (R246): at 8.0 GT/s and above, on a terminated sub-link that trains, with its terminations
on, at a rate it may use, or on a lane of a through-pair. -/
def equalizes (s : State) (p l rate : Nat) : Bool :=
  if rate < 2 || absentUnit s.variant .LAN_LANE_EQ p l then false
  else if !terminated s p then s.get (PRT_PORT_CTRL_ROLE p) == 2
  else
    let st := s.get (linkStateF p (subOf s p l))
    terminationsOn s p && decide (rate ≤ s.get (LAN_PORT_CTRL_MAX_RATE p)) && st != 3 && st != 5

/-- EQUALIZATION_REQUEST (R246): a legal request is applied to the lane's transmitter. -/
def execEqualizationRequest (port : Fin 64) (lane : LaneRate) (legal : Bool) (preset : Fin 16) (cm2 cm1 c0 cp1 : BitVec 6)
    (s : State) : Host.Outcome State Fault Refusal :=
  .next (
    if !legal || !equalizes s port lane.lane lane.rate then s else
    let s := ((s.put (LAN_LANE_EQ_CM2 port lane.lane) cm2.toNat).put (LAN_LANE_EQ_CM1 port lane.lane) cm1.toNat).put
      (LAN_LANE_EQ_C0 port lane.lane) c0.toNat
    (s.put (LAN_LANE_EQ_CP1 port lane.lane) cp1.toNat).put (LAN_LANE_EQ_PRESET port lane.lane) preset)

/-- The run with the largest eye height among those with no pattern error, the first among equals (assumption 82). -/
def bestEye (runs : List (Nat × EyeRun)) : Option (Nat × EyeRun) :=
  let good := runs.filter fun x => !x.2.errors
  good.find? fun x => x.2.eye == good.foldl (fun b y => max b y.2.eye) 0

/-- EQUALIZATION_PHASE_END (R246, R469): the lane has asked its partner for every preset and then for at most 24 coefficient
changes, and keeps the error-free setting with the largest eye when it is plausible, else its interpolated one (R470); `drift`
says by how much the driving temperature moved meanwhile, in 0.25 °C. -/
def execEqualizationPhaseEnd (port : Fin 64) (lane : LaneRate) (tried : PhaseRun) (s : State) : Host.Outcome State Fault Refusal :=
  .next (
    let l := lane.lane
    if !equalizes s port l lane.rate then s else
    let s := s.each tried.presets fun s (q, _) => s.send (.equalize port l (some q.val) 0)
    let s := s.each (tried.steps.take 24) fun s (c, _) => s.send (.equalize port l none c)
    let first := bestEye (tried.presets.map fun (q, x) => (q.val, x))
    let preset := match first with | some (q, _) => q | none => 0
    let best := bestEye (first.toList ++ (tried.steps.take 24).map fun (_, x) => (preset, x))
    let s := if best.isNone then event s 0x83 (256 + port.val) l else s
    let r := calibrateLane s port l (best.map fun (q, x) => (x.setting.toNat, q, x.eye)) tried.drift
    r.1.put (LAN_LANE_EQ_RX_SETTING port l) r.2)

/-- A write of LAN_LANE_MARGIN (Table 8-16): ranges, then START. -/
def writeMargin (s : State) (p l : Nat) (v : BitVec 64) : State :=
  let limit := bitsOf v.toNat 10 6
  let steps := bitsOf v.toNat 3 7
  let kind := bitsOf v.toNat 1 1
  if limit = 0 ∨ steps = 0 ∨ (if kind = 0 then 32 else 64) < steps then notice s (256 + p) else
  let s := ((s.put (LAN_LANE_MARGIN_ERROR_LIMIT p l) limit).put (LAN_LANE_MARGIN_STEPS p l) steps).put (LAN_LANE_MARGIN_SIDE p l) (bitsOf v.toNat 2 1)
  let s := s.put (LAN_LANE_MARGIN_KIND p l) kind
  if !v.getLsbD 0 then s else
  let s := (s.put (LAN_LANE_MARGIN_SAMPLES p l) 0).put (LAN_LANE_MARGIN_ERRORS p l) 0
  setLanes s { s.lanes with margins := (16 * p + l) :: s.lanes.margins.filter (· != 16 * p + l) }

/-- The lane of a sub-link's logical lane (R245). -/
def linkLane (s : State) (p k l : Nat) : Nat :=
  let (a, n) := subLanes s p k
  if s.on (linkReversedF p k) then a + n - 1 - l else a + l

/-- A host starts a margin step of physical lane `l`: an offset in steps, of timing (`kind` 0) or voltage, to one side. -/
def hostStep (s : State) (p l steps kind side : Nat) : State :=
  let limit := max 1 (s.get (LAN_LANE_MARGIN_ERROR_LIMIT p l))
  writeMargin s p l (BitVec.ofNat 64 (1 + 2 * kind + 4 * side + 8 * steps + 1024 * limit))

/-- A host's write of a lane's control word in the standard Lane Margining capability of a Host link (R248), with PCIe's
codes (assumption 82): the margin type in bits 5:3, the payload in bits 15:8. -/
def hostMargin (s : State) (p k l : Nat) (v : BitVec 16) : State :=
  if s.get (linkStateF p k) ≠ 3 || (subLanes s p k).2 ≤ l then s else
  let pl := linkLane s p k l
  let s := setLanes s { s.lanes with hostMargin := Tab.set s.lanes.hostMargin (16 * p + pl) v.toNat }
  let load := bitsOf v.toNat 8 8
  let stop := setLanes s { s.lanes with margins := s.lanes.margins.filter (· != 16 * p + pl) }
  match bitsOf v.toNat 3 3 with
  | 2 =>
    if 192 ≤ load then (if load = 192 then s else s.put (LAN_LANE_MARGIN_ERROR_LIMIT p pl) (load - 192))
    else if load = 0x55 then s.put (LAN_LANE_MARGIN_ERRORS p pl) 0
    else if load = 0x0F then stop else s
  | 3 => hostStep s p pl (load % 64) 0 (1 - bitsOf load 6 1)
  | 4 => hostStep s p pl (load % 128) 1 (bitsOf load 7 1)
  | _ => s

/-- What a host reads of a lane's control and status words: the control word, and the same command with the state of a
step in the payload: errors counted, and whether the step runs or has met its limit; the node's capabilities are free. -/
def hostMarginWord (s : State) (p k l f : Nat) : Nat :=
  let pl := linkLane s p k l
  let c := Tab.at s.lanes.hostMargin (16 * p + pl) 0
  let e := s.get (LAN_LANE_MARGIN_ERRORS p pl)
  let load := match bitsOf c 3 3 with
    | 1 => f % 256
    | 2 => bitsOf c 8 8
    | 3 | 4 => min e 63 + (if s.get (LAN_LANE_MARGIN_ERROR_LIMIT p pl) ≤ e then 0 else 128)
    | _ => 0
  c + 65536 * (c % 64 + 256 * load)

/-- MARGIN_START (R248). -/
def execMarginStart (port : Fin 64) (lane : Fin 16) (value : BitVec 64) (s : State) : Host.Outcome State Fault Refusal :=
  .next (if absentUnit s.variant .LAN_LANE_MARGIN port lane then s else writeMargin s port lane value)

/-- MARGIN_STEP_COMPLETE (R248): the step stops at its error limit or its sample count. -/
def execMarginStepComplete (port : Fin 64) (lane : Fin 16) (samples errors : Nat) (s : State) : Host.Outcome State Fault Refusal :=
  .next (
    let id := 16 * port.val + lane.val
    if !s.lanes.margins.contains id then s else
    let e := min errors (s.get (LAN_LANE_MARGIN_ERROR_LIMIT port lane))
    let s := (s.put (LAN_LANE_MARGIN_SAMPLES port lane) (min samples 65535)).put (LAN_LANE_MARGIN_ERRORS port lane) e
    setLanes s { s.lanes with margins := s.lanes.margins.filter (· != id) })

/-! ### Writes of the port registers (R253, R260, R239) -/

/-- A write of LAN_PORT_CTRL (Table 8-10): reserved codes leave their field, HOLD_DETECT takes terminated links to Detect
(R244), RETRAIN takes them through Recovery. -/
def writeLanCtrl (s : State) (p : Nat) (v : BitVec 64) : State :=
  let n := v.toNat
  let bad := decide (5 < bitsOf n 20 4) || bitsOf n 18 2 == 3
  let s := if 5 < bitsOf n 20 4 then s else s.put (LAN_PORT_CTRL_MAX_RATE p) (bitsOf n 20 4)
  let s := if bitsOf n 18 2 = 3 then s else s.put (LAN_PORT_CTRL_CLOCK_MODE p) (bitsOf n 18 2)
  let s := ((s.put (LAN_PORT_CTRL_L0P_ENABLE p) (bitsOf n 17 1)).put (LAN_PORT_CTRL_L1_ENABLE p) (bitsOf n 16 1)).put
    (LAN_PORT_CTRL_LANE_REVERSE_ALLOW p) (bitsOf n 3 1)
  let s := s.put (LAN_PORT_CTRL_HOLD_DETECT p) (bitsOf n 1 1)
  let s := if bad then notice s (256 + p) else s
  let s := if !terminated s p then s else if bit n 1 then portDown s p else showRest s p
  if !bit n 2 || !terminated s p then s else
  s.each (List.range 4) fun s k =>
    if s.get (linkStateF p k) = 3 ∨ s.get (linkStateF p k) = 4 ∨ s.get (linkStateF p k) = 5 then
      setLanes (setLink s p k 4) { s.lanes with retrain := (4 * p + k) :: s.lanes.retrain.filter (· != 4 * p + k) }
    else s

/-- PORT_RETRAIN (R253). -/
def execPortRetrain (port : Fin 64) (value : BitVec 64) (s : State) : Host.Outcome State Fault Refusal :=
  .next (if absentUnit s.variant .LAN_PORT_CTRL port 0 then s else writeLanCtrl s port value)

/-- A pair is enabled. -/
def pairEnabled (s : State) (k : Nat) : Bool := s.on (LAN_PAIR_ENABLE k)

/-- A write of LAN_QUAD (R239): accepted only while every enabled pair of the quadrant is in Detect. -/
def writeQuad (s : State) (q : Nat) (v : BitVec 64) : State :=
  let b := v.toNat % 4
  if strapLocked s 0 || b == 3 then notice s (256 + 16 * q)
  else if ((List.range 8).map (8 * q + ·)).any fun k => pairEnabled s k &&
      (List.range 4).any fun j => s.get (linkStateF (2 * k) j) != 0 || s.get (linkStateF (2 * k + 1) j) != 0 then
    event s 0x85 (256 + 16 * q)
  else
    let ports := ((List.range 16).map (16 * q + ·)).filter (terminated s)
    (s.each ports portDown).put (LAN_QUAD_BIFURCATION q) b |>.each ports showRest

/-- BIFURCATION_WRITE (R239). -/
def execBifurcationWrite (quad : Fin 4) (value : BitVec 64) (s : State) : Host.Outcome State Fault Refusal :=
  .next (if absentUnit s.variant .LAN_QUAD quad 0 then s else writeQuad s quad value)

/-- Bond or part a pair (R260, R271, R262): both ports go to Detect, their roles and the votes follow. -/
def runPair (s : State) (k : Nat) (on' : Bool) : State :=
  let s := portDown (portDown s (2 * k)) (2 * k + 1)
  let s := (s.putB (LAN_PAIR_ENABLE k) on').put (LAN_PAIR_READY k) 0
  let r := if on' then 2 else 0
  let s := (s.put (PRT_PORT_CTRL_ROLE (2 * k)) r).put (PRT_PORT_CTRL_ROLE (2 * k + 1)) r
  let s := showRest (showRest s (2 * k)) (2 * k + 1)
  let n := k / 2
  let s := linkVotes s (2 * k)
  vote s n 1 (pairEnabled s (2 * n) || pairEnabled s (2 * n + 1))

/-- A write of LAN_PAIR (Table 8-13). -/
def writePair (s : State) (k : Nat) (v : BitVec 64) : State :=
  let s := s.put (LAN_PAIR_ORIENT k) (bitsOf v.toNat 1 1)
  if v.getLsbD 0 = pairEnabled s k then s
  else if strapLocked s 1 then notice s (256 + 2 * k)
  else runPair s k (v.getLsbD 0)

/-- PAIR_ENABLE_WRITE (R260). -/
def execPairEnableWrite (pair : Fin 32) (value : BitVec 64) (s : State) : Host.Outcome State Fault Refusal :=
  .next (if absentUnit s.variant .LAN_PAIR pair 0 then s else writePair s pair value)

/-! ### Through-pairs (R254 to R263) -/

/-- PAIR_FORWARD (R255, Table 8-4): what a ready pair receives on one port leaves by the other. -/
def execPairForward (pair : Fin 32) (upper : Bool) (sub : Fin 4) (kind : Fin 6) (rates : BitVec 6) (errors : FlitErrors)
    (overrun : Bool) (s : State) : Host.Outcome State Fault Refusal :=
  .next (
    let inP := 2 * pair.val + b2n upper
    let outP := 2 * pair.val + b2n (!upper)
    if !pairEnabled s pair || !s.on (LAN_PAIR_READY pair) || !subExists s inP sub then s else
    let keep := BitVec.ofNat 6 (2 ^ (s.get (LAN_PORT_CTRL_MAX_RATE (2 * pair.val)) + 1) - 1)
    let s := s.send (.pairForward outP sub kind (if kind = 0 then rates &&& keep else rates))
    let idle := s.lanes.pairIdle.filter (· != inP)
    let s := setLanes s { s.lanes with pairIdle := if kind = 1 then inP :: idle else idle }
    let st := if s.lanes.pairIdle.contains inP && s.lanes.pairIdle.contains outP then 0
      else if kind = 0 then (if s.get (linkStateF inP sub) = 3 ∨ s.get (linkStateF inP sub) = 4 then 4 else 2)
      else if kind = 4 then 3 else s.get (linkStateF inP sub)
    let s := setLink (setLink s inP sub st) outP sub st
    let s := if kind = 4 then
        let s := s.incW (LAN_FLITS_ALL inP)
        let s := if errors.uncorrectable then (countPort s inP 1 0 0 0).inc (LAN_LINK_ERRORS_UNCORRECTABLE inP) else s
        let s := if errors.corrected.isEmpty then s else s.incW (LAN_LINK_ERRORS_FEC_CORRECTED inP)
        s.each errors.corrected fun s l => s.incW (LAN_LANE_ERRORS_CORRECTED_SYMBOLS inP l)
      else s
    if overrun then event s 0x86 (256 + inP) pair else s)

/-- PAIR_READY (R261): the pair's sub-domain is up and its SerDes PLL does not coast. -/
def execPairReady (pair : Fin 32) (latUp latDown : BitVec 8) (s : State) : Host.Outcome State Fault Refusal :=
  .next (
    let k := pair.val
    if !pairEnabled s k || !domainUp s (k / 2) || s.on (CLK_QUAD_COAST (k / 8)) then s else
    ((s.put (LAN_PAIR_READY k) 1).put (LAN_PAIR_LAT_UP k) latUp.toNat).put (LAN_PAIR_LAT_DOWN k) latDown.toNat)

/-- PAIR_READY_TIMEOUT (R262). -/
def execPairReadyTimeout (pair : Fin 32) (s : State) : Host.Outcome State Fault Refusal :=
  .next (if pairEnabled s pair && !s.on (LAN_PAIR_READY pair) then event s 0x87 (256 + 2 * pair.val) pair else s)

/-! ### L0p and L1 (R264, R265) -/

/-- A hard or firm account with a guarantee is charged on a link (R265, R267). -/
def linkGuaranteed (s : State) (p k : Nat) : Bool :=
  (configured s).any fun a => (isHard s a || isFirm s a) && guarantee s a != 0 && ownerLink (s.get (ACC_CFG_OWNER a)) == some (4 * p + k)

/-- L0P_NARROW (R265): by one step; the partner's request is accepted. -/
def execL0pNarrow (port : Fin 64) (sub : Fin 4) (partner : Bool) (s : State) : Host.Outcome State Fault Refusal :=
  .next (
    let w := s.get (linkActiveF port sub)
    let own := s.on (LAN_PORT_CTRL_L0P_ENABLE port) && !linkGuaranteed s port sub
    if !terminated s port || s.get (linkStateF port sub) ≠ 3 || w ≤ 1 || !(partner || own) then s
    else showActive (s.put (linkActiveF port sub) (w - 1)) port sub)

/-- L0P_WIDEN (R265, R250): by one step; a lane that fails to lock is declared and the widening is abandoned. -/
def execL0pWiden (port : Fin 64) (sub : Fin 4) (stuck : Option (Fin 16)) (s : State) : Host.Outcome State Fault Refusal :=
  .next (
    let w := s.get (linkActiveF port sub)
    if !terminated s port || s.get (linkStateF port sub) ≠ 3 || s.get (linkWidthF port sub) ≤ w then s else
    match stuck with
    | some l => if subOf s port l = sub.val ∧ !s.flag (LAN_LANES_LANE_ACTIVE port) l then declareLane s port l else s
    | none => showActive (s.put (linkActiveF port sub) (w + 1)) port sub)

/-- ASPM_L1_ENTRY (R264); in the Fatal state links stay in L0 (R297). -/
def execAspmL1Entry (port : Fin 64) (sub : Fin 4) (s : State) : Host.Outcome State Fault Refusal :=
  .next (if terminated s port && s.get (linkStateF port sub) == 3 && s.on (LAN_PORT_CTRL_L1_ENABLE port) && !s.fatal then
    setLink s port sub 5 else s)

/-- ASPM_L1_EXIT (R264, R268): back to L0. -/
def execAspmL1Exit (port : Fin 64) (sub : Fin 4) (s : State) : Host.Outcome State Fault Refusal :=
  .next (if s.get (linkStateF port sub) = 5 then goodWake (setLink s port sub 3) port else s)

/-! ### Half-doze and wakes (R266 to R268) -/

/-- DOZE_ENABLE_MESSAGE (R266). -/
def execDozeEnableMessage (port : Fin 64) (enable : Bool) (s : State) : Host.Outcome State Fault Refusal :=
  .next (if s.get (PRT_PORT_CTRL_ROLE port) = 1 ∧ s.fatal = false then s.putB (LAN_DOZE_PARTNER_ENABLE port) enable else s)

/-- A write of LAN_DOZE (Table 8-14). -/
def writeDoze (s : State) (p : Nat) (v : BitVec 64) : State :=
  let n := bitsOf v.toNat 8 8
  if n = 0 then notice s (256 + p) else
  let s := s.put (LAN_DOZE_IDLE_LINES p) n
  if v.getLsbD 0 = s.on (LAN_DOZE_ENABLE p) then s else
  let s := s.putB (LAN_DOZE_ENABLE p) (v.getLsbD 0)
  if (List.range 4).any fun k => linkUp s p k then sendDoze s p else s

/-- LAN_DOZE_WRITE (R266). -/
def execLanDozeWrite (port : Fin 64) (value : BitVec 64) (s : State) : Host.Outcome State Fault Refusal :=
  .next (if absentUnit s.variant .LAN_DOZE port 0 then s else writeDoze s port value)

/-- HALF_DOZE_ENTRY (R267): a direction of a Peer link in L0 stops driving, while both ends report ENABLE. -/
def execHalfDozeEntry (port : Fin 64) (sub : Fin 4) (partner : Bool) (s : State) : Host.Outcome State Fault Refusal :=
  .next (
    let f := if partner then linkDozeRxF port sub else linkDozeTxF port sub
    let both := s.on (LAN_DOZE_ENABLE port) && s.on (LAN_DOZE_PARTNER_ENABLE port)
    if s.get (PRT_PORT_CTRL_ROLE port) ≠ 1 || s.get (linkStateF port sub) ≠ 3 || !both || s.on f
        || (!partner && (linkGuaranteed s port sub || s.fatal)) then s
    else (s.put f 1).incW (LAN_DOZE_ENTRIES port))

/-- HALF_DOZE_WAKE (R267). -/
def execHalfDozeWake (port : Fin 64) (sub : Fin 4) (partner : Bool) (s : State) : Host.Outcome State Fault Refusal :=
  .next (
    let f := if partner then linkDozeRxF port sub else linkDozeTxF port sub
    if s.on f then (if partner then goodWake (s.put f 0) port else s.put f 0) else s)

/-- ELECTRICAL_IDLE_EXIT (R268): in Detect, L1 or half-doze an exit starts a wake attempt of the lane, unless its backoff
runs; a terminated sub-link that is not held goes from Detect to Polling. -/
def execElectricalIdleExit (port : Fin 64) (lane : Fin 16) (s : State) : Host.Outcome State Fault Refusal :=
  .next (
    let p := port.val
    let k := subOf s p lane
    let id := 16 * p + lane.val
    let st := s.get (linkStateF p k)
    if s.lanes.ignoring.contains id || !(decide (st < 2) || st == 5 || st == 6 || s.on (linkDozeRxF p k)) then s
    else
      let s := setLanes s { s.lanes with attempts := id :: s.lanes.attempts.filter (· != id) }
      if st = 0 ∧ terminated s p ∧ terminationsOn s p then setLink s p k 1 else s)

/-- FALSE_WAKE (R268): the port's backoff is 1 line, then doubles up to 1,024, and the lane ignores idle exits for it; a
sub-link with no other attempt returns from Polling to Detect. -/
def execFalseWake (port : Fin 64) (lane : Fin 16) (s : State) : Host.Outcome State Fault Refusal :=
  .next (
    let p := port.val
    let k := subOf s p lane
    let id := 16 * p + lane.val
    if !s.lanes.attempts.contains id then s else
    let b := s.get (LAN_WAKE_BACKOFF p)
    let s := (s.inc (LAN_WAKE_FALSE_WAKES p)).put (LAN_WAKE_BACKOFF p) (if b = 0 then 1 else min 1024 (2 * b))
    let s := setLanes s { s.lanes with
      attempts := s.lanes.attempts.filter (· != id), ignoring := id :: s.lanes.ignoring.filter (· != id) }
    let still := s.lanes.attempts.any fun i => i / 16 == p && subOf s p (i % 16) == k
    let s := if s.get (linkStateF p k) = 1 ∧ still = false then setLink s p k (restState s p k) else s
    eventOnce s 0x88 (256 + p) p lane)

/-- BACKOFF_END (R268): idle exits of the port's lanes count again. -/
def execBackoffEnd (port : Fin 64) (s : State) : Host.Outcome State Fault Refusal :=
  .next (setLanes s { s.lanes with ignoring := s.lanes.ignoring.filter (· / 16 != port.val) })

end Sys2Proof.Machine
end

