-- ==== Sys2Proof/Machine/Clocks.lean ====
section
/-! DEFINITION. Clock sources, loops, domains and gates (chapter 13) and their commands. -/

namespace Sys2Proof.Machine

/-! ### Sources -/

/-- Free mode (R400). -/
def freeMode (s : State) : Bool := s.on CLK_CTRL_MODE
/-- A REFCLK input that the variant has (R398). -/
def inputPresent (s : State) (q : Nat) : Bool := match s.variant with | .v2096 => decide (q < 2) | _ => decide (q < 4)
/-- A source is READY: inputs 0 to 3, 4 the scribe oscillator. -/
def sourceReady (s : State) (c : Nat) : Bool :=
  if c < 4 then inputPresent s c && s.flag CLK_REF_STATUS_READY c else s.on CLK_OSC_READY

/-- The sources of a loop in its order (R407): root with the oscillator last, a quadrant's never the oscillator. -/
def loopOrder (s : State) (l : Nat) : List Nat :=
  if l = 0 then ((List.range 4).map fun i => bitsOf (s.get CLK_ROOT_ORDER) (2 * i) 2) ++ [4]
  else if l ≤ 4 then (List.range 4).map fun i => bitsOf (s.get (CLK_QUAD_ORDER (l - 1))) (2 * i) 2
  else [s.get CLK_ROOT_ACTIVE]

def loopOf (s : State) (l : Nat) : Loop := Tab.at s.clocks.loops l {}
def setLoop (s : State) (l : Nat) (x : Loop) : State :=
  let s := { s with clocks := { s.clocks with loops := Tab.set s.clocks.loops l x } }
  if l = 0 then
    (((s.putB CLK_ROOT_COAST x.coast).putB CLK_ROOT_HOLDING x.holding).putB CLK_ROOT_LOCKED (!x.holding && !x.coast && !x.relock)).putB
      CLK_ROOT_READY (!x.holding && !x.coast && !x.relock)
  else if l ≤ 4 then s.putB (CLK_QUAD_COAST (l - 1)) x.coast
  else if 9 ≤ l then s.putB (CLK_NIB_PLL_LOCKED (l - 9)) (!x.holding && !x.coast && !x.relock)
  else s

/-- The source a loop uses. -/
def loopActive (s : State) (l : Nat) : Nat :=
  if 1 ≤ l ∧ l ≤ 4 then s.get (CLK_QUAD_ACTIVE (l - 1)) else s.get CLK_ROOT_ACTIVE
def setActive (s : State) (l c : Nat) : State :=
  if l = 0 then s.put CLK_ROOT_ACTIVE c else if l ≤ 4 then s.put (CLK_QUAD_ACTIVE (l - 1)) c else s

/-- The loops that run: the tower PLLs of present towers, the nib PLLs in free mode. -/
def loopRuns (s : State) (l : Nat) : Bool :=
  l == 0 || (decide (l ≤ 4) && decide (l - 1 < s.variant.ports / 16)) || (decide (5 ≤ l) && decide (l ≤ 8) && decide (l - 5 < s.variant.towers))
    || (decide (9 ≤ l) && freeMode s)

/-- The lanes of a quadrant take the phase step of its SerDes PLL (R411): links in common clock enter Recovery from L0. -/
def phaseStep (s : State) (q : Nat) : State :=
  s.each ((List.range 16).map (16 * q + ·)) fun s p =>
    if !terminated s p || s.get (LAN_PORT_CTRL_CLOCK_MODE p) ≠ 0 then s else
    s.each (List.range 4) fun s k => if s.get (linkStateF p k) = 3 then setLink s p k 4 else s

/-- A loop takes the first READY source of its order and begins to relock (R407, R408, R411); coasting ends with a
Notice. -/
def retake (s : State) (l : Nat) : State :=
  let x := loopOf s l
  if !(x.holding || x.coast) || x.relock && !x.coast then s else
  match (loopOrder s l).find? fun c => sourceReady s c && x.lost != some c with
  | none => s
  | some c =>
    let was := x.coast
    let s := setActive s l c
    let s := setLoop s l { holding := !was, coast := false, escalated := false, relock := true, lost := none }
    let s := if was then event s 0xD3 434 l else s
    let s := if 1 ≤ l ∧ l ≤ 4 then phaseStep s (l - 1) else s
    if l ≠ 0 then s else
    s.each [5, 6, 7, 8, 9, 10] fun s k => if loopRuns s k then setLoop s k { relock := true } else s

/-- A loop loses its reference (R407): it holds, and switches at once when a source is READY. -/
def loseReference (s : State) (l : Nat) (lost : Option Nat) : State :=
  let s := setLoop s l { loopOf s l with holding := true, relock := false, lost := lost }
  retake s l

/-- Some input is VALID. -/
def anyValid (s : State) : Bool := (List.range 4).any fun q => inputPresent s q && s.flag CLK_REF_STATUS_VALID q

/-- Ask for a domain's switch by hardware (R412): held PENDING until the source is READY. -/
def hardwareSwitch (s : State) (n src : Nat) (ready : Bool) : State :=
  if ready then
    { (s.put (CLK_DOMAIN_PENDING n) 0) with clocks := { s.clocks with
        switches := Tab.set s.clocks.switches n (Tab.at s.clocks.switches n [] ++ [src]) } }
  else s.put (CLK_DOMAIN_PENDING n) 1

/-- The source is READY for a domain. -/
def domainReady (s : State) (n src : Nat) : Bool :=
  if src = 0 then true
  else if src = 1 then s.on CLK_OSC_READY
  else if src ≤ 4 then s.on CLK_ROOT_READY
  else if n = 1 then anyValid s
  else s.on (CLK_NIB_PLL_LOCKED (src - 5))

/-- The switches that hardware has asked for and that wait for READY go on once it has risen (R412). -/
def releasePending (s : State) : State :=
  s.each ((List.range 32).filter fun n => s.on (CLK_DOMAIN_PENDING n) && n != 1) fun s n =>
    let src := s.get (CLK_DOMAIN_SOURCE n)
    if domainReady s n src then hardwareSwitch s n src true else s

/-- The boot ROM moves the Scribes from the oscillator to root ÷ 8 once the root is READY (R404, R558 step 4). -/
def bootClock (s : State) : State :=
  let booting := match s.boot.stage with | .held | .running | .stopped => false | _ => true
  if booting && s.on CLK_ROOT_READY && s.get (CLK_DOMAIN_SOURCE 0) == 1 then hardwareSwitch (s.put (CLK_DOMAIN_SOURCE 0) 2) 0 2 true else s

/-- The backstop clock follows any valid input, and falls back to the oscillator while none is valid (R405). -/
def followBackstop (s : State) : State :=
  if s.get (CLK_DOMAIN_SOURCE 1) ≠ 6 then s else
  let want := if anyValid s then 6 else 1
  let going := (Tab.at s.clocks.switches 1 []).getLast?.getD (s.get (CLK_DOMAIN_ACTIVE 1))
  if going = want then s.put (CLK_DOMAIN_PENDING 1) 0 else hardwareSwitch s 1 want (want == 6 || s.on CLK_OSC_READY)

/-! ### Monitors (R406) -/

/-- A monitor trips on an input that was valid. -/
def tripInput (s : State) (q : Nat) : State :=
  if !inputPresent s q || !s.flag CLK_REF_STATUS_VALID q then s else
  let s := ((s.inc CLK_REF_STATUS_TRIPS).setFlag CLK_REF_STATUS_TRIPPED q).setFlag CLK_REF_STATUS_VALID q false
  let s := s.setFlag CLK_REF_STATUS_READY q false
  let s := if (List.range 5).any (sourceReady s) then event s 0xD0 434 q else s
  let users := (List.range 5).filter fun l => loopRuns s l && loopActive s l == q && !(loopOf s l).coast
  followBackstop (s.each users fun s l => loseReference s l none)

/-- REFCLK_LOSS (R406). -/
def execRefclkLoss (input : Fin 4) (s : State) : Host.Outcome State Fault Refusal := .next (tripInput s input)

/-- REFCLK_FREQUENCY_TRIP (R406): the frequency monitor acts only while CLK_OSC.READY is 1. -/
def execRefclkFrequencyTrip (input : Fin 4) (s : State) : Host.Outcome State Fault Refusal :=
  .next (if s.on CLK_OSC_READY then tripInput s input else s)

/-- REFCLK_VALID (R406). -/
def execRefclkValid (input : Fin 4) (s : State) : Host.Outcome State Fault Refusal :=
  .next (if inputPresent s input then followBackstop (s.setFlag CLK_REF_STATUS_VALID input) else s)

/-- Every loop that waits for a source takes one. -/
def retakeAll (s : State) : State := s.each (List.range 5) fun s l => if loopRuns s l then retake s l else s

/-- REFCLK_READY (R406 to R408): after 100 µs of VALID; pending switches go on and coasting ends. -/
def execRefclkReady (input : Fin 4) (s : State) : Host.Outcome State Fault Refusal :=
  .next (if inputPresent s input && s.flag CLK_REF_STATUS_VALID input then retakeAll (s.setFlag CLK_REF_STATUS_READY input) else s)

/-! ### Loops -/

/-- PLL_RELOCK (R407): the loop is locked again, and the switches that waited for it go on. -/
def execPllRelock (loop : Fin 11) (s : State) : Host.Outcome State Fault Refusal :=
  .next (if !loopRuns s loop || (loopOf s loop).coast then s
    else if (loopOf s loop).holding && !(loopOf s loop).relock then s
    else releasePending (bootClock (setLoop s loop {})))

/-- A SerDes PLL that coasts takes every lane of its quadrant to Detect; the towers' and nib loops coast with the root
(R408). -/
def coastLoop (s : State) (l : Nat) : State :=
  let start := l == 0 && s.clocks.oscLock
  let s := setLoop s l { coast := true }
  let s := report s { type := 0xD1, source := 434, severity := if start then some 0 else none, detail := BitVec.ofNat 64 l }
  if 1 ≤ l ∧ l ≤ 4 then quadToDetect s (l - 1)
  else if l = 0 then s.each [5, 6, 7, 8, 9, 10] fun s k => if loopRuns s k then setLoop s k { coast := true } else s
  else s

/-- PLL_COAST (R408): no READY source 1 µs after the trip. -/
def execPllCoast (loop : Fin 11) (s : State) : Host.Outcome State Fault Refusal :=
  .next (
    let x := loopOf s loop
    if x.holding && !x.relock && !x.coast && loopRuns s loop then coastLoop s loop else s)

/-- COAST_ESCALATION (R415). -/
def execCoastEscalation (loop : Fin 11) (s : State) : Host.Outcome State Fault Refusal :=
  .next (
    let x := loopOf s loop
    if x.coast && !x.escalated then event (setLoop s loop { x with escalated := true }) 0xD2 434 loop else s)

/-- PLL_LOCK_LOST (R410): treated as a lost reference. -/
def execPllLockLost (loop : Fin 11) (s : State) : Host.Outcome State Fault Refusal :=
  .next (if !loopRuns s loop || (loopOf s loop).coast || (loopOf s loop).holding then s else
    let s := event s 0xD4 434 loop
    if 5 ≤ loop.val then setLoop s loop { holding := true, relock := true }
    else loseReference s loop (some (loopActive s loop)))

/-! ### The scribe oscillator (R404, R405) -/

/-- OSC_LOCK_COMPLETE (R404): READY rises, and what waited for the oscillator takes it. -/
def execOscLockComplete (trim : BitVec 8) (s : State) : Host.Outcome State Fault Refusal :=
  .next (if !s.clocks.oscLock then s else
    let s := (s.put CLK_OSC_TRIM trim.toNat).put CLK_OSC_READY 1
    releasePending (followBackstop (retakeAll { s with clocks := { s.clocks with oscLock := false } })))

/-- OSC_OUT_OF_RANGE (R405): monitored against any valid input. -/
def execOscOutOfRange (s : State) : Host.Outcome State Fault Refusal :=
  .next (if !anyValid s || !s.on CLK_OSC_READY then s else
    event { (s.put CLK_OSC_READY 0) with clocks := { s.clocks with oscLock := true } } 0xD5 434)

/-- A write of CLK_OSC. -/
def writeOsc (s : State) (v : BitVec 64) : State :=
  if v.getLsbD 0 then { s with clocks := { s.clocks with oscLock := true } } else s

/-- OSC_RELOCK (R417). -/
def execOscRelock (value : BitVec 64) (s : State) : Host.Outcome State Fault Refusal := .next (writeOsc s value)

/-! ### Domains (R412, R413) -/

/-- Table 13-7: the sources a domain may take. -/
def domainAllows (s : State) (n src : Nat) : Bool :=
  if n = 0 then src == 1 || src == 2
  else if n = 1 then src == 1 || src == 6
  else if 16 ≤ n ∧ n - 16 < s.variant.clusters then
    src == 0 || (if freeMode s then src == 5 || src == 6 else src == 3 || src == 4)
  else false

/-- A requested switch (R412, R417). -/
def writeDomain (s : State) (n : Nat) (v : BitVec 64) : State :=
  let s := if v.getLsbD 11 then s.put (CLK_DOMAIN_REFUSED n) 0 else s
  let src := v.toNat % 16
  if src = s.get (CLK_DOMAIN_SOURCE n) then s
  else if !domainAllows s n src then notice s 434
  else if !domainReady s n src then event (s.put (CLK_DOMAIN_REFUSED n) 1) 0xD6 434 n
  else
    let s := s.put (CLK_DOMAIN_SOURCE n) src
    { s with clocks := { s.clocks with switches := Tab.set s.clocks.switches n (Tab.at s.clocks.switches n [] ++ [src]) } }

/-- DOMAIN_SWITCH_REQUEST (R412). -/
def execDomainSwitchRequest (domain : Fin 32) (value : BitVec 64) (s : State) : Host.Outcome State Fault Refusal :=
  .next (if absentUnit s.variant .CLK_DOMAIN domain 0 then s else writeDomain s domain value)

/-- DOMAIN_SWITCH_COMPLETE (R413): the oldest switch of the domain completes. -/
def execDomainSwitchComplete (domain : Fin 32) (s : State) : Host.Outcome State Fault Refusal :=
  .next (
    match Tab.at s.clocks.switches domain [] with
    | [] => s
    | src :: rest =>
      let s := s.put (CLK_DOMAIN_ACTIVE domain) src
      { s with clocks := { s.clocks with
          switches := if rest.isEmpty then Tab.del s.clocks.switches domain else Tab.set s.clocks.switches domain rest } })

/-! ### Gates (R414) -/

/-- A gate is in use. -/
def gateUsed (s : State) (n : Nat) : Bool := s.on (CLK_GATE_ON n) || s.on (CLK_GATE_IN_USE n)

/-- Turn a gate on, its ancestors first. -/
def gateOn : Nat → State → Nat → State
  | 0, s, _ => s
  | fuel + 1, s, n =>
    if s.on (CLK_GATE_ON n) then s else
    let p := s.get (CLK_GATE_PARENT n)
    let s := if p = n then s else gateOn fuel s p
    (s.put (CLK_GATE_ON n) 1).put (CLK_GATE_IN_USE n) 1

/-- A gate has a child in use. -/
def childUsed (s : State) (n : Nat) : Bool :=
  (List.range 4096).any fun m => m != n && s.get (CLK_GATE_PARENT m) == n && gateUsed s m

/-- A write of a gate (R414). -/
def writeGate (s : State) (n : Nat) (v : BitVec 64) : State :=
  let s := if v.getLsbD 2 then s.put (CLK_GATE_REFUSED n) 0 else s
  if v.getLsbD 0 then gateOn 4096 s n
  else if !s.on (CLK_GATE_ON n) then s
  else if childUsed s n then event (s.put (CLK_GATE_REFUSED n) 1) 0xD6 434 n
  else (s.put (CLK_GATE_ON n) 0).put (CLK_GATE_IN_USE n) 0

/-- GATE_WRITE (R414). -/
def execGateWrite (gate : Fin 4096) (value : BitVec 64) (s : State) : Host.Outcome State Fault Refusal :=
  .next (writeGate s gate value)

/-! ### Outputs and nib loops (R399, R402) -/

/-- A write of CLK_OUT: its source changes under the switching rules; a source not READY is refused, and a reserved one
leaves SOURCE unchanged with a Notice (R12). -/
def writeClkOut (s : State) (o : Nat) (v : BitVec 64) : State :=
  let src := v.toNat % 8
  let s := s.put (CLK_OUT_ENABLE o) (bitsOf v.toNat 3 1)
  if 4 < src then notice s 434
  else if src = s.get (CLK_OUT_SOURCE o) then s
  else if !(if src = 4 then s.on CLK_ROOT_READY else sourceReady s src) then event s 0xD6 434 (32 + o)
  else s.put (CLK_OUT_SOURCE o) src

/-- CLK_OUT_WRITE (R399, R412). -/
def execClkOutWrite (out : Fin 2) (value : BitVec 64) (s : State) : Host.Outcome State Fault Refusal :=
  .next (writeClkOut s out value)

/-- A write of CLK_NIB_PLL: in free mode only, with no check of the limits of R402. -/
def writeNibPll (s : State) (k : Nat) (v : BitVec 64) : State :=
  if freeMode s then s.put (CLK_NIB_PLL_FREQ_MHZ k) (v.toNat % 4096) else s

/-- NIB_PLL_WRITE (R402). -/
def execNibPllWrite (pll : Fin 2) (value : BitVec 64) (s : State) : Host.Outcome State Fault Refusal :=
  .next (writeNibPll s pll value)

/-- CROSSING_OVERRUN (R402): a detected overrun of the mesh crossing in free mode is Fatal. -/
def execCrossingOverrun (s : State) : Host.Outcome State Fault Refusal :=
  .next (if freeMode s then event s 0xD7 434 else s)

end Sys2Proof.Machine
end

