-- ==== Sys2Proof/Machine/Rubrics.lean ====
section
/-! DEFINITION. Scribes, rubrics and their images (R351 to R357): starting, stopping, restarting and moving a rubric,
and the checks an image passes. -/

namespace Sys2Proof.Machine

/-! ### Images (R304, R356, Tables 11-7 and 12-8) -/

/-- Bytes `n` from offset `o` of an image. -/
def slice (l : List (BitVec 8)) (o n : Nat) : List (BitVec 8) := (l.drop o).take n

/-- The little-endian number at an offset. -/
def field (l : List (BitVec 8)) (o n : Nat) : Nat := leNat (slice l o n)

/-- Little-endian bytes of a 256-bit digest as an image holds them, first byte first. -/
def digestOf (l : List (BitVec 8)) : BitVec 256 := BitVec.ofNat 256 (leNat l)

/-- The body of an image: what stands between the header and the public key. -/
def imageBody (l : List (BitVec 8)) : List (BitVec 8) := slice l 256 (l.length - 256 - 1312 - 2420)

/-- The public key of an image, and its signature. -/
def imageKey (l : List (BitVec 8)) : List (BitVec 8) := slice l (l.length - 2420 - 1312) 1312
def imageSignature (l : List (BitVec 8)) : List (BitVec 8) := slice l (l.length - 2420) 2420

/-- Bytes of the code of an image: its groups (R304). -/
def codeBytes (syllables : Nat) : Nat := ceilDiv syllables 4 * 10

/-- The message of an image's signature: the SHA3-256 digest of header, body and public key. -/
def signedPart (l : List (BitVec 8)) : List (BitVec 8) := leBytes 32 (Config.sha3 (l.take (l.length - 2420))).toNat

/-- The fuse region of the usable slot whose digest is that of the image's public key: an owner slot, or a vendor slot
when VENDOR is set. -/
def signerOf (s : State) (l : List (BitVec 8)) (vendor : Bool) : Option Nat :=
  let d := Config.sha3 (imageKey l)
  (([7, 8, 9, 10] ++ if vendor then [4, 5, 6] else []).find? fun n => slotUsable s n && slotHash s n == d)

/-- Return codes of Table 11-10. -/
def mbSuccess : Nat := 0
def mbBusy : Nat := 1
def mbInvalid : Nat := 2
def mbUnsupported : Nat := 3
def mbDenied : Nat := 4
def mbSignature : Nat := 5
def mbRollback : Nat := 6
def mbNospace : Nat := 7
def mbNotFound : Nat := 8
def mbTimeout : Nat := 9
def mbConflict : Nat := 10
def mbRefused : Nat := 11

/-- The layout checks that rubric and kernel images share: magic, versions, lengths and zero reserved fields. -/
def layoutOk (l : List (BitVec 8)) (magic code data : Nat) (zeros : List (Nat × Nat)) : Bool :=
  decide (256 + 1312 + 2420 ≤ l.length) && field l 0 4 == magic && field l 4 2 == 1 && field l 6 2 == 0x100
    && field l 8 4 == l.length && (imageBody l).length == codeBytes code + data
    && zeros.all fun (o, n) => field l o n == 0

/-- The checks of R356 that rubric and kernel images share, in the order INVALID, SIGNATURE, DENIED, ROLLBACK: the
return code, or the key slot. `restricted`: the image names the FUS_ or COL_ write grant. -/
def verifyImage (s : State) (l : List (BitVec 8)) (vendor restricted : Bool) (version : Nat) : Nat ⊕ Nat :=
  match signerOf s l vendor with
  | none => .inl mbSignature
  | some n =>
    if !Config.mldsaVerify (imageKey l) (signedPart l) (imageSignature l)
        || digestOf (slice l 0x60 32) != Config.sha3 (imageBody l) then .inl mbSignature
    else if s.on FUS_STATUS_QUARANTINE && (!vendor || (restricted && !vendor)) then .inl mbDenied
    else if version < s.get FUS_STATUS_MIN_SECURITY then .inl mbRollback
    else .inr n

/-- What a rubric image spells (Table 11-7). -/
def rubricOf (l : List (BitVec 8)) : Rubric :=
  { role := field l 0xC 2, vendor := bit (field l 0xE 2) 0, code := field l 0x10 4, entry := BitVec.ofNat 32 (field l 0x14 4)
    data := slice (imageBody l) (codeBytes (field l 0x10 4)) (field l 0x18 4), units := field l 0x1C 4
    readGrant := BitVec.ofNat 16 (field l 0x20 2), writeGrant := BitVec.ofNat 16 (field l 0x22 2)
    mask := BitVec.ofNat 32 (field l 0x24 4), slots := BitVec.ofNat 64 (field l 0x28 8), version := field l 0x30 4
    name := slice l 0x40 32, digest := Config.sha3 l }

/-- The layout of a rubric image: sizes that fit a Scribe, no reserved value (R356, Table 11-7). -/
def rubricLayoutOk (l : List (BitVec 8)) : Bool :=
  let r := rubricOf l
  layoutOk l 0x42555256 r.code (field l 0x18 4) [(0x35, 11), (0x80, 128)] && decide (r.role < 7) && decide (field l 0xE 2 < 2)
    && decide (1 ≤ r.code) && decide (r.code ≤ 52428) && decide (field l 0x18 4 ≤ 262144)
    && (decide (field l 0x34 1 < 8) || field l 0x34 1 == 0xFF)

/-! ### Working memory (R311, R351) -/

/-- A run of free 2 MiB units of Scribe working memory, the lowest (R351). -/
def freeRegion (s : State) (units : Nat) : Option Nat :=
  (List.range 256).find? fun b => decide (b + units ≤ 256) &&
    s.rubrics.all fun (_, r) => decide (r.region + r.units ≤ b) || decide (b + units ≤ r.region)

/-! ### Scribes -/

/-- A Scribe that holds no rubric and has not failed. -/
def scribeFree (s : State) (k : Nat) : Bool :=
  s.get (MBX_SCRIBE_STATE k) == 0 && s.get (MBX_SCRIBE_HANDLE k) == 0 && !s.scribes.handover.any fun x => x.2 == k

/-- The highest-numbered free Scribe. -/
def freeScribe (s : State) : Option Nat := [7, 6, 5, 4, 3, 2, 1, 0].find? (scribeFree s)

/-- The loader runs on the highest-numbered Scribe that holds no rubric, and pauses when there is none (R351, R355). -/
def syncLoader (s : State) : State :=
  let l := freeScribe s
  let s := s.each (List.range 8) fun s k => s.putB (MBX_SCRIBE_LOADER k) (l == some k)
  let s := match l with | some k => s.put MBX_CTRL_LOADER_SCRIBE k | none => s
  { s with scribes := { s.scribes with loader := l } }

/-- The Scribe a rubric is on. -/
def scribeOf (s : State) (h : Nat) : Option Nat := (List.range 8).find? fun k => h != 0 && s.get (MBX_SCRIBE_HANDLE k) == h

def rubricAt (s : State) (k : Nat) : Option Rubric :=
  if s.get (MBX_SCRIBE_HANDLE k) = 0 then none else Tab.find s.rubrics (s.get (MBX_SCRIBE_HANDLE k))

def setRubric (s : State) (h : Nat) (r : Rubric) : State := { s with rubrics := Tab.set s.rubrics h r }

/-- A core stops and drops what it has outstanding; its memory is no longer a program's. -/
def haltCore (s : State) (k : Nat) : State :=
  modCore s k fun c => { nextSlot := c.nextSlot, fetchFolio := c.fetchFolio, queue := c.queue, lastGroup := c.lastGroup, stale := c.stale
                         mem := c.mem }

/-- The event-target fields of a rubric's role and slots name its Scribe (R352); slot 48 wakes placement (R156). -/
def setTargets (s : State) (r : Rubric) (k : Nat) : State :=
  let s := s.each ((List.range 64).filter fun n => r.slots.getLsbD n) fun s n => s.put (RUL_EVENT_CTRL_WAKE n) (2 ^ k)
  if r.role = 1 then s.put (RUL_EVENT_CTRL_WAKE 48) (2 ^ k)
  else if r.role = 2 then s.put ACC_CTRL_RUBRIC_SCRIBE k
  else if r.role = 3 then s.put THM_CTRL_EVENT_SCRIBE k
  else if r.role = 4 then (s.put SEL_CTRL_EVENT_SCRIBE k).put BLT_CTRL_EVENT_SCRIBE k
  else s

/-- Restarts of a rubric in the last 64 folios (R354). -/
def recentRestarts (s : State) (r : Rubric) : List Nat := r.restarts.filter fun f => decide (s.folio < f + 64)

/-- A Scribe takes a rubric, in a state of Table 11-14. -/
def seat (s : State) (k : Nat) (r : Rubric) (state : Nat) : State :=
  let s := ((s.put (MBX_SCRIBE_HANDLE k) r.handle).put (MBX_SCRIBE_ROLE k) r.role).put (MBX_SCRIBE_STATE k) state
  setTargets ((s.put (MBX_SCRIBE_BLOCKED k) 0).put (MBX_SCRIBE_RESTARTS k) (recentRestarts s r).length) r k

/-- The node arms slot 48, periodic with PERIOD 1,024, PHASE 0 and WRITE 0, when a placement rubric starts (R156). -/
def armEpochSlot (s : State) : State :=
  let s := (s.put (RUL_EVENT_TIME_ALL 48) 1024).put (RUL_EVENT_CTRL_WRITE 48) 0 |>.put (RUL_EVENT_CTRL_PERIODIC 48) 1
  noteArm ((s.put (RUL_EVENT_CTRL_ENABLE 48) 1).put (RUL_EVENT_CTRL_ARMED 48) 1) 48

/-- A rubric's program starts on a Scribe (R310, R352, R354): code and data from the verified copy. -/
def startRubric (s : State) (k h : Nat) : State :=
  match Tab.find s.rubrics h with
  | none => s
  | some r =>
    let r := { r with started := s.ruling.gen, beat := false, stopped := false }
    let s := seat (setRubric s h r) k r 1
    let s := if r.role = 1 then armEpochSlot s else s
    let n := (recentRestarts s r).length
    let c := core s k
    syncLoader (setCore s k
      { running := true, pc := BitVec.ofNat 64 r.entry.toNat, code := r.code, nextSlot := c.nextSlot, fetchFolio := c.fetchFolio
        regs := Tab.put (Tab.put (Tab.put [] 1 (BitVec.ofNat 64 h) 0) 2 (BitVec.ofNat 64 (r.units * 2 ^ 21)) 0) 3 (BitVec.ofNat 64 n) 0
        mem := putBytes [] 0 r.data })

/-- A Scribe is left without a rubric; a failed one stays failed. -/
def unseat (s : State) (k : Nat) : State :=
  let s := ((s.put (MBX_SCRIBE_HANDLE k) 0).put (MBX_SCRIBE_ROLE k) 0).put (MBX_SCRIBE_BLOCKED k) 0
  let s := (s.put (MBX_SCRIBE_RESTARTS k) 0).put (MBX_SCRIBE_STATE k) (if s.get (MBX_SCRIBE_STATE k) = 3 then 3 else 0)
  haltCore s k

/-- A rubric leaves: its Scribe is free and its working memory returns. -/
def dropRubric (s : State) (h : Nat) : State :=
  let s := match scribeOf s h with | some k => unseat s k | none => s
  syncLoader { s with
    rubrics := Tab.del s.rubrics h
    scribes := { s.scribes with
      handover := s.scribes.handover.filter fun x => x.1 != h, takeover := s.scribes.takeover.filter fun x => x.1 != h } }

/-- Class 0x0C: a rubric restarted or moved (Table 11-3, Table 11-6), to the management rubric. -/
def tellMoved (s : State) (h k : Nat) : State :=
  match (List.range 8).find? fun j => s.get (MBX_SCRIBE_ROLE j) == 6 && s.get (MBX_SCRIBE_HANDLE j) != 0 with
  | some j => postEvent s j (descriptor 0x0C (h + k * 2 ^ 16))
  | none => s

/-- The base rubric of a role is loaded from the firmware and starts on a Scribe (R354, RESTORE_BASE). -/
def loadBase (s : State) (role k : Nat) : State :=
  match Tab.find s.scribes.firmware role with
  | none => s
  | some r =>
    let reg := (freeRegion s r.units).getD 0
    startRubric (setRubric s r.handle { r with region := reg }) k r.handle

/-- A rubric is stopped (R354): a Degraded event; in the place of one that replaced a base rubric the base rubric of its
role is loaded again; a base rubric's role is unserved. -/
def stopRubric (s : State) (h : Nat) : State :=
  match Tab.find s.rubrics h with
  | none => s
  | some r =>
    let k := scribeOf s h
    let s := event (dropRubric s h) 0xB3 (match k with | some k => 404 + k | none => 440) h
    if !r.overBase then s else
    match (match k with | some k => if scribeFree s k then some k else freeScribe s | none => freeScribe s) with
    | some k => loadBase s r.role k
    | none => s

/-- A rubric is restarted (R354), or stopped when it has been restarted 3 times within 64 folios. -/
def restartRubric (s : State) (h : Nat) : State :=
  match Tab.find s.rubrics h, scribeOf s h with
  | some r, some k =>
    let recent := recentRestarts s r
    if 3 ≤ recent.length then stopRubric s h else
    let s := setRubric s h { r with restarts := s.folio :: recent }
    tellMoved (startRubric s k h) h k
  | _, _ => s

/-- A Scribe's program ends (R322): Contained, with its CAUSE and PC (Table 18-4); the rubric restarts. -/
def endScribe (s : State) (k cause : Nat) (pc faddr : BitVec 64) : State :=
  let s := report (s.put (MBX_SCRIBE_LAST_CAUSE k) cause)
    { type := 0xB0, source := 404 + k, master := some (coreMaster k)
      dpa := if faddr.toNat / 2 ^ 62 = 2 then some (faddr.toNat % 2 ^ 52) else none
      detail := BitVec.ofNat 64 (cause * 2 ^ 56 + pc.toNat % 2 ^ 56) }
  restartRubric s (s.get (MBX_SCRIBE_HANDLE k))

/-- A Scribe fails (R355, Table 11-6): it halts, and its rubric moves to the highest-numbered free Scribe, or is stopped
when there is none. -/
def scribeFault (s : State) (k : Nat) : State :=
  if s.get (MBX_SCRIBE_STATE k) = 3 then s else
  let h := s.get (MBX_SCRIBE_HANDLE k)
  let s := event s 0xB2 (404 + k) h
  let s := haltCore ((s.put (MBX_SCRIBE_STATE k) 3).put (MBX_SCRIBE_BLOCKED k) 0) k
  match Tab.find s.rubrics h with
  | none => syncLoader s
  | some r =>
    match freeScribe s with
    | none => stopRubric s h
    | some j =>
      let s := unseat s k
      let s := seat s j r 2
      syncLoader { s with scribes := { s.scribes with takeover := (s.scribes.takeover.filter fun x => x.1 != h) ++ [(h, j)] } }

/-! ### The commands -/

/-- HEARTBEAT_CHECK (R353): at line 0 of a folio, every rubric that has run for a whole folio. -/
def execHeartbeatCheck (s : State) : Host.Outcome State Fault Refusal :=
  .next (
    if s.lineInFolio ≠ 0 || !s.on MBX_CTRL_HEARTBEAT || s.fatal then s else
    let due := (List.range 8).filterMap fun k => match rubricAt s k with
      | some r => if s.get (MBX_SCRIBE_STATE k) = 1 ∧ r.started + 1024 ≤ s.ruling.gen then some (k, r) else none
      | none => none
    s.each due fun s (k, r) =>
      if r.beat || s.on (MBX_SCRIBE_BLOCKED k) then setRubric s r.handle { r with beat := false }
      else restartRubric (event s 0xB1 (404 + k) r.handle) r.handle)

/-- SCRIBE_FAULT (R355). -/
def execScribeFault (scribe : Fin 8) (s : State) : Host.Outcome State Fault Refusal := .next (scribeFault s scribe)

/-- TAKEOVER_COPY_COMPLETE (R355, Table 11-6): the oldest takeover's code and data have been copied and its rubric
starts. -/
def execTakeoverCopyComplete (s : State) : Host.Outcome State Fault Refusal :=
  .next (
    match s.scribes.takeover with
    | [] => s
    | (h, k) :: rest => tellMoved (startRubric { s with scribes := { s.scribes with takeover := rest } } k h) h k)

/-- RUBRIC_HANDOVER (R357): at line 0 of a folio each committed rubric replaces the rubric of its role. -/
def execRubricHandover (s : State) : Host.Outcome State Fault Refusal :=
  .next (
    if s.lineInFolio ≠ 0 then s else
    let due := s.scribes.handover
    let s := { s with scribes := { s.scribes with handover := [] } }
    s.each due fun s (h, k) =>
      match Tab.find s.rubrics h with
      | none => s
      | some r =>
        let old := (s.rubrics.filter fun (q, o) => q != h && o.role == r.role && !o.stopped)
        let above := old.any fun (_, o) => o.base || o.overBase
        let s := s.each old fun s (q, _) => dropRubric s q
        startRubric (setRubric s h { r with overBase := above }) k h)

/-- LOAD_SESSION_EXPIRY (R357): sessions left uncommitted for 1,024 folios are dropped. -/
def execLoadSessionExpiry (s : State) : Host.Outcome State Fault Refusal :=
  .next { s with scribes := { s.scribes with sessions := s.scribes.sessions.filter fun (_, x) => decide (s.folio < x.folio + 1024) } }

end Sys2Proof.Machine
end

