-- ==== Sys2Proof/Machine/Heat.lean ====
section
/-! DEFINITION. Heat, peak operation and wear (chapter 15): the thermal sample of a line, the thermal steps, hot layers,
the middle-layer model, peak, the fast limiter, boost credit and THERMTRIP; and the thermal commands. -/

namespace Sys2Proof.Machine

/-! ### Temperatures (R441, R448). All in 0.25 °C. -/

/-- The tower of a cluster. -/
def towerOf (c : Nat) : Nat := c / 4

/-- The cluster reading: the higher of the two nib-die sensors. -/
def clusterReading (s : State) (c : Nat) : Int := imax (sensorTemp s (64 + 2 * c)) (sensorTemp s (65 + 2 * c))

/-- The base-die sensors under a cluster that count: a faulted one is replaced by the other (R441). -/
def baseUnder (s : State) (c : Nat) : List Int :=
  let l := ([2 * c, 2 * c + 1].filter fun i => !sensorFault s i).map (sensorTemp s)
  if l.isEmpty then [sensorTemp s (2 * c), sensorTemp s (2 * c + 1)] else l

/-- The cluster temperature: the reading, or the model value while suspect (R442, R449). -/
def clusterTemp (s : State) (c : Nat) : Int :=
  signed 12 (if s.on (THM_CLUSTER_SUSPECT c) then s.get (THM_CLUSTER_MODEL c) else s.get (THM_CLUSTER_READING c))

/-- The model value of R448 for the filtered power of the cluster in mW, rounded down to 0.25 °C. -/
def modelTemp (s : State) (c mw : Nat) : Int :=
  let base := (baseUnder s c).foldl imax (-512)
  let l0 := sensorTemp s (96 + 68 * towerOf c + c % 4)
  (25000 * (base + l0) + 2 * ((s.get THM_CTRL_THETA * mw : Nat) : Int)) / 50000

/-- Layers of a tower that the variant has, the spare one included. -/
def layersOf (s : State) : List Nat := List.range s.variant.layers ++ [16]

/-- A sensor of a die has faulted. -/
def dieFault (s : State) (t l : Nat) : Bool := (dieSensors t l).any (sensorFault s)

/-- Temperature of thermal unit `u`: cluster, or 16 + tower for the tower's L0. -/
def unitTemp (s : State) (u : Nat) : Int := if u < 16 then clusterTemp s u else signed 12 (s.get (THM_TOWER_L0_TEMP (u - 16)))

/-- The rise of a unit over the last 4,096 lines (R442); over the lines there are while they are fewer. -/
def rise (s : State) (u : Nat) : Int :=
  match Tab.at s.thermal.history u [] with
  | [] => 0
  | t :: rest => t - (rest.getLast?.getD t)

/-- The rise limit in 1/1,000 of 0.25 °C: RISE_LIMIT × 0.125 °C/ms × 4.096 ms. -/
def riseLimit (s : State) : Int := (s.get THM_LIMITS_RISE_LIMIT * 2048 : Nat)

/-! ### Events (R445) -/

/-- A class 0x09 event: KIND, INDEX and VALUE (R445). -/
def tellHeat (s : State) (kind index : Nat) (value : Int) : State :=
  postEvent s (s.get THM_CTRL_EVENT_SCRIBE) (descriptor 9 (kind + 16 * (index % 256) + 4096 * (satSigned 12 value)))

/-! ### Steps (R443, R444) -/

/-- The throttle step in force on a cluster (R436, R444, R452). -/
def clusterStep (s : State) (c : Nat) : Nat :=
  max (max (s.get (THM_CLUSTER_STEP c)) (limiterNib s)) (if s.on THM_CTRL_FAST_ACTIVE then 8 else 0)

/-- NIB_CLUSTER follows the cluster's power, clock and step (Table 12-19). -/
def showCluster (s : State) (c : Nat) : State :=
  let up := clusterUp s c
  let clock := if !up then 0 else if s.flag THM_PEAK_ACTIVE c then 2 else 1
  ((s.putB (NIB_CLUSTER_POWERED c) up).put (NIB_CLUSTER_CLOCK c) clock).put (NIB_CLUSTER_THROTTLE c) (clusterStep s c)

/-- The source of a cluster's clock, off, sustained or peak, in its mode (Tables 13-2 and 13-7). -/
def clusterSource (s : State) (up peak : Bool) : Nat :=
  if !up then 0 else if freeMode s then (if peak then 6 else 5) else if peak then 4 else 3

/-- The hardware switches a cluster's clock (R412, R444). -/
def driveClock (s : State) (c : Nat) : State :=
  let src := clusterSource s (clusterUp s c) (s.flag THM_PEAK_ACTIVE c)
  let s := showCluster s c
  if s.get (CLK_DOMAIN_SOURCE (16 + c)) = src then s
  else hardwareSwitch (s.put (CLK_DOMAIN_SOURCE (16 + c)) src) (16 + c) src (domainReady s (16 + c) src)

/-- Set a cluster's thermal step request, with its event (R443, R445). -/
def setClusterStep (s : State) (c n : Nat) : State :=
  if s.get (THM_CLUSTER_STEP c) = n then s else
  tellHeat (showCluster (s.put (THM_CLUSTER_STEP c) n) c) 0 c (clusterTemp s c)

/-- Set a tower's channel step request, with its event. -/
def setTowerStep (s : State) (t n : Nat) : State :=
  if s.get (THM_TOWER_CHANNEL_STEP t) = n then s else
  tellHeat (s.put (THM_TOWER_CHANNEL_STEP t) n) 0 (0x80 + t) (signed 12 (s.get (THM_TOWER_MAX_TEMP t)))

/-- A thermal step above 0 is a Notice once in each folio for its cluster, or for its tower under 0x80 (Table 15-8). -/
def noteStep (s : State) (unit step : Nat) : State := if step = 0 then s else eventOnce s 0xF2 437 unit unit

/-! ### Boost (R453, R454) -/

/-- The calendar day of the boost buckets; powered days while the calendar is not set (R453). -/
def boostDay (s : State) : Nat :=
  if s.colophon.rtcValid then s.colophon.rtc / 32768 / 86400 else s.colophon.life.seconds / 86400

/-- Powered and peak milliseconds of a cluster over the current day and the 29 before it. -/
def boostWindow (s : State) (c : Nat) : Nat × Nat :=
  let d := boostDay s
  s.colophon.life.boost.foldl (fun (p, k) (key, x) =>
    if key / 2 ^ 24 = c ∧ d < key % 2 ^ 24 + 30 ∧ key % 2 ^ 24 ≤ d then (p + x.1, k + x.2) else (p, k)) (0, 0)

/-- A cluster's boost credit is above 0: 0.15 × powered time exceeds its time at peak, the minute under way included. -/
def hasCredit (s : State) (c : Nat) : Bool :=
  let (p, k) := boostWindow s c
  let (pl, kl) := Tab.at s.colophon.clusterUse c (0, 0)
  decide (100 * (1000 * k + kl) < 15 * (1000 * p + pl))

/-- THM_BOOST shows a cluster's window in seconds. -/
def showBoost (s : State) (c : Nat) : State :=
  let (p, k) := boostWindow s c
  (s.put (THM_BOOST_POWERED_SECONDS c) (p / 1000)).put (THM_BOOST_PEAK_SECONDS c) (k / 1000)

/-! ### Peak (R450, R451, R458) -/

/-- The lowest-numbered condition of R450 that fails for a cluster. -/
def failing (s : State) (c : Nat) : Option Nat :=
  let t := towerOf c
  let peak : Int := 4 * (s.get THM_LIMITS_NIB_PEAK_C : Nat)
  if !clusterUp s c then some 1
  else if s.get PWR_CLASS_LIMIT_STEP ≠ 0 ∨ s.on THM_CTRL_FAST_ACTIVE then some 2
  else if !(clusterTemp s c :: baseUnder s c).all (· < peak) then some 3
  else if 4 * (s.get THM_LIMITS_PEAK_L0_C : Int) ≤ signed 12 (s.get (THM_TOWER_L0_TEMP t)) then some 4
  else if s.thermal.riseTrip.contains c then some 5
  else if !hasCredit s c then some 6
  else if clusterStep s c ≠ 0 then some 7
  else none

/-- A cluster at peak is divided (R450): LAST_END, KIND 0x1 and what the condition asks for. `why` 8 is a grant
withdrawn. -/
def endPeak (s : State) (c why : Nat) : State :=
  if !s.flag THM_PEAK_ACTIVE c then s else
  let s := ((s.setFlag THM_PEAK_ACTIVE c false).put THM_PEAK_LAST_END why).put THM_PEAK_LAST_END_CLUSTER c
  let s := tellHeat (driveClock s c) 1 c (clusterTemp s c)
  if 3 ≤ why ∧ why ≤ 5 then eventOnce (s.put (THM_CLUSTER_REARM_WAIT c) 1) 0xF4 437 0 c
  else if why = 6 then event (s.put (THM_CLUSTER_BUDGET_OUT c) 1) 0xF6 437 c
  else s

/-- A cluster that waits is rearmed (R451): L0 has cooled and neither the cluster nor its tower still rises. -/
def rearm (s : State) (c : Nat) : State :=
  if !s.on (THM_CLUSTER_REARM_WAIT c) && !s.thermal.riseTrip.contains c then s else
  let t := towerOf c
  let cooled := decide (signed 12 (s.get (THM_TOWER_L0_TEMP t)) ≤
    4 * (s.get THM_LIMITS_PEAK_L0_C : Int) - 4 * (s.get THM_LIMITS_REARM_DROP_C : Int))
  let calm := decide (2000 * rise s c ≤ riseLimit s) && decide (2000 * rise s (16 + t) ≤ riseLimit s)
  if cooled && calm then
    { s.put (THM_CLUSTER_REARM_WAIT c) 0 with thermal := { s.thermal with riseTrip := s.thermal.riseTrip.filter (· != c) } }
  else s

/-- A cluster that rubric code has put on its mode's peak source counts as at peak, granted or not (R402, R451). -/
def noteFast (s : State) (c : Nat) : State :=
  let src := s.get (CLK_DOMAIN_SOURCE (16 + c))
  let mhz := if src = 6 then s.get (CLK_NIB_PLL_FREQ_MHZ 1) else 1600
  if (src = 4 ∨ src = 6) ∧ (if freeMode s then 1400 else 1371) < mhz ∧ !s.flag THM_PEAK_ACTIVE c then
    s.setFlag THM_PEAK_ACTIVE c
  else s

/-- Evaluate peak for a cluster at a line (R450): ELIGIBLE, the end of peak, and peak on a standing grant. -/
def judgePeak (s : State) (c : Nat) : State :=
  let s := noteFast (rearm s c) c
  let s := if s.on (THM_CLUSTER_BUDGET_OUT c) && hasCredit s c then s.put (THM_CLUSTER_BUDGET_OUT c) 0 else s
  let f := failing s c
  let s := s.setFlag THM_PEAK_ELIGIBLE c f.isNone
  match f with
  | some why => endPeak s c why
  | none =>
    if s.flag THM_PEAK_GRANT c && !s.flag THM_PEAK_ACTIVE c && !s.on (THM_CLUSTER_REARM_WAIT c) then
      driveClock (s.setFlag THM_PEAK_ACTIVE c) c
    else s

/-- A write of THM_PEAK.GRANT (R450, R458): a new grant while a condition fails is refused with KIND 0x2 and stands; a
withdrawal ends peak. -/
def writePeak (s : State) (v : BitVec 64) : State :=
  let old := s.get THM_PEAK_GRANT
  let new := bitsOf (v.toNat &&& presentBits s.variant .THM_PEAK) 16 16
  let s := s.put THM_PEAK_GRANT new
  s.each (List.range s.variant.clusters) fun s c =>
    if bit new c && !bit old c then (if (failing s c).isSome then tellHeat s 2 c (clusterTemp s c) else s)
    else if bit old c && !bit new c then endPeak s c 8
    else s

/-- PEAK_GRANT_WRITE (R450). -/
def execPeakGrantWrite (value : BitVec 64) (s : State) : Host.Outcome State Fault Refusal := .next (writePeak s value)

/-- The base thermal and peak rubric at line 0 of a folio (R451, assumption 73): a cluster's grant is set while any of its
cores has 4 or more items in its dispatch queue, and cleared after 16 folios in which none has. -/
def thermalRubric (s : State) : State :=
  if s.lineInFolio ≠ 0 || !baseRuns s 3 then s else
  let idle (c : Nat) : Nat :=
    if (List.range 16).any fun i => decide (4 ≤ (core s (8 + 16 * c + i)).queue.length) then 0
    else Tab.at s.thermal.idleFolios c 0 + 1
  let cs := List.range s.variant.clusters
  let grant := cs.foldl (fun w c => if idle c = 0 then setBit w c else if 16 ≤ idle c then clearBit w c else w) (s.get THM_PEAK_GRANT)
  let s := { s with thermal := { s.thermal with idleFolios := cs.foldl (fun t c => Tab.set t c (min 16 (idle c))) s.thermal.idleFolios } }
  writePeak s (BitVec.ofNat 64 (grant * 2 ^ 16))

/-! ### Limits (R442) -/

/-- The programmable limits with their least and greatest values: none may be raised above its reset value. -/
def limitFields : List (Fld × Nat × Nat) :=
  [(THM_LIMITS_INK_THROTTLE_C, 100, 115), (THM_LIMITS_DRAM_THROTTLE_C, 85, 97), (THM_LIMITS_PEAK_L0_C, 80, 95),
   (THM_LIMITS_REARM_DROP_C, 2, 20), (THM_LIMITS_NIB_PEAK_C, 80, 100), (THM_LIMITS_NIB_THROTTLE_C, 85, 105),
   (THM_LIMITS_RISE_LIMIT, 4, 12)]

/-- A write of THM_LIMITS (R442, R460). -/
def writeLimits (s : State) (v : BitVec 64) : State :=
  let val (f : Fld) : Nat := bitsOf v.toNat f.lo f.width
  if limitFields.all fun (f, lo, hi) => decide (lo ≤ val f) && decide (val f ≤ hi) then
    s.each limitFields fun s (f, _) => s.put f (val f)
  else notice s 437

/-- THM_LIMITS_WRITE (R442). -/
def execThmLimitsWrite (value : BitVec 64) (s : State) : Host.Outcome State Fault Refusal := .next (writeLimits s value)

/-- A read of THM_SENSOR (R460): the word, and HIGHEST is cleared. -/
def readSensor (s : State) (i : Nat) : State × BitVec 64 :=
  let w := s.word (THM_SENSOR_TEMP i).addr
  (s.put (THM_SENSOR_HIGHEST i) 0, w)

/-- THM_SENSOR_READ (R460). -/
def execThmSensorRead (sensor : Fin 370) (s : State) : Host.Outcome State Fault Refusal :=
  .next (
    let (s, w) := readSensor s sensor
    s.send (.deskValue (THM_SENSOR_TEMP sensor).addr w))

/-! ### The power class in force (R435, R442) -/

/-- IN_FORCE: the lower of CLASS and MAX_CLASS, one class lower while an Inkwell sensor is hot. -/
def showClass (s : State) : State :=
  s.put PWR_CLASS_IN_FORCE (min (s.get PWR_CLASS_CLASS) (s.get PWR_CLASS_MAX_CLASS) - b2n s.thermal.inkHot)

/-- The cap on mean VIN power in 100 mW (Table 14-6). -/
def powerCap (s : State) : Nat := [3500, 5000, 6500, 8000].getD (s.get PWR_CLASS_IN_FORCE) 3500

/-! ### The sample of a line (R441) -/

/-- Give a cluster up as suspect (R449). -/
def suspect (s : State) (c : Nat) : State :=
  if s.on (THM_CLUSTER_SUSPECT c) then s else
  tellHeat (event (s.put (THM_CLUSTER_SUSPECT c) 1) 0xF0 437 c) 5 c (signed 12 (s.get (THM_CLUSTER_MODEL c)))

/-- A sensor faults (R441): a nib-die fault, or both faults of a base-die pair, make the cluster suspect at once. -/
def faultSensor (s : State) (i : Nat) : State :=
  if sensorFault s i then s else
  let s := event (s.put (THM_SENSOR_FAULT i) 1) 0xF1 437 i
  let s := tellHeat s 7 (i / 2) (i % 2 : Nat)
  if 64 ≤ i ∧ i < 96 then suspect s ((i - 64) / 2)
  else if i < 32 ∧ sensorFault s (2 * (i / 2)) ∧ sensorFault s (2 * (i / 2) + 1) then suspect s (i / 2)
  else s

/-- Take one sensor's sample: its 0.25 °C value, and whether its dual-rail readout read equal. -/
def takeSample (s : State) (i : Nat) (v : BitVec 12) (equal : Bool) : State :=
  if absentSensor s.variant i then s else
  let first := !s.on (THM_SENSOR_VALID i)
  let s := (s.put (THM_SENSOR_VALID i) 1).put (THM_SENSOR_TEMP i) v.toNat
  let s := if first || decide (signed 12 (s.get (THM_SENSOR_HIGHEST i)) < signed 12 v.toNat) then s.put (THM_SENSOR_HIGHEST i) v.toNat else s
  if equal || decide (signed 12 v.toNat < -20) || decide (500 < signed 12 v.toNat) then faultSensor s i else s

/-- The registers of a tower follow its sensors. -/
def showTower (s : State) (t : Nat) : State :=
  let m := (layersOf s).foldl (fun m l => imax m (dieTemp s t l)) (dieTemp s t 0)
  let hottest := ((layersOf s).find? fun l => dieTemp s t l == m).getD 0
  ((s.put (THM_TOWER_L0_TEMP t) (satSigned 12 (dieTemp s t 0))).put (THM_TOWER_MAX_TEMP t) (satSigned 12 m)).put
    (THM_TOWER_HOTTEST_LAYER t) hottest

/-- A layer is hot from now on; its ranks follow at this line edge (R119, R446). -/
def setHot (s : State) (t l : Nat) : State :=
  if s.flag (THM_TOWER_HOT t) l then s else
  tellHeat (s.setFlag (THM_TOWER_HOT t) l) 3 (32 * t + l) (dieTemp s t l)

/-- Hot layers (R446): above 85.0 °C, or with a faulted sensor; lines at or below 83.0 °C are counted for LAYER_COOL. -/
def judgeLayers (s : State) (t : Nat) : State :=
  s.each (layersOf s) fun s l =>
    let d := dieTemp s t l
    let s := if 340 < d ∨ dieFault s t l then setHot s t l else s
    let n := if d ≤ 332 ∧ !dieFault s t l then Tab.at s.thermal.cool (32 * t + l) 0 + 1 else 0
    { s with thermal := { s.thermal with cool := Tab.put s.thermal.cool (32 * t + l) n 0 } }

/-- Count a line for the decay of a unit's step (R443). -/
def countBelow (s : State) (u : Nat) (low : Bool) : State :=
  { s with thermal := { s.thermal with below := Tab.put s.thermal.below u (if low then Tab.at s.thermal.below u 0 + 1 else 0) 0 } }

/-- The throttle limits of a tower and its clusters (R442, Table 15-2). -/
def judgeThrottle (s : State) (t : Nat) : State :=
  let dram := signed 12 (s.get (THM_TOWER_MAX_TEMP t))
  let dl : Int := 4 * (s.get THM_LIMITS_DRAM_THROTTLE_C : Nat)
  let nl : Int := 4 * (s.get THM_LIMITS_NIB_THROTTLE_C : Nat)
  let s := countBelow s (16 + t) (decide (dram ≤ dl - 12))
  let s := if dl ≤ dram then setTowerStep s t (min 8 (s.get (THM_TOWER_CHANNEL_STEP t) + 1)) else s
  s.each ((List.range 4).map (4 * t + ·)) fun s c =>
    let temps := clusterTemp s c :: baseUnder s c
    let s := countBelow s c (temps.all (· ≤ nl - 12) && decide (dram ≤ dl - 12))
    if temps.any (nl ≤ ·) ∨ dl ≤ dram then setClusterStep s c (min 15 (s.get (THM_CLUSTER_STEP c) + 1)) else s

/-- Keep a unit's temperature for the rise over 4,096 lines, and note a trip of the rise limit. -/
def judgeRise (s : State) (u : Nat) : State :=
  let h := (unitTemp s u :: Tab.at s.thermal.history u []).take 4097
  let s := { s with thermal := { s.thermal with history := Tab.set s.thermal.history u h } }
  let s := if u < 16 then s.put (THM_CLUSTER_RISE u) (satSigned 12 (rise s u)) else s
  if 1000 * rise s u < riseLimit s then s else
  let cs := if u < 16 then [u] else (List.range 4).map (4 * (u - 16) + ·)
  { s with thermal := { s.thermal with riseTrip := s.thermal.riseTrip ++ cs.filter fun c => !s.thermal.riseTrip.contains c } }

/-- The model's verdict on a cluster (R449): suspect from the next line after 4 lines 8.0 °C above the reading. -/
def judgeModel (s : State) (c : Nat) : State :=
  let high := decide (signed 12 (s.get (THM_CLUSTER_READING c)) + 32 ≤ signed 12 (s.get (THM_CLUSTER_MODEL c)))
  let n := if high then Tab.at s.thermal.model c 0 + 1 else 0
  let s := { s with thermal := { s.thermal with model := Tab.put s.thermal.model c n 0 } }
  if 4 ≤ n then suspect s c else s

/-- The Inkwell's own limit (R442): one class lower until both sensors read 5 °C below it. -/
def judgeInkwell (s : State) : State :=
  let lim : Int := 4 * (s.get THM_LIMITS_INK_THROTTLE_C : Nat)
  let ts := ([368, 369].filter fun i => !sensorFault s i).map (sensorTemp s)
  let hot := if ts.any (lim ≤ ·) then true else if ts.all (· ≤ lim - 20) then false else s.thermal.inkHot
  showClass { s with thermal := { s.thermal with inkHot := hot } }

/-- The fast limiter (R452): a line above 1.1 × the cap, or 4,096 lines above it, engages it. `power` is the line's VIN
power in 100 mW. -/
def judgeFast (s : State) (power : Nat) : State :=
  let cap := powerCap s
  let t := s.thermal
  let s := { s with thermal := { t with
    fastOver := if cap < power then t.fastOver + 1 else 0, fastUnder := if power < cap then t.fastUnder + 1 else 0 } }
  if s.on THM_CTRL_FAST_ACTIVE || !(decide (11 * cap < 10 * power) || decide (4096 ≤ s.thermal.fastOver)) then s else
  let s := tellHeat (event (s.put THM_CTRL_FAST_ACTIVE 1) 0xF5 437) 6 0 0
  s.each (List.range s.variant.clusters) showCluster

/-- THERMTRIP limit and restart limit of a sensor's die, and the die's code (Tables 15-5 and 15-9). -/
def tripLimit (i : Nat) : Int := if i < 96 then 460 else if i < 368 then 400 else 500
def restartLimit (i : Nat) : Int := if i < 96 then 360 else if i < 368 then 320 else 400
def dieCode (i : Nat) : Nat := if i < 64 then 2 else if i < 96 then 1 else if i < 368 then 3 else 4

/-- A sensor that can trip: a faulted DRAM sensor never does, and a faulted base-die or Inkwell sensor is ignored or
replaced (R441). -/
def mayTrip (s : State) (i : Nat) : Bool := s.on (THM_SENSOR_VALID i) && !(sensorFault s i && !(decide (64 ≤ i) && decide (i < 96)))

/-- THERMTRIP (R455, R456): a sensor at its limit on two consecutive samples drops every rail; the shutdown record and
the restart lock follow. -/
def judgeTrip (s : State) : State :=
  let now := (List.range 370).filter fun i => mayTrip s i && decide (tripLimit i ≤ sensorTemp s i)
  match now.find? fun i => s.thermal.atTrip.contains i with
  | none => { s with thermal := { s.thermal with atTrip := now } }
  | some i =>
    let image := BitVec.ofNat 64 (dieCode i * 2 ^ 56 + i * 2 ^ 44 + s.get (THM_SENSOR_TEMP i) * 2 ^ 32)
    toStandby { s with colophon := { s.colophon with
        tripImage := image, tripNew := true, restartLock := true, lockCycled := false } } 8

/-- Count the line for boost: powered lines and lines at peak (R402, R453). A line is taken as 1 µs. -/
def countUse (s : State) (c : Nat) : State :=
  if !clusterUp s c then s else
  let (p, k) := Tab.at s.colophon.clusterUse c (0, 0)
  let src := s.get (CLK_DOMAIN_ACTIVE (16 + c))
  let fast := freeMode s && (src == 5 || src == 6) && decide (1400 < s.get (CLK_NIB_PLL_FREQ_MHZ (src - 5)))
  let peak := fast || (!freeMode s && src == 4)
  { s with colophon := { s.colophon with clusterUse := Tab.set s.colophon.clusterUse c (p + 1, k + b2n peak) } }

/-- A channel step above 0 for a whole folio is Degraded (Table 15-8). -/
def judgeChannels (s : State) (t : Nat) : State :=
  let s := if s.get (THM_TOWER_CHANNEL_STEP t) = 0 then
      { s with thermal := { s.thermal with chanZero := Tab.set s.thermal.chanZero t s.ruling.gen } } else s
  if s.lineInFolio = 0 ∧ Tab.at s.thermal.chanZero t 0 + 1024 ≤ s.ruling.gen then event s 0xF3 437 t else s

/-- The highest sample of the minute by die (R526), in 0.25 °C above −128 °C. -/
def noteDie (s : State) (i : Nat) : State :=
  if !s.on (THM_SENSOR_VALID i) then s else
  let d := if i < 64 then 0 else if i < 96 then 1 else if i < 368 then 2 + 17 * ((i - 96) / 68) + (i - 96) % 68 / 4 else 70
  let v := (sensorTemp s i + 512).toNat
  { s with colophon := { s.colophon with dieMax := Tab.set s.colophon.dieMax d (max v (Tab.at s.colophon.dieMax d 0)) } }

/-- The ranks of a channel that are to use the hot interval: those of hot layers and those that FORCE_HOT holds there
(R119). -/
def hotWanted (s : State) (g : Nat) : Nat := s.get (THM_TOWER_HOT (g / 64)) ||| s.get (CHN_REFRESH_FORCE_HOT g)

/-- Channels whose refresh intervals may differ from all cool: under a tower with a hot layer, or with CHN_REFRESH not at
reset. -/
def hotChannels (s : State) : List Nat :=
  let hot := (List.range s.variant.towers).filter fun t => s.get (THM_TOWER_HOT t) != 0
  let listed := s.desk.filterMap fun (a, _) =>
    if 0x100000 ≤ a ∧ a < 0x140000 ∧ a % 0x400 = 0x10 then some ((a - 0x100000) / 0x400) else none
  (hot.flatMap fun t => (List.range 64).map (64 * t + ·)) ++ listed.filter fun g => !hot.contains (g / 64)

/-- HOT_RANKS at a line edge (R119): a change to hot takes effect now, a change to cool on a line with s mod 128 = 0. -/
def showHot (s : State) : State :=
  s.each (hotChannels s) fun s g =>
    let want := hotWanted s g
    let now := s.get (CHN_REFRESH_HOT_RANKS g)
    let next := if s.ruling.gen % 128 = 0 then want else now ||| want
    if next = now then s else s.put (CHN_REFRESH_HOT_RANKS g) next

/-- The thermal unit's part of a line edge: `samples` the sensors' samples, `milliwatts` each cluster's filtered power,
`power` the line's VIN power in 100 mW. THERMTRIP is judged last. -/
def thermalEdge (s : State) (samples : List (Nat × BitVec 12 × Bool)) (milliwatts : List Nat) (power : Nat) : State :=
  let cs := List.range s.variant.clusters
  let ts := List.range s.variant.towers
  let s := samples.foldl (fun s (i, v, e) => takeSample s i v e) s
  let s := s.each (List.range 370) noteDie
  let s := s.each ts showTower
  let s := s.each cs fun s c =>
    (s.put (THM_CLUSTER_READING c) (satSigned 12 (clusterReading s c))).put (THM_CLUSTER_MODEL c)
      (satSigned 12 (modelTemp s c (milliwatts.getD c 0)))
  let s := s.each ts judgeLayers
  let s := s.each ts judgeThrottle
  let s := s.each (cs ++ ts.map (16 + ·)) judgeRise
  let s := judgeFast (judgeInkwell s) power
  let s := s.each cs judgePeak
  let s := s.each ts judgeChannels
  let s := s.each cs countUse
  let s := (s.each cs fun s c => noteStep s c (s.get (THM_CLUSTER_STEP c))).each ts fun s t =>
    noteStep s (0x80 + t) (s.get (THM_TOWER_CHANNEL_STEP t))
  let s := s.each cs judgeModel
  judgeTrip (thermalRubric (showHot s))

/-! ### The commands -/

/-- STEP_DECAY (R443): after 64 consecutive lines 3 °C or more below its limit, a step request falls by one. Units 16 to
19 are the towers. -/
def execStepDecay (unit : Fin 20) (s : State) : Host.Outcome State Fault Refusal :=
  .next (
    if Tab.at s.thermal.below unit 0 < 64 then s else
    let s := countBelow s unit false
    if unit.val < 16 then setClusterStep s unit (s.get (THM_CLUSTER_STEP unit) - 1)
    else setTowerStep s (unit - 16) (s.get (THM_TOWER_CHANNEL_STEP (unit - 16)) - 1))

/-- LAYER_COOL (R446): after 128 lines at or below 83.0 °C; its ranks change at the next line with s mod 128 = 0. -/
def execLayerCool (tower : Fin 4) (layer : Fin 17) (s : State) : Host.Outcome State Fault Refusal :=
  .next (
    if !s.flag (THM_TOWER_HOT tower) layer || Tab.at s.thermal.cool (32 * tower + layer) 0 < 128 then s else
    tellHeat (s.setFlag (THM_TOWER_HOT tower) layer false) 4 (32 * tower + layer) (dieTemp s tower layer))

/-- FAST_LIMITER_RELEASE (R452): after 64 consecutive lines below the cap. -/
def execFastLimiterRelease (s : State) : Host.Outcome State Fault Refusal :=
  .next (
    if !s.on THM_CTRL_FAST_ACTIVE || s.thermal.fastUnder < 64 then s else
    let s := tellHeat (s.put THM_CTRL_FAST_ACTIVE 0) 6 1 0
    s.each (List.range s.variant.clusters) showCluster)

end Sys2Proof.Machine
end

