-- ==== Sys2Proof/Machine/Fabric.lean ====
section
/-! DEFINITION. The fabric ports' commands (chapter 9): requests of links, dynamic capacity, snoops, transit, CXL.io and
the CXL memory-device commands. -/

namespace Sys2Proof.Machine

/-! ### CXL.mem requests (R19 to R22, R107, R289, R297) -/

/-- A request message can come on this sub-link: a terminated port, its sub-link up. -/
def canArrive (s : State) (p k : Nat) : Bool := linkUp s p k && decide (s.get (PRT_PORT_CTRL_ROLE p) < 2)

/-- The credits of M2S Req or M2S RwD that the node advertises on a sub-link (R293, Table 9-7). -/
def credits (s : State) (p k : Nat) (data : Bool) : Nat :=
  let peer := s.get (PRT_PORT_CTRL_ROLE p) == 1
  let base := if data then (if peer then 1280 else 1792) else if peer then 1536 else 2048
  (base + 256 * s.get (PRT_PORT_CTRL_EXTRA_RESERVE p)) * (subLanes s p k).2 / 16

/-- The sender has a credit for a message: fewer of its class wait in the sub-link's reserve, their credits withheld. -/
def senderCredit (s : State) (p k : Nat) (data : Bool) : Bool :=
  let mine (w : Work) : Bool := match w with
    | .read a => !data && onLink a.origin p k
    | .write w => data && onLink w.origin p k
  s.fabric.reserve.isEmpty || decide ((s.fabric.reserve.filter mine).length < credits s p k data)

/-- M2S_REQ (R19): checked, its key resolved, charged and looked up; in the Fatal state every read gets poison. -/
def execM2sReq (req : LinkReq) (s : State) : Host.Outcome State Fault Refusal :=
  .next (
    if !canArrive s req.port req.sub || !senderCredit s req.port req.sub false then s
    else if s.fatal then respond s (reqOrigin req) (originAccount s (reqOrigin req)) .poison
    else
      let s := linkActivity s
      match req.lent with
      | some l => readLentIn s req l
      | none =>
        match classify s req 1 with
        | (s, none) => s
        | (s, some a) =>
          let s := if obtainsCopy s req then allocFilter s req.port (a.dpa / 64) (req.cached == 2) else s
          receive s (.read a))

/-- M2S_RWD (R107, R289): a write with data; in the Fatal state it is dropped with its completion. -/
def execM2sRwd (req : LinkReq) (data : BitVec 512) (mask : BitVec 64) (poison : Bool) (run : ReadRun) (s : State) :
    Host.Outcome State Fault Refusal :=
  .next (
    if !canArrive s req.port req.sub || !senderCredit s req.port req.sub true then s
    else if s.fatal then respond s (reqOrigin req) (originAccount s (reqOrigin req)) .done
    else
      let s := linkActivity s
      match req.lent with
      | some l => writeLentIn s req l data
      | none =>
        match classify s req (if mask = BitVec.allOnes 64 then 2 else 3) with
        | (s, none) => s
        | (s, some a) =>
          let s := if obtainsCopy s req then allocFilter s req.port (a.dpa / 64) (req.cached == 2) else s
          receive s (.write { origin := a.origin, dpa := a.dpa, key := a.key, account := a.account, data := data, mask := mask
                              poison := poison, run := run }))

/-- Writes that waited behind a merge of a line go on (R222), in order: the next merge takes them up again. -/
def lentNext (s : State) (dpa : Nat) : State :=
  let ws := s.fabric.lentWait.filter fun w => w.dpa == dpa
  (setFabric s { s.fabric with lentWait := s.fabric.lentWait.filter fun w => w.dpa != dpa }).each ws commitWrite

/-- The line read for a merge at a lent leaf has come (R222, R224): one that does not verify is read once more, and then
goes back poisoned. A leaf that has come home is written here. -/
def mergeCame (s : State) (w : Write) (again : Bool) (m : MediaLine) : State :=
  let a : MemRead := { origin := w.origin, dpa := w.dpa, key := w.key, account := w.account }
  let o := openLine s w.dpa w.key m
  match leafEntry s (leafOf w.dpa) with
  | none => endWrite s w .failed
  | some e =>
    if o.bad && !again && e.remote then sendLent s e (lineOf w.dpa) (.write w) .again none
    else if o.bad then
      let s := mergeDrop (countBad s o) fun d _ => d == w.dpa
      let bad := { m with poison := true }
      let s := if e.remote then mirrorAway s (lineOf w.dpa) bad e.port e.pbr e.slot
        else storeLine s e.loc (lineOf w.dpa) bad
      endWrite (sealAccessEvent s 2 w.origin w.dpa 3) w .poison
    else match opened s a o 3 with
      | (s, .data old) =>
        if e.remote then mergeLent s w e old
        else
          let s := if w.declines old then leave s w.account 64 else sealAndPlace s w (w.merged old)
          if w.atom.isSome then respond s w.origin w.account (.data old) else s
      | (s, r) => endWrite (if r = .poison then sealAccessEvent s 2 w.origin w.dpa 3 else s) w r

/-- S2M_RESPONSE (R283): a holding node answers a lent-leaf access; its data or completion goes to the requester. The
line read for a merge is merged and sent back. -/
def execS2mResponse (tag : Nat) (line : Option StoredLine) (s : State) : Host.Outcome State Fault Refusal :=
  .next (
    match if s.fatal then none else Tab.find s.fabric.lentOut tag with
    | none => s
    | some (w, step) =>
      let s := setFabric s { s.fabric with lentOut := Tab.del s.fabric.lentOut tag }
      drainReserve <| match w, line.map StoredLine.media with
      | .read a, some m =>
        let o := openLine s a.dpa a.key m
        let (s, r) := opened (countBad s o) a o 1
        endRead s a r
      | .read a, none => endRead s a .poison
      | .write w, some m =>
        if step = .plain then respond (leave s w.account 64) w.origin w.account .done
        else lentNext (mergeCame s w (step == .again) m) w.dpa
      | .write w, none =>
        if step = .plain then respond (leave s w.account 64) w.origin w.account .done
        else lentNext (endWrite s w .failed) w.dpa)

/-! ### Roles and logical devices (R271, R274, R276) -/

/-- PRT_BUFFER follows the port reserves (Table 9-6). -/
def portReserves (s : State) : State :=
  let n := (List.range s.variant.ports).foldl (fun n p =>
    let k := s.get (PRT_PORT_CTRL_EXTRA_RESERVE p)
    n + 2048 + (if k = 0 then 0 else 256 * k * (if s.get (PRT_PORT_CTRL_ROLE p) = 1 then 2 else 1))) 0
  reserveCells (s.put PRT_BUFFER_PORT_RESERVED n)

/-- A write of PRT_PORT_CTRL (R271, R272, Table 9-10): a through port's ROLE cannot be written, role 0b10 is reserved. -/
def writePortCtrl (s : State) (p : Nat) (v : BitVec 64) : State :=
  let extra := bitsOf v.toNat 24 8
  if 24 < extra then notice s (320 + p) else
  let role := v.toNat % 4
  let old := s.get (PRT_PORT_CTRL_ROLE p)
  let s := (s.put (PRT_PORT_CTRL_EXTRA_RESERVE p) extra).put (PRT_PORT_CTRL_PEER_UPSTREAM p) (bitsOf v.toNat 17 1)
  if old = 2 ∨ role = old then portReserves s
  else if role = 2 then notice (portReserves s) (320 + p)
  else
    let s := showRest ((portDown s p).put (PRT_PORT_CTRL_ROLE p) role) p
    portReserves (linkVotes s p)

/-- ROLE_WRITE (R271). -/
def execRoleWrite (port : Fin 64) (value : BitVec 64) (s : State) : Host.Outcome State Fault Refusal :=
  .next (if absentUnit s.variant .PRT_PORT_CTRL port 0 then s else writePortCtrl s port value)

/-- An LD holds some extent. -/
def holdsExtent (s : State) (ld : Nat) : Bool := s.fabric.holders.any fun (_, l) => l.contains ld

/-- A write of PRT_LD (R274). -/
def writeLd (s : State) (p d : Nat) (v : BitVec 64) : State :=
  let changes := (s.on (PRT_LD_VALID p d) && !v.getLsbD 63) || bitsOf v.toNat 61 2 != s.get (PRT_LD_SUB_LINK p d)
    || bitsOf v.toNat 60 1 != s.get (PRT_LD_HDM_DB p d)
  if changes && holdsExtent s (16 * p + d) then notice s (320 + p)
  else s.setWord (PRT_LD_VALID p d).addr (BitVec.ofNat 64 (bitsOf v.toNat 60 4 * 2 ^ 60))

/-- PRT_LD_WRITE (R274). -/
def execPrtLdWrite (port : Fin 64) (ld : Fin 16) (value : BitVec 64) (s : State) : Host.Outcome State Fault Refusal :=
  .next (if absentUnit s.variant .PRT_LD port ld then s else writeLd s port ld value)

/-- Two ranges of quires overlap. -/
def overlap (a n b m : Nat) : Bool := decide (a < b + m) && decide (b < a + n)

/-- A write of PRT_DC_REGION is refused while the region holds or is offered an extent, and where regions of different
LDs that are not sharable would overlap (R276). -/
def regionRefused (s : State) (p d r : Nat) (v : BitVec 64) : Bool :=
  let i := 16 * p + d
  let base := bitsOf v.toNat 0 18
  let len := bitsOf v.toNat 18 18
  let clash := v.getLsbD 63 && !v.getLsbD 62 && (validRegions s).any fun (a, b, c) =>
    16 * a + b != i && !s.on (PRT_DC_REGION_SHARABLE (16 * a + b) c)
      && overlap base len (s.get (PRT_DC_REGION_BASE (16 * a + b) c)) (s.get (PRT_DC_REGION_LENGTH (16 * a + b) c))
  let held := s.get (PRT_DC_USE_HELD i r) != 0 || s.get (PRT_DC_USE_PENDING i r) != 0
    || (match s.fabric.adding with | some e => e.port == p && e.ld == d && e.region == r | none => false)
  clash || held

/-- A write of PRT_DC_REGION (R276). -/
def writeRegion (s : State) (p d r : Nat) (v : BitVec 64) : State :=
  if regionRefused s p d r v then notice s (320 + p)
  else s.setWord (PRT_DC_REGION_VALID (16 * p + d) r).addr (BitVec.ofNat 64 (bitsOf v.toNat 62 2 * 2 ^ 62 + v.toNat % 2 ^ 36))

/-- DC_REGION_WRITE (R276). -/
def execDcRegionWrite (port : Fin 64) (ld : Fin 16) (region : Fin 8) (value : BitVec 64) (s : State) :
    Host.Outcome State Fault Refusal :=
  .next (if absentUnit s.variant .PRT_DC_REGION (16 * port + ld) region then s else writeRegion s port ld region value)

/-! ### Adding capacity (R277) -/

def extentStatus (s : State) (st : Nat) : State := s.put PRT_EXTENT_STATUS_STATUS st

/-- The extent a PRT_EXTENT_CMD word names. -/
def extentOf (v : BitVec 64) : Extent :=
  { port := bitsOf v.toNat 56 6, ld := bitsOf v.toNat 52 4, region := bitsOf v.toNat 49 3, first := v.toNat % 2 ^ 18
    count := bitsOf v.toNat 18 18 }

/-- Region of an extent is sharable. -/
def sharable (s : State) (e : Extent) : Bool := s.on (PRT_DC_REGION_SHARABLE (16 * e.port + e.ld) e.region)

/-- An LD other than the extent's holds a quire through a region that is not sharable. -/
def heldUnshared (s : State) (e : Extent) (q : Nat) : Bool :=
  (quireHolders s q).any fun ld => ld != 16 * e.port + e.ld && (!sharable s e ||
    (validRegions s).any fun (a, b, c) => 16 * a + b == ld && !s.on (PRT_DC_REGION_SHARABLE ld c)
      && decide (s.get (PRT_DC_REGION_BASE ld c) ≤ q) && decide (q < s.get (PRT_DC_REGION_BASE ld c) + s.get (PRT_DC_REGION_LENGTH ld c)))

/-- Why an add is INVALID (R277.2). -/
def addInvalid (s : State) (e : Extent) : Bool :=
  let ld := 16 * e.port + e.ld
  let base := s.get (PRT_DC_REGION_BASE ld e.region)
  !s.on (PRT_LD_VALID e.port e.ld) || !s.on (PRT_DC_REGION_VALID ld e.region) || e.count == 0
    || decide (e.first < base) || decide (base + s.get (PRT_DC_REGION_LENGTH ld e.region) < e.first + e.count)
    || decide (s.variant.leaves / 512 < e.first + e.count)
    || (Extent.quires e).any fun q => (quireHolders s q).contains ld || offeredTo s ld q || heldUnshared s e q

/-- The blocks and level-1 tree nodes that hard leaves in some quires would lock stay within the limits (R145, R221), and
within the ways of each set of the map cache. -/
def locksFit (s : State) (quires : List Nat) : Bool :=
  let blocks := quires.flatMap fun q => (List.range 64).map (64 * q + ·)
  let held := lockedBlocks s
  decide (held.length + blocks.length ≤ s.get DCT_MAP_CACHE_LOCK_LIMIT)
    && decide ((nodesToLock s).length + 8 * quires.length ≤ s.get SEL_TREE_CACHE_LOCK_LIMIT)
    && blocks.all fun b => decide (((held ++ blocks).filter fun x => cacheSet x == cacheSet b).length ≤ 16)

/-- Issue an extent add (R277): its status code and the state. -/
def addExtent (s : State) (e : Extent) : State × Nat :=
  if s.fabric.adding.isSome || s.sealing.reseal.isSome then (s, 5)
  else if addInvalid s e then (s, 4)
  else
    let new := (Extent.quires e).filter fun q => (quireHolders s q).isEmpty && !(s.fabric.offered.any fun o =>
      decide (o.first ≤ q) && decide (q < o.first + o.count))
    let hard := hardAccount s e.port e.ld
    let room := roomFor s hard
    let need := 512 * new.length
    if (hard.isSome && !locksFit s new) || decide (room + s.ductus.hosted.length < need) || (hard.isSome && decide (room < need)) then (s, 6)
    else
      let placed := decide (need ≤ room)
      let s := if placed then s.each new fun s q => placeQuire s hard q else recallHosted s (need - room)
      let s := setFabric s { s.fabric with adding := some { e with placed := placed, fresh := new } }
      (showLocked ((s.put PRT_EXTENT_STATUS_LEFT new.length).put PRT_EXTENT_STATUS_ACCEPTED 0), 1)

/-- A write of PRT_EXTENT_CMD with OP add. -/
def writeExtentAdd (s : State) (v : BitVec 64) : State :=
  let (s, st) := addExtent s (extentOf v)
  extentStatus s st

/-- EXTENT_ADD (R277). -/
def execExtentAdd (value : BitVec 64) (s : State) : Host.Outcome State Fault Refusal := .next (writeExtentAdd s value)

/-- EXTENT_BLANK_COMPLETE (R277, R211): blanking ends and the extent is offered; a Peer port's is held at once. An extent
that waits for recalled slots is placed as soon as they are free. -/
def execExtentBlankComplete (s : State) : Host.Outcome State Fault Refusal :=
  .next (
    match s.fabric.adding with
    | none => s
    | some e =>
      let hard := hardAccount s e.port e.ld
      if !e.placed && decide (roomFor s hard < 512 * e.fresh.length) then s else
      let s := if e.placed then s else s.each e.fresh fun s q => placeQuire s hard q
      let s := s.each e.fresh blankQuire
      let s := (setFabric s { s.fabric with adding := none }).put PRT_EXTENT_STATUS_LEFT 0
      if s.get (PRT_PORT_CTRL_ROLE e.port) = 1 then
        extentStatus ((s.each (Extent.quires e) fun s q => holdQuire s e q).put PRT_EXTENT_STATUS_ACCEPTED e.count) 3
      else
        let s := setFabric s { s.fabric with offered := s.fabric.offered ++ [e] }
        let s := s.put (PRT_DC_USE_PENDING (16 * e.port + e.ld) e.region)
          (s.get (PRT_DC_USE_PENDING (16 * e.port + e.ld) e.region) + e.count)
        extentStatus (s.send (.dcEvent e.port e.ld 0 e.first e.count)) 2)

/-- ADD_DC_RESPONSE (R277.5): the host accepts quires of the LD's oldest offer; the rest are freed. Quires that were not
offered make the command invalid. -/
def execAddDcResponse (port : Fin 64) (ld : Fin 16) (quires : List (Fin 262144)) (s : State) : Host.Outcome State Fault Refusal :=
  .next (
    match s.fabric.offered.find? fun e => e.port == port.val && e.ld == ld.val with
    | none => s.send (.answer "ADD_DC_RESPONSE" 2 [])
    | some e =>
      let take := quires.map Fin.val
      if take.any fun q => !((Extent.quires e).contains q) then s.send (.answer "ADD_DC_RESPONSE" 2 []) else
      let s := setFabric s { s.fabric with offered := s.fabric.offered.filter (· != e) }
      let s := s.dec (PRT_DC_USE_PENDING (16 * e.port + e.ld) e.region) e.count
      let acc := (Extent.quires e).filter take.contains
      let s := s.each acc fun s q => holdQuire s e q
      let s := s.each ((Extent.quires e).filter fun q => !take.contains q) fun s q =>
        if (quireHolders s q).isEmpty && !(s.fabric.offered.any fun o => decide (o.first ≤ q) && decide (q < o.first + o.count)) then
          freeQuire s q else s
      (extentStatus (s.put PRT_EXTENT_STATUS_ACCEPTED acc.length) 3).send (.answer "ADD_DC_RESPONSE" 0 []))

/-! ### Releasing capacity (R278, R279) -/

/-- Ask an LD to release quires (R279). -/
def askRelease (s : State) (e : Extent) : State × Nat :=
  if s.fabric.adding.isSome then (s, 5)
  else if e.count = 0 ∨ !(Extent.quires e).all (fun q => (quireHolders s q).contains (16 * e.port + e.ld)) then (s, 4)
  else (s.send (.dcEvent e.port e.ld 1 e.first e.count), 3)

/-- A write of PRT_EXTENT_CMD with OP release request. -/
def writeRelease (s : State) (v : BitVec 64) : State :=
  let (s, st) := askRelease s (extentOf v)
  extentStatus s st

/-- A write of PRT_EXTENT_CMD (Table 9-16): the other OP codes are reserved. -/
def writeExtentCmd (s : State) (v : BitVec 64) : State :=
  match bitsOf v.toNat 62 2 with
  | 1 => writeExtentAdd s v
  | 2 => writeRelease s v
  | _ => notice s 432

/-- RELEASE_REQUEST (R279). -/
def execReleaseRequest (value : BitVec 64) (s : State) : Host.Outcome State Fault Refusal := .next (writeRelease s value)

/-- Quires still to be released to bring the free pool back to its minimum (R95, R136): what Retired channels and retired
ranks have called for, less what has been released since. -/
def shortQuires (s : State) : Nat := s.fabric.wanted

/-- The base management rubric asks every LD that holds extents for its share, newest extents first (R279). -/
def askAll (s : State) (n : Nat) : State :=
  let lds := (s.fabric.added.map (·.1)).eraseDups
  let total := s.fabric.added.length
  s.each lds fun s ld =>
    let mine := (s.fabric.added.filter fun x => x.1 == ld).reverse
    s.each (mine.take (ceilDiv (n * mine.length) total)) fun s (_, q) => s.send (.dcEvent (ld / 16) (ld % 16) 1 q 1)

/-- RELEASE_RETRY (R279): the first asking when the pool is short; after 256 folios a Degraded event and another. -/
def execReleaseRetry (s : State) : Host.Outcome State Fault Refusal :=
  .next (
    let n := shortQuires s
    if n = 0 then setFabric s { s.fabric with release := none } else
    match s.fabric.release with
    | none => setFabric (askAll s n) { (askAll s n).fabric with release := some (n, s.folio) }
    | some (_, f) =>
      if s.folio < f + 256 then s else
      let s := askAll (event s 0x95 432 n) n
      setFabric s { s.fabric with release := some (n, s.folio) })

/-- RELEASE_DYNAMIC_CAPACITY (R278): the lines that the filter lists for the LD are snooped, then each quire leaves it. -/
def execReleaseDynamicCapacity (port : Fin 64) (ld : Fin 16) (quires : List (Fin 262144)) (s : State) :
    Host.Outcome State Fault Refusal :=
  .next (
    let me := 16 * port.val + ld.val
    let qs := (quires.map Fin.val).eraseDups
    if qs.isEmpty || qs.any (fun q => !(quireHolders s q).contains me) then s.send (.answer "RELEASE_DYNAMIC_CAPACITY" 2 []) else
    let s := s.each qs fun s q =>
      let lines := (s.fabric.filter.filter fun (l, e) => l / 32768 == q && bit e.ports port).map (·.1)
      let snoop := s.on (PRT_LD_HDM_DB port ld) && ldUp s me && !lines.isEmpty
      if !snoop then leaveQuire s me q else
      s.each lines fun s l => addSnoop (s.send (.biSnp port ld l 0)) l [me] (.release q me)
    s.send (.answer "RELEASE_DYNAMIC_CAPACITY" 0 []))

/-! ### Snoops (R284 to R288) -/

/-- BIRSP (R284): an LD answers the oldest snoop of a line; for an unknown line it is discarded with a Notice. -/
def execBirsp (port : Fin 64) (ld : Fin 16) (dpa : BitVec 52) (s : State) : Host.Outcome State Fault Refusal :=
  .next (
    let me := 16 * port.val + ld.val
    let line := dpa.toNat % 2 ^ 42 / 64
    match s.fabric.snoops.find? fun x => x.line == line && x.waiting.contains me with
    | none => notice s (320 + port.val)
    | some x => drainReserve (answerSnoops s me fun y => y == x))

/-- A silent holder's timeout (R288): the conflicting write is not applied, with a Contained event naming the writer and
the silent holder. -/
def biTimeout (s : State) (x : Snoop) : State :=
  match x.why with
  | .write w =>
    let s := s.each x.waiting fun s ld => s.inc (PRT_PORT_ERRORS_BI_TIMEOUTS (ld / 16))
    let s := report s { type := 0x91, source := 432, master := some (originMaster w.origin), pbr := originPbr w.origin
                        access := if w.full then 2 else 3, dpa := some w.dpa, detail := BitVec.ofNat 64 (x.waiting.headD 0) }
    let s := setFabric s { s.fabric with snoops := s.fabric.snoops.filter (· != x) }
    unpark (endWrite s w .timeout) x.line
  | .reseal =>
    let s := report s { type := 0x91, source := 432, master := some (internalMaster 9), access := 2, dpa := some (x.line * 64)
                        detail := BitVec.ofNat 64 (x.waiting.headD 0) }
    setFabric s { s.fabric with snoops := s.fabric.snoops.map fun y => if y = x then { x with since := s.ruling.gen } else y }
  | .core k inv =>
    let s := report s { type := 0x91, source := 432, master := some (coreMaster k), access := 6, dpa := some (x.line * 64)
                        detail := BitVec.ofNat 64 (x.waiting.headD 0) }
    cohEnd (setFabric s { s.fabric with snoops := s.fabric.snoops.filter fun y => y.why != .core k inv }) k 1
  | _ => s

/-- BI_TIMEOUT (R288): every conflicting write whose holders have been silent for BI_TIMEOUT_LINES. -/
def execBiTimeout (s : State) : Host.Outcome State Fault Refusal :=
  .next (s.each (s.fabric.snoops.filter fun x => decide (x.since + s.get PRT_CTRL_BI_TIMEOUT_LINES ≤ s.ruling.gen)) biTimeout)

/-- COARSE_SWEEP (R285): the next line of the COARSE quire under work. -/
def execCoarseSweep (s : State) : Host.Outcome State Fault Refusal :=
  .next (
    match s.fabric.coarse with
    | [] => s
    | q :: _ =>
      if !s.on PRT_CTRL_COARSE_SWEEP then s
      else if 32768 ≤ s.fabric.sweepLine then endCoarse s q
      else
        let line := q * 32768 + s.fabric.sweepLine
        let (s, up) := sendSnoops s line 0 (holdersOf s line)
        let s := if up.isEmpty then s else addSnoop s line up (.coarse q)
        endCoarse (setFabric s { s.fabric with sweepLine := s.fabric.sweepLine + 1 }) q)

/-! ### Transit (R280, R281) -/

/-- The egress of a route: its PORT, or ALT_PORT while that link is down (Table 9-5). -/
def routeOf (s : State) (d : Nat) : Option (Nat × Nat) :=
  let ok (x : Nat) : Bool := linkUp s (x / 4) (x % 4) && s.get (PRT_PORT_CTRL_ROLE (x / 4)) == 1
  if !s.on (PRT_ROUTE_VALID d) then none
  else if ok (s.get (PRT_ROUTE_PORT d)) then some (s.get (PRT_ROUTE_PORT d) / 4, s.get (PRT_ROUTE_PORT d) % 4)
  else if s.on (PRT_ROUTE_ALT_VALID d) && ok (s.get (PRT_ROUTE_ALT_PORT d)) then
    some (s.get (PRT_ROUTE_ALT_PORT d) / 4, s.get (PRT_ROUTE_ALT_PORT d) % 4)
  else none

/-- PBR_TRANSIT (R280, R281, R297): a flit for another target is routed, or refused with a Notice when it has no route;
in the Fatal state transit stops. -/
def execPbrTransit (port : Fin 64) (sub : Fin 4) (dpid spid : Fin 4096) (tag : BitVec 16) (write : Bool) (s : State) :
    Host.Outcome State Fault Refusal :=
  .next (
    if !linkUp s port sub || s.get (PRT_PORT_CTRL_ROLE port) ≠ 1 || dpid.val == s.get PRT_CTRL_PBR_ID || s.fatal then s else
    match routeOf s dpid with
    | some (p, k) => s.send (.transit p k dpid spid tag.toNat)
    | none =>
      report (s.send (.transitRefused port sub spid tag.toNat write))
        { type := 0x94, source := 320 + port.val, pbr := spid.val, access := if write then 2 else 1, detail := BitVec.ofNat 64 dpid.val })

/-! ### CXL.io (R30, R275, R290) -/

/-- An LD's functions answer on a sub-link. -/
def ldOn (s : State) (p k d : Nat) : Bool := s.on (PRT_LD_VALID p d) && s.get (PRT_LD_SUB_LINK p d) == k

/-- A host access to a BAR outside the mailbox and doorbells: a Notice of the port protocol source with the requester and
the address (R30, Table 18-5, assumption 71). -/
def barRefused (s : State) (p k d : Nat) (write : Bool) (addr : Nat) : State :=
  openEvent s (320 + p) 0 (some (linkMaster p k d)) (if write then 2 else 1) addr

/-- BAR_ACCESS (R30): outside the mailbox and doorbell ranges a read completes with zeros and a write is discarded, with
a Notice; to an LD that is absent a write is recorded alike and a read gets Unsupported Request (Table 9-4), as every
read does in the Fatal state. -/
def execBarAccess (port : Fin 64) (sub : Fin 4) (ld : Fin 16) (write : Bool) (addr : BitVec 64) (s : State) : Host.Outcome State Fault Refusal :=
  .next (
    if !linkUp s port sub || s.get (PRT_PORT_CTRL_ROLE port) ≠ 0 then s else
    let s := linkActivity s
    if s.fatal then (if write then s else s.send (.ioUnsupported port sub ld))
    else if !ldOn s port sub ld then
      (if write then barRefused s port sub ld true addr.toNat else s.send (.ioUnsupported port sub ld)) else
    let s := barRefused s port sub ld write addr.toNat
    if write then s else s.send (.ioData port sub ld 0))

/-- The doublewords of the node function's DVSEC (Table 9-2); the next pointer and Tuofort's vendor ID the spec does not
give, so they are free values (assumption 26). -/
def dvsecWord (s : State) (p k d pairs i : Nat) : BitVec 32 :=
  let f := s.freeNow.toNat
  let v := match s.variant with | .v4384 => 0 | .v4192 => 1 | .v2096 => 2
  BitVec.ofNat 32 (match i with
    | 0 => 0x23 + 0x1 * 2 ^ 16 + f % 4096 * 2 ^ 20
    | 1 => f % 2 ^ 16 + 0x1 * 2 ^ 16 + 0x20 * 2 ^ 20
    | 2 => 1 + (3 + 4 * s.get (PRT_LD_HDM_DB p d)) * 2 ^ 16
    | 3 => 0
    | 4 => 0x10000
    | 5 => 2
    | 6 => pairs
    | _ => d + p * 16 + k * 2 ^ 10 + v * 2 ^ 12)

/-- VIRAL_RECEIVED (R273): logged and otherwise ignored. -/
def execViralReceived (port : Fin 64) (sub : Fin 4) (s : State) : Host.Outcome State Fault Refusal :=
  .next (
    if !linkUp s port sub || s.get (PRT_PORT_CTRL_ROLE port) ≠ 0 then s else
    notice (setFabric s { s.fabric with viralSeen := s.fabric.viralSeen ++ [(port.val, sub.val)] }) (320 + port.val))

/-! ### Memory-device commands (R273, R511) -/

/-- A CXL mailbox command reaches an LD whose sub-link is up. -/
def ldAlive (s : State) (p d : Nat) : Bool := s.on (PRT_LD_VALID p d) && ldUp s (16 * p + d) && s.get (PRT_PORT_CTRL_ROLE p) == 0

/-- The opcodes of the memory-device commands of Table 9-1, as CXL 3.1 numbers them: the Command Effects Log's entries. -/
def cxlOpcodes : List Nat := [0x0100, 0x0101, 0x0400, 0x0401, 0x4000, 0x4800, 0x4801, 0x4802, 0x4803]

/-- IDENTIFY_MEMORY_DEVICE (R273): total capacity in units of 256 MiB; no static capacity, volatile or persistent. -/
def execIdentifyMemoryDevice (port : Fin 64) (ld : Fin 16) (s : State) : Host.Outcome State Fault Refusal :=
  .next (if !ldAlive s port ld then s else
    s.send (.answer "IDENTIFY_MEMORY_DEVICE" 0 [s.variant.leaves / 65536, 0, 0]))

/-- GET_SUPPORTED_LOGS (R273): the Command Effects Log. -/
def execGetSupportedLogs (port : Fin 64) (ld : Fin 16) (s : State) : Host.Outcome State Fault Refusal :=
  .next (if !ldAlive s port ld then s else
    s.send (.answer "GET_SUPPORTED_LOGS" 0 [1, 4 * cxlOpcodes.length]))

/-- GET_LOG (R273): entries of the Command Effects Log from a byte offset. The UUID and each entry's effect bits are CXL
3.1's, which the spec does not restate: any UUID names the one log, and the answer holds opcodes (assumption 27). -/
def execGetLog (port : Fin 64) (ld : Fin 16) (uuid : BitVec 128) (offset length : Nat) (s : State) : Host.Outcome State Fault Refusal :=
  .next (if !ldAlive s port ld then s else
    if 4 * cxlOpcodes.length < offset + length then s.send (.answer "GET_LOG" 2 [uuid.toNat]) else
    s.send (.answer "GET_LOG" 0 ((cxlOpcodes.drop (offset / 4)).take (length / 4))))

/-- CXL_GET_EVENT_RECORDS (R511): the log's records by sequence number, after how many have been lost. -/
def execCxlGetEventRecords (port : Fin 64) (ld : Fin 16) (log : Fin 4) (s : State) : Host.Outcome State Fault Refusal :=
  .next (if !ldAlive s port ld then s else
    let k := 8 * (16 * port.val + ld.val) + log.val
    s.send (.answer "CXL_GET_EVENT_RECORDS" 0 (Tab.at s.blotter.cxlOverflow k 0 :: (Tab.at s.blotter.cxlLogs k []).map (·.seq))))

/-- CXL_CLEAR_EVENT_RECORDS (R511): the named records, or all, leave the log; an emptied log clears its overflow. -/
def execCxlClearEventRecords (port : Fin 64) (ld : Fin 16) (log : Fin 4) (all : Bool) (seqs : List (BitVec 64)) (s : State) :
    Host.Outcome State Fault Refusal :=
  .next (if !ldAlive s port ld then s else
    let k := 8 * (16 * port.val + ld.val) + log.val
    let l := Tab.at s.blotter.cxlLogs k []
    let names := seqs.map BitVec.toNat
    if !all && names.any (fun q => !(l.any fun r => r.seq == q)) then s.send (.answer "CXL_CLEAR_EVENT_RECORDS" 2 []) else
    let l := if all then [] else l.filter fun r => !names.contains r.seq
    let b := s.blotter
    ({ s with blotter := { b with
        cxlLogs := Tab.set b.cxlLogs k l
        cxlOverflow := if l.isEmpty then Tab.del b.cxlOverflow k else b.cxlOverflow } }).send (.answer "CXL_CLEAR_EVENT_RECORDS" 0 []))

/-- GET_DC_CONFIGURATION (R273): each VALID region's number, base, length, and whether it is sharable; one block is one
quire. -/
def execGetDcConfiguration (port : Fin 64) (ld : Fin 16) (s : State) : Host.Outcome State Fault Refusal :=
  .next (if !ldAlive s port ld then s else
    let i := 16 * port.val + ld.val
    let rs := (List.range 8).filter fun r => s.on (PRT_DC_REGION_VALID i r)
    s.send (.answer "GET_DC_CONFIGURATION" 0 (rs.flatMap fun r =>
      [r, s.get (PRT_DC_REGION_BASE i r) * 2 ^ 21, s.get (PRT_DC_REGION_LENGTH i r) * 2 ^ 21, s.get (PRT_DC_REGION_SHARABLE i r)])))

/-- GET_DC_EXTENT_LIST (R273): the quires the LD holds, in the order it accepted them. -/
def execGetDcExtentList (port : Fin 64) (ld : Fin 16) (s : State) : Host.Outcome State Fault Refusal :=
  .next (if !ldAlive s port ld then s else
    s.send (.answer "GET_DC_EXTENT_LIST" 0 ((s.fabric.added.filter fun x => x.1 == 16 * port.val + ld.val).map (·.2))))

/-- LINK_DOWN (R291): a sub-link that is up goes down. -/
def execLinkDown (port : Fin 64) (sub : Fin 4) (s : State) : Host.Outcome State Fault Refusal :=
  .next (if linkUp s port sub then subDown s port sub else s)

end Sys2Proof.Machine
end

