-- ==== Sys2Proof/Machine/KeyLoad.lean ====
section
/-! DEFINITION. Seal's commands (chapter 7): the key-load unit, TSP, reseals and link IDE. -/

namespace Sys2Proof.Machine

/-! ### Sessions (R232, R582) -/

/-- The established session with an identifier. -/
def sessionOf (s : State) (id : Nat) : Option Session := (Tab.find s.mgmt.sessions id).filter fun x => x.established

/-- A message that SPDM refuses: an ERROR response. Which code it carries the spec states only where this model names
one; here it is a free value (assumption 28). -/
def spdmError (s : State) : State := s.drew.send (.answer "ERROR" (s.freeNow.toNat % 256) [])

/-- A key-load response of 4 bytes (R232): status, a reserved byte, and STATE and LEVEL of the entry in bits 3:0 of the
last two. -/
def keyAnswer (s : State) (name : String) (status k : Nat) : State :=
  s.send (.answer name status [0, s.get (SEL_KEY_ATTR_STATE k) * 4 + s.get (SEL_KEY_ATTR_LEVEL k), 0])

/-- Run a key-load command in a mutually authenticated session of a DEPLOYED node (R582, Table 17-4). -/
def inKeySession (s : State) (id : Nat) (f : State → Session → State) : State :=
  match sessionOf s id with
  | some x => if x.mutAuth && lifecycle s == 2 then f s x else spdmError s
  | none => spdmError s

/-- Indexes that keys can be loaded into. -/
def loadable (k : Nat) : Bool := decide (1 ≤ k) && decide (k < 1024)

/-- Fill an EMPTY entry (Table 7-15). -/
def fillKey (s : State) (k level source binding clusters : Nat) (key : Key) : State :=
  let present := match s.variant with | .v2096 => 0xFF | _ => 0xFFFF
  let w := 1 * 2 ^ 62 + level * 2 ^ 60 + source * 2 ^ 58 + (clusters &&& present) * 2 ^ 42 + binding * 2 ^ 24
  setSeal (s.setWord (SEL_KEY_ATTR_STATE k).addr (BitVec.ofNat 64 w)) { s.sealing with keys := Tab.set s.sealing.keys k key }

/-- A reseal without AUTH that names an index runs (R230). -/
def resealing (s : State) (k : Nat) : Bool :=
  match s.sealing.reseal with | some r => r.key == k && keyState s k == 0 | none => false

/-- KEY_LOAD (R201, R230, R232): a load is accepted only into an EMPTY entry. -/
def execKeyLoad (session : BitVec 32) (level : BitVec 2) (index binding clusters : BitVec 16) (xts : BitVec 512)
    (integrity : BitVec 256) (s : State) : Host.Outcome State Fault Refusal :=
  .next (inKeySession s session.toNat fun s x =>
    let k := index.toNat
    if !loadable k then s.send (.answer "KEY_LOAD" 2 [0, 0, 0])
    else if keyState s k ≠ 0 then keyAnswer s "KEY_LOAD" 1 k
    else if resealing s k then keyAnswer s "KEY_LOAD" 4 k
    else
      keyAnswer (fillKey s k level.toNat 0 binding.toNat clusters.toNat { xts := xts, integrity := integrity, loader := x.leaf })
        "KEY_LOAD" 0 k)

/-- Clear an entry (R201): it becomes CLEARING. -/
def clearKey (s : State) (k : Nat) : State := s.put (SEL_KEY_ATTR_STATE k) 2

/-- KEY_CLEAR (R232): from a session of the requester that loaded the index, or of the device owner. -/
def execKeyClear (session : BitVec 32) (index : BitVec 16) (s : State) : Host.Outcome State Fault Refusal :=
  .next (inKeySession s session.toNat fun s x =>
    let k := index.toNat
    if !loadable k then s.send (.answer "KEY_CLEAR" 2 [0, 0, 0])
    else if keyState s k = 2 then keyAnswer s "KEY_CLEAR" 4 k
    else if keyState s k = 0 then keyAnswer s "KEY_CLEAR" 0 k
    else
      let mine := s.get (SEL_KEY_ATTR_SOURCE k) == 0 && (keyOf s k).loader == x.leaf
      if !(mine || ownerKey s x.root) then keyAnswer s "KEY_CLEAR" 3 k
      else keyAnswer (clearKey s k) "KEY_CLEAR" 0 k)

/-- KEY_QUERY (R232): a message whose command byte is QUERY, or reserved, which BAD_COMMAND answers. -/
def execKeyQuery (session : BitVec 32) (ask : KeyAsk) (s : State) : Host.Outcome State Fault Refusal :=
  .next (inKeySession s session.toNat fun s _ =>
    if ask.command ≠ 3 then s.send (.answer "KEY_QUERY" 5 [0, 0, 0])
    else if 1024 ≤ ask.index.toNat ∨ ask.index.toNat = 0 then s.send (.answer "KEY_QUERY" 2 [0, 0, 0])
    else keyAnswer s "KEY_QUERY" 0 ask.index.toNat)

/-- Key index of work. -/
def Work.key (w : Work) : Nat := match w with | .read a => a.key | .write w => w.key

/-- Some request that resolved to an index has not completed. -/
def keyBusy (s : State) (k : Nat) : Bool :=
  s.accounts.held.any (fun w => Work.key w == k) || s.ductus.missWait.any (fun x => Work.key x.2 == k)
    || s.fabric.parked.any (fun w => w.key == k) || s.fabric.lentWait.any (fun w => w.key == k) || s.fabric.lentOut.any (fun x => Work.key x.2.1 == k)
    || s.fabric.snoops.any (fun x => match x.why with | .write w => w.key == k | .read a => a.key == k | _ => false)
    || s.chans.any fun (_, c) => c.pool.any (fun r => r.access.key == k) || c.ingress.any (fun r => r.access.key == k)
      || c.issued.any (fun i => i.req.access.key == k) || c.reread.any (fun i => i.req.access.key == k)
      || c.ingressWrites.any fun x => match x.1 with | some w => w.key == k | none => false

/-- KEY_CLEAR_COMPLETE (R201): once every request resolved to the index has completed, its line-merge entries are
dropped and the entry becomes EMPTY. -/
def execKeyClearComplete (index : Fin 1024) (s : State) : Host.Outcome State Fault Refusal :=
  .next (
    let k := index.val
    if keyState s k ≠ 2 ∨ keyBusy s k then s else
    let s := mergeDrop (s.setWord (SEL_KEY_ATTR_STATE k).addr 0) fun _ i => i == k
    setSeal s { s.sealing with keys := Tab.del s.sealing.keys k })

/-! ### TSP (R233) -/

/-- SEL_LD_KEY index of a logical device. -/
def tspIndex (sub ld : Nat) : Nat := 16 * sub + ld

/-- Answer a TSP command of an LD on a Host port: status 0 done, 1 refused. -/
def tspAnswer (s : State) (name : String) (ok : Bool) : State := s.send (.answer name (b2n (!ok)) [])

/-- A TSP command reaches the LD. -/
def tspTo (s : State) (p k d : Nat) : Bool := linkUp s p k && s.get (PRT_PORT_CTRL_ROLE p) == 0 && ldOn s p k d

/-- TSP_GET_VERSION (R233): the capabilities are the commands of R233. -/
def execTspGetVersion (port : Fin 64) (sub : Fin 4) (ld : Fin 16) (s : State) : Host.Outcome State Fault Refusal :=
  .next (if tspTo s port sub ld then tspAnswer s "TSP_GET_VERSION" true else s)

/-- TSP_SET_TARGET_CONFIG (R233): the configuration of a logical device, until it is locked. -/
def execTspSetTargetConfig (port : Fin 64) (sub : Fin 4) (ld : Fin 16) (config : BitVec 32) (confidential : Bool) (s : State) :
    Host.Outcome State Fault Refusal :=
  .next (
    if !tspTo s port sub ld then s else
    let id := 64 * port.val + tspIndex sub ld
    if s.on (SEL_LD_KEY_LOCKED port (tspIndex sub ld)) then tspAnswer s "TSP_SET_TARGET_CONFIG" false else
    let x := s.sealing
    tspAnswer (setSeal s { x with
      tspSet := Tab.set x.tspSet id config.toNat
      tspConf := if confidential then id :: x.tspConf.filter (· != id) else x.tspConf.filter (· != id) }) "TSP_SET_TARGET_CONFIG" true)

/-- TSP_LOCK_TARGET_CONFIG (R233): LOCKED is set. -/
def execTspLockTargetConfig (port : Fin 64) (sub : Fin 4) (ld : Fin 16) (s : State) : Host.Outcome State Fault Refusal :=
  .next (if tspTo s port sub ld then
    tspAnswer (s.put (SEL_LD_KEY_LOCKED port (tspIndex sub ld)) 1) "TSP_LOCK_TARGET_CONFIG" true else s)

/-- TSP_SET_KEY (R233): the key index of the identifier's value, BINDING the link's OWNER, level sealed unless the
configuration selects confidential. -/
def execTspSetKey (port : Fin 64) (sub : Fin 4) (ld : Fin 16) (index : BitVec 16) (xts : BitVec 512) (integrity : BitVec 256)
    (s : State) : Host.Outcome State Fault Refusal :=
  .next (
    if !tspTo s port sub ld then s else
    let k := index.toNat
    if !loadable k || keyState s k ≠ 0 || resealing s k then tspAnswer s "TSP_SET_KEY" false else
    let level := if s.sealing.tspConf.contains (64 * port.val + tspIndex sub ld) then 1 else 2
    tspAnswer (fillKey s k level 1 (linkOwner port sub ld) 0 { xts := xts, integrity := integrity }) "TSP_SET_KEY" true)

/-- TSP_CLEAR_KEY (R233): a key that TSP set on this link. -/
def execTspClearKey (port : Fin 64) (sub : Fin 4) (ld : Fin 16) (index : BitVec 16) (s : State) : Host.Outcome State Fault Refusal :=
  .next (
    if !tspTo s port sub ld then s else
    let k := index.toNat
    if !loadable k || keyState s k ≠ 1 || s.get (SEL_KEY_ATTR_SOURCE k) ≠ 1
        || s.get (SEL_KEY_ATTR_BINDING k) ≠ linkOwner port sub ld then tspAnswer s "TSP_CLEAR_KEY" false
    else tspAnswer (clearKey s k) "TSP_CLEAR_KEY" true)

/-- TSP_SET_TE_STATE (R233, R205): TE is kept per quire; a range that is not quire-aligned is refused. -/
def execTspSetTeState (port : Fin 64) (sub : Fin 4) (ld : Fin 16) (dpa length : BitVec 52) (te : Bool) (s : State) :
    Host.Outcome State Fault Refusal :=
  .next (
    if !tspTo s port sub ld then s else
    let a := dpa.toNat
    let n := length.toNat
    if a % 2 ^ 21 ≠ 0 ∨ n % 2 ^ 21 ≠ 0 ∨ s.variant.leaves * 4096 < a + n then tspAnswer s "TSP_SET_TE_STATE" false else
    let qs := (List.range (n / 2 ^ 21)).map (a / 2 ^ 21 + ·)
    let rest := s.sealing.te.filter fun q => !qs.contains q
    tspAnswer (setSeal s { s.sealing with te := if te then qs ++ rest else rest }) "TSP_SET_TE_STATE" true)

/-! ### Reseals (R228 to R230) -/

/-- A reseal's node lies at or beneath an entry of the unverifiable list. -/
def underLost (s : State) (level node : Nat) : Bool := (lostNodes s).any fun (l, n) => beneath level node l n

/-- AUTH of a reseal (R228). -/
def resealAuth (s : State) (k level node : Nat) : BitVec 48 :=
  Config.kmac128 (keyOf s k).integrity (text "VYT-RESEAL")
    (leBytes 8 s.sealing.challenge.toNat ++ leBytes 2 k ++ leBytes 1 level ++ leBytes 4 node)

/-- Leaves beneath a node that have a counter line. -/
def leavesUnder (s : State) (level node : Nat) : List Nat :=
  (s.sealing.counters.filter fun (k, _) => beneath 0 k level node).map (·.1)

/-- FRESH lines of a leaf that lies here, by line, with their key index. -/
def freshLines (s : State) (leaf : Nat) : List (Nat × Nat) :=
  match leafEntry s leaf with
  | none => []
  | some e => if e.remote then [] else (List.range 64).filterMap fun i =>
      let m := currentLine s e.loc i
      if m.fresh then some (i, m.key) else none

/-- A challenge is used once: START draws the next (R228). -/
def newChallenge (s : State) : State :=
  let v := s.freeNow
  let s := setSeal s.drew { s.sealing with challenge := v }
  s.setWord SEL_RESEAL_CHALLENGE_ALL.addr v

/-- Start a reseal, or refuse it: the status (Table 7-8). -/
def startReseal (s : State) (k level node : Nat) : State × Nat :=
  if !loadable k || 4 < level || ceilDiv s.variant.leaves (64 ^ level) ≤ node then (s, 4)
  else if s.sealing.reseal.isSome || s.fabric.adding.isSome then (s, 5)
  else
    let ok := if keyState s k = 0 then underLost s level node else resealAuth s k level node == s.sealing.auth
    if !ok then (sealEvent s 9 428 k, 3) else
    let lines := (leavesUnder s level node).flatMap fun leaf =>
      ((freshLines s leaf).filter fun x => x.2 == k).map fun x => dpaOf leaf x.1 / 64
    let s := s.each lines fun s l =>
      let (s, up) := sendSnoops s l 0 (holdersOf s l)
      if up.isEmpty then s else addSnoop s l up .reseal
    ((setSeal s { s.sealing with reseal := some { key := k, level := level, node := node } }).put SEL_RESEAL_STATUS_LEFT lines.length, 1)

/-- A write of SEL_RESEAL_CMD (Table 7-13): its fields are stored, START checks and starts. KEY_INDEX 0 lies outside its
range and leaves the register unchanged (R235); a reserved LEVEL leaves that field unchanged (R12). -/
def writeResealCmd (s : State) (v : BitVec 64) : State :=
  let k := bitsOf v.toNat 48 10
  let level := if 4 < bitsOf v.toNat 45 3 then s.get SEL_RESEAL_CMD_LEVEL else bitsOf v.toNat 45 3
  let node := bitsOf v.toNat 16 27
  if k = 0 then notice s 428 else
  let s := if 4 < bitsOf v.toNat 45 3 then notice s 428 else s
  let s := s.setWord SEL_RESEAL_CMD_KEY_INDEX.addr (BitVec.ofNat 64 (k * 2 ^ 48 + level * 2 ^ 45 + node * 2 ^ 16))
  if !v.getLsbD 0 then s else
  let (s, st) := startReseal s k level node
  newChallenge (s.put SEL_RESEAL_STATUS_STATUS st)

/-- RESEAL_START (R228, R230). -/
def execResealStart (value : BitVec 64) (s : State) : Host.Outcome State Fault Refusal := .next (writeResealCmd s value)

/-- Rebuild the nodes of levels 1 to 3 at or beneath a node: minors 0, new tree MACs under their versions (R229), nothing of
them left modified in the counter cache. -/
def rebuild (s : State) (level node : Nat) : State :=
  let mine (k : Nat) : Bool := decide (k / 2 ^ 30 < 4) && beneath (k / 2 ^ 30) (k % 2 ^ 30) level node
  let s := setSeal s { s.sealing with
    tree := s.sealing.tree.map fun (k, n) => (k, if mine k then { n with minors := [] } else n)
    dirty := s.sealing.dirty.filter fun k => !mine k
    cache := s.sealing.cache.map fun x => if x.1 == 1 && mine (2 ^ 30 + x.2.1) then (x.1, x.2.1, false) else x }
  s.each ((s.sealing.tree.filter fun x => mine x.1).map (·.1)).reverse fun s k => remac s (k / 2 ^ 30) (k % 2 ^ 30)

/-- The named node's version in its parent increments; a top-level node turns its own major over (R229). -/
def newEpoch (s : State) (level node : Nat) : State :=
  if level = 4 then
    let n := treeNode s 4 node
    setNode s 4 node { n with major := n.major + 1, minors := [] }
  else writeBack s level node

/-- Blank the FRESH lines of an index in a leaf, and free its counter line when none is left (R229). -/
def resealLeaf (s : State) (k leaf : Nat) : State :=
  let mine := (freshLines s leaf).filter fun x => x.2 == k
  let s := mapLeafLines s leaf fun _ m => if m.fresh && m.key == k then {} else m
  let s := s.each mine fun s x => clearHolders s (dpaOf leaf x.1 / 64) none
  let s := mergeDrop s fun d _ => leafOf d == leaf
  let s := chargeNow s 4093 (64 * 64 + 64 * mine.length)
  if (freshLines s leaf).isEmpty then freeCounter s leaf else s

/-- RESEAL_COMPLETE (R229): once every holder of a line to be blanked has answered. -/
def execResealComplete (s : State) : Host.Outcome State Fault Refusal :=
  .next (
    match s.sealing.reseal with
    | none => s
    | some r =>
      if s.fabric.snoops.any fun x => x.why == .reseal then s else
      let s := s.each (leavesUnder s r.level r.node) fun s leaf => resealLeaf s r.key leaf
      let s := rebuild (newEpoch s r.level r.node) r.level r.node
      let s := s.each ((unverifiable s).filter fun (_, l, n) => (leavesUnder s l n).all fun leaf => (freshLines s leaf).isEmpty)
        fun s (i, _, _) => clearEntry s i
      let left := s.sealing.extraLost.filter fun (l, n) => !((leavesUnder s l n).all fun leaf => (freshLines s leaf).isEmpty)
      let s := settleLost (setSeal s { s.sealing with reseal := none, extraLost := left })
      showLocked ((s.put SEL_RESEAL_STATUS_STATUS 2).put SEL_RESEAL_STATUS_LEFT 0))

/-! ### Link IDE (R231) -/

/-- STATE, KEYSET and MODE fields of a stream. -/
def ideState (p i : Nat) : Fld := if i = 0 then SEL_IDE_S0_STATE p else SEL_IDE_S1_STATE p
def ideKeyset (p i : Nat) : Fld := if i = 0 then SEL_IDE_S0_KEYSET p else SEL_IDE_S1_KEYSET p

/-- The session that may carry IDE_KM for a port: over DOE on a Host port, a mutually authenticated one over MGMT0 for a
Peer port (R231, R582). -/
def ideSession (s : State) (x : Session) (p : Nat) : Bool :=
  match s.get (PRT_PORT_CTRL_ROLE p) with
  | 0 => x.port == some p
  | 1 => x.port.isNone && x.mutAuth
  | _ => false

/-- IDE_KM_MESSAGE (R231): programs a key set of a stream, switches to a programmed set, or stops the stream. -/
def execIdeKmMessage (session : BitVec 32) (port : Fin 64) (stream : Fin 2) (op : Fin 3) (keySet : Fin 2) (containment : Bool)
    (key : BitVec 256) (s : State) : Host.Outcome State Fault Refusal :=
  .next (
    match sessionOf s session.toNat with
    | none => spdmError s
    | some x =>
      if !ideSession s x port then spdmError s else
      let id := 2 * port.val + stream.val
      let st := Tab.at s.sealing.ide id {}
      let s := if op = 0 then
          let st' := { st with keys := (keySet.val, key) :: st.keys.filter fun k => k.1 != keySet.val }
          setSeal s { s.sealing with ide := Tab.set s.sealing.ide id st' }
        else if op = 1 then
          (if !(st.keys.any fun k => k.1 == keySet.val) then s else
          let s := (s.put (ideState port stream) 1).put (ideKeyset port stream) keySet
          if stream = 1 then s.putB (SEL_IDE_S1_MODE port) containment else s)
        else setSeal (s.put (ideState port stream) 0) { s.sealing with ide := Tab.del s.sealing.ide id }
      s.send (.answer "IDE_KM_MESSAGE" 0 []))

/-- IDE_INTEGRITY_FAILURE (R231): a secure stream goes to insecure, FAILS increments, a Contained event. -/
def execIdeIntegrityFailure (port : Fin 64) (stream : Fin 2) (s : State) : Host.Outcome State Fault Refusal :=
  .next (
    if s.get (ideState port stream) ≠ 1 then s else
    sealEvent ((s.put (ideState port stream) 2).inc (SEL_IDE_FAILS port)) 10 (448 + port.val) stream)

end Sys2Proof.Machine
end

