-- ==== Sys2Proof/Machine/Mailbox.lean ====
section
/-! DEFINITION. The host mailbox and its commands (R345, R358 to R360, R511, Tables 11-8 to 11-10). -/

namespace Sys2Proof.Machine

/-! ### Mailboxes -/

def box (s : State) (n : Nat) : Mailbox := Tab.at s.scribes.boxes n {}
def setBox (s : State) (n : Nat) (b : Mailbox) : State := { s with scribes := { s.scribes with boxes := Tab.set s.scribes.boxes n b } }

/-- Port, sub-link and LD of a mailbox (R358). -/
def boxPort (n : Nat) : Nat := n / 64
def boxSub (n : Nat) : Nat := n / 16 % 4
def boxLd (n : Nat) : Nat := n % 16

/-- Mailbox of an OWNER of kind 0b00. -/
def boxOfOwner (o : Nat) : Nat := 16 * (4 * bitsOf o 8 6 + bitsOf o 6 2) + o % 16

/-- A byte of BAR0: MB_CAP is constant. -/
def boxByte (s : State) (n off : Nat) : BitVec 8 :=
  if off = 0 then 1 else if off = 3 then 0xF0 else if off < 4 then 0 else Tab.at (box s n).mem off 0
/-- A little-endian field of BAR0. -/
def boxNum (s : State) (n off len : Nat) : Nat := leNat ((List.range len).map fun i => boxByte s n (off + i))
/-- Write bytes of BAR0, MB_CAP apart. -/
def boxPut (s : State) (n off : Nat) (l : List (BitVec 8)) : State :=
  let b := box s n
  let l' := (l.zipIdx.filter fun (_, i) => decide (4 ≤ off + i))
  setBox s n { b with mem := l'.foldl (fun m (v, i) => Tab.put m (off + i) v 0) b.mem }

def doorbell (s : State) (n : Nat) : Bool := (boxByte s n 4).getLsbD 0
/-- OPCODE and payload of the command under way. -/
def boxOpcode (s : State) (n : Nat) : Nat := boxNum s n 8 2
def boxLength (s : State) (n : Nat) : Nat := min (boxNum s n 12 4) 0xF000
def payload (s : State) (n : Nat) : List (BitVec 8) := (List.range (boxLength s n)).map fun i => boxByte s n (0x1000 + i)

/-- OWNER of a mailbox's logical device. -/
def boxOwner (n : Nat) : Nat := linkOwner (boxPort n) (boxSub n) (boxLd n)

/-- MBX_COMPLETE (R360): DOORBELL clears and the completion interrupt is sent while COMPLETE_INT is set. -/
def completeBox (s : State) (n : Nat) : State :=
  if !doorbell s n then s else
  let b := box s n
  let s := setBox s n { b with mem := Tab.put b.mem 4 (Tab.at b.mem 4 0 &&& 0xFE) 0, since := none, token := none }
  if (boxByte s n 4).getLsbD 1 then s.send (.msix (boxOwner n) (boxNum s n 0x18 2 % 4096)) else s

/-- Finish a command: response payload, MB_STATUS and the completion (R358, R359). -/
def finish (s : State) (n ret detail : Nat) (resp : List (BitVec 8)) : State :=
  let s := boxPut s n 0x1000 resp
  completeBox (boxPut s n 0x10 (leBytes 2 ret ++ leBytes 2 detail ++ leBytes 4 resp.length)) n

/-! ### The async ring (R345, Table 11-8) -/

/-- Post an async entry to the LD of an OWNER: 0 OK, 1 FULL, 2 INVALID (R345). -/
def asyncPost (s : State) (owner type source : Nat) (data : List (BitVec 8)) : State × Nat :=
  let n := boxOfOwner owner
  if owner / 2 ^ 14 ≠ 0 || bitsOf owner 4 2 ≠ 0 || !ldOn s (boxPort n) (boxSub n) (boxLd n) then (s, 2) else
  let tail := boxNum s n 0x24 4 % 32
  if (tail + 1) % 32 = boxNum s n 0x20 4 % 32 then (s, 1) else
  let b := box s n
  let time := s.stamp
  let entry := leBytes 2 source ++ leBytes 2 type ++ leBytes 4 b.seq ++ leBytes 8 time.toNat ++ data.take 48
  let s := boxPut (setBox s.timed n { b with seq := (b.seq + 1) % 2 ^ 32 }) n (0x800 + 64 * tail) entry
  let s := boxPut s n 0x24 (leBytes 4 ((tail + 1) % 32))
  (if (boxByte s n 4).getLsbD 2 then s.send (.msix owner (boxNum s n 0x1A 2 % 4096)) else s, 0)

/-! ### Submitting (R358, R359) -/

/-- The opcodes of Tables 11-9 and 12-9. -/
def mailboxOpcodes : List Nat :=
  [0x01, 0x10, 0x11, 0x12, 0x13, 0x14, 0x15, 0x20, 0x40, 0x41, 0x42, 0x43, 0x44, 0x48, 0x49, 0x4A, 0x50, 0x60, 0x70, 0x71, 0x80]

/-- Opcodes the loader handles. -/
def loaderOpcode (op : Nat) : Bool := op == 1 || (decide (0x10 ≤ op) && decide (op ≤ 0x15))

/-- A mailbox may send a command (R358). -/
def mayOrder (s : State) (n op : Nat) : Bool :=
  [0x01, 0x20, 0x50].contains op || s.flag (MBX_ADMIN_ALL (n / 64)) (n % 64)

/-- The Scribe whose rubric has a role. -/
def roleScribe (s : State) (role : Nat) : Option Nat :=
  (List.range 8).find? fun k => s.get (MBX_SCRIBE_HANDLE k) != 0 && s.get (MBX_SCRIBE_ROLE k) == role

/-- A submitted command is gated, and handed to the management rubric when it serves it. -/
def submitBox (s : State) (n : Nat) : State :=
  let op := boxOpcode s n
  let s := setBox s n { box s n with since := some s.folio, token := none }
  if !mailboxOpcodes.contains op then finish s n mbUnsupported 0 []
  else if !mayOrder s n op then finish s n mbDenied 0 []
  else if loaderOpcode op then (if s.scribes.loader.isNone then finish s n mbBusy 0 [] else s)
  else if op = 0x20 then s
  else match roleScribe s 6 with
    | some k => postEvent s k (descriptor 0x0B n)
    | none => s

/-- A host reaches a mailbox: its logical device exists on a sub-link that is up, and the node is not in the Fatal
state (R297). -/
def boxReached (s : State) (n : Nat) : Bool :=
  linkUp s (boxPort n) (boxSub n) && s.get (PRT_PORT_CTRL_ROLE (boxPort n)) == 0 && ldOn s (boxPort n) (boxSub n) (boxLd n) && !s.fatal

/-- MAILBOX_DOORBELL (R358): a host writes MB_CTRL. -/
def execMailboxDoorbell (mailbox : Fin 4096) (value : BitVec 32) (s : State) : Host.Outcome State Fault Refusal :=
  .next (
    if !boxReached s mailbox then s else
    let s := linkActivity s
    let busy := doorbell s mailbox
    let s := boxPut s mailbox 4 [BitVec.ofNat 8 (value.toNat % 8 / 2 * 2 + b2n (busy || value.getLsbD 0))]
    if busy || !value.getLsbD 0 then s else submitBox s mailbox)

/-- MAILBOX_AREA_WRITE (R358): a host writes MB_CMD, the payload, MB_VECTORS or MB_ASYNC_HEAD; MB_CMD and the payload
are closed while DOORBELL is 1. -/
def execMailboxAreaWrite (mailbox : Fin 4096) (offset : BitVec 16) (bytes : List (BitVec 8)) (s : State) :
    Host.Outcome State Fault Refusal :=
  .next (
    if !boxReached s mailbox then s else
    let s := linkActivity s
    let o := offset.toNat
    let cmd := decide (8 ≤ o) && decide (o + bytes.length ≤ 16)
    let area := decide (0x1000 ≤ o) && decide (o + bytes.length ≤ 0x10000)
    if cmd || area then
      if doorbell s mailbox then notice s (320 + boxPort mailbox) else boxPut s mailbox o bytes
    else if o = 0x18 ∧ bytes.length = 4 then
      boxPut s mailbox o (leBytes 4 (leNat bytes &&& 0x0FFF0FFF))
    else if o = 0x20 ∧ bytes.length = 4 then
      if leNat bytes < 32 then boxPut s mailbox o bytes else notice s (320 + boxPort mailbox)
    else notice s (320 + boxPort mailbox))

/-- MAILBOX_TIMEOUT (R359): a command not completed within 64 folios. -/
def execMailboxTimeout (mailbox : Fin 4096) (s : State) : Host.Outcome State Fault Refusal :=
  .next (
    match (box s mailbox).since with
    | some f => if doorbell s mailbox ∧ f + 64 ≤ s.folio then finish s mailbox mbTimeout 0 [] else s
    | none => s)

/-- A write of MBX_COMPLETE (R360). -/
def writeMbxComplete (s : State) (v : BitVec 64) : State :=
  if v.getLsbD 0 then completeBox s (s.get MBX_SELECT_MAILBOX) else s

/-- MBX_COMPLETE (R360). -/
def execMbxComplete (value : BitVec 64) (s : State) : Host.Outcome State Fault Refusal := .next (writeMbxComplete s value)

/-! ### Serving a command -/

/-- A command's handling: return code, detail and response. -/
structure Served where
  ret : Nat := 0
  detail : Nat := 0
  resp : List (BitVec 8) := []

/-- Serve the command a mailbox has under way when it is `op`, its handler runs and it is not waiting for a reply. -/
def serve (s : State) (n op : Nat) (ready : Bool) (f : State → List (BitVec 8) → State × Served) : State :=
  if !doorbell s n || (box s n).since.isNone || (box s n).token.isSome || boxOpcode s n ≠ op || !ready || s.fatal then s else
  let (s, r) := f s (payload s n)
  finish s n r.ret r.detail r.resp

/-- The loader serves a command. -/
def loaderReady (s : State) : Bool := s.scribes.loader.isSome
/-- The base management rubric serves a command. -/
def managementReady (s : State) : Bool := baseRuns s 6

/-- GET_INFO (Table 11-9). -/
def execGetInfo (mailbox : Fin 4096) (s : State) : Host.Outcome State Fault Refusal :=
  .next (serve s mailbox 1 (loaderReady s) fun s _ =>
    let running := ((List.range 8).filter fun k => s.get (MBX_SCRIBE_STATE k) == 1).length
    (s, { resp := leBytes 2 1 ++ leBytes 2 (variantCode s.variant) ++ leBytes 2 running ++ leBytes 2 0 }))

/-- RUBRIC_LIST (Table 11-9). -/
def execRubricList (mailbox : Fin 4096) (s : State) : Host.Outcome State Fault Refusal :=
  .next (serve s mailbox 0x10 (loaderReady s) fun s _ =>
    let ks := (List.range 8).filter fun k => s.get (MBX_SCRIBE_HANDLE k) != 0
    let row (k : Nat) : List (BitVec 8) :=
      let r := (rubricAt s k).getD {}
      leBytes 2 (s.get (MBX_SCRIBE_HANDLE k)) ++ leBytes 2 r.role ++ leBytes 1 k ++ leBytes 1 (s.get (MBX_SCRIBE_STATE k))
        ++ leBytes 1 (s.get (MBX_SCRIBE_RESTARTS k)) ++ leBytes 1 0 ++ leBytes 4 r.version ++ leBytes 4 0
        ++ (List.range 32).map fun i => r.name.getD i 0
    (s, { resp := leBytes 2 ks.length ++ leBytes 2 0 ++ ks.flatMap row }))

/-! ### Loading (R357) -/

/-- The first number from `f` on, wrapping at 2^16, that a list does not hold. -/
def unused (f : Nat) (used : List Nat) : Nat :=
  ((List.range (used.length + 1)).find? fun i => !used.contains ((f + i) % 65536)).elim f fun i => (f + i) % 65536

/-- Open a load session; its number is a free value (assumption 29). -/
def openSession (s : State) (kernel : Bool) (length : Nat) : State × Nat :=
  let id := unused (s.freeNow.toNat % 65536) (s.scribes.sessions.map (·.1))
  let s := s.drew
  ({ s with scribes := { s.scribes with sessions := Tab.set s.scribes.sessions id { kernel := kernel, length := length, folio := s.folio } } }, id)

/-- BEGIN of a load. -/
def loadBegin (kernel : Bool) (s : State) (p : List (BitVec 8)) : State × Served :=
  if field p 4 4 ≠ 0 || field p 0 4 < 3988 || p.length < 8 then (s, { ret := mbInvalid })
  else if 65536 ≤ s.scribes.sessions.length then (s, { ret := mbBusy })
  else
    let (s, id) := openSession s kernel (field p 0 4)
    (s, { resp := leBytes 2 id })

/-- CHUNK of a load. -/
def loadChunk (kernel : Bool) (s : State) (p : List (BitVec 8)) : State × Served :=
  let id := field p 0 2
  match (Tab.find s.scribes.sessions id).filter fun x => x.kernel == kernel with
  | none => (s, { ret := mbNotFound })
  | some x =>
    let off := field p 4 4
    let bytes := p.drop 8
    if p.length < 8 || field p 2 2 ≠ 0 || x.length < off + bytes.length then (s, { ret := mbInvalid }) else
    ({ s with scribes := { s.scribes with sessions := Tab.set s.scribes.sessions id { x with bytes := putBytes x.bytes off bytes } } }, {})

/-- Close a session. -/
def closeSession (s : State) (id : Nat) : State :=
  { s with scribes := { s.scribes with sessions := Tab.del s.scribes.sessions id } }

/-- The handle of the next owner rubric (R351). -/
def nextHandle (s : State) : Nat :=
  let f := s.scribes.nextHandle
  ((List.range (s.rubrics.length + 1)).find? fun i => (Tab.find s.rubrics (0x100 + (f - 0x100 + i) % 0xFF00)).isNone).elim f
    fun i => 0x100 + (f - 0x100 + i) % 0xFF00

/-- Why the loader refuses an image: Table 11-10's code; the image's Scribe otherwise (R356, R357). -/
def judgeRubric (s : State) (l : List (BitVec 8)) : Nat ⊕ (Rubric × Nat) :=
  let r := rubricOf l
  if !rubricLayoutOk l then .inl mbInvalid else
  match verifyImage s l r.vendor (r.writeGrant.getLsbD 4 || r.writeGrant.getLsbD 6) r.version with
  | .inl e => .inl e
  | .inr signer =>
    let others := s.rubrics.filter fun (_, o) => !(r.role != 0 && o.role == r.role)
    let held := others.foldl (fun m (_, o) => m ||| o.slots) (0#64)
    let sameOwner := r.role != 0 && s.rubrics.any fun (_, o) => o.role == r.role && !o.base
    if (!r.vendor && bitsOf r.slots.toNat 48 16 ≠ 0) || (held &&& r.slots) != 0 || sameOwner then .inl mbConflict else
    match freeRegion s r.units with
    | none => .inl mbNospace
    | some reg =>
      let old := if r.role = 0 then none else roleScribe s r.role
      let pref := field l 0x34 1
      let k := old.orElse fun _ => if pref < 8 ∧ scribeFree s pref then some pref else freeScribe s
      match k with
      | none => .inl mbNospace
      | some k => .inr ({ r with signer := signer, region := reg, stopped := true }, k)

/-- COMMIT of a rubric (R356, R357): verified, given a Scribe, and started at the next line 0 of a folio when its role
is not 0, else at once. -/
def loadCommit (s : State) (p : List (BitVec 8)) : State × Served :=
  let id := field p 0 2
  match (Tab.find s.scribes.sessions id).filter fun x => !x.kernel with
  | none => (s, { ret := mbNotFound })
  | some x =>
    let s := closeSession s id
    match judgeRubric s (bytesAt x.bytes 0 x.length) with
    | .inl e =>
      let s := if e = mbSignature ∨ e = mbRollback ∨ e = mbDenied then event s 0xB4 440 e else s
      (s, { ret := e })
    | .inr (r, k) =>
      let h := nextHandle s
      let s := setRubric s h { r with handle := h }
      let s := { s with scribes := { s.scribes with nextHandle := if h = 0xFFFF then 0x100 else h + 1 } }
      let folio := if r.role = 0 then s.folio else s.folio + 1
      let s := if r.role = 0 then startRubric s k h
        else syncLoader { s with scribes := { s.scribes with handover := s.scribes.handover ++ [(h, k)] } }
      (s, { resp := leBytes 2 h ++ leBytes 1 k ++ leBytes 1 0 ++ leBytes 4 (folio % 2 ^ 32) })

/-- RUBRIC_LOAD_BEGIN (R357). -/
def execRubricLoadBegin (mailbox : Fin 4096) (s : State) : Host.Outcome State Fault Refusal :=
  .next (serve s mailbox 0x11 (loaderReady s) (loadBegin false))

/-- RUBRIC_LOAD_CHUNK (R357). -/
def execRubricLoadChunk (mailbox : Fin 4096) (s : State) : Host.Outcome State Fault Refusal :=
  .next (serve s mailbox 0x12 (loaderReady s) (loadChunk false))

/-- RUBRIC_LOAD_COMMIT (R357). -/
def execRubricLoadCommit (mailbox : Fin 4096) (s : State) : Host.Outcome State Fault Refusal :=
  .next (serve s mailbox 0x13 (loaderReady s) loadCommit)

/-- RUBRIC_STOP (R359): of an owner rubric; in place of one that replaced a base rubric the base rubric is loaded again
(R354). -/
def execRubricStop (mailbox : Fin 4096) (s : State) : Host.Outcome State Fault Refusal :=
  .next (serve s mailbox 0x14 (loaderReady s) fun s p =>
    let h := field p 0 2
    match Tab.find s.rubrics h with
    | none => (s, { ret := mbNotFound })
    | some r => if r.base then (s, { ret := mbInvalid })
      else (if r.role = 0 then dropRubric s h else stopRubric s h, {}))

/-- RUBRIC_RESTORE_BASE (R359): the base rubric of a role is loaded in the place of its role's rubric. -/
def execRubricRestoreBase (mailbox : Fin 4096) (s : State) : Host.Outcome State Fault Refusal :=
  .next (serve s mailbox 0x15 (loaderReady s) fun s p =>
    let role := field p 0 2
    match (if role = 0 then none else Tab.find s.scribes.firmware role) with
    | none => (s, { ret := mbInvalid })
    | some r =>
      let old := roleScribe s role
      let s := match old with | some k => dropRubric s (s.get (MBX_SCRIBE_HANDLE k)) | none => s
      match (match old with | some k => some k | none => freeScribe s) with
      | none => (s, { ret := mbNospace })
      | some k => (loadBase s role k, { resp := leBytes 2 r.handle }))

/-! ### Messages (R346, R359) -/

/-- Place a message in a rubric's inbox: false when it is full. A class 0x02 event says that it is not empty. -/
def toInbox (s : State) (h : Nat) (m : Message) : State × Bool :=
  match Tab.find s.rubrics h with
  | none => (s, false)
  | some r =>
    if 32 ≤ r.inbox.length then (s, false) else
    let s := setRubric s h { r with inbox := r.inbox ++ [m] }
    match scribeOf s h with
    | some k => (postEvent s k (descriptor 2 (r.inbox.length + 1)), true)
    | none => (s, true)

/-- A rubric that is running, or restarting, by handle. -/
def runningRubric (s : State) (h : Nat) : Bool := (scribeOf s h).isSome && (Tab.find s.rubrics h).isSome

/-- RUBRIC_MESSAGE (R359): the body goes to the target's inbox under a fresh token, a free value (assumption 29); the
command completes on its reply. -/
def execRubricMessage (mailbox : Fin 4096) (s : State) : Host.Outcome State Fault Refusal :=
  .next (
    if !doorbell s mailbox || (box s mailbox).since.isNone || (box s mailbox).token.isSome || boxOpcode s mailbox ≠ 0x20 || s.fatal then s
    else
      let p := payload s mailbox
      let h := field p 0 2
      if p.length < 4 || field p 2 2 ≠ 0 then finish s mailbox mbInvalid 0 []
      else if !runningRubric s h then finish s mailbox mbNotFound 0 []
      else
        let t := unused (s.freeNow.toNat % 65536) (s.scribes.boxes.filterMap fun (_, b) => b.token)
        match toInbox s.drew h { kind := 1, source := t, body := BitVec.ofNat 512 (field p 4 64) } with
        | (s, true) => setBox s mailbox { box s mailbox with token := some t }
        | (s, false) => finish s mailbox mbBusy 1 [])

/-- The reply to the request with a token (R345, R359): false when no such request waits. -/
def replyTo (s : State) (t : Nat) (body : List (BitVec 8)) : State × Bool :=
  match s.scribes.boxes.find? fun (_, b) => b.token == some t with
  | some (n, _) => (finish s n mbSuccess 0 (body.take 64), true)
  | none => (s, false)

/-! ### Commands of the management rubric (Table 11-9) -/

/-- The 64 bytes of a record (Table 18-4); one whose ring copy is uncorrectable keeps its sequence number alone
(R515). -/
def recordBytes (s : State) (r : Record) : List (BitVec 8) :=
  if s.blotter.badRecords.contains r.seq then leBytes 8 0 ++ leBytes 8 r.seq ++ List.replicate 48 0 else
  let flags := b2n r.capture + 2 * b2n r.overflow + 4 * b2n r.injected + 8 * b2n r.masterValid + 16 * b2n r.dpaValid
    + 32 * b2n r.mediaValid
  leBytes 8 r.time.toNat ++ leBytes 8 r.seq ++ leBytes 2 (r.type + r.severity * 512 + r.quality * 4096) ++ leBytes 2 r.source
    ++ leBytes 1 flags ++ leBytes 1 r.access ++ leBytes 2 r.master ++ leBytes 2 r.pbr ++ leBytes 6 0 ++ leBytes 8 r.dpa
    ++ leBytes 5 r.media ++ leBytes 3 0 ++ leBytes 8 r.count ++ leBytes 8 r.detail.toNat

/-- GET_EVENT_RECORDS (R511): the log ring's records that concern the requesting LD, at most 956. -/
def execGetEventRecords (mailbox : Fin 4096) (s : State) : Host.Outcome State Fault Refusal :=
  .next (serve s mailbox 0x50 (managementReady s) fun s p =>
    let first := field p 0 4
    let most := min (field p 4 2) 956
    if p.length < 8 || field p 6 2 ≠ 0 then (s, { ret := mbInvalid }) else
    let rs := (s.blotter.log.filter fun r => decide (first ≤ r.seq) && concerns s r (boxPort mailbox) (boxLd mailbox)).take most
    let resp := leBytes 2 rs.length ++ leBytes 2 0 ++ rs.flatMap (recordBytes s)
    let s := s.each (rs.filter fun r => s.blotter.badRecords.contains r.seq) fun s r => event s 0x123 444 r.seq
    (s, { resp := resp }))

/-- PIN_RANGE (R163, R359): leaves in quires the requesting LD holds; pins are capped at 1 Mi leaves. -/
def execPinRange (mailbox : Fin 4096) (s : State) : Host.Outcome State Fault Refusal :=
  .next (serve s mailbox 0x60 (managementReady s && baseRuns s 1) fun s p =>
    if p.length < 13 || 2 ≤ field p 12 1 || field p 13 3 ≠ 0 then (s, { ret := mbInvalid }) else
    let pin := field p 12 1 == 1
    let first := leafOf (field p 0 8 % 2 ^ 42)
    let me := 16 * boxPort mailbox + boxLd mailbox
    let ls := (s.ductus.map.filter fun (k, e) => decide (first ≤ k) && decide (k < first + field p 8 4)
      && (quireHolders s (k / 512)).contains me && !e.remote && e.pinned != pin).map (·.1)
    let pinned := (s.ductus.map.filter fun (_, e) => e.pinned).length
    let ls := if pin then ls.take (2 ^ 20 - pinned) else ls
    let r := ls.foldl (fun (x : State × Nat) k => let y := pinLeaf x.1 k pin; (y.1, x.2 + b2n (y.2 == stOk))) (s, 0)
    (r.1, { resp := leBytes 4 r.2 }))

/-- RESEAL_GET_CHALLENGE (R228). -/
def execResealGetChallenge (mailbox : Fin 4096) (s : State) : Host.Outcome State Fault Refusal :=
  .next (serve s mailbox 0x70 (managementReady s && baseRuns s 4) fun s p =>
    if p.length < 8 || field p 3 1 ≠ 0 then (s, { ret := mbInvalid }) else
    (s, { resp := leBytes 8 s.sealing.challenge.toNat }))

/-- The SEL_RESEAL_CMD word that a submission asks for: its key index, node level and node, with START (Table 7-13). -/
def resealWord (p : List (BitVec 8)) : BitVec 64 :=
  BitVec.ofNat 64 (field p 0 2 * 2 ^ 48 + field p 2 1 * 2 ^ 45 + field p 4 4 * 2 ^ 16 + 1)

/-- RESEAL_SUBMIT (R228): the error rubric writes AUTH and starts the reseal; a status other than running or done comes
back as REFUSED with it in the detail. -/
def execResealSubmit (mailbox : Fin 4096) (s : State) : Host.Outcome State Fault Refusal :=
  .next (serve s mailbox 0x71 (managementReady s && baseRuns s 4) fun s p =>
    if p.length < 14 || field p 3 1 ≠ 0 || !loadable (field p 0 2) || 4 < field p 2 1 || 2 ^ 27 ≤ field p 4 4 then
      (s, { ret := mbInvalid }) else
    let s := setSeal s { s.sealing with auth := BitVec.ofNat 48 (field p 8 6) }
    let s := writeResealCmd s (resealWord p)
    let st := s.get SEL_RESEAL_STATUS_STATUS
    let ok := decide (st = 1) || decide (st = 2)
    (s, { ret := if ok then mbSuccess else mbRefused, detail := if ok then 0 else st, resp := leBytes 2 st }))

/-- The 16-byte records of an admission (R183). -/
def admitRecords (l : List (BitVec 8)) (n : Nat) : List (BitVec 64 × BitVec 64) :=
  (List.range n).map fun i => (BitVec.ofNat 64 (field l (16 * i) 8), BitVec.ofNat 64 (field l (16 * i + 8) 8))

/-- ACCOUNT_REQUEST (R183, Table 11-5): the base regulation rubric admits under the hot assumption (assumption 30). -/
def execAccountRequest (mailbox : Fin 4096) (s : State) : Host.Outcome State Fault Refusal :=
  .next (serve s mailbox 0x80 (managementReady s && baseRuns s 2) fun s p =>
    let n := field p 0 2
    if p.length < 4 || 2 ≤ field p 2 1 || field p 3 1 ≠ 0 || n = 0 || 4096 < n || p.length < 4 + 16 * n then (s, { ret := mbInvalid }) else
    let (s, st) := admitAccount s (admitRecords (p.drop 4) n) false
    (s, { ret := if st = 0 then mbSuccess else mbRefused, detail := st
          resp := leBytes 8 (s.word ACC_ADMIT_STATUS_STATUS.addr).toNat }))

/-! ### The base regulation rubric (Table 11-5, assumption 73) -/

/-- The next 48 bytes that the spec leaves open: free values. -/
def freeBytes (s : State) : List (BitVec 8) := (List.range 6).flatMap fun i => leBytes 8 (Config.freeValue (s.free + i)).toNat

/-- Bytes per line committed on a channel: its hard and firm shares as ACC_CHANNEL shows them. -/
def committedOn (s : State) (g : Nat) : Nat := s.get (ACC_CHANNEL_HARD g) + s.get (ACC_CHANNEL_FIRM g)

/-- An account that became REDUCED gains a channel: of the Normal channels of its set's tower outside the set, the
lowest-numbered with the least committed share. -/
def growSpread (s : State) (a : Nat) : State :=
  let n := s.get (ACC_CFG_SPREAD a)
  let set := spreadSet s n
  match set with
  | [] => s
  | g :: _ =>
    match leastBy (committedOn s) (((List.range 64).map (64 * (g / 64) + ·)).filter fun c => normalChan s c && !set.contains c) with
    | none => s
    | some c => writeSpread s n (c / 64) (BitVec.ofNat 64 (setBit (s.word (DCT_SPREAD_SET_ALL n (c / 64)).addr).toNat (c % 64)))

/-- The base regulation rubric on a REDUCED event: the account's spread set grows, and an async entry of TYPE 0x01, whose
data the spec does not give, goes to the owning logical device. -/
def reducedRubric (s : State) (a : Nat) : State :=
  let data := freeBytes s
  let s := growSpread (s.each (List.range 6) fun s _ => s.drew) a
  (asyncPost s (s.get (ACC_CFG_OWNER a)) 1 2 data).1

/-- SHORTFALL_EVALUATION (R181, R189): on each line whose index is a multiple of 4; the base regulation rubric answers
the accounts that became REDUCED. -/
def execShortfallEvaluation (s : State) : Host.Outcome State Fault Refusal :=
  .next (if s.ruling.line % 4 ≠ 0 then s else
    let before := s
    let s := fillWaiting (evaluate s (fun a => stripedOver s a (spreadSet s (s.get (ACC_CFG_SPREAD a)))) (stripeDelivers s))
    if !baseRuns s 2 then s else
    s.each ((configured s).filter fun a => s.on (ACC_SERVICE_REDUCED a) && !before.on (ACC_SERVICE_REDUCED a)) reducedRubric)

end Sys2Proof.Machine
end

