-- ==== Sys2Proof/Machine/Queues.lean ====
section
/-! DEFINITION. The queue engine (R379 to R382, R384, R390 to R392, R394): queue pairs, completions, validation, and the
placing and starting of work items (R168 to R172, R385 to R389). The rows that call them are in QueueRows.lean. -/

namespace Sys2Proof.Machine

/-! ### Pairs -/

def pair (s : State) (n : Nat) : Pair := Tab.at s.queues.pairs n {}
def setPair (s : State) (n : Nat) (p : Pair) : State := { s with queues := { s.queues with pairs := Tab.set s.queues.pairs n p } }

def Pair.enabled (p : Pair) : Bool := p.cfg.getLsbD 63
def Pair.owner (p : Pair) : Nat := bitsOf p.cfg.toNat 16 16
def Pair.sqSize (p : Pair) : Nat := 2 ^ bitsOf p.cfg.toNat 12 4
def Pair.cqSize (p : Pair) : Nat := 2 ^ bitsOf p.cfg.toNat 8 4
def Pair.group (p : Pair) : Nat := bitsOf p.cfg.toNat 38 10
def Pair.port (p : Pair) : Nat := bitsOf p.owner 8 6
def Pair.sub (p : Pair) : Nat := bitsOf p.owner 6 2
def Pair.ld (p : Pair) : Nat := p.owner % 16

/-- QUE_PAIR_STATE of a pair (Table 12-18). -/
def Pair.stateWord (p : Pair) : BitVec 64 :=
  BitVec.ofNat 64 (p.sqTail * 2 ^ 52 + p.sqHead * 2 ^ 40 + p.cqTail * 2 ^ 28 + p.cqHead * 2 ^ 16 + p.inFlight * 8 + b2n p.phase * 4
    + b2n p.error * 2)

/-- A pair enters ERROR (R380, R381), with its Notice. -/
def pairError (s : State) (n : Nat) : State :=
  let p := pair s n
  if p.error then s else event (setPair s n { p with error := true }) 0xC0 430 n

/-- The pairs bound to a logical device, by local index (R380): those whose configuration names it. -/
def pairsOf (s : State) (p k d : Nat) : List Nat :=
  (s.queues.pairs.filter fun (_, q) => q.cfg != 0 && q.owner == linkOwner p k d).map (·.1)

/-! ### The engine's own reads of device memory (R381, R389) -/

/-- The queue engine may access a DPA for a pair: the pair's LD holds it, its leaf is mapped and the key index serves the
pair (R381). -/
def engineMay (s : State) (n dpa : Nat) : Bool :=
  let p := pair s n
  (quireHolders s (quireOf dpa)).contains (16 * p.port + p.ld) && (leafEntry s (leafOf dpa)).isSome
    && authorised s (.queue n) (dpa / 2 ^ 42 % 1024)

/-- A line of device memory as the queue engine reads it for a pair, charged to the group's account; none when the
access is refused, the line is poison, does not decode (R133) or does not verify, or its leaf is lent. -/
def engineRead (s : State) (n dpa : Nat) (account : Nat) (run : ReadRun) : State × Option (BitVec 512) :=
  let k := dpa / 2 ^ 42 % 1024
  let d := dpa % 2 ^ 42 / 64 * 64
  match leafEntry s (leafOf d) with
  | none => (s, none)
  | some e =>
    if e.remote || !engineMay s n dpa then (s, none) else
    let s := chargeNow s account 64
    let buffered := (bufferedLine (chan s e.loc.chan) e.loc.bankIndex e.loc.row (lineOf d)).isSome
    let line := currentLine s e.loc (lineOf d)
    let ok := buffered || readOk s e.loc.chan run
    let s := if buffered then s else readSeen s e.loc (lineOf d) run (some (originMaster (.queue n))) (some d)
    match openLine s d k line with
    | .data v => (s, if ok then some v else none)
    | _ => (s, none)

/-- Write bytes within one line of device memory for a pair, as a device request of its group's account (R381). -/
def engineWrite (s : State) (n dpa : Nat) (bytes : List (BitVec 8)) : State :=
  let o := dpa % 64
  let w : Write :=
    { origin := .queue n, dpa := dpa % 2 ^ 42 / 64 * 64, key := dpa / 2 ^ 42 % 1024, account := originAccount s (.queue n)
      data := BitVec.ofNat 512 (leNat bytes * 2 ^ (8 * o)), mask := BitVec.ofNat 64 ((2 ^ bytes.length - 1) * 2 ^ o) }
  if !engineMay s n dpa then pairError s n else submit s (.write w)

/-! ### Completions (R391, R392) -/

/-- Completion status (Table 12-13). -/
def csSuccess : Nat := 0
def csLate : Nat := 1
def csTimeout : Nat := 2
def csFault : Nat := 3
def csAborted : Nat := 4
def csNoCore : Nat := 5
def csDeadline : Nat := 6
def csDenied : Nat := 7
def csInvalid : Nat := 8

/-- How an item ended. -/
structure Ending where
  status : Nat
  cause : Nat := 0
  core : Option Nat := none     -- global core that ran it
  split : Bool := false
  result : Nat := 0

/-- The bytes of a completion entry (Table 12-12). The core of an item that no core ran, and its RESULT, the spec does not
give: they are the free value `open'` (assumption 74). -/
def completionBytes (p : Pair) (x : Item) (time : BitVec 64) (e : Ending) (open' : BitVec 64) : List (BitVec 8) :=
  leBytes 8 x.tag.toNat ++ leBytes 8 time.toNat ++ leBytes 2 x.sqHead ++ leBytes 2 e.status
    ++ leBytes 1 (b2n p.phase + 2 * b2n e.split + 4 * b2n e.core.isSome) ++ leBytes 1 e.cause
    ++ leBytes 1 (e.core.getD (open'.toNat % 256)) ++ leBytes 1 0
    ++ leBytes 8 (if e.core.isNone && !e.split then open'.toNat else e.result)

/-- A deleted pair with nothing in flight is disabled, and the command that asked completes (R394). -/
def settlePair (s : State) (n : Nat) : State :=
  let p := pair s n
  if !p.deleting || p.inFlight ≠ 0 then s else
  let s := setPair s n { p with deleting := false, asker := none, error := false, cfg := p.cfg &&& 0x7FFFFFFFFFFFFFFF#64 }
  match p.asker with
  | some m => if (box s m).token = some (0x10000 + n) then finish s m mbSuccess 0 [] else s
  | none => s

/-- What a completion of a status counts and reports (R396, Table 12-15). -/
def countCompletion (s : State) (n status : Nat) : State :=
  let g := (pair s n).group
  if status = csFault then s.inc QUE_COUNTS_FAULTS
  else if status = csNoCore then event (s.inc QUE_COUNTS_NO_CORE) 0xC1 430 n
  else if status = csTimeout then eventOnce s 0xC2 430 g g
  else s

/-- Write an item's completion to its pair's CQ, with the MSI-X (R391); to a host-memory CQ whose sub-link is down it is
dropped (Table 12-14), and without Bus Master Enable in function 1 the write is refused and the pair in ERROR (R381). -/
def writeCompletion (s : State) (x : Item) (e : Ending) : State :=
  let n := x.pair
  let s := countCompletion s n e.status
  let p := pair s n
  let time := s.stamp
  let late := e.status = csSuccess ∧ x.deadline ≠ 0 ∧ x.deadline.toNat < time.toNat
  let e := if late then { e with status := csLate } else e
  let open' := s.timed.freeNow
  let s := s.timed.drew
  let bytes := completionBytes p x time e open'
  let host := p.cfg.getLsbD 61
  let p' := { p with inFlight := p.inFlight - 1 }
  if host && !linkUp s p.port p.sub then settlePair (event (setPair s n p') 0xC3 430 n) n
  else if host && !s.fabric.busMaster.contains p.owner then settlePair (pairError (setPair s n p') n) n else
  let addr := p.cq.toNat / 4096 * 4096 + 32 * p.cqTail
  let wrap := p.cqTail + 1 = p.cqSize
  let s := setPair s n { p' with cqTail := (p.cqTail + 1) % p.cqSize, phase := if wrap then !p.phase else p.phase, used := p.used + 1 }
  let s := if host then s.send (.hostWrite p.port p.sub (BitVec.ofNat 64 addr) bytes) else engineWrite s n (addr % 2 ^ 52) bytes
  let s := if p.cfg.getLsbD 60 && !bit x.flags 3 && linkUp s p.port p.sub then s.send (.msix p.owner (bitsOf p.cfg.toNat 48 12)) else s
  settlePair s n

/-- An item ends: its completion is written, or for a sub-item it is counted in the split item, which completes once
with the worst status when every sub-item has (R171). -/
def endItem (s : State) (i : Nat) (e : Ending) : State :=
  match itemAt s i with
  | none => s
  | some x =>
    let s := { s with queues := { s.queues with items := Tab.del s.queues.items i } }
    match x.parent with
    | none => writeCompletion s x e
    | some (q, idx) =>
      match itemAt s q with
      | none => s
      | some y =>
        let worse := y.worst < e.status ∨ (y.worst = e.status ∧ (idx < y.worstAt ∨ y.left = y.parts))
        let y := if worse then { y with worst := e.status, worstAt := idx, worstCore := e.core.getD 0, worstCause := e.cause } else y
        let y := { y with left := y.left - 1, started := y.started || e.core.isSome }
        if y.left ≠ 0 then setItem s q y else
        let s := { s with queues := { s.queues with items := Tab.del s.queues.items q } }
        writeCompletion s y
          { status := y.worst, cause := y.worstCause, core := if y.started then some y.worstCore else none, split := true
            result := y.parts + y.worstAt * 2 ^ 16 }

/-! ### Validation (R384) -/

/-- The operand that a descriptor names: DPA bits 51:6 and a length in lines. -/
def operandOf (v len : Nat) : Operand := { addr := v % 2 ^ 46 * 64, lines := len }

/-- A work item's 64 bytes (Table 12-10). -/
def itemOf (n order sqHead : Nat) (v : BitVec 512) : Item :=
  let f (byte len : Nat) : Nat := bitsOf v.toNat (8 * byte) (8 * len)
  { pair := n, order := order, kernel := f 0 2, hint := f 2 2, flags := f 4 1, copy := v, sqHead := sqHead
    operands := (List.range 4).map fun j => operandOf (f (8 + 8 * j) 8) (f (8 + 8 * j) 8 / 2 ^ 46)
    args := operandOf (f 40 8) (bitsOf (f 40 8) 46 6), tag := BitVec.ofNat 64 (f 48 8), deadline := BitVec.ofNat 64 (f 56 8) }

/-- Reserved fields of an item are zero and its identifier names a kernel that is present and not on HOLD. -/
def itemFieldsOk (s : State) (x : Item) : Bool :=
  let v := x.copy.toNat
  decide (x.flags < 16) && bitsOf v 40 24 == 0 && bitsOf x.hint 8 6 == 0 && bitsOf v (320 + 52) 12 == 0 && decide (1 ≤ x.kernel)
    && decide (x.kernel < 4096) && s.on (NIB_KERNEL_LOC_VALID x.kernel) && !s.on (NIB_KERNEL_LOC_HOLD x.kernel)

/-- The pieces of an operand, one per leaf: leaf and lines on it (R171). -/
def pieces (o : Operand) : List (Nat × Nat) :=
  if o.lines = 0 then [] else
  let a := o.addr % 2 ^ 42 / 64
  let first := a / 64
  (List.range ((a + o.lines - 1) / 64 + 1 - first)).map fun i =>
    let lo := max a ((first + i) * 64)
    let hi := min (a + o.lines) ((first + i + 1) * 64)
    (first + i, hi - lo)

/-- An operand lies wholly in quires the pair's LD holds, on leaves that are mapped (R278, R289). -/
def operandHeld (s : State) (p : Pair) (o : Operand) : Bool :=
  (pieces o).all fun (leaf, _) =>
    (quireHolders s (leaf / 512)).contains (16 * p.port + p.ld) && (leafEntry s leaf).isSome && decide (leaf < s.variant.leaves)

/-- Key index of an operand. -/
def Operand.key (o : Operand) : Nat := o.addr / 2 ^ 42 % 1024

/-- An operand's key index is LOADED with some present cluster authorised (R204). -/
def operandKeyOk (s : State) (o : Operand) : Bool :=
  o.lines == 0 || (keyState s o.key == 1 && (List.range s.variant.clusters).any fun c => s.flag (SEL_KEY_ATTR_NIB_CLUSTERS o.key) c)

/-- Why an item is not dispatched (R384). -/
def itemRefusal (s : State) (x : Item) : Option Nat :=
  let p := pair s x.pair
  if !itemFieldsOk s x then some csInvalid
  else if !((x.args :: x.operands).all (operandHeld s p)) then some csInvalid
  else if !(x.operands.all (operandKeyOk s)) then some csDenied
  else none

/-! ### Placing (R168 to R172, R385 to R387) -/

/-- A nib core's channel is Normal or Erasure and it is not parked (R168). DESIGN CHOICE (assumption 75, R100): so a core
that a placement rubric has unparked over a Retired channel is given no work item. -/
def coreOpen (s : State) (g : Nat) : Bool :=
  decide (g < s.variant.channels) && decide (s.get (CHN_REPAIR_STATE_STATE g) ≤ 1) && s.get (NIB_CORE_STATE g) != 4
    && !s.on (NIB_CORE_PARK g)

/-- A candidate for an item but for its cluster's power and its hint (R168). -/
def coreFits (s : State) (x : Item) (g : Nat) : Bool :=
  coreOpen s g && x.operands.all fun o => o.lines == 0 || authorised s (.core (8 + g) 0) o.key

/-- What a hint admits (Table 5-5), among cores that are otherwise candidates. -/
def byHint (hint : Nat) (gs : List Nat) : List Nat :=
  match hint / 2 ^ 14 with
  | 1 => let inc := gs.filter fun g => g / 16 == hint % 16
         if inc.isEmpty then gs else inc
  | 2 => gs.filter fun g => g / 16 == hint % 16
  | 3 => gs.filter fun g => g == hint % 256
  | _ => gs

/-- The queue engine dispatches: in Writing, but not during an entry to another state (R430), nor in the Fatal state
(Table 18-7). -/
def dispatching (s : State) : Bool :=
  powerState s == stWriting && !(s.on PWR_STATE_IN_TRANSITION && s.get PWR_STATE_TARGET != stWriting) && !s.fatal

/-- The cores that work taken from a Retired channel's core may go to: those of its cluster (Table 3-9), or every candidate
when the cluster has none (assumption 75). -/
def byCluster (cluster : Option Nat) (gs : List Nat) : List Nat :=
  match cluster with
  | none => gs
  | some c =>
    let inc := gs.filter fun g => g / 16 == c
    if inc.isEmpty then gs else inc

/-- The candidates of an item (R168, R169); none while nothing is dispatched (R430). -/
def candidates (s : State) (x : Item) : List Nat :=
  if !dispatching s then [] else byCluster x.cluster <| byHint x.hint ((List.range s.variant.channels).filter fun g => coreFits s x g && clusterUp s (g / 16))

/-- The run-time estimate of an item in ns (R376). -/
def estimateOf (s : State) (x : Item) : Nat :=
  let len := 64 * (x.operands.headD { addr := 0, lines := 0 }).lines
  s.get (NIB_KERNEL_EST_FIXED_NS x.kernel) + s.get (NIB_KERNEL_EST_NS_PER_KIB x.kernel) * ceilDiv len 1024

/-- load(c): the estimates of the items queued on a core. -/
def loadOf (s : State) (g : Nat) : Nat :=
  (core s (8 + g)).queue.foldl (fun n i => match itemAt s i with | some x => n + estimateOf s x | none => n) 0

/-- Locality penalty of a leaf for a core, in ns (Table 5-6). -/
def penalty (s : State) (leaf g : Nat) : Nat :=
  match leafEntry s leaf with
  | none => 0
  | some e => if e.remote then 300 else if e.loc.chan = g then 0 else if e.loc.chan / 64 = g / 64 then 20 else 40

/-- Fields of DCT_WORK in force (R175). -/
def workMlp (s : State) : Nat := max 1 (bitsOf s.ductus.workForce.toNat 16 8)
def workWarm (s : State) : Nat := bitsOf s.ductus.workForce.toNat 24 8
def workSplitMax (s : State) : Nat := max 1 (bitsOf s.ductus.workForce.toNat 32 8)
def workPremigrate (s : State) : Nat := bitsOf s.ductus.workForce.toNat 48 16

/-- cost(c) of R170, times MLP. -/
def costOf (s : State) (x : Item) (g : Nat) : Nat :=
  loadOf s g * workMlp s + (x.operands.flatMap pieces).foldl (fun n (leaf, lines) => n + lines * penalty s leaf g) 0

/-- A core's cluster is below WARM_LIMIT_C and not suspect. -/
def coolCore (s : State) (g : Nat) : Bool :=
  decide (signed 12 (s.get (THM_CLUSTER_READING (g / 16))) < 4 * (workWarm s : Int)) && !s.on (THM_CLUSTER_SUSPECT (g / 16))

/-- The core an item goes to: by cost, or with WORK_PLACE_ENABLE 0 by its hint or operand 0 (R170, R172). -/
def chooseCore (s : State) (x : Item) : Option Nat :=
  let cand := candidates s x
  if bit s.ductus.ctrlForce 2 then
    let cool := cand.filter (coolCore s)
    leastBy (costOf s x) (if cool.isEmpty then cand else cool)
  else
    let over' := match pieces (x.operands.headD { addr := 0, lines := 0 }) with
      | (leaf, _) :: _ => (match leafEntry s leaf with | some e => if e.remote then none else some e.loc.chan | none => none)
      | [] => none
    match over' with
    | some g => if x.hint / 2 ^ 14 = 0 ∧ cand.contains g then some g else cand.head?
    | none => cand.head?

/-- Leaves that pre-migration would move, when every condition of R172 holds. -/
def premigration (s : State) (x : Item) (g : Nat) : Option (List Nat) :=
  let off := (x.operands.flatMap pieces).filter fun (leaf, _) => penalty s leaf g != 0
  let bytes := 64 * (off.foldl (fun n (_, k) => n + k) 0)
  let free := off.all fun (leaf, _) => match leafEntry s leaf with | some e => !e.hard && !e.pinned | none => false
  let leaves := (off.map (·.1)).dedup
  let ends := s.ruling.line * 1000 + bytes / 16 + 2000 + loadOf s g + estimateOf s x + 64000
  let due := x.deadline == 0 || decide (ends * 1024 ≤ x.deadline.toNat * 1000)
  if bit s.ductus.ctrlForce 2 && x.parent.isNone && decide (workPremigrate s * 1024 ≤ bytes) && decide (0 < bytes) && free && due
      && decide (bytes ≤ s.ductus.budget) then some leaves else none

/-- Put an item on a core's dispatch queue. -/
def enqueue (s : State) (i : Nat) (x : Item) (g : Nat) : State :=
  let s := setItem (vote s (clusterDomain (g / 16)) 3 true) i { x with place := .queued (8 + g), retry := false, since := none }
  showDepth (modCore (s.incW QUE_COUNTS_DISPATCHED) (8 + g) fun c => { c with queue := c.queue ++ [i] }) (8 + g)

/-- Ask for the moves of an item's pre-migration (R172); leaves refused for want of a move slot, budget or space stay to
be moved. Answers them. -/
def askMoves (s : State) (i g : Nat) (leaves : List Nat) : State × List Nat :=
  leaves.foldl (fun (a : State × List Nat) leaf =>
    let m := moveLeaf a.1 leaf 4 (.onChannel g) false (some i)
    (m.1, if m.2.1 = stBusy ∨ m.2.1 = stBudget ∨ m.2.1 = stNospace then a.2 ++ [leaf] else a.2)) (s, [])

/-- No move of an item's leaves is still on its way: each has switched, and the line after the switch has come (R172). -/
def migrated (s : State) (i : Nat) : Bool :=
  s.ductus.moves.all fun (_, m) => m.item != some i ||
    (match m.stage with
      | .copying | .armed => false
      | .switched => decide (m.stageGen < s.ruling.gen)
      | .done => true)

/-- Hand an item to a core: pre-migrated first when R172 calls for it, back to the engine when the queue is full. -/
def dispatchItem (s : State) (i : Nat) (x : Item) (g : Nat) : State :=
  if 64 ≤ (core s (8 + g)).queue.length then setItem s i { x with retry := true } else
  match premigration s x g with
  | none => enqueue s i x g
  | some leaves =>
    let r := askMoves s i g leaves
    if r.2.isEmpty && migrated r.1 i then enqueue r.1 i x g
    else setItem r.1 i { x with place := .migrating (8 + g), retry := false, since := none, toMove := r.2 }

/-- Place one item that is not split (R170, R387): one without a candidate waits. -/
def placeItem (s : State) (i : Nat) (x : Item) : State :=
  match chooseCore s x with
  | some g => dispatchItem s i x g
  | none => setItem s i { x with retry := true, since := some (x.since.getD s.folio) }

/-- An item is to be split (R171, R385). -/
def splits (s : State) (x : Item) : Bool :=
  let chans := (pieces (x.operands.headD { addr := 0, lines := 0 })).filterMap fun (leaf, _) =>
    match leafEntry s leaf with | some e => if e.remote then some (1000 + e.port) else some e.loc.chan | none => none
  x.parent.isNone && x.parts == 0 && s.on (NIB_KERNEL_LOC_SPLITTABLE x.kernel) && bit s.ductus.ctrlForce 2 && !bit x.flags 2
    && decide (2 ≤ chans.dedup.length)

/-- Sizes of `m` groups of `n` pieces that differ by no more than one, the larger ones first (assumption 31). -/
def groupSizes (n m : Nat) : List Nat := (List.range m).map fun i => n / m + if i < n % m then 1 else 0

/-- Cut a split item into its sub-items' operand 0 with the byte offset of each (R171). -/
def cut (o : Operand) (most : Nat) : List (Operand × Nat) :=
  let ps := pieces o
  let sizes := groupSizes ps.length (min most ps.length)
  (sizes.foldl (fun (a : List (Operand × Nat) × List (Nat × Nat) × Nat) n =>
    let lines := (a.2.1.take n).foldl (fun k (_, l) => k + l) 0
    (a.1 ++ [({ addr := o.addr + 64 * a.2.2, lines := lines }, 64 * a.2.2)], a.2.1.drop n, a.2.2 + lines)) ([], ps, 0)).1

/-- Split an item: its sub-items take numbers of their own and are placed one by one. -/
def splitItem (s : State) (i : Nat) (x : Item) : State :=
  let subs := cut (x.operands.headD { addr := 0, lines := 0 }) (workSplitMax s)
  let s := setItem s i { x with parts := subs.length, left := subs.length, retry := false, place := .waiting }
  s.each subs.zipIdx fun s ((o, off), idx) =>
    let j := s.queues.nextItem
    let y := { x with operands := o :: x.operands.drop 1, offset := off, parent := some (i, idx), retry := false, since := none }
    let s := setItem { s with queues := { s.queues with nextItem := j + 1 } } j y
    placeItem s j y

/-- An ORDERED item waits for every earlier item of its pair (R385). -/
def mayPlace (s : State) (x : Item) : Bool :=
  !bit x.flags 0 || !(s.queues.items.any fun (_, y) => y.pair == x.pair && decide (y.order < x.order))

/-- Place an item that waits (R170, R171). -/
def placeWaiting (s : State) (i : Nat) (x : Item) : State := if splits s x then splitItem s i x else placeItem s i x

/-! ### Starting (R367, R368, R388, R389) -/

/-- An item's deadline has been reached at ruled time `now`. -/
def late (x : Item) (now : BitVec 64) : Bool := x.deadline != 0 && decide (x.deadline.toNat ≤ now.toNat)

/-- The next item of a core's dispatch queue: earliest deadline first, those without one after all others, ties in order
of placement (R386). -/
def nextOf (s : State) (k : Nat) : Option (Nat × Item) :=
  let xs := (core s k).queue.filterMap fun i => (itemAt s i).map fun x => (i, x)
  leastBy (fun (y : Nat × Item) => if y.2.deadline = 0 then 2 ^ 64 else y.2.deadline.toNat) xs

/-- Take an item out of a core's dispatch queue. -/
def unqueue (s : State) (k i : Nat) : State :=
  noteUse (showDepth (modCore s k fun c => { c with queue := c.queue.filter (· != i) }) k) k

/-- A 512-bit free value (assumption 1). -/
def freeLine (s : State) : BitVec 512 :=
  BitVec.ofNat 512 ((List.range 8).foldl (fun n i => n + (Config.freeValue (s.free + i)).toNat * 2 ^ (64 * i)) 0)
def drewLine (s : State) : State := { s with free := s.free + 8 }

/-- The argument block as read for an item (R389); a line that cannot be read leaves free values (assumption 32). -/
def readArgs (s : State) (x : Item) (reads : List ReadRun) : State × List (BitVec 8) :=
  (List.range x.args.lines).foldl (fun (a : State × List (BitVec 8)) i =>
    match engineRead a.1 x.pair (x.args.addr + 64 * i) (originAccount a.1 (.queue x.pair)) (reads[i]?.getD {}) with
    | (s, some v) => (s, a.2 ++ leBytes 64 v.toNat)
    | (s, none) => (drewLine s, a.2 ++ leBytes 64 (freeLine s).toNat)) (s, [])

/-- First byte of the management rubric's working-memory region, where the kernel library lives (R376). -/
def libraryBase (s : State) : Nat :=
  match s.rubrics.find? fun (_, r) => r.role == 6 && !r.stopped with | some (_, r) => r.region * 2 ^ 21 | none => 0

/-- A kernel's initial data as the library holds it (Table 12-21). -/
def kernelData (s : State) (k : Nat) : List (BitVec 8) :=
  let base := libraryBase s + 64 * s.get (NIB_KERNEL_LOC_OFFSET k) + codeBytes (s.get (NIB_KERNEL_LOC_SYLLABLES k))
  bytesAt s.scribes.work base (64 * s.get (NIB_KERNEL_LOC_DATA_LINES k))

/-- The w registers at kernel start (Table 12-11). -/
def startRegs (x : Item) : Tab (BitVec 64) :=
  let ops := x.operands.zipIdx.flatMap fun (o, j) =>
    if o.lines = 0 then [] else [(1 + 2 * j, 2 ^ 63 + o.addr), (2 + 2 * j, 64 * o.lines)]
  let l := ops ++ [(9, x.offset), (10, 0x3F000), (11, 64 * x.args.lines), (12, x.deadline.toNat), (31, 2 ^ 64 - 1)]
  l.foldl (fun t (n, v) => Tab.put t n (BitVec.ofNat 64 v) 0) []

/-- A kernel's code in a core's instruction SRAM, its size and entry: what the core last ran, or the library's when that was
another kernel or is to be reloaded (R378, R389). -/
def kernelCode (s : State) (k kernel : Nat) : Nat × BitVec 64 :=
  let c := core s k
  let held := if s.get (NIB_CORE_KERNEL (k - 8)) = kernel ∧ c.stale = false then c.loaded else none
  held.getD (s.get (NIB_KERNEL_LOC_SYLLABLES kernel),
    match Tab.find s.queues.kernels kernel with | some q => BitVec.ofNat 64 q.entry.toNat | none => s.freeNow)

/-- A core starts an item (R389). -/
def startItem (s : State) (k i : Nat) (x : Item) (reads : List ReadRun) : State :=
  let g := k - 8
  let c := core s k
  let grp := (pair s x.pair).group
  let clear := s.on NIB_CTRL_SCRATCH_CLEAR_ALWAYS || (c.lastGroup.isSome && c.lastGroup != some grp)
  let (s, args) := readArgs s x reads
  let mem := putBytes (if clear then [] else c.mem) 0 (kernelData s x.kernel)
  let mem := putBytes (putBytes mem 0x3EFC0 (leBytes 64 x.copy.toNat)) 0x3F000 args
  let code := kernelCode s k x.kernel
  let s := setItem s.drew i { x with place := .running k, started := true }
  let s := setCore s k
    { running := true, regs := startRegs x, pc := code.2, code := code.1, loaded := some code, mem := mem
      nextSlot := c.nextSlot, queue := c.queue, lastGroup := some grp, item := some i, itemLine := s.ruling.gen }
  ((s.put (NIB_CORE_STATE g) 3).put (NIB_CORE_PAIR g) x.pair).put (NIB_CORE_KERNEL g) x.kernel

/-- A core is left idle after its item. -/
def idleCore (s : State) (k : Nat) : State :=
  let s := modCore s k fun c =>
    { nextSlot := c.nextSlot, queue := c.queue, lastGroup := c.lastGroup, mem := c.mem, loaded := c.loaded, stale := c.stale }
  noteUse ((s.put (NIB_CORE_STATE (k - 8)) 1).put (NIB_CORE_PAIR (k - 8)) 0) k

/-- The item of a core ends (R322, R390). -/
def endCore (s : State) (k status cause result : Nat) : State :=
  match (core s k).item with
  | none => idleCore s k
  | some i => endItem (idleCore s k) i { status := status, cause := cause, core := some (k - 8), result := result }

/-! ### Deleting (R394) -/

/-- QUEUE_DELETE: items not started complete ABORTED, running ones complete, then the pair is disabled. -/
def deletePair (s : State) (n : Nat) (asker : Option Nat) : State :=
  let s := setPair s n { pair s n with deleting := true, asker := asker }
  let mine := (s.queues.items.filter fun (_, x) => x.pair == n && !x.started && x.parts == 0).map (·.1)
  let s := s.each mine fun s i =>
    let s := match itemAt s i with
      | some x => (match x.place with | .queued k => unqueue s k i | _ => s)
      | none => s
    endItem s i { status := csAborted }
  settlePair s n

/-- Bring a pair into service with a configuration: its indexes start at 0 (R377, R391). -/
def createPair (s : State) (n : Nat) (cfg sq cq : BitVec 64) : State :=
  setPair s n { cfg := cfg, sq := sq, cq := cq, phase := true }

/-- An OWNER names a logical device (Table 6-13 kind 0b00). -/
def pairOwnerOk (o : Nat) : Bool := o / 2 ^ 14 == 0 && bitsOf o 4 2 == 0

/-- A configuration's fields are in range and its group is VALID (Table 12-17). -/
def pairCfgOk (s : State) (cfg : BitVec 64) : Bool :=
  let a := bitsOf cfg.toNat 12 4
  let b := bitsOf cfg.toNat 8 4
  decide (4 ≤ a) && decide (a ≤ 12) && decide (4 ≤ b) && decide (b ≤ 12) && s.on (QUE_GROUP_VALID (bitsOf cfg.toNat 38 10))

end Sys2Proof.Machine
end

