-- ==== Sys2Proof/Machine/QueueRows.lean ====
section
/-! DEFINITION. The commands of the kernel library and the queue engine (R168 to R172, R376 to R396). -/

namespace Sys2Proof.Machine

/-! ### Placing -/

/-- WORK_PLACE (R170, R171, R385): the oldest fetched item that may be placed. -/
def execWorkPlace (s : State) : Host.Outcome State Fault Refusal :=
  .next (
    if s.fatal then s else
    match s.queues.items.find? fun (_, x) => x.place == .waiting && !x.retry && x.parts == 0 && mayPlace s x with
    | some (i, x) => placeWaiting s i x
    | none => s)

/-- A pre-migrated item whose last leaf has switched goes to its core, or is placed again when that core has left service;
leaves still to be moved are asked for again first. -/
def releaseItem (s : State) (i : Nat) (x : Item) (g : Nat) : State :=
  let r := askMoves s i g x.toMove
  let x := { x with toMove := r.2 }
  if !r.2.isEmpty || !migrated r.1 i then setItem r.1 i x
  else if !(dispatching r.1 && coreFits r.1 x g && clusterUp r.1 (g / 16)) then setItem r.1 i { x with place := .waiting, retry := false }
  else if 64 ≤ (core r.1 (8 + g)).queue.length then setItem r.1 i { x with place := .waiting, retry := true }
  else enqueue r.1 i x g

/-- PREMIGRATE_RELEASE (R172): what waits for the moves of its leaves. -/
def execPremigrateRelease (s : State) : Host.Outcome State Fault Refusal :=
  .next (
    if s.fatal then s else
    let due := s.queues.items.filterMap fun (i, x) => match x.place with
      | .migrating k => if migrated s i then some (i, x, k - 8) else none
      | _ => none
    s.each due fun s (i, x, g) => releaseItem s i x g)

/-- The clusters under an item's operands' channels, or cluster 0 (R387). -/
def clustersOf (s : State) (x : Item) : List Nat :=
  let cs := ((x.operands.flatMap pieces).filterMap fun (leaf, _) =>
    match leafEntry s leaf with | some e => if e.remote then none else some (e.loc.chan / 16) | none => none).dedup
  if cs.isEmpty then [0] else cs

/-- Power is the only obstacle to an item (R387). -/
def onlyPower (s : State) (x : Item) : Bool :=
  !(byHint x.hint ((List.range s.variant.channels).filter fun g => coreFits s x g)).isEmpty

/-- PLACEMENT_RETRY (R386, R387): the items that the last line left without a place are placed again. -/
def execPlacementRetry (s : State) : Host.Outcome State Fault Refusal :=
  .next (
    if s.fatal then s else
    let due := s.queues.items.filter fun (_, x) => x.retry && x.parts == 0
    s.each due fun s (i, x) =>
      let s := placeItem s i x
      match itemAt s i with
      | none => s
      | some y =>
        if !y.retry || y.since.isNone then s else
        let s := if onlyPower s y then
            s.each (clustersOf s y) fun s c => noteUse (vote s (clusterDomain c) 3 true) (8 + 16 * c)
          else s
        if !y.told && decide ((y.since.getD 0) + 1 ≤ s.folio) then event (setItem s i { y with told := true }) 0x55 429 y.pair else s)

/-- DEFER_LIMIT_EXPIRY (R387). -/
def execDeferLimitExpiry (s : State) : Host.Outcome State Fault Refusal :=
  .next (
    if s.fatal then s else
    let due := s.queues.items.filter fun (_, x) => match x.since with
      | some f => x.retry && decide (f + s.get QUE_CTRL_DEFER_LIMIT ≤ s.folio)
      | none => false
    s.each due fun s (i, _) => endItem s i { status := csNoCore })

/-- Some core of a cluster runs an item or holds one in its dispatch queue. -/
def clusterBusy (s : State) (c : Nat) : Bool :=
  (List.range 16).any fun i => let q := core s (8 + 16 * c + i); q.item.isSome || !q.queue.isEmpty

/-- CLUSTER_VOTE_RELEASE (R387): the votes of clusters idle for IDLE_HOLD_FOLIOS folios are withdrawn. -/
def execClusterVoteRelease (s : State) : Host.Outcome State Fault Refusal :=
  .next (s.each (List.range s.variant.clusters) fun s c =>
    if !s.flag (PWR_DOMAIN_VOTES (clusterDomain c)) 3 || clusterBusy s c then s
    else if Tab.at s.queues.idle c 0 + s.get NIB_CTRL_IDLE_HOLD_FOLIOS ≤ s.folio then
      vote { s with queues := { s.queues with idle := Tab.del s.queues.idle c } } (clusterDomain c) 3 false
    else s)

/-! ### Doorbells and fetching (R380 to R384) -/

/-- A doorbell of an LD's local index: the pair, when the write reaches one (R380). -/
def doorbellPair (s : State) (p k d i : Nat) : Option Nat := (pairsOf s p k d)[i]?

/-- What SQ_DOORBELL and CQ_DOORBELL share: a write to a disabled pair, or of an index that is out of range, is discarded
with a Notice, and the second puts the pair in ERROR (R380). -/
def ring (s : State) (p k d i off : Nat) (v : BitVec 32) (size : Pair → Nat) (f : Pair → Nat → Pair) : State :=
  if !linkUp s p k || s.get (PRT_PORT_CTRL_ROLE p) ≠ 0 || !ldOn s p k d || s.fatal then s else
  let s := linkActivity s
  match doorbellPair s p k d i with
  | none => barRefused s p k d true (64 * i + off)
  | some n =>
    let q := pair s n
    if !q.enabled then notice s 430
    else if size q ≤ v.toNat then pairError (notice s 430) n
    else setPair s n (f q v.toNat)

/-- SQ_DOORBELL (R380): a host writes the SQ tail of one of its LD's pairs. -/
def execSqDoorbell (port : Fin 64) (sub : Fin 4) (ld : Fin 16) (index : Fin 16384) (value : BitVec 32) (s : State) :
    Host.Outcome State Fault Refusal :=
  .next (ring s port sub ld index 0 value Pair.sqSize fun q v => { q with sqTail := v })

/-- CQ_DOORBELL (R380, R382): a host writes the CQ head, which releases the entries before it. -/
def execCqDoorbell (port : Fin 64) (sub : Fin 4) (ld : Fin 16) (index : Fin 16384) (value : BitVec 32) (s : State) :
    Host.Outcome State Fault Refusal :=
  .next (ring s port sub ld index 4 value Pair.cqSize fun q v =>
    { q with cqHead := v, used := q.used - (v + q.cqSize - q.cqHead) % q.cqSize })

/-- The SQ entry at a pair's head: from device memory by the engine's own read, or as the host or the holder of a lent leaf
returns it; a host's only with Bus Master Enable set in function 1 (R381). -/
def fetchEntry (s : State) (n : Nat) (data : BitVec 512) (ok : Bool) (run : ReadRun) : State × Option (BitVec 512) :=
  let p := pair s n
  let given := if ok then some data else none
  if p.cfg.getLsbD 62 then (s, if s.fabric.busMaster.contains p.owner then given else none) else
  let dpa := (p.sq.toNat / 4096 * 4096 + 64 * p.sqHead) % 2 ^ 52
  if !engineMay s n dpa then (s, none) else
  match leafEntry s (leafOf dpa) with
  | some e => if e.remote then (chargeNow s (originAccount s (.queue n)) 64, given)
    else engineRead s n dpa (originAccount s (.queue n)) run
  | none => (s, none)

/-- ITEM_FETCH (R381, R382, R384): the next SQ entry of a pair is fetched and validated. -/
def execItemFetch (pair : Fin 16384) (data : BitVec 512) (fetch : FetchRun) (s : State) :
    Host.Outcome State Fault Refusal :=
  .next (
    let p := Sys2Proof.Machine.pair s pair
    if s.fatal || !p.enabled || p.error || p.deleting || p.sqHead == p.sqTail || decide (p.cqSize ≤ p.inFlight + p.used)
        || (!p.cfg.getLsbD 62 && overCeiling s (originAccount s (.queue pair.val))) then s else
    match fetchEntry s pair data fetch.ok fetch.read with
    | (s, none) => pairError s pair
    | (s, some v) =>
      let h := (p.sqHead + 1) % p.sqSize
      let i := s.queues.nextItem
      let x := itemOf pair i h v
      let s := setPair s pair { p with sqHead := h, inFlight := p.inFlight + 1 }
      let s := setItem { s with queues := { s.queues with nextItem := i + 1 } } i x
      match itemRefusal s x with
      | some st => endItem s i { status := st }
      | none => s)

/-! ### Running (R388 to R390) -/

/-- Items whose deadline has been reached unstarted, DROP_LATE set (R388). -/
def dropDue (s : State) (x : Item) : Bool :=
  bit x.flags 1 && !x.started && x.parts == 0 && late x (BitVec.ofNat 64 (s.ruling.line * 1024))

/-- Complete an item that has not started. -/
def abandon (s : State) (i : Nat) (x : Item) (status : Nat) : State :=
  let s := match x.place with | .queued k => unqueue s k i | _ => s
  endItem s i { status := status }

/-- ITEM_START (R389): an idle core starts the next item of its dispatch queue. -/
def execItemStart (start : StartRun) (s : State) : Host.Outcome State Fault Refusal :=
  .next (
    let k := 8 + start.core.val
    if !dispatching s || s.get (NIB_CORE_STATE start.core) ≠ 1 || s.on (NIB_CORE_PARK start.core) then s else
    match nextOf s k with
    | none => s
    | some (i, x) => if dropDue s x then abandon s i x csDeadline else startItem (unqueue s k i) k i x start.reads)

/-- DEADLINE_DROP (R388). -/
def execDeadlineDrop (s : State) : Host.Outcome State Fault Refusal :=
  .next (if s.fatal then s else s.each (s.queues.items.filter fun (_, x) => dropDue s x) fun s (i, x) => abandon s i x csDeadline)

/-- The completion address (Table 12-11). -/
def completionAddress : BitVec 64 := BitVec.allOnes 64

/-- ITEM_END (R390): a nib core at the completion address fences, and ends its item; an access that fails in the fence
ends it with FAULT. -/
def execItemEnd (core : Fin 256) (s : State) : Host.Outcome State Fault Refusal :=
  .next (
    let k := 8 + core.val
    let c := Sys2Proof.Machine.core s k
    if !c.running || c.item.isNone || c.pc != completionAddress then s else
    match failedAccess s k with
    | some (a, cause) => endCore s k csFault cause a.addr.toNat
    | none =>
      if c.outstanding.isEmpty then endCore s k csSuccess 0 (c.w 1).toNat
      else modCore s k fun c => { c with wait := some .itemEnd })

/-- What a stopped item leaves outstanding: its stores and atomics, which return nothing to it any more (R390). -/
def CoreAccess.store? (a : CoreAccess) : Option CoreAccess :=
  match a.kind with
  | .store => some a
  | .atomic _ z q => some { a with kind := .atomic none z q }
  | _ => none

/-- RUN_LIMIT_EXPIRY (R390): an item that has run for its group's RUN_LIMIT_LINES is stopped, and completes once its
outstanding stores are settled. -/
def execRunLimitExpiry (core : Fin 256) (s : State) : Host.Outcome State Fault Refusal :=
  .next (
    let k := 8 + core.val
    let c := Sys2Proof.Machine.core s k
    match c.item.bind (itemAt s) with
    | none => s
    | some x =>
      let lim := s.get (QUE_GROUP_RUN_LIMIT_LINES (pair s x.pair).group)
      if lim = 0 ∨ s.ruling.gen < c.itemLine + lim ∨ c.wait = some .stopped then s else
      let left := c.outstanding.filterMap CoreAccess.store?
      if left.isEmpty then endCore s k csTimeout 0 (c.w 1).toNat
      else modCore s k fun c => { c with outstanding := left, wait := some .stopped })

/-! ### Parking (R100) -/

/-- NIB_CORE_PARK_WRITE (R100): PARK asks for parking, and clearing it unparks. -/
def writeNibCore (s : State) (g : Nat) (v : BitVec 64) : State :=
  if absentUnit s.variant .NIB_CORE g 0 then s else
  let s := s.putB (NIB_CORE_PARK g) (v.getLsbD 60)
  if v.getLsbD 60 || s.get (NIB_CORE_STATE g) ≠ 4 then s
  else (s.put (NIB_CORE_STATE g) 1).setFlag (NIB_CLUSTER_PARKED (g / 16)) (g % 16) false

/-- NIB_CORE_PARK_WRITE (R100). -/
def execNibCoreParkWrite (core : Fin 256) (value : BitVec 64) (s : State) : Host.Outcome State Fault Refusal :=
  .next (if absentUnit s.variant .NIB_CORE core 0 then s else writeNibCore s core value)

/-- CORE_PARKED (R100, Table 3-9): an idle core that is marked, or whose channel is Retired while the base placement rubric
runs, is clock-gated; the items on its dispatch queue are placed again. -/
def execCoreParked (core : Fin 256) (s : State) : Host.Outcome State Fault Refusal :=
  .next (
    let retired := s.get (CHN_REPAIR_STATE_STATE core) == 5 && baseRuns s 1
    if s.get (NIB_CORE_STATE core) ≠ 1 || !(s.on (NIB_CORE_PARK core) || retired) then s else
    let s := (s.put (NIB_CORE_STATE core) 4).setFlag (NIB_CLUSTER_PARKED (core / 16)) (core % 16)
    requeueItems s (8 + core.val))

/-! ### The kernel library (R376 to R378) -/

/-- 64-byte units of a kernel's body in the library. -/
def bodyUnits (syllables dataBytes : Nat) : Nat := ceilDiv (codeBytes syllables + 64 * ceilDiv dataBytes 64) 64

/-- A run of library space free for `n` units, first fit. -/
def libraryRoom (s : State) (n : Nat) : Option Nat :=
  let units := match s.rubrics.find? fun (_, r) => r.role == 6 && !r.stopped with | some (_, r) => r.units * 32768 | none => 0
  let used := s.queues.kernels.map fun (k, q) => (s.get (NIB_KERNEL_LOC_OFFSET k), q.size)
  let starts := 0 :: used.map fun (o, m) => o + m
  leastBy id (starts.filter fun a => decide (a + n ≤ units) && used.all fun (o, m) => decide (o + m ≤ a) || decide (a + n ≤ o))

/-- The layout of a kernel image (Table 12-8). -/
def kernelLayoutOk (l : List (BitVec 8)) : Bool :=
  layoutOk l 0x4E524B56 (field l 0x10 4) (field l 0x18 4) [(0x28, 24), (0x80, 128)] && decide (1 ≤ field l 0xC 2)
    && decide (field l 0xC 2 < 4096) && decide (field l 0xE 2 < 4) && decide (1 ≤ field l 0x10 4) && decide (field l 0x10 4 ≤ 26212)
    && decide (field l 0x18 4 ≤ 257984)

/-- What a kernel image spells (Table 12-8). -/
def kernelOf (l : List (BitVec 8)) (signer : Nat) : Kernel :=
  { flags := field l 0xE 2, signer := signer, code := field l 0x10 4, entry := BitVec.ofNat 32 (field l 0x14 4)
    data := slice (imageBody l) (codeBytes (field l 0x10 4)) (field l 0x18 4), version := field l 0x24 4, name := slice l 0x40 32, digest := Config.sha3 l
    size := bodyUnits (field l 0x10 4) (field l 0x18 4) }

/-- A kernel enters the library: its body in the management rubric's region, NIB_KERNEL_LOC and NIB_KERNEL_EST (R377). -/
def registerKernel (s : State) (id off : Nat) (l : List (BitVec 8)) (q : Kernel) : State :=
  let base := libraryBase s + 64 * off
  let body := imageBody l ++ List.replicate (64 * q.size - (imageBody l).length) 0
  let loc := 2 ^ 63 + b2n (bit q.flags 1) * 2 ^ 62 + ceilDiv (field l 0x18 4) 64 * 2 ^ 44 + q.code * 2 ^ 28 + off
  let s := s.setWord (NIB_KERNEL_LOC_VALID id).addr (BitVec.ofNat 64 loc)
  let s := s.setWord (NIB_KERNEL_EST_FIXED_NS id).addr (BitVec.ofNat 64 (field l 0x1C 4 * 2 ^ 32 + field l 0x20 4))
  { s with
    scribes := { s.scribes with work := putBytes s.scribes.work base body }
    queues := { s.queues with kernels := Tab.set s.queues.kernels id q } }

/-- COMMIT of a kernel (R356, R376, R377). -/
def kernelCommit (s : State) (p : List (BitVec 8)) : State × Served :=
  let sid := field p 0 2
  match (Tab.find s.scribes.sessions sid).filter fun x => x.kernel with
  | none => (s, { ret := mbNotFound })
  | some x =>
    let s := closeSession s sid
    let l := bytesAt x.bytes 0 x.length
    let id := field l 0xC 2
    if !kernelLayoutOk l then (s, { ret := mbInvalid }) else
    match verifyImage s l (bit (field l 0xE 2) 0) false (field l 0x24 4) with
    | .inl e => (if e = mbSignature ∨ e = mbRollback ∨ e = mbDenied then event s 0xB4 440 e else s, { ret := e })
    | .inr signer =>
      if s.on (NIB_KERNEL_LOC_VALID id) then (s, { ret := mbConflict }) else
      let q := kernelOf l signer
      match libraryRoom s q.size with
      | none => (s, { ret := mbNospace })
      | some off => (registerKernel s id off l q, { resp := leBytes 2 id })

/-- The management rubric and the loader serve kernel loads (R376, R377). -/
def libraryReady (s : State) : Bool := managementReady s && loaderReady s

/-- KERNEL_LOAD_BEGIN (R377). -/
def execKernelLoadBegin (mailbox : Fin 4096) (s : State) : Host.Outcome State Fault Refusal :=
  .next (serve s mailbox 0x40 (libraryReady s) (loadBegin true))

/-- KERNEL_LOAD_CHUNK (R377). -/
def execKernelLoadChunk (mailbox : Fin 4096) (s : State) : Host.Outcome State Fault Refusal :=
  .next (serve s mailbox 0x41 (libraryReady s) (loadChunk true))

/-- KERNEL_LOAD_COMMIT (R377). -/
def execKernelLoadCommit (mailbox : Fin 4096) (s : State) : Host.Outcome State Fault Refusal :=
  .next (serve s mailbox 0x42 (libraryReady s) kernelCommit)

/-- A mailbox command that completes later: served once, it holds a token until it ends. -/
def serveLong (s : State) (n op : Nat) (ready : Bool) (f : State → List (BitVec 8) → State × Option Nat) : State :=
  if !doorbell s n || (box s n).since.isNone || (box s n).token.isSome || boxOpcode s n ≠ op || !ready || s.fatal then s else
  match f s (payload s n) with
  | (s, some ret) => finish s n ret 0 []
  | (s, none) => s

/-- Mark a mailbox's command as in progress under a token of the queue engine. -/
def inProgress (s : State) (n t : Nat) : State := setBox s n { box s n with token := some t }

/-- KERNEL_REMOVE (R378): HOLD is set. -/
def execKernelRemove (mailbox : Fin 4096) (s : State) : Host.Outcome State Fault Refusal :=
  .next (serveLong s mailbox 0x43 (managementReady s) fun s p =>
    let k := field p 0 2
    if k = 0 ∨ 4096 ≤ k then (s, some mbInvalid)
    else if !s.on (NIB_KERNEL_LOC_VALID k) then (s, some mbNotFound)
    else
      let q := Tab.at s.queues.kernels k {}
      if q.removing.isSome then (s, some mbConflict) else
      let s := s.put (NIB_KERNEL_LOC_HOLD k) 1
      let s := { s with queues := { s.queues with kernels := Tab.set s.queues.kernels k { q with removing := some mailbox } } }
      (inProgress s mailbox (0x20000 + k), none))

/-- KERNEL_REMOVE_COMPLETE (R378): once no placed item names the kernel, its entry becomes invalid; a core that holds it
reloads. -/
def execKernelRemoveComplete (s : State) : Host.Outcome State Fault Refusal :=
  .next (
    let due := s.queues.kernels.filter fun (k, q) => q.removing.isSome && s.queues.items.all fun (_, x) => x.kernel != k
    s.each due fun s (k, q) =>
      let s := s.setWord (NIB_KERNEL_LOC_VALID k).addr 0
      let s := { s with
        queues := { s.queues with kernels := Tab.del s.queues.kernels k }
        cores := s.cores.map fun (c, x) => (c, if 8 ≤ c ∧ s.get (NIB_CORE_KERNEL (c - 8)) = k then { x with stale := true } else x) }
      match q.removing with
      | some m => if (box s m).token = some (0x20000 + k) then finish s m mbSuccess 0 [] else s
      | none => s)

/-- KERNEL_LIST (R377). -/
def execKernelList (mailbox : Fin 4096) (s : State) : Host.Outcome State Fault Refusal :=
  .next (serve s mailbox 0x44 (managementReady s) fun s p =>
    let ks := (s.queues.kernels.filter fun (k, _) => decide (field p 0 2 ≤ k) && s.on (NIB_KERNEL_LOC_VALID k)).take 1279
    let row (x : Nat × Kernel) : List (BitVec 8) :=
      leBytes 2 x.1 ++ leBytes 2 x.2.flags ++ leBytes 4 x.2.version ++ leBytes 8 0 ++ (List.range 32).map fun i => x.2.name.getD i 0
    (s, { resp := leBytes 2 ks.length ++ leBytes 2 0 ++ ks.flatMap row }))

/-! ### Queue pairs and groups (R377, R394, R396) -/

/-- The QUE_PAIR_CFG word of a QUEUE_CREATE (Tables 12-9 and 12-16). -/
def createWord (p : List (BitVec 8)) : BitVec 64 :=
  let flags := field p 24 1
  BitVec.ofNat 64 (2 ^ 63 + b2n (bit flags 0) * 2 ^ 62 + b2n (bit flags 1) * 2 ^ 61 + b2n (bit flags 2) * 2 ^ 60
    + field p 26 2 % 4096 * 2 ^ 48 + field p 2 2 % 1024 * 2 ^ 38 + field p 4 2 * 2 ^ 16 + field p 6 1 % 16 * 2 ^ 12 + field p 7 1 % 16 * 2 ^ 8)

/-- QUEUE_CREATE (R377). -/
def execQueueCreate (mailbox : Fin 4096) (s : State) : Host.Outcome State Fault Refusal :=
  .next (serve s mailbox 0x48 (managementReady s) fun s p =>
    let n := field p 0 2
    let flags := field p 24 1
    let cfg := createWord p
    let bad := decide (16384 ≤ n) || decide (1024 ≤ field p 2 2) || decide (16 ≤ field p 6 1) || decide (16 ≤ field p 7 1)
      || decide (8 ≤ flags) || field p 25 1 != 0 || decide (4096 ≤ field p 26 2) || field p 28 4 != 0 || field p 8 8 % 4096 != 0
      || field p 16 8 % 4096 != 0 || !pairCfgOk s cfg || !pairOwnerOk (field p 4 2)
    if bad then (s, { ret := mbInvalid })
    else if (pair s n).enabled then (s, { ret := mbConflict })
    else (createPair s n cfg (BitVec.ofNat 64 (field p 8 8)) (BitVec.ofNat 64 (field p 16 8)), {}))

/-- QUEUE_DELETE (R394): completes once the pair's running items have. -/
def execQueueDelete (mailbox : Fin 4096) (s : State) : Host.Outcome State Fault Refusal :=
  .next (serveLong s mailbox 0x49 (managementReady s) fun s p =>
    let n := field p 0 2
    if 16384 ≤ n then (s, some mbInvalid)
    else if !(pair s n).enabled then (s, some mbNotFound)
    else if (pair s n).deleting then (s, some mbConflict)
    else (deletePair (inProgress s mailbox (0x10000 + n)) n (some mailbox), none))

/-- GROUP_SET (R377). -/
def execGroupSet (mailbox : Fin 4096) (s : State) : Host.Outcome State Fault Refusal :=
  .next (serve s mailbox 0x4A (managementReady s) fun s p =>
    let g := field p 0 2
    if 1024 ≤ g ∨ 2 ≤ field p 4 1 ∨ field p 5 3 ≠ 0 then (s, { ret := mbInvalid })
    else ((s.put (QUE_GROUP_VALID g) (field p 4 1)).put (QUE_GROUP_RUN_LIMIT_LINES g) (field p 2 2), {}))

/-- A write of QUE_PAIR_CFG for the pair QUE_SELECT names: while ENABLE is 1 it may only clear ENABLE, which deletes the
pair (R396). -/
def writePairCfg (s : State) (v : BitVec 64) : State :=
  let n := s.get QUE_SELECT_PAIR
  let p := pair s n
  let v := v &&& 0xFFFFFFC0FFFFFF00#64
  if p.enabled then
    (if v != p.cfg &&& 0x7FFFFFFFFFFFFFFF#64 then notice s 430 else if p.deleting then s else deletePair s n none)
  else if !pairCfgOk s v || !pairOwnerOk (bitsOf v.toNat 16 16) then notice s 430
  else if v.getLsbD 63 then createPair s n v p.sq p.cq
  else setPair s n { p with cfg := v }

/-- A write of QUE_PAIR_SQ or QUE_PAIR_CQ (R396). -/
def writePairBase (s : State) (cq : Bool) (v : BitVec 64) : State :=
  let n := s.get QUE_SELECT_PAIR
  let p := pair s n
  let v := v &&& 0xFFFFFFFFFFFFF000#64
  if p.enabled then notice s 430 else setPair s n (if cq then { p with cq := v } else { p with sq := v })

/-- QUE_PAIR_CFG_WRITE (R396). -/
def execQuePairCfgWrite (value : BitVec 64) (s : State) : Host.Outcome State Fault Refusal := .next (writePairCfg s value)

/-- QUE_PAIR_SQ_WRITE (R396). -/
def execQuePairSqWrite (value : BitVec 64) (s : State) : Host.Outcome State Fault Refusal := .next (writePairBase s false value)

/-- QUE_PAIR_CQ_WRITE (R396). -/
def execQuePairCqWrite (value : BitVec 64) (s : State) : Host.Outcome State Fault Refusal := .next (writePairBase s true value)

/-! ### Configuration space (R275) -/

/-- A host sets or clears Bus Master Enable of an LD's function 1 (R381, assumption 74). -/
def setBusMaster (s : State) (o : Nat) (on : Bool) : State :=
  let l := s.fabric.busMaster.filter (· != o)
  setFabric s { s.fabric with busMaster := if on then l ++ [o] else l }

/-- CONFIG_REQUEST (R275, Table 9-2), retried until step 6 of the boot is complete (R558): an access to a doubleword of an
LD's configuration space: a doubleword of the vendor DVSEC, a lane's doubleword of function 0's Lane Margining capability
(R248), or another. A write sets Bus Master Enable, bit 2 of doubleword 1 of function 1; what a read gives beyond that
bit and the node function's DVSEC is CXL's and free (assumption 26). -/
def execConfigRequest (port : Fin 64) (sub : Fin 4) (ld : Fin 16) (func : Fin 8) (area : ConfigArea)
    (offset : Fin 1024) (write : Option (BitVec 32)) (s : State) : Host.Outcome State Fault Refusal :=
  .next (
    if !linkUp s port sub || s.get (PRT_PORT_CTRL_ROLE port) ≠ 0 then s else
    if !s.boot.ready then s.send (.ioRetry port sub ld) else
    let s := linkActivity s
    if s.fatal || !ldOn s port sub ld || 2 ≤ func.val then s.send (.ioUnsupported port sub ld) else
    let o := linkOwner port sub ld
    let command := func.val == 1 && area == .header && offset.val == 1
    match area, write with
    | .margin l, some v => if func.val = 0 then hostMargin s port sub l (v.setWidth 16) else s
    | .margin l, none =>
      if func.val ≠ 0 then s.send (.ioUnsupported port sub ld) else
      s.drew.send (.ioData port sub ld (BitVec.ofNat 64 (hostMarginWord s port sub l s.freeNow.toNat)))
    | .header, some v => if command then setBusMaster s o (v.getLsbD 2) else s
    | .dvsec _, some _ => s
    | .dvsec i, none =>
      if func.val ≠ 1 then s.send (.ioUnsupported port sub ld) else
      let v := dvsecWord s port sub ld (pairsOf s port sub ld).length i
      s.drew.send (.ioData port sub ld (BitVec.ofNat 64 v.toNat))
    | .header, none =>
      let f := s.freeNow.toNat % 2 ^ 32
      let v := if offset.val = 2 then (if func.val = 0 then 0x05021000 else 0x12000000) + f % 256
        else if command then (if s.fabric.busMaster.contains o then setBit f 2 else clearBit f 2)
        else f
      s.drew.send (.ioData port sub ld (BitVec.ofNat 64 v)))

end Sys2Proof.Machine
end

