-- ==== Sys2Proof/Machine/PowerRows.lean ====
section
/-! DEFINITION. The commands of power (chapter 14): supply events, domains, power states, the limiter, reset and the
Inkwell. -/

namespace Sys2Proof.Machine

def setPower (s : State) (p : Power) : State := { s with power := p }
def setCol (s : State) (c : Colophon) : State := { s with colophon := c }

/-! ### Domains (R422 to R425) -/

/-- A nib cluster's cores when their cluster has dropped: off, their memory lost. -/
def coresOff (s : State) (c : Nat) : State :=
  let s := s.each ((List.range 16).map (16 * c + ·)) fun s g =>
    let s := requeueItems s (8 + g)
    let s := modCore s (8 + g) fun x => { nextSlot := x.nextSlot, stale := true }
    ((s.put (NIB_CORE_STATE g) (if s.get (NIB_CORE_STATE g) = 4 then 4 else 0)).put (NIB_CORE_PAIR g) 0).put (NIB_CORE_KERNEL g) 0
  driveClock s c

/-- A nib cluster's cores when their cluster has risen: idle, but for those parked. -/
def coresOn (s : State) (c : Nat) : State :=
  let s := s.each ((List.range 16).map (16 * c + ·)) fun s g =>
    if s.get (NIB_CORE_STATE g) = 4 then s else s.put (NIB_CORE_STATE g) 1
  driveClock s c

/-- A domain is up from now on. -/
def domainRisen (s : State) (n : Nat) : State :=
  let asleep := decide (16 ≤ n) && decide (n < 20) && powerState s != stWriting
  let s := s.put (PWR_DOMAIN_STATUS n) (if asleep then 4 else 2)
  if 20 ≤ n ∧ n < 36 then coresOn s (n - 20) else s

/-- A domain is off from now on: the links of a port sub-domain are down, a cluster's cores are off. -/
def domainDropped (s : State) (n : Nat) : State :=
  let s := s.put (PWR_DOMAIN_STATUS n) 0
  if n < 16 then s.each ((List.range 4).map (4 * n + ·)) portDown
  else if 20 ≤ n ∧ n < 36 then coresOff s (n - 20) else s

/-- A write of PWR_DOMAIN by a Scribe (R422, Table 14-11); both bits set is reserved. -/
def writeVote (s : State) (k n : Nat) (v : BitVec 64) : State :=
  match v.getLsbD 1, v.getLsbD 0 with
  | true, true => notice s 435
  | true, false => vote s n (8 + k) true
  | false, true => vote s n (8 + k) false
  | false, false => s

/-- DOMAIN_VOTE (R422). -/
def execDomainVote (scribe : Fin 8) (domain : Fin 38) (s : State) : Host.Outcome State Fault Refusal :=
  .next (if domainPresent s domain then vote s domain (8 + scribe) true else s)

/-- DOMAIN_UNVOTE (R422). -/
def execDomainUnvote (scribe : Fin 8) (domain : Fin 38) (s : State) : Host.Outcome State Fault Refusal :=
  .next (if domainPresent s domain then vote s domain (8 + scribe) false else s)

/-- DOMAIN_RISE_COMPLETE (R423, R424): a withdrawal that came meanwhile takes effect now. -/
def execDomainRiseComplete (domain : Fin 38) (s : State) : Host.Outcome State Fault Refusal :=
  .next (if domainStatus s domain = 1 then pumpDomains (domainRisen s domain) else s)

/-- DOMAIN_DROP_COMPLETE (R423, R424): a vote that came meanwhile raises the domain again. -/
def execDomainDropComplete (domain : Fin 38) (s : State) : Host.Outcome State Fault Refusal :=
  .next (if domainStatus s domain = 3 then pumpDomains (domainDropped s domain) else s)

/-- Every domain stands as votes and state ask, one after another (R426). -/
def settleDomains (s : State) : State :=
  s.each ((List.range 38).filter (domainPresent s)) fun s n =>
    if domainWanted s n then (if domainStatus s n = 2 ∨ domainStatus s n = 4 then s else domainRisen s n)
    else if domainStatus s n = 0 then s else domainDropped s n

/-! ### Transitions (R429 to R434) -/

/-- A transition out of Writing stops dispatch (R430 step 1); one into Writing or Capped begins as it stands. -/
def leaveFor (s : State) (target cause : Nat) : State :=
  let s := beginTransition s target cause
  if powerState s = stWriting then s.each ((List.range s.variant.channels).map (8 + ·)) requeueItems else s

/-- Act on a request for a state (R429, Table 14-8): Writing is refused while SHUTDOWN_N is low, the current state is
ignored, and a request made while a transition runs waits for it; of two in one line the last counts (Table 14-5). -/
def requestState (s : State) (target cause : Nat) : State :=
  if s.colophon.fatalShadow ∨ powerState s = 0 then s
  else if target = stWriting ∧ s.on PWR_STATE_SHUTDOWN then event s 0xE4 435
  else if s.on PWR_STATE_IN_TRANSITION then
    (if s.power.entryLine = s.ruling.gen ∧ s.get PWR_STATE_LAST_CAUSE = cause ∧ s.get PWR_STATE_TARGET ≠ stWriting ∧
        powerState s ≠ target then s.put PWR_STATE_TARGET target
     else setPower s { s.power with request := some target })
  else if target = powerState s then s
  else if target = stWriting then
    leaveFor (s.put PWR_WAKE_LAST_SOURCE (if cause = 5 then 3 else 4)) stWriting cause
  else if powerState s = stQuiet then s
  else leaveFor s target cause

/-- A write of PWR_REQUEST (R429, Table 14-8). -/
def writeRequest (s : State) (v : BitVec 64) : State :=
  let t := v.toNat % 8
  if t = stQuiet ∨ t = stCapped ∨ t = stWriting then requestState s t 1 else notice s 435

/-- PWR_REQUEST (R429). -/
def execPwrRequest (value : BitVec 64) (s : State) : Host.Outcome State Fault Refusal := .next (writeRequest s value)

/-- A change of an input took effect within the last 64 lines (Table 20-8). -/
def recentChange (s : State) (g : Option Nat) : Bool := match g with | some g => decide (s.ruling.gen < g + 64) | none => false

/-- SHUTDOWN_N low takes effect (R429, R434): Writing is left for Capped; a transition that would enter Writing goes to
Capped; a boot completes first. -/
def shutdownLow (s : State) : State :=
  let s := s.put PWR_STATE_SHUTDOWN 1
  if s.colophon.fatalShadow || !s.boot.active then s
  else if s.on PWR_STATE_IN_TRANSITION then
    (if s.get PWR_STATE_TARGET = stWriting then
      setPower (s.put PWR_STATE_TARGET stCapped) { s.power with capByPin := true } else s)
  else if powerState s = stWriting then
    leaveFor (setPower s { s.power with capByPin := true }) stCapped 2
  else s

/-- SHUTDOWN_N high takes effect (R429): after an entry that it caused the node returns to Writing; during that entry, once
it is complete (Table 14-5). -/
def shutdownHigh (s : State) : State :=
  let s := s.put PWR_STATE_SHUTDOWN 0
  if s.colophon.fatalShadow || s.on PWR_STATE_IN_TRANSITION then s
  else if powerState s = stCapped && s.power.capByPin then leaveFor s stWriting 2
  else s

/-- The level of SHUTDOWN_N takes effect where it differs from the level in force, no sooner than 64 lines after the change
before (Table 20-8). -/
def takeShutdown (s : State) : State :=
  if powerState s = 0 || s.on PWR_STATE_SHUTDOWN == !s.pins.shutdownN || recentChange s s.power.shutdownGen then s else
  let s := setPower s { s.power with shutdownGen := some s.ruling.gen }
  if s.pins.shutdownN then shutdownHigh s else shutdownLow s

/-- SHUTDOWN_N_FALL (R429). -/
def execShutdownNFall (s : State) : Host.Outcome State Fault Refusal :=
  .next (takeShutdown { s with pins := { s.pins with shutdownN := false } })

/-- SHUTDOWN_N_RISE (R429). -/
def execShutdownNRise (s : State) : Host.Outcome State Fault Refusal :=
  .next (takeShutdown { s with pins := { s.pins with shutdownN := true } })

/-- WAKE_N (R431): at most one wake in 64 lines (Table 20-8). -/
def execWakeN (s : State) : Host.Outcome State Fault Refusal :=
  .next (
    if s.colophon.fatalShadow || powerState s == 0 || recentChange s s.power.wakeGen then s
    else wake (setPower s { s.power with wakeGen := some s.ruling.gen }) 2)

/-- DRAIN_TIMEOUT (R430 step 2): items still running after DRAIN_LINES are stopped and complete with TIMEOUT. -/
def execDrainTimeout (s : State) : Host.Outcome State Fault Refusal :=
  .next (
    if !s.on PWR_STATE_IN_TRANSITION || s.get PWR_STATE_TARGET == stWriting || powerState s != stWriting || s.power.drained ||
        decide (s.ruling.gen < s.power.entryLine + s.get PWR_CTRL_DRAIN_LINES) then s else
    let s := setPower s { s.power with drained := true }
    let ks := (List.range s.variant.channels).filterMap fun g => if (core s (8 + g)).item.isSome then some (8 + g) else none
    s.each ks fun s k => endCore (event s 0xE5 435 (k - 8)) k csTimeout 0 ((core s k).w 1).toNat)

/-- Nothing keeps an entry to Capped or Quiet waiting (R430, Table 17-6): no item runs, pools and write buffers are
empty, no fuse word is being programmed. -/
def drainedNow (s : State) : Bool :=
  (s.cores.all fun (k, c) => decide (k < 8) || c.item.isNone)
    && (s.chans.all fun (_, c) => c.pool.isEmpty && c.ingress.isEmpty && c.writes.isEmpty && c.ingressWrites.isEmpty && c.issued.isEmpty
      && c.reread.isEmpty)
    && s.fuses.program.isNone

/-- Abort the moves in flight, keeping those of causes 1 and 2 for the return to Writing (R430 step 3). -/
def abortMoves (s : State) : State :=
  s.each s.ductus.moves fun s (k, m) =>
    if m.stage = .switched ∨ m.stage = .done then s else
    let s := if m.cause ≤ 2 then setPower s { s.power with reissue := s.power.reissue ++ [m] } else s
    abortMove s k false

/-- Reissue the moves an entry aborted (R430 step 3). -/
def reissueMoves (s : State) : State :=
  (setPower s { s.power with reissue := [] }).each s.power.reissue fun s m =>
    if m.ofLeaf && (match leafEntry s m.leaf with | some e => e.moving | none => true) then s else reissueMove s m

/-- What entry to Quiet does before the switch core and the Scribes drop (R433, R582). -/
def prepareQuiet (s : State) : State :=
  let s := s.each ((List.range s.variant.ports).filter fun p => decide (s.get (PRT_PORT_CTRL_ROLE p) < 2)) portDown
  let s := (setFabric s { s.fabric with reserve := [] }).each s.fabric.reserve enter
  let s := flushTree s
  let emptied := s.rubrics.map fun (h, r) => (h, { r with events := [], inbox := [] })
  let s := { s with
    sealing := { s.sealing with merge := [] }
    fabric := { s.fabric with filter := [], snoops := [], withheld := [] }
    ductus := { s.ductus with cache := [] }
    mgmt := { s.mgmt with sessions := [], spdm := [] }
    rubrics := emptied }
  showFilter (s.each (List.range 8) fun s k => setCore s k { nextSlot := (core s k).nextSlot })

/-- After Quiet every rubric restarts from its verified copy, uncounted, and the management rubric is told (R433). -/
def restartAll (s : State) : State :=
  let seated := (List.range 8).filterMap fun k => (rubricAt s k).map fun r => (k, r.handle)
  let s := s.each seated fun s (k, h) => startRubric s k h
  match seated.find? fun (k, _) => s.get (MBX_SCRIBE_ROLE k) == 6 with
  | some (k, h) => tellMoved s h k
  | none => s

/-- The new state holds (R430, R433): the sequence of its entry, then what waited for it (Table 14-5). -/
def holdState (s : State) : State :=
  let old := powerState s
  let new := s.get PWR_STATE_TARGET
  let s := if new = stWriting then s else abortMoves s
  let s := if new = stWriting then s else towersSleep s
  let s := if new = stQuiet then prepareQuiet s else s
  let s := (s.put PWR_STATE_STATE new).put PWR_STATE_IN_TRANSITION 0
  let s := if new = stWriting then pumpDomains (reissueMoves (towersWake s)) else s
  let s := if new = stWriting ∧ old ≠ stQuiet then s else settleDomains s
  let s := if old = stQuiet ∧ new ≠ stQuiet then restartAll s else s
  let pin := new == stCapped && (s.power.capByPin || s.get PWR_STATE_LAST_CAUSE == 2)
  let due := s.power.wakeDue
  let req := s.power.request
  let s := setPower s { s.power with capByPin := pin, wakeDue := none, request := none, drained := false }
  match req, due with
  | some t, _ => requestState s t 1
  | none, some w => serveWake s w (w + 2)
  | none, none => if pin && !s.on PWR_STATE_SHUTDOWN then leaveFor s stWriting 2 else s

/-- STATE_ENTRY_COMPLETE (R430, R433). -/
def execStateEntryComplete (s : State) : Host.Outcome State Fault Refusal :=
  .next (
    if powerState s = 0 || s.colophon.fatalShadow || !s.on PWR_STATE_IN_TRANSITION then s
    else if s.get PWR_STATE_TARGET ≠ stWriting && !drainedNow s then s
    else holdState s)

/-- CAPPED_IDLE_EXPIRY (R432): towers that a request woke in Capped return to self-refresh after CAPPED_IDLE_LINES lines
with no request. -/
def execCappedIdleExpiry (s : State) : Host.Outcome State Fault Refusal :=
  .next (
    if powerState s = stCapped && !s.on PWR_STATE_IN_TRANSITION && drainedNow s &&
        decide (s.power.activeGen + s.get PWR_CTRL_CAPPED_IDLE_LINES ≤ s.ruling.gen) then towersSleep s else s)

/-! ### The limiter (R436, R437) -/

/-- LIMITER_WINDOW (R436): the mean VIN power of the window against the cap in force. -/
def execLimiterWindow (s : State) : Host.Outcome State Fault Refusal :=
  .next (
    let p := s.power
    if s.ruling.line % 64 ≠ 0 || p.windowLines = 0 then s else
    let cap := powerCap s * p.windowLines
    let s := s.put PWR_INK_POWER (min 65535 (p.windowSum / p.windowLines))
    let l := s.get PWR_CLASS_LIMIT_STEP
    let under := if 100 * p.windowSum < 95 * cap then p.limUnder + 1 else 0
    let s := setPower s { p with windowSum := 0, windowLines := 0, limUnder := under, limOver := if cap < p.windowSum ∧ l = 24 then p.limOver + 1 else 0 }
    let s := if cap < p.windowSum then
        (if l < 24 then eventOnce (s.put PWR_CLASS_LIMIT_STEP (l + 1)) 0xE7 435 0
         else if s.power.limOver = 16 then event s 0xE6 435 else s)
      else if under = 64 then
        setPower (s.put PWR_CLASS_LIMIT_STEP (l - 1)) { s.power with limUnder := 0 }
      else s
    s.each (List.range s.variant.clusters) showCluster)

/-! ### The supply and the Inkwell (R418 to R420, R429, R457, R520) -/

/-- Let the RTC count (R531). -/
def tickRtc (s : State) (n : Nat) : State :=
  if s.colophon.rtcValid then setCol s { s.colophon with rtc := s.colophon.rtc + n } else s

/-- The Inkwell raises the ink rail, and PWRGOOD rises. -/
def raiseRail (s : State) : State :=
  { s with power := { s.power with rails := .up, cycling := false }, pins := { s.pins with pwrGood := true } }

/-- VIN_ON (R418, R531): the Inkwell controller runs; `rtc` the RTC's count since VIN went, none when it stopped. -/
def execVinOn (rtc : Option (BitVec 64)) (s : State) : Host.Outcome State Fault Refusal :=
  .next (
    if s.power.rails ≠ .off then s else
    let s := setCol s { s.colophon with vinCycled := true, lockCycled := true }
    let s := setPower s { s.power with rails := .standby }
    let s := match rtc with
      | some n => tickRtc s n.toNat
      | none => setPower (setCol s { s.colophon with rtc := 0, rtcValid := false })
          { s.power with bootEvents := s.power.bootEvents ++ [(0x138, 0)] }
    standbyPins s)

/-- VIN_OFF (R427, R520, R534): what the Inkwell held in its RAM is lost with the main dies, the Fatal latch clears and
records not yet committed are gone. -/
def execVinOff (s : State) : Host.Outcome State Fault Refusal :=
  .next (
    let s := mainDiesLost s false
    let c := s.colophon
    { s with
      colophon := { c with
        waiting := [], classCounts := [0, 0, 0, 0, 0], droppedMinute := 0, blotterMinute := 0, dieMax := [], life := {}
        checkpointDue := false, fatalShadow := false, energy := 0 }
      mgmt := {}
      power := { rails := .off, phasesLost := s.power.phasesLost }
      pins := { s.pins with alertN := true, faultN := true, thermtripN := true, pwrGood := false } })

/-- VIN_FAULT (R420): a Degraded record, a shutdown record, and Standby. -/
def execVinFault (s : State) : Host.Outcome State Fault Refusal :=
  .next (if s.power.rails = .up then toStandby (event s 0xE3 436) 7 else s)

/-- MAX_CLASS for the phases that work (Table 14-1). -/
def maxClass (lost : BitVec 8) : Nat := [0, 0, 0, 0, 1, 2, 2, 3, 3].getD (8 - popCount 8 lost.toNat) 0

/-- INK_PHASE_LOST (R419). -/
def execInkPhaseLost (phase : Fin 8) (s : State) : Host.Outcome State Fault Refusal :=
  .next (
    if s.power.phasesLost.getLsbD phase || s.power.rails ≠ .up then s else
    let lost := s.power.phasesLost ||| (1#8 <<< phase.val)
    let s := (setPower s { s.power with phasesLost := lost }).put PWR_INK_PHASES_OK (~~~lost).toNat
    let s := event (showClass (s.put PWR_CLASS_MAX_CLASS (maxClass lost))) 0xE0 436 phase
    if 6 ≤ popCount 8 lost.toNat then event s 0xE1 436 phase else s)

/-- INK_RAIL_FAULT (R420): Fatal, then the Inkwell removes the ink rail. -/
def execInkRailFault (s : State) : Host.Outcome State Fault Refusal :=
  .next (if s.power.rails = .up then toStandby (event s 0xE2 436) 9 else s)

/-- RESET_ASSERT (R550): the node goes to Standby; the Fatal latch makes RESET_N ineffective (R520). -/
def execResetAssert (s : State) : Host.Outcome State Fault Refusal :=
  .next (
    let s := { s with pins := { s.pins with resetN := false } }
    if s.power.rails = .up && !s.colophon.fatalShadow then toStandby s 6 else s)

/-- INK_RAIL_RAISE (R429): `rtc` the RTC's count in Standby. -/
def execInkRailRaise (rtc : BitVec 32) (s : State) : Host.Outcome State Fault Refusal :=
  .next (
    if s.power.rails ≠ .standby || s.colophon.fatalShadow || s.colophon.restartLock || s.power.cycling then s else
    raiseRail (tickRtc { s with pins := { s.pins with resetN := true } } rtc.toNat))

/-- INKWELL_CYCLE_RESTART (R429): 100 ms after the rails went; the boot follows if RESET_N is high and no lock holds. -/
def execInkwellCycleRestart (s : State) : Host.Outcome State Fault Refusal :=
  .next (
    if !s.power.cycling then s else
    let s := setPower s { s.power with cycling := false }
    if s.pins.resetN && !s.colophon.restartLock && !s.colophon.fatalShadow && s.power.rails == .standby then raiseRail s else s)

/-- THERMTRIP_RESTART_CHECK (R457): after a VIN or Inkwell cycle every sensor is read against its restart limit before
the lock clears; while one is not below, the rails stay down. -/
def execThermtripRestartCheck (readings : List (Fin 370 × BitVec 12)) (s : State) : Host.Outcome State Fault Refusal :=
  .next (
    if !s.colophon.restartLock || !s.colophon.lockCycled || s.power.rails ≠ .standby || s.power.cycling then s
    else if !(readings.all fun (i, v) => absentSensor s.variant i || decide (signed 12 v.toNat < restartLimit i)) then s
    else
      let s := standbyPins (setCol s { s.colophon with restartLock := false })
      if s.pins.resetN && !s.colophon.fatalShadow then raiseRail s else s)

end Sys2Proof.Machine
end

