-- ==== Sys2Proof/Machine/Colophon.lean ====
section
/-! DEFINITION. The Colophon (chapter 19): committing records, the minute summary, checkpoints, the calendar; and the
Inkwell's own input events (R545, R550). -/

namespace Sys2Proof.Machine

/-- An event of the Inkwell: held until the Blotter runs while the main dies are down (R556, R571). -/
def inkEvent (s : State) (type source detail : Nat) : State :=
  if s.power.rails = .up then event s type source detail
  else setPower s { s.power with bootEvents := s.power.bootEvents ++ [(type, detail)] }

/-- Calendar seconds; 0 while RTC_VALID is 0 (R531, Table 19-2). -/
def calendarNow (s : State) : Nat := if s.colophon.rtcValid then s.colophon.rtc / 32768 else 0

/-- The COL_ and THM_ registers that the Colophon backs (Tables 19-7, 19-9, 15-9). -/
def showColophon (s : State) : State :=
  let c := s.colophon
  let s := ((s.setWord COL_CALENDAR_ALL.addr (BitVec.ofNat 64 (calendarNow s))).putB COL_STATUS_RTC_VALID c.rtcValid).put
    COL_STATUS_CAL_SOURCE c.calSource
  let s := ((s.put COL_STATUS_CHECKPOINT_COPY c.copyLast).put COL_STATUS_BAD_SECTORS (min 255 c.badSectors)).put
    COL_STATUS_DROPPED (min 65535 c.dropped)
  let s := (s.put COL_STATUS_EVENT_SEQ c.eventSeq).put COL_LIFETIME_POWERED_SECONDS c.life.seconds
  let s := (s.put COL_LIFETIME_ENERGY_KJ (c.life.joules / 1000)).put COL_SHUTDOWNS_VIN_FAULT (min 65535 c.life.vinFaults)
  let s := ((s.put COL_SHUTDOWNS_THERMTRIP (min 65535 c.life.thermtrips)).put COL_SHUTDOWNS_FATAL (min 65535 c.life.fatals)).put
    COL_SHUTDOWNS_UNRECORDED (min 65535 c.life.unrecorded)
  let s := s.setWord THM_TRIP_DIE.addr c.tripImage
  s.each (List.range s.variant.clusters) showBoost

/-! ### Records (R524 to R529) -/

/-- 64-byte units of a record (Table 19-3). -/
def ColBody.units : ColBody → Nat
  | .minute .. => 3
  | .blotter .. | .shutdown .. => 2
  | .repair .. | .fuse .. | .calendar .. | .marker .. => 1

/-- A repair or fuse record, which the ring's head may not pass before a checkpoint (R528). -/
def ColBody.guarded : ColBody → Bool
  | .repair .. | .fuse .. => true
  | _ => false

/-- Write the lifetime counters to the copy not written last and append the marker to the minute ring (R526). -/
def writeCheckpoint (s : State) : State :=
  let c := s.colophon
  let copy := 1 - c.copyLast
  let k : Checkpoint := { generation := c.generation + 1, calendar := calendarNow s, time := s.stamp, life := c.life
                          eventSeq := c.eventSeq, minuteSeq := c.minuteSeq + 1 }
  let r : ColRecord := { seq := c.minuteSeq, calendar := calendarNow s, body := .marker copy (c.generation + 1) }
  let ring := c.minuteRing ++ [r]
  showColophon (setCol s.timed { c with
    copyA := if copy = 0 then some k else c.copyA, copyB := if copy = 1 then some k else c.copyB
    generation := c.generation + 1, copyLast := copy, summaries := 0, checkpointDue := false
    minuteRing := ring.drop (ring.length - 2730), minuteSeq := c.minuteSeq + 1 })

/-- Drop the oldest event-ring records while they exceed 512 KiB, writing a checkpoint first when one of them is a repair
or fuse record newer than the last (R528). -/
def trimRing : Nat → State → State
  | 0, s => s
  | fuel + 1, s =>
    match s.colophon.eventRing with
    | [] => s
    | r :: rest =>
      if (s.colophon.eventRing.foldl (fun n x => n + x.body.units) 0) ≤ 8192 then s else
      let since := max ((s.colophon.copyA.map (·.eventSeq)).getD 0) ((s.colophon.copyB.map (·.eventSeq)).getD 0)
      let s := if r.body.guarded && decide (since ≤ r.seq) then writeCheckpoint s else s
      trimRing fuel (setCol s { s.colophon with eventRing := rest })

/-- Add a cluster's milliseconds to the boost bucket of today, dropping days that have left the window (R453). -/
def addBoost (s : State) (c p k : Nat) : State :=
  let l := s.colophon.life
  let key := 2 ^ 24 * c + boostDay s
  let (p0, k0) := Tab.at l.boost key (0, 0)
  let kept := l.boost.filter fun (q, _) => q / 2 ^ 24 != c || decide (boostDay s < q % 2 ^ 24 + 30)
  setCol s { s.colophon with life := { l with boost := Tab.set kept key (p0 + p, k0 + k) } }

/-- The repair images of a channel after a repair record (Table 19-4). -/
def applyRepair (l : Life) (g kind index : Nat) (image : BitVec 64) : Life :=
  let (_, d, ca) := Tab.at l.repair g (0, 0, 0)
  let d := if kind = 0 then d ||| BitVec.ofNat 64 (2 ^ index) else d
  let ca := if kind = 1 then ca ||| BitVec.ofNat 64 (2 ^ index) else if kind = 2 then ca ||| BitVec.ofNat 64 (2 ^ (16 + index)) else ca
  let l := { l with repair := Tab.set l.repair g (image, d, ca) }
  if kind = 7 then { l with rowRepairs := Tab.set l.rowRepairs (272 * g + index / 2048) (Tab.at l.rowRepairs (272 * g + index / 2048) 0 + 1) }
  else l

/-- What a committed record adds to the lifetime counters (R526, R527). -/
def applyRecord (l : Life) (b : ColBody) : Life :=
  match b with
  | .shutdown cause _ _ _ =>
    if cause = 7 then { l with vinFaults := l.vinFaults + 1 }
    else if cause = 8 then { l with thermtrips := l.thermtrips + 1 }
    else if cause = 9 then { l with fatals := l.fatals + 1 }
    else if cause = 0xA then { l with cycles := l.cycles + 1 } else l
  | .repair g kind index image => applyRepair l g kind index image
  | .minute seconds energy _ _ _ bins =>
    let hist := (bins.zipIdx.filter fun (b, _) => decide (b < 16)).foldl (fun h (b, d) => Tab.set h (16 * d + b) (Tab.at h (16 * d + b) 0 + 1)) l.hist
    { l with seconds := l.seconds + seconds, joules := l.joules + energy, hist := hist }
  | _ => l

/-- Commit a body to the event ring (R525). -/
def commit (s : State) (b : ColBody) : State :=
  let c := s.colophon
  let r : ColRecord := { seq := c.eventSeq, calendar := calendarNow s, body := b }
  let isShutdown := match b with | .shutdown .. => true | _ => false
  let s := setCol s { c with
    eventRing := c.eventRing ++ [r], eventSeq := c.eventSeq + 1, life := applyRecord c.life b
    shutdownSeen := c.shutdownSeen || isShutdown, checkpointDue := c.checkpointDue || isShutdown }
  let s := match b with
    | .shutdown _ _ _ boost => boost.zipIdx.foldl (fun s (x, c) => if x = (0, 0) then s else addBoost s c x.1 x.2) s
    | _ => s
  showColophon (trimRing 8 s)

/-- COLOPHON_COMMIT (R525, R528, R529): the oldest body sent is committed; a Blotter record beyond the rate is dropped and
counted. `failed`: its sector fails and is retired to a spare, and the write is repeated. -/
def execColophonCommit (failed : Bool) (s : State) : Host.Outcome State Fault Refusal :=
  .next (
    if s.power.rails = .off then s else
    match s.colophon.waiting with
    | [] => s
    | b :: rest =>
      let s := setCol s { s.colophon with waiting := rest }
      let limited := match b with | .blotter _ _ => !s.colophon.fatalShadow | _ => false
      if limited && decide (s.get COL_CTRL_EVENT_RATE ≤ s.colophon.blotterMinute) then
        let s := setCol s { s.colophon with droppedMinute := s.colophon.droppedMinute + 1, dropped := s.colophon.dropped + 1 }
        showColophon (if s.power.rails = .up then eventOnce s 0x136 442 0 else s)
      else
        let s := if limited then setCol s { s.colophon with blotterMinute := s.colophon.blotterMinute + 1 } else s
        let s := if failed then
            let n := s.colophon.badSectors + 1
            let s := inkEvent (setCol s { s.colophon with badSectors := n }) 0x130 442 0
            if n = 9 then inkEvent s 0x131 442 n else s
          else s
        commit s b)

/-- The 4-bit histogram bin of a temperature in 0.25 °C above −128 °C (R526); 16 for a die without a sample. -/
def binOf (v : Option Nat) : Nat :=
  match v with
  | none => 16
  | some v => if v < 512 then 0 else min 15 ((v - 512) / 32 + 1)

/-- MINUTE_SUMMARY (R525, R526, R453): at the end of each 60 s in which the ink rail has been up. -/
def execMinuteSummary (s : State) : Host.Outcome State Fault Refusal :=
  .next (
    if s.power.rails ≠ .up then s else
    let c := s.colophon
    let use := (List.range 16).map fun k => Tab.at c.clusterUse k (0, 0)
    let bins := (List.range 71).map fun d => binOf (Tab.find c.dieMax d)
    let body := ColBody.minute 60 (c.energy / 10000000) c.classCounts c.droppedMinute (use.map fun (p, k) => (p / 1000, k / 1000)) bins
    let ring := c.minuteRing ++ [{ seq := c.minuteSeq, calendar := calendarNow s, body := body }]
    let left : Tab (Nat × Nat) := (use.zipIdx.map fun ((p, k), i) => (i, (p % 1000, k % 1000))).filter fun (_, x) => x != (0, 0)
    let s := setCol s { c with
      minuteRing := ring.drop (ring.length - 2730), minuteSeq := c.minuteSeq + 1, summaries := c.summaries + 1
      checkpointDue := c.checkpointDue || decide (1024 ≤ c.summaries + 1), shutdownSeen := false, life := applyRecord c.life body
      energy := c.energy % 10000000, classCounts := [0, 0, 0, 0, 0], droppedMinute := 0, blotterMinute := 0, clusterUse := left
      dieMax := [] }
    showColophon (use.zipIdx.foldl (fun s ((p, k), c) => if p < 1000 then s else addBoost s c (p / 1000) (k / 1000)) s))

/-- CHECKPOINT_WRITE (R526, R534): when one is due; a loss of VIN during it leaves that copy invalid and the other
standing. -/
def execCheckpointWrite (lost : Bool) (s : State) : Host.Outcome State Fault Refusal :=
  .next (
    if s.power.rails = .off || !s.colophon.checkpointDue then s
    else if lost then
      setCol s (if s.colophon.copyLast = 0 then { s.colophon with copyB := none } else { s.colophon with copyA := none })
    else writeCheckpoint s)

/-- A write of COL_CTRL (R536, Table 19-8). -/
def writeColCtrl (s : State) (v : BitVec 64) : State :=
  let rate := v.toNat % 32
  if rate < 1 ∨ 16 < rate then notice s 442 else
  let s := s.put COL_CTRL_EVENT_RATE rate
  if v.getLsbD 8 then setCol s { s.colophon with checkpointDue := true } else s

/-- COLOPHON_FLUSH (R536). -/
def execColophonFlush (value : BitVec 64) (s : State) : Host.Outcome State Fault Refusal := .next (writeColCtrl s value)

/-! ### The calendar (R531, R532) -/

/-- Step the RTC to `now` in 1/32,768 s, with its record for a step of 1 s or more and for the first setting. -/
def setRtc (s : State) (now source : Nat) : State :=
  let c := s.colophon
  let far := decide (c.rtc + 32768 ≤ now) || decide (now + 32768 ≤ c.rtc)
  let s := if far || !c.everSet || !c.rtcValid then
      toColophon s (.calendar (calendarNow s) (now / 32768) source) else s
  showColophon (setCol s { s.colophon with rtc := now, rtcValid := true, calSource := source, everSet := true })

/-- Set the calendar from management (2) or a rubric (3): refused while the source quality is 0x0 (R532). -/
def setCalendar (s : State) (v : BitVec 64) (source : Nat) : State :=
  if s.power.rails = .up ∧ s.ruling.running ∧ s.get RUL_STATUS_QUALITY = 0 then event s 0x137 442
  else setRtc s (v.toNat * 32768) source

/-- CALENDAR_SET (R532): a write of COL_CALENDAR_SET, by management or by rubric code. -/
def execCalendarSet (management : Bool) (value : BitVec 64) (s : State) : Host.Outcome State Fault Refusal :=
  .next (setCalendar s value (if management then 2 else 3))

/-- The calendar's part of a line edge (R40, R532): at line 0 under quality 0x0 the RTC is stepped to the ruling calendar
when they differ by 1 ms or more, at most once per 1,024 folios. -/
def calendarEdge (s : State) : State :=
  let s := s.setWord COL_CALENDAR_ALL.addr (BitVec.ofNat 64 (calendarNow s))
  if s.lineInFolio ≠ 0 || s.get RUL_STATUS_QUALITY ≠ 0 then s else
  let us := s.ruling.utc * 1000000 + s.ruling.line
  let r := s.colophon.rtc * 1000000
  let apart := decide (r + 32768000 ≤ us * 32768) || decide (us * 32768 + 32768000 ≤ r) || !s.colophon.rtcValid
  let recent := match s.colophon.stepFolio with | some f => decide (s.folio < f + 1024) && decide (f ≤ s.folio) | none => false
  if apart && !recent then
    let s := setRtc s (us * 32768 / 1000000) 1
    setCol s { s.colophon with stepFolio := some s.folio }
  else s

/-! ### The Inkwell's inputs (R545, R550) -/

/-- VIO_OVERLOAD (R545): VIO_OUT goes off, with its event. -/
def execVioOverload (s : State) : Host.Outcome State Fault Refusal :=
  .next (if s.power.rails = .off || s.power.vioOff then s else inkEvent (setPower s { s.power with vioOff := true }) 0x142 436 0)

/-- VIO_RETRY (R545). -/
def execVioRetry (s : State) : Host.Outcome State Fault Refusal := .next (setPower s { s.power with vioOff := false })

/-- CRYSTAL_FAILURE (R550): RTC_VALID falls. -/
def execCrystalFailure (s : State) : Host.Outcome State Fault Refusal :=
  .next (if s.power.rails = .off then s else inkEvent (showColophon (setCol s { s.colophon with rtcValid := false })) 0x143 436 0)

/-- MGMT_BUS_STUCK (R550): the responder abandons the transfer and resets its interface. A management command is one
whole message here, so no part of one is held (assumption 37). -/
def execMgmtBusStuck (s : State) : Host.Outcome State Fault Refusal := .next s

end Sys2Proof.Machine
end

