-- ==== Sys2Proof/Machine/Bexorn.lean ====
section
/-! DEFINITION. Bexorn: issue of an instruction and its traps as ONE shared operation each (R302, R303, R305, R306, R316 to
R322), and the integer, logic, predicate, branch and system instructions (chapter 10). An instruction that its core cannot
issue now (the core does not run, waits, or needs what is outstanding) leaves the state as it is, and its sender gives it
again. -/

namespace Sys2Proof.Machine

/-! ### Traps (R318, R322) -/

/-- A trap: cause, ACCESS, effective address, CODE, whether it is imprecise, and the PC it saves. -/
structure Trap where
  cause : Nat
  access : Nat := 0
  faddr : BitVec 64 := 0
  code : Nat := 0
  imprecise : Bool := false
  epc : BitVec 64

/-- CS_CAUSE of a trap (Table 10-8). -/
def Trap.word (t : Trap) : BitVec 64 :=
  BitVec.ofNat 64 (t.cause + t.code * 2 ^ 8 + t.access * 2 ^ 28 + b2n t.imprecise * 2 ^ 31)

/-- The end of a program (R322): on a Scribe the rubric is handled, on a nib core the item ends FAULT, RESULT the address
or the CODE (Table 12-12). -/
def endProgram (s : State) (k : Nat) (t : Trap) (cause : Nat) : State :=
  if k < 8 then endScribe s k cause t.epc t.faddr
  else endCore s k csFault cause (if cause = 0x0C ∨ cause = 0x0D then t.code else t.faddr.toNat)

/-- Raise a trap (R318). -/
def raiseTrap (s : State) (k : Nat) (t : Trap) : State :=
  let c := core s k
  if t.cause = 0x0D then endProgram s k t 0x0D
  else if !c.enable then endProgram s k t 0x0E
  else if c.tvec = 0 then endProgram s k t t.cause
  else setCore s k { c with epc := t.epc, cause := t.word, faddr := t.faddr, enable := false, pc := c.tvec }

/-- A precise fault of the instruction at PC: taken once nothing is outstanding (R320, R321). -/
def fault (s : State) (k cause : Nat) (access : Nat := 0) (faddr : BitVec 64 := 0) : State :=
  let c := core s k
  if c.outstanding.isEmpty then raiseTrap s k { cause := cause, access := access, faddr := faddr, epc := c.pc } else s

/-- An uncorrectable error in core memory (R316): a nib core's event; in a fetch the second of a Scribe in a folio is a
Scribe fault (R355). -/
def eccFault (s : State) (k access : Nat) (faddr : BitVec 64) : State :=
  if !(core s k).outstanding.isEmpty then s
  else if 8 ≤ k then fault (event s 0xC4 (coreSource k) (k - 8)) k 0x0B access faddr
  else if access = 1 then
    (if (core s k).fetchFolio = some s.folio then scribeFault s k
     else fault (modCore s k fun c => { c with fetchFolio := some s.folio }) k 0x0B access faddr)
  else fault s k 0x0B access faddr

/-- A corrected error in core memory is a Corrected event (R316), of a type that no event table lists (assumption 11). -/
def eccCorrected (s : State) (k : Nat) (e : Ecc) : State := if e = .corrected then openEvent s (coreSource k) 1 else s

/-- Registers that outstanding accesses will write. -/
def awaited (c : CoreState) : List Nat :=
  c.outstanding.filterMap fun a => match a.kind with | .load w _ _ => w | .atomic w _ _ => w | _ => none
/-- Vector registers that outstanding line loads will write. -/
def awaitedV (c : CoreState) : List Nat := c.outstanding.filterMap fun a => match a.kind with | .vector v => v | _ => none

/-- What an instruction needs before it issues. -/
structure Needs where
  len : Nat := 1                -- syllables (R300)
  scribeOnly : Bool := false    -- cause 0x02 on a nib core (R305, R306)
  vector : Bool := false        -- cause 0x01 on a Scribe
  reads : List Nat := []        -- w registers it reads
  readsV : List Nat := []       -- v registers it reads
  access : Bool := false        -- accesses memory: waits behind an acquire (R335)
  drains : Bool := false        -- waits until no earlier access is outstanding (R321)

/-- Issue an instruction: fetch, availability, and the stalls of R315, R321, R324 and R335; then its own effect. -/
def issue (s : State) (r : CoreRun) (n : Needs) (f : State → CoreState → State) : State :=
  let k := r.core.val
  let c := core s k
  if !c.running || c.wait.isSome || (failedAccess s k).isSome || (decide (8 ≤ k) && c.pc == completionAddress) then s
  else if c.code < c.pc.toNat + n.len then fault s k 0x04 1 c.pc
  else if r.fetch = .uncorrectable then eccFault s k 1 c.pc
  else if n.scribeOnly && decide (8 ≤ k) then fault s k 0x02
  else if n.vector && decide (k < 8) then fault s k 0x01
  else if r.reserved then fault s k 0x01
  else if n.reads.any (awaited c).contains || n.readsV.any (awaitedV c).contains then s
  else if n.drains && !c.outstanding.isEmpty then s
  else if n.access && c.outstanding.any (fun a => match a.kind with | .atomic _ _ q => q | _ => false) then s
  else f (eccCorrected s k r.fetch) c

/-- The instruction at PC retires: PC passes its syllables. -/
def advance (s : State) (k len : Nat) (f : CoreState → CoreState := id) : State :=
  modCore s k fun c => { f c with pc := c.pc + BitVec.ofNat 64 len, retired := c.retired + 1 }

/-- It retires by jumping. -/
def jump (s : State) (k : Nat) (target : BitVec 64) (f : CoreState → CoreState := id) : State :=
  modCore s k fun c => { f c with pc := target, retired := c.retired + 1 }

/-! ### Integer and logic (R325 to R328) -/

/-- An instruction that writes one register from register values. -/
def compute (s : State) (r : CoreRun) (len : Nat) (reads : List Nat) (d : Nat) (g : CoreState → BitVec 64) : State :=
  issue s r { len := len, reads := reads } fun s c => advance s r.core len fun x => x.setW d (g c)

/-- A short form of two source registers. -/
def alu (s : State) (r : CoreRun) (d a b : Fin 32) (op : BitVec 64 → BitVec 64 → BitVec 64) : State :=
  compute s r 1 [a.val, b.val] d fun c => op (c.w a) (c.w b)

/-- A form of one source register and an immediate. -/
def aluImm (s : State) (r : CoreRun) (len : Nat) (d a : Fin 32) (op : BitVec 64 → BitVec 64) : State :=
  compute s r len [a.val] d fun c => op (c.w a)

/-- Shifts use bits 5:0 of their operand (R325). -/
def shl (a b : BitVec 64) : BitVec 64 := a <<< (b.toNat % 64)
def shr (a b : BitVec 64) : BitVec 64 := a >>> (b.toNat % 64)
def sar (a b : BitVec 64) : BitVec 64 := a.sshiftRight (b.toNat % 64)
/-- sext of a field. -/
def sext {n : Nat} (v : BitVec n) : BitVec 64 := v.signExtend 64
/-- Zero-extension of a field. -/
def zext {n : Nat} (v : BitVec n) : BitVec 64 := v.zeroExtend 64

/-- ADD (R325). -/
def execAdd (run : CoreRun) (d a b : Fin 32) (s : State) : Host.Outcome State Fault Refusal := .next (alu s run d a b (· + ·))
/-- SUB (R325). -/
def execSub (run : CoreRun) (d a b : Fin 32) (s : State) : Host.Outcome State Fault Refusal := .next (alu s run d a b (· - ·))
/-- AND (R325). -/
def execAnd (run : CoreRun) (d a b : Fin 32) (s : State) : Host.Outcome State Fault Refusal := .next (alu s run d a b (· &&& ·))
/-- OR (R325). -/
def execOr (run : CoreRun) (d a b : Fin 32) (s : State) : Host.Outcome State Fault Refusal := .next (alu s run d a b (· ||| ·))
/-- XOR (R325). -/
def execXor (run : CoreRun) (d a b : Fin 32) (s : State) : Host.Outcome State Fault Refusal := .next (alu s run d a b (· ^^^ ·))
/-- SHL (R325). -/
def execShl (run : CoreRun) (d a b : Fin 32) (s : State) : Host.Outcome State Fault Refusal := .next (alu s run d a b shl)
/-- SHR (R325). -/
def execShr (run : CoreRun) (d a b : Fin 32) (s : State) : Host.Outcome State Fault Refusal := .next (alu s run d a b shr)
/-- SAR (R325). -/
def execSar (run : CoreRun) (d a b : Fin 32) (s : State) : Host.Outcome State Fault Refusal := .next (alu s run d a b sar)
/-- MUL (R325). -/
def execMul (run : CoreRun) (d a b : Fin 32) (s : State) : Host.Outcome State Fault Refusal := .next (alu s run d a b (· * ·))

/-- ADDI (R325). -/
def execAddi (run : CoreRun) (d a : Fin 32) (imm : BitVec 5) (s : State) : Host.Outcome State Fault Refusal :=
  .next (aluImm s run 1 d a (· + sext imm))
/-- SHLI (R325). -/
def execShli (run : CoreRun) (d a : Fin 32) (imm : BitVec 5) (s : State) : Host.Outcome State Fault Refusal :=
  .next (aluImm s run 1 d a fun x => x <<< imm.toNat)
/-- SHRI (R325). -/
def execShri (run : CoreRun) (d a : Fin 32) (imm : BitVec 5) (s : State) : Host.Outcome State Fault Refusal :=
  .next (aluImm s run 1 d a fun x => x >>> imm.toNat)
/-- SARI (R325). -/
def execSari (run : CoreRun) (d a : Fin 32) (imm : BitVec 5) (s : State) : Host.Outcome State Fault Refusal :=
  .next (aluImm s run 1 d a fun x => x.sshiftRight imm.toNat)
/-- LI (R325). -/
def execLi (run : CoreRun) (d : Fin 32) (imm : BitVec 10) (s : State) : Host.Outcome State Fault Refusal :=
  .next (compute s run 1 [] d fun _ => sext imm)

/-- ADDL (R326). -/
def execAddl (run : CoreRun) (d a : Fin 32) (imm : BitVec 20) (s : State) : Host.Outcome State Fault Refusal :=
  .next (aluImm s run 2 d a (· + sext imm))
/-- ANDL (R326). -/
def execAndl (run : CoreRun) (d a : Fin 32) (imm : BitVec 20) (s : State) : Host.Outcome State Fault Refusal :=
  .next (aluImm s run 2 d a (· &&& sext imm))
/-- ORL (R326). -/
def execOrl (run : CoreRun) (d a : Fin 32) (imm : BitVec 20) (s : State) : Host.Outcome State Fault Refusal :=
  .next (aluImm s run 2 d a (· ||| zext imm))
/-- XORL (R326). -/
def execXorl (run : CoreRun) (d a : Fin 32) (imm : BitVec 20) (s : State) : Host.Outcome State Fault Refusal :=
  .next (aluImm s run 2 d a (· ^^^ zext imm))
/-- LIS (R326). -/
def execLis (run : CoreRun) (d a : Fin 32) (imm : BitVec 20) (s : State) : Host.Outcome State Fault Refusal :=
  .next (aluImm s run 2 d a fun x => (x <<< 20) ||| zext imm)

/-- ALUX (R327): with a false guard no effect, and the operands are not checked; a function of one operand names w0 as wb,
or is illegal (R302). -/
def alux (s : State) (r : CoreRun) (d a b : Fin 32) (guard : Fin 8) (neg unary : Bool) (op : BitVec 64 → BitVec 64 → BitVec 64) :
    State :=
  let go := (core s r.core).guard guard neg
  issue s r { len := 2, reads := if go then [a.val, b.val] else [] } fun s c =>
    if !go then advance s r.core 2
    else if unary && b != 0 then fault s r.core 0x01
    else advance s r.core 2 fun x => x.setW d (op (c.w a) (c.w b))

/-- High halves of the 128-bit products. -/
def mulh (a b : BitVec 64) : BitVec 64 := ((a.signExtend 128 * b.signExtend 128) >>> 64).truncate 64
def mulhu (a b : BitVec 64) : BitVec 64 := ((a.zeroExtend 128 * b.zeroExtend 128) >>> 64).truncate 64
/-- Division (R328): by zero gives all ones, and the remainder wa. -/
def divS (a b : BitVec 64) : BitVec 64 := if b = 0 then BitVec.allOnes 64 else a.sdiv b
def divU (a b : BitVec 64) : BitVec 64 := if b = 0 then BitVec.allOnes 64 else a / b
def remS (a b : BitVec 64) : BitVec 64 := if b = 0 then a else a.srem b
def remU (a b : BitVec 64) : BitVec 64 := if b = 0 then a else a % b
/-- Leading and trailing zero bits, bits set, bytes reversed. -/
def clz (a : BitVec 64) : BitVec 64 := BitVec.ofNat 64 (if a = 0 then 64 else 63 - Nat.log2 a.toNat)
def ctz (a : BitVec 64) : BitVec 64 :=
  BitVec.ofNat 64 (match (List.range 64).find? fun i => a.getLsbD i with | some i => i | none => 64)
def popc (a : BitVec 64) : BitVec 64 := BitVec.ofNat 64 (popCount 64 a.toNat)
def bswap (a : BitVec 64) : BitVec 64 := BitVec.ofNat 64 (leNat (leBytes 8 a.toNat).reverse)

/-- ALUX ADD (R327). -/
def execAluxAdd (run : CoreRun) (d a b : Fin 32) (guard : Fin 8) (neg : Bool) (s : State) : Host.Outcome State Fault Refusal :=
  .next (alux s run d a b guard neg false (· + ·))
/-- ALUX SUB (R327). -/
def execAluxSub (run : CoreRun) (d a b : Fin 32) (guard : Fin 8) (neg : Bool) (s : State) : Host.Outcome State Fault Refusal :=
  .next (alux s run d a b guard neg false (· - ·))
/-- ALUX AND (R327). -/
def execAluxAnd (run : CoreRun) (d a b : Fin 32) (guard : Fin 8) (neg : Bool) (s : State) : Host.Outcome State Fault Refusal :=
  .next (alux s run d a b guard neg false (· &&& ·))
/-- ALUX OR (R327). -/
def execAluxOr (run : CoreRun) (d a b : Fin 32) (guard : Fin 8) (neg : Bool) (s : State) : Host.Outcome State Fault Refusal :=
  .next (alux s run d a b guard neg false (· ||| ·))
/-- ALUX XOR (R327). -/
def execAluxXor (run : CoreRun) (d a b : Fin 32) (guard : Fin 8) (neg : Bool) (s : State) : Host.Outcome State Fault Refusal :=
  .next (alux s run d a b guard neg false (· ^^^ ·))
/-- ALUX ANDN (R327). -/
def execAluxAndn (run : CoreRun) (d a b : Fin 32) (guard : Fin 8) (neg : Bool) (s : State) : Host.Outcome State Fault Refusal :=
  .next (alux s run d a b guard neg false fun x y => x &&& ~~~y)
/-- ALUX SHL (R327). -/
def execAluxShl (run : CoreRun) (d a b : Fin 32) (guard : Fin 8) (neg : Bool) (s : State) : Host.Outcome State Fault Refusal :=
  .next (alux s run d a b guard neg false shl)
/-- ALUX SHR (R327). -/
def execAluxShr (run : CoreRun) (d a b : Fin 32) (guard : Fin 8) (neg : Bool) (s : State) : Host.Outcome State Fault Refusal :=
  .next (alux s run d a b guard neg false shr)
/-- ALUX SAR (R327). -/
def execAluxSar (run : CoreRun) (d a b : Fin 32) (guard : Fin 8) (neg : Bool) (s : State) : Host.Outcome State Fault Refusal :=
  .next (alux s run d a b guard neg false sar)
/-- ALUX MUL (R327). -/
def execAluxMul (run : CoreRun) (d a b : Fin 32) (guard : Fin 8) (neg : Bool) (s : State) : Host.Outcome State Fault Refusal :=
  .next (alux s run d a b guard neg false (· * ·))
/-- ALUX MULH (R327). -/
def execAluxMulh (run : CoreRun) (d a b : Fin 32) (guard : Fin 8) (neg : Bool) (s : State) : Host.Outcome State Fault Refusal :=
  .next (alux s run d a b guard neg false mulh)
/-- ALUX MULHU (R327). -/
def execAluxMulhu (run : CoreRun) (d a b : Fin 32) (guard : Fin 8) (neg : Bool) (s : State) : Host.Outcome State Fault Refusal :=
  .next (alux s run d a b guard neg false mulhu)
/-- ALUX DIV (R327, R328). -/
def execAluxDiv (run : CoreRun) (d a b : Fin 32) (guard : Fin 8) (neg : Bool) (s : State) : Host.Outcome State Fault Refusal :=
  .next (alux s run d a b guard neg false divS)
/-- ALUX DIVU (R327, R328). -/
def execAluxDivu (run : CoreRun) (d a b : Fin 32) (guard : Fin 8) (neg : Bool) (s : State) : Host.Outcome State Fault Refusal :=
  .next (alux s run d a b guard neg false divU)
/-- ALUX REM (R327, R328). -/
def execAluxRem (run : CoreRun) (d a b : Fin 32) (guard : Fin 8) (neg : Bool) (s : State) : Host.Outcome State Fault Refusal :=
  .next (alux s run d a b guard neg false remS)
/-- ALUX REMU (R327, R328). -/
def execAluxRemu (run : CoreRun) (d a b : Fin 32) (guard : Fin 8) (neg : Bool) (s : State) : Host.Outcome State Fault Refusal :=
  .next (alux s run d a b guard neg false remU)
/-- ALUX MIN (R327). -/
def execAluxMin (run : CoreRun) (d a b : Fin 32) (guard : Fin 8) (neg : Bool) (s : State) : Host.Outcome State Fault Refusal :=
  .next (alux s run d a b guard neg false fun x y => if x.toInt ≤ y.toInt then x else y)
/-- ALUX MAX (R327). -/
def execAluxMax (run : CoreRun) (d a b : Fin 32) (guard : Fin 8) (neg : Bool) (s : State) : Host.Outcome State Fault Refusal :=
  .next (alux s run d a b guard neg false fun x y => if x.toInt ≤ y.toInt then y else x)
/-- ALUX MINU (R327). -/
def execAluxMinu (run : CoreRun) (d a b : Fin 32) (guard : Fin 8) (neg : Bool) (s : State) : Host.Outcome State Fault Refusal :=
  .next (alux s run d a b guard neg false fun x y => if x.toNat ≤ y.toNat then x else y)
/-- ALUX MAXU (R327). -/
def execAluxMaxu (run : CoreRun) (d a b : Fin 32) (guard : Fin 8) (neg : Bool) (s : State) : Host.Outcome State Fault Refusal :=
  .next (alux s run d a b guard neg false fun x y => if x.toNat ≤ y.toNat then y else x)
/-- ALUX CLZ (R327). -/
def execAluxClz (run : CoreRun) (d a b : Fin 32) (guard : Fin 8) (neg : Bool) (s : State) : Host.Outcome State Fault Refusal :=
  .next (alux s run d a b guard neg true fun x _ => clz x)
/-- ALUX CTZ (R327). -/
def execAluxCtz (run : CoreRun) (d a b : Fin 32) (guard : Fin 8) (neg : Bool) (s : State) : Host.Outcome State Fault Refusal :=
  .next (alux s run d a b guard neg true fun x _ => ctz x)
/-- ALUX POPC (R327). -/
def execAluxPopc (run : CoreRun) (d a b : Fin 32) (guard : Fin 8) (neg : Bool) (s : State) : Host.Outcome State Fault Refusal :=
  .next (alux s run d a b guard neg true fun x _ => popc x)
/-- ALUX BSWAP (R327). -/
def execAluxBswap (run : CoreRun) (d a b : Fin 32) (guard : Fin 8) (neg : Bool) (s : State) : Host.Outcome State Fault Refusal :=
  .next (alux s run d a b guard neg true fun x _ => bswap x)
/-- ALUX SEXT32 (R327). -/
def execAluxSext32 (run : CoreRun) (d a b : Fin 32) (guard : Fin 8) (neg : Bool) (s : State) : Host.Outcome State Fault Refusal :=
  .next (alux s run d a b guard neg true fun x _ => sext (x.truncate 32))
/-- ALUX ZEXT32 (R327). -/
def execAluxZext32 (run : CoreRun) (d a b : Fin 32) (guard : Fin 8) (neg : Bool) (s : State) : Host.Outcome State Fault Refusal :=
  .next (alux s run d a b guard neg true fun x _ => zext (x.truncate 32))

/-! ### Compare, predicate and conditional move (R329 to R331) -/

/-- A condition of Table 10-14. -/
def condition (cond : Fin 4) (x y : BitVec 64) : Bool :=
  match cond with
  | 0 => x == y
  | 1 => decide (x.toInt < y.toInt)
  | 2 => decide (x.toNat < y.toNat)
  | 3 => (x &&& y) != 0

/-- A compare (R329). -/
def compare (s : State) (r : CoreRun) (len : Nat) (reads : List Nat) (p : Fin 8) (cond : Fin 4) (x y : CoreState → BitVec 64) : State :=
  issue s r { len := len, reads := reads } fun s c => advance s r.core len fun z => z.setP p (condition cond (x c) (y c))

/-- CMP (R329). -/
def execCmp (run : CoreRun) (p : Fin 8) (cond : Fin 4) (a b : Fin 32) (s : State) : Host.Outcome State Fault Refusal :=
  .next (compare s run 1 [a.val, b.val] p cond (fun c => c.w a) (fun c => c.w b))
/-- CMPI (R329). -/
def execCmpi (run : CoreRun) (p : Fin 8) (cond : Fin 4) (a : Fin 32) (imm : BitVec 5) (s : State) : Host.Outcome State Fault Refusal :=
  .next (compare s run 1 [a.val] p cond (fun c => c.w a) (fun _ => sext imm))
/-- CMPL (R329). -/
def execCmpl (run : CoreRun) (p : Fin 8) (cond : Fin 4) (a : Fin 32) (imm : BitVec 20) (s : State) : Host.Outcome State Fault Refusal :=
  .next (compare s run 2 [a.val] p cond (fun c => c.w a) (fun _ => sext imm))

/-- PLOG (R330). -/
def execPlog (run : CoreRun) (p : Fin 8) (op : Fin 4) (a b : Fin 8) (s : State) : Host.Outcome State Fault Refusal :=
  .next (issue s run {} fun s c =>
    let x := c.p a
    let y := c.p b
    advance s run.core 1 fun z => z.setP p (match op with
      | 0 => x && y
      | 1 => x || y
      | 2 => x != y
      | 3 => x && !y))

/-- MOVC (R331). -/
def execMovc (run : CoreRun) (d a : Fin 32) (guard : Fin 8) (neg : Bool) (s : State) : Host.Outcome State Fault Refusal :=
  .next (issue s run { reads := [a.val] } fun s c =>
    advance s run.core 1 fun z => if c.guard guard neg then z.setW d (c.w a) else z)

/-! ### Branches and jumps (R332) -/

/-- A conditional branch. -/
def branch (s : State) (r : CoreRun) (len : Nat) (p : Fin 8) (neg : Bool) (off : BitVec 64) : State :=
  issue s r { len := len } fun s c => if c.guard p neg then jump s r.core (c.pc + off) else advance s r.core len

/-- BR (R332). -/
def execBr (run : CoreRun) (p : Fin 8) (neg : Bool) (offset : BitVec 10) (s : State) : Host.Outcome State Fault Refusal :=
  .next (branch s run 1 p neg (sext offset))
/-- BRL (R332). -/
def execBrl (run : CoreRun) (p : Fin 8) (neg : Bool) (offset : BitVec 20) (s : State) : Host.Outcome State Fault Refusal :=
  .next (branch s run 2 p neg (sext offset))
/-- JAL (R307, R332): the link is w31. -/
def execJal (run : CoreRun) (offset : BitVec 15) (s : State) : Host.Outcome State Fault Refusal :=
  .next (issue s run {} fun s c => jump s run.core (c.pc + sext offset) fun z => z.setW 31 (c.pc + 1))
/-- JALL (R332). -/
def execJall (run : CoreRun) (d : Fin 32) (offset : BitVec 20) (s : State) : Host.Outcome State Fault Refusal :=
  .next (issue s run { len := 2 } fun s c => jump s run.core (c.pc + sext offset) fun z => z.setW d (c.pc + 2))
/-- JALR (R332): the target is read before the link is written. -/
def execJalr (run : CoreRun) (d a : Fin 32) (s : State) : Host.Outcome State Fault Refusal :=
  .next (issue s run { reads := [a.val] } fun s c => jump s run.core (c.w a) fun z => z.setW d (c.pc + 1))

/-! ### System (R319, R323, R337) -/

/-- NOP (R337). -/
def execNop (run : CoreRun) (s : State) : Host.Outcome State Fault Refusal := .next (issue s run {} fun s _ => advance s run.core 1)

/-- FENCE (R337): completes at once with nothing outstanding, else waits. -/
def execFence (run : CoreRun) (s : State) : Host.Outcome State Fault Refusal :=
  .next (issue s run {} fun s c =>
    if c.outstanding.isEmpty then advance s run.core 1 else modCore s run.core fun c => { c with wait := some .fence })

/-- TRAP (R318, R337): saves the next PC. -/
def execTrap (run : CoreRun) (code : BitVec 10) (s : State) : Host.Outcome State Fault Refusal :=
  .next (issue s run { drains := true } fun s c =>
    raiseTrap s run.core { cause := 0x0C, code := code.toNat, epc := c.pc + 1 })

/-- FAULT (R318, R337): ends the program. -/
def execFault (run : CoreRun) (code : BitVec 10) (s : State) : Host.Outcome State Fault Refusal :=
  .next (issue s run {} fun s c => raiseTrap s run.core { cause := 0x0D, code := code.toNat, epc := c.pc })

/-- RETT (R319). -/
def execRett (run : CoreRun) (s : State) : Host.Outcome State Fault Refusal :=
  .next (issue s run { drains := true } fun s c =>
    if c.enable then fault s run.core 0x01 else jump s run.core c.epc fun z => { z with enable := true })

/-- CS_CORE (Table 10-7). -/
def csCore (s : State) (k : Nat) : BitVec 64 :=
  BitVec.ofNat 64 (variantCode s.variant * 2 ^ 14 + (if k < 8 then k else 2 ^ 13 + (k - 8)))

/-- A core status register (Table 10-6); the count of cycles is a free value (assumption 4). -/
def readStatus (s : State) (k : Nat) (c : CoreState) (i : Nat) : Option (BitVec 64) :=
  match i with
  | 0 => some (csCore s k)
  | 1 => some c.tvec
  | 2 => some c.epc
  | 3 => some c.cause
  | 4 => some c.faddr
  | 5 => some (BitVec.ofNat 64 (b2n c.enable))
  | 6 => some s.freeNow
  | 7 => some c.retired
  | 8 => some c.scratch
  | 9 => some (BitVec.ofNat 64 (0x40000 * 2 ^ 32 + c.code))
  | _ => none

/-- RDCS (R323, R337). -/
def execRdcs (run : CoreRun) (d index : Fin 32) (s : State) : Host.Outcome State Fault Refusal :=
  .next (issue s run {} fun s c =>
    match readStatus s run.core c index with
    | some v => advance (if index.val = 6 then s.drew else s) run.core 1 fun z => z.setW d v
    | none => fault s run.core 0x01)

/-- WRCS (R323, R337): a write to a read-only register is discarded. -/
def execWrcs (run : CoreRun) (index a : Fin 32) (s : State) : Host.Outcome State Fault Refusal :=
  .next (issue s run { reads := [a.val] } fun s c =>
    let v := c.w a
    if 10 ≤ index.val then fault s run.core 0x01 else
    advance s run.core 1 fun z => match index.val with
      | 1 => { z with tvec := v }
      | 2 => { z with epc := v }
      | 5 => { z with enable := v.getLsbD 0 }
      | 8 => { z with scratch := v }
      | _ => z)

end Sys2Proof.Machine
end

