-- ==== Sys2Proof/Machine/CoreMemory.lean ====
section
/-! DEFINITION. Loads, stores and atomics of the cores (R311 to R315, R320, R321, R333 to R336, R375), and the return of what
they leave outstanding. -/

namespace Sys2Proof.Machine

/-! ### Addresses (R311, R312, R375) -/

/-- A nib core's device access lies inside one of its item's operands (R375). -/
def inOperands (s : State) (k : Nat) (ea size : Nat) : Bool :=
  decide (k < 8) || (match (core s k).item.bind (itemAt s) with
    | some x => x.operands.any fun o => decide (o.addr ≤ ea % 2 ^ 52) && decide (ea % 2 ^ 52 + size ≤ o.addr + 64 * o.lines)
    | none => false)

/-- Bytes of the working-memory region of a Scribe's rubric, and where it starts (R351). -/
def workSize (s : State) (k : Nat) : Nat := match rubricAt s k with | some r => r.units * 2 ^ 21 | none => 0
def workBase (s : State) (k : Nat) : Nat := match rubricAt s k with | some r => r.region * 2 ^ 21 | none => 0

/-- The precise faults of an address before its access is classified (R311 to R313, R375). -/
def addressCauses (s : State) (k ea size align : Nat) : List Nat :=
  let mis := if ea % align ≠ 0 then [0x03] else []
  mis ++ (match ea / 2 ^ 62 with
    | 0 => if localSize < ea + size then [0x05] else []
    | 1 => if 8 ≤ k then [0x06] else if workSize s k < ea % 2 ^ 62 + size then [0x05] else []
    | 2 => if bitsOf ea 52 10 ≠ 0 ∨ !inOperands s k ea size then [0x06] else []
    | _ => [0x06])

/-- The faults of an operand that must lie in the local space (R347, R374). -/
def localCauses (ea size align : Nat) : List Nat :=
  (if ea % align ≠ 0 then [0x03] else []) ++ (if localSize < ea + size then [0x05] else [])

/-- Take one of the faults that apply, or go on with none. Which of several is taken the spec does not say: a free value
chooses (assumption 36). -/
def checked (s : State) (k : Nat) (causes : List Nat) (access : Nat) (ea : BitVec 64) (go : State) : State :=
  match causes with
  | [] => go
  | [c] => fault s k c access ea
  | l => if (core s k).outstanding.isEmpty then fault s.drew k (l.getD (s.freeNow.toNat % l.length) 0) access ea else s

/-! ### Outstanding accesses (R314, R315) -/

/-- The memory line of an access: its space and its canonical line. -/
def lineKey (ea : Nat) : Nat × Nat := (ea / 2 ^ 62, if ea / 2 ^ 62 = 1 then ea % 2 ^ 62 / 64 else ea % 2 ^ 42 / 64)

/-- An access may leave the core: the limit of R315 is not reached, and nothing to its line is outstanding (R314). -/
def mayLaunch (k : Nat) (c : CoreState) (ea : Nat) : Bool :=
  decide (c.outstanding.length < if k < 8 then 8 else 16) && c.outstanding.all fun a => lineKey a.addr.toNat != lineKey ea

/-- Note an access as outstanding; its instruction retires (R315). Answers its slot. -/
def launch (s : State) (k len : Nat) (ea : BitVec 64) (kind : Await) : State × Nat :=
  let c := core s k
  let clear (a : CoreAccess) : CoreAccess :=
    match kind with
    | .load (some w) _ _ | .atomic (some w) _ _ => a.overtaken w
    | .vector (some v) => a.overtakenV v
    | _ => a
  let a : CoreAccess := { slot := c.nextSlot, pc := c.pc, addr := ea, kind := kind }
  (advance (setCore s k { c with outstanding := c.outstanding.map clear ++ [a], nextSlot := c.nextSlot + 1 }) k len, c.nextSlot)

/-- Answer an access at once. -/
def answerNow (s : State) (k slot : Nat) (r : Reply) : State := respond s (.core k slot) 0 r

/-- A device read of a core leaves it (R312): a failure at step 2 or 3 comes back as the answer (R321). -/
def deviceRead (s : State) (k len : Nat) (ea : BitVec 64) (kind : Await) : State :=
  let (s, slot) := launch s k len ea kind
  match coreClassify s k slot ea.toNat false 1 with
  | (s, .inl c) => answerNow s k slot (if c = 7 then .unmapped else .refused)
  | (s, .inr a) => submit s (.read a)

/-- The 64 bytes of working memory around an address. -/
def workLine (s : State) (at' : Nat) : BitVec 512 := BitVec.ofNat 512 (numAt s.scribes.work (at' / 64 * 64) 64)
def putWork (s : State) (at' : Nat) (l : List (BitVec 8)) : State :=
  { s with scribes := { s.scribes with work := putBytes s.scribes.work at' l } }

/-- A number of `size` bytes extended to a register. -/
def extend (v size : Nat) (sign : Bool) : BitVec 64 :=
  if sign then BitVec.ofInt 64 (signed (8 * size) v) else BitVec.ofNat 64 v

/-- The destination register of a load; w0 takes nothing. -/
def destination (d : Nat) : Option Nat := if d = 0 then none else some d

/-! ### Loads (R333) -/

/-- A load of `size` bytes. -/
def load (s : State) (r : CoreRun) (len : Nat) (d a : Fin 32) (offset : BitVec 64) (size : Nat) (sign : Bool) : State :=
  issue s r { len := len, reads := [a.val], access := true } fun s c =>
    let k := r.core.val
    let ea := c.w a + offset
    checked s k (addressCauses s k ea.toNat size size) 2 ea (
      if ea.toNat / 2 ^ 62 = 0 then
        (if r.data = .uncorrectable then eccFault s k 2 ea
         else advance (eccCorrected s k r.data) k len fun z => z.setW d (extend (numAt c.mem ea.toNat size) size sign))
      else if !mayLaunch k c ea.toNat then s
      else
        let kind : Await := .load (destination d) size sign
        if ea.toNat / 2 ^ 62 = 1 then
          let (s, slot) := launch (chargeNow s 4094 64) k len ea kind
          answerNow s k slot (.data (workLine s (workBase s k + ea.toNat % 2 ^ 62)))
        else deviceRead s k len ea kind)

/-- LD (R333). -/
def execLd (run : CoreRun) (d a : Fin 32) (imm : BitVec 5) (s : State) : Host.Outcome State Fault Refusal :=
  .next (load s run 1 d a (sext imm * 8) 8 false)
/-- LDX (R333): SIGN with 8 bytes is reserved. -/
def execLdx (run : CoreRun) (d a : Fin 32) (size : Fin 4) (sign : Bool) (offset : BitVec 17) (s : State) :
    Host.Outcome State Fault Refusal :=
  .next (load s { run with reserved := run.reserved || (sign && size == 3) } 2 d a (sext offset) (2 ^ size.val) sign)

/-! ### Stores (R333) -/

/-- A device write of a core leaves it: a leaf of KIND 0b00 is a precise fault, a violation comes back (R321). -/
def deviceWrite (s : State) (k len : Nat) (ea : BitVec 64) (data : BitVec 512) (mask : BitVec 64) (access : Nat) (merge : ReadRun) :
    State :=
  if (leafEntry s (leafOf ea.toNat)).isNone then fault s k 0x07 3 ea else
  let (s, slot) := launch s k len ea .store
  match coreClassify s k slot ea.toNat true access with
  | (s, .inl _) => answerNow s k slot .refused
  | (s, .inr a) =>
    submit s (.write { origin := a.origin, dpa := a.dpa, key := a.key, account := a.account, data := data, mask := mask, run := merge })

/-- A store of the low `size` bytes of a register. -/
def store (s : State) (r : CoreRun) (len : Nat) (d a : Fin 32) (offset : BitVec 64) (size : Nat) (merge : ReadRun) : State :=
  issue s r { len := len, reads := [a.val, d.val], access := true } fun s c =>
    let k := r.core.val
    let ea := c.w a + offset
    let bytes := leBytes size (c.w d).toNat
    checked s k (addressCauses s k ea.toNat size size) 3 ea (
      if ea.toNat / 2 ^ 62 = 0 then advance s k len fun z => { z with mem := putBytes z.mem ea.toNat bytes }
      else if !mayLaunch k c ea.toNat then s
      else if ea.toNat / 2 ^ 62 = 1 then
        let (s, slot) := launch (chargeNow s 4094 64) k len ea .store
        answerNow (putWork s (workBase s k + ea.toNat % 2 ^ 62) bytes) k slot .done
      else
        let o := ea.toNat % 64
        deviceWrite s k len ea (BitVec.ofNat 512 (leNat bytes * 2 ^ (8 * o))) (BitVec.ofNat 64 ((2 ^ size - 1) * 2 ^ o)) 3 merge)

/-- ST (R333). -/
def execSt (run : CoreRun) (d a : Fin 32) (imm : BitVec 5) (merge : ReadRun) (s : State) : Host.Outcome State Fault Refusal :=
  .next (store s run 1 d a (sext imm * 8) 8 merge)
/-- STX (R333): SIGN is reserved. -/
def execStx (run : CoreRun) (d a : Fin 32) (size : Fin 4) (sign : Bool) (offset : BitVec 17) (merge : ReadRun) (s : State) :
    Host.Outcome State Fault Refusal :=
  .next (store s { run with reserved := run.reserved || sign } 2 d a (sext offset) (2 ^ size.val) merge)

/-! ### Atomics (R334 to R336) -/

/-- An atomic operation of code `op` (Table 10-18); one starts with nothing else outstanding (R321, R335). -/
def atomic (s : State) (r : CoreRun) (op : Nat) (d a b c' : Fin 32) (size order : Fin 4) (merge : ReadRun) : State :=
  issue s { r with reserved := r.reserved || decide (size.val < 2) }
      { len := 2, reads := [a.val, b.val, c'.val], access := true, drains := true } fun s c =>
    let k := r.core.val
    let ea := c.w a
    let n := 2 ^ size.val
    let x : AtomOp := { op := op, size := n, offset := ea.toNat % 64, operand := c.w b, compare := c.w c' }
    let kind : Await := .atomic (destination d) n (decide (order.val % 2 = 1))
    checked s k (addressCauses s k ea.toNat n n) 4 ea (
      if ea.toNat / 2 ^ 62 = 0 then
        (if r.data = .uncorrectable then eccFault s k 4 ea else
          let old := numAt c.mem ea.toNat n
          advance (eccCorrected s k r.data) k 2 fun z =>
            CoreState.setW { z with mem := putBytes z.mem ea.toNat (leBytes n (atomResult x old)) } d (BitVec.ofNat 64 old))
      else if ea.toNat / 2 ^ 62 = 1 then
        let place := workBase s k + ea.toNat % 2 ^ 62
        let line := workLine s place
        let (s, slot) := launch (chargeNow s 4094 64) k 2 ea kind
        answerNow (putWork s place (leBytes n (atomResult x (numAt s.scribes.work place n)))) k slot (.data line)
      else
        let (s, slot) := launch s k 2 ea kind
        match coreClassify s k slot ea.toNat true 4 with
        | (s, .inl cause) => answerNow s k slot (if cause = 7 then .unmapped else .refused)
        | (s, .inr m) =>
          submit s (.write { origin := m.origin, dpa := m.dpa, key := m.key, account := m.account, data := 0, mask := 0
                             atom := some x, run := merge }))

/-- ATOM SWAP (R334). -/
def execAtomSwap (run : CoreRun) (d a b : Fin 32) (size order : Fin 4) (merge : ReadRun) (s : State) : Host.Outcome State Fault Refusal :=
  .next (atomic s run 0 d a b 0 size order merge)
/-- ATOM ADD (R334). -/
def execAtomAdd (run : CoreRun) (d a b : Fin 32) (size order : Fin 4) (merge : ReadRun) (s : State) : Host.Outcome State Fault Refusal :=
  .next (atomic s run 1 d a b 0 size order merge)
/-- ATOM AND (R334). -/
def execAtomAnd (run : CoreRun) (d a b : Fin 32) (size order : Fin 4) (merge : ReadRun) (s : State) : Host.Outcome State Fault Refusal :=
  .next (atomic s run 2 d a b 0 size order merge)
/-- ATOM OR (R334). -/
def execAtomOr (run : CoreRun) (d a b : Fin 32) (size order : Fin 4) (merge : ReadRun) (s : State) : Host.Outcome State Fault Refusal :=
  .next (atomic s run 3 d a b 0 size order merge)
/-- ATOM XOR (R334). -/
def execAtomXor (run : CoreRun) (d a b : Fin 32) (size order : Fin 4) (merge : ReadRun) (s : State) : Host.Outcome State Fault Refusal :=
  .next (atomic s run 4 d a b 0 size order merge)
/-- ATOM MIN (R334). -/
def execAtomMin (run : CoreRun) (d a b : Fin 32) (size order : Fin 4) (merge : ReadRun) (s : State) : Host.Outcome State Fault Refusal :=
  .next (atomic s run 5 d a b 0 size order merge)
/-- ATOM MAX (R334). -/
def execAtomMax (run : CoreRun) (d a b : Fin 32) (size order : Fin 4) (merge : ReadRun) (s : State) : Host.Outcome State Fault Refusal :=
  .next (atomic s run 6 d a b 0 size order merge)
/-- ATOM MINU (R334). -/
def execAtomMinu (run : CoreRun) (d a b : Fin 32) (size order : Fin 4) (merge : ReadRun) (s : State) : Host.Outcome State Fault Refusal :=
  .next (atomic s run 7 d a b 0 size order merge)
/-- ATOM MAXU (R334). -/
def execAtomMaxu (run : CoreRun) (d a b : Fin 32) (size order : Fin 4) (merge : ReadRun) (s : State) : Host.Outcome State Fault Refusal :=
  .next (atomic s run 8 d a b 0 size order merge)
/-- ATOM CAS (R334, R336): without a match nothing is written. -/
def execAtomCas (run : CoreRun) (d a b c : Fin 32) (size order : Fin 4) (merge : ReadRun) (s : State) :
    Host.Outcome State Fault Refusal :=
  .next (atomic s run 9 d a b c size order merge)

/-! ### What comes back (R315, R318, R321, R337, R390) -/

/-- With nothing outstanding a FENCE completes, and so does the end of an item or of one stopped at its limit. -/
def settle (s : State) (k : Nat) : State :=
  let c := core s k
  if !c.outstanding.isEmpty then s else
  match c.wait with
  | some .fence => advance (modCore s k fun c => { c with wait := none }) k 1
  | some .itemEnd => endCore s k csSuccess 0 (c.w 1).toNat
  | some .stopped => endCore s k csTimeout 0 (c.w 1).toNat
  | _ => s

/-- Deliver a line to an outstanding read's destination. -/
def deliver (s : State) (k : Nat) (a : CoreAccess) (line : BitVec 512) : State :=
  let n (size : Nat) : Nat := bitsOf line.toNat (8 * (a.addr.toNat % 64)) (8 * size)
  modCore s k fun c => match a.kind with
    | .load (some w) size sign => c.setW w (extend (n size) size sign)
    | .atomic (some w) size _ => c.setW w (BitVec.ofNat 64 (n size))
    | .vector (some v) => c.setV v line
    | _ => c

/-- The oldest outstanding access that has a good answer: a read's with its line, or a store's. -/
def answered (s : State) (k : Nat) (stores : Bool) : Option (CoreAccess × BitVec 512) :=
  (core s k).outstanding.findSome? fun a => match answerTo s k a, a.kind, stores with
    | some (.data _), .store, _ => none
    | some (.data v), _, false => some (a, v)
    | some .done, .store, true => some (a, 0)
    | _, _, _ => none

/-- DEVICE_LOAD_RETURN (R315): the oldest answered load or atomic of a core delivers its value. -/
def execDeviceLoadReturn (core : Fin 264) (s : State) : Host.Outcome State Fault Refusal :=
  .next (match answered s core false with
    | some (a, v) => settle (dropAccess (deliver s core a v) core a.slot) core
    | none => s)

/-- DEVICE_STORE_PERFORMED (R314): the oldest store of a core that has entered its channel's write buffer is performed. -/
def execDeviceStorePerformed (core : Fin 264) (s : State) : Host.Outcome State Fault Refusal :=
  .next (match answered s core true with
    | some (a, _) => settle (dropAccess s core a.slot) core
    | none => s)

/-- ACCESS of an outstanding access (Table 10-8). -/
def Await.access (a : Await) : Nat := match a with | .load _ _ _ | .vector _ => 2 | .store => 3 | .atomic _ _ _ => 4

/-- IMPRECISE_FAULT (R321): the core takes the fault of its oldest failed access at an instruction boundary; one that fails
in an item's last FENCE ends the item, and a failed store of a stopped item is dropped (R390). -/
def execImpreciseFault (core : Fin 264) (s : State) : Host.Outcome State Fault Refusal :=
  .next (
    let k := core.val
    let c := Sys2Proof.Machine.core s k
    let ending := c.wait == some .itemEnd || (decide (8 ≤ k) && c.pc == completionAddress)
    let stopped := c.wait == some .stopped
    if !c.running || (c.wait.isSome && c.wait != some .fence && c.wait != some .itemEnd && !stopped) then s else
    match failedAccess s k with
    | none => s
    | some (a, cause) =>
      if stopped then settle (dropAccess s k a.slot) k else
      if ending then endCore s k csFault cause a.addr.toNat else
      raiseTrap (modCore (dropAccess s k a.slot) k fun c => { c with wait := none }) k
        { cause := cause, access := a.kind.access, faddr := a.addr, imprecise := true, epc := a.pc })

end Sys2Proof.Machine
end

