-- ==== Sys2Proof/Machine/Float.lean ====
section
/-! DEFINITION. The arithmetic of the vector lanes (R370, Table 12-3): IEEE 754 numbers that round to nearest even, flush
subnormals to zero and know one NaN; integers that wrap. -/

namespace Sys2Proof.Machine

/-- A binary interchange format: bits of a lane, of its exponent and of its fraction. -/
structure Fmt where
  width : Nat
  expo : Nat
  frac : Nat

def fp32 : Fmt := { width := 32, expo := 8, frac := 23 }
def bf16 : Fmt := { width := 16, expo := 8, frac := 7 }
def fp16 : Fmt := { width := 16, expo := 5, frac := 10 }

def Fmt.bias (f : Fmt) : Int := 2 ^ (f.expo - 1) - 1
/-- Exponent of the smallest normal number. -/
def Fmt.low (f : Fmt) : Int := 1 - f.bias

/-- A value of a lane; a finite one that is not zero is ±m × 2^e with m > 0. -/
inductive Fp where
  | nan
  | inf (neg : Bool)
  | zero (neg : Bool)
  | fin (neg : Bool) (m : Nat) (e : Int)
  deriving DecidableEq, Repr

/-- The value that the bits of a lane spell; subnormal inputs count as zero of their sign (R370). -/
def Fmt.decode (f : Fmt) (v : Nat) : Fp :=
  let neg := bit v (f.width - 1)
  let e := bitsOf v f.frac f.expo
  let m := bitsOf v 0 f.frac
  if e = 2 ^ f.expo - 1 then (if m = 0 then .inf neg else .nan)
  else if e = 0 then .zero neg
  else .fin neg (2 ^ f.frac + m) (e - f.bias - f.frac)

/-- The canonical quiet NaN. -/
def Fmt.nan (f : Fmt) : Nat := (2 ^ f.expo - 1) * 2 ^ f.frac + 2 ^ (f.frac - 1)
/-- An infinity, a zero and a normal number. -/
def Fmt.infinity (f : Fmt) (neg : Bool) : Nat := b2n neg * 2 ^ (f.width - 1) + (2 ^ f.expo - 1) * 2 ^ f.frac
def Fmt.zeroBits (f : Fmt) (neg : Bool) : Nat := b2n neg * 2 ^ (f.width - 1)
def Fmt.normal (f : Fmt) (neg : Bool) (e : Int) (m : Nat) : Nat :=
  b2n neg * 2 ^ (f.width - 1) + (e + f.bias).toNat * 2 ^ f.frac + (m - 2 ^ f.frac)

/-- A magnitude rounded to nearest even at the precision of a format: the significand and the exponent of its leading
bit. -/
def Fmt.nearest (f : Fmt) (m : Nat) (e : Int) : Nat × Int :=
  let len := Nat.log2 m + 1
  let p := f.frac + 1
  let lead := e + len - 1
  if len ≤ p then (m * 2 ^ (p - len), lead) else
  let d := len - p
  let q := m / 2 ^ d
  let r := m % 2 ^ d
  let q := if 2 ^ (d - 1) < r ∨ (r = 2 ^ (d - 1) ∧ q % 2 = 1) then q + 1 else q
  if q = 2 ^ p then (2 ^ f.frac, lead + 1) else (q, lead)

/-- The bits of a result (R370): rounded to nearest even, a subnormal result flushed to a zero of its sign (assumption
33). Whether a magnitude below the smallest normal number that rounds up to it counts as subnormal the spec does not
say: `up` decides. -/
def Fmt.encode (f : Fmt) (v : Fp) (up : Bool) : Nat :=
  match v with
  | .nan => f.nan
  | .inf neg => f.infinity neg
  | .zero neg => f.zeroBits neg
  | .fin neg m e =>
    let lead := e + Nat.log2 m
    let (q, x) := f.nearest m e
    if f.bias < x then f.infinity neg
    else if x < f.low then f.zeroBits neg
    else if lead < f.low ∧ !up then f.zeroBits neg
    else f.normal neg x q

/-- A signed dyadic number as a value; an exact zero is positive. -/
def ofDyadic (z : Int) (e : Int) : Fp := if z = 0 then .zero false else .fin (decide (z < 0)) z.natAbs e

/-- The signed integer of ±m at exponent `e` when written at the lower exponent `base`. -/
def scaled (neg : Bool) (m : Nat) (e base : Int) : Int := (if neg then -1 else 1) * (m * 2 ^ (e - base).toNat : Nat)

/-- Exact sum. -/
def Fp.add (a b : Fp) : Fp :=
  match a, b with
  | .nan, _ | _, .nan => .nan
  | .inf x, .inf y => if x = y then .inf x else .nan
  | .inf x, _ => .inf x
  | _, .inf y => .inf y
  | .zero x, .zero y => .zero (x && y)
  | .zero _, b => b
  | a, .zero _ => a
  | .fin x m e, .fin y n g =>
    let base := if e ≤ g then e else g
    ofDyadic (scaled x m e base + scaled y n g base) base

/-- Exact product. -/
def Fp.mul (a b : Fp) : Fp :=
  match a, b with
  | .nan, _ | _, .nan => .nan
  | .inf x, .inf y => .inf (x != y)
  | .inf _, .zero _ | .zero _, .inf _ => .nan
  | .inf x, .fin y _ _ | .fin x _ _, .inf y => .inf (x != y)
  | .zero x, .zero y => .zero (x != y)
  | .zero x, .fin y _ _ | .fin x _ _, .zero y => .zero (x != y)
  | .fin x m e, .fin y n g => .fin (x != y) (m * n) (e + g)

/-- The value with its sign reversed. -/
def Fp.neg (a : Fp) : Fp :=
  match a with
  | .nan => .nan
  | .inf x => .inf !x
  | .zero x => .zero !x
  | .fin x m e => .fin (!x) m e

/-- a < b on values that are not NaN, zeros equal. -/
def Fp.lt (a b : Fp) : Bool :=
  match Fp.add a (Fp.neg b) with
  | .fin neg _ _ => neg
  | .inf neg => neg
  | _ => false

/-- MIN or MAX of two lanes' bits. Which of a number and a NaN, and which of two zeros, results the spec does not say:
`pick` decides (assumption 34). -/
def Fmt.pickMin (f : Fmt) (max' : Bool) (x y : Nat) (pick : Bool) : Nat :=
  let a := f.decode x
  let b := f.decode y
  let out (v : Fp) : Nat := f.encode v true
  match a, b with
  | .nan, .nan => f.nan
  | .nan, v | v, .nan => if pick then f.nan else out v
  | .zero _, .zero _ => if pick then out a else out b
  | _, _ =>
    if a = b then out a
    else if Fp.lt a b != max' then out a else out b

/-- A value to the nearest integer, ties to even. -/
def nearestInt (neg : Bool) (m : Nat) (e : Int) : Int :=
  let s : Int := if neg then -1 else 1
  if 0 ≤ e then s * (m * 2 ^ e.toNat : Nat) else
  let d := (-e).toNat
  let q := m / 2 ^ d
  let r := m % 2 ^ d
  s * ((if 2 ^ (d - 1) < r ∨ (r = 2 ^ (d - 1) ∧ q % 2 = 1) then q + 1 else q : Nat) : Int)

/-- Two's-complement bits of an integer held at the ends of a width. -/
def saturate (w : Nat) (z : Int) : Nat := satSigned w z

/-! ### Dot products (Table 12-4) -/

/-- A format holds a value exactly: it is a zero, or a normal number with no more bits than the significand has. -/
def Fmt.holds (f : Fmt) (v : Fp) : Bool :=
  match v with
  | .zero _ => true
  | .fin _ m e =>
    let lead := e + Nat.log2 m
    decide (f.low ≤ lead) && decide (lead ≤ f.bias) && m % 2 ^ (Nat.log2 m - f.frac) == 0
  | _ => false

/-- Sums of every subset of a list of values. -/
def subsetSums : List Fp → List Fp
  | [] => [.zero true]
  | a :: r => let l := subsetSums r; l ++ l.map (Fp.add a)

/-- An fp32 dot product lane: the accumulator and the products. The spec gives neither the order of the sum nor its
intermediate rounding, so a result that depends on them is the free value `free` (assumption 35); one that every order
gives alike is that. -/
def dotLane (acc : Fp) (products : List Fp) (free : Nat) : Nat :=
  let terms := acc :: products
  let nan := terms.contains .nan || (terms.contains (.inf true) && terms.contains (.inf false))
  let finite := terms.filter fun t => match t with | .inf _ => false | _ => true
  let exact := (subsetSums finite).all fp32.holds
  if nan then fp32.nan
  else if !exact then free % 2 ^ 32
  else if terms.contains (.inf true) then fp32.infinity true
  else if terms.contains (.inf false) then fp32.infinity false
  else fp32.encode (terms.foldl Fp.add (.zero true)) true

end Sys2Proof.Machine
end

