-- ==== Sys2Proof/Machine/Vector.lean ====
section
/-! DEFINITION. The vector and line instructions of the nib cores (R370 to R375). -/

namespace Sys2Proof.Machine

/-! ### Lanes (Table 12-3) -/

/-- Types of a vector operation. -/
inductive VType where
  | fp (f : Fmt)
  | int (width : Nat)

/-- The type a TYPE field codes; none for a reserved one. -/
def vtype (t : Fin 8) : Option VType :=
  match t with
  | 0 => some (.fp fp32)
  | 1 => some (.fp bf16)
  | 2 => some (.fp fp16)
  | 3 => some (.int 32)
  | 4 => some (.int 8)
  | _ => none

def VType.width (t : VType) : Nat := match t with | .fp f => f.width | .int w => w
def VType.lanes (t : VType) : Nat := 512 / t.width

/-- The bits of lane `i`. -/
def lane (v : BitVec 512) (w i : Nat) : Nat := bitsOf v.toNat (w * i) w

/-- A vector from its lanes. -/
def ofLanes (w n : Nat) (f : Nat → Nat) : BitVec 512 :=
  BitVec.ofNat 512 ((List.range n).foldl (fun x i => x + f i % 2 ^ w * 2 ^ (w * i)) 0)

/-- A free bit for lane `i` of the instruction (assumption 1). -/
def freeLane (s : State) (i : Nat) : BitVec 64 := Config.freeValue (s.free + i)

/-- The free values of all lanes are spent. -/
def drewLanes (s : State) : State := { s with free := s.free + 64 }

/-- Issue a vector instruction that writes one vector register lane by lane. -/
def vector (s : State) (r : CoreRun) (len : Nat) (d : Fin 16) (readsV : List Nat) (ok : Bool) (g : State → CoreState → BitVec 512) : State :=
  issue s r { len := len, vector := true, readsV := readsV } fun s c =>
    if !ok then fault s r.core 0x01 else advance (drewLanes s) r.core len fun z => z.setV d (g s c)

/-! ### Functions of a lane (Tables 12-4 and 12-6) -/

/-- ADD, SUB, MUL, FMA, MIN, MAX on the bits of a lane: `acc` is vd's lane, `free` the lane's free value. -/
def laneOp (t : VType) (op : Nat) (acc x y : Nat) (free : Bool) : Nat :=
  match t with
  | .fp f =>
    let a := f.decode x
    let b := f.decode y
    (match op with
      | 0 => f.encode (Fp.add a b) free
      | 1 => f.encode (Fp.add a (Fp.neg b)) free
      | 2 => f.encode (Fp.mul a b) free
      | 3 => f.encode (Fp.add (f.decode acc) (Fp.mul a b)) free
      | 4 => f.pickMin false x y free
      | _ => f.pickMin true x y free)
  | .int w =>
    (match op with
      | 0 => x + y
      | 1 => x + 2 ^ w - y
      | 2 => x * y
      | 3 => acc + x * y
      | 4 => if signed w x ≤ signed w y then x else y
      | _ => if signed w x ≤ signed w y then y else x)

/-- A lanewise operation of two vector registers and vd. -/
def lanewise (s : State) (c : CoreState) (t : VType) (op : Nat) (d a b : Fin 16) : BitVec 512 :=
  ofLanes t.width t.lanes fun i =>
    laneOp t op (lane (c.v d) t.width i) (lane (c.v a) t.width i) (lane (c.v b) t.width i) ((freeLane s i).getLsbD 0)

/-- The 1,024 bits of a register pair. -/
def pairBits (c : CoreState) (a : Fin 16) : Nat := (c.v a).toNat + (c.v (a + 1)).toNat * 2 ^ 512

/-- A dot product into 16 lanes of 32 bits (Table 12-4). -/
def dot (s : State) (c : CoreState) (t : VType) (d a b : Fin 16) : BitVec 512 :=
  let w := t.width
  let n := 64 / w
  ofLanes 32 16 fun i =>
    let acc := lane (c.v d) 32 i
    let xs := (List.range n).map fun j => (bitsOf (pairBits c a) (w * (n * i + j)) w, bitsOf (pairBits c b) (w * (n * i + j)) w)
    match t with
    | .fp f => dotLane (fp32.decode acc) (xs.map fun (x, y) => Fp.mul (f.decode x) (f.decode y)) (freeLane s i).toNat
    | .int w => (xs.foldl (fun (z : Int) (x, y) => z + signed w x * signed w y) acc % 2 ^ 32).toNat

/-- An even register, as a pair requires (R370). -/
def even (a : Fin 16) : Bool := a.val % 2 == 0

/-- A dot product's registers. -/
def dotReads (d a b : Fin 16) : List Nat := [d.val, a.val, a.val + 1, b.val, b.val + 1]

/-! ### Short forms (R371) -/

/-- VFMA.f32 (R371). -/
def execVfmaF32 (run : CoreRun) (d a b : Fin 16) (s : State) : Host.Outcome State Fault Refusal :=
  .next (vector s run 1 d [d.val, a.val, b.val] true fun s c => lanewise s c (.fp fp32) 3 d a b)
/-- VDOT.bf16 (R371). -/
def execVdotBf16 (run : CoreRun) (d a b : Fin 16) (s : State) : Host.Outcome State Fault Refusal :=
  .next (vector s run 1 d (dotReads d a b) (even a && even b) fun s c => dot s c (.fp bf16) d a b)
/-- VDOT.fp16 (R371). -/
def execVdotFp16 (run : CoreRun) (d a b : Fin 16) (s : State) : Host.Outcome State Fault Refusal :=
  .next (vector s run 1 d (dotReads d a b) (even a && even b) fun s c => dot s c (.fp fp16) d a b)
/-- VDOT.i8 (R371). -/
def execVdotI8 (run : CoreRun) (d a b : Fin 16) (s : State) : Host.Outcome State Fault Refusal :=
  .next (vector s run 1 d (dotReads d a b) (even a && even b) fun s c => dot s c (.int 8) d a b)
/-- VADD.f32 (R371). -/
def execVaddF32 (run : CoreRun) (d a b : Fin 16) (s : State) : Host.Outcome State Fault Refusal :=
  .next (vector s run 1 d [a.val, b.val] true fun s c => lanewise s c (.fp fp32) 0 d a b)
/-- VMUL.f32 (R371). -/
def execVmulF32 (run : CoreRun) (d a b : Fin 16) (s : State) : Host.Outcome State Fault Refusal :=
  .next (vector s run 1 d [a.val, b.val] true fun s c => lanewise s c (.fp fp32) 2 d a b)
/-- VADD.i32 (R371). -/
def execVaddI32 (run : CoreRun) (d a b : Fin 16) (s : State) : Host.Outcome State Fault Refusal :=
  .next (vector s run 1 d [a.val, b.val] true fun s c => lanewise s c (.int 32) 0 d a b)
/-- VXOR (R371). -/
def execVxor (run : CoreRun) (d a b : Fin 16) (s : State) : Host.Outcome State Fault Refusal :=
  .next (vector s run 1 d [a.val, b.val] true fun _ c => c.v a ^^^ c.v b)

/-! ### VOP (R372) -/

/-- A guarded vector operation: a false guard leaves vd unchanged and nothing is checked (R327, R372). -/
def vop (s : State) (r : CoreRun) (type : Fin 8) (d : Fin 16) (guard : Fin 8) (neg : Bool) (readsV : List Nat) (ok : VType → Bool)
    (g : State → CoreState → VType → BitVec 512) : State :=
  if !(core s r.core).guard guard neg then issue s r { len := 2, vector := true } fun s _ => advance s r.core 2
  else match vtype type with
    | none => vector s r 2 d [] false fun _ _ => 0
    | some t => vector s r 2 d readsV (ok t) fun s c => g s c t

/-- A VOP of Table 12-6's arithmetic. -/
def vopLanes (s : State) (r : CoreRun) (op : Nat) (type : Fin 8) (d a b : Fin 16) (guard : Fin 8) (neg : Bool) : State :=
  vop s r type d guard neg ([a.val, b.val] ++ if op = 3 then [d.val] else []) (fun _ => true) fun s c t => lanewise s c t op d a b

/-- A bitwise VOP, int32 only. -/
def vopBits (s : State) (r : CoreRun) (type : Fin 8) (d a b : Fin 16) (guard : Fin 8) (neg : Bool) (f : BitVec 512 → BitVec 512 → BitVec 512) :
    State :=
  vop s r type d guard neg [a.val, b.val] (fun t => match t with | .int w => w == 32 | _ => false) fun _ c _ => f (c.v a) (c.v b)

/-- VOP ADD (R372). -/
def execVopAdd (run : CoreRun) (type : Fin 8) (d a b : Fin 16) (guard : Fin 8) (neg : Bool) (s : State) :
    Host.Outcome State Fault Refusal := .next (vopLanes s run 0 type d a b guard neg)
/-- VOP SUB (R372). -/
def execVopSub (run : CoreRun) (type : Fin 8) (d a b : Fin 16) (guard : Fin 8) (neg : Bool) (s : State) :
    Host.Outcome State Fault Refusal := .next (vopLanes s run 1 type d a b guard neg)
/-- VOP MUL (R372). -/
def execVopMul (run : CoreRun) (type : Fin 8) (d a b : Fin 16) (guard : Fin 8) (neg : Bool) (s : State) :
    Host.Outcome State Fault Refusal := .next (vopLanes s run 2 type d a b guard neg)
/-- VOP FMA (R372). -/
def execVopFma (run : CoreRun) (type : Fin 8) (d a b : Fin 16) (guard : Fin 8) (neg : Bool) (s : State) :
    Host.Outcome State Fault Refusal := .next (vopLanes s run 3 type d a b guard neg)
/-- VOP MIN (R372). -/
def execVopMin (run : CoreRun) (type : Fin 8) (d a b : Fin 16) (guard : Fin 8) (neg : Bool) (s : State) :
    Host.Outcome State Fault Refusal := .next (vopLanes s run 4 type d a b guard neg)
/-- VOP MAX (R372). -/
def execVopMax (run : CoreRun) (type : Fin 8) (d a b : Fin 16) (guard : Fin 8) (neg : Bool) (s : State) :
    Host.Outcome State Fault Refusal := .next (vopLanes s run 5 type d a b guard neg)
/-- VOP AND (R372). -/
def execVopAnd (run : CoreRun) (type : Fin 8) (d a b : Fin 16) (guard : Fin 8) (neg : Bool) (s : State) :
    Host.Outcome State Fault Refusal := .next (vopBits s run type d a b guard neg (· &&& ·))
/-- VOP OR (R372). -/
def execVopOr (run : CoreRun) (type : Fin 8) (d a b : Fin 16) (guard : Fin 8) (neg : Bool) (s : State) :
    Host.Outcome State Fault Refusal := .next (vopBits s run type d a b guard neg (· ||| ·))
/-- VOP XOR (R372). -/
def execVopXor (run : CoreRun) (type : Fin 8) (d a b : Fin 16) (guard : Fin 8) (neg : Bool) (s : State) :
    Host.Outcome State Fault Refusal := .next (vopBits s run type d a b guard neg (· ^^^ ·))

/-- A lane converted from one type to another (Table 12-6): integers saturate, numbers round; a NaN has no integer, so it
gives the free value `free` (assumption 34). -/
def convertLane (t u : VType) (x : Nat) (free : BitVec 64) : Nat :=
  match t, u with
  | .fp f, .fp g => g.encode (f.decode x) (free.getLsbD 0)
  | .fp f, .int w =>
    (match f.decode x with
      | .nan => free.toNat
      | .inf neg => if neg then 2 ^ (w - 1) else 2 ^ (w - 1) - 1
      | .zero _ => 0
      | .fin neg m e => saturate w (nearestInt neg m e))
  | .int w, .fp g => g.encode (ofDyadic (signed w x) 0) (free.getLsbD 0)
  | .int w, .int v => saturate v (signed w x)

/-- VOP CVT (R372): VB bits 2:0 code the destination's type, bit 3 is reserved; lanes without a source lane are zero. -/
def execVopCvt (run : CoreRun) (type : Fin 8) (d a : Fin 16) (b : Fin 16) (guard : Fin 8) (neg : Bool) (s : State) :
    Host.Outcome State Fault Refusal :=
  .next (
    let u := if b.val < 8 then vtype (Fin.ofNat 8 b.val) else none
    vop s run type d guard neg [a.val] (fun _ => u.isSome) fun s c t =>
      match u with
      | none => 0
      | some u => ofLanes u.width u.lanes fun i =>
          if i < t.lanes then convertLane t u (lane (c.v a) t.width i) (freeLane s i) else 0)

/-- VOP DOT (R372): bf16, fp16 and int8. -/
def execVopDot (run : CoreRun) (type : Fin 8) (d a b : Fin 16) (guard : Fin 8) (neg : Bool) (s : State) :
    Host.Outcome State Fault Refusal :=
  .next (vop s run type d guard neg (dotReads d a b) (fun t => decide (t.width < 32) && even a && even b) fun s c t => dot s c t d a b)

/-! ### Vector and scalar (R373) -/

/-- VSPLAT (R373). -/
def execVsplat (run : CoreRun) (type : Fin 8) (d : Fin 16) (a : Fin 32) (s : State) : Host.Outcome State Fault Refusal :=
  .next (issue s run { len := 2, vector := true, reads := [a.val] } fun s c =>
    match vtype type with
    | none => fault s run.core 0x01
    | some t => advance s run.core 2 fun z => z.setV d (ofLanes t.width t.lanes fun _ => (c.w a).toNat))

/-- VEXT (R373): fp16 and bf16 lanes zero-extended, the others sign-extended. -/
def execVext (run : CoreRun) (type : Fin 8) (d : Fin 32) (a : Fin 16) (lane : Fin 64) (s : State) : Host.Outcome State Fault Refusal :=
  .next (issue s run { len := 2, vector := true, readsV := [a.val] } fun s c =>
    match vtype type with
    | none => fault s run.core 0x01
    | some t =>
      if t.lanes ≤ lane.val then fault s run.core 0x01 else
      let x := Sys2Proof.Machine.lane (c.v a) t.width lane
      advance s run.core 2 fun z => z.setW d (if t.width = 16 then BitVec.ofNat 64 x else BitVec.ofInt 64 (signed t.width x)))

/-- VINS (R373). -/
def execVins (run : CoreRun) (type : Fin 8) (d : Fin 16) (a : Fin 32) (lane : Fin 64) (s : State) : Host.Outcome State Fault Refusal :=
  .next (issue s run { len := 2, vector := true, reads := [a.val], readsV := [d.val] } fun s c =>
    match vtype type with
    | none => fault s run.core 0x01
    | some t =>
      if t.lanes ≤ lane.val then fault s run.core 0x01 else
      let old := c.v d
      advance s run.core 2 fun z => z.setV d (ofLanes t.width t.lanes fun i =>
        if i = lane.val then (c.w a).toNat else Sys2Proof.Machine.lane old t.width i))

/-- VRSUM (R373); for the types the rule does not give, the result is a free value (assumption 34). -/
def execVrsum (run : CoreRun) (type : Fin 8) (d : Fin 32) (a : Fin 16) (s : State) : Host.Outcome State Fault Refusal :=
  .next (issue s run { len := 2, vector := true, readsV := [a.val] } fun s c =>
    let xs (t : VType) : List Nat := (List.range t.lanes).map fun i => Sys2Proof.Machine.lane (c.v a) t.width i
    let sum (t : VType) : BitVec 64 :=
      match t with
      | .int w => BitVec.ofInt 64 (signed w ((xs t).foldl (· + ·) 0))
      | .fp f =>
        if f.width = 16 then freeLane s 63 else
        BitVec.ofNat 64 (match (xs t).zipIdx with
          | [] => 0
          | (x, _) :: rest => rest.foldl (fun acc (y, i) => f.encode (Fp.add (f.decode acc) (f.decode y)) ((freeLane s i).getLsbD 0))
              (f.encode (f.decode x) true))
    match vtype type with
    | none => fault s run.core 0x01
    | some t => advance (drewLanes s) run.core 2 fun z => z.setW d (sum t))

/-! ### Lines (R374, R375) -/

/-- VLDS (R374). -/
def execVlds (run : CoreRun) (v : Fin 16) (a : Fin 32) (imm : BitVec 16) (s : State) : Host.Outcome State Fault Refusal :=
  .next (issue s run { len := 2, vector := true, reads := [a.val], access := true } fun s c =>
    let ea := c.w a + sext imm * 64
    checked s run.core (localCauses ea.toNat 64 64) 2 ea (
      if run.data = .uncorrectable then eccFault s run.core 2 ea
      else advance (eccCorrected s run.core run.data) run.core 2 fun z => z.setV v (BitVec.ofNat 512 (numAt c.mem ea.toNat 64))))

/-- VSTS (R374). -/
def execVsts (run : CoreRun) (v : Fin 16) (a : Fin 32) (imm : BitVec 16) (s : State) : Host.Outcome State Fault Refusal :=
  .next (issue s run { len := 2, vector := true, reads := [a.val], readsV := [v.val], access := true } fun s c =>
    let ea := c.w a + sext imm * 64
    checked s run.core (localCauses ea.toNat 64 64) 3 ea
      (advance s run.core 2 fun z => { z with mem := putBytes z.mem ea.toNat (leBytes 64 (c.v v).toNat) }))

/-- The operand tag check of VLDL and VSTL, and the address of the line (R374). -/
def operandLine (s : State) (k : Nat) (op : Fin 4) (o : Nat) : List Nat × BitVec 64 :=
  let mis := if o % 64 ≠ 0 then [0x03] else []
  match ((core s k).item.bind (itemAt s)).bind fun x => x.operands[op.val]? with
  | some p => ((if 64 * p.lines ≤ o then [0x05] else []) ++ mis, BitVec.ofNat 64 (2 ^ 63 + p.addr + o))
  | none => (0x05 :: mis, 0)

/-- VLDL (R374). -/
def execVldl (run : CoreRun) (v : Fin 16) (a : Fin 32) (op : Fin 4) (imm : BitVec 16) (s : State) : Host.Outcome State Fault Refusal :=
  .next (issue s run { len := 2, vector := true, reads := [a.val], access := true } fun s c =>
    let (causes, ea) := operandLine s run.core op (c.w a + sext imm * 64).toNat
    checked s run.core causes 2 ea (if !mayLaunch run.core c ea.toNat then s else deviceRead s run.core 2 ea (.vector (some v))))

/-- VSTL (R374): a full-line write. -/
def execVstl (run : CoreRun) (v : Fin 16) (a : Fin 32) (op : Fin 4) (imm : BitVec 16) (s : State) : Host.Outcome State Fault Refusal :=
  .next (issue s run { len := 2, vector := true, reads := [a.val], readsV := [v.val], access := true } fun s c =>
    let (causes, ea) := operandLine s run.core op (c.w a + sext imm * 64).toNat
    checked s run.core causes 3 ea (
      if !mayLaunch run.core c ea.toNat then s else deviceWrite s run.core 2 ea (c.v v) (BitVec.allOnes 64) 2 {}))

end Sys2Proof.Machine
end

