-- ==== Sys2Proof/Machine/Device.lean ====
section
/-! DEFINITION. The device instructions but desk access (R339, R340, R343 to R350): ruled time, events and messages, placement,
accounts and coherence requests. -/

namespace Sys2Proof.Machine

/-- A status word (R340). -/
def statusWord (st data : Nat) : BitVec 64 := BitVec.ofNat 64 (st + 256 * data)

/-- Blocks of the desk grants (Table 11-11). -/
def grantDct : Nat := 10
def grantAcc : Nat := 11

/-- The rubric of a core holds the write grant of a block. -/
def writeGranted (s : State) (k b : Nat) : Bool := match rubricAt s k with | some r => r.writeGrant.getLsbD b | none => false
/-- Or its read grant. -/
def readGranted (s : State) (k b : Nat) : Bool := match rubricAt s k with | some r => r.readGrant.getLsbD b | none => false

/-- Change the rubric on a Scribe. -/
def modRubric (s : State) (k : Nat) (f : Rubric → Rubric) : State :=
  match rubricAt s k with | some r => setRubric s (s.get (MBX_SCRIBE_HANDLE k)) (f r) | none => s

/-- A desk access, or a primitive, outside the rubric's grant (R341, R348, R349, Table 18-5): cause 0x08, recorded by the
Scribe's source with the desk address in DETAIL (assumption 71). -/
def grantFault (s : State) (k access : Nat) (addr : Nat := 0) : State :=
  if !(core s k).outstanding.isEmpty then s
  else fault (openEvent s (coreSource k) 3 (some (coreMaster k)) access addr) k 0x08

/-! ### Ruled time (R343) -/

/-- RT_READ: the tick within the line is a free value (assumption 4). -/
def execRtRead (run : CoreRun) (d : Fin 32) (s : State) : Host.Outcome State Fault Refusal :=
  .next (issue s run {} fun s _ => advance s.timed run.core 1 fun z => z.setW d s.stamp)

/-- A core blocks; a Scribe shows it and its heartbeat is satisfied (R353). -/
def block (s : State) (k : Nat) (w : CoreWait) : State :=
  let s := modCore s k fun c => { c with wait := some w }
  if k < 8 then modRubric (s.put (MBX_SCRIBE_BLOCKED k) 1) k fun r => { r with beat := true } else s

/-- The wait ends. -/
def unblock (s : State) (k : Nat) : State :=
  let s := modCore s k fun c => { c with wait := none }
  if k < 8 then modRubric (s.put (MBX_SCRIBE_BLOCKED k) 0) k fun r => { r with beat := true } else s

/-- RT_WAITL (R343): a target already reached continues at once. -/
def execRtWaitl (run : CoreRun) (a : Fin 32) (s : State) : Host.Outcome State Fault Refusal :=
  .next (issue s run { reads := [a.val] } fun s c =>
    let s := advance s run.core 1
    if (c.w a).toNat ≤ s.ruling.line then s else block s run.core (.line (c.w a)))

/-- RT_WAITT (R343), with the tick of the line at which it issues. -/
def execRtWaitt (run : CoreRun) (a : Fin 32) (tick : Fin 1024) (s : State) : Host.Outcome State Fault Refusal :=
  .next (issue s run { reads := [a.val] } fun s c =>
    let s := (advance s run.core 1).passed tick
    if (c.w a).toNat ≤ (ruledTime s s.ruling.tick).toNat then s else block s run.core (.time (c.w a)))

/-- The slot an instruction names is in the rubric's slot mask. -/
def slotGranted (s : State) (k n : Nat) : Bool := match rubricAt s k with | some r => r.slots.getLsbD n | none => false

/-- RT_ARM (R343): WRITE 0, PERIODIC 0, WAKE this Scribe, ENABLE 1. -/
def execRtArm (run : CoreRun) (d a : Fin 32) (s : State) : Host.Outcome State Fault Refusal :=
  .next (issue s run { scribeOnly := true, reads := [a.val, d.val] } fun s c =>
    let n := (c.w d).toNat % 64
    if !slotGranted s run.core n then fault s run.core 0x08 else
    let s := writeEventTime (writeEventCtrl s n 0) n (c.w a)
    advance (writeEventCtrl s n (BitVec.ofNat 64 (2 ^ (8 + run.core.val) + 1))) run.core 1)

/-- RT_DISARM (R343): ENABLE 0. -/
def execRtDisarm (run : CoreRun) (d : Fin 32) (s : State) : Host.Outcome State Fault Refusal :=
  .next (issue s run { scribeOnly := true, reads := [d.val] } fun s c =>
    let n := (c.w d).toNat % 64
    if !slotGranted s run.core n then fault s run.core 0x08 else
    let v := s.get (RUL_EVENT_CTRL_WAKE n) * 256 + s.get (RUL_EVENT_CTRL_WRITE n) * 8 + s.get (RUL_EVENT_CTRL_PERIODIC n) * 4
    advance (writeEventCtrl s n (BitVec.ofNat 64 v)) run.core 1)

/-! ### Events (R344) -/

/-- Take the next event for a mask (R344): after a loss the count lost, as class 0x1F; else the oldest descriptor whose class
the mask holds. -/
def takeEvent (s : State) (k : Nat) (mask : BitVec 64) : Option (State × BitVec 64) :=
  match rubricAt s k with
  | none => none
  | some r =>
    if r.eventsLost ≠ 0 then
      some (modRubric s k fun r => { r with eventsLost := 0 }, descriptor 0x1F (min r.eventsLost (2 ^ 24 - 1)))
    else match r.events.find? fun e => mask.getLsbD (e.toNat % 256) with
      | some e => some (modRubric s k fun r => { r with events := r.events.erase e }, e)
      | none => none

/-- EVT_WAIT (R344). -/
def execEvtWait (run : CoreRun) (d a : Fin 32) (s : State) : Host.Outcome State Fault Refusal :=
  .next (issue s run { scribeOnly := true, reads := [a.val] } fun s c =>
    match takeEvent s run.core (c.w a) with
    | some (s, e) => advance s run.core 1 fun z => z.setW d e
    | none => block (advance s run.core 1) run.core (.event d (c.w a)))

/-- EVT_POLL (R344): 0 when none is pending. -/
def execEvtPoll (run : CoreRun) (d a : Fin 32) (s : State) : Host.Outcome State Fault Refusal :=
  .next (issue s run { scribeOnly := true, reads := [a.val] } fun s c =>
    match takeEvent s run.core (c.w a) with
    | some (s, e) => advance s run.core 1 fun z => z.setW d e
    | none => advance s run.core 1 fun z => z.setW d 0)

/-- WAIT_RESUME (R343, R344): a core whose line, ruled time or event has come goes on; `tick` is the instant's tick. -/
def execWaitResume (core : Fin 264) (tick : Fin 1024) (s : State) : Host.Outcome State Fault Refusal :=
  .next (match (Sys2Proof.Machine.core s core).wait with
    | some (.line t) => if t.toNat ≤ s.ruling.line then unblock s core else s
    | some (.time t) =>
      let s := s.passed tick
      if t.toNat ≤ (ruledTime s s.ruling.tick).toNat then unblock s core else s
    | some (.event d m) =>
      (match takeEvent s core m with
        | some (s, e) => setReg (unblock s core) core d e
        | none => s)
    | _ => s)

/-- EVT_BEAT (R353). -/
def execEvtBeat (run : CoreRun) (s : State) : Host.Outcome State Fault Refusal :=
  .next (issue s run { scribeOnly := true } fun s _ => advance (modRubric s run.core fun r => { r with beat := true }) run.core 1)

/-! ### Messages (R345 to R347) -/

/-- Post a message (R345): the status is 0 OK, 1 FULL, 2 INVALID. -/
def post (s : State) (k : Nat) (dest : Nat) (body : List (BitVec 8)) : State × Nat :=
  let target := dest % 2 ^ 16
  let kind := bitsOf dest 16 2
  let handle := s.get (MBX_SCRIBE_HANDLE k)
  if bitsOf dest 18 6 ≠ 0 ∨ dest / 2 ^ 32 ≠ 0 ∨ (8 ≤ k ∧ kind ≠ 0) then (s, 2) else
  match kind with
  | 0 =>
    if !runningRubric s target then (s, 2) else
    let m : Message := { kind := if k < 8 then 0 else 2, source := if k < 8 then handle else k - 8, body := BitVec.ofNat 512 (leNat body) }
    (match toInbox s target m with | (s, true) => (s, 0) | (s, false) => (s, 1))
  | 1 => (match replyTo s target body with | (s, true) => (s, 0) | (s, false) => (s, 2))
  | 2 => asyncPost s target (bitsOf dest 24 8) handle (body.take 48)
  | _ => (s, 2)

/-- EVT_POST (R345, R347). -/
def execEvtPost (run : CoreRun) (d a : Fin 32) (s : State) : Host.Outcome State Fault Refusal :=
  .next (issue s run { reads := [a.val, d.val], access := true } fun s c =>
    let ea := c.w a
    checked s run.core (localCauses ea.toNat 64 8) 2 ea (
      if run.data = .uncorrectable then eccFault s run.core 2 ea else
      let (s, st) := post (eccCorrected s run.core run.data) run.core (c.w d).toNat (bytesAt c.mem ea.toNat 64)
      advance s run.core 1 fun z => z.setW d (statusWord st 0)))

/-- EVT_RECV (R346, R347): the oldest message and its header; VALID 0 when the inbox is empty. -/
def execEvtRecv (run : CoreRun) (d a : Fin 32) (s : State) : Host.Outcome State Fault Refusal :=
  .next (issue s run { scribeOnly := true, reads := [a.val], access := true } fun s c =>
    let ea := c.w a
    checked s run.core (localCauses ea.toNat 64 8) 3 ea (
      match (rubricAt s run.core).bind fun r => r.inbox.head? with
      | none => advance s run.core 1 fun z => z.setW d 0
      | some m =>
        advance (modRubric s run.core fun r => { r with inbox := r.inbox.drop 1 }) run.core 1 fun z =>
          CoreState.setW { z with mem := putBytes z.mem ea.toNat (leBytes 64 m.body.toNat) } d
            (BitVec.ofNat 64 (2 ^ 63 + m.kind * 2 ^ 16 + m.source))))

/-! ### Placement (R348) -/

/-- A primitive that needs a write grant and writes one register. -/
def primitive (s : State) (r : CoreRun) (len grant : Nat) (reads : List Nat) (d : Fin 32) (g : State → CoreState → State × BitVec 64) :
    State :=
  issue s r { len := len, scribeOnly := true, reads := reads } fun s c =>
    if !writeGranted s r.core grant then grantFault s r.core 8 else
    let (s, v) := g s c
    advance s r.core len fun z => z.setW d v

/-- PL_PIN (R348). -/
def execPlPin (run : CoreRun) (d a : Fin 32) (s : State) : Host.Outcome State Fault Refusal :=
  .next (primitive s run 1 grantDct [a.val] d fun s c =>
    let x := pinLooked s (c.w a).toNat true run.map; (x.1, statusWord x.2 0))
/-- PL_UNPIN (R348). -/
def execPlUnpin (run : CoreRun) (d a : Fin 32) (s : State) : Host.Outcome State Fault Refusal :=
  .next (primitive s run 1 grantDct [a.val] d fun s c =>
    let x := pinLooked s (c.w a).toNat false run.map; (x.1, statusWord x.2 0))
/-- PL_HEAT (R348, Table 11-1). -/
def execPlHeat (run : CoreRun) (d a : Fin 32) (s : State) : Host.Outcome State Fault Refusal :=
  .next (primitive s run 1 grantDct [a.val] d fun s c =>
    let x := readHeat s (c.w a).toNat run.map; (x.1, statusWord x.2.1 x.2.2))

/-- A move destination word (Table 11-4); none when a bit it does not use is set. -/
def moveDestination (w : BitVec 64) : Option MoveTo :=
  let v := w.toNat
  if bitsOf v 28 34 ≠ 0 then none else
  match v / 2 ^ 62 with
  | 0 => if bitsOf v 0 28 = 0 then some .any else none
  | 1 => if bitsOf v 8 20 = 0 then some (.onChannel (v % 256)) else none
  | 2 => some (.slot (locOfWord (v % 2 ^ 28)))
  | _ => if bitsOf v 6 22 = 0 then some (.loan (v % 64)) else none

/-- PL_MOVE (R348): causes 1 to 4, the others are reserved. `accepts`: the node a loan would go to accepts loans (R164). -/
def execPlMove (run : CoreRun) (d a b : Fin 32) (cause : Fin 8) (kind : MoveKind) (s : State) :
    Host.Outcome State Fault Refusal :=
  .next (primitive s { run with reserved := run.reserved || !(decide (1 ≤ cause.val) && decide (cause.val ≤ 4)) } 2 grantDct
    [a.val, b.val] d fun s c =>
      match moveDestination (c.w b) with
      | none => (s, statusWord stInvalid 0)
      | some dest =>
        let x := match kind with
          | .quire => moveQuire s (c.w a).toNat cause dest
          | .leaf accepts => moveLooked s (c.w a).toNat cause dest accepts run.map
        (x.1, statusWord x.2.1 x.2.2))

/-- PL_RESOLVE (R348): the entry and, in wc, the status word with the destination of a move in flight. Where both name one
register a free value says which stays (assumption 36). -/
def execPlResolve (run : CoreRun) (d c' a : Fin 32) (s : State) : Host.Outcome State Fault Refusal :=
  .next (issue s run { len := 2, scribeOnly := true, reads := [a.val] } fun s c =>
    if !writeGranted s run.core grantDct then grantFault s run.core 8 else
    let (s, e, st, m) := resolveLeaf s (c.w a).toNat run.map
    let w := statusWord st m
    let first := s.freeNow.getLsbD 0
    advance s.drew run.core 2 fun z => if first then (z.setW d e).setW c' w else (z.setW c' w).setW d e)

/-! ### Accounts (R349) -/

/-- ACCT_SVC (R185, R349). -/
def execAcctSvc (run : CoreRun) (d a : Fin 32) (s : State) : Host.Outcome State Fault Refusal :=
  .next (issue s run { scribeOnly := true, reads := [a.val] } fun s c =>
    let v := s.word (ACC_SERVICE_SERVED ((c.w a).toNat % 4096)).addr
    advance s run.core 1 fun z => z.setW d v)

/-- The end of acct.admit: its status word, with the rest of ACC_ADMIT_STATUS. -/
def admitDone (s : State) (k : Nat) (d : Fin 32) (st : Nat) : State :=
  let v := statusWord st ((s.word ACC_ADMIT_STATUS_STATUS.addr).toNat % 2 ^ 56)
  advance s k 2 fun z => z.setW d v

/-- ACCT_ADMIT (R183, R349). -/
def execAcctAdmit (run : CoreRun) (d a b : Fin 32) (cool : Bool) (s : State) : Host.Outcome State Fault Refusal :=
  .next (issue s run { len := 2, scribeOnly := true, reads := [a.val, b.val], access := true } fun s c =>
    if !writeGranted s run.core grantAcc then grantFault s run.core 8 else
    let n := (c.w b).toNat
    if n = 0 ∨ 4096 < n then admitDone (admitStatus s 2 0 0 0 0) run.core d 2 else
    let ea := c.w a
    checked s run.core (localCauses ea.toNat (16 * n) 16) 2 ea (
      if run.data = .uncorrectable then eccFault s run.core 2 ea else
      let (s, st) := admitAccount (eccCorrected s run.core run.data) (admitRecords (bytesAt c.mem ea.toNat (16 * n)) n) cool
      admitDone s run.core d st))

/-- ACCT_ADJUST (R185, R349): SEL 0 ceiling, 1 standing, 2 urgency source, 3 guarantee. -/
def execAcctAdjust (run : CoreRun) (d a b : Fin 32) (sel : Fin 4) (s : State) : Host.Outcome State Fault Refusal :=
  .next (primitive s run 2 grantAcc [a.val, b.val] d fun s c =>
    let n := (c.w a).toNat
    let v := (c.w b).toNat
    let (f, rate) : Fld × Bool := match sel with
      | 0 => (ACC_RATE_CEILING n, true)
      | 1 => (ACC_CFG_STANDING n, false)
      | 2 => (ACC_CFG_URG_SOURCE n, false)
      | 3 => (ACC_RATE_GUARANTEE n, true)
    if 4096 ≤ n ∨ 2 ^ f.width ≤ v then (s, statusWord 2 0) else
    let cfg := (nextImages s n).1
    let rat := (nextImages s n).2
    let (s, st) := if rate then adjust s n cfg (putField rat f.lo f.width v) else adjust s n (putField cfg f.lo f.width v) rat
    (s, statusWord st 0))

/-! ### Coherence (R350) -/

/-- The faults of a coherence request's lines (R312, R375), and the state with a violation's record. -/
def cohCheck (s : State) (k ea n : Nat) : State × List Nat :=
  if ea / 2 ^ 62 ≠ 2 ∨ bitsOf ea 52 10 ≠ 0 ∨ !inOperands s k (ea / 64 * 64) (64 * n) then (s, [0x06]) else
  let first := ea / 64 * 64
  let leaves := (List.range ((first % 4096 + 64 * n + 4095) / 4096)).map fun i => if i = 0 then first else first / 4096 * 4096 + 4096 * i
  match leaves.find? fun a => (leafEntry s (leafOf (a % 2 ^ 52))).isNone with
  | some _ => (s, [0x07])
  | none =>
    if n = 0 then (s, []) else
    match coreClassify s k 0 first false 6 with
    | (s, .inl c) => (s, [c])
    | (s, .inr _) => (s, [])

/-- Snoop lines for a core (R350): it waits until every holder has answered. -/
def cohSnoop (s : State) (k : Nat) (d line n : Nat) (inv : Bool) : State :=
  let (s, sent) := (List.range n).foldl (fun (x : State × Nat) i =>
    let hs := holdersOf x.1 (line + i)
    let (s, up) := sendSnoops x.1 (line + i) (if inv then 0 else 1) hs
    if up.isEmpty then ((if inv then clearHolders s (line + i) none else s), x.2)
    else (addSnoop s (line + i) up (.core k inv), x.2 + 1)) (s, 0)
  if sent = 0 then setReg s k d (statusWord 0 0) else modCore s k fun c => { c with wait := some (.snoops d sent) }

/-- A coherence request of `n` lines. -/
def coherence (s : State) (r : CoreRun) (len : Nat) (d : Fin 32) (ea : BitVec 64) (n : Nat) (inv : Bool) : State :=
  if !(core s r.core).outstanding.isEmpty ∧ (cohCheck s r.core ea.toNat n).2 ≠ [] then s else
  let (s, causes) := cohCheck s r.core ea.toNat n
  checked s r.core causes 0 ea (cohSnoop (advance s r.core len) r.core d (ea.toNat % 2 ^ 42 / 64) n inv)

/-- COH_INV (R350). -/
def execCohInv (run : CoreRun) (d a : Fin 32) (s : State) : Host.Outcome State Fault Refusal :=
  .next (issue s run { reads := [a.val] } fun s c => coherence s run 1 d (c.w a) 1 true)
/-- COH_DATA (R350). -/
def execCohData (run : CoreRun) (d a : Fin 32) (s : State) : Host.Outcome State Fault Refusal :=
  .next (issue s run { reads := [a.val] } fun s c => coherence s run 1 d (c.w a) 1 false)
/-- COH_INVR (R350): a range in one quire, in whole lines. -/
def execCohInvr (run : CoreRun) (d a b : Fin 32) (s : State) : Host.Outcome State Fault Refusal :=
  .next (issue s run { len := 2, reads := [a.val, b.val] } fun s c =>
    let ea := c.w a
    let n := (c.w b).toNat
    if ea.toNat % 64 ≠ 0 ∨ n % 64 ≠ 0 ∨ 2 ^ 21 < ea.toNat % 2 ^ 21 + n then fault s run.core 0x05 0 ea
    else coherence s run 2 d ea (n / 64) true)

/-- COH_QRY (R350): the ports of a line's filter entry, or of a COARSE quire's holders. -/
def execCohQry (run : CoreRun) (d a : Fin 32) (s : State) : Host.Outcome State Fault Refusal :=
  .next (issue s run { scribeOnly := true, reads := [a.val] } fun s c =>
    let ea := c.w a
    if !(core s run.core).outstanding.isEmpty ∧ (cohCheck s run.core ea.toNat 1).2 ≠ [] then s else
    let (s, causes) := cohCheck s run.core ea.toNat 1
    checked s run.core causes 0 ea (
      let line := ea.toNat % 2 ^ 42 / 64
      let q := line / 32768
      let v := if s.fabric.coarse.contains q then
          ((quireHolders s q).filter fun h => s.on (PRT_LD_HDM_DB (h / 16) (h % 16))).foldl (fun m h => setBit m (h / 16)) 0
        else match Tab.find s.fabric.filter line with | some f => f.ports | none => 0
      advance s run.core 1 fun z => z.setW d (BitVec.ofNat 64 v)))

end Sys2Proof.Machine
end

