-- ==== Sys2Proof/Machine/Desk.lean ====
section
/-! DEFINITION. The desk as a whole (R3, R11, R12, R29, R341, R342, R361): a read or a write of any desk address, by a
Scribe's desk instructions, by a ruled-event slot (R66) or over JTAG (R491). -/

namespace Sys2Proof.Machine

/-! ### A register without a rule of its own -/

/-- The source that reports a Notice of a register's unit. -/
def regSource (r : Reg) (i : Nat) : Nat :=
  match r with
  | .CHN_SCHED | .CHN_POOL | .CHN_REFRESH | .CHN_HAMMER | .CHN_PAUSE_INTERVAL => i
  | .LAN_PORT_CTRL | .LAN_LANES | .LAN_DOZE | .LAN_LANE_MARGIN => 256 + i
  | .LAN_PAIR => 256 + 2 * i
  | .LAN_QUAD => 256 + 16 * i
  | .PRT_PORT_CTRL | .PRT_LD => 320 + i
  | .PRT_DC_REGION => 320 + i / 16
  | .RUL_SOURCE | .RUL_LINK | .RUL_PEER_FORWARD | .RUL_LOCAL_EPOCH | .RUL_EVENT_CTRL => 433
  | .DCT_CTRL | .DCT_HEAT | .DCT_MAP_CACHE | .DCT_MOVE_CTRL | .DCT_WORK | .DCT_LEND | .DCT_SPREAD_SET => 429
  | .PRT_ROUTE | .PRT_CTRL | .PRT_EXTENT_CMD => 432
  | .QUE_CTRL | .QUE_GROUP | .NIB_CTRL | .NIB_KERNEL_LOC | .NIB_KERNEL_EST => 430
  | .CLK_CTRL | .CLK_ROOT | .CLK_QUAD | .CLK_OUT | .CLK_DOMAIN | .CLK_GATE => 434
  | .PWR_REQUEST | .PWR_CTRL | .PWR_CLASS | .PWR_WAKE | .PWR_DOMAIN => 435
  | .THM_CTRL | .THM_LIMITS | .THM_PEAK => 437
  | .FUS_LOCK_SET | .FUS_READ | .FUS_PROG_DATA | .FUS_PROG_CMD => 438
  | .COL_CAL_CTRL | .COL_CAL_REQUEST => 439
  | .COL_CTRL | .COL_READ_SELECT => 442
  | .BLT_CTRL | .BLT_LOG_SELECT => 444
  | _ => 443

/-- A field that its lock keeps from changing (RWL, Table 0-5): PWR_CLASS by its strap-override lock, the fields of the
debug-policy lock while debug is not open (R491), SEL_LD_KEY by LOCKED. -/
def fieldLocked (s : State) (r : Reg) (i j : Nat) : Bool :=
  match r with
  | .PWR_CLASS => strapLocked s 5
  | .CHN_HAMMER | .MBX_CTRL => !s.on FUS_STATUS_DEBUG_OPEN
  | .SEL_LD_KEY => s.on (SEL_LD_KEY_LOCKED i j)
  | _ => false

/-- What a write makes of one field, and whether it owes a Notice (R11, R12). -/
def mergeField (locked : Bool) (n : Nat) (acc : BitVec 64 × Bool) (f : FieldSpec) : BitVec 64 × Bool :=
  let v := bitsOf n f.lo f.width
  let o := bitsOf acc.1.toNat f.lo f.width
  match f.acc with
  | .ro | .wo => acc
  | .w1c => (putField acc.1 f.lo f.width (o - (o &&& v)), acc.2)
  | .rw => if f.enc < v then (acc.1, true) else (putField acc.1 f.lo f.width v, acc.2)
  | .rwl => if v = o then acc else if locked || decide (f.enc < v) then (acc.1, true) else (putField acc.1 f.lo f.width v, acc.2)

/-- A field's value lies outside its stated range. -/
def outOfRange (locked : Bool) (n : Nat) (f : FieldSpec) : Bool :=
  let v := bitsOf n f.lo f.width
  match f.acc with
  | .rw => decide (v < f.min) || decide (f.max < v)
  | .rwl => !locked && (decide (v < f.min) || decide (f.max < v))
  | _ => false

/-- The relations that a register's fields keep (Tables 4-7, 5-9, 7-8), and a route's PORT, which must name a Peer sub-link
(Table 9-14). -/
def relationBroken (s : State) (r : Reg) (n : Nat) : Bool :=
  match r with
  | .CHN_POOL => decide (40 < bitsOf n 0 8 + bitsOf n 8 8)
  | .DCT_HEAT => decide (bitsOf n 24 8 ≤ bitsOf n 16 8)
  | .DCT_MAP_CACHE => decide (bitsOf n 0 18 < s.get DCT_MAP_CACHE_LOCKED)
  | .PRT_ROUTE => bit n 63 && s.get (PRT_PORT_CTRL_ROLE (bitsOf n 2 6)) != 1
  | .SEL_TREE_CACHE => decide (bitsOf n 0 16 < s.get SEL_TREE_CACHE_LOCKED)
  | _ => false

/-- A write of a register by its access codes, ranges and locks (R11, R12): a value outside a stated range leaves the
register unchanged, a reserved encoding its field, each with a Notice; bits of absent units keep reading zero (R3). -/
def regWrite (s : State) (r : Reg) (i j a : Nat) (w : BitVec 64) : State :=
  let here := presentBits s.variant r
  let n := w.toNat &&& here
  let locked := fieldLocked s r i j
  if r.fields.any (outOfRange locked n) || relationBroken s r n then notice s (regSource r i) else
  let (x, owed) := r.fields.foldl (mergeField locked n) (s.word a, false)
  let s := s.setWord a x
  if owed then notice s (regSource r i) else s

/-! ### Writes -/

/-- The Scribe on whose account a writer acts; none for JTAG. A ruled-event slot acts for the rubric that holds it. -/
def slotWriter (s : State) (n : Nat) : Option (Fin 8) :=
  (List.finRange 8).find? fun k => slotGranted s k n

/-- A write of any desk address (R11). `pump` is the fuse program pump's window, which only FUS_PROG_CMD looks at. -/
def deskWrite (s : State) (writer : Option (Fin 8)) (a : Nat) (w : BitVec 64) (pump : Bool) : State :=
  match locate a with
  | none => notice s 443
  | some (r, i, j) =>
    if absentUnit s.variant r i j then s else
    match r with
    | .RUL_SOURCE => writeRulSource s w
    | .RUL_ERRORS =>
      let s := regWrite s r i j a w
      if w.getLsbD 0 then clearRulCounts s else s
    | .RUL_EVENT_CTRL => writeEventCtrl s i w
    | .RUL_EVENT_TIME => writeEventTime s i w
    | .RUL_EVENT_ADDR => writeEventAddr s i w
    | .CHN_SCHED => writeSched s i w
    | .CHN_POOL => poolWritten (regWrite s r i j a w) i
    | .DCT_MOVE_CTRL =>
      let s := regWrite s r i j a w
      s.put (ACC_RATE_CEILING 4095) (125 * s.get DCT_MOVE_CTRL_RATE_GBPS)
    | .DCT_SPREAD_SET => writeSpread s i j w
    | .SEL_RESEAL_AUTH => { s with sealing := { s.sealing with auth := w.truncate 48 } }
    | .SEL_RESEAL_CMD => writeResealCmd s w
    | .LAN_PORT_CTRL => writeLanCtrl s i w
    | .LAN_PAIR => writePair s i w
    | .LAN_QUAD => writeQuad s i w
    | .LAN_DOZE => writeDoze s i w
    | .LAN_LANE_MARGIN => writeMargin s i j w
    | .PRT_PORT_CTRL => writePortCtrl s i w
    | .PRT_LD => writeLd s i j w
    | .PRT_DC_REGION => writeRegion s (i / 16) (i % 16) j w
    | .PRT_EXTENT_CMD => writeExtentCmd s w
    | .MBX_COMPLETE => writeMbxComplete s w
    | .MBX_WINDOW => boxPut s (s.get MBX_SELECT_MAILBOX) (8 * i) (leBytes 8 w.toNat)
    | .QUE_PAIR_CFG => writePairCfg s w
    | .QUE_PAIR_SQ => writePairBase s false w
    | .QUE_PAIR_CQ => writePairBase s true w
    | .NIB_CORE => writeNibCore s i w
    | .NIB_KERNEL_LOC => if i = 0 then notice s 430 else regWrite s r i j a w
    | .CLK_OSC => writeOsc s w
    | .CLK_OUT => writeClkOut s i w
    | .CLK_NIB_PLL => writeNibPll s i w
    | .CLK_DOMAIN => writeDomain s i w
    | .CLK_GATE => writeGate s i w
    | .PWR_REQUEST => writeRequest s w
    | .PWR_CLASS => showClass (regWrite s r i j a w)
    | .PWR_DOMAIN => match writer with | some k => writeVote s k i w | none => s
    | .THM_LIMITS => writeLimits s w
    | .THM_PEAK => writePeak s w
    | .COL_CAL_CTRL =>
      let keep := if s.variant = .v4384 then w &&& 0xFFFFFFFFFFFFFFFE#64 else w
      regWrite s r i j a keep
    | .COL_CAL_REQUEST => requestCal s w
    | .COL_CTRL => writeColCtrl s w
    | .COL_CALENDAR_SET => setCalendar s w 3
    | .FUS_LOCK_SET => writeLockSet s w
    | .FUS_READ => writeFusRead s w
    | .FUS_PROG_CMD => writeProgCmd s (programmerOf s writer) w pump
    | .BLT_CTRL => driveAlert (regWrite s r i j a (w ||| 0x1000#64))
    | .BLT_ALERT => clearAlert s w
    | .BLT_INJECT => injectEvent s writer w
    | .BLT_SOURCE => if w.getLsbD 60 then clearLatch s i else s
    | .BLT_SEVERITY => writeSeverity s i w
    | _ => regWrite s r i j a w

/-! ### The bytes of a Colophon record (R524, Tables 19-2 and 19-3) -/

/-- TYPE of a record. -/
def ColBody.type : ColBody → Nat
  | .minute .. => 1
  | .blotter .. => 2
  | .shutdown .. => 3
  | .repair .. => 4
  | .fuse .. => 5
  | .calendar .. => 6
  | .marker .. => 7

/-- Two 16-bit boost figures of a cluster. -/
def boostBytes (l : List (Nat × Nat)) : List (BitVec 8) := l.flatMap fun (p, k) => leBytes 2 p ++ leBytes 2 k

/-- The histogram bins of dies, 4 bits each, the lower die in the lower bits; an absent die holds 0. -/
def binBytes (l : List Nat) : List (BitVec 8) :=
  (List.range 36).map fun i =>
    let b (d : Nat) := let x := l.getD d 0; if 15 < x then 0 else x
    BitVec.ofNat 8 (b (2 * i) + 16 * b (2 * i + 1))

/-- The body of a record. -/
def ColBody.bytes (s : State) : ColBody → List (BitVec 8)
  | .minute seconds energy classes dropped clusters bins =>
    leBytes 1 seconds ++ leBytes 4 energy ++ classes.flatMap (leBytes 4) ++ leBytes 2 dropped ++ boostBytes clusters ++ binBytes bins
  | .blotter time r => leBytes 8 time.toNat ++ recordBytes s r
  | .shutdown cause trip time boost => leBytes 1 cause ++ leBytes 8 trip.toNat ++ leBytes 8 time.toNat ++ boostBytes boost
  | .repair g kind index image => leBytes 1 g ++ leBytes 1 kind ++ leBytes 4 index ++ leBytes 8 image.toNat
  | .fuse word data status => leBytes 2 word ++ leBytes 4 data ++ leBytes 1 status
  | .calendar old new source => leBytes 8 old ++ leBytes 8 new ++ leBytes 1 source
  | .marker copy generation => leBytes 1 copy ++ leBytes 4 generation

/-- A committed record as it stands in its ring: header, body, what lies between, CRC-32. -/
def ColRecord.bytes (s : State) (r : ColRecord) : List (BitVec 8) :=
  let head := leBytes 2 0x4C43 ++ leBytes 1 r.body.type ++ leBytes 1 r.body.units ++ leBytes 4 r.seq ++ leBytes 8 r.calendar
  let body := head ++ r.body.bytes s
  let pad := (List.range (64 * r.body.units - 4 - body.length)).map fun i => Config.recordPad r.seq (body.length + i)
  let all := body ++ pad
  all ++ leBytes 4 (Config.crc32 all).toNat

/-- The record COL_READ_SELECT names, if it is committed and not overwritten (Table 19-8). -/
def selectedRecord (s : State) : Option ColRecord :=
  let ring := if s.on COL_READ_SELECT_RING then s.colophon.eventRing else s.colophon.minuteRing
  ring.find? fun r => r.seq == s.get COL_READ_SELECT_SEQ

/-! ### Reads -/

/-- Doubleword `i` of a byte string; zero beyond it. -/
def wordOf (l : List (BitVec 8)) (i : Nat) : BitVec 64 := BitVec.ofNat 64 (leNat ((l.drop (8 * i)).take 8))

/-- Fields that only act on a write read as zero (Table 0-5). -/
def hideWriteOnly (r : Reg) (w : BitVec 64) : BitVec 64 :=
  r.fields.foldl (fun w f => if f.acc = .wo then putField w f.lo f.width 0 else w) w

/-- A read of any desk address (R11, R341): absent units and reserved addresses read zero; views that a select register
steers, the slot counter (Table 4-11), the capacities in force (Table 6-9), and the fields that a read clears. -/
def deskRead (s : State) (a : Nat) : State × BitVec 64 :=
  match locate a with
  | none => (s, 0)
  | some (r, i, j) =>
    if absentUnit s.variant r i j then (s, 0) else
    match r with
    | .RUL_TIME => (s.timed, s.stamp)
    | .ACC_CHANNEL => (s, putField (s.word a) 48 16 (chanDeliverable s i))
    | .ACC_LINK => (s, putField (s.word a) 44 20 (linkCapacity s (i / 4) (i % 4)))
    | .CHN_POOL => readPool s i
    | .CHN_PAUSE_STATUS => (s, putField (s.word a) 0 12 (slotCounter s))
    | .PRT_PORT_STATUS => (s.put (PRT_PORT_STATUS_RESERVE_PEAK i) 0, putField (s.word a) 24 14 (reserveUsed s i))
    | .PRT_BUFFER => (s, putField (s.word a) 44 20 (sharedFree s))
    | .MBX_WINDOW => (s, BitVec.ofNat 64 (boxNum s (s.get MBX_SELECT_MAILBOX) (8 * i) 8))
    | .QUE_PAIR_CFG => (s, (pair s (s.get QUE_SELECT_PAIR)).cfg)
    | .QUE_PAIR_SQ => (s, (pair s (s.get QUE_SELECT_PAIR)).sq)
    | .QUE_PAIR_CQ => (s, (pair s (s.get QUE_SELECT_PAIR)).cq)
    | .QUE_PAIR_STATE => (s, (pair s (s.get QUE_SELECT_PAIR)).stateWord)
    | .THM_SENSOR => readSensor s i
    | .FUS_SHADOW =>
      (s, match regionOf i with
        | some n => if s.on (FUS_REGION_READ_LOCK n) then 0 else s.word a
        | none => s.word a)
    | .BLT_LOG_RECORD =>
      match s.blotter.log.find? fun x => x.seq == s.get BLT_LOG_SELECT_ALL with
      | none => (s, 0)
      | some x =>
        let v := wordOf (recordBytes s x) i
        (if s.blotter.badRecords.contains x.seq then event s 0x123 444 x.seq else s, v)
    | .COL_READ_RECORD => (s, match selectedRecord s with | some x => wordOf (x.bytes s) i | none => 0)
    | _ => (s, hideWriteOnly r (s.word a) &&& BitVec.ofNat 64 (presentBits s.variant r))

/-! ### The desk-access instructions (R341) -/

/-- The block of a desk address, as its bit in the desk grants (Table 11-11). -/
def deskBlock (a : Nat) : Option Nat :=
  let b := a / 0x10000
  if b < 6 then some b
  else if b < 8 then some 6
  else if b < 0x0C then some 7
  else if b < 0x10 then some 8
  else if b < 0x18 then some 9
  else if b < 0x1A then some 10
  else if b < 0x1C then some 11
  else if b < 0x1E then some 12
  else if b < 0x20 then some 13
  else if b < 0x30 then some 14
  else if b < 0x40 then some 15
  else none

/-- The address faults of a desk access. -/
def deskCauses (a : BitVec 64) : List Nat :=
  (if 2 ^ 24 ≤ a.toNat then [0x05] else []) ++ (if a.toNat % 8 ≠ 0 then [0x03] else [])

/-- The firing of a slot, with its desk write (R65, R66). -/
def slotActs (s : State) (slot : Nat) (pump : Bool) : State :=
  let write := s.on (RUL_EVENT_CTRL_WRITE slot)
  let a := s.get (RUL_EVENT_ADDR_ADDR slot)
  let data := s.word (RUL_EVENT_DATA_ALL slot).addr
  let writer := slotWriter s slot
  let s := fireSlot s slot
  if write then deskWrite s writer a data pump else s

/-- The slots of the current line edge that have not fired yet fire, in increasing order: a Scribe's desk write is ordered
after the slots' (R66). -/
def settleSlots (s : State) (pump : Bool) : State :=
  s.each (List.range 64) fun s n => if slotDue s n then slotActs s n pump else s

/-- A desk read into register `d`. An address outside every block lies outside every grant too and reads zero, as a
reserved address. -/
def deskLoad (s : State) (r : CoreRun) (len : Nat) (d a : Fin 32) (offset : BitVec 64) : State :=
  issue s r { len := len, scribeOnly := true, reads := [a.val] } fun s c =>
    let ea := c.w a + offset
    checked s r.core (deskCauses ea) 7 ea (
      if (deskBlock ea.toNat).any fun b => !readGranted s r.core b then grantFault s r.core 7 ea.toNat else
      let (s, v) := deskRead s ea.toNat
      advance s r.core len fun z => z.setW d v)

/-- A desk write of register `d`. -/
def deskStore (s : State) (r : CoreRun) (len : Nat) (d a : Fin 32) (offset : BitVec 64) (pump : Bool) : State :=
  issue s r { len := len, scribeOnly := true, reads := [a.val, d.val] } fun s c =>
    let ea := c.w a + offset
    checked s r.core (deskCauses ea) 8 ea (
      if (deskBlock ea.toNat).any fun b => !writeGranted s r.core b then grantFault s r.core 8 ea.toNat else
      let s := settleSlots (advance s r.core len) pump
      deskWrite s (some (Fin.ofNat 8 r.core.val)) ea.toNat (c.w d) pump)

/-- DRD (R341): the desk register at wa + 8 o. -/
def execDrd (run : CoreRun) (d a : Fin 32) (o : Fin 16) (s : State) : Host.Outcome State Fault Refusal :=
  .next (deskLoad s run 1 d a (BitVec.ofNat 64 (8 * o.val)))

/-- DWR (R341). -/
def execDwr (run : CoreRun) (d a : Fin 32) (o : Fin 16) (pump : Bool) (s : State) : Host.Outcome State Fault Refusal :=
  .next (deskStore s run 1 d a (BitVec.ofNat 64 (8 * o.val)) pump)

/-- DRD_L (R341, Table 11-2): an unsigned byte offset; its bits 2:0, W apart, are zero or the word is reserved. -/
def execDrdL (run : CoreRun) (d a : Fin 32) (offset : BitVec 19) (s : State) : Host.Outcome State Fault Refusal :=
  .next (deskLoad s { run with reserved := run.reserved || offset.toNat % 8 != 0 } 2 d a (offset.zeroExtend 64))

/-- DWR_L (R341, Table 11-2). -/
def execDwrL (run : CoreRun) (d a : Fin 32) (offset : BitVec 19) (pump : Bool) (s : State) : Host.Outcome State Fault Refusal :=
  .next (deskStore s { run with reserved := run.reserved || offset.toNat % 8 != 0 } 2 d a (offset.zeroExtend 64) pump)

/-! ### Other writers -/

/-- RUL_EVENT_FIRE (R65, R66): a slot due on this line edge fires, unless a lower-numbered one is still to fire. -/
def execRulEventFire (slot : Fin 64) (pump : Bool) (s : State) : Host.Outcome State Fault Refusal :=
  .next (
    if !slotDue s slot || (List.range slot.val).any (slotDue s) then s else slotActs s slot pump)

/-- JTAG_DESK_ACCESS (R491): served while debug is open, otherwise refused with an event. -/
def execJtagDeskAccess (addr : BitVec 24) (write : Option (BitVec 64)) (pump : Bool) (s : State) : Host.Outcome State Fault Refusal :=
  .next (
    if s.power.rails ≠ .up then s else
    if !s.on FUS_STATUS_DEBUG_OPEN then deskRefused s (deskMaster none) (if write.isSome then 8 else 7) addr.toNat else
    match write with
    | some v => deskWrite s none addr.toNat v pump
    | none =>
      let (s, v) := deskRead s addr.toNat
      s.send (.jtagRead v))

/-- REGISTER_WRITE (R11, R12): a write of a desk address by a Scribe whose rubric holds the grant of its block, as
DWR makes it. -/
def execRegisterWrite (scribe : Fin 8) (addr : BitVec 24) (value : BitVec 64) (pump : Bool) (s : State) :
    Host.Outcome State Fault Refusal :=
  .next (if s.power.rails ≠ .up then s else deskWrite (settleSlots s pump) (some scribe) addr.toNat value pump)

end Sys2Proof.Machine
end

