-- ==== Sys2Proof/Machine/Boot.lean ====
section
/-! DEFINITION. Bring-up and boot (chapter 21), with what the release of reset does elsewhere: straps (R548), fuse shadows
(R481 to R484), quarantine (R497), the Colophon's replay (R527). -/

namespace Sys2Proof.Machine

def setBoot (s : State) (b : Boot) : State := { s with boot := b }

/-! ### Straps (R548, R496) -/

/-- The straps a boot takes: a pin whose three samples agree has that value, otherwise 0; with VIO_OUT off every strap
reads as its pull-down (R545). -/
def captureStraps (s : State) (b : BootInput) : State :=
  let odd := (b.straps1 ^^^ b.straps2) ||| (b.straps2 ^^^ b.straps3)
  let v := if s.power.vioOff then 0#15 else b.straps1 &&& ~~~odd
  let s := setBoot s { s.boot with straps := v, disagreed := odd }
  if odd = 0 then s else event s 0x140 440 odd.toNat

/-- First bit and width of the strap a group governs (Table 17-5, R546). -/
def strapGroup (g : Nat) : Nat × Nat := [(0, 3), (3, 2), (5, 2), (7, 2), (9, 1), (10, 2), (12, 1), (13, 2)].getD g (0, 1)

/-- The value of a strap. -/
def strap (s : State) (g : Nat) : Nat := bitsOf s.boot.straps.toNat (strapGroup g).1 (strapGroup g).2

/-- Apply one strap-override word (R496): OVR replaces the strap, LOCK locks its field; a word with reserved bits set, or a
VALUE beyond the strap, is ignored with a Degraded event. A bad word's LOCK reads 1 (Table 17-1). -/
def overrideStrap (s : State) (g : Nat) : State :=
  let w := shadowValue s (770 + g)
  let (lo, width) := strapGroup g
  if shadowBlank s (770 + g) then s
  else if bitsOf w 4 26 ≠ 0 || decide (2 ^ width ≤ w % 16) then event s 0x117 438 g
  else
    let locks := if bit w 30 || shadowBad s (770 + g) then s.boot.locks ||| BitVec.ofNat 8 (2 ^ g) else s.boot.locks
    let n := s.boot.straps.toNat
    let straps := if bit w 31 then BitVec.ofNat 15 (n - bitsOf n lo width * 2 ^ lo + w % 16 * 2 ^ lo) else s.boot.straps
    setBoot s { s.boot with straps := straps, locks := locks }

/-- Bifurcation of a quadrant for a profile (Table 8-1). -/
def bifurcationOf (profile q : Nat) : Nat :=
  (([[0, 0, 0, 0], [1, 0, 0, 0], [1, 1, 0, 0], [1, 1, 1, 1], [2, 0, 0, 0], [2, 1, 0, 0], [2, 2, 0, 0], [2, 2, 2, 2]].getD profile []).getD q 0)

/-- Through-pairs that a strap value enables: the uppermost quarter, half or whole of the upper half (Table 8-6). -/
def strapPairs (s : State) : List Nat :=
  let most := s.variant.ports / 4
  let n := [0, most / 4, most / 2, most].getD (strap s 1) 0
  (List.range n).map fun i => s.variant.ports / 2 - n + i

/-- The registers that take their reset value from a strap (R57, R238, R260, R400, R435). -/
def applyStraps (s : State) : State :=
  let s := s.each (List.range (s.variant.ports / 16)) fun s q => s.put (LAN_QUAD_BIFURCATION q) (bifurcationOf (strap s 0) q)
  let s := s.each (strapPairs s) fun s k => runPair s k true
  let order := [0xE4, 0xE1, 0xD2, 0xFF].getD (strap s 2) 0xE4
  let s := { (s.put RUL_SOURCE_ORDER order) with ruling := { s.ruling with order := order } }
  let s := (s.put CLK_CTRL_MODE (strap s 4)).put PWR_CLASS_CLASS (strap s 5)
  let lost := s.power.phasesLost
  showClass ((s.put PWR_CLASS_MAX_CLASS (maxClass lost)).put PWR_INK_PHASES_OK (~~~lost).toNat)

/-! ### Fuse shadows and quarantine (R481 to R484, R497, R530) -/

/-- The reading of a word at this boot: as given, or clean from the array. -/
def bootReading (s : State) (b : BootInput) (w : Nat) : FuseReading :=
  match b.readings.find? fun x => x.1.val == w with
  | some (_, r) => r
  | none => match Tab.find s.fuses.array w with
    | some d => { data := d, corrected := false, uncorrectable := false, marginal := false, blank := false }
    | none => { data := 0, corrected := false, uncorrectable := false, marginal := false, blank := true }

/-- A word whose class is security (Table 17-1). -/
def securityWord (w : Nat) : Bool := decide (1008 ≤ w) || (match regionOf w with | some n => securityRegion n | none => false)

/-- The marginal list the boot applies: that of the copy that is valid; none when neither is. -/
def marginalList (s : State) (b : BootInput) : Option (List (Nat × Nat × Nat)) :=
  let a := if b.listABad then none else s.colophon.marginalA
  let c := if b.listBBad then none else s.colophon.marginalB
  a.orElse fun _ => c

/-- Load one shadow (R483, R484). A listed word has the recorded treatment; a word newly marginal or uncorrectable is
listed with the value applied, a fuse event of the Colophon with status 0xFF (Table 19-3). A bad security word counts as
programmed. -/
def loadShadow (b : BootInput) (x : State × List (Nat × Nat × Nat)) (w : Nat) : State × List (Nat × Nat × Nat) :=
  let (s, list) := x
  let r := bootReading s b w
  match list.find? fun e => e.1 == w with
  | some (_, t, v) =>
    let blank := v == 0 && !securityWord w
    (s.setWord (FUS_SHADOW_VALUE w).addr (BitVec.ofNat 64 (b2n blank * 2 ^ 35 + b2n r.corrected * 2 ^ 34
      + b2n (t == 2) * 2 ^ 33 + b2n (t == 1) * 2 ^ 32 + v)), list)
  | none =>
    let bad := r.marginal || r.uncorrectable
    let s := setShadow s w (r.blank && !(bad && securityWord w)) r
    let s := if r.corrected then fuseEvent s 0 w else s
    if !bad then (s, list) else
    let v := shadowValue s w
    (toColophon (fuseEvent s 1 w) (.fuse w v 0xFF), list ++ [(w, if r.uncorrectable then 2 else 1, v)])

/-- Fill every shadow, apply the marginal list and rewrite both copies, A first (R484, R530). -/
def loadShadows (s : State) (b : BootInput) : State :=
  let known := marginalList s b
  let oneBad := (b.listABad || s.colophon.marginalA.isNone) != (b.listBBad || s.colophon.marginalB.isNone)
  let (s, list) := (List.range 1024).foldl (loadShadow b) (s, known.getD [])
  match known with
  | none =>
    let s := setCol s { s.colophon with marginalA := none, marginalB := none }
    event s 0x135 442
  | some _ =>
    let s := setCol s { s.colophon with marginalA := some list, marginalB := some list }
    if oneBad then event s 0x134 442 else s

/-- Causes of quarantine (R497), as Q_CAUSE holds them. -/
def quarantineCauses (s : State) (listed : Bool) : Nat :=
  let vendor := [2, 3, 4, 5, 6, 11].any fun n => regionStateOf s n == 3
  let owner := (List.range 4).any fun o => regionStateOf s (7 + o) == 3 &&
    !((List.range 4).any fun h => decide (o < h) && slotUsableNow s (7 + h))
  let seed := (regionWords 2).any (shadowBad s)
  b2n vendor + 2 * b2n owner + 4 * b2n seed + 8 * b2n (!listed)

/-- Region states, lifecycle, quarantine, debug and the minimum security version (R480, R490, R495, R497, R498). -/
def fuseState (s : State) (listed : Bool) : State :=
  let s := s.put FUS_STATUS_LIFECYCLE (lifecycleOf s)
  let causes := quarantineCauses s listed
  let s := (s.put FUS_STATUS_Q_CAUSE causes).putB FUS_STATUS_QUARANTINE (causes != 0)
  let s := s.each (List.range 14) fun s n => showRegion s n (slotRegion n && slotUsableNow s n)
  let s := showCounts (s.put FUS_STATUS_MIN_SECURITY (minSecurityOf s))
  let s := s.putB FUS_STATUS_DEBUG_OPEN (debugOpenOf s)
  let s := s.each ((List.range 14).filter fun n => s.get (FUS_REGION_STATE n) == 3) fun s n => fuseEvent s 5 n
  if causes = 0 then s else fuseEvent s 6 causes

/-! ### The Colophon at boot (R527) -/

/-- Boost milliseconds of a record's clusters, in the bucket of the record's day. -/
def replayBoost (l : Life) (calendar : Nat) (use : List (Nat × Nat)) : Life :=
  let day := if calendar = 0 then l.seconds / 86400 else calendar / 86400
  let boost := use.zipIdx.foldl (fun t (x, c) =>
    if x = (0, 0) then t else
      let (p, k) := Tab.at t (2 ^ 24 * c + day) (0, 0)
      Tab.set t (2 ^ 24 * c + day) (p + x.1, k + x.2)) l.boost
  { l with boost := boost }

/-- Apply a record to the counters of a checkpoint. -/
def replayRecord (l : Life) (r : ColRecord) : Life :=
  let l := applyRecord l r.body
  match r.body with
  | .minute _ _ _ _ clusters _ => replayBoost l r.calendar clusters
  | .shutdown _ _ _ boost => replayBoost l r.calendar boost
  | _ => l

/-- Records before the one whose CRC fails (R524). -/
def upTo (ring : List ColRecord) (last : Option (BitVec 32)) : List ColRecord :=
  match last with | some n => ring.filter fun r => decide (r.seq < n.toNat) | none => ring

/-- Repair state of the channels from what the Colophon holds and from the factory repairs (R99). -/
def applyRepairs (s : State) : State :=
  let l := s.colophon.life
  let words := ((List.range 255).map (129 + ·)).filterMap fun w => if shadowBlank s w then none else some (w, shadowValue s w)
  let factory (i : Nat) : Nat := if words.isEmpty then 0 else Config.factoryRepair words i
  let s := s.each (List.range s.variant.channels) fun s g =>
    let (image, d, ca) := Tab.at l.repair g (0, 0, 0)
    let image := if (Tab.find l.repair g).isSome then image else BitVec.ofNat 64 (factory (3 * g)) &&& 0x000000FFFFFFFF87#64
    let d := d ||| (BitVec.ofNat 64 (factory (3 * g + 1)) &&& 0x00000FFFFFFFFFFF#64)
    let ca := ca ||| (BitVec.ofNat 64 (factory (3 * g + 2)) &&& 0x3FFF7FFF#64)
    if image = 0 ∧ d = 0 ∧ ca = 0 then s else
    let s := ((s.setWord (CHN_REPAIR_STATE_STATE g).addr image).setWord (CHN_DATA_TSV_FAILED_FAILED g).addr d).setWord
      (CHN_CA_TSV_FAILED_FAILED g).addr ca
    if s.get (CHN_REPAIR_STATE_SPARE_STATE g) = 1 then
      modChan s g fun c => { c with servedBySpare := some (s.get (CHN_REPAIR_STATE_SPARE_FOR g)) }
    else s
  let used := l.rowRepairs
  let s := s.each used fun s (k, n) => modChan s (k / 272) fun c => { c with repairUsed := Tab.set c.repairUsed (k % 272) n }
  let s := if words.isEmpty then s else s.each (List.range (272 * s.variant.channels)) fun s k =>
    let n := factory (768 + k) % 9
    if n = 0 then s else modChan s (k / 272) fun c => { c with repairUsed := Tab.set c.repairUsed (k % 272) (Tab.at c.repairUsed (k % 272) 0 + n) }
  let failed := (List.range s.variant.towers).flatMap fun t => (List.range 17).filterMap fun r =>
    if (List.range 64).all fun i =>
        if r = 16 then s.get (CHN_REPAIR_STATE_SPARE_STATE (64 * t + i)) == 2
        else s.flag (CHN_REPAIR_STATE_RETIRED_RANKS (64 * t + i)) r || (chan s (64 * t + i)).servedBySpare == some r
      then some (t, r) else none
  { s with layersFailed := failed }

/-- Replay the Colophon (R527): the newest valid checkpoint, then the records after it; an invalid copy is rewritten; a
power-up that left no shutdown record counts one unrecorded loss. -/
def replayColophon (s : State) (b : BootInput) : State :=
  let c := s.colophon
  let a := if b.copyABad then none else c.copyA
  let d := if b.copyBBad then none else c.copyB
  let best := match a, d with
    | some x, some y => some (if x.generation < y.generation then y else x)
    | some x, none => some x
    | none, y => y
  let minutes := upTo c.minuteRing b.minuteEnd
  let events := upTo c.eventRing b.eventEnd
  let start : Life := match best with
    | some k => { k.life with joules := k.life.joules / 1000 * 1000 }
    | none => {}
  let l := (minutes.filter fun r => decide ((best.map (·.minuteSeq)).getD 0 ≤ r.seq)).foldl replayRecord start
  let l := (events.filter fun r => decide ((best.map (·.eventSeq)).getD 0 ≤ r.seq)).foldl replayRecord l
  let l := if c.vinCycled && !c.shutdownSeen then { l with unrecorded := l.unrecorded + 1 } else l
  let one := a.isSome != d.isSome
  let trip := c.tripNew
  let s := setCol s { c with
    copyA := a, copyB := d, life := l, minuteRing := minutes, eventRing := events, vinCycled := false, tripNew := false
    generation := (best.map (·.generation)).getD 0
    copyLast := if one then (if a.isSome then 0 else 1) else c.copyLast }
  let s := if one then event (writeCheckpoint s) 0x132 442 else if best.isNone then event s 0x133 442 else s
  let s := showColophon s
  let s := s.put COL_STATUS_CHECKPOINT_VALID (b2n s.colophon.copyA.isSome + 2 * b2n s.colophon.copyB.isSome)
  let s := s.put COL_STATUS_MARGINAL_VALID (b2n s.colophon.marginalA.isSome + 2 * b2n s.colophon.marginalB.isSome)
  if trip then event s 0xF7 437 (c.tripImage.toNat / 2 ^ 32) else s

/-! ### Release of reset -/

/-- Source of an event that the Inkwell held until the Blotter runs (R571). -/
def heldSource (type : Nat) : Nat :=
  if type / 16 = 0x13 then 442 else if type / 16 = 0x16 then 441 else if type / 16 = 0x14 ∨ type / 16 = 0x0E then 436 else 440

/-- The set of the valid point nearest to set point `p`, in temperature (R472). -/
def nearestSet (x : CalUnit) (p : Nat) : Tab Int :=
  let at' (i : Nat) : Int := -20 + 100 * (i : Int)
  let others := (((List.range 5).filter fun i => i != p).map fun i => (at' i, Tab.at x.sets i []))
    ++ (match x.field with | some f => [f] | none => [])
  match leastBy (fun (t : Int × Tab Int) => (t.1 - at' p).natAbs) others with
  | some (_, r) => r
  | none => []

/-- A calibration record whose CRC fails (R472): a field set is lost; a set point written in the field falls back to the
factory record, and one without a valid factory record takes the nearest valid point. -/
def dropSet (s : State) (u p : Nat) : State :=
  let x := calUnit s u
  let s := setCal s u (if p = 5 then { x with field := none, stored := none }
    else if (Tab.find x.sets p).isSome then { x with sets := Tab.del x.sets p }
    else { x with sets := Tab.set x.sets p (nearestSet x p) })
  event s 0x103 439 u

/-- The boot nonce, the tree key and the first reseal challenge of this boot (R208, R220, R228): values drawn at random, free
here (assumption 1). -/
def drawKeys (s : State) : State :=
  let n0 := s.freeNow
  let n1 := Config.freeValue (s.free + 1) ++ Config.freeValue (s.free + 2) ++ Config.freeValue (s.free + 3) ++ Config.freeValue (s.free + 4)
  let n2 := Config.freeValue (s.free + 5)
  { s with free := s.free + 6, sealing := { s.sealing with bootNonce := n0, treeKey := n1, challenge := n2 } }.setWord
    SEL_RESEAL_CHALLENGE_ALL.addr n2

/-- Steps 1 to 4 of Table 21-1. -/
def release (s : State) (b : BootInput) : State :=
  let s := setBoot s { s.boot with stage := .checking }
  let held := s.power.bootEvents
  let s := setPower s { s.power with bootEvents := [] }
  let s := holdHeader { s with ruling := { s.ruling with running := true } }
  let s := (s.put RUL_PERIOD_PS b.localPs.toNat).putB PWR_STATE_SHUTDOWN (!s.pins.shutdownN)
  let s := loadShadows s b
  let s := captureStraps s b
  let s := s.each (List.range 8) overrideStrap
  let s := fuseState s (marginalList s b).isSome
  let s := applyStraps s
  let s := s.each (b.sensors.filter fun (i, _) => !absentSensor s.variant i) fun s (i, t) =>
    ((s.put (THM_SENSOR_TEMP i) t.toNat).put (THM_SENSOR_HIGHEST i) t.toNat).put (THM_SENSOR_VALID i) 1
  let s := s.drew.put THM_CTRL_THETA s.freeNow.toNat
  let s := { s with clocks := { s.clocks with oscLock := true } }
  let s := replayColophon s b
  let s := applyRepairs s
  let s := s.each b.badSets fun s (u, p) => dropSet s u p
  let s := drawKeys s
  let s := s.each held fun s (t, d) => event s t (heldSource t) d
  let sel := strap s 7
  let s := if sel = 3 then event s 0x141 440 else s
  if lifecycle s = 4 then
    let d := standbyPins (mainDiesLost s false)
    setBoot d { d.boot with stage := .stopped }
  else
    let order := if sel = 1 then [1, 0] else if sel = 2 then [] else [0, 1]
    bootClock (pumpDomains (setBoot s { s.boot with stage := if order.isEmpty then .training else .checking, order := order }))

/-- RESET_RELEASE (R557): both RESET_N and PWRGOOD have risen. -/
def execResetRelease (boot : BootInput) (s : State) : Host.Outcome State Fault Refusal :=
  .next (
    if s.power.rails = .up && s.boot.stage == .held && s.pins.resetN && !s.colophon.fatalShadow then release s boot else s)

/-! ### Firmware slots (R560, R561) -/

/-- One entry of a slot directory (Table 21-2). -/
structure SlotEntry where
  kind : Nat
  offset : Nat
  length : Nat
  digest : BitVec 256
  clean : Bool               -- its reserved bytes are zero
  deriving DecidableEq, Repr

def slotEntry (l : List (BitVec 8)) (i : Nat) : SlotEntry :=
  let o := 0x20 + 48 * i
  { kind := field l o 1, offset := field l (o + 4) 4, length := field l (o + 8) 4, digest := digestOf (slice l (o + 16) 32)
    clean := field l (o + 1) 3 == 0 && field l (o + 12) 4 == 0 }

def slotEntries (l : List (BitVec 8)) : List SlotEntry := (List.range (min (field l 6 2) 8)).map (slotEntry l)
/-- The bytes of an entry. -/
def entryBytes (l : List (BitVec 8)) (e : SlotEntry) : List (BitVec 8) := slice l e.offset e.length
/-- Length of the directory. -/
def directoryLength (l : List (BitVec 8)) : Nat := 0x20 + 48 * field l 6 2 + 1312 + 2420
def slotVendor (l : List (BitVec 8)) : Bool := bit (field l 0xC 2) 0
def slotVersion (l : List (BitVec 8)) : Nat := field l 8 4
def directoryKey (l : List (BitVec 8)) : List (BitVec 8) := slice l (0x20 + 48 * field l 6 2) 1312
/-- The loader's header is within its limits and its parts fill the entry. -/
def loaderOk (l : List (BitVec 8)) : Bool :=
  let code := field l 0 4
  decide (1 ≤ code) && decide (code ≤ 52428) && decide (field l 8 4 ≤ 262144) && field l 12 4 == 0
    && l.length == 16 + codeBytes code + field l 8 4

/-- The entries of a kind. -/
def ofKind (l : List (BitVec 8)) (k : Nat) : List SlotEntry := (slotEntries l).filter fun e => e.kind == k
/-- The base rubric image of a role. -/
def imageOfRole (l : List (BitVec 8)) (role : Nat) : Option SlotEntry :=
  (ofKind l 3).find? fun e => field (entryBytes l e) 0xC 2 == role

/-- What is wrong with the directory as a whole (R560). -/
def directoryBad (l : List (BitVec 8)) : Bool :=
  let es := slotEntries l
  let n := field l 6 2
  field l 0 4 != 0x444C5356 || field l 4 2 != 1 || (n != 7 && n != 8) || decide (2 ≤ field l 0xC 2) || field l 0xE 18 != 0
    || (ofKind l 1).length != 1 || (ofKind l 2).length != n - 7 || (ofKind l 3).length != 6
    || decide (3 * 2 ^ 20 < es.foldl (fun t e => t + e.length) 0)
    || (List.range 6).any fun i => (imageOfRole l (i + 1)).isNone

/-- What is wrong with one entry (R560). -/
def entryBad (l : List (BitVec 8)) (i : Nat) : Bool :=
  let e := slotEntry l i
  let others := (slotEntries l).zipIdx.filter fun (_, j) => j != i
  !e.clean || !(e.kind == 1 || e.kind == 2 || e.kind == 3) || e.offset % 4096 != 0 || decide (e.offset < 0x2000)
    || decide (2 ^ 26 < e.offset + e.length) || others.any fun (o, _) => decide (e.offset < o.offset + o.length) && decide (o.offset < e.offset + e.length)
    || (e.kind == 1 && !loaderOk (entryBytes l e)) || (e.kind == 2 && e.length != 4096)

/-- A base rubric image of a slot passes R356. -/
def slotImageOk (s : State) (l : List (BitVec 8)) (e : SlotEntry) : Bool :=
  let im := entryBytes l e
  let r := rubricOf im
  rubricLayoutOk im && decide (1 ≤ r.role) && r.vendor == slotVendor l
    && (match verifyImage s im r.vendor (r.writeGrant.getLsbD 4 || r.writeGrant.getLsbD 6) r.version with | .inr _ => true | .inl _ => false)

/-- The key slot a directory is signed under: vendor slots for VENDOR, owner slots otherwise, as the lifecycle accepts
(R561 check 3, Table 17-4). -/
def slotSigner (s : State) (l : List (BitVec 8)) : Option Nat :=
  let d := Config.sha3 (directoryKey l)
  let regions := if slotVendor l then [4, 5, 6] else if lifecycle s = 2 then [7, 8, 9, 10] else []
  regions.find? fun n => slotUsable s n && slotHash s n == d

/-- The checks of R561 in order: the first that fails, as (reason, entry or 0xFF), or none. -/
def checkSlot (s : State) (read : Option (List (BitVec 8))) : Option (Nat × Nat) :=
  match read with
  | none => some (1, 0xFF)
  | some l =>
    let n := field l 6 2
    if (l.take 32).all (· == 0xFF#8) then some (1, 0xFF)
    else match (if n = 7 ∨ n = 8 then (List.range n).find? (entryBad l) else none) with
      | some i => some (2, i)
      | none =>
        if directoryBad l then some (2, 0xFF)
        else if !Config.mldsaVerify (directoryKey l) (leBytes 32 (Config.sha3 (l.take (directoryLength l - 2420))).toNat)
            (slice l (directoryLength l - 2420) 2420) then some (3, 0xFF)
        else if (slotSigner s l).isNone then some (4, 0xFF)
        else if s.on FUS_STATUS_QUARANTINE && !slotVendor l then some (5, 0xFF)
        else if slotVersion l < s.get FUS_STATUS_MIN_SECURITY then some (6, 0xFF)
        else match (List.range n).find? fun i => Config.sha3 (entryBytes l (slotEntry l i)) != (slotEntry l i).digest with
          | some i => some (7, i)
          | none => ((List.range n).find? fun i => (slotEntry l i).kind == 3 && !slotImageOk s l (slotEntry l i)).map fun i => (8, i)

/-- DETAIL of a refusal (R561). -/
def refusalDetail (reason slot entry : Nat) : Nat := reason * 2 ^ 56 + slot * 2 ^ 48 + entry * 2 ^ 40

/-- The boot ROM has no slot left to try (R559, R563): training, or recovery when the towers are trained. -/
def noSlotLeft (s : State) : State :=
  if s.boot.trained then
    let s := setBoot s { s.boot with stage := .recovery, slot := none }
    if strap s 7 = 2 then s else event s 0x151 440
  else setBoot s { s.boot with stage := .training, slot := none }

/-- The next slot of the order is checked, if there is one. -/
def nextSlot (s : State) : State :=
  match s.boot.order with
  | [] => noSlotLeft s
  | _ => setBoot s { s.boot with stage := .checking, slot := none }

/-- Measurements 0 to 11 of an accepted slot (Table 21-5). -/
def bootMeasurements (s : State) (l : List (BitVec 8)) : List (BitVec 256) :=
  let fuse (n : Nat) := leBytes 8 ((s.word (FUS_REGION_STATE n).addr).toNat &&& 0xF3FFFC000000FFFF)
  let state := leBytes 8 ((s.word FUS_STATUS_LIFECYCLE.addr).toNat &&& 0xFFFFC0000000FFFF) ++ (List.range 14).flatMap fuse
  let part (k : Nat) := match ofKind l k with | e :: _ => entryBytes l e | [] => []
  let image (r : Nat) := match imageOfRole l r with | some e => entryBytes l e | none => []
  [Config.romDigest, Config.sha3 state, Config.sha3 (leBytes 2 s.boot.straps.toNat), Config.sha3 (l.take (directoryLength l)),
    Config.sha3 (part 2), Config.sha3 (part 1)] ++ (List.range 6).map fun i => Config.sha3 (image (i + 1))

/-- Apply a board profile (R565, Table 21-4). -/
def applyProfile (s : State) (p : List (BitVec 8)) : State :=
  let image (o : Nat) : BitVec 64 := BitVec.ofNat 64 (field p o 8)
  let s := deskWrite s none PRT_CTRL_PBR_ID.addr (image 8) true
  let s := deskWrite s none RUL_LINK_OUT_ENABLE.addr (image 16) true
  let s := deskWrite s none RUL_SOURCE_ORDER.addr (image 24) true
  s.each (List.range s.variant.ports) fun s p =>
    let lan := (image (32 + 16 * p) &&& 0xFFFFFFFFFFFFFFF9#64) ||| BitVec.ofNat 64 (2 * s.get (LAN_PORT_CTRL_HOLD_DETECT p))
    let s := deskWrite s none (LAN_PORT_CTRL_RETRAIN p).addr lan true
    let prt := image (40 + 16 * p)
    let prt := if s.get (PRT_PORT_CTRL_ROLE p) = 2 then (prt &&& 0xFFFFFFFFFFFFFFFC#64) ||| 2#64 else prt
    deskWrite s none (PRT_PORT_CTRL_ROLE p).addr prt true

/-- Step 6 of Table 21-1: the loader, region locks, the board profile, HOLD_DETECT, configuration requests. -/
def runSlot (s : State) (l : List (BitVec 8)) (slot : Nat) : State :=
  let signer := (slotSigner s l).getD 0
  let measured := bootMeasurements s l
  let firmware : Tab Rubric := (List.range 6).foldl (fun t i =>
    match imageOfRole l (i + 1) with
    | some e =>
      let im := entryBytes l e
      let r := rubricOf im
      let key := (signerOf s im r.vendor).getD 0
      Tab.set t (i + 1) { r with handle := i + 1, base := true, signer := key }
    | none => t) []
  let entries : Tab Nat := (slotEntries l).zipIdx.foldl (fun t (e, i) =>
    if e.kind = 3 then Tab.set t (field (entryBytes l e) 0xC 2) i else t) []
  let images : Tab (BitVec 256) := (List.range 6).foldl (fun t i => Tab.set t (i + 1) (measured.getD (6 + i) 0)) []
  let s := syncLoader { s with scribes := { s.scribes with firmware := firmware } }
  let s := s.put (FUS_REGION_READ_LOCK 2) 1
  let s := if 2 ≤ lifecycle s then s.each (List.range 7) fun s n => s.put (FUS_REGION_PROG_LOCK n) 1 else s
  let s := match ofKind l 2 with | e :: _ => applyProfile s (entryBytes l e) | [] => s
  let s := s.each ((List.range s.variant.ports).filter fun p => decide (s.get (PRT_PORT_CTRL_ROLE p) < 2)) fun s p =>
    showRest (s.put (LAN_PORT_CTRL_HOLD_DETECT p) 0) p
  setBoot s { s.boot with
    slot := some slot, security := slotVersion l, signer := signer, ready := true, measured := measured, images := images, entries := entries
    loader := measured.getD 5 0, stage := if s.boot.trained then .starting else .training }

/-- Check a slot and run it, or refuse it (R561, R567); `reread`: the loader's second reading gives its digest. -/
def trySlot (s : State) (read : Option (List (BitVec 8))) (slot : Nat) (reread : Bool) : State × Bool :=
  match checkSlot s read, read with
  | some (reason, entry), _ => (event s 0x150 440 (refusalDetail reason slot entry), false)
  | none, none => (s, false)
  | none, some l =>
    if reread then (runSlot s l slot, true) else
    let i := ((slotEntries l).findIdx? fun e => e.kind == 1).getD 0xFF
    (event s 0x153 440 (refusalDetail 9 slot i), false)

/-- SLOT_CHECK_COMPLETE (R561, R562): the slot at the front of the order. -/
def execSlotCheckComplete (slot : Option (List (BitVec 8))) (reread : Bool) (s : State) : Host.Outcome State Fault Refusal :=
  .next (
    if s.boot.stage ≠ .checking then s else
    match s.boot.order with
    | [] => s
    | n :: rest =>
      let s := setBoot s { s.boot with order := rest }
      let (s, accepted) := trySlot s slot n reread
      if accepted then s else nextSlot s)

/-- RECOVERY_PACKAGE_RECEIVED (R563): checked as slot 2 and run from step 6, or discarded. -/
def runPackage (s : State) (bytes : List (BitVec 8)) : State :=
  if s.boot.stage ≠ .recovery then s else
  let (s, accepted) := trySlot s (some bytes) 2 true
  if accepted then event s 0x152 440 else s

/-- RECOVERY_PACKAGE_RECEIVED (R563). -/
def execRecoveryPackageReceived (bytes : List (BitVec 8)) (s : State) : Host.Outcome State Fault Refusal :=
  .next (runPackage s bytes)

/-! ### Tower training (R564) -/

/-- The rows of a channel that wait for a repair row are given one, or, their bank having none left, are reported to the
Ductus with the event (R138, R83, R139). -/
def repairRows (s : State) (g : Nat) : State :=
  let rows := (chan s g).rowErrs.filter (·.pending)
  if rows.isEmpty then s else
  let s := s.each rows fun s r =>
    if outOfRepair s g r.bank then reportRow (event s 0x49 g (r.bank * 2 ^ 11 + r.row)) g r.bank r.row
    else
      let s := modChan s g fun c => { c with
        repairUsed := Tab.set c.repairUsed r.bank (Tab.at c.repairUsed r.bank 0 + 1)
        rowErrs := c.rowErrs.filter fun x => x != r }
      recordRepair s g 7 (r.bank * 2048 + r.row)
  showPending s g

/-- The remaps of R91 are in force from training on. -/
def applyRemap (s : State) (g : Nat) : State :=
  let d := s.get (CHN_DATA_TSV_FAILED_FAILED g)
  let ca := s.get (CHN_CA_TSV_FAILED_FAILED g)
  if d = 0 ∧ ca = 0 then s else modChan s g fun c => { c with applied := d, appliedCa := ca, caRepair := false }

/-- The result of a full calibration at boot (R469, R471): accepted, or rejected with the interpolated values in force. -/
def bootCal (s : State) (g : Nat) (temp : Int) (values : List (Nat × Int)) (limits : Bool) (drift : Nat) : State :=
  let r : Tab Int := values.foldl (fun t (v, z) => if v < 131 then Tab.put t v z 0 else t) []
  if limits && decide (drift ≤ 12) && withinSteps (calUnit s g) r then acceptResult s g temp r else rejectResult s g

/-- Interpolate a unit at the temperatures read (R463, R471). -/
def interpolate (s : State) (u : Nat) : State :=
  let x := calUnit s u
  let base := (unitValues u).foldl (fun t v => Tab.put t v (baseValue x v (drivingTemp s u v)) 0) []
  if base = x.base then s else setCal s u { x with base := base }

/-- Every line is blank, no leaf is placed and no counter line exists (R564). -/
def blankMedia (s : State) : State :=
  { s with
    media := [], ductus := { s.ductus with map := [], cache := [] }
    sealing := { s.sealing with counters := [], tree := [], cache := [], merge := [] } }

/-- The evacuation that a channel's state at boot orders (R93, R94): a field repair in force puts a channel into Erasure,
Slow-command or Retiring without an order of this boot. -/
def bootEvacuation (s : State) (g : Nat) : State :=
  match s.get (CHN_REPAIR_STATE_STATE g) with
  | 1 => orderEvacuation s { chan := g, hardOnly := true }
  | 2 | 4 => orderEvacuation s { chan := g }
  | _ => s

/-- The reserve at boot (R146): on a Retired channel no quire stays; a channel or rank that its repair state evacuates is
evacuated. -/
def bootReserve (s : State) : State :=
  let bad := (List.range s.variant.channels).filter fun g => s.get (CHN_REPAIR_STATE_STATE g) != 0
  let s := s.each (bad.filter fun g => s.get (CHN_REPAIR_STATE_STATE g) == 5) replaceQuires
  let s := s.each bad bootEvacuation
  let s := s.each (List.range s.variant.channels) fun s g =>
    if retiredRanks s g = 0 then s else
    s.each ((List.range s.variant.layers).filter fun r => !rankOk s g r) fun s r => orderEvacuation s { chan := g, rank := some r }
  if bad.isEmpty then s else finishEvacuations s

/-- Training and blanking (R564, R211, R218): every leaf free, every line blank. -/
def trainTowers (s : State) (f : TrainingInput) : State :=
  let cs := List.range s.variant.channels
  let s := s.each (calUnits s) interpolate
  let s := if s.variant = .v4384 then s else
    s.each (f.cals.filter fun x => decide (x.1.val < s.variant.channels)) fun s x => bootCal s x.1 x.2.1 x.2.2.1 x.2.2.2.1 x.2.2.2.2
  let s := s.each (f.tsvs.filter fun x => decide (x.1.val < s.variant.channels)) fun s (g, ca, t) =>
    if ca then (if t.val < 15 then declareCa s g t else s) else declareData s g t
  let s := s.each cs applyRemap
  let s := s.each (f.spares.filter fun g => decide (g.val < s.variant.channels)) fun s g =>
    if s.get (CHN_REPAIR_STATE_SPARE_STATE g.val) = 2 then s else spareTestFails s g
  let s := s.each f.dies fun s (t, l) => dieStops s t l
  let s := bootReserve (blankMedia (s.each cs repairRows))
  setBoot ((s.put DCT_CTRL_MAP_READY 1).put SEL_CTRL_TREE_READY 1) { s.boot with trained := true }

/-- TOWER_TRAINING_COMPLETE (R564). -/
def execTowerTrainingComplete (found : TrainingInput) (s : State) : Host.Outcome State Fault Refusal :=
  .next (
    if s.boot.stage ≠ .training then s else
    let s := trainTowers s found
    if s.boot.slot.isSome then setBoot s { s.boot with stage := .starting } else noSlotLeft s)

/-! ### Base rubrics and Memory_Active (R567, R568) -/

/-- The Scribe of each base rubric, roles 1 to 6 (Table 11-5). -/
def baseScribe (role : Nat) : Nat := [0, 2, 1, 3, 4, 5, 0].getD role 0

/-- A register returns to its reset value. -/
def putBack (s : State) (a : Nat) : State := s.setWord a (resetAt s.variant a)

/-- A board profile's registers return to their reset values, when the slot that set them has been refused (R567). -/
def undoProfile (s : State) : State :=
  let s := putBack (putBack s PRT_CTRL_PBR_ID.addr) RUL_LINK_OUT_ENABLE.addr
  let order := [0xE4, 0xE1, 0xD2, 0xFF].getD (strap s 2) 0xE4
  let s := (putBack s RUL_SOURCE_ORDER.addr).put RUL_SOURCE_ORDER order
  s.each (List.range s.variant.ports) fun s p =>
    let s := if s.get (PRT_PORT_CTRL_ROLE p) = 2 then s else writePortCtrl s p (resetAt s.variant (PRT_PORT_CTRL_ROLE p).addr)
    putBack s (LAN_PORT_CTRL_RETRAIN p).addr

/-- Every Scribe is reset and nothing that a refused slot started is kept (R567). -/
def resetScribes (s : State) : State :=
  let s := s.each (List.range 8) fun s k => setCore (s.setWord (MBX_SCRIBE_HANDLE k).addr 0) k {}
  let s := { s with rubrics := [], scribes := { nextHandle := s.scribes.nextHandle, boxes := s.scribes.boxes } }
  setBoot (undoProfile s) { s.boot with
    slot := none, security := 0, signer := 0, ready := false, measured := [], images := [], loader := 0 }

/-- BASE_RUBRICS_START (R567, R352): the images are read again and started, or the slot is refused with REREAD. -/
def execBaseRubricsStart (changed : List (Fin 6)) (s : State) : Host.Outcome State Fault Refusal :=
  .next (
    if s.boot.stage ≠ .starting then s else
    match changed with
    | r :: _ => nextSlot (resetScribes (event s 0x153 440 (refusalDetail 9 (s.boot.slot.getD 0) (Tab.at s.boot.entries (r.val + 1) 0xFF))))
    | [] =>
      let s := s.each [1, 2, 3, 4, 5, 6] fun s role => loadBase s role (baseScribe role)
      setBoot s { s.boot with stage := .activating })

/-- MEMORY_ACTIVE (R568, R429, Table 21-6): on the line after placement and regulation have started; with SHUTDOWN_N low
the node then enters Capped. -/
def execMemoryActive (ms : BitVec 32) (s : State) : Host.Outcome State Fault Refusal :=
  .next (
    let started (role : Nat) := match Tab.find s.rubrics role with | some r => decide (r.started < s.ruling.gen) | none => false
    if s.boot.stage ≠ .activating || !baseRuns s 1 || !baseRuns s 2 || !started 1 || !started 2 then s else
    let slot := s.boot.slot.getD 0
    let s := setBoot s { s.boot with stage := .running, active := true }
    let s := event s 0x154 440 (slot * 2 ^ 56 + ms.toNat)
    let s := if 2500 < ms.toNat ∧ slot ≠ 2 then event s 0x155 440 ms.toNat else s
    if s.on PWR_STATE_SHUTDOWN then leaveFor (setPower s { s.power with capByPin := true }) stCapped 2 else s)

end Sys2Proof.Machine
end

