-- ==== Sys2Proof/Machine/Management.lean ====
section
/-! DEFINITION. Management (chapter 22): the MCTP endpoint and its control messages (R572 to R574), and the vendor-defined
commands (R575 to R578). -/

namespace Sys2Proof.Machine

def setMgmt (s : State) (m : Mgmt) : State := { s with mgmt := m }

/-! ### The endpoint (R572, R573) -/

/-- Binding of a message: 0 MGMT0, 1 CXL.io. -/
def bindingOf (e : Envelope) : Nat := if e.vdm.isNone then 0 else 1

/-- The binding is addressed: by its EID, or, for a control message, by EID 0 (R573). -/
def addressed (s : State) (e : Envelope) (control : Bool) : Bool :=
  match Tab.find s.mgmt.eid (bindingOf e) with
  | none => control && e.eid == 0
  | some x => e.eid.toNat == x || (control && e.eid == 0)

/-- Take a message: one over 4,096 bytes is dropped, one for another endpoint is not ours. -/
def takeMessage (s : State) (e : Envelope) (control : Bool) (f : State → State) : State :=
  if 4096 < e.size then inkEvent s 0x165 441 0 else if addressed s e control then f s else s

/-- A message arrives (R573): nothing runs in Off; on CXL.io only at function 1 of LD 0 of sub-link 0 of a Host port; a
message over 4,096 bytes is dropped (Table 22-6). `both`: its type is served on CXL.io too. -/
def accept (s : State) (e : Envelope) (control both : Bool) (f : State → State) : State :=
  if s.power.rails = .off then s else
  match e.vdm with
  | none => takeMessage s e control f
  | some (p, k, d, fn) =>
    if s.power.rails ≠ .up || s.fatal || !linkUp s p k || decide (2 ≤ s.get (PRT_PORT_CTRL_ROLE p)) then s
    else if s.get (PRT_PORT_CTRL_ROLE p) ≠ 0 || k ≠ 0 || d ≠ 0 || fn ≠ 1 then notice s 441
    else if both then takeMessage s e control f else s

/-- The base management rubric serves what Table 22-1 serves in Capped and Writing only. -/
def rubricServes (s : State) : Bool :=
  s.power.rails == .up && !s.fatal && (powerState s == stCapped || powerState s == stWriting) && managementReady s

/-- A control message (R574): served in every state but Off. -/
def control (s : State) (e : Envelope) (f : State → State) : State := accept s e true true f

/-- SET_ENDPOINT_ID (R573): the bus owner sets the binding's EID; 0, 255 and the values MCTP reserves are refused. -/
def execSetEndpointId (env : Envelope) (eid : BitVec 8) (s : State) : Host.Outcome State Fault Refusal :=
  .next (control s env fun s =>
    if eid.toNat < 8 ∨ eid.toNat = 255 then s.send (.answer "ERROR_INVALID_DATA" 0 [])
    else (setMgmt s { s.mgmt with eid := Tab.set s.mgmt.eid (bindingOf env) eid.toNat }).send (.answer "SET_ENDPOINT_ID" 0 [eid.toNat]))

/-- GET_ENDPOINT_ID (R573): 0 until it is set. -/
def execGetEndpointId (env : Envelope) (s : State) : Host.Outcome State Fault Refusal :=
  .next (control s env fun s => s.send (.answer "GET_ENDPOINT_ID" 0 [Tab.at s.mgmt.eid (bindingOf env) 0]))

/-- GET_ENDPOINT_UUID (R573). -/
def execGetEndpointUuid (env : Envelope) (s : State) : Host.Outcome State Fault Refusal :=
  .next (control s env fun s => s.send (.answer "GET_ENDPOINT_UUID" 0 [Config.endpointUuid.toNat]))

/-- Message types of Table 22-1. -/
def messageTypes : List Nat := [0, 1, 5, 6, 7, 0x7E]

/-- GET_MCTP_VERSION_SUPPORT (R573): MCTP 1.3; what the other types answer the spec does not say, a free value. -/
def execGetMctpVersionSupport (env : Envelope) (type : BitVec 8) (s : State) : Host.Outcome State Fault Refusal :=
  .next (control s env fun s =>
    if type = 0 ∨ type = 0xFF#8 then s.send (.answer "GET_MCTP_VERSION_SUPPORT" 0 [1, 3])
    else if messageTypes.contains type.toNat then s.drew.send (.answer "GET_MCTP_VERSION_SUPPORT" 0 [s.freeNow.toNat])
    else s.send (.answer "ERROR_TYPE_NOT_SUPPORTED" 0 []))

/-- GET_MESSAGE_TYPE_SUPPORT (R574): every type of Table 22-1, whatever the state. -/
def execGetMessageTypeSupport (env : Envelope) (s : State) : Host.Outcome State Fault Refusal :=
  .next (control s env fun s => s.send (.answer "GET_MESSAGE_TYPE_SUPPORT" 0 messageTypes))

/-- GET_VENDOR_DEFINED_MESSAGE_SUPPORT (R573): Tuofort's PCI vendor ID, whose value is free (assumption 26). -/
def execGetVendorDefinedMessageSupport (env : Envelope) (s : State) : Host.Outcome State Fault Refusal :=
  .next (control s env fun s => s.drew.send (.answer "GET_VENDOR_DEFINED_MESSAGE_SUPPORT" 0 [s.freeNow.toNat % 65536]))

/-- The management address base (R572). -/
def addressBase (s : State) : Nat := strap s 3
/-- MGMT0 is in I3C Basic mode (Table 20-7). -/
def i3cMode (s : State) : Bool := strap s 6 == 1

/-- SETDASA (R572): the static address 0x64 + b takes the dynamic address. -/
def execSetdasa (static dynamic : BitVec 7) (s : State) : Host.Outcome State Fault Refusal :=
  .next (
    if s.power.rails = .off || !i3cMode s || static.toNat ≠ 0x64 + addressBase s then s
    else setMgmt s { s.mgmt with address := some dynamic.toNat })

/-- Part number of the provisional ID (R572). -/
def partNumber (v : Variant) : Nat := match v with | .v4384 => 0x4384 | .v4192 => 0x4192 | .v2096 => 0x2096

/-- ENTDAA (R572): a node without a dynamic address answers with its provisional ID and takes the address assigned. -/
def execEntdaa (assigned : BitVec 7) (s : State) : Host.Outcome State Fault Refusal :=
  .next (
    if s.power.rails = .off || !i3cMode s || s.mgmt.address.isSome then s
    else (setMgmt s { s.mgmt with address := some assigned.toNat }).send
      (.answer "ENTDAA" 0 [Config.mipiManufacturer.toNat, partNumber s.variant, addressBase s]))

/-! ### Vendor-defined commands (R575, Table 22-2) -/

def vmOk : Nat := 0
def vmNotReady : Nat := 1
def vmInvalid : Nat := 2
def vmRefused : Nat := 3
def vmBusy : Nat := 4

/-- A vendor-defined response: the command byte and the tag echoed, the status, then data. -/
def vendorAnswer (s : State) (name : String) (cmd : Nat) (tag : BitVec 16) (status : Nat) (data : List Nat) : State :=
  s.send (.answer name status ([cmd, tag.toNat] ++ data))

/-- A vendor-defined command (MGMT0 only, Table 22-1). -/
def vendorCommand (s : State) (e : Envelope) (f : State → State) : State := accept s e false false f

/-- One that the management rubric serves (Table 22-2). -/
def rubricCommand (s : State) (e : Envelope) (name : String) (cmd : Nat) (tag : BitVec 16) (f : State → State) : State :=
  vendorCommand s e fun s => if rubricServes s then f s else vendorAnswer s name cmd tag vmNotReady []

/-- Whole items of a list that fit in `n` bytes. -/
def fitting : Nat → List (List (BitVec 8)) → List (List (BitVec 8))
  | _, [] => []
  | n, x :: rest => if x.length ≤ n then x :: fitting (n - x.length) rest else []

/-- Bytes of a boost bucket's place in a checkpoint: seconds powered and at peak of a cluster (R453, Table 19-4). -/
def boostAt (s : State) (l : Life) (c i : Nat) : Nat × Nat :=
  let today := boostDay s
  let d := (List.range 30).find? fun k => decide (k ≤ today) && Config.boostPlace (today - k) % 30 == i
  match d with
  | some k => let (p, q) := Tab.at l.boost (2 ^ 24 * c + (today - k)) (0, 0); (p / 1000, q / 1000)
  | none => (0, 0)

/-- The bytes of a checkpoint before its CRC (Table 19-4). -/
def checkpointBody (s : State) (k : Checkpoint) : List (BitVec 8) :=
  let l := k.life
  let head := leBytes 8 k.generation ++ leBytes 8 k.calendar ++ leBytes 8 k.time.toNat ++ leBytes 8 l.seconds
    ++ leBytes 8 (l.joules / 1000)
  let counts := [l.vinFaults, l.thermtrips, l.fatals, l.unrecorded, l.cycles].flatMap (leBytes 4)
  let hist := (List.range (71 * 16)).flatMap fun i => leBytes 4 (Tab.at l.hist i 0)
  let boost := (List.range 480).flatMap fun i => let (p, q) := boostAt s l (i / 30) (i % 30); leBytes 4 p ++ leBytes 4 q
  let repair := (List.range 256).flatMap fun g =>
    let (a, d, c) := Tab.at l.repair g (0, 0, 0)
    leBytes 8 a.toNat ++ leBytes 8 d.toNat ++ leBytes 8 c.toNat
  let rows := (List.range (256 * 136)).map fun i =>
    BitVec.ofNat 8 (Tab.at l.rowRepairs (2 * i) 0 + 16 * Tab.at l.rowRepairs (2 * i + 1) 0)
  let ports := (List.range 64).flatMap fun p =>
    let (a, b, c, d) := Tab.at l.portCounts p (0, 0, 0, 0)
    [a, b, c, d].flatMap (leBytes 4)
  head ++ counts ++ hist ++ boost ++ repair ++ rows ++ ports

/-- A byte string with its CRC-32 at its end. -/
def withCrc (l : List (BitVec 8)) : List (BitVec 8) := l ++ leBytes 4 (Config.crc32 l).toNat

/-- The bytes of the marginal list (R530). -/
def marginalBytes (l : List (Nat × Nat × Nat)) : List (BitVec 8) :=
  withCrc (leBytes 4 l.length ++ l.flatMap fun (w, t, v) => leBytes 4 (w + t * 1024) ++ leBytes 4 v)

/-- The newest checkpoint copy. -/
def newestCheckpoint (s : State) : Option Checkpoint :=
  match s.colophon.copyA, s.colophon.copyB with
  | some x, some y => some (if x.generation < y.generation then y else x)
  | some x, none => some x
  | none, y => y

/-- What COLOPHON_READ returns: the sequence or offset that follows, and bytes. The layout of the calibration area is not
the spec's: its bytes are free values (assumption 43). -/
def colophonArea (s : State) (area start most : Nat) : Nat × List (BitVec 8) :=
  let ofBytes (l : List (BitVec 8)) : Nat × List (BitVec 8) := let x := slice l start most; (start + x.length, x)
  let ofRing (l : List (Nat × List (BitVec 8))) : Nat × List (BitVec 8) :=
    let l := l.filter fun x => decide (start ≤ x.1)
    let x := fitting most (l.map (·.2))
    ((match (l.take x.length).getLast? with | some r => r.1 + 1 | none => start), x.flatten)
  if area = 0 then ofBytes (match newestCheckpoint s with | some k => withCrc (checkpointBody s k) | none => [])
  else if area = 1 then ofRing (s.colophon.minuteRing.map fun r => (r.seq, r.bytes s))
  else if area = 2 then ofRing (s.colophon.eventRing.map fun r => (r.seq, r.bytes s))
  else if area = 3 then ofBytes (match s.colophon.marginalA.orElse fun _ => s.colophon.marginalB with
    | some l => marginalBytes l | none => [])
  else if area = 4 then
    let n := min most (768 * 1024 - start)
    (start + n, (List.range n).map fun i => Config.recordPad s.free i)
  else ofRing (s.blotter.log.map fun r => (r.seq, recordBytes s r))

/-- COLOPHON_READ (R533, R575): committed bytes and records, in every state but Off; the Blotter log ring only while the
island is up. -/
def execColophonRead (env : Envelope) (tag : BitVec 16) (area : BitVec 8) (start : BitVec 32) (most : BitVec 16) (s : State) :
    Host.Outcome State Fault Refusal :=
  .next (vendorCommand s env fun s =>
    if 5 < area.toNat ∨ most.toNat < 64 ∨ 4032 < most.toNat then vendorAnswer s "COLOPHON_READ" 1 tag vmInvalid []
    else if area = 5 ∧ s.power.rails ≠ .up then vendorAnswer s "COLOPHON_READ" 1 tag vmNotReady []
    else
      let (next, bytes) := colophonArea s area.toNat start.toNat most.toNat
      let s := if area = 4 then s.drew else s
      vendorAnswer s "COLOPHON_READ" 1 tag vmOk (next % 2 ^ 32 :: bytes.map BitVec.toNat))

/-- POWER (R575): as PWR_REQUEST, and as a wake source; a command to Quiet cancels an update that transfers (Table 22-6). -/
def execPower (env : Envelope) (tag : BitVec 16) (target : BitVec 8) (s : State) : Host.Outcome State Fault Refusal :=
  .next (vendorCommand s env fun s =>
    let t := target.toNat
    if t ≠ stQuiet ∧ t ≠ stCapped ∧ t ≠ stWriting then vendorAnswer s "POWER" 2 tag vmInvalid []
    else if s.power.rails ≠ .up then vendorAnswer s "POWER" 2 tag vmNotReady []
    else
      let transferring : Bool := match s.mgmt.update with | some u => u.stage == .downloading | none => false
      let s := if t = stQuiet ∧ transferring then event (setMgmt s { s.mgmt with update := none }) 0x163 441 else s
      vendorAnswer (requestState s t 5) "POWER" 2 tag vmOk [])

/-- INKWELL_ARM (R577): a nonce, whose value is free (assumption 1). -/
def execInkwellArm (env : Envelope) (tag : BitVec 16) (s : State) : Host.Outcome State Fault Refusal :=
  .next (vendorCommand s env fun s =>
    let n := s.freeNow.truncate 32
    vendorAnswer (setMgmt s.drew { s.mgmt with armed := some n }) "INKWELL_ARM" 3 tag vmOk [n.toNat])

/-- An Inkwell cycle (R420, R429, R520, R577): the rails are removed for 100 ms and the Fatal latch clears. -/
def inkwellCycle (s : State) : State :=
  let s := setCol s { s.colophon with fatalShadow := false, lockCycled := true }
  let s := toStandby s 0xA
  setPower s { s.power with cycling := true }

/-- INKWELL_CYCLE (R577): the nonce of the last INKWELL_ARM, once, within 1 s of it (`inTime`). -/
def execInkwellCycle (env : Envelope) (tag : BitVec 16) (nonce : BitVec 32) (inTime : Bool) (s : State) :
    Host.Outcome State Fault Refusal :=
  .next (vendorCommand s env fun s =>
    if s.mgmt.armed = some nonce ∧ inTime then
      inkwellCycle (vendorAnswer (setMgmt s { s.mgmt with armed := none }) "INKWELL_CYCLE" 4 tag vmOk [])
    else
      vendorAnswer (inkEvent s.drew 0x166 441 0) "INKWELL_CYCLE" 4 tag vmRefused [s.freeNow.toNat % 256])

/-! ### Owner provisioning and the rollback minimum (R576, R578) -/

/-- Bytes of a text. -/
def textBytes (t : String) : List (BitVec 8) := t.toList.map fun c => BitVec.ofNat 8 c.toNat

/-- The identity seed UDS: fuse words 385 to 392 (R583). -/
def udsBytes (s : State) : List (BitVec 8) := (List.range 8).flatMap fun i => leBytes 4 (shadowValue s (385 + i))

/-- The DeviceID public key (Table 22-4). -/
def deviceKey (s : State) : List (BitVec 8) := Config.mldsaPublic (Config.sha3 (textBytes "VYT-DEVICE" ++ udsBytes s))

/-- OWNER_CHALLENGE (R576). -/
def execOwnerChallenge (env : Envelope) (tag : BitVec 16) (slot : BitVec 8) (s : State) : Host.Outcome State Fault Refusal :=
  .next (rubricCommand s env "OWNER_CHALLENGE" 0x10 tag fun s =>
    if 4 ≤ slot.toNat then vendorAnswer s "OWNER_CHALLENGE" 0x10 tag vmInvalid [] else
    let c := s.freeNow
    vendorAnswer (setMgmt s.drew { s.mgmt with challenge := some (slot.toNat, c) }) "OWNER_CHALLENGE" 0x10 tag vmOk [c.toNat])

/-- Program words one after another, each with how it goes; a word without a run reads back clean. Stops at the first word
that does not reach DONE: the last status. -/
def programAll (p : Programmer) (pump : Bool) : State → List (Nat × Nat) → List WordRun → State × Nat
  | s, [], _ => (s, 2)
  | s, (w, d) :: rest, runs =>
    let (s, st) := programWord s p w d pump
    if st ≠ 1 then (s, st) else
    let clean : FuseReading := { data := BitVec.ofNat 32 d, corrected := false, uncorrectable := false, marginal := false, blank := false }
    let r := runs.headD { reading := clean }
    let (s, st) := programmed s r.stopped r.reading
    if st = 2 then programAll p pump s rest (runs.drop 1) else (s, st)

/-- The vendor's authorisation (R576): a usable vendor slot's key verifies over the digest of the message. -/
def vendorAuthorises (s : State) (o : Nat) (hash : BitVec 256) (signature : List (BitVec 8)) : Bool :=
  match s.mgmt.challenge with
  | none => false
  | some (_, c) =>
    let m := textBytes "VYT-OWNER" ++ leBytes 32 (Config.sha3 (deviceKey s)).toNat ++ leBytes 1 o ++ leBytes 32 hash.toNat ++ leBytes 8 c.toNat
    let digest := leBytes 32 (Config.sha3 m).toNat
    [4, 5, 6].any fun n => slotUsable s n && Config.mldsaVerify (Config.slotPublic (slotHash s n)) digest signature

/-- The words of an owner slot (R479, R576): manifest, hash, lock. -/
def ownerWords (o : Nat) (hash : BitVec 256) : List (Nat × Nat) :=
  let a := (regionSpan (7 + o)).1
  (a, (7 + o) * 2 ^ 24 + 2 ^ 16 + 9) :: ((List.range 8).map fun i => (a + 1 + i, hash.toNat / 2 ^ (32 * i) % 2 ^ 32)) ++ [(1008 + 7 + o, 1)]

/-- OWNER_PROVISION (R576). -/
def execOwnerProvision (env : Envelope) (tag : BitVec 16) (slot : BitVec 8) (hash : BitVec 256) (signature : List (BitVec 8))
    (pump : Bool) (runs : List WordRun) (s : State) : Host.Outcome State Fault Refusal :=
  .next (rubricCommand s env "OWNER_PROVISION" 0x11 tag fun s =>
    let o := slot.toNat
    if 4 ≤ o ∨ signature.length ≠ 2420 then vendorAnswer s "OWNER_PROVISION" 0x11 tag vmInvalid [] else
    let good := vendorAuthorises s o hash signature
    let s := setMgmt s { s.mgmt with challenge := none }
    if !good then vendorAnswer (event s 0x166 441) "OWNER_PROVISION" 0x11 tag vmRefused [1]
    else if !programAllowed s .authorised (regionSpan (7 + o)).1 (7 + o) 0 then vendorAnswer s "OWNER_PROVISION" 0x11 tag vmRefused [2]
    else
      let (s, st) := programAll .authorised pump s (ownerWords o hash) runs
      vendorAnswer s "OWNER_PROVISION" 0x11 tag vmOk [st])

/-- A slot passes checks 1 to 6 of R561. -/
def passesSix (s : State) (slot : Option (List (BitVec 8))) : Bool :=
  match checkSlot s slot with | none => true | some (r, _) => r == 8

/-- The Scribe of the management rubric. -/
def managementScribe (s : State) : Option (Fin 8) :=
  (List.finRange 8).find? fun k => s.get (MBX_SCRIBE_ROLE k) == 6 && s.get (MBX_SCRIBE_HANDLE k) != 0

/-- ROLLBACK_RAISE (R578): the slots as the flash holds them. -/
def execRollbackRaise (env : Envelope) (tag : BitVec 16) (version : BitVec 16) (slotA slotB : Option (List (BitVec 8))) (pump : Bool)
    (runs : List WordRun) (s : State) : Host.Outcome State Fault Refusal :=
  .next (rubricCommand s env "ROLLBACK_RAISE" 0x12 tag fun s =>
    let v := version.toNat
    let enough (x : Option (List (BitVec 8))) : Bool := passesSix s x && (match x with | some l => decide (v ≤ slotVersion l) | none => false)
    if v < 1 ∨ 256 < v then vendorAnswer s "ROLLBACK_RAISE" 0x12 tag vmInvalid []
    else if s.mgmt.update.isSome then vendorAnswer (event s 0x162 441) "ROLLBACK_RAISE" 0x12 tag vmRefused [4]
    else if decide (s.boot.security < v) || !enough slotA || !enough slotB || s.on FUS_STATUS_QUARANTINE then vendorAnswer s "ROLLBACK_RAISE" 0x12 tag vmRefused [3]
    else
      let now := s.get FUS_STATUS_MIN_SECURITY
      let words := (List.range (v - now)).map fun i => (512 + now + 1 + i, 1)
      let (s, _) := programAll (programmerOf s (managementScribe s)) pump s words runs
      let s := if now < s.get FUS_STATUS_MIN_SECURITY then event s 0x168 441 (s.get FUS_STATUS_MIN_SECURITY) else s
      vendorAnswer s "ROLLBACK_RAISE" 0x12 tag vmOk [s.get FUS_STATUS_MIN_SECURITY])

end Sys2Proof.Machine
end

