-- ==== Sys2Proof/Machine/FmApi.lean ====
section
/-! DEFINITION. The CXL FM API (R585). -/

namespace Sys2Proof.Machine

/-- An FM API command: MGMT0, in Capped and Writing; otherwise return code Busy (R574). -/
def fmApi (s : State) (e : Envelope) (f : State → State) : State :=
  accept s e false false fun s => if rubricServes s then f s else s.send (.answer "FM_BUSY" 0 [])

/-- An FM API command about a Host port that the variant has. -/
def fmPort (s : State) (e : Envelope) (p : Nat) (f : State → State) : State :=
  fmApi s e fun s => if p < s.variant.ports ∧ s.get (PRT_PORT_CTRL_ROLE p) = 0 then f s else s.send (.answer "FM_INVALID_INPUT" 0 [])

/-- IDENTIFY (R585): Tuofort's vendor ID and what CXL identifies a component by, a free value (assumption 26). -/
def execIdentify (env : Envelope) (s : State) : Host.Outcome State Fault Refusal :=
  .next (fmApi s env fun s => s.drew.send (.answer "IDENTIFY" 0 [s.freeNow.toNat % 65536]))

/-- BACKGROUND_OPERATION_STATUS (R585): an extent add is the one background operation. -/
def execBackgroundOperationStatus (env : Envelope) (s : State) : Host.Outcome State Fault Refusal :=
  .next (fmApi s env fun s => s.send (.answer "BACKGROUND_OPERATION_STATUS" 0 [b2n s.fabric.adding.isSome, s.get PRT_EXTENT_STATUS_STATUS]))

/-- GET_LD_INFO (R585): memory size in bytes and number of LDs of the port. -/
def execGetLdInfo (env : Envelope) (port : Fin 64) (s : State) : Host.Outcome State Fault Refusal :=
  .next (fmPort s env port fun s =>
    let lds := (List.range 16).filter fun d => s.on (PRT_LD_VALID port d)
    s.send (.answer "GET_LD_INFO" 0 [s.variant.leaves * 4096, lds.length]))

/-- GET_LD_ALLOCATIONS (R585): quires held by each LD of the port. -/
def execGetLdAllocations (env : Envelope) (port : Fin 64) (s : State) : Host.Outcome State Fault Refusal :=
  .next (fmPort s env port fun s =>
    s.send (.answer "GET_LD_ALLOCATIONS" 0 ((List.range 16).map fun d =>
      (s.fabric.holders.filter fun (_, l) => l.contains (16 * port.val + d)).length)))

/-- GET_DCD_INFO (R585): total dynamic capacity in quires, and 8 regions for each LD. -/
def execGetDcdInfo (env : Envelope) (s : State) : Host.Outcome State Fault Refusal :=
  .next (fmApi s env fun s => s.send (.answer "GET_DCD_INFO" 0 [s.variant.leaves / 512, 8]))

/-- GET_HOST_DC_REGION_CONFIGURATION (R585): the PRT_DC_REGION words of an LD. -/
def execGetHostDcRegionConfiguration (env : Envelope) (port : Fin 64) (ld : Fin 16) (s : State) : Host.Outcome State Fault Refusal :=
  .next (fmPort s env port fun s =>
    s.send (.answer "GET_HOST_DC_REGION_CONFIGURATION" 0 ((List.range 8).map fun r =>
      (s.word (PRT_DC_REGION_VALID (16 * port.val + ld.val) r).addr).toNat)))

/-- SET_DC_REGION_CONFIGURATION (R585): through PRT_DC_REGION, under R276. -/
def execSetDcRegionConfiguration (env : Envelope) (port : Fin 64) (ld : Fin 16) (region : Fin 8) (value : BitVec 64) (s : State) :
    Host.Outcome State Fault Refusal :=
  .next (fmPort s env port fun s =>
    (writeRegion s port ld region value).send (.answer
      (if regionRefused s port ld region value then "FM_INVALID_INPUT" else "SET_DC_REGION_CONFIGURATION") 0 []))

/-- GET_DC_REGION_EXTENT_LISTS (R585): the quires an LD holds. -/
def execGetDcRegionExtentLists (env : Envelope) (port : Fin 64) (ld : Fin 16) (s : State) : Host.Outcome State Fault Refusal :=
  .next (fmPort s env port fun s =>
    s.send (.answer "GET_DC_REGION_EXTENT_LISTS" 0 ((s.fabric.holders.filter fun (_, l) => l.contains (16 * port.val + ld.val)).map (·.1))))

/-- PRT_EXTENT_STATUS as an FM API return code (R585): Busy while a command runs (Table 22-6). -/
def fmExtent (s : State) (name : String) (r : State × Nat) : State :=
  if r.2 = 5 then s.send (.answer "FM_BUSY" 0 [])
  else if r.2 = 4 then (extentStatus r.1 4).send (.answer "FM_INVALID_INPUT" 0 [])
  else if r.2 = 6 then (extentStatus r.1 6).send (.answer "FM_RESOURCES_EXHAUSTED" 0 [])
  else (extentStatus r.1 r.2).send (.answer name 0 [r.2])

/-- INITIATE_DYNAMIC_CAPACITY_ADD (R585, R277): through PRT_EXTENT_CMD. -/
def execInitiateDynamicCapacityAdd (env : Envelope) (value : BitVec 64) (s : State) : Host.Outcome State Fault Refusal :=
  .next (fmApi s env fun s => fmExtent s "INITIATE_DYNAMIC_CAPACITY_ADD" (addExtent s (extentOf value)))

/-- INITIATE_DYNAMIC_CAPACITY_RELEASE (R585, R279). -/
def execInitiateDynamicCapacityRelease (env : Envelope) (value : BitVec 64) (s : State) : Host.Outcome State Fault Refusal :=
  .next (fmApi s env fun s => fmExtent s "INITIATE_DYNAMIC_CAPACITY_RELEASE" (askRelease s (extentOf value)))

end Sys2Proof.Machine
end

