-- ==== Sys2Proof/Machine/Pldm.lean ====
section
/-! DEFINITION. PLDM (R579 to R581): sensors and platform events, and firmware update. -/

namespace Sys2Proof.Machine

/-! ### Sensors (R579, Table 22-3) -/

def numericSensors : List Nat := [1, 2, 3, 4, 5] ++ (List.range 21).map (16 + ·) ++ [41]
def stateSensors : List Nat := [6, 7, 40, 42]

/-- A sensor of an absent cluster or tower is not reported (R3). -/
def sensorPresent (s : State) (n : Nat) : Bool :=
  (numericSensors ++ stateSensors).contains n
    && !(decide (17 ≤ n) && decide (n < 33) && decide (s.variant.clusters ≤ n - 17))
    && !(decide (33 ≤ n) && decide (n < 37) && decide (s.variant.towers ≤ n - 33))

/-- Table 22-1: sensors 1 to 7 in every state, the others in Capped and Writing. -/
def sensorServed (s : State) (n : Nat) : Bool := decide (n ≤ 7) || rubricServes s

/-- The higher of two 12-bit temperatures. -/
def hotter (a b : Nat) : Nat := if signed 12 a < signed 12 b then b else a

/-- What a sensor's source shows, as the source register codes it; a state sensor's state. -/
def sensorSource (s : State) (n : Nat) : Nat :=
  if n = 1 then s.get PWR_INK_VIN
  else if n = 2 then s.get PWR_INK_POWER
  else if n = 3 then s.get PWR_INK_INK_CURRENT
  else if n = 4 then s.get (THM_SENSOR_TEMP 368)
  else if n = 5 then s.get (THM_SENSOR_TEMP 369)
  else if n = 6 then (match s.power.rails with | .off => 0 | .standby => 1 | .up => s.get PWR_STATE_STATE)
  else if n = 7 then b2n s.colophon.fatalShadow
  else if n = 16 then (((List.range 64).map (32 + ·)).filter fun i => !absentSensor s.variant i).foldl
    (fun m i => hotter m (s.get (THM_SENSOR_TEMP i))) 0x800
  else if n < 33 then satSigned 12 (clusterTemp s (n - 17))
  else if n < 37 then s.get (THM_TOWER_MAX_TEMP (n - 33))
  else if n = 40 then s.get FUS_STATUS_QUARANTINE * 16 + s.get FUS_STATUS_Q_CAUSE
  else if n = 41 then 8 - popCount 8 s.power.phasesLost.toNat
  else match s.boot.stage, s.boot.slot with
    | .recovery, _ => 3
    | _, some 0 => 1
    | _, some 1 => 2
    | _, some _ => 3
    | _, none => 0

/-- The reading of a sensor: as last updated, once per folio. -/
def reading (s : State) (n : Nat) : Nat := Tab.at s.mgmt.sensors n (sensorSource s n)

/-- The readings update (R579): a state sensor that changes sends a PlatformEventMessage to the event receiver. -/
def updateSensors (s : State) : State :=
  s.each ((numericSensors ++ stateSensors).filter (sensorPresent s)) fun s n =>
    let old := Tab.find s.mgmt.sensors n
    let v := sensorSource s n
    let s := setMgmt s { s.mgmt with sensors := Tab.set s.mgmt.sensors n v }
    if !stateSensors.contains n || old == some v || old.isNone then s else
    let s := setMgmt s { s.mgmt with events := s.mgmt.events ++ [(n, v)] }
    if s.mgmt.receiver.isSome then s.send (.platformEvent n v) else s

/-- A PLDM Type 2 command: both bindings, every state but Off (Table 22-1). -/
def pldmTwo (s : State) (e : Envelope) (f : State → State) : State := accept s e false true f

/-- GET_PDR_REPOSITORY_INFO (R579): how many PDRs there are the spec does not say, a free value. -/
def execGetPdrRepositoryInfo (env : Envelope) (s : State) : Host.Outcome State Fault Refusal :=
  .next (pldmTwo s env fun s => s.drew.send (.answer "GET_PDR_REPOSITORY_INFO" 0 [s.freeNow.toNat]))

/-- GET_PDR (R579): the contents of a record are not the spec's, a free value. -/
def execGetPdr (env : Envelope) (handle : BitVec 32) (s : State) : Host.Outcome State Fault Refusal :=
  .next (pldmTwo s env fun s => s.drew.send (.answer "GET_PDR" 0 [handle.toNat, s.freeNow.toNat]))

/-- GET_SENSOR_READING (R579): in Standby the Inkwell's own measurement, `sample`, of sensors 1 to 5. -/
def execGetSensorReading (env : Envelope) (sensor sample : BitVec 16) (s : State) : Host.Outcome State Fault Refusal :=
  .next (pldmTwo s env fun s =>
    let n := sensor.toNat
    if !numericSensors.contains n || !sensorPresent s n then s.send (.answer "INVALID_SENSOR_ID" 0 [n])
    else if !sensorServed s n then s.send (.answer "SENSOR_UNAVAILABLE" 0 [n])
    else
      let v := if s.power.rails = .up then reading s n else sample.toNat
      s.send (.answer "GET_SENSOR_READING" 0 [n, v]))

/-- GET_STATE_SENSOR_READINGS (R579). -/
def execGetStateSensorReadings (env : Envelope) (sensor : BitVec 16) (s : State) : Host.Outcome State Fault Refusal :=
  .next (pldmTwo s env fun s =>
    let n := sensor.toNat
    if !stateSensors.contains n then s.send (.answer "INVALID_SENSOR_ID" 0 [n])
    else if !sensorServed s n then s.send (.answer "SENSOR_UNAVAILABLE" 0 [n])
    else s.send (.answer "GET_STATE_SENSOR_READINGS" 0 [n, if s.power.rails = .up then reading s n else sensorSource s n]))

/-- SET_EVENT_RECEIVER (R579): the EID that PlatformEventMessages go to, or none. -/
def execSetEventReceiver (env : Envelope) (receiver : Option (BitVec 8)) (s : State) : Host.Outcome State Fault Refusal :=
  .next (pldmTwo s env fun s =>
    (setMgmt s { s.mgmt with receiver := receiver.map BitVec.toNat }).send (.answer "SET_EVENT_RECEIVER" 0 []))

/-- POLL_FOR_PLATFORM_EVENT_MESSAGE (R579): the oldest event, if any. -/
def execPollForPlatformEventMessage (env : Envelope) (s : State) : Host.Outcome State Fault Refusal :=
  .next (pldmTwo s env fun s =>
    match s.mgmt.events with
    | [] => s.send (.answer "POLL_FOR_PLATFORM_EVENT_MESSAGE" 0 [])
    | (n, v) :: rest =>
      (setMgmt s { s.mgmt with events := rest }).send (.answer "POLL_FOR_PLATFORM_EVENT_MESSAGE" 0 [n, v]))

/-! ### Firmware update (R580, R581) -/

/-- The node is in MCTP recovery (R563). -/
def inRecovery (s : State) : Bool := s.boot.stage == .recovery

/-- A PLDM Type 5 command: MGMT0, in Capped, Writing and MCTP recovery; otherwise ERROR_NOT_READY (R574). Requests are
limited to 1,024 bytes; a longer one is answered with an error of PLDM's. -/
def pldmFive (s : State) (e : Envelope) (f : State → State) : State :=
  accept s e false false fun s =>
    if !(rubricServes s || (inRecovery s && s.power.rails == .up && !s.fatal)) then s.send (.answer "ERROR_NOT_READY" 0 [])
    else if 1024 < e.size then s.send (.answer "ERROR_INVALID_LENGTH" 0 [])
    else f s

/-- One inside an update. -/
def inUpdate (s : State) (e : Envelope) (f : State → Update → State) : State :=
  pldmFive s e fun s =>
    match s.mgmt.update with
    | none => s.send (.answer "NOT_IN_UPDATE_MODE" 0 [])
    | some u => f s u

def setUpdate (s : State) (u : Option Update) : State := setMgmt s { s.mgmt with update := u }

/-- A command out of its place in the update. -/
def outOfState (s : State) : State := s.send (.answer "INVALID_STATE_FOR_COMMAND" 0 [])

/-- QUERY_DEVICE_IDENTIFIERS (R580): identifiers by Tuofort's vendor ID, a free value (assumption 26). -/
def execQueryDeviceIdentifiers (env : Envelope) (s : State) : Host.Outcome State Fault Refusal :=
  .next (pldmFive s env fun s => s.drew.send (.answer "QUERY_DEVICE_IDENTIFIERS" 0 [s.freeNow.toNat % 65536]))

/-- GET_FIRMWARE_PARAMETERS (R580): the components; how their versions are worded is not the spec's, a free value. -/
def execGetFirmwareParameters (env : Envelope) (s : State) : Host.Outcome State Fault Refusal :=
  .next (pldmFive s env fun s =>
    s.drew.send (.answer "GET_FIRMWARE_PARAMETERS" 0 ((if inRecovery s then [1, 2, 3] else [1, 2]) ++ [s.freeNow.toNat])))

/-- REQUEST_UPDATE (R581): one update at a time. -/
def execRequestUpdate (env : Envelope) (s : State) : Host.Outcome State Fault Refusal :=
  .next (pldmFive s env fun s =>
    if s.mgmt.update.isSome then s.send (.answer "ALREADY_IN_UPDATE_MODE" 0 [])
    else (setUpdate s (some {})).send (.answer "REQUEST_UPDATE" 0 []))

/-- PASS_COMPONENT_TABLE (R580): a slot component is accepted only when the other slot, as the flash holds it, passes
checks 1 to 6; the recovery package only in MCTP recovery. -/
def execPassComponentTable (env : Envelope) (component : BitVec 16) (other : Option (List (BitVec 8))) (s : State) :
    Host.Outcome State Fault Refusal :=
  .next (inUpdate s env fun s u =>
    if u.stage ≠ .learning ∧ u.stage ≠ .ready then outOfState s else
    let c := component.toNat
    let ok := if c = 1 ∨ c = 2 then passesSix s other else c == 3 && inRecovery s
    if ok then (setUpdate s (some { u with stage := .ready, component := c })).send (.answer "PASS_COMPONENT_TABLE" 0 [c])
    else s.send (.answer "PASS_COMPONENT_TABLE" 1 [c]))

/-- The node's request for the next piece, at most 1,024 bytes (R581). -/
def requestPiece (s : State) (u : Update) : State :=
  if u.length ≤ u.received then s.send (.answer "TRANSFER_COMPLETE" 0 [])
  else s.send (.answer "REQUEST_FIRMWARE_DATA" 0 [u.received, min 1024 (u.length - u.received)])

/-- UPDATE_COMPONENT (R581): the named slot is erased and the first piece asked for. -/
def execUpdateComponent (env : Envelope) (component : BitVec 16) (length : BitVec 32) (s : State) : Host.Outcome State Fault Refusal :=
  .next (inUpdate s env fun s u =>
    if u.stage ≠ .ready || u.component ≠ component.toNat then outOfState s
    else if length.toNat = 0 ∨ 2 ^ 26 < length.toNat then s.send (.answer "ERROR_INVALID_DATA" 0 [])
    else
      let u := { u with stage := .downloading, length := length.toNat, received := 0, staged := [] }
      let s := (setUpdate s (some u)).send (.answer "UPDATE_COMPONENT" 0 [u.component])
      let s := if u.component < 3 then s.send (.flashErase (u.component - 1)) else s
      requestPiece s u)

/-- FIRMWARE_DATA_RESPONSE (R581): the piece asked for is written, in order, or the piece is asked for again. -/
def execFirmwareDataResponse (env : Envelope) (bytes : List (BitVec 8)) (s : State) : Host.Outcome State Fault Refusal :=
  .next (inUpdate s env fun s u =>
    if u.stage ≠ .downloading ∨ u.length ≤ u.received then s
    else if bytes.length ≠ min 1024 (u.length - u.received) then requestPiece s u
    else
      let s := if u.component < 3 then s.send (.flashWrite (u.component - 1) u.received bytes) else s
      let staged := if u.component = 3 then putBytes u.staged u.received bytes else u.staged
      let u := { u with received := u.received + bytes.length, staged := staged }
      requestPiece (setUpdate s (some u)) u)

/-- TRANSFER_COMPLETE (R581): the slot is read back and checked, the recovery package where it is staged; a failure leaves
it as written. -/
def execTransferComplete (slot : Option (List (BitVec 8))) (s : State) : Host.Outcome State Fault Refusal :=
  .next (
    match s.mgmt.update with
    | none => s
    | some u =>
      if u.stage ≠ .downloading || decide (u.received < u.length) || s.power.rails ≠ .up || s.fatal then s else
      let image := if u.component = 3 then some (bytesAt u.staged 0 u.length) else slot
      match checkSlot s image with
      | some (reason, _) => (setUpdate s (some { u with stage := .ready })).send (.answer "VERIFY_COMPLETE" reason [])
      | none =>
        let s := if u.component = 3 then s else event s 0x167 441 (u.component - 1)
        (setUpdate s (some { u with stage := .verified })).send (.answer "VERIFY_COMPLETE" 0 []))

/-- ACTIVATE_FIRMWARE (R581): activation method "reset"; a staged recovery package runs at once. -/
def execActivateFirmware (env : Envelope) (s : State) : Host.Outcome State Fault Refusal :=
  .next (inUpdate s env fun s u =>
    if u.stage ≠ .verified then outOfState s else
    let s := (setUpdate s none).send (.answer "ACTIVATE_FIRMWARE" 0 [])
    if u.component = 3 then runPackage s (bytesAt u.staged 0 u.length) else s)

/-- Code of an update stage: 0 idle, 1 learning components, 2 ready, 3 downloading, 4 verified. -/
def updateCode (u : Option Update) : Nat :=
  match u with
  | none => 0
  | some u => match u.stage with | .learning => 1 | .ready => 2 | .downloading => 3 | .verified => 4

/-- GET_STATUS (R580). -/
def execGetStatus (env : Envelope) (s : State) : Host.Outcome State Fault Refusal :=
  .next (pldmFive s env fun s => s.send (.answer "GET_STATUS" 0 [updateCode s.mgmt.update]))

/-- CANCEL_UPDATE_COMPONENT (R580): the slot is left as written. -/
def execCancelUpdateComponent (env : Envelope) (s : State) : Host.Outcome State Fault Refusal :=
  .next (inUpdate s env fun s u =>
    if u.stage ≠ .downloading ∧ u.stage ≠ .verified then outOfState s
    else (setUpdate s (some { u with stage := .ready, received := 0, staged := [] })).send (.answer "CANCEL_UPDATE_COMPONENT" 0 []))

/-- CANCEL_UPDATE (R580). -/
def execCancelUpdate (env : Envelope) (s : State) : Host.Outcome State Fault Refusal :=
  .next (inUpdate s env fun s _ => (setUpdate s none).send (.answer "CANCEL_UPDATE" 0 []))

end Sys2Proof.Machine
end

