-- ==== Sys2Proof/Machine/LineEdge.lean ====
section
/-! DEFINITION. What happens on a ruling line edge (R38, R41, Table 2-2), and on a jump of ruled time (R62). The
activities with a row of their own (refresh slots, pauses, windows, evaluations, ruled events) are those rows; the rest
happens here. A line edge comes only while the main dies are powered and the flywheel runs. -/

namespace Sys2Proof.Machine

/-- The Inkwell's measurements of the line (R418), its place in the limiter's window (R436), the energy of the minute
(R526; a line is taken as 1 µs) and the RTC (R531). -/
def supplyLine (s : State) (e : EdgeInput) : State :=
  let s := (s.put PWR_INK_VIN e.vin.toNat).put PWR_INK_INK_CURRENT e.inkCurrent.toNat
  let s := setPower s { s.power with windowSum := s.power.windowSum + e.power.toNat, windowLines := s.power.windowLines + 1 }
  tickRtc (setCol s { s.colophon with energy := s.colophon.energy + e.power.toNat }) e.rtc

/-- The lines in which a port has withheld a credit (R294), the port-reserve cells in use, and messages that find a place. -/
def bufferLine (s : State) : State :=
  let ports := (s.fabric.withheld ++ s.fabric.reserve.map Work.port).eraseDups
  let s := (setFabric s { s.fabric with withheld := [] }).each ports fun s p =>
    (s.inc (PRT_PORT_STATUS_WITHHELD p)).put (PRT_PORT_STATUS_RESERVE_PEAK p)
      (max (s.get (PRT_PORT_STATUS_RESERVE_PEAK p)) (reserveUsed s p))
  drainReserve s

/-- The check of a running fuse program (R486): the pulse stops when VIN, the pump or a base-die temperature is outside
its window. -/
def fuseLine (s : State) (e : EdgeInput) : State :=
  if s.fuses.program.isNone then s
  else if !vinOk s then (programmed s (some 0) e.reading).1
  else if !e.pump then (programmed s (some 1) e.reading).1
  else if !baseTempOk s then (programmed s (some 2) e.reading).1
  else s

/-- What every generated line does beside the ruling and the accounts; SHUTDOWN_N is sampled (Table 20-8). THERMTRIP, which may drop every rail, is judged
last (R456). -/
def countedLine (s : State) (e : EdgeInput) : State :=
  let s := bufferLine (s.each (e.flits.filter fun r => r.port.val < s.variant.ports) countFlits)
  let s := (s.each e.copies copyStep).each e.dies fun s (t, l) => dieStops s t l
  let s := takeShutdown s
  let s := supplyLine s e
  let s := thermalEdge s (e.samples.map fun (i, v, b) => (i.val, v, b)) e.milliwatts e.power.toNat
  if s.power.rails = .up then fuseLine s e else s

/-- What line 0 of a folio does beside the ruling (R79, R90, R250, R532, R579). -/
def folioLine (s : State) : State :=
  updateSensors (laneFolio (channelFolio s))

/-- Slots that the end of a line frees (Table 5-4). -/
def freeDue (s : State) : State :=
  if s.ductus.freeNext.isEmpty then s else
  { s with ductus := { s.ductus with
      slots := s.ductus.freeNext.foldl Tab.del s.ductus.slots, freeNext := [] } }

/-- LINE_EDGE (R38). -/
def execLineEdge (edge : EdgeInput) (s : State) : Host.Outcome State Fault Refusal :=
  .next (
    if s.power.rails ≠ .up || !s.ruling.running then s else
    let s := ruleEdge edge.localPs.toNat edge.trim s
    let s := calendarEdge (accountEdge s edge.urgency)
    countedLine (freeDue (if s.lineInFolio = 0 then folioLine s else s)) edge)

/-- JUMP (R62): only while a jump is pending. A folio begins at the mark, with its announces and its mark on RULE_OUT; the
new line is a generated one only when at least 512 ticks of the line before it have elapsed. -/
def execJump (elapsed : Fin 1024) (edge : EdgeInput) (s : State) : Host.Outcome State Fault Refusal :=
  .next (
    if s.power.rails ≠ .up || !s.ruling.running || !s.on RUL_STATUS_JUMP_PENDING then s else
    let counts := decide (512 ≤ elapsed.val)
    let s := trimOsc (ruleJump s elapsed) edge.trim
    let s := s.each (accounts s) fun s a => releaseHeld (jumpWindow s counts a) a
    let s := pulseOut (announceAll s)
    let s := freeDue (folioLine (calendarEdge s))
    if counts then countedLine (sampleUrgency (startPtm s) edge.urgency) edge else s)

end Sys2Proof.Machine
end

