-- ==== Sys2Proof/Machine/Spdm.lean ====
section
/-! DEFINITION. SPDM and identity (R582 to R584): the responder's messages, sessions, the certificate chain and the
measurement log. The order of the messages is SPDM's own (assumption 44). -/

namespace Sys2Proof.Machine

/-! ### Identity and measurements (R583, R584) -/

/-- M 0..11: the digest of measurements 0 to 11 in index order. -/
def bootDigest (s : State) : BitVec 256 := Config.sha3 (s.boot.measured.flatMap fun d => leBytes 32 d.toNat)

/-- CDI and the FirmwareID public key (Table 22-4). -/
def firmwareCdi (s : State) : BitVec 256 := Config.sha3 (textBytes "VYT-CDI" ++ udsBytes s ++ leBytes 32 (bootDigest s).toNat)
def firmwareKey (s : State) : List (BitVec 8) :=
  Config.mldsaPublic (Config.sha3 (textBytes "VYT-FWID" ++ leBytes 32 (firmwareCdi s).toNat))

/-- The device-state block: log entry 13 (Table 22-5). -/
def deviceState (s : State) : List (BitVec 8) :=
  leBytes 1 (s.get FUS_STATUS_LIFECYCLE) ++ leBytes 1 (s.get FUS_STATUS_QUARANTINE + 2 * s.get FUS_STATUS_DEBUG_OPEN)
    ++ leBytes 1 (s.get FUS_STATUS_Q_CAUSE) ++ leBytes 2 (s.get FUS_STATUS_MIN_SECURITY) ++ leBytes 1 (s.boot.slot.getD 0)
    ++ leBytes 4 s.boot.security ++ leBytes 6 0

/-- The chain of certificate slot 0. -/
def chain (s : State) : List (BitVec 8) :=
  Config.certChain (deviceKey s) (firmwareKey s) (bootDigest s) s.boot.security (deviceState s)

/-- An identity has been derived: region 2 is not marginal (R583). -/
def hasIdentity (s : State) : Bool := !bit (s.get FUS_STATUS_Q_CAUSE) 2

/-- Entry 12: the digest of the owner slot in use, or zero (Table 22-5). -/
def ownerDigest (s : State) : BitVec 256 := if ownerSlot s.boot.signer then slotHash s s.boot.signer else 0

/-- Entry 14: over the digests of the running rubrics, in ascending handle order. -/
def rubricsDigest (s : State) : BitVec 256 :=
  Config.sha3 ((s.rubrics.filter fun (h, _) => (scribeOf s h).isSome).flatMap fun (_, r) => leBytes 32 r.digest.toNat)

/-- Entry 15: over the digests of the kernel library, in ascending identifier order; zero when it is empty. -/
def kernelsDigest (s : State) : BitVec 256 :=
  if s.queues.kernels.isEmpty then 0 else Config.sha3 (s.queues.kernels.flatMap fun (_, k) => leBytes 32 k.digest.toNat)

/-- The value of measurement log entry `n` (Tables 21-5 and 22-5). -/
def measurement (s : State) (n : Nat) : Nat :=
  if n < 12 then (s.boot.measured.getD n 0).toNat
  else if n = 12 then (ownerDigest s).toNat
  else if n = 13 then leNat (deviceState s)
  else if n = 14 then (rubricsDigest s).toNat
  else (kernelsDigest s).toNat

/-! ### Connections (R582) -/

/-- The connection of a binding: MGMT0, or CXL.io of a port. -/
def connKey (e : Envelope) : Nat := match e.vdm with | none => 0 | some (p, _) => 1 + p.val
def conn (s : State) (e : Envelope) : SpdmConn := Tab.at s.mgmt.spdm (connKey e) {}
def setConn (s : State) (e : Envelope) (c : SpdmConn) : State := setMgmt s { s.mgmt with spdm := Tab.set s.mgmt.spdm (connKey e) c }

/-- An SPDM request: both bindings, in Capped and Writing; otherwise ERROR Busy (R574). -/
def spdm (s : State) (e : Envelope) (f : State → State) : State :=
  accept s e false true fun s => if rubricServes s then f s else s.send (.answer "ERROR_BUSY" 0 [])

/-- One that follows the negotiation. -/
def negotiated (s : State) (e : Envelope) (f : State → State) : State :=
  spdm s e fun s => if (conn s e).algs then f s else spdmError s

/-- GET_VERSION (R582): 1.2 and 1.3; the connection starts again. -/
def execGetVersion (env : Envelope) (s : State) : Host.Outcome State Fault Refusal :=
  .next (spdm s env fun s => (setConn s env { version := true }).send (.answer "GET_VERSION" 0 [0x12, 0x13]))

/-- The capabilities of R582 as SPDM's flags: CERT 1, CHAL 2, MEAS with signature 4, MEAS_FRESH 5, ENCRYPT 6, MAC 7,
MUT_AUTH 8, KEY_EX 9, HBEAT 13, KEY_UPD 14, CHUNK 17. -/
def spdmCapabilities : Nat := [1, 2, 4, 5, 6, 7, 8, 9, 13, 14, 17].foldl (fun n b => n + 2 ^ b) 0

/-- GET_CAPABILITIES (R582). -/
def execGetCapabilities (env : Envelope) (s : State) : Host.Outcome State Fault Refusal :=
  .next (spdm s env fun s =>
    if !(conn s env).version then spdmError s
    else (setConn s env { conn s env with caps := true }).send (.answer "GET_CAPABILITIES" 0 [spdmCapabilities]))

/-- NEGOTIATE_ALGORITHMS (R582): a requester that offers no common extended algorithm receives UnsupportedRequest. -/
def execNegotiateAlgorithms (env : Envelope) (common : Bool) (s : State) : Host.Outcome State Fault Refusal :=
  .next (spdm s env fun s =>
    if !(conn s env).caps then spdmError s
    else if !common then s.send (.answer "ERROR_UNSUPPORTED_REQUEST" 0 [])
    else (setConn s env { conn s env with algs := true }).send (.answer "NEGOTIATE_ALGORITHMS" 0 []))

/-- GET_DIGESTS (R582): of slot 0's chain. -/
def execGetDigests (env : Envelope) (s : State) : Host.Outcome State Fault Refusal :=
  .next (negotiated s env fun s =>
    if !hasIdentity s then spdmError s else s.send (.answer "GET_DIGESTS" 0 [1, (Config.sha3 (chain s)).toNat]))

/-- GET_CERTIFICATE (R583): a portion of slot 0's chain; without an identity, Unspecified; slots 1 to 7 are not
supported. -/
def execGetCertificate (env : Envelope) (slot : Fin 16) (offset length : BitVec 16) (s : State) : Host.Outcome State Fault Refusal :=
  .next (negotiated s env fun s =>
    if !hasIdentity s then s.send (.answer "ERROR_UNSPECIFIED" 0 [])
    else if slot ≠ 0 ∨ (chain s).length ≤ offset.toNat then spdmError s
    else
      let part := slice (chain s) offset.toNat length.toNat
      s.send (.answer "GET_CERTIFICATE" 0
        ([part.length, (chain s).length - offset.toNat - part.length] ++ part.map BitVec.toNat)))

/-- CHALLENGE (R583): CHALLENGE_AUTH signed by FirmwareID; the signature over SPDM's transcript is a free value. -/
def execChallenge (env : Envelope) (slot : Fin 16) (s : State) : Host.Outcome State Fault Refusal :=
  .next (negotiated s env fun s =>
    if !hasIdentity s then s.send (.answer "ERROR_UNSPECIFIED" 0 [])
    else if slot ≠ 0 then spdmError s
    else s.drew.send (.answer "CHALLENGE_AUTH" 0 [(Config.sha3 (chain s)).toNat, s.freeNow.toNat]))

/-- GET_MEASUREMENTS (R584): index 0 asks for the count, 0xFF for all blocks, n + 1 for log entry n; a signature over
SPDM's transcript is a free value. -/
def execGetMeasurements (env : Envelope) (index : BitVec 8) (sign : Bool) (s : State) : Host.Outcome State Fault Refusal :=
  .next (negotiated s env fun s =>
    let i := index.toNat
    if 16 < i ∧ i ≠ 255 then spdmError s else
    if sign && !hasIdentity s then spdmError s else
    let blocks := if i = 0 then [16] else if i = 255 then (List.range 16).flatMap fun n => [n + 1, measurement s n]
      else [i, measurement s (i - 1)]
    if sign then s.drew.send (.answer "GET_MEASUREMENTS" 0 (blocks ++ [s.freeNow.toNat]))
    else s.send (.answer "GET_MEASUREMENTS" 0 blocks))

/-! ### Sessions (R582) -/

/-- A session of this connection. -/
def sessionHere (s : State) (e : Envelope) (id : Nat) : Option Session :=
  (Tab.find s.mgmt.sessions id).filter fun x => x.port == e.vdm.map fun v => v.1.val

def setSession (s : State) (id : Nat) (x : Session) : State := setMgmt s { s.mgmt with sessions := Tab.set s.mgmt.sessions id x }
def endSession (s : State) (id : Nat) : State := setMgmt s { s.mgmt with sessions := Tab.del s.mgmt.sessions id }

/-- A message of a session. -/
def inSession (s : State) (e : Envelope) (id : Nat) (f : State → Session → State) : State :=
  spdm s e fun s => match sessionHere s e id with | some x => f s x | none => spdmError s

/-- KEY_EXCHANGE (R582): a secured session begins under the identifier that the two ends' halves make; the response's
signature is a free value. -/
def execKeyExchange (env : Envelope) (session : BitVec 32) (s : State) : Host.Outcome State Fault Refusal :=
  .next (negotiated s env fun s =>
    if !hasIdentity s || (Tab.find s.mgmt.sessions session.toNat).isSome then spdmError s
    else (setSession s.drew session.toNat { port := env.vdm.map fun v => v.1.val }).send
      (.answer "KEY_EXCHANGE" 0 [session.toNat, s.freeNow.toNat]))

/-- FINISH (R582): `verified`: the requester's verification data, and its signature where it has been authenticated, are
right. -/
def execFinish (env : Envelope) (session : BitVec 32) (verified : Bool) (s : State) : Host.Outcome State Fault Refusal :=
  .next (inSession s env session.toNat fun s x =>
    if x.established then spdmError s
    else if verified then (setSession s session.toNat { x with established := true }).send (.answer "FINISH" 0 [session.toNat])
    else spdmError (endSession s session.toNat))

/-- GET_ENCAPSULATED_REQUEST (R582): the node asks for the requester's certificate chain. -/
def execGetEncapsulatedRequest (env : Envelope) (session : BitVec 32) (s : State) : Host.Outcome State Fault Refusal :=
  .next (inSession s env session.toNat fun s x =>
    if x.established then spdmError s else s.send (.answer "ENCAPSULATED_REQUEST" 0 [session.toNat]))

/-- DELIVER_ENCAPSULATED_RESPONSE (R582): the requester's chain, given by the digests of its leaf and root public keys;
`valid`: it verifies. -/
def execDeliverEncapsulatedResponse (env : Envelope) (session : BitVec 32) (leaf root : BitVec 256) (valid : Bool) (s : State) :
    Host.Outcome State Fault Refusal :=
  .next (inSession s env session.toNat fun s x =>
    if x.established || !valid then spdmError s
    else (setSession s session.toNat { x with mutAuth := true, leaf := leaf, root := root }).send
      (.answer "ENCAPSULATED_RESPONSE_ACK" 0 [session.toNat]))

/-- HEARTBEAT (R582). -/
def execHeartbeat (env : Envelope) (session : BitVec 32) (s : State) : Host.Outcome State Fault Refusal :=
  .next (inSession s env session.toNat fun s x =>
    if x.established then s.send (.answer "HEARTBEAT_ACK" 0 [session.toNat]) else spdmError s)

/-- KEY_UPDATE (R582): the session's keys, which nothing reads, change. -/
def execKeyUpdate (env : Envelope) (session : BitVec 32) (s : State) : Host.Outcome State Fault Refusal :=
  .next (inSession s env session.toNat fun s x =>
    if x.established then s.send (.answer "KEY_UPDATE_ACK" 0 [session.toNat]) else spdmError s)

/-- END_SESSION (R582). -/
def execEndSession (env : Envelope) (session : BitVec 32) (s : State) : Host.Outcome State Fault Refusal :=
  .next (inSession s env session.toNat fun s x =>
    if x.established then (endSession s session.toNat).send (.answer "END_SESSION_ACK" 0 [session.toNat]) else spdmError s)

/-- A chunk of a transfer: chunks come in order, each acknowledged (R582). -/
def chunk (s : State) (e : Envelope) (name : String) (handle seq : Nat) (last : Bool) : State :=
  spdm s e fun s =>
    let c := conn s e
    if !c.caps then spdmError s else
    let expected := match c.chunks with | some (h, n) => if h = handle then n else 0 | none => 0
    if seq ≠ expected then spdmError (setConn s e { c with chunks := none })
    else (setConn s e { c with chunks := if last then none else some (handle, seq + 1) }).send (.answer name 0 [handle, seq])

/-- CHUNK_SEND (R582). -/
def execChunkSend (env : Envelope) (handle : BitVec 8) (seq : BitVec 16) (last : Bool) (s : State) : Host.Outcome State Fault Refusal :=
  .next (chunk s env "CHUNK_SEND_ACK" handle.toNat seq.toNat last)

/-- CHUNK_GET (R582). -/
def execChunkGet (env : Envelope) (handle : BitVec 8) (seq : BitVec 16) (last : Bool) (s : State) : Host.Outcome State Fault Refusal :=
  .next (chunk s env "CHUNK_RESPONSE" handle.toNat seq.toNat last)

end Sys2Proof.Machine
end

