-- ==== Sys2Proof/Machine/Dispatch.lean ====
section
/-! DEFINITION. The dispatch of every command to its meaning, one arm per constructor of Instr. -/

namespace Sys2Proof.Machine

/-- The effect of a command on everything but the queue. -/
def exec (i : Instr) (s : State) : Host.Outcome State Fault Refusal :=
  match i with
  | .lineEdge edge => Sys2Proof.Machine.execLineEdge edge s
  | .rulePulse offset width period alt => Sys2Proof.Machine.execRulePulse offset width period alt s
  | .folioHeader => Sys2Proof.Machine.execFolioHeader s
  | .announce port payload periods => Sys2Proof.Machine.execAnnounce port payload periods s
  | .syncRequest port head body tick2 tick3 => Sys2Proof.Machine.execSyncRequest port head body tick2 tick3 s
  | .syncResponse port head t2 t3 tick4 => Sys2Proof.Machine.execSyncResponse port head t2 t3 tick4 s
  | .ptmDialogComplete ok master tick => Sys2Proof.Machine.execPtmDialogComplete ok master tick s
  | .jump elapsed edge => Sys2Proof.Machine.execJump elapsed edge s
  | .sourceRevert source => Sys2Proof.Machine.execSourceRevert source s
  | .rulSourceWrite value => Sys2Proof.Machine.execRulSourceWrite value s
  | .sourceOrderApply => Sys2Proof.Machine.execSourceOrderApply s
  | .rulEventFire slot pump => Sys2Proof.Machine.execRulEventFire slot pump s
  | .rulEventCtrlWrite slot value => Sys2Proof.Machine.execRulEventCtrlWrite slot value s
  | .rulEventTimeWrite slot value => Sys2Proof.Machine.execRulEventTimeWrite slot value s
  | .rulEventAddrWrite slot value => Sys2Proof.Machine.execRulEventAddrWrite slot value s
  | .rulClearCounts => Sys2Proof.Machine.execRulClearCounts s
  | .m2sReq req => Sys2Proof.Machine.execM2sReq req s
  | .m2sRwd req data mask poison run => Sys2Proof.Machine.execM2sRwd req data mask poison run s
  | .commandPick chan aged busy => Sys2Proof.Machine.execCommandPick chan aged busy s
  | .readDataReturn chan run => Sys2Proof.Machine.execReadDataReturn chan run s
  | .mapCacheMissFill map => Sys2Proof.Machine.execMapCacheMissFill map s
  | .rereadComplete chan run => Sys2Proof.Machine.execRereadComplete chan run s
  | .spareCopyComplete chan reads => Sys2Proof.Machine.execSpareCopyComplete chan reads s
  | .rowIdleClose chan bank => Sys2Proof.Machine.execRowIdleClose chan bank s
  | .refreshDue chan bank => Sys2Proof.Machine.execRefreshDue chan bank s
  | .backstopExpiry chan bank => Sys2Proof.Machine.execBackstopExpiry chan bank s
  | .targetedRefresh chan => Sys2Proof.Machine.execTargetedRefresh chan s
  | .retrainingPause chan low steps spare => Sys2Proof.Machine.execRetrainingPause chan low steps spare s
  | .pauseComplete chan length => Sys2Proof.Machine.execPauseComplete chan length s
  | .pauseLengthLimit chan => Sys2Proof.Machine.execPauseLengthLimit chan s
  | .repairPause chan declares => Sys2Proof.Machine.execRepairPause chan declares s
  | .parityAlert chan rank traced alert => Sys2Proof.Machine.execParityAlert chan rank traced alert s
  | .signalCopyFailed chan wire => Sys2Proof.Machine.execSignalCopyFailed chan wire s
  | .towerSupplyFault tower => Sys2Proof.Machine.execTowerSupplyFault tower s
  | .chnSchedWrite chan value => Sys2Proof.Machine.execChnSchedWrite chan value s
  | .chnPoolRead chan => Sys2Proof.Machine.execChnPoolRead chan s
  | .heatSweep map => Sys2Proof.Machine.execHeatSweep map s
  | .decisionEpoch => Sys2Proof.Machine.execDecisionEpoch s
  | .moveCopyComplete slot reads home => Sys2Proof.Machine.execMoveCopyComplete slot reads home s
  | .mapSwitch run => Sys2Proof.Machine.execMapSwitch run s
  | .movingClear slot => Sys2Proof.Machine.execMovingClear slot s
  | .sourceSlotFree slot => Sys2Proof.Machine.execSourceSlotFree slot s
  | .recall port pbr slots => Sys2Proof.Machine.execRecall port pbr slots s
  | .recallTimeout => Sys2Proof.Machine.execRecallTimeout s
  | .workPlace => Sys2Proof.Machine.execWorkPlace s
  | .premigrateRelease => Sys2Proof.Machine.execPremigrateRelease s
  | .dctSpreadSetWrite slot word value => Sys2Proof.Machine.execDctSpreadSetWrite slot word value s
  | .accountWindowEnd account => Sys2Proof.Machine.execAccountWindowEnd account s
  | .missCheck account => Sys2Proof.Machine.execMissCheck account s
  | .shortfallEvaluation => Sys2Proof.Machine.execShortfallEvaluation s
  | .admitTakeEffect => Sys2Proof.Machine.execAdmitTakeEffect s
  | .urgencyMessage port sub ld urgency => Sys2Proof.Machine.execUrgencyMessage port sub ld urgency s
  | .keyLoad session level index binding clusters xts integrity => Sys2Proof.Machine.execKeyLoad session level index binding clusters xts integrity s
  | .keyClear session index => Sys2Proof.Machine.execKeyClear session index s
  | .keyQuery session ask => Sys2Proof.Machine.execKeyQuery session ask s
  | .keyClearComplete index => Sys2Proof.Machine.execKeyClearComplete index s
  | .tspGetVersion port sub ld => Sys2Proof.Machine.execTspGetVersion port sub ld s
  | .tspSetTargetConfig port sub ld config confidential => Sys2Proof.Machine.execTspSetTargetConfig port sub ld config confidential s
  | .tspLockTargetConfig port sub ld => Sys2Proof.Machine.execTspLockTargetConfig port sub ld s
  | .tspSetKey port sub ld index xts integrity => Sys2Proof.Machine.execTspSetKey port sub ld index xts integrity s
  | .tspClearKey port sub ld index => Sys2Proof.Machine.execTspClearKey port sub ld index s
  | .tspSetTeState port sub ld dpa length te => Sys2Proof.Machine.execTspSetTeState port sub ld dpa length te s
  | .resealStart value => Sys2Proof.Machine.execResealStart value s
  | .resealComplete => Sys2Proof.Machine.execResealComplete s
  | .ideKmMessage session port stream op keySet containment key => Sys2Proof.Machine.execIdeKmMessage session port stream op keySet containment key s
  | .ideIntegrityFailure port stream => Sys2Proof.Machine.execIdeIntegrityFailure port stream s
  | .linkTrainingComplete port sub width rate mirrored polarity => Sys2Proof.Machine.execLinkTrainingComplete port sub width rate mirrored polarity s
  | .lockLoss port lane => Sys2Proof.Machine.execLockLoss port lane s
  | .lockTimeout port lane => Sys2Proof.Machine.execLockTimeout port lane s
  | .recoveryComplete port sub partner unlocked => Sys2Proof.Machine.execRecoveryComplete port sub partner unlocked s
  | .linkDown port sub => Sys2Proof.Machine.execLinkDown port sub s
  | .equalizationRequest port lane legal preset cm2 cm1 c0 cp1 => Sys2Proof.Machine.execEqualizationRequest port lane legal preset cm2 cm1 c0 cp1 s
  | .equalizationPhaseEnd port lane tried => Sys2Proof.Machine.execEqualizationPhaseEnd port lane tried s
  | .marginStart port lane value => Sys2Proof.Machine.execMarginStart port lane value s
  | .marginStepComplete port lane samples errors => Sys2Proof.Machine.execMarginStepComplete port lane samples errors s
  | .portRetrain port value => Sys2Proof.Machine.execPortRetrain port value s
  | .bifurcationWrite quad value => Sys2Proof.Machine.execBifurcationWrite quad value s
  | .pairEnableWrite pair value => Sys2Proof.Machine.execPairEnableWrite pair value s
  | .pairForward pair upper sub kind rates errors overrun => Sys2Proof.Machine.execPairForward pair upper sub kind rates errors overrun s
  | .pairReady pair latUp latDown => Sys2Proof.Machine.execPairReady pair latUp latDown s
  | .pairReadyTimeout pair => Sys2Proof.Machine.execPairReadyTimeout pair s
  | .l0pNarrow port sub partner => Sys2Proof.Machine.execL0pNarrow port sub partner s
  | .l0pWiden port sub stuck => Sys2Proof.Machine.execL0pWiden port sub stuck s
  | .aspmL1Entry port sub => Sys2Proof.Machine.execAspmL1Entry port sub s
  | .aspmL1Exit port sub => Sys2Proof.Machine.execAspmL1Exit port sub s
  | .dozeEnableMessage port enable => Sys2Proof.Machine.execDozeEnableMessage port enable s
  | .lanDozeWrite port value => Sys2Proof.Machine.execLanDozeWrite port value s
  | .halfDozeEntry port sub partner => Sys2Proof.Machine.execHalfDozeEntry port sub partner s
  | .halfDozeWake port sub partner => Sys2Proof.Machine.execHalfDozeWake port sub partner s
  | .electricalIdleExit port lane => Sys2Proof.Machine.execElectricalIdleExit port lane s
  | .falseWake port lane => Sys2Proof.Machine.execFalseWake port lane s
  | .backoffEnd port => Sys2Proof.Machine.execBackoffEnd port s
  | .roleWrite port value => Sys2Proof.Machine.execRoleWrite port value s
  | .prtLdWrite port ld value => Sys2Proof.Machine.execPrtLdWrite port ld value s
  | .dcRegionWrite port ld region value => Sys2Proof.Machine.execDcRegionWrite port ld region value s
  | .extentAdd value => Sys2Proof.Machine.execExtentAdd value s
  | .extentBlankComplete => Sys2Proof.Machine.execExtentBlankComplete s
  | .addDcResponse port ld quires => Sys2Proof.Machine.execAddDcResponse port ld quires s
  | .releaseRequest value => Sys2Proof.Machine.execReleaseRequest value s
  | .releaseDynamicCapacity port ld quires => Sys2Proof.Machine.execReleaseDynamicCapacity port ld quires s
  | .releaseRetry => Sys2Proof.Machine.execReleaseRetry s
  | .birsp port ld dpa => Sys2Proof.Machine.execBirsp port ld dpa s
  | .biTimeout => Sys2Proof.Machine.execBiTimeout s
  | .coarseSweep => Sys2Proof.Machine.execCoarseSweep s
  | .pbrTransit port sub dpid spid tag write => Sys2Proof.Machine.execPbrTransit port sub dpid spid tag write s
  | .barAccess port sub ld write addr => Sys2Proof.Machine.execBarAccess port sub ld write addr s
  | .configRequest port sub ld func area offset write => Sys2Proof.Machine.execConfigRequest port sub ld func area offset write s
  | .viralReceived port sub => Sys2Proof.Machine.execViralReceived port sub s
  | .identifyMemoryDevice port ld => Sys2Proof.Machine.execIdentifyMemoryDevice port ld s
  | .getSupportedLogs port ld => Sys2Proof.Machine.execGetSupportedLogs port ld s
  | .getLog port ld uuid offset length => Sys2Proof.Machine.execGetLog port ld uuid offset length s
  | .cxlGetEventRecords port ld log => Sys2Proof.Machine.execCxlGetEventRecords port ld log s
  | .cxlClearEventRecords port ld log all seqs => Sys2Proof.Machine.execCxlClearEventRecords port ld log all seqs s
  | .getDcConfiguration port ld => Sys2Proof.Machine.execGetDcConfiguration port ld s
  | .getDcExtentList port ld => Sys2Proof.Machine.execGetDcExtentList port ld s
  | .add run d a b => Sys2Proof.Machine.execAdd run d a b s
  | .sub run d a b => Sys2Proof.Machine.execSub run d a b s
  | .and run d a b => Sys2Proof.Machine.execAnd run d a b s
  | .or run d a b => Sys2Proof.Machine.execOr run d a b s
  | .xor run d a b => Sys2Proof.Machine.execXor run d a b s
  | .shl run d a b => Sys2Proof.Machine.execShl run d a b s
  | .shr run d a b => Sys2Proof.Machine.execShr run d a b s
  | .sar run d a b => Sys2Proof.Machine.execSar run d a b s
  | .mul run d a b => Sys2Proof.Machine.execMul run d a b s
  | .addi run d a imm => Sys2Proof.Machine.execAddi run d a imm s
  | .shli run d a imm => Sys2Proof.Machine.execShli run d a imm s
  | .shri run d a imm => Sys2Proof.Machine.execShri run d a imm s
  | .sari run d a imm => Sys2Proof.Machine.execSari run d a imm s
  | .li run d imm => Sys2Proof.Machine.execLi run d imm s
  | .cmp run p cond a b => Sys2Proof.Machine.execCmp run p cond a b s
  | .cmpi run p cond a imm => Sys2Proof.Machine.execCmpi run p cond a imm s
  | .cmpl run p cond a imm => Sys2Proof.Machine.execCmpl run p cond a imm s
  | .plog run p op a b => Sys2Proof.Machine.execPlog run p op a b s
  | .movc run d a guard neg => Sys2Proof.Machine.execMovc run d a guard neg s
  | .addl run d a imm => Sys2Proof.Machine.execAddl run d a imm s
  | .andl run d a imm => Sys2Proof.Machine.execAndl run d a imm s
  | .orl run d a imm => Sys2Proof.Machine.execOrl run d a imm s
  | .xorl run d a imm => Sys2Proof.Machine.execXorl run d a imm s
  | .lis run d a imm => Sys2Proof.Machine.execLis run d a imm s
  | .aluxAdd run d a b guard neg => Sys2Proof.Machine.execAluxAdd run d a b guard neg s
  | .aluxSub run d a b guard neg => Sys2Proof.Machine.execAluxSub run d a b guard neg s
  | .aluxAnd run d a b guard neg => Sys2Proof.Machine.execAluxAnd run d a b guard neg s
  | .aluxOr run d a b guard neg => Sys2Proof.Machine.execAluxOr run d a b guard neg s
  | .aluxXor run d a b guard neg => Sys2Proof.Machine.execAluxXor run d a b guard neg s
  | .aluxAndn run d a b guard neg => Sys2Proof.Machine.execAluxAndn run d a b guard neg s
  | .aluxShl run d a b guard neg => Sys2Proof.Machine.execAluxShl run d a b guard neg s
  | .aluxShr run d a b guard neg => Sys2Proof.Machine.execAluxShr run d a b guard neg s
  | .aluxSar run d a b guard neg => Sys2Proof.Machine.execAluxSar run d a b guard neg s
  | .aluxMul run d a b guard neg => Sys2Proof.Machine.execAluxMul run d a b guard neg s
  | .aluxMulh run d a b guard neg => Sys2Proof.Machine.execAluxMulh run d a b guard neg s
  | .aluxMulhu run d a b guard neg => Sys2Proof.Machine.execAluxMulhu run d a b guard neg s
  | .aluxDiv run d a b guard neg => Sys2Proof.Machine.execAluxDiv run d a b guard neg s
  | .aluxDivu run d a b guard neg => Sys2Proof.Machine.execAluxDivu run d a b guard neg s
  | .aluxRem run d a b guard neg => Sys2Proof.Machine.execAluxRem run d a b guard neg s
  | .aluxRemu run d a b guard neg => Sys2Proof.Machine.execAluxRemu run d a b guard neg s
  | .aluxMin run d a b guard neg => Sys2Proof.Machine.execAluxMin run d a b guard neg s
  | .aluxMax run d a b guard neg => Sys2Proof.Machine.execAluxMax run d a b guard neg s
  | .aluxMinu run d a b guard neg => Sys2Proof.Machine.execAluxMinu run d a b guard neg s
  | .aluxMaxu run d a b guard neg => Sys2Proof.Machine.execAluxMaxu run d a b guard neg s
  | .aluxClz run d a b guard neg => Sys2Proof.Machine.execAluxClz run d a b guard neg s
  | .aluxCtz run d a b guard neg => Sys2Proof.Machine.execAluxCtz run d a b guard neg s
  | .aluxPopc run d a b guard neg => Sys2Proof.Machine.execAluxPopc run d a b guard neg s
  | .aluxBswap run d a b guard neg => Sys2Proof.Machine.execAluxBswap run d a b guard neg s
  | .aluxSext32 run d a b guard neg => Sys2Proof.Machine.execAluxSext32 run d a b guard neg s
  | .aluxZext32 run d a b guard neg => Sys2Proof.Machine.execAluxZext32 run d a b guard neg s
  | .br run p neg offset => Sys2Proof.Machine.execBr run p neg offset s
  | .brl run p neg offset => Sys2Proof.Machine.execBrl run p neg offset s
  | .jal run offset => Sys2Proof.Machine.execJal run offset s
  | .jall run d offset => Sys2Proof.Machine.execJall run d offset s
  | .jalr run d a => Sys2Proof.Machine.execJalr run d a s
  | .ld run d a imm => Sys2Proof.Machine.execLd run d a imm s
  | .st run d a imm merge => Sys2Proof.Machine.execSt run d a imm merge s
  | .ldx run d a size sign offset => Sys2Proof.Machine.execLdx run d a size sign offset s
  | .stx run d a size sign offset merge => Sys2Proof.Machine.execStx run d a size sign offset merge s
  | .deviceLoadReturn core => Sys2Proof.Machine.execDeviceLoadReturn core s
  | .atomSwap run d a b size order merge => Sys2Proof.Machine.execAtomSwap run d a b size order merge s
  | .atomAdd run d a b size order merge => Sys2Proof.Machine.execAtomAdd run d a b size order merge s
  | .atomAnd run d a b size order merge => Sys2Proof.Machine.execAtomAnd run d a b size order merge s
  | .atomOr run d a b size order merge => Sys2Proof.Machine.execAtomOr run d a b size order merge s
  | .atomXor run d a b size order merge => Sys2Proof.Machine.execAtomXor run d a b size order merge s
  | .atomMin run d a b size order merge => Sys2Proof.Machine.execAtomMin run d a b size order merge s
  | .atomMax run d a b size order merge => Sys2Proof.Machine.execAtomMax run d a b size order merge s
  | .atomMinu run d a b size order merge => Sys2Proof.Machine.execAtomMinu run d a b size order merge s
  | .atomMaxu run d a b size order merge => Sys2Proof.Machine.execAtomMaxu run d a b size order merge s
  | .atomCas run d a b c size order merge => Sys2Proof.Machine.execAtomCas run d a b c size order merge s
  | .nop run => Sys2Proof.Machine.execNop run s
  | .fence run => Sys2Proof.Machine.execFence run s
  | .trap run code => Sys2Proof.Machine.execTrap run code s
  | .impreciseFault core => Sys2Proof.Machine.execImpreciseFault core s
  | .rett run => Sys2Proof.Machine.execRett run s
  | .rdcs run d index => Sys2Proof.Machine.execRdcs run d index s
  | .wrcs run index a => Sys2Proof.Machine.execWrcs run index a s
  | .fault run code => Sys2Proof.Machine.execFault run code s
  | .vfmaF32 run d a b => Sys2Proof.Machine.execVfmaF32 run d a b s
  | .vdotBf16 run d a b => Sys2Proof.Machine.execVdotBf16 run d a b s
  | .vdotFp16 run d a b => Sys2Proof.Machine.execVdotFp16 run d a b s
  | .vdotI8 run d a b => Sys2Proof.Machine.execVdotI8 run d a b s
  | .vaddF32 run d a b => Sys2Proof.Machine.execVaddF32 run d a b s
  | .vmulF32 run d a b => Sys2Proof.Machine.execVmulF32 run d a b s
  | .vaddI32 run d a b => Sys2Proof.Machine.execVaddI32 run d a b s
  | .vxor run d a b => Sys2Proof.Machine.execVxor run d a b s
  | .vopAdd run type d a b guard neg => Sys2Proof.Machine.execVopAdd run type d a b guard neg s
  | .vopSub run type d a b guard neg => Sys2Proof.Machine.execVopSub run type d a b guard neg s
  | .vopMul run type d a b guard neg => Sys2Proof.Machine.execVopMul run type d a b guard neg s
  | .vopFma run type d a b guard neg => Sys2Proof.Machine.execVopFma run type d a b guard neg s
  | .vopMin run type d a b guard neg => Sys2Proof.Machine.execVopMin run type d a b guard neg s
  | .vopMax run type d a b guard neg => Sys2Proof.Machine.execVopMax run type d a b guard neg s
  | .vopAnd run type d a b guard neg => Sys2Proof.Machine.execVopAnd run type d a b guard neg s
  | .vopOr run type d a b guard neg => Sys2Proof.Machine.execVopOr run type d a b guard neg s
  | .vopXor run type d a b guard neg => Sys2Proof.Machine.execVopXor run type d a b guard neg s
  | .vopCvt run type d a b guard neg => Sys2Proof.Machine.execVopCvt run type d a b guard neg s
  | .vopDot run type d a b guard neg => Sys2Proof.Machine.execVopDot run type d a b guard neg s
  | .vsplat run type d a => Sys2Proof.Machine.execVsplat run type d a s
  | .vext run type d a lane => Sys2Proof.Machine.execVext run type d a lane s
  | .vins run type d a lane => Sys2Proof.Machine.execVins run type d a lane s
  | .vrsum run type d a => Sys2Proof.Machine.execVrsum run type d a s
  | .vlds run v a imm => Sys2Proof.Machine.execVlds run v a imm s
  | .vsts run v a imm => Sys2Proof.Machine.execVsts run v a imm s
  | .vldl run v a op imm => Sys2Proof.Machine.execVldl run v a op imm s
  | .vstl run v a op imm => Sys2Proof.Machine.execVstl run v a op imm s
  | .drd run d a offset => Sys2Proof.Machine.execDrd run d a offset s
  | .dwr run d a offset pump => Sys2Proof.Machine.execDwr run d a offset pump s
  | .drdL run d a offset => Sys2Proof.Machine.execDrdL run d a offset s
  | .dwrL run d a offset pump => Sys2Proof.Machine.execDwrL run d a offset pump s
  | .rtRead run d => Sys2Proof.Machine.execRtRead run d s
  | .rtWaitl run a => Sys2Proof.Machine.execRtWaitl run a s
  | .rtWaitt run a tick => Sys2Proof.Machine.execRtWaitt run a tick s
  | .waitResume core tick => Sys2Proof.Machine.execWaitResume core tick s
  | .rtArm run d a => Sys2Proof.Machine.execRtArm run d a s
  | .rtDisarm run d => Sys2Proof.Machine.execRtDisarm run d s
  | .evtWait run d a => Sys2Proof.Machine.execEvtWait run d a s
  | .evtPoll run d a => Sys2Proof.Machine.execEvtPoll run d a s
  | .evtPost run d a => Sys2Proof.Machine.execEvtPost run d a s
  | .evtRecv run d a => Sys2Proof.Machine.execEvtRecv run d a s
  | .evtBeat run => Sys2Proof.Machine.execEvtBeat run s
  | .plPin run d a => Sys2Proof.Machine.execPlPin run d a s
  | .plUnpin run d a => Sys2Proof.Machine.execPlUnpin run d a s
  | .plHeat run d a => Sys2Proof.Machine.execPlHeat run d a s
  | .plMove run d a b cause kind => Sys2Proof.Machine.execPlMove run d a b cause kind s
  | .plResolve run d c a => Sys2Proof.Machine.execPlResolve run d c a s
  | .acctSvc run d a => Sys2Proof.Machine.execAcctSvc run d a s
  | .acctAdmit run d a b cool => Sys2Proof.Machine.execAcctAdmit run d a b cool s
  | .acctAdjust run d a b sel => Sys2Proof.Machine.execAcctAdjust run d a b sel s
  | .cohInv run d a => Sys2Proof.Machine.execCohInv run d a s
  | .cohData run d a => Sys2Proof.Machine.execCohData run d a s
  | .cohInvr run d a b => Sys2Proof.Machine.execCohInvr run d a b s
  | .cohQry run d a => Sys2Proof.Machine.execCohQry run d a s
  | .heartbeatCheck => Sys2Proof.Machine.execHeartbeatCheck s
  | .scribeFault scribe => Sys2Proof.Machine.execScribeFault scribe s
  | .takeoverCopyComplete => Sys2Proof.Machine.execTakeoverCopyComplete s
  | .rubricHandover => Sys2Proof.Machine.execRubricHandover s
  | .loadSessionExpiry => Sys2Proof.Machine.execLoadSessionExpiry s
  | .mailboxDoorbell mailbox value => Sys2Proof.Machine.execMailboxDoorbell mailbox value s
  | .mailboxTimeout mailbox => Sys2Proof.Machine.execMailboxTimeout mailbox s
  | .mbxComplete value => Sys2Proof.Machine.execMbxComplete value s
  | .getInfo mailbox => Sys2Proof.Machine.execGetInfo mailbox s
  | .rubricList mailbox => Sys2Proof.Machine.execRubricList mailbox s
  | .rubricLoadBegin mailbox => Sys2Proof.Machine.execRubricLoadBegin mailbox s
  | .rubricLoadChunk mailbox => Sys2Proof.Machine.execRubricLoadChunk mailbox s
  | .rubricLoadCommit mailbox => Sys2Proof.Machine.execRubricLoadCommit mailbox s
  | .rubricStop mailbox => Sys2Proof.Machine.execRubricStop mailbox s
  | .rubricRestoreBase mailbox => Sys2Proof.Machine.execRubricRestoreBase mailbox s
  | .rubricMessage mailbox => Sys2Proof.Machine.execRubricMessage mailbox s
  | .getEventRecords mailbox => Sys2Proof.Machine.execGetEventRecords mailbox s
  | .pinRange mailbox => Sys2Proof.Machine.execPinRange mailbox s
  | .resealGetChallenge mailbox => Sys2Proof.Machine.execResealGetChallenge mailbox s
  | .resealSubmit mailbox => Sys2Proof.Machine.execResealSubmit mailbox s
  | .accountRequest mailbox => Sys2Proof.Machine.execAccountRequest mailbox s
  | .kernelLoadBegin mailbox => Sys2Proof.Machine.execKernelLoadBegin mailbox s
  | .kernelLoadChunk mailbox => Sys2Proof.Machine.execKernelLoadChunk mailbox s
  | .kernelLoadCommit mailbox => Sys2Proof.Machine.execKernelLoadCommit mailbox s
  | .kernelRemove mailbox => Sys2Proof.Machine.execKernelRemove mailbox s
  | .kernelRemoveComplete => Sys2Proof.Machine.execKernelRemoveComplete s
  | .kernelList mailbox => Sys2Proof.Machine.execKernelList mailbox s
  | .queueCreate mailbox => Sys2Proof.Machine.execQueueCreate mailbox s
  | .queueDelete mailbox => Sys2Proof.Machine.execQueueDelete mailbox s
  | .groupSet mailbox => Sys2Proof.Machine.execGroupSet mailbox s
  | .sqDoorbell port sub ld index value => Sys2Proof.Machine.execSqDoorbell port sub ld index value s
  | .cqDoorbell port sub ld index value => Sys2Proof.Machine.execCqDoorbell port sub ld index value s
  | .itemFetch pair data fetch => Sys2Proof.Machine.execItemFetch pair data fetch s
  | .placementRetry => Sys2Proof.Machine.execPlacementRetry s
  | .deferLimitExpiry => Sys2Proof.Machine.execDeferLimitExpiry s
  | .clusterVoteRelease => Sys2Proof.Machine.execClusterVoteRelease s
  | .itemStart start => Sys2Proof.Machine.execItemStart start s
  | .deadlineDrop => Sys2Proof.Machine.execDeadlineDrop s
  | .itemEnd core => Sys2Proof.Machine.execItemEnd core s
  | .runLimitExpiry core => Sys2Proof.Machine.execRunLimitExpiry core s
  | .quePairCfgWrite value => Sys2Proof.Machine.execQuePairCfgWrite value s
  | .quePairSqWrite value => Sys2Proof.Machine.execQuePairSqWrite value s
  | .quePairCqWrite value => Sys2Proof.Machine.execQuePairCqWrite value s
  | .nibCoreParkWrite core value => Sys2Proof.Machine.execNibCoreParkWrite core value s
  | .coreParked core => Sys2Proof.Machine.execCoreParked core s
  | .refclkLoss input => Sys2Proof.Machine.execRefclkLoss input s
  | .refclkFrequencyTrip input => Sys2Proof.Machine.execRefclkFrequencyTrip input s
  | .refclkValid input => Sys2Proof.Machine.execRefclkValid input s
  | .refclkReady input => Sys2Proof.Machine.execRefclkReady input s
  | .pllRelock loop => Sys2Proof.Machine.execPllRelock loop s
  | .pllCoast loop => Sys2Proof.Machine.execPllCoast loop s
  | .coastEscalation loop => Sys2Proof.Machine.execCoastEscalation loop s
  | .pllLockLost loop => Sys2Proof.Machine.execPllLockLost loop s
  | .oscLockComplete trim => Sys2Proof.Machine.execOscLockComplete trim s
  | .oscOutOfRange => Sys2Proof.Machine.execOscOutOfRange s
  | .oscRelock value => Sys2Proof.Machine.execOscRelock value s
  | .domainSwitchRequest domain value => Sys2Proof.Machine.execDomainSwitchRequest domain value s
  | .domainSwitchComplete domain => Sys2Proof.Machine.execDomainSwitchComplete domain s
  | .gateWrite gate value => Sys2Proof.Machine.execGateWrite gate value s
  | .clkOutWrite out value => Sys2Proof.Machine.execClkOutWrite out value s
  | .nibPllWrite pll value => Sys2Proof.Machine.execNibPllWrite pll value s
  | .crossingOverrun => Sys2Proof.Machine.execCrossingOverrun s
  | .vinOn rtc => Sys2Proof.Machine.execVinOn rtc s
  | .vinOff => Sys2Proof.Machine.execVinOff s
  | .vinFault => Sys2Proof.Machine.execVinFault s
  | .inkPhaseLost phase => Sys2Proof.Machine.execInkPhaseLost phase s
  | .inkRailFault => Sys2Proof.Machine.execInkRailFault s
  | .domainVote scribe domain => Sys2Proof.Machine.execDomainVote scribe domain s
  | .domainUnvote scribe domain => Sys2Proof.Machine.execDomainUnvote scribe domain s
  | .domainRiseComplete domain => Sys2Proof.Machine.execDomainRiseComplete domain s
  | .domainDropComplete domain => Sys2Proof.Machine.execDomainDropComplete domain s
  | .pwrRequest value => Sys2Proof.Machine.execPwrRequest value s
  | .shutdownNFall => Sys2Proof.Machine.execShutdownNFall s
  | .shutdownNRise => Sys2Proof.Machine.execShutdownNRise s
  | .wakeN => Sys2Proof.Machine.execWakeN s
  | .drainTimeout => Sys2Proof.Machine.execDrainTimeout s
  | .stateEntryComplete => Sys2Proof.Machine.execStateEntryComplete s
  | .cappedIdleExpiry => Sys2Proof.Machine.execCappedIdleExpiry s
  | .limiterWindow => Sys2Proof.Machine.execLimiterWindow s
  | .resetAssert => Sys2Proof.Machine.execResetAssert s
  | .resetRelease boot => Sys2Proof.Machine.execResetRelease boot s
  | .inkwellCycleRestart => Sys2Proof.Machine.execInkwellCycleRestart s
  | .thermtripRestartCheck readings => Sys2Proof.Machine.execThermtripRestartCheck readings s
  | .stepDecay unit => Sys2Proof.Machine.execStepDecay unit s
  | .layerCool tower layer => Sys2Proof.Machine.execLayerCool tower layer s
  | .fastLimiterRelease => Sys2Proof.Machine.execFastLimiterRelease s
  | .peakGrantWrite value => Sys2Proof.Machine.execPeakGrantWrite value s
  | .thmLimitsWrite value => Sys2Proof.Machine.execThmLimitsWrite value s
  | .thmSensorRead sensor => Sys2Proof.Machine.execThmSensorRead sensor s
  | .calFolioEvaluate => Sys2Proof.Machine.execCalFolioEvaluate s
  | .laneSetSwap quad => Sys2Proof.Machine.execLaneSetSwap quad s
  | .calHoldStart chan => Sys2Proof.Machine.execCalHoldStart chan s
  | .calHoldComplete chan temp values eyes drift => Sys2Proof.Machine.execCalHoldComplete chan temp values eyes drift s
  | .calRequest value => Sys2Proof.Machine.execCalRequest value s
  | .calRecordFlush unit => Sys2Proof.Machine.execCalRecordFlush unit s
  | .fuseProgram writer value pump => Sys2Proof.Machine.execFuseProgram writer value pump s
  | .fuseProgramComplete stopped reading => Sys2Proof.Machine.execFuseProgramComplete stopped reading s
  | .fuseRead value => Sys2Proof.Machine.execFuseRead value s
  | .fuseReadComplete reading => Sys2Proof.Machine.execFuseReadComplete reading s
  | .fuseLockSet value => Sys2Proof.Machine.execFuseLockSet value s
  | .blotterReport type source master access dpa media detail queueFull => Sys2Proof.Machine.execBlotterReport type source master access dpa media detail queueFull s
  | .wireFault source => Sys2Proof.Machine.execWireFault source s
  | .severityWrite type value => Sys2Proof.Machine.execSeverityWrite type value s
  | .eventInject writer value => Sys2Proof.Machine.execEventInject writer value s
  | .latchClear source => Sys2Proof.Machine.execLatchClear source s
  | .latchRearm source => Sys2Proof.Machine.execLatchRearm source s
  | .alertClear value => Sys2Proof.Machine.execAlertClear value s
  | .colophonCommit failed => Sys2Proof.Machine.execColophonCommit failed s
  | .minuteSummary => Sys2Proof.Machine.execMinuteSummary s
  | .checkpointWrite lost => Sys2Proof.Machine.execCheckpointWrite lost s
  | .colophonFlush value => Sys2Proof.Machine.execColophonFlush value s
  | .calendarSet management value => Sys2Proof.Machine.execCalendarSet management value s
  | .vioOverload => Sys2Proof.Machine.execVioOverload s
  | .vioRetry => Sys2Proof.Machine.execVioRetry s
  | .crystalFailure => Sys2Proof.Machine.execCrystalFailure s
  | .mgmtBusStuck => Sys2Proof.Machine.execMgmtBusStuck s
  | .slotCheckComplete slot reread => Sys2Proof.Machine.execSlotCheckComplete slot reread s
  | .towerTrainingComplete found => Sys2Proof.Machine.execTowerTrainingComplete found s
  | .baseRubricsStart changed => Sys2Proof.Machine.execBaseRubricsStart changed s
  | .memoryActive ms => Sys2Proof.Machine.execMemoryActive ms s
  | .recoveryPackageReceived bytes => Sys2Proof.Machine.execRecoveryPackageReceived bytes s
  | .setEndpointId env eid => Sys2Proof.Machine.execSetEndpointId env eid s
  | .getEndpointId env => Sys2Proof.Machine.execGetEndpointId env s
  | .getEndpointUuid env => Sys2Proof.Machine.execGetEndpointUuid env s
  | .getMctpVersionSupport env type => Sys2Proof.Machine.execGetMctpVersionSupport env type s
  | .getMessageTypeSupport env => Sys2Proof.Machine.execGetMessageTypeSupport env s
  | .getVendorDefinedMessageSupport env => Sys2Proof.Machine.execGetVendorDefinedMessageSupport env s
  | .setdasa static dynamic => Sys2Proof.Machine.execSetdasa static dynamic s
  | .entdaa assigned => Sys2Proof.Machine.execEntdaa assigned s
  | .colophonRead env tag area start most => Sys2Proof.Machine.execColophonRead env tag area start most s
  | .power env tag target => Sys2Proof.Machine.execPower env tag target s
  | .inkwellArm env tag => Sys2Proof.Machine.execInkwellArm env tag s
  | .inkwellCycle env tag nonce inTime => Sys2Proof.Machine.execInkwellCycle env tag nonce inTime s
  | .ownerChallenge env tag slot => Sys2Proof.Machine.execOwnerChallenge env tag slot s
  | .ownerProvision env tag slot hash signature pump runs => Sys2Proof.Machine.execOwnerProvision env tag slot hash signature pump runs s
  | .rollbackRaise env tag version slotA slotB pump runs => Sys2Proof.Machine.execRollbackRaise env tag version slotA slotB pump runs s
  | .getPdrRepositoryInfo env => Sys2Proof.Machine.execGetPdrRepositoryInfo env s
  | .getPdr env handle => Sys2Proof.Machine.execGetPdr env handle s
  | .getSensorReading env sensor sample => Sys2Proof.Machine.execGetSensorReading env sensor sample s
  | .getStateSensorReadings env sensor => Sys2Proof.Machine.execGetStateSensorReadings env sensor s
  | .setEventReceiver env receiver => Sys2Proof.Machine.execSetEventReceiver env receiver s
  | .pollForPlatformEventMessage env => Sys2Proof.Machine.execPollForPlatformEventMessage env s
  | .queryDeviceIdentifiers env => Sys2Proof.Machine.execQueryDeviceIdentifiers env s
  | .getFirmwareParameters env => Sys2Proof.Machine.execGetFirmwareParameters env s
  | .requestUpdate env => Sys2Proof.Machine.execRequestUpdate env s
  | .passComponentTable env component other => Sys2Proof.Machine.execPassComponentTable env component other s
  | .updateComponent env component length => Sys2Proof.Machine.execUpdateComponent env component length s
  | .firmwareDataResponse env bytes => Sys2Proof.Machine.execFirmwareDataResponse env bytes s
  | .transferComplete slot => Sys2Proof.Machine.execTransferComplete slot s
  | .activateFirmware env => Sys2Proof.Machine.execActivateFirmware env s
  | .getStatus env => Sys2Proof.Machine.execGetStatus env s
  | .cancelUpdateComponent env => Sys2Proof.Machine.execCancelUpdateComponent env s
  | .cancelUpdate env => Sys2Proof.Machine.execCancelUpdate env s
  | .getVersion env => Sys2Proof.Machine.execGetVersion env s
  | .getCapabilities env => Sys2Proof.Machine.execGetCapabilities env s
  | .negotiateAlgorithms env common => Sys2Proof.Machine.execNegotiateAlgorithms env common s
  | .getDigests env => Sys2Proof.Machine.execGetDigests env s
  | .getCertificate env slot offset length => Sys2Proof.Machine.execGetCertificate env slot offset length s
  | .challenge env slot => Sys2Proof.Machine.execChallenge env slot s
  | .getMeasurements env index sign => Sys2Proof.Machine.execGetMeasurements env index sign s
  | .keyExchange env session => Sys2Proof.Machine.execKeyExchange env session s
  | .finish env session verified => Sys2Proof.Machine.execFinish env session verified s
  | .getEncapsulatedRequest env session => Sys2Proof.Machine.execGetEncapsulatedRequest env session s
  | .deliverEncapsulatedResponse env session leaf root valid => Sys2Proof.Machine.execDeliverEncapsulatedResponse env session leaf root valid s
  | .heartbeat env session => Sys2Proof.Machine.execHeartbeat env session s
  | .keyUpdate env session => Sys2Proof.Machine.execKeyUpdate env session s
  | .endSession env session => Sys2Proof.Machine.execEndSession env session s
  | .chunkSend env handle seq last => Sys2Proof.Machine.execChunkSend env handle seq last s
  | .chunkGet env handle seq last => Sys2Proof.Machine.execChunkGet env handle seq last s
  | .identify env => Sys2Proof.Machine.execIdentify env s
  | .backgroundOperationStatus env => Sys2Proof.Machine.execBackgroundOperationStatus env s
  | .getLdInfo env port => Sys2Proof.Machine.execGetLdInfo env port s
  | .getLdAllocations env port => Sys2Proof.Machine.execGetLdAllocations env port s
  | .getDcdInfo env => Sys2Proof.Machine.execGetDcdInfo env s
  | .getHostDcRegionConfiguration env port ld => Sys2Proof.Machine.execGetHostDcRegionConfiguration env port ld s
  | .setDcRegionConfiguration env port ld region value => Sys2Proof.Machine.execSetDcRegionConfiguration env port ld region value s
  | .getDcRegionExtentLists env port ld => Sys2Proof.Machine.execGetDcRegionExtentLists env port ld s
  | .initiateDynamicCapacityAdd env value => Sys2Proof.Machine.execInitiateDynamicCapacityAdd env value s
  | .initiateDynamicCapacityRelease env value => Sys2Proof.Machine.execInitiateDynamicCapacityRelease env value s
  | .jtagDeskAccess addr write pump => Sys2Proof.Machine.execJtagDeskAccess addr write pump s
  | .registerWrite scribe addr value pump => Sys2Proof.Machine.execRegisterWrite scribe addr value pump s
  | .inkRailRaise rtc => Sys2Proof.Machine.execInkRailRaise rtc s
  | .s2mResponse tag line => Sys2Proof.Machine.execS2mResponse tag line s
  | .deviceStorePerformed core => Sys2Proof.Machine.execDeviceStorePerformed core s
  | .mailboxAreaWrite mailbox offset bytes => Sys2Proof.Machine.execMailboxAreaWrite mailbox offset bytes s
  | .lockRegained port lane => Sys2Proof.Machine.execLockRegained port lane s
  | .recoveryEntry port sub => Sys2Proof.Machine.execRecoveryEntry port sub s
  | .linkTrainingFailed port sub reason => Sys2Proof.Machine.execLinkTrainingFailed port sub reason s

end Sys2Proof.Machine
end

