-- ==== Sys2Proof/Machine/Step.lean ====
section
/-! DEFINITION. One step of the node: take the command at the front of the queue and run it on the state with the
queue's rest; an empty queue leaves the node idle. -/

namespace Sys2Proof.Machine

/-- One step (assumption 5: an empty queue idles). -/
def step (s : State) : Host.Outcome State Fault Refusal :=
  match s.pending with
  | [] => .next s
  | i :: rest => exec i { s with pending := rest }

/-- The state with the command a table word spells put at the front of its queue; no word of this table spells one. -/
def State.withFetchWord (s : State) (nbits w : Nat) : State :=
  match Sys2Proof.decodeTableWord nbits w with
  | some i => { s with pending := i :: s.pending }
  | none => s

end Sys2Proof.Machine
end

