-- ==== Sys2Proof/Safety.lean ====
section
/-! DEFINITION. What a safe step is, and the conditions on the state that statements name: a core that can issue, a
mailbox under service, a management message that arrives. -/

namespace Sys2Proof

/-- The step goes on: neither a fault nor a refusal. -/
def Completes (o : Host.Outcome Machine.State Machine.Fault Machine.Refusal) : Prop := ∃ t, o = .next t

namespace Machine

/-- IN_COMP of RUL_LINK in ticks of the line in force (R56). -/
def pinCompTicks (s : State) : Int := ((s.get RUL_LINK_IN_COMP * 1024000 / max (s.get RUL_PERIOD_PS) 1 : Nat) : Int)

/-- The core of a run can issue an instruction of `n` syllables now, and nothing is outstanding (R302, R314, R315). -/
abbrev Ready (s : State) (r : CoreRun) (n : Nat) : Prop :=
  (core s r.core).running = true ∧ (core s r.core).wait = none ∧ (core s r.core).outstanding = [] ∧
  (r.core.val < 8 ∨ (core s r.core).pc ≠ completionAddress) ∧ (core s r.core).pc.toNat + n ≤ (core s r.core).code ∧
  r.fetch = .clean ∧ r.reserved = false

/-- A mailbox has the command `op` under way, unserved, and the node is not in the Fatal state (R354, R358). -/
abbrev Serving (s : State) (n op : Nat) : Prop :=
  doorbell s n = true ∧ (box s n).since.isSome = true ∧ (box s n).token = none ∧ boxOpcode s n = op ∧ s.fatal = false

/-- A message reaches the responder (R573): a power rail is up, the binding is addressed, the message is not over 4,096
bytes, and it came over MGMT0 or, for a type served there (`both`), at function 1 of LD 0 of sub-link 0 of a Host port of
a node that runs. -/
abbrev Reached (s : State) (e : Envelope) (control both : Bool) : Prop :=
  s.power.rails ≠ .off ∧ e.size ≤ 4096 ∧ addressed s e control = true ∧
  (e.vdm = none ∨ (both = true ∧ s.power.rails = .up ∧ s.fatal = false ∧
    ∃ p, e.vdm = some (p, 0, 0, 1) ∧ linkUp s p 0 = true ∧ s.get (PRT_PORT_CTRL_ROLE p) = 0))

end Machine

end Sys2Proof
end

