-- ==== Sys2Proof/Certificates/Slice0/Obligations.lean ====
section
/-! DEFINITION. The statements for the provers, one for each kind of state and each family of commands, from the numbered
rules of the spec; those that the model's own choices enter name the log entry. -/

open Sys2Proof Sys2Proof.Machine

/-- What a write makes of a register (R11, R12, Table 0-5). Whatever the register, the word written and the lock: an RO or WO field keeps
its value, an RW field takes the value written unless that is a reserved encoding, a W1C field loses the bits written as 1, an RWL field
takes the value unless it is locked or the value reserved; a bit of no field keeps its value; and a Notice is owed exactly when an RW value
is reserved or an RWL field that the value would change is locked or the value reserved. -/
def Obligations.RegisterFieldsFollowTheirAccessCodes : Prop :=
  ∀ (r : Reg) (locked : Bool) (n : Nat) (w : BitVec 64) (x : BitVec 64 × Bool),
    x = r.fields.foldl (mergeField locked n) (w, false) →
    (∀ f ∈ r.fields, ∀ old written new : Nat, old = bitsOf w.toNat f.lo f.width → written = bitsOf n f.lo f.width →
      new = bitsOf x.1.toNat f.lo f.width →
      (f.acc = .ro ∨ f.acc = .wo → new = old) ∧
      (f.acc = .rw → new = if f.enc < written then old else written) ∧
      (f.acc = .w1c → ∀ i, bit new i = (bit old i && !bit written i)) ∧
      (f.acc = .rwl → new = if locked = true ∨ f.enc < written then old else written)) ∧
    (∀ i, i < 64 → (∀ f ∈ r.fields, i < f.lo ∨ f.lo + f.width ≤ i) → x.1.getLsbD i = w.getLsbD i) ∧
    (x.2 = true ↔ ∃ f ∈ r.fields, (f.acc = .rw ∧ f.enc < bitsOf n f.lo f.width) ∨
      (f.acc = .rwl ∧ bitsOf n f.lo f.width ≠ bitsOf w.toNat f.lo f.width ∧
        (locked = true ∨ f.enc < bitsOf n f.lo f.width)))

/-- Memory reads back what was stored, and nothing else changes (R6, R135, R144). A media line stored to a leaf-map location is what the
next read of that location gets, whichever rank serves it and wherever a spare copy stands; a location whose read is served from a place
that the write did not reach reads as before. The bytes written to a core's memory read back in order, and every other byte as before. -/
def Obligations.MemoryReadsBackWhatWasStored : Prop :=
  (∀ (s : State) (l : Loc) (i : Nat) (m : MediaLine),
    loadLine (storeLine s l i m) l i = m ∧
    (∀ (k : Loc) (j : Nat), (∀ q ∈ physWrite s l, (physRead s k).addr j ≠ q.addr i) →
      loadLine (storeLine s l i m) k j = loadLine s k j) ∧
    { storeLine s l i m with media := s.media } = s ∧
    (Memory.wf s.media = true → Memory.wf (storeLine s l i m).media = true)) ∧
  (∀ (m : Tab (BitVec 8)) (a : Nat) (l : List (BitVec 8)),
    bytesAt (putBytes m a l) a l.length = l ∧
    ∀ b, b < a ∨ a + l.length ≤ b → Tab.at (putBytes m a l) b 0 = Tab.at m b 0)

/-- A step runs the command at the front of the queue on the state with the queue's rest. An empty queue leaves the node as it is, which is
the model's choice (log entry 5). -/
def Obligations.StepRunsTheFrontCommand : Prop :=
  (∀ (s : State) (c : Instr) (rest : List Instr), s.pending = c :: rest → step s = exec c { s with pending := rest }) ∧
  (∀ s : State, s.pending = [] → step s = .next s)

/-- What reset leaves (R11): every register reads its reset value, the desk and the media are in their canonical forms, no command waits,
nothing has been sent, w0 to w31 read zero and p1 to p7 are clear on every core, every media line is blank and no mailbox is under way. The
variant, blank media and a register's value where the spec gives none are the model's choice (log entries 6 to 9). -/
def Obligations.ResetIsCanonicalAndReadsResetValues : Prop :=
  State.reset.deskWf = true ∧ Memory.wf State.reset.media = true ∧ State.reset.pending = [] ∧ State.reset.out = [] ∧
  (∀ a, State.reset.word a = resetAt .v4384 a) ∧ (∀ l i, loadLine State.reset l i = {}) ∧
  (∀ (k : Fin 264) (n : Fin 32), (core State.reset k).w n = 0) ∧
  (∀ (k : Fin 264) (n : Fin 8), (core State.reset k).p n = decide (n = 0)) ∧
  State.reset.fatal = false ∧ ∀ n, doorbell State.reset n = false

/-- Every step keeps the canonical forms, from any state that has them, reached or not: the register values of the desk stay listed by
rising address with none at its reset value, and the media by rising address with no blank line, so that equal contents are equal data. -/
def Obligations.EveryStepKeepsTheCanonicalForms : Prop :=
  ∀ s t : State, s.deskWf = true → Memory.wf s.media = true → step s = .next t → t.deskWf = true ∧ Memory.wf t.media = true

/-- Every command completes, in every state, and whatever it is the variant stays what it was (R2), the commands that wait still wait, in
their order, no message that the node has sent is taken back, and no free value is drawn twice (log entries 1 and 3). -/
def Obligations.EveryCommandCompletesAndTakesNothingBack : Prop :=
  ∀ (i : Instr) (s : State), ∃ t, exec i s = .next t ∧ t.variant = s.variant ∧ t.pending = s.pending ∧
    s.out <+: t.out ∧ s.free ≤ t.free

/-- Absent units (R3). A desk register of a unit that the variant lacks reads zero and a write of it changes nothing, without an event, from
a Scribe as from JTAG. On the V2096 ports from P32, channels from 128, clusters from 8 and towers from T2 are absent. -/
def Obligations.AbsentUnitsReadZeroAndDropWrites : Prop :=
  (∀ (s : State) (r : Reg) (i j a : Nat), locate a = some (r, i, j) → absentUnit s.variant r i j = true →
    deskRead s a = (s, 0) ∧ ∀ (k : Option (Fin 8)) (w : BitVec 64) (pump : Bool), deskWrite s k a w pump = s) ∧
  (∀ p : Nat, 32 ≤ p → absentUnit .v2096 .PRT_PORT_CTRL p 0 = true ∧ absentUnit .v2096 .LAN_PORT_CTRL p 0 = true) ∧
  (∀ g : Nat, 128 ≤ g → absentUnit .v2096 .CHN_SCHED g 0 = true) ∧
  (∀ c : Nat, 8 ≤ c → absentUnit .v2096 .NIB_CLUSTER c 0 = true ∧ absentUnit .v2096 .THM_CLUSTER c 0 = true) ∧
  (∀ t : Nat, 2 ≤ t → absentUnit .v2096 .THM_TOWER t 0 = true) ∧
  (∀ (r : Reg) (i j : Nat), r ≠ .THM_SENSOR → absentUnit .v4384 r i j = false ∧ absentUnit .v4192 r i j = false)

/-- What the node takes from the pulses of RULE_P/N (R38, R44 to R46, R48, R49, R58); RULE_PULSE and FOLIO_HEADER complete so in every state
with the flywheel running. An edge of symbol class 0 or 1 moves the position in the folio, adds a header bit on lines 1 to 128 and keeps the
line period measured, one for each line since the last edge; a folio mark 1,024 lines after the last counts towards qualification unless
more than 16 lines between were violations. An edge of no class, one that is a folio mark on a line other than 0, or none on line 0 is a
line violation beside (what it does to the position is the model's choice, log entry 60); more than 256 ticks from its predicted edge while
the node is locked it is a violation alone. A complete header is counted when its CRC fails; else RUL_HEADER holds it, and only one that
agrees with the valid header before it is acted on. -/
def Obligations.PinReceptionFollowsThePulses : Prop :=
  (∀ (s : State) (off : Int) (w per : Nat) (alt : Bool) (c k : Nat),
    s.ruling.running = true → pulseClass w alt = some c → c < 2 → s.ruling.pin.pos = some k → k < 1023 →
    ∀ d : Int, d = off - pinCompTicks s → (s.get RUL_STATUS_STATE ≠ 1 ∨ d.natAbs ≤ 256) →
    ∀ n : Nat, n = s.ruling.pin.missing + 1 →
    ∀ t : State, t = { s with ruling := { s.ruling with
      periods := (List.replicate n (per / n) ++ s.ruling.periods).take 1024
      pin := { s.ruling.pin with
        pos := some (k + 1)
        bits := if k + 1 ≤ 128 then (s.ruling.pin.bits <<< 1) ||| (if c = 1 then 1 else 0) else s.ruling.pin.bits
        missing := 0
        counted := s.ruling.pin.counted || decide (0 ≤ d)
        countedNext := s.ruling.pin.countedNext || decide (d < 0)
        offset := -d } } } →
    exec (.rulePulse off w per alt) s = .next (checkPin (if s.get RUL_STATUS_ACTIVE_SOURCE = 0 then showPeriod t else t))) ∧
  (∀ (s : State) (off : Int) (w per : Nat) (alt : Bool),
    s.ruling.running = true → pulseClass w alt = some 2 → s.ruling.pin.pos = some 1023 →
    ∀ d : Int, d = off - pinCompTicks s → (s.get RUL_STATUS_STATE ≠ 1 ∨ d.natAbs ≤ 256) →
    ∀ n : Nat, n = s.ruling.pin.missing + 1 →
    ∀ t : State, t = { s with ruling := { s.ruling with
      periods := (List.replicate n (per / n) ++ s.ruling.periods).take 1024
      pin := { s.ruling.pin with
        pos := some 0
        mark := true
        marks := if s.ruling.pin.mark = true ∧ s.ruling.pin.violations ≤ 16 then s.ruling.pin.marks + 1 else 0
        violations := 0
        missing := 0
        folio := s.ruling.pin.folio + 1
        counted := s.ruling.pin.counted || decide (0 ≤ d)
        countedNext := s.ruling.pin.countedNext || decide (d < 0)
        offset := -d } } } →
    exec (.rulePulse off w per alt) s = .next (checkPin (if s.get RUL_STATUS_ACTIVE_SOURCE = 0 then showPeriod t else t))) ∧
  (∀ (s : State) (off : Int) (w per : Nat) (alt : Bool), s.ruling.running = true →
    pulseClass w alt = none ∨ (pulseClass w alt = some 2 ∧ s.ruling.pin.pos ≠ none ∧ s.ruling.pin.pos ≠ some 1023) ∨
      (pulseClass w alt ≠ some 2 ∧ s.ruling.pin.pos = some 1023) →
    ∀ d : Int, d = off - pinCompTicks s → (s.get RUL_STATUS_STATE ≠ 1 ∨ d.natAbs ≤ 256) →
    ∀ n : Nat, n = s.ruling.pin.missing + 1 →
    ∀ t : State, t = { s with ruling := { s.ruling with
      periods := (List.replicate n (per / n) ++ s.ruling.periods).take 1024
      pin := s.ruling.pin.edge (pulseClass w alt) d } } →
    exec (.rulePulse off w per alt) s = .next (checkPin (violation (if s.get RUL_STATUS_ACTIVE_SOURCE = 0 then showPeriod t else t)))) ∧
  (∀ (s : State) (off : Int) (w per : Nat) (alt : Bool),
    s.ruling.running = true → s.get RUL_STATUS_STATE = 1 → 256 < (off - pinCompTicks s).natAbs →
    exec (.rulePulse off w per alt) s = .next (violation s)) ∧
  (∀ (s : State), s.ruling.running = true → s.ruling.pin.pos = some 128 → headerOk s.ruling.pin.bits = false →
    exec .folioHeader s = .next (event (s.inc RUL_ERRORS_CRC_FAILS) 0x20 433)) ∧
  (∀ (s t : State), s.ruling.running = true → s.ruling.pin.pos = some 128 → headerOk s.ruling.pin.bits = true →
    t = ((setPin s { s.ruling.pin with last := some s.ruling.pin.bits }).setWord 0x38
      (s.ruling.pin.bits.extractLsb' 0 64)).setWord 0x40 (s.ruling.pin.bits.extractLsb' 64 64) →
    ((∀ a, s.ruling.pin.last = some a → headersAgree a s.ruling.pin.bits = false) → exec .folioHeader s = .next t) ∧
    (∀ a, s.ruling.pin.last = some a → headersAgree a s.ruling.pin.bits = true →
      ∀ u : State, u = setPin t { t.ruling.pin with acted := some s.ruling.pin.bits, folio := hdrFolio s.ruling.pin.bits } →
      exec .folioHeader s = .next (
        if s.get RUL_STATUS_ACTIVE_SOURCE = 0 ∧ s.get RUL_STATUS_STATE = 1 then judge u (offer u 0) else checkPin u)))

/-- What the node does with the ruling messages of its links (R48, R49, R51 to R54, R58). An announce on a Peer port that is up starts a
folio of the source there: the mean offset of the exchanges of the folio that ends is kept (rounded down: the model's choice, log entry 60),
and a port without any in it is no longer qualified. An announce whose header fails its CRC is counted; a valid one that agrees with the
valid one before is acted on, and one over 14 hops does not qualify; the port in use is judged. A sync request on a port the node announces
to is answered with t1, t2 and t3 under its number. The response that is waited for adds ((t2 - t1) + (t3 - t4)) / 2 when t4 - t1 is below
256 ticks, and with four such after two agreeing announces and a line period of 0.9 to 1.1 µs qualifies the port. A PTM dialog that succeeds
gives the Host source's offset; four in a row qualify it, four failures in a row lose it. ANNOUNCE, SYNC_REQUEST, SYNC_RESPONSE and
PTM_DIALOG_COMPLETE complete so. -/
def Obligations.RulingMessagesMoveTheirSources : Prop :=
  (∀ (s : State) (port : Fin 64) (p : BitVec 256) (l : List Nat), s.ruling.running = true → peerUp s port = true → p.toNat % 256 = 1 →
    ∀ r q : PeerRul, r = peerOf s port →
      q = { r with
        folio := r.folio + 1, seen := true, missed := 0, valid := 0, sum := 0, periods := (l ++ r.periods).take 1024
        offset := if r.valid = 0 then r.offset else r.sum / r.valid
        qualified := r.qualified && !(r.last.isSome && r.valid == 0) } →
    ∀ h : BitVec 128, h = payloadHeader p →
    (headerOk h = false → exec (.announce port p l) s = .next (choosePeer (event ((setPeer s port q).inc RUL_ERRORS_CRC_FAILS) 0x20 433))) ∧
    (headerOk h = true → ∀ hop : Nat, hop = p.toNat / 256 % 256 →
      ∀ agree : Bool, (agree = true ↔ ∃ a, r.last = some a ∧ headersAgree a h = true) →
      ∀ x : PeerRul, x = { q with
        last := some h, hop := hop, agreed := if agree then r.agreed + 1 else 0, qualified := q.qualified && decide (hop ≤ 14)
        acted := if agree then some h else r.acted, folio := if agree then hdrFolio h else r.folio + 1 } →
      ∀ t : State, t = ((setPeer s port x).setWord 0x38 (h.extractLsb' 0 64)).setWord 0x40 (h.extractLsb' 64 64) →
      exec (.announce port p l) s = .next (choosePeer (
        if s.ruling.peer = some port.val ∧ s.get RUL_STATUS_ACTIVE_SOURCE = 1 ∧ s.get RUL_STATUS_STATE = 1 ∧ x.qualified = true
        then judge t (offer t 1) else t)))) ∧
  (∀ (s : State) (port : Fin 64) (x y : BitVec 128) (p : BitVec 256) (a b : Fin 1024), p = y ++ x →
    s.ruling.running = true → announcesOn s port = true → p.toNat % 256 = 2 →
    ∀ t : State, t = (s.passed a).passed b →
    exec (.syncRequest port x y a b) s = .next { t with out := s.out ++ [.ruling port (rulingPayload 3 0 (payloadSeq p)
      (BitVec.ofNat 64 (s.ruling.line * 1024 + (s.passed a).ruling.tick) ++ payloadT1 p)
      (BitVec.ofNat 64 (s.ruling.line * 1024 + t.ruling.tick)))] }) ∧
  (∀ (s : State) (port : Fin 64) (x : BitVec 128) (y z : BitVec 64) (p : BitVec 256) (k : Fin 1024), p = z ++ (y ++ x) →
    s.ruling.running = true → peerUp s port = true → p.toNat % 256 = 3 →
    ∀ r : PeerRul, r = peerOf s port → r.asked = some (payloadSeq p) →
    ∀ t4 t1 t2 t3 : Nat, t4 = s.ruling.line * 1024 + (s.passed k).ruling.tick → t1 = (payloadT1 p).toNat → t2 = y.toNat → t3 = z.toNat →
    (t4 < t1 ∨ t1 + 256 ≤ t4 → exec (.syncResponse port x y z k) s = .next (setPeer (s.passed k) port { r with asked := none })) ∧
    (t1 ≤ t4 → t4 < t1 + 256 →
      exec (.syncResponse port x y z k) s = .next (choosePeer (setPeer (s.passed k) port { r with
        asked := none, valid := r.valid + 1, sum := r.sum + (((t2 : Int) - t1) + ((t3 : Int) - t4)) / 2
        qualified := r.qualified || (decide (1 ≤ r.agreed) && decide (4 ≤ r.valid + 1) && decide (r.hop ≤ 14) && periodOk r.periods) })))) ∧
  (∀ (s : State) (m : BitVec 64) (k : Fin 1024), s.ruling.running = true →
    ∀ t : State, t = { s.passed k with ruling := { (s.passed k).ruling with
      ptmOk := s.ruling.ptmOk + 1, ptmBad := 0, ptmFolio := m.toNat / 1000 / 1024
      ptmOffset := ((m.toNat * 1024 / 1000 : Nat) : Int) - (s.ruling.line * 1024 + (s.passed k).ruling.tick : Nat) } } →
    exec (.ptmDialogComplete true m k) s = .next (
      if s.get RUL_STATUS_ACTIVE_SOURCE = 2 ∧ s.get RUL_STATUS_STATE = 1 then judge t (offer t 2)
      else if 3 ≤ s.ruling.ptmOk then qualify t 2 else t)) ∧
  (∀ (s : State) (m : BitVec 64) (k : Fin 1024), s.ruling.running = true →
    ∀ t : State, t = { s with ruling := { s.ruling with ptmOk := 0, ptmBad := s.ruling.ptmBad + 1 } } →
    exec (.ptmDialogComplete false m k) s = .next (if 3 ≤ s.ruling.ptmBad then loseSource t 2 else t))

/-- The line edge, the jump and the source order (R38, R41, R57, R60, R62, R71); LINE_EDGE, JUMP, SOURCE_REVERT, RUL_SOURCE_WRITE,
SOURCE_ORDER_APPLY and RUL_CLEAR_COUNTS complete so. A line edge counts one line on both bases. A lost source that has been in use is taken
back when it is higher in the order, still qualified for the holdoff, and reversion is allowed; otherwise nothing happens. A write of
RUL_SOURCE sets its fields, and ORDER too unless its strap-override lock is in force, which leaves it with a Notice; what was written takes
effect on line 0 of the folio that begins after the write. At the jump ruled time becomes the source's folio with line 0 at its mark, and
the line is a generated one only when at least 512 ticks of the line before it have elapsed; without a pending jump nothing happens. -/
def Obligations.LineEdgeJumpAndSourceOrder : Prop :=
  (∀ (s : State) (c : Fin 4), s.ruling.running = true →
    ((sourceOrder s).takeWhile (· != s.get RUL_STATUS_ACTIVE_SOURCE)).contains c.val = true →
    (s.get RUL_STATUS_STATE = 1 ∨ s.get RUL_STATUS_STATE = 3) →
    (qual s c).qualified = true → (qual s c).used = true → (qual s c).lost = true →
    exec (.sourceRevert c) s = .next (
      if s.ruling.nonrevertive = false ∧ s.ruling.holdoff ≤ (qual s c).folios then takeUp s c else s)) ∧
  (∀ (s : State) (v : BitVec 64),
    ∀ t : State, t = (s.put RUL_SOURCE_NONREVERTIVE (bitsOf v.toNat 16 1)).put RUL_SOURCE_REVERT_HOLDOFF (bitsOf v.toNat 8 8) →
    ∀ u : State, u = (if strapLocked s 2 = true ∧ bitsOf v.toNat 0 8 ≠ s.get RUL_SOURCE_ORDER then notice t 433
      else t.put RUL_SOURCE_ORDER (bitsOf v.toNat 0 8)) →
    exec (.rulSourceWrite v) s = .next { u with ruling := { u.ruling with orderPending := some u.ruling.edges } }) ∧
  (∀ (s : State) (n : Nat), s.ruling.orderPending = some n → exec .sourceOrderApply s = .next (
    if s.ruling.line % 1024 = 0 ∧ n < s.ruling.edges then
      consider { s with ruling := { s.ruling with
        order := s.get RUL_SOURCE_ORDER, nonrevertive := s.on RUL_SOURCE_NONREVERTIVE
        holdoff := s.get RUL_SOURCE_REVERT_HOLDOFF, orderPending := none } }
    else s)) ∧
  (∀ s : State, exec .rulClearCounts s = .next
    (((s.put RUL_ERRORS_CRC_FAILS 0).put RUL_ERRORS_VIOLATIONS 0).put RUL_ERRORS_MISSING 0)) ∧
  (∀ (s : State) (e : Fin 1024) (x : EdgeInput), s.get RUL_STATUS_JUMP_PENDING = 0 → exec (.jump e x) s = .next s) ∧
  (∀ (s : State) (e : Fin 1024) (x : EdgeInput),
    s.power.rails = .up → s.ruling.running = true → s.get RUL_STATUS_JUMP_PENDING = 1 →
    ∀ o : Offer, o = offer s (s.get RUL_STATUS_ACTIVE_SOURCE) →
    ∃ r : State, (r.ruling.line = o.next * 1024 ∧ r.ruling.utc = o.utc ∧ r.ruling.hop = o.hop ∧ r.ruling.tick = 0 ∧
        r.ruling.edges = s.ruling.edges + 1 ∧ r.ruling.gen = if 512 ≤ e.val then s.ruling.gen + 1 else s.ruling.gen) ∧
      (r.get RUL_STATUS_JUMP_PENDING = 0 ∧ r.get RUL_STATUS_SLEWING = 0 ∧ r.get RUL_STATUS_STATE = 1 ∧ r.get RUL_STATUS_OFFSET = 0
        ∧ r.get RUL_STATUS_QUALITY = o.quality % 16 ∧ r.get RUL_STATUS_EPOCH_ID = o.epoch % 65536) ∧
      (∀ j u : State, j = trimOsc (holdHeader (showPeriod (event r 0x23 433))) x.trim →
        u = freeDue (folioLine (calendarEdge (pulseOut (announceAll (j.each (accounts j) fun s a =>
          releaseHeld (jumpWindow s (decide (512 ≤ e.val)) a) a))))) →
        exec (.jump e x) s = .next (if 512 ≤ e.val then countedLine (sampleUrgency (startPtm u) x.urgency) x else u))) ∧
  (∀ (s : State) (x : EdgeInput), s.power.rails ≠ .up ∨ s.ruling.running = false → exec (.lineEdge x) s = .next s) ∧
  (∀ (s : State) (x : EdgeInput), s.power.rails = .up → s.ruling.running = true →
    ∃ r u : State, r.ruling.line = s.ruling.line + 1 ∧ r.ruling.gen = s.ruling.gen + 1 ∧
      u = calendarEdge (accountEdge r x.urgency) ∧
      exec (.lineEdge x) s = .next (countedLine (freeDue (if u.lineInFolio = 0 then folioLine u else u)) x))

/-- The ruled-event table (R65 to R67, Table 2-19); RUL_EVENT_CTRL_WRITE, RUL_EVENT_TIME_WRITE, RUL_EVENT_ADDR_WRITE and RUL_EVENT_FIRE
complete so. A write of a slot's control register arms it when ENABLE is set and the arm checks pass; failing checks leave it disarmed with
a Notice, or leave an armed slot as it was; the periodic form has no time bits above 47. A write of its time or address register is
discarded whole with a Notice where it would leave an armed slot failing. A due slot fires when no lower-numbered one is still to fire:
FIRED is set, a one-shot slot is disarmed, and an event descriptor goes to each Scribe that WAKE names; its desk write, if it has one,
follows. -/
def Obligations.RuledEventSlotsArmAndFire : Prop :=
  (∀ (s : State) (n : Fin 64) (v : BitVec 64),
    ∀ ok : Bool, ok = armChecks (bit v.toNat 2) (bit v.toNat 3) (s.get (RUL_EVENT_TIME_ALL n)) (s.get (RUL_EVENT_ADDR_ADDR n)) →
    ∀ u t : State, u = ((((s.put (RUL_EVENT_CTRL_WAKE n) (bitsOf v.toNat 8 8)).putB (RUL_EVENT_CTRL_WRITE n) (bit v.toNat 3)).putB
      (RUL_EVENT_CTRL_PERIODIC n) (bit v.toNat 2)).putB (RUL_EVENT_CTRL_ENABLE n) (bit v.toNat 0 && ok)).putB (RUL_EVENT_CTRL_ARMED n)
      (bit v.toNat 0 && ok) →
    t = noteArm (if bit v.toNat 2 then u.put (RUL_EVENT_TIME_ALL n) (u.get (RUL_EVENT_TIME_ALL n) % 2 ^ 48) else u) n →
    (bit v.toNat 0 = false ∨ ok = true → exec (.rulEventCtrlWrite n v) s = .next t) ∧
    (bit v.toNat 0 = true → ok = false → s.get (RUL_EVENT_CTRL_ARMED n) = 0 → exec (.rulEventCtrlWrite n v) s = .next (notice t 433)) ∧
    (bit v.toNat 0 = true → ok = false → s.get (RUL_EVENT_CTRL_ARMED n) = 1 → exec (.rulEventCtrlWrite n v) s = .next (notice s 433))) ∧
  (∀ (s : State) (n : Fin 64) (v : BitVec 64),
    exec (.rulEventTimeWrite n v) s = .next (
      if s.get (RUL_EVENT_CTRL_ARMED n) = 1 ∧ armChecks (s.on (RUL_EVENT_CTRL_PERIODIC n)) (s.on (RUL_EVENT_CTRL_WRITE n)) v.toNat
        (s.get (RUL_EVENT_ADDR_ADDR n)) = false then notice s 433
      else noteArm (s.put (RUL_EVENT_TIME_ALL n) (if s.get (RUL_EVENT_CTRL_PERIODIC n) = 1 then v.toNat % 2 ^ 48 else v.toNat)) n)) ∧
  (∀ (s : State) (n : Fin 64) (v : BitVec 64),
    exec (.rulEventAddrWrite n v) s = .next (
      if s.get (RUL_EVENT_CTRL_ARMED n) = 1 ∧ armChecks (s.on (RUL_EVENT_CTRL_PERIODIC n)) (s.on (RUL_EVENT_CTRL_WRITE n))
        (s.get (RUL_EVENT_TIME_ALL n)) (v.toNat % 2 ^ 24) = false then notice s 433
      else noteArm (s.put (RUL_EVENT_ADDR_ADDR n) v.toNat) n)) ∧
  (∀ (s : State) (n : Fin 64) (pump : Bool), slotDue s n = true → (∀ m : Nat, m < n.val → slotDue s m = false) →
    ∀ u t : State, u = { s with ruling := { s.ruling with firedEdge := Tab.set s.ruling.firedEdge n s.ruling.edges } } →
    s.get (RUL_EVENT_CTRL_PERIODIC n) = 1 →
    t = (u.setFlag RUL_EVENT_FIRED_ALL n).each (List.range 8) (fun s k =>
      if bit (u.get (RUL_EVENT_CTRL_WAKE n)) k then postEvent s k (descriptor 1 n) else s) →
    exec (.rulEventFire n pump) s = .next (
      if s.get (RUL_EVENT_CTRL_WRITE n) = 1 then
        deskWrite t (slotWriter s n) (s.get (RUL_EVENT_ADDR_ADDR n)) (s.word (RUL_EVENT_DATA_ALL n).addr) pump
      else t)) ∧
  (∀ (s : State) (n : Fin 64) (pump : Bool), slotDue s n = true → (∀ m : Nat, m < n.val → slotDue s m = false) →
    s.get (RUL_EVENT_CTRL_PERIODIC n) = 0 → s.get (RUL_EVENT_CTRL_WRITE n) = 0 → s.get (RUL_EVENT_CTRL_WAKE n) = 0 →
    s.ruling.line ≤ s.get (RUL_EVENT_TIME_ALL n) / 1024 →
    exec (.rulEventFire n pump) s = .next (({ s with ruling := { s.ruling with
      firedEdge := Tab.set s.ruling.firedEdge n s.ruling.edges } }.setFlag RUL_EVENT_FIRED_ALL n).put (RUL_EVENT_CTRL_ARMED n) 0))

/-- Requests at a channel controller (R78, R86, R107, R109 to R113, R133, R135); COMMAND_PICK, READ_DATA_RETURN, REREAD_COMPLETE and
SPARE_COPY_COMPLETE complete so. A command that the die has discarded is issued again first; else the command slot activates the row of the
chosen request, or issues its column command: a read leaves the pool with the line as the array holds it, a buffered write stores its line,
two to one line in order, and its bytes are counted. The oldest burst that decodes and opens is answered; one that does not is held for its
re-read, after which it is answered with a Corrected event, or with poison, and the rank has failed. The spare copy ends with rank 16
serving the whole rank. -/
def Obligations.ChannelServesItsRequests : Prop :=
  (∀ (s u : State) (g : Fin 256) (aged agedW : Nat) (busy : List (Fin 272)),
    inService s g = true → (chan s g).discarded = [] → u = batch (fillPools (holdPooled s g) g) g aged →
    ((chan u g).writeMode = false → choose u g (readCands u g) aged (busy.map Fin.val) = none →
      exec (.commandPick g ⟨aged, agedW⟩ busy) s = .next (drainReserve u)) ∧
    (∀ x : Cand, (chan u g).writeMode = false → choose u g (readCands u g) aged (busy.map Fin.val) = some x →
      (Tab.find (chan u g).openRow x.bank ≠ some x.row →
        exec (.commandPick g ⟨aged, agedW⟩ busy) s = .next (drainReserve (activate u g x.bank x.row))) ∧
      (∀ r : Req, Tab.find (chan u g).openRow x.bank = some x.row → (chan u g).pool[x.idx]? = some r →
        exec (.commandPick g ⟨aged, agedW⟩ busy) s = .next (drainReserve (fillPools (modChan (readArray (column u g x r.access.account) g r) g
          fun c => { c with pool := c.pool.eraseIdx x.idx }) g)))) ∧
    (∀ x : Cand, (chan u g).writeMode = true →
      choose u g ((writeCands u g).filter fun y => !(((chan u g).writes.take y.idx).any fun v => match (chan u g).writes[y.idx]? with
        | some w => v.bank == w.bank && v.row == w.row && v.line == w.line | none => false)) agedW (busy.map Fin.val) = some x →
      (Tab.find (chan u g).openRow x.bank ≠ some x.row →
        exec (.commandPick g ⟨aged, agedW⟩ busy) s = .next (drainReserve (activate u g x.bank x.row))) ∧
      (∀ w : WLine, Tab.find (chan u g).openRow x.bank = some x.row → (chan u g).writes[x.idx]? = some w →
        exec (.commandPick g ⟨aged, agedW⟩ busy) s = .next (drainReserve (fillWrites (modChan (writeArray (column u g x w.account) g w) g
          fun c => { c with writes := c.writes.eraseIdx x.idx }) g))))) ∧
  (∀ (s : State) (g : Fin 256) (aged agedW : Nat) (busy : List (Fin 272)) (x : ChanCmd) (rest : List ChanCmd),
    inService s g = true → (chan s g).discarded = x :: rest →
    exec (.commandPick g ⟨aged, agedW⟩ busy) s = .next (reissueCmd (modChan s g fun c => { c with discarded := rest }) g x)) ∧
  (∀ (s : State) (g : Nat) (r : Req) (w : WLine),
    (chan (readArray s g r) g).issued = (chan s g).issued ++ [⟨r, loadLine s (locOfBank g r.bank r.row) r.line⟩] ∧
    (writeArray s g w).media = (storeLine s (locOfBank g w.bank w.row) w.line w.content).media) ∧
  (∀ (s u : State) (g : Fin 256) (i : Issued) (rest : List Issued) (d : BitVec 512),
    (chan s g).issued = i :: rest → u = modChan s g (fun c => { c with issued := rest }) →
    decodes u g [] = true → i.content.fresh = false → i.req.access.origin.lends = false →
    openLine (countDecode u g (physRead u (locOfBank g i.req.bank i.req.row)).bankIndex i.req.row [])
      i.req.access.dpa i.req.access.key i.content = .data d →
    exec (.readDataReturn g {}) s = .next (respond
      (countDecode u g (physRead u (locOfBank g i.req.bank i.req.row)).bankIndex i.req.row []) i.req.access.origin
      i.req.access.account (.data d))) ∧
  (∀ (s u t : State) (g : Fin 256) (i : Issued) (rest : List Issued) (o : Opened) (run : ReadRun),
    (chan s g).issued = i :: rest → u = modChan s g (fun c => { c with issued := rest }) → readBack u g i run = (t, some o) →
    exec (.readDataReturn g run) s = .next (modChan t g fun c => { c with reread := c.reread ++ [i] })) ∧
  (∀ (s u t : State) (g : Fin 256) (i : Issued) (rest : List Issued) (run : ReadRun),
    (chan s g).reread = i :: rest → u = modChan s g (fun c => { c with reread := rest }) →
    (readBack u g i run = (t, none) →
      exec (.rereadComplete g run) s = .next (event (t.inc (CHN_ERROR_TRANSIENT g)) 0x40 g)) ∧
    (∀ (o : Opened) (v : State), readBack u g i run = (t, some o) → decodes t g run.errors = false → i.req.access.origin.lends = false →
      v = respond (noteLost t (locOfBank g i.req.bank i.req.row) i.req.line) i.req.access.origin i.req.access.account .poison →
      exec (.rereadComplete g run) s = .next (rankFailed v g (physRead v (locOfBank g i.req.bank i.req.row)).rank
        (some (originMaster i.req.access.origin)) 1 (some i.req.access.dpa)
        (some ((physRead v (locOfBank g i.req.bank i.req.row)).addr (lineOf i.req.access.dpa)))))) ∧
  (∀ (s : State) (g : Fin 256) (reads : List (Fin 25600 × Fin 64 × ReadRun)),
    exec (.spareCopyComplete g reads) s = .next (
      if s.get (CHN_ERROR_COPY_ACTIVE g) = 0 ∨ overCeiling s 4095 = true then s else
        (((advanceCopy s g 25600 (reads.map fun y => (y.1.val, y.2.1.val, y.2.2))).put (CHN_ERROR_COPY_ACTIVE g) 0).put
          (CHN_ERROR_COPY_BANK g) 0).put (CHN_ERROR_COPY_ROW g) 0))

/-- Rows, refresh and hammer at a channel controller (R109, R112, R118, R120, R123 to R125); ROW_IDLE_CLOSE, REFRESH_DUE, BACKSTOP_EXPIRY
and TARGETED_REFRESH complete so. A bank that no request waits for closes its row. A bank due in the current line is refreshed once in it,
the due banks below it first; the expiry of its backstop timer refreshes it too and is counted and shown. A targeted refresh comes after the
refreshes due in lower banks, mitigates the oldest pending row of the lowest bank that has one, and activates resume below 8 pending; a
second one in a line sets OVER_BUDGET. -/
def Obligations.ChannelClosesAndRefreshesRows : Prop :=
  (∀ (s : State) (g : Fin 256) (b : Fin 272),
    exec (.rowIdleClose g b) s = .next (
      if (readCands s g ++ writeCands s g).any (fun x => x.bank == b.val) = true then s
      else modChan s g fun c => { c with openRow := Tab.del c.openRow b, hits := Tab.del c.hits b })) ∧
  (∀ (s : State) (g : Fin 256) (b : Fin 272), refreshable s g b = true → refreshDue s g b = true →
    (∀ a : Nat, a < b.val → refreshLeft s g a = false) →
    exec (.refreshDue g b) s = .next (
      if Tab.find (chan s g).refreshed b = some s.ruling.gen then s else refreshBank s g b)) ∧
  (∀ (s u : State) (g : Fin 256) (b : Fin 272), refreshable s g b = true → (chan s g).backstopGen ≠ s.ruling.gen + 1 →
    u = eventOnce ((((modChan (refreshBank s g b) g fun c => { c with
      backstopGen := s.ruling.gen + 1, backstopLines := (chan s g).backstopLines + 1 }).inc (CHN_REFRESH_BACKSTOP_COUNT g)).put
        (CHN_REFRESH_BACKSTOP_SEEN g) 1).put (CHN_REFRESH_LAST_BACKSTOP_RANK g) (b / 16)) 0x44 g g (b / 16) →
    exec (.backstopExpiry g b) s = .next (if (chan u g).backstopLines = 1024 then event u 0x45 g else u)) ∧
  (∀ (s u : State) (g : Fin 256) (b r : Nat) (rest : List (Nat × Nat)), nextTargeted (chan s g) = some (b, r) →
    u = refreshBelow s g b → rest = (chan u g).targeted.filter (· != (b, r)) → (chan u g).targetedGen ≠ u.ruling.gen + 1 →
    exec (.targetedRefresh g) s = .next (((setChan u g (recordMitigation { chan u g with
      targeted := rest, targetedGen := u.ruling.gen + 1, openRow := Tab.del (chan u g).openRow b
      hits := Tab.del (chan u g).hits b, stopped := (chan u g).stopped && decide (8 ≤ rest.length) } b r)).inc
        (CHN_HAMMER_ISSUED g)).put (CHN_HAMMER_PENDING g) rest.length)) ∧
  (∀ (s : State) (g b : Nat), (chan (refreshBank s g b) g).openRow = Tab.del (chan s g).openRow b
    ∧ Tab.find (chan (refreshBank s g b) g).refreshed b = some s.ruling.gen
    ∧ ∀ b' : Nat, b' ≠ b → Tab.at (chan (refreshBank s g b) g).rowPtr b' 0 = Tab.at (chan s g).rowPtr b' 0)

/-- Pauses, repair and the channel's registers (R3, R86, R89 to R92, R97, R102, R126, R127, R134, R140, R141); RETRAINING_PAUSE,
PAUSE_COMPLETE, PAUSE_LENGTH_LIMIT, REPAIR_PAUSE, PARITY_ALERT, SIGNAL_COPY_FAILED, TOWER_SUPPLY_FAULT, CHN_SCHED_WRITE and CHN_POOL_READ
complete so. At its slot a channel pauses once in a line: the shadow bank is swapped in, the pause counted, the eye rule and the trims
applied, the remap put in force (a TSV declared by this pause's eyes too: the model's choice, log entry 75). The pause ends with its length
recorded; below 245 ns its test is abandoned. A repair pause applies the command/address remap and issues the lost commands again; a TSV
declared in it takes the blame for a command failure. A parity alert takes back the commands since the last acknowledged one and counts
against the TSV it is traced to; the third reissue in a row is a command failure. A write of CHN_SCHED takes effect whole or is refused
whole with a Notice. A read of CHN_POOL returns OCCUPIED_MAX and clears it. -/
def Obligations.ChannelPausesRepairsAndRegisters : Prop :=
  (∀ (s t : State) (g : Fin 256) (low : List (Fin 59)) (steps : List (Fin 131 × Bool)) (fails : Bool) (reads : List ReadRun),
    g.val < s.variant.channels → slotCounter s = s.get (CHN_PAUSE_INTERVAL_PHASE g) → (chan s g).paused = none →
    (chan s g).pausedGen ≠ s.ruling.gen + 1 → (chan s g).wokeGen ≠ s.ruling.gen + 1 →
    (chan s g).selfRefresh = false → s.get (CHN_REPAIR_STATE_STATE g) ≠ 5 →
    t = trimSteps (eyeRule ((swapBank s g).incW (CHN_PAUSE_STATUS_PAUSES g)) g low) g (steps.map fun x => (x.1.val, x.2)) →
    exec (.retrainingPause g low steps ⟨fails, reads⟩) s = .next (modChan t g fun c => { c with
      applied := t.get (CHN_DATA_TSV_FAILED_FAILED g)
      pausedGen := t.ruling.gen + 1
      paused := some (if (t.get (CHN_PAUSE_STATUS_PAUSES g) % 8 = 0 ∨ (chan s g).testDue = true)
        ∧ t.get (CHN_REPAIR_STATE_SPARE_STATE g) ≠ 2 then some { fails := fails, reads := reads } else none) })) ∧
  (∀ (s u : State) (g : Fin 256) (n : Fin 512) (t : Option SpareTest), (chan s g).paused = some t →
    n.val ≤ s.get (CHN_PAUSE_INTERVAL_LENGTH_NS g) → (t = none ∨ 245 ≤ s.get (CHN_PAUSE_INTERVAL_LENGTH_NS g)) →
    u = (modChan s g fun c => { c with paused := none, testDue := c.testDue && t.isNone }).put (CHN_PAUSE_STATUS_LAST_LENGTH_NS g) n →
    (t = none → exec (.pauseComplete g n) s = .next u) ∧
    (∀ x, t = some x → u.get (CHN_REPAIR_STATE_SPARE_STATE g) = 0 →
      exec (.pauseComplete g n) s = .next (if x.fails then spareTestFails u g else u)) ∧
    (∀ x, t = some x → u.get (CHN_REPAIR_STATE_SPARE_STATE g) = 1 → exec (.pauseComplete g n) s = .next (testInUse u g x.reads))) ∧
  (∀ (s t : State) (g : Fin 256) (n : Fin 512) (x : SpareTest), (chan s g).paused = some (some x) →
    s.get (CHN_PAUSE_INTERVAL_LENGTH_NS g) < 245 →
    t = event (((modChan s g fun c => { c with paused := none, testDue := true }).inc
      (CHN_PAUSE_STATUS_ABORTS g)).put (CHN_PAUSE_STATUS_LAST_LENGTH_NS g) (s.get (CHN_PAUSE_INTERVAL_LENGTH_NS g))) 0x48 g →
    exec (.pauseLengthLimit g) s = .next t ∧
    (n.val ≤ s.get (CHN_PAUSE_INTERVAL_LENGTH_NS g) → exec (.pauseComplete g n) s = .next t)) ∧
  (∀ (s u v : State) (g : Fin 256) (d : Option (Fin 15)), (chan s g).caRepair = true →
    u = (match d, (chan s g).commandFailure with
      | some t, _ => declareCa s g t
      | none, some r => rankFailed s g r none 0 none none
      | none, none => s) →
    v = (modChan u g fun c => { c with
      caRepair := false, commandFailure := none, appliedCa := u.get (CHN_CA_TSV_FAILED_FAILED g) }) →
    exec (.repairPause g d) s = .next (if v.get (CHN_REPAIR_STATE_STATE g) = 5 then v else reissueAll v g)) ∧
  (∀ (s u : State) (g : Fin 256) (r : Fin 17) (re : Bool) (lost : Fin 65) (n : Nat) (again : List ChanCmd),
    n = (if re then (chan s g).reissues + 1 else 0) →
    again = ((chan s g).unacked.drop ((chan s g).unacked.length - max 1 lost.val)).filter (stillLost (chan s g)) →
    u = (modChan (s.each again.reverse fun s x => undoCmd s g x) g fun c => { c with
      unacked := [], discarded := again ++ c.discarded
      reissues := if n = 3 then 0 else n
      commandFailure := if n = 3 then some r.val else c.commandFailure
      caRepair := c.caRepair || n == 3 }) →
    exec (.parityAlert g r none ⟨re, lost⟩) s = .next u ∧
    (∀ (t : Fin 15) (v : State), v = (modChan u g fun c => { c with alerts := Tab.set c.alerts t (Tab.at c.alerts t 0 + 1) }) →
      exec (.parityAlert g r (some t) ⟨re, lost⟩) s = .next (
        if (caWires u g).contains t.val then (if 16 < Tab.at (chan v g).alerts t 0 then declareCa v g t else v) else u))) ∧
  (∀ (s u : State) (g : Fin 256) (w : Fin 14), g.val < s.variant.channels →
    s.flag { CHN_CA_TSV_FAILED_STROBE_COPY g with width := 14 } w = false →
    u = recordRepair (s.setFlag { CHN_CA_TSV_FAILED_STROBE_COPY g with width := 14 } w) g 2 w →
    exec (.signalCopyFailed g w) s = .next (updateState (
      if signalLost u g = true ∨ (8 ≤ w.val ∧ w.val < 12 ∧ s.flag { CHN_CA_TSV_FAILED_STROBE_COPY g with width := 14 } (w.val / 2 * 4 + 1 - w.val))
      then u else event u 0x31 g w) g)) ∧
  (∀ (s : State) (t : Fin 4), t.val < s.variant.towers → exec (.towerSupplyFault t) s = .next (event s 0x38 (400 + t))) ∧
  (∀ (s : State) (g : Fin 256) (v : BitVec 64), g.val < s.variant.channels →
    (bitsOf v.toNat 48 8 < 1 ∨ 64 < bitsOf v.toNat 48 8 ∨ bitsOf v.toNat 40 8 < 8 ∨ bitsOf v.toNat 32 8 ≤ bitsOf v.toNat 24 8 + 16
      ∨ bitsOf v.toNat 0 16 < 50 ∨ 1000 < bitsOf v.toNat 0 16 → exec (.chnSchedWrite g v) s = .next (notice s g)) ∧
    (1 ≤ bitsOf v.toNat 48 8 → bitsOf v.toNat 48 8 ≤ 64 → 8 ≤ bitsOf v.toNat 40 8 → bitsOf v.toNat 24 8 + 16 < bitsOf v.toNat 32 8 →
      50 ≤ bitsOf v.toNat 0 16 → bitsOf v.toNat 0 16 ≤ 1000 →
      exec (.chnSchedWrite g v) s = .next (modChan (((((s.put (CHN_SCHED_HIT_RUN_MAX g) (bitsOf v.toNat 48 8)).put
        (CHN_SCHED_IDLE_CLOSE_NS g) (bitsOf v.toNat 40 8)).put (CHN_SCHED_WRITE_HIGH g) (bitsOf v.toNat 32 8)).put
        (CHN_SCHED_WRITE_LOW g) (bitsOf v.toNat 24 8)).put (CHN_SCHED_AGE_CAP_NS g) (bitsOf v.toNat 0 16)) g fun c =>
        { c with boundRemoved := decide (200 < bitsOf v.toNat 0 16) || decide (16 < bitsOf v.toNat 48 8) }))) ∧
  (∀ (s : State) (g : Fin 256), absentUnit s.variant .CHN_POOL g 0 = true →
    exec (.chnPoolRead g) s = .next (s.send (.deskValue (CHN_POOL_OCCUPIED_MAX g).addr 0))) ∧
  (∀ (s : State) (g : Fin 256), absentUnit s.variant .CHN_POOL g 0 = false → exec (.chnPoolRead g) s = .next ((s.put (CHN_POOL_OCCUPIED_MAX g) 0).send
    (.deskValue (CHN_POOL_OCCUPIED_MAX g).addr (s.word (CHN_POOL_OCCUPIED_MAX g).addr))))

/-- The course of a move (R26, R96, R150, R151, R157 to R162, R218); MOVE_COPY_COMPLETE, MAP_SWITCH, MOVING_CLEAR and SOURCE_SLOT_FREE
complete so. When it is the copy's turn and the migration account is below its ceiling, every line that is not inked is copied, a lost one
poisoned, and the switch is armed (the copy made and counted at that moment: the model's choice, log entry 78). At a later generated edge
the leaf's entry takes the destination location, or the reserve directory the quire's new channel, and the move is counted; at the next
MOVING clears; and once no request is resolved to the source row, or an edge later, what the move left is freed and the move slot with it. A
move in another stage is left as it is. -/
def Obligations.MovesGoThroughTheirStages : Prop :=
  (∀ (s t u : State) (k : Fin 64) (m : Move) (reads : List (Fin 32768 × ReadRun)) (home : List StoredLine) (lost : List Nat),
    Tab.find s.ductus.moves k = some m → m.stage = .copying → copyCarried s m = true → overCeiling s 4095 = false →
    copyReads s m (reads.map fun x => (x.1.val, x.2)) = (t, lost) →
    (m.quire = true → u = chargeNow (copyQuire (t.each lost fun s i => copyLost s m i) m lost) 4095 (2 * 64 * 32768) →
      exec (.moveCopyComplete k reads home) s = .next { u with ductus := { u.ductus with moves := Tab.set u.ductus.moves k { m with
        stage := .armed, stageGen := u.ruling.gen, hotLines := 0 } } })) ∧
  (∀ (s u : State) (k : Fin 64) (m : Move) (d : Loc) (home : List StoredLine),
    Tab.find s.ductus.moves k = some m → m.stage = .copying → copyCarried s m = true → overCeiling s 4095 = false →
    m.ofLeaf = true → m.dest = .local d → copyPoisoned s m = false → freshLeaf s m.leaf = false →
    u = chargeNow (((List.range 64).filter fun i => !m.inked.getLsbD i).foldl (fun t i => storeLine t d i (copySource s m home i)) s)
      4095 (4096 + 64 * ((List.range 64).filter fun i => !m.inked.getLsbD i).length) →
    freshLeaf (((List.range 64).filter fun i => !m.inked.getLsbD i).foldl (fun t i => storeLine t d i (copySource s m home i)) s) m.leaf
      = false →
    exec (.moveCopyComplete k [] home) s = .next
      { u with ductus := { u.ductus with moves := Tab.set u.ductus.moves k { m with
        stage := .armed, stageGen := u.ruling.gen
        hotLines := ((List.range 64).filter fun i => decide (4 ≤ (copySource s m home i).heat)).length } } }) ∧
  (∀ (s t u : State) (k : Fin 64) (m : Move) (e : Leaf) (map : ReadRun),
    Tab.find s.ductus.moves k = some m → m.stage = .armed → m.stageGen < s.ruling.gen → m.ofLeaf = true →
    (lookupBlock s m.leaf map = (t, false) → exec (.mapSwitch ⟨k, map⟩) s = .next t) ∧
    (lookupBlock s m.leaf map = (t, true) → leafEntry t m.leaf = some e →
      u = ((switchLeaf t m e).incW DCT_MOVE_STATUS_COMPLETED).put DCT_MOVE_STATUS_WRITE_HOT_LINES m.hotLines →
      exec (.mapSwitch ⟨k, map⟩) s = .next { u with ductus := { u.ductus with
        moves := Tab.set u.ductus.moves k { m with stage := .switched, stageGen := u.ruling.gen } } }
      ∧ leafEntry (switchLeaf t m e) m.leaf = some (switched e m.dest))) ∧
  (∀ (s u : State) (k : Fin 64) (m : Move) (d : Loc) (map : ReadRun),
    Tab.find s.ductus.moves k = some m → m.stage = .armed → m.stageGen < s.ruling.gen → m.quire = true → m.dest = .local d →
    u = ({ s with ductus := { s.ductus with reserve := Tab.set s.ductus.reserve m.leaf (some d.chan) } }.incW
      DCT_MOVE_STATUS_COMPLETED).put DCT_MOVE_STATUS_WRITE_HOT_LINES m.hotLines →
    exec (.mapSwitch ⟨k, map⟩) s = .next { u with ductus := { u.ductus with
      moves := Tab.set u.ductus.moves k { m with stage := .switched, stageGen := u.ruling.gen } } }) ∧
  (∀ (s u : State) (k : Fin 64) (m : Move) (e : Leaf),
    Tab.find s.ductus.moves k = some m → m.stage = .switched → m.stageGen < s.ruling.gen → m.ofLeaf = true →
    leafEntry s m.leaf = some e →
    u = setLeaf { s with ductus := { s.ductus with
      moves := Tab.set s.ductus.moves k { m with stage := .done, stageGen := s.ruling.gen } } } m.leaf { e with moving := false } →
    exec (.movingClear k) s = .next (moveEnded (showMoves u) k m.leaf false)) ∧
  (∀ (s u : State) (k : Fin 64) (m : Move),
    Tab.find s.ductus.moves k = some m → m.stage = .done →
    (rowBusy s m.source = false ∨ s.ruling.gen ≠ m.stageGen) →
    u = s.each (if m.quire then slotsOf s (leavingOwner m.leaf) else if m.sourceRemote.isSome then [] else [m.source]) freeSlot →
    exec (.sourceSlotFree k) s = .next (pumpRecalls (endRecalls (finishEvacuations (pump
      (closeCounters { u with ductus := { u.ductus with moves := Tab.del u.ductus.moves k } })))))) ∧
  (∀ (s : State) (k : Fin 64) (m : Move) (reads : List (Fin 32768 × ReadRun)) (home : List StoredLine) (map : ReadRun),
    Tab.find s.ductus.moves k = some m →
    (m.stage ≠ .copying → exec (.moveCopyComplete k reads home) s = .next s) ∧
    (m.stage ≠ .armed ∨ s.ruling.gen ≤ m.stageGen → exec (.mapSwitch ⟨k, map⟩) s = .next s) ∧
    (m.stage ≠ .switched ∨ s.ruling.gen ≤ m.stageGen → exec (.movingClear k) s = .next s) ∧
    (m.stage ≠ .done → exec (.sourceSlotFree k) s = .next s))

/-- The Ductus's own commands (R145, R149, R150, R152, R155, R156, R166, R180); MAP_CACHE_MISS_FILL, HEAT_SWEEP, DECISION_EPOCH, RECALL,
RECALL_TIMEOUT and DCT_SPREAD_SET_WRITE complete so. A missed map block is installed and the requests that waited for it go on; an
undecodable one is Fatal (by readMap) and leaves them without a location. The heat sweep visits its next block, halves each entry's heat and
clears its last sampler, at the migration account's charge, and waits at its ceiling. At line 0 of a folio the heat list is frozen, the
loads taken and the register values put in force, and the base placement rubric, when it runs, decides. A recall brings the lent leaves of
its slots home; one that is not complete in 256 folios is a Degraded event, once. A spread-set word keeps only channels in Normal state,
with a Notice for the others. -/
def Obligations.DuctusSweepsDecidesAndRecalls : Prop :=
  (∀ (s t u : State) (b : Nat) (w : Work) (rest : List (Nat × Work)) (run : ReadRun) (ok : Bool), s.ductus.missWait = (b, w) :: rest →
    u = { s with ductus := { s.ductus with missWait := s.ductus.missWait.filter fun x => x.1 != b } } → readMap u b run = (t, ok) →
    exec (.mapCacheMissFill run) s = .next (
      if ok then ((s.ductus.missWait.filter fun x => x.1 == b).map (·.2)).foldl
        (fun t w => proceed (heatSample t w.origin (leafOf w.dpa) (match w with | .write _ => true | .read _ => false)) w) (installBlock t b)
      else ((s.ductus.missWait.filter fun x => x.1 == b).map (·.2)).foldl
        (fun t w => match w with | .read a => endRead t a .poison | .write w => endWrite t w .failed) t)) ∧
  (∀ (s u : State) (b : Nat) (l : Loc) (i : Nat) (run : ReadRun), mapPlace s b = some (l, i) →
    u = readSeen s l i run (some (internalMaster 8)) none →
    readMap s b run = (if readOk s l.chan run then u else event u 0x52 429 b, readOk s l.chan run)) ∧
  (∀ (s t u : State) (run : ReadRun) (ok : Bool), overCeiling s 4095 = false →
    u = { s with ductus := { s.ductus with sweep := (s.ductus.sweep + 1) % (s.variant.leaves / 8) } } →
    (if mapHit u (8 * s.ductus.sweep) then (u, true) else readMap u s.ductus.sweep run) = (t, ok) →
    exec (.heatSweep run) s = .next (
      if ok then chargeNow ((t.ductus.map.filter fun x => x.1 / 8 == s.ductus.sweep).foldl (fun t x => sweepEntry t x.1 x.2) t) 4095 128
      else t)) ∧
  (∀ (s : State) (run : ReadRun), overCeiling s 4095 = true → exec (.heatSweep run) s = .next s) ∧
  (∀ (s : State) (k : Nat) (e : Leaf), leafEntry (sweepEntry s k e) k = some { e with heat := e.heat / 2, lastSampler := 0xFF }) ∧
  (∀ s : State, s.ruling.line % 1024 ≠ 0 → exec .decisionEpoch s = .next s) ∧
  (∀ s u : State, s.ruling.line % 1024 = 0 → u = takeEffect (takeLoad (freezeHeat s)) →
    (baseRuns u 1 = false → exec .decisionEpoch s = .next u) ∧
    (baseRuns u 1 = true → exec .decisionEpoch s = .next (lendCold (heatMoves (thermalRelief (restoreStripes u) s.ductus.hot)
      s.ductus.hot) s.ductus.cold))) ∧
  (∀ (s : State) (p : Fin 64) (q : BitVec 12) (l : List (BitVec 28)) (mine : List Nat), s.get (PRT_PORT_CTRL_ROLE p) = 1 → s.fatal = false →
    mine = ((l.map BitVec.toNat).filter fun x => s.ductus.map.any fun k =>
      k.2.remote && k.2.port == p.val && k.2.pbr == q.toNat && k.2.slot == x) →
    exec (.recall p q l) s = .next (if mine.isEmpty then s else pumpRecalls { s with ductus := { s.ductus with
      recalls := s.ductus.recalls ++ [{ port := p, pbr := q.toNat, slots := mine, folio := s.folio }] } })) ∧
  (∀ s : State, exec .recallTimeout s = .next ((s.ductus.recalls.filter fun r => !r.late && decide (r.folio + 256 ≤ s.folio)).foldl
    (fun t r => event t 0x54 429 r.port)
    { s with ductus := { s.ductus with
        recalls := s.ductus.recalls.map fun r =>
          if !r.late && decide (r.folio + 256 ≤ s.folio) then { r with late := true } else r } })) ∧
  (∀ (s : State) (n : Fin 512) (w : Fin 4) (v : BitVec 64), s.variant ≠ .v2096 →
    ((∀ b : Nat, b < 64 → v.getLsbD b = true → normalChan s (64 * w + b) = true) →
      exec (.dctSpreadSetWrite n w v) s = .next (s.setWord (DCT_SPREAD_SET_ALL n w).addr v)) ∧
    (∀ b : Nat, b < 64 → v = 1#64 <<< b → normalChan s (64 * w + b) = false →
      exec (.dctSpreadSetWrite n w v) s = .next (notice (s.setWord (DCT_SPREAD_SET_ALL n w).addr 0) 429)))

/-- Windows, urgency, the miss check and the shortfall rule of the accounts (R180, R181, R183, R184, R186, R188, R189, R194, R196);
ADMIT_TAKE_EFFECT, ACCOUNT_WINDOW_END, MISS_CHECK, SHORTFALL_EVALUATION and URGENCY_MESSAGE complete so. An accepted admission is applied
whole on the first line whose index is a multiple of 64 from its due line on, and each rubric is told; the record of an account sets its
terms, and the spread set of one that was not hard counts at once. An account whose window ends turns it, and the requests held at its
ceiling go on. At the end of the grace line a hard account whose counted bytes reach its target has met it; otherwise the miss is counted,
flagged and reported. The shortfall evaluation runs on each line whose index is a multiple of 4, and a base regulation rubric answers the
accounts that became REDUCED (on evaluation: the model's choice, log entry 73). An urgency message is kept for the account of its logical
device, and for none it is a Notice. -/
def Obligations.AccountsTurnWindowsAndReportMisses : Prop :=
  (∀ s : State, s.accounts.admitted = none → exec .admitTakeEffect s = .next s) ∧
  (∀ (s : State) (l : List (BitVec 64 × BitVec 64)) (cool : Bool) (due : Nat), s.accounts.admitted = some (l, cool, due) →
    s.ruling.line < due ∨ s.ruling.line % 64 ≠ 0 → exec .admitTakeEffect s = .next s) ∧
  (∀ (s u : State) (l : List (BitVec 64 × BitVec 64)) (cool : Bool) (due : Nat), s.accounts.admitted = some (l, cool, due) →
    due ≤ s.ruling.line → s.ruling.line % 64 = 0 →
    u = reserveCells ((l.foldl (fun t x => applyTerms t x.1 x.2) { s with accounts := { s.accounts with admitted := none } }).putB
      ACC_CTRL_ASSUME_COOL cool) →
    exec .admitTakeEffect s = .next ((List.range 8).foldl (fun t k => postEvent t k (descriptor 7 t.ruling.line)) u)) ∧
  (∀ (s u v : State) (c r : BitVec 64) (a : Nat), bitsOf c.toNat 62 2 ≠ 0 → a = bitsOf c.toNat 0 12 →
    u = (setTerms s a c r).put (ACC_SERVICE_EFFECTIVE a) (bitsOf r.toNat 0 24) →
    v = (if acctClass s a = 0 then modAcct u a fun x => { x with lines := 1 } else u) →
    applyTerms s c r = if isHard s a then v else
      { v with accounts := { v.accounts with counting := Tab.set v.accounts.counting a (spreadSet v (bitsOf c.toNat 38 9)) } }) ∧
  (∀ (s : State) (a : Fin 4096), exec (.accountWindowEnd a) s = .next (
    if windowDue s a = true then releaseHeld (turnWindow s a) a else s)) ∧
  (∀ (s u : State) (a : Fin 4096) (e c : Nat) (j : Bool), (acct s a).grace = some (e, c, j) → 2 ≤ (acct s a).lines →
    u = modAcct s a (fun x => { x with grace := none }) →
    (e ≤ c + (acct s a).counted → exec (.missCheck a) s = .next u) ∧
    (c + (acct s a).counted < e → ∀ v : State, v = eventOnce (((u.inc (ACC_SERVICE_MISSES a)).put (ACC_SERVICE_MISSED a) 1).setFlag
        (ACC_MISS_ALL (a / 64)) (a % 64)) 0x62 431 a a →
      exec (.missCheck a) s = .next (if j then v else
        missMsix (postEvent v (v.get ACC_CTRL_RUBRIC_SCRIBE) (descriptor 3 a)) a))) ∧
  (∀ s : State, s.ruling.line % 4 ≠ 0 → exec .shortfallEvaluation s = .next s) ∧
  (∀ s t : State, s.ruling.line % 4 = 0 →
    t = fillWaiting (evaluate s (fun a => stripedOver s a (spreadSet s (s.get (ACC_CFG_SPREAD a)))) (stripeDelivers s)) →
    exec .shortfallEvaluation s = .next (if baseRuns t 2 = true then
      ((configured t).filter fun a => t.on (ACC_SERVICE_REDUCED a) && !s.on (ACC_SERVICE_REDUCED a)).foldl reducedRubric t else t)) ∧
  (∀ (s : State) (p : Fin 64) (k : Fin 4) (d : Fin 16) (u : Fin 4),
    (∀ a : Nat, (configured s).find? (fun a => s.get (ACC_CFG_OWNER a) == 256 * p.val + 64 * k.val + d.val) = some a →
      exec (.urgencyMessage p k d u) s = .next
        { s with accounts := { s.accounts with urgMessage := Tab.set s.accounts.urgMessage a u } }) ∧
    ((configured s).find? (fun a => s.get (ACC_CFG_OWNER a) == 256 * p.val + 64 * k.val + d.val) = none →
      exec (.urgencyMessage p k d u) s = .next (event s 0x64 431 (256 * p.val + 64 * k.val + d.val))))

/-- The key-load unit (R201, R230, R232). In a mutually authenticated session of a DEPLOYED node KEY_LOAD fills an EMPTY entry with the
level, binding, clusters and key given, and answers 0x01 for an entry that is not EMPTY; KEY_CLEAR makes an entry CLEARING for the requester
that loaded it or the device owner and answers DENIED otherwise; KEY_QUERY answers STATE and LEVEL and changes nothing, and a reserved
command byte is answered 0x05, BAD_COMMAND. An index out of range is answered 2. Outside such a session the command gets an ERROR response
and changes nothing else. Once every request that resolved to the index has completed, the entry's key is dropped and it becomes EMPTY.
KEY_LOAD, KEY_CLEAR, KEY_QUERY and KEY_CLEAR_COMPLETE complete so. -/
def Obligations.KeyTableLoadsClearsAndAnswers : Prop :=
  (∀ (s : State) (id : BitVec 32) (lv : BitVec 2) (k b cl : BitVec 16) (xts : BitVec 512) (ik : BitVec 256) (x : Session),
    sessionOf s id.toNat = some x → x.mutAuth = true → lifecycle s = 2 →
    (k.toNat = 0 ∨ 1024 ≤ k.toNat → exec (.keyLoad id lv k b cl xts ik) s = .next (s.send (.answer "KEY_LOAD" 2 [0, 0, 0]))) ∧
    (0 < k.toNat → k.toNat < 1024 → keyState s k.toNat ≠ 0 →
      exec (.keyLoad id lv k b cl xts ik) s = .next (keyAnswer s "KEY_LOAD" 1 k.toNat)) ∧
    (0 < k.toNat → k.toNat < 1024 → keyState s k.toNat = 0 → s.sealing.reseal = none →
      exec (.keyLoad id lv k b cl xts ik) s = .next (keyAnswer
        (fillKey s k.toNat lv.toNat 0 b.toNat cl.toNat ⟨xts, ik, x.leaf⟩) "KEY_LOAD" 0 k.toNat))) ∧
  (∀ (s t : State) (k lv src b cl : Nat) (key : Key), lv < 4 → src < 4 → b < 65536 → cl < 65536 → t = fillKey s k lv src b cl key →
    keyState t k = 1 ∧ keyLevel t k = lv ∧ t.get (SEL_KEY_ATTR_SOURCE k) = src ∧ t.get (SEL_KEY_ATTR_BINDING k) = b
      ∧ keyOf t k = key ∧ ∀ k' : Nat, k' ≠ k → keyOf t k' = keyOf s k') ∧
  (∀ (s : State) (id : BitVec 32) (k : BitVec 16) (x : Session), sessionOf s id.toNat = some x → x.mutAuth = true → lifecycle s = 2 →
    (∀ c : BitVec 8, c ≠ 3 → exec (.keyQuery id ⟨c, k⟩) s = .next (s.send (.answer "KEY_QUERY" 5 [0, 0, 0]))) ∧
    (k.toNat = 0 ∨ 1024 ≤ k.toNat →
      exec (.keyClear id k) s = .next (s.send (.answer "KEY_CLEAR" 2 [0, 0, 0]))
      ∧ exec (.keyQuery id ⟨3, k⟩) s = .next (s.send (.answer "KEY_QUERY" 2 [0, 0, 0]))) ∧
    (0 < k.toNat → k.toNat < 1024 →
      exec (.keyQuery id ⟨3, k⟩) s = .next (keyAnswer s "KEY_QUERY" 0 k.toNat) ∧
      (keyState s k.toNat = 0 → exec (.keyClear id k) s = .next (keyAnswer s "KEY_CLEAR" 0 k.toNat)) ∧
      (keyState s k.toNat = 2 → exec (.keyClear id k) s = .next (keyAnswer s "KEY_CLEAR" 4 k.toNat)) ∧
      (keyState s k.toNat = 1 → exec (.keyClear id k) s = .next (
        if (s.get (SEL_KEY_ATTR_SOURCE k.toNat) = 0 ∧ (keyOf s k.toNat).loader = x.leaf) ∨ ownerKey s x.root = true then
          keyAnswer (s.put (SEL_KEY_ATTR_STATE k.toNat) 2) "KEY_CLEAR" 0 k.toNat
        else keyAnswer s "KEY_CLEAR" 3 k.toNat)))) ∧
  (∀ (s : State) (id : BitVec 32) (k : BitVec 16), sessionOf s id.toNat = none →
    exec (.keyQuery id ⟨3, k⟩) s = .next (s.drew.send (.answer "ERROR" (s.freeNow.toNat % 256) [])) ∧
    exec (.keyClear id k) s = .next (s.drew.send (.answer "ERROR" (s.freeNow.toNat % 256) []))) ∧
  (∀ (s : State) (k : Fin 1024), keyState s k = 2 →
    exec (.keyClearComplete k) s = .next (if keyBusy s k = true then s else
      { s.setWord (SEL_KEY_ATTR_STATE k).addr 0 with sealing := { s.sealing with
          merge := s.sealing.merge.filter fun x => !(x.2.1 == k.val)
          keys := Tab.del s.sealing.keys k } }))

/-- TSP on a logical device of a Host port whose sub-link is up (R233, R205). The configuration is set until it is locked and refused from
then on; locking sets LOCKED. A key is set into an EMPTY entry with BINDING the link's OWNER, at level sealed unless the configuration
selects confidential, and refused into any other entry; the key that TSP set on this link is cleared, and no other. TE is set or cleared for
the quires of an aligned range within the node's capacity. TSP_GET_VERSION, TSP_LOCK_TARGET_CONFIG, TSP_SET_TARGET_CONFIG, TSP_SET_KEY,
TSP_CLEAR_KEY and TSP_SET_TE_STATE complete so. -/
def Obligations.TspCommandsActOnTheirDevice : Prop :=
  (∀ (s : State) (p : Fin 64) (k : Fin 4) (d : Fin 16), tspTo s p k d = true →
    ∀ (j id : Nat) , j = 16 * k.val + d.val → id = 64 * p.val + j →
    exec (.tspGetVersion p k d) s = .next (s.send (.answer "TSP_GET_VERSION" 0 [])) ∧
    exec (.tspLockTargetConfig p k d) s = .next ((s.put (SEL_LD_KEY_LOCKED p j) 1).send (.answer "TSP_LOCK_TARGET_CONFIG" 0 [])) ∧
    (∀ (c : BitVec 32) (conf : Bool), exec (.tspSetTargetConfig p k d c conf) s = .next (
      if s.get (SEL_LD_KEY_LOCKED p j) = 0 then
        ({ s with sealing := { s.sealing with
            tspSet := Tab.set s.sealing.tspSet id c.toNat
            tspConf := if conf then id :: s.sealing.tspConf.filter (· != id) else s.sealing.tspConf.filter (· != id) } }).send
          (.answer "TSP_SET_TARGET_CONFIG" 0 [])
      else s.send (.answer "TSP_SET_TARGET_CONFIG" 1 []))) ∧
    (∀ (x : BitVec 16) (xts : BitVec 512) (ik : BitVec 256), s.sealing.reseal = none →
      exec (.tspSetKey p k d x xts ik) s = .next (
        if 0 < x.toNat ∧ x.toNat < 1024 ∧ keyState s x.toNat = 0 then
          (fillKey s x.toNat (if s.sealing.tspConf.contains id then 1 else 2) 1 (linkOwner p k d) 0 ⟨xts, ik, 0⟩).send
            (.answer "TSP_SET_KEY" 0 [])
        else s.send (.answer "TSP_SET_KEY" 1 []))) ∧
    (∀ x : BitVec 16, exec (.tspClearKey p k d x) s = .next (
      if 0 < x.toNat ∧ x.toNat < 1024 ∧ keyState s x.toNat = 1 ∧ s.get (SEL_KEY_ATTR_SOURCE x.toNat) = 1
          ∧ s.get (SEL_KEY_ATTR_BINDING x.toNat) = linkOwner p k d then
        (s.put (SEL_KEY_ATTR_STATE x.toNat) 2).send (.answer "TSP_CLEAR_KEY" 0 [])
      else s.send (.answer "TSP_CLEAR_KEY" 1 []))) ∧
    (∀ (a n : BitVec 52) (te : Bool), exec (.tspSetTeState p k d a n te) s = .next (
      if a.toNat % 2 ^ 21 = 0 ∧ n.toNat % 2 ^ 21 = 0 ∧ a.toNat + n.toNat ≤ s.variant.leaves * 4096 then
        ({ s with sealing := { s.sealing with
            te := (if te then (List.range (n.toNat / 2 ^ 21)).map (a.toNat / 2 ^ 21 + ·) else []) ++
              s.sealing.te.filter fun q => !((List.range (n.toNat / 2 ^ 21)).map (a.toNat / 2 ^ 21 + ·)).contains q } }).send
          (.answer "TSP_SET_TE_STATE" 0 [])
      else s.send (.answer "TSP_SET_TE_STATE" 1 []))))

/-- Reseals and link IDE (R228 to R231). RESEAL_START, RESEAL_COMPLETE, IDE_KM_MESSAGE and IDE_INTEGRITY_FAILURE complete so. Key index 0
leaves the register as it was; a node that does not exist, or a reseal while another runs, is refused with its status; one whose AUTH does
not match (or, for an EMPTY index, whose node is not under the unverifiable list) is refused with an event; else it runs. The challenge is
drawn anew on every START. A reseal is complete once every holder has answered: the FRESH lines of the index beneath the node are blanked,
the nodes rebuilt, and the status reads 2. An IDE key message over the session of its port programs a key set, switches to a programmed set,
or stops the stream; an integrity failure takes a secure stream to insecure and is counted and reported, to the Blotter and to the Seal's
Scribe. -/
def Obligations.ResealsAndLinkIde : Prop :=
  (∀ (s : State) (v : BitVec 64), bitsOf v.toNat 48 10 = 0 → exec (.resealStart v) s = .next (notice s 428)) ∧
  (∀ (s : State) (v : BitVec 64) (k lv n : Nat) (u : State),
    k = bitsOf v.toNat 48 10 → lv = bitsOf v.toNat 45 3 → n = bitsOf v.toNat 16 27 → 0 < k → lv ≤ 4 →
    u = s.setWord SEL_RESEAL_CMD_KEY_INDEX.addr (BitVec.ofNat 64 (k * 2 ^ 48 + lv * 2 ^ 45 + n * 2 ^ 16)) →
    (v.getLsbD 0 = false → exec (.resealStart v) s = .next u) ∧
    (v.getLsbD 0 = true → 64 ^ lv * n ≥ s.variant.leaves →
      exec (.resealStart v) s = .next (newChallenge (u.put SEL_RESEAL_STATUS_STATUS 4))) ∧
    (v.getLsbD 0 = true → 64 ^ lv * n < s.variant.leaves →
      ((u.sealing.reseal ≠ none ∨ u.fabric.adding ≠ none) →
        exec (.resealStart v) s = .next (newChallenge (u.put SEL_RESEAL_STATUS_STATUS 5))) ∧
      (u.sealing.reseal = none → u.fabric.adding = none →
        (if keyState u k = 0 then underLost u lv n = false else resealAuth u k lv n ≠ u.sealing.auth) →
        exec (.resealStart v) s = .next (newChallenge ((sealEvent u 9 428 k).put SEL_RESEAL_STATUS_STATUS 3))) ∧
      (u.sealing.reseal = none → u.fabric.adding = none →
        (if keyState u k = 0 then underLost u lv n = true else resealAuth u k lv n = u.sealing.auth) → leavesUnder u lv n = [] →
        exec (.resealStart v) s = .next (newChallenge (({ u with sealing := { u.sealing with
          reseal := some ⟨k, lv, n⟩ } }.put SEL_RESEAL_STATUS_LEFT 0).put SEL_RESEAL_STATUS_STATUS 1))))) ∧
  (∀ s : State, (newChallenge s).sealing.challenge = s.freeNow ∧ (newChallenge s).free = s.free + 1) ∧
  (∀ (s u v : State) (r : Reseal), s.sealing.reseal = some r → (∀ x ∈ s.fabric.snoops, x.why ≠ .reseal) →
    u = rebuild (newEpoch ((leavesUnder s r.level r.node).foldl (fun t leaf => resealLeaf t r.key leaf) s) r.level r.node) r.level r.node →
    unverifiable u = [] → u.sealing.extraLost = [] → v = settleLost { u with sealing := { u.sealing with reseal := none } } →
    exec .resealComplete s = .next (showLocked ((v.put SEL_RESEAL_STATUS_STATUS 2).put SEL_RESEAL_STATUS_LEFT 0))) ∧
  (∀ s : State, s.sealing.reseal = none → exec .resealComplete s = .next s) ∧
  (∀ (s : State) (id : BitVec 32) (p : Fin 64) (i ks : Fin 2) (c : Bool) (key : BitVec 256) (x : Session),
    sessionOf s id.toNat = some x → ideSession s x p = true →
    ∀ st : IdeStream, st = Tab.at s.sealing.ide (2 * p.val + i.val) {} →
    exec (.ideKmMessage id p i 0 ks c key) s = .next ({ s with sealing := { s.sealing with
      ide := Tab.set s.sealing.ide (2 * p.val + i.val) ⟨(ks.val, key) :: st.keys.filter fun k => k.1 != ks.val⟩ } }.send
        (.answer "IDE_KM_MESSAGE" 0 [])) ∧
    ((st.keys.any fun k => k.1 == ks.val) = true → i = 0 → exec (.ideKmMessage id p i 1 ks c key) s = .next
      (((s.put (SEL_IDE_S0_STATE p) 1).put (SEL_IDE_S0_KEYSET p) ks).send (.answer "IDE_KM_MESSAGE" 0 []))) ∧
    ((st.keys.any fun k => k.1 == ks.val) = true → i = 1 → exec (.ideKmMessage id p i 1 ks c key) s = .next
      ((((s.put (SEL_IDE_S1_STATE p) 1).put (SEL_IDE_S1_KEYSET p) ks).putB (SEL_IDE_S1_MODE p) c).send (.answer "IDE_KM_MESSAGE" 0 []))) ∧
    exec (.ideKmMessage id p i 2 ks c key) s = .next (({ s.put (ideState p i) 0 with sealing := { s.sealing with
      ide := Tab.del s.sealing.ide (2 * p.val + i.val) } }).send (.answer "IDE_KM_MESSAGE" 0 []))) ∧
  (∀ (s u : State) (p : Fin 64) (i : Fin 2), u = (s.put (ideState p i) 2).inc (SEL_IDE_FAILS p) →
    exec (.ideIntegrityFailure p i) s = .next (if s.get (ideState p i) = 1 then
      postEvent (event u 0x7A (448 + p.val) i) (u.get SEL_CTRL_EVENT_SCRIBE) (descriptor 5 10) else s))

/-- What Seal stores it can open again (R206 to R212): a line stored for plaintext under a key index opens under that index to the
plaintext, whatever the level, unless the leaf is on the unverifiable list of a sealed-fresh index; under another index it is a violation
when the stored index is loaded and orphaned when its entry is EMPTY. The cipher and the hash are opaque. -/
def Obligations.StoredLinesOpenToTheirPlaintext : Prop :=
  (∀ (s : State) (dpa key heat : Nat) (plain : BitVec 512), 0 < key ∨ keyLevel s key = 0 →
    (keyLevel s key = 3 → leafLost s (leafOf dpa) = false) →
    openLine s dpa key (closeLine s dpa key heat plain) = .data plain) ∧
  (∀ (s : State) (dpa key other heat : Nat) (plain : BitVec 512), 0 < key → other ≠ key →
    openLine s dpa other (closeLine s dpa key heat plain) = (if keyState s key = 0 then .orphaned else .violation)) ∧
  (∀ (s : State) (dpa key : Nat) (m : MediaLine), m.poison = true → openLine s dpa key m = .poison) ∧
  (∀ (s : State) (dpa key : Nat), openLine s dpa key {} = .data 0)

/-- How links come up, fail and recover (R240, R244, R250 to R253, R291). Training of a terminated sub-link that exists, is down and not
held in Detect, at a width and rate allowed, sets the width and lanes of R252, the rate and the polarities and takes it to L0; a failed
training takes it back to Detect with its Notice. Loss of symbol lock is counted and that of a lane in use is watched; a lane that regains
it in time is forgotten, and one that does not is declared failed, which sends its sub-link through Recovery to the width of R252, or down.
Recovery ends in L0 at the old width with a Notice, at the width of R252 after a failure or a retrain, or with the sub-link down.
LINK_TRAINING_COMPLETE, LINK_TRAINING_FAILED, LOCK_LOSS, LOCK_REGAINED, LOCK_TIMEOUT, RECOVERY_ENTRY and RECOVERY_COMPLETE complete so. -/
def Obligations.LinksTrainFailAndRecover : Prop :=
  (∀ (s u : State) (p : Fin 64) (k : Fin 4) (w r : Fin 6) (m : Bool) (pol : BitVec 16) (high : Bool),
    terminated s p = true → terminationsOn s p = true → subExists s p k = true → linkUp s p k = false →
    0 < w.val → w.val ≤ fullWidth s p → r.val ≤ s.get (LAN_PORT_CTRL_MAX_RATE p) → laneSet s p k w = some high →
    u = (setWidth (if m then { s with lanes := { s.lanes with mirrored := (4 * p.val + k.val) :: s.lanes.mirrored } } else s) p k w high).put
      (linkRateF p k) r →
    exec (.linkTrainingComplete p k w r m pol) s = .next (sendDoze (goodWake (setLink
      (((List.range (subLanes u p k).2).map ((subLanes u p k).1 + ·)).foldl
        (fun t l => t.setFlag (LAN_LANES_POLARITY_INVERTED p) l (pol.getLsbD l)) u) p k 3) p) p)) ∧
  (∀ (s : State) (p : Fin 64) (k : Fin 4) (r : Fin 3), terminated s p = true → linkUp s p k = false →
    exec (.linkTrainingFailed p k r) s = .next (if r = 0 then event (setLink s p k (restState s p k)) 0x84 (256 + p) k
      else if r = 1 then event (setLink s p k (restState s p k)) 0x96 (320 + p) k
      else notice (setLink s p k (restState s p k)) (256 + p))) ∧
  (∀ (s u : State) (p : Fin 64) (l : Fin 16), p.val < s.variant.ports → u = s.inc (LAN_LANE_ERRORS_LOCK_LOSSES p l) →
    exec (.lockLoss p l) s = .next (if laneInUse u p l = true then { u with lanes := { u.lanes with
      lockLost := (16 * p.val + l.val) :: u.lanes.lockLost.filter (· != 16 * p.val + l.val) } } else u)) ∧
  (∀ (s : State) (p : Fin 64) (l : Fin 16), exec (.lockRegained p l) s = .next
    { s with lanes := { s.lanes with lockLost := s.lanes.lockLost.filter (· != 16 * p.val + l.val) } }) ∧
  (∀ (s : State) (p : Fin 64) (l : Fin 16), exec (.lockTimeout p l) s = .next (
    if 16 * p.val + l.val ∈ s.lanes.lockLost then declareLane s p l else s)) ∧
  (∀ (s e u : State) (p l : Nat), laneFailed s p l = false →
    e = event (countPort (s.setFlag (LAN_LANES_LANE_FAILED p) l) p 0 0 1 0) 0x80 (256 + p) l →
    u = { e with lanes := { e.lanes with
      lockLost := e.lanes.lockLost.filter (· != 16 * p + l), recFails := Tab.del e.lanes.recFails (16 * p + l) } } →
    (terminated u p = false → declareLane s p l = u) ∧
    (terminated u p = true → selectWidth u p (subOf u p l) = none →
      declareLane s p l = event (subDown u p (subOf u p l)) 0x81 (256 + p) (subOf u p l)) ∧
    (terminated u p = true → selectWidth u p (subOf u p l) ≠ none → ∃ n : List Nat, (4 * p + subOf u p l) ∈ n ∧
      declareLane s p l = setLanes (setLink u p (subOf u p l) 4) { (setLink u p (subOf u p l) 4).lanes with narrowing := n })) ∧
  (∀ (s : State) (p : Fin 64) (k : Fin 4), exec (.recoveryEntry p k) s = .next (
    if terminated s p = true ∧ s.get (linkStateF p k) = 3 then setLink s p k 4 else s)) ∧
  (∀ (s : State) (p : Fin 64) (k : Fin 4) (l : List (Fin 16)), s.get (linkStateF p k) = 4 → terminated s p = true →
    exec (.recoveryComplete p k false l) s = .next (if 4 * p.val + k.val ∈ s.lanes.narrowing then
      event (subDown s p k) 0x81 (256 + p) k else subDown s p k)) ∧
  (∀ (s : State) (p : Fin 64) (k : Fin 4) (b : Bool) (l : List (Fin 16)), s.get (linkStateF p k) = 4 → terminated s p = false →
    exec (.recoveryComplete p k b l) s = .next (noteUnlocked s p k false (l.map Fin.val))) ∧
  (∀ (s u v w : State) (p : Fin 64) (k : Fin 4) (l : List (Fin 16)), s.get (linkStateF p k) = 4 → terminated s p = true →
    u = noteUnlocked s p k (s.lanes.retrain.contains (4 * p.val + k.val)) (l.map Fin.val) →
    u.get (LAN_LANES_LANE_FAILED p) = s.get (LAN_LANES_LANE_FAILED p) → u.get (linkStateF p k) = 4 →
    v = (if 4 * p.val + k.val ∈ s.lanes.narrowing ∨ 4 * p.val + k.val ∈ u.lanes.retrain then
        (match selectWidth u p k with | some (w, h) => setWidth u p k w h | none => u)
      else u) →
    w = (if v.get (linkWidthF p k) = u.get (linkWidthF p k) then eventOnce v 0x82 (256 + p) p k else v) →
    exec (.recoveryComplete p k true l) s = .next (setLink (setLanes w { w.lanes with
      retrain := w.lanes.retrain.filter (· != 4 * p.val + k.val)
      narrowing := w.lanes.narrowing.filter (· != 4 * p.val + k.val) }) p k 3))

/-- Equalization, margining and the registers of the ports' lanes (R239, R246 to R248, R253, R271). On a lane that equalizes (at 8.0 GT/s
and above) a legal equalization request is applied to the lane's transmitter, and an illegal one is not. At the phase's end the lane has
asked its partner for every preset and at most 24 changes, and keeps, of the settings without an error, the one with the largest eye,
calibrated, and with none its stored setting, with a Notice. A margin write out of range is refused with a Notice, and with START a step
begins with its counts at 0; the step ends with its samples and its errors, at most the limit. A retrain takes the port's links through
Recovery. A bifurcation write is refused while locked, for the reserved code, or while an enabled pair of the quadrant is out of Detect;
else the quadrant's terminated ports go to Detect. HOLD_DETECT takes a terminated port to Detect. EQUALIZATION_REQUEST,
EQUALIZATION_PHASE_END, MARGIN_START, MARGIN_STEP_COMPLETE, PORT_RETRAIN and BIFURCATION_WRITE complete so. -/
def Obligations.LaneSettingsAndBifurcation : Prop :=
  (∀ (s : State) (p : Fin 64) (l q : Fin 16) (r : Fin 6) (a b c d : BitVec 6),
    (equalizes s p l r = true → exec (.equalizationRequest p ⟨l, r⟩ true q a b c d) s = .next (((((s.put (LAN_LANE_EQ_CM2 p l) a.toNat).put
      (LAN_LANE_EQ_CM1 p l) b.toNat).put (LAN_LANE_EQ_C0 p l) c.toNat).put (LAN_LANE_EQ_CP1 p l) d.toNat).put (LAN_LANE_EQ_PRESET p l) q)) ∧
    exec (.equalizationRequest p ⟨l, r⟩ false q a b c d) s = .next s) ∧
  (∀ (s t u : State) (p : Fin 64) (l : Fin 16) (r : Fin 6) (presets : List (Fin 16 × EyeRun)) (steps : List (BitVec 24 × EyeRun))
      (first best : Option (Nat × EyeRun)) (drift : Nat) (c : State × Nat), equalizes s p l r = true →
    first = bestEye (presets.map fun x => (x.1.val, x.2)) →
    best = bestEye (first.toList ++ (steps.take 24).map fun x => ((first.map Prod.fst).getD 0, x.2)) →
    t = (steps.take 24).foldl (fun t x => t.send (.equalize p l none x.1))
      (presets.foldl (fun t x => t.send (.equalize p l (some x.1.val) 0)) s) →
    u = (if best = none then event t 0x83 (256 + p) l else t) →
    c = calibrateLane u p l (best.map fun x => (x.2.setting.toNat, x.1, x.2.eye)) drift →
    exec (.equalizationPhaseEnd p ⟨l, r⟩ ⟨presets, steps, drift⟩) s = .next (c.1.put (LAN_LANE_EQ_RX_SETTING p l) c.2)) ∧
  (∀ (l : List (Nat × EyeRun)) (x : Nat × EyeRun), bestEye l = some x →
    x ∈ l ∧ x.2.errors = false ∧ ∀ y ∈ l, y.2.errors = false → y.2.eye ≤ x.2.eye) ∧
  (∀ l : List (Nat × EyeRun), bestEye l = none ↔ ∀ y ∈ l, y.2.errors = true) ∧
  (∀ (s : State) (p l r : Nat), equalizes s p l r = true → 2 ≤ r) ∧
  (∀ (s : State) (p : Fin 64) (l : Fin 16) (v : BitVec 64), absentUnit s.variant .LAN_LANE_MARGIN p l = false →
    ∀ u : State, u = (((s.put (LAN_LANE_MARGIN_ERROR_LIMIT p l) (bitsOf v.toNat 10 6)).put (LAN_LANE_MARGIN_STEPS p l)
      (bitsOf v.toNat 3 7)).put (LAN_LANE_MARGIN_SIDE p l) (bitsOf v.toNat 2 1)).put (LAN_LANE_MARGIN_KIND p l) (bitsOf v.toNat 1 1) →
    (bitsOf v.toNat 10 6 = 0 ∨ bitsOf v.toNat 3 7 = 0 ∨ (if bitsOf v.toNat 1 1 = 0 then 32 else 64) < bitsOf v.toNat 3 7 →
      exec (.marginStart p l v) s = .next (notice s (256 + p))) ∧
    (0 < bitsOf v.toNat 10 6 → 0 < bitsOf v.toNat 3 7 → bitsOf v.toNat 3 7 ≤ (if bitsOf v.toNat 1 1 = 0 then 32 else 64) →
      exec (.marginStart p l v) s = .next (if v.getLsbD 0 = true then
        { (u.put (LAN_LANE_MARGIN_SAMPLES p l) 0).put (LAN_LANE_MARGIN_ERRORS p l) 0 with
          lanes := { s.lanes with margins := (16 * p.val + l.val) :: s.lanes.margins.filter (· != 16 * p.val + l.val) } }
        else u))) ∧
  (∀ (s : State) (p : Fin 64) (l : Fin 16) (n e : Nat), exec (.marginStepComplete p l n e) s = .next (
    if 16 * p.val + l.val ∈ s.lanes.margins then
      { (s.put (LAN_LANE_MARGIN_SAMPLES p l) (min n 65535)).put (LAN_LANE_MARGIN_ERRORS p l)
          (min e (s.get (LAN_LANE_MARGIN_ERROR_LIMIT p l))) with
        lanes := { s.lanes with margins := s.lanes.margins.filter (· != 16 * p.val + l.val) } }
    else s)) ∧
  (∀ (s : State) (p : Fin 64) (v : BitVec 64), absentUnit s.variant .LAN_PORT_CTRL p 0 = false →
    ∀ u : State, u = (((((s.put (LAN_PORT_CTRL_MAX_RATE p) (bitsOf v.toNat 20 4)).put (LAN_PORT_CTRL_CLOCK_MODE p)
      (bitsOf v.toNat 18 2)).put (LAN_PORT_CTRL_L0P_ENABLE p) (bitsOf v.toNat 17 1)).put (LAN_PORT_CTRL_L1_ENABLE p)
      (bitsOf v.toNat 16 1)).put (LAN_PORT_CTRL_LANE_REVERSE_ALLOW p) (bitsOf v.toNat 3 1)).put (LAN_PORT_CTRL_HOLD_DETECT p)
      (bitsOf v.toNat 1 1) →
    bitsOf v.toNat 20 4 ≤ 5 → bitsOf v.toNat 18 2 ≠ 3 →
    terminated u p = true → ∀ w : State, w = (if bit v.toNat 1 = true then portDown u p else showRest u p) →
    exec (.portRetrain p v) s = .next (if bit v.toNat 2 = true ∧ terminated w p = true then
      (List.range 4).foldl (fun t k => if t.get (linkStateF p k) = 3 ∨ t.get (linkStateF p k) = 4 ∨ t.get (linkStateF p k) = 5 then
        setLanes (setLink t p k 4) { t.lanes with retrain := (4 * p.val + k) :: t.lanes.retrain.filter (· != 4 * p.val + k) }
        else t) w
      else w)) ∧
  (∀ (s : State) (q : Fin 4) (v : BitVec 64), absentUnit s.variant .LAN_QUAD q 0 = false →
    (strapLocked s 0 = true ∨ v.toNat % 4 = 3 → exec (.bifurcationWrite q v) s = .next (notice s (256 + 16 * q.val))) ∧
    (strapLocked s 0 = false → v.toNat % 4 ≠ 3 →
      (((List.range 8).map (8 * q.val + ·)).any fun k => pairEnabled s k && (List.range 4).any fun j =>
        s.get (linkStateF (2 * k) j) != 0 || s.get (linkStateF (2 * k + 1) j) != 0) = true →
      exec (.bifurcationWrite q v) s = .next (event s 0x85 (256 + 16 * q.val))) ∧
    (strapLocked s 0 = false → v.toNat % 4 ≠ 3 → (∀ k : Nat, k < 8 → pairEnabled s (8 * q.val + k) = false) →
      ∀ (ports : List Nat) (u : State), ports = ((List.range 16).map (16 * q.val + ·)).filter (terminated s) →
      u = (ports.foldl portDown s).put (LAN_QUAD_BIFURCATION q) (v.toNat % 4) →
      exec (.bifurcationWrite q v) s = .next (ports.foldl showRest u)))

/-- Through-pairs (R255, R260 to R263, R271). A pair is bonded or parted by a write of its ENABLE, under its lock: both ports go to Detect
and READY clears. What a ready pair receives on one port leaves by the other, with the rates above the odd port's MAX_RATE masked from
training sets; a flit is counted, its errors too, and an overrun is reported. A pair becomes ready, with its latencies, while its sub-domain
is up and its SerDes PLL does not coast; one that does not in time is reported. PAIR_ENABLE_WRITE, PAIR_FORWARD, PAIR_READY and
PAIR_READY_TIMEOUT complete so. -/
def Obligations.ThroughPairsBondAndForward : Prop :=
  (∀ (s : State) (k : Fin 32) (v : BitVec 64), absentUnit s.variant .LAN_PAIR k 0 = false →
    ∀ u : State, u = s.put (LAN_PAIR_ORIENT k) (bitsOf v.toNat 1 1) →
    exec (.pairEnableWrite k v) s = .next (if v.getLsbD 0 = pairEnabled u k then u
      else if strapLocked u 1 = true then notice u (256 + 2 * k.val) else runPair u k (v.getLsbD 0))) ∧
  (∀ (s u : State) (k n : Nat) (on' : Bool), n = k / 2 →
    u = linkVotes (showRest (showRest (((((portDown (portDown s (2 * k)) (2 * k + 1)).putB (LAN_PAIR_ENABLE k) on').put
      (LAN_PAIR_READY k) 0).put (PRT_PORT_CTRL_ROLE (2 * k)) (if on' then 2 else 0)).put (PRT_PORT_CTRL_ROLE (2 * k + 1))
      (if on' then 2 else 0)) (2 * k)) (2 * k + 1)) (2 * k) →
    runPair s k on' = vote u n 1 (pairEnabled u (2 * n) || pairEnabled u (2 * n + 1))) ∧
  (∀ (s : State) (k : Fin 32) (sub : Fin 4) (r : BitVec 6), pairEnabled s k = true → s.on (LAN_PAIR_READY k) = true →
    subExists s (2 * k.val) sub = true → 2 * k.val ∉ s.lanes.pairIdle →
    s.get (linkStateF (2 * k.val) sub) ≠ 3 → s.get (linkStateF (2 * k.val) sub) ≠ 4 →
    exec (.pairForward k false sub 0 r ⟨[], false⟩ false) s = .next (setLink (setLink { s with
      out := s.out ++ [.pairForward (2 * k.val + 1) sub 0
        (r &&& BitVec.ofNat 6 (2 ^ (s.get (LAN_PORT_CTRL_MAX_RATE (2 * k.val)) + 1) - 1))] } (2 * k.val) sub 2) (2 * k.val + 1) sub 2)) ∧
  (∀ (s : State) (k : Fin 32) (sub : Fin 4) (r : BitVec 6) (l : List (Fin 16)), pairEnabled s k = true →
    s.on (LAN_PAIR_READY k) = true → subExists s (2 * k.val + 1) sub = true → 2 * k.val + 1 ∉ s.lanes.pairIdle → l ≠ [] →
    exec (.pairForward k true sub 4 r ⟨l, false⟩ true) s = .next (event (l.foldl
      (fun t l => t.incW (LAN_LANE_ERRORS_CORRECTED_SYMBOLS (2 * k.val + 1) l))
      (((setLink (setLink (s.send (.pairForward (2 * k.val) sub 4 r)) (2 * k.val + 1) sub 3) (2 * k.val) sub 3).incW
        (LAN_FLITS_ALL (2 * k.val + 1))).incW (LAN_LINK_ERRORS_FEC_CORRECTED (2 * k.val + 1)))) 0x86 (256 + (2 * k.val + 1)) k)) ∧
  (∀ (s : State) (k : Fin 32) (sub : Fin 4) (kind : Fin 6) (r : BitVec 6) (l : List (Fin 16)) (up un ov : Bool),
    pairEnabled s k = false ∨ s.on (LAN_PAIR_READY k) = false → exec (.pairForward k up sub kind r ⟨l, un⟩ ov) s = .next s) ∧
  (∀ (s : State) (k : Fin 32) (a b : BitVec 8), exec (.pairReady k a b) s = .next (
    if pairEnabled s k = true ∧ domainUp s (k / 2) = true ∧ s.on (CLK_QUAD_COAST (k / 8)) = false then
      ((s.put (LAN_PAIR_READY k) 1).put (LAN_PAIR_LAT_UP k) a.toNat).put (LAN_PAIR_LAT_DOWN k) b.toNat
    else s)) ∧
  (∀ (s : State) (k : Fin 32), exec (.pairReadyTimeout k) s = .next (
    if pairEnabled s k = true ∧ s.on (LAN_PAIR_READY k) = false then event s 0x87 (256 + 2 * k.val) k else s))

/-- Low-power link states (R264 to R268). L0p narrows or widens a terminated link in L0 by one step, within its trained width, by the
partner's wish or the node's own when no guarantee is charged on the link; a lane that fails to lock is declared failed. L1 is entered from
L0 when enabled and left to L0. The doze enables are kept and told to the partner, and a zero IDLE_LINES is refused. A direction of a Peer
link in L0 enters half-doze when both ends enable it and leaves it on a wake. An idle exit in Detect, L1 or half-doze starts a wake attempt
unless a backoff runs; a false wake is counted and doubles the port's backoff from 1 to 1,024 lines, once a folio with a Notice; after it
idle exits count again. L0P_NARROW, L0P_WIDEN, ASPM_L1_ENTRY, ASPM_L1_EXIT, DOZE_ENABLE_MESSAGE, LAN_DOZE_WRITE, HALF_DOZE_ENTRY,
HALF_DOZE_WAKE, ELECTRICAL_IDLE_EXIT, FALSE_WAKE and BACKOFF_END complete so. -/
def Obligations.LinksEnterAndLeaveLowPower : Prop :=
  (∀ (s : State) (p : Fin 64) (k : Fin 4) (partner : Bool), exec (.l0pNarrow p k partner) s = .next (
    if terminated s p = true ∧ s.get (linkStateF p k) = 3 ∧ 1 < s.get (linkActiveF p k)
      ∧ (partner = true ∨ (s.on (LAN_PORT_CTRL_L0P_ENABLE p) = true ∧ linkGuaranteed s p k = false)) then
      showActive (s.put (linkActiveF p k) (s.get (linkActiveF p k) - 1)) p k
    else s)) ∧
  (∀ (s : State) (p : Fin 64) (k : Fin 4), terminated s p = true → s.get (linkStateF p k) = 3 →
    s.get (linkActiveF p k) < s.get (linkWidthF p k) →
    exec (.l0pWiden p k none) s = .next (showActive (s.put (linkActiveF p k) (s.get (linkActiveF p k) + 1)) p k) ∧
    ∀ l : Fin 16, exec (.l0pWiden p k (some l)) s = .next (
      if subOf s p l = k.val ∧ s.flag (LAN_LANES_LANE_ACTIVE p) l = false then declareLane s p l else s)) ∧
  (∀ (s : State) (p : Fin 64) (k : Fin 4), exec (.aspmL1Entry p k) s = .next (
    if terminated s p = true ∧ s.get (linkStateF p k) = 3 ∧ s.on (LAN_PORT_CTRL_L1_ENABLE p) = true ∧ s.fatal = false then setLink s p k 5 else s)) ∧
  (∀ (s : State) (p : Fin 64) (k : Fin 4), exec (.aspmL1Exit p k) s = .next (
    if s.get (linkStateF p k) = 5 then goodWake (setLink s p k 3) p else s)) ∧
  (∀ (s : State) (p : Fin 64) (e : Bool), exec (.dozeEnableMessage p e) s = .next (
    if s.get (PRT_PORT_CTRL_ROLE p) = 1 ∧ s.fatal = false then s.putB (LAN_DOZE_PARTNER_ENABLE p) e else s)) ∧
  (∀ (s : State) (p : Fin 64) (v : BitVec 64), absentUnit s.variant .LAN_DOZE p 0 = false →
    (bitsOf v.toNat 8 8 = 0 → exec (.lanDozeWrite p v) s = .next (notice s (256 + p))) ∧
    ∀ u w : State, u = s.put (LAN_DOZE_IDLE_LINES p) (bitsOf v.toNat 8 8) → w = u.putB (LAN_DOZE_ENABLE p) (v.getLsbD 0) →
      0 < bitsOf v.toNat 8 8 → exec (.lanDozeWrite p v) s = .next (if v.getLsbD 0 = u.on (LAN_DOZE_ENABLE p) then u
        else if (List.range 4).any (fun k => linkUp w p k) = true then sendDoze w p else w)) ∧
  (∀ (s : State) (p : Fin 64) (k : Fin 4) (partner : Bool) (f : Fld),
    f = (if partner then linkDozeRxF p k else linkDozeTxF p k) →
    exec (.halfDozeEntry p k partner) s = .next (
      if s.get (PRT_PORT_CTRL_ROLE p) = 1 ∧ s.get (linkStateF p k) = 3 ∧ s.on (LAN_DOZE_ENABLE p) = true
        ∧ s.on (LAN_DOZE_PARTNER_ENABLE p) = true ∧ s.on f = false ∧ (partner = true ∨ (linkGuaranteed s p k = false ∧ s.fatal = false)) then
        (s.put f 1).incW (LAN_DOZE_ENTRIES p)
      else s) ∧
    exec (.halfDozeWake p k partner) s = .next (
      if s.on f = true then (if partner then goodWake (s.put f 0) p else s.put f 0) else s)) ∧
  (∀ (s u : State) (p : Fin 64) (l : Fin 16) (k id st : Nat), k = subOf s p l → id = 16 * p.val + l.val → st = s.get (linkStateF p k) →
    u = { s with lanes := { s.lanes with attempts := id :: s.lanes.attempts.filter (· != id) } } →
    exec (.electricalIdleExit p l) s = .next (
      if id ∈ s.lanes.ignoring ∨ ¬ (st < 2 ∨ st = 5 ∨ st = 6 ∨ s.on (linkDozeRxF p k) = true) then s
      else if st = 0 ∧ terminated s p = true ∧ terminationsOn s p = true then setLink u p k 1 else u)) ∧
  (∀ (s u v : State) (p : Fin 64) (l : Fin 16) (k id b : Nat), k = subOf s p l → id = 16 * p.val + l.val → id ∈ s.lanes.attempts →
    b = s.get (LAN_WAKE_BACKOFF p) →
    u = (s.inc (LAN_WAKE_FALSE_WAKES p)).put (LAN_WAKE_BACKOFF p) (if b = 0 then 1 else min 1024 (2 * b)) →
    v = { u with lanes := { u.lanes with
        attempts := u.lanes.attempts.filter (· != id)
        ignoring := id :: u.lanes.ignoring.filter (· != id) } } →
    (v.get (linkStateF p k) ≠ 1 → exec (.falseWake p l) s = .next (eventOnce v 0x88 (256 + p) p l)) ∧
    (v.get (linkStateF p k) = 1 → (∀ i ∈ v.lanes.attempts, i / 16 = p.val → subOf v p (i % 16) ≠ k) →
      exec (.falseWake p l) s = .next (eventOnce (setLink v p k (restState v p k)) 0x88 (256 + p) p l))) ∧
  (∀ (s : State) (p : Fin 64), exec (.backoffEnd p) s = .next
    { s with lanes := { s.lanes with ignoring := s.lanes.ignoring.filter (· / 16 != p.val) } })

/-- Ports, logical devices and what is not memory (R271 to R276, R280, R281, R290, R291). A write of PRT_PORT_CTRL keeps the peer bit and
the reserve within 24 cells, changes ROLE only between host and peer, with every sub-link down, and refuses the rest with a Notice; PRT_LD
and PRT_DC_REGION keep their word while an extent is held. A transit flit leaves by its route or is refused. A BAR access outside the
mailbox and doorbells completes with zeros or is discarded, with a Notice; in the Fatal state a read gets Unsupported Request and a write is
dropped. Config space: what the spec does not restate is free (log entry 26); a host margins lanes through it (log entry 82). Viral is
logged only. A sub-link goes down only from up. ROLE_WRITE, PRT_LD_WRITE, DC_REGION_WRITE, PBR_TRANSIT, BAR_ACCESS, VIRAL_RECEIVED,
CONFIG_REQUEST and LINK_DOWN complete so. -/
def Obligations.PortsRoutesAndPlainIo : Prop :=
  (∀ (s : State) (p : Fin 64) (v : BitVec 64), absentUnit s.variant .PRT_PORT_CTRL p 0 = false →
    (24 < bitsOf v.toNat 24 8 → exec (.roleWrite p v) s = .next (notice s (320 + p))) ∧
    (bitsOf v.toNat 24 8 ≤ 24 → ∀ u : State, u = (s.put (PRT_PORT_CTRL_EXTRA_RESERVE p) (bitsOf v.toNat 24 8)).put
        (PRT_PORT_CTRL_PEER_UPSTREAM p) (bitsOf v.toNat 17 1) →
      exec (.roleWrite p v) s = .next (
        if s.get (PRT_PORT_CTRL_ROLE p) = 2 ∨ v.toNat % 4 = s.get (PRT_PORT_CTRL_ROLE p) then portReserves u
        else if v.toNat % 4 = 2 then notice (portReserves u) (320 + p)
        else portReserves (linkVotes (showRest ((portDown u p).put (PRT_PORT_CTRL_ROLE p) (v.toNat % 4)) p) p)))) ∧
  (∀ (s : State) (p : Fin 64) (d : Fin 16) (v : BitVec 64), absentUnit s.variant .PRT_LD p d = false →
    (holdsExtent s (16 * p + d) = false → exec (.prtLdWrite p d v) s =
      .next (s.setWord (PRT_LD_VALID p d).addr (BitVec.ofNat 64 (bitsOf v.toNat 60 4 * 2 ^ 60)))) ∧
    (holdsExtent s (16 * p + d) = true → s.on (PRT_LD_VALID p d) = true → v.getLsbD 63 = false →
      exec (.prtLdWrite p d v) s = .next (notice s (320 + p)))) ∧
  (∀ (s : State) (p : Fin 64) (d : Fin 16) (r : Fin 8) (v : BitVec 64),
    absentUnit s.variant .PRT_DC_REGION (16 * p + d) r = false →
    (s.get (PRT_DC_USE_HELD (16 * p + d) r) ≠ 0 → exec (.dcRegionWrite p d r v) s = .next (notice s (320 + p))) ∧
    (s.get (PRT_DC_USE_HELD (16 * p + d) r) = 0 → s.get (PRT_DC_USE_PENDING (16 * p + d) r) = 0 → s.fabric.adding = none →
      v.getLsbD 63 = false ∨ v.getLsbD 62 = true → exec (.dcRegionWrite p d r v) s = .next
        (s.setWord (PRT_DC_REGION_VALID (16 * p + d) r).addr
          (BitVec.ofNat 64 (bitsOf v.toNat 62 2 * 2 ^ 62 + v.toNat % 2 ^ 36))))) ∧
  (∀ (s : State) (p : Fin 64) (k : Fin 4) (a b : Fin 4096) (tag : BitVec 16) (wr : Bool), linkUp s p k = true →
    s.get (PRT_PORT_CTRL_ROLE p) = 1 → a.val ≠ s.get PRT_CTRL_PBR_ID → s.fatal = false →
    (∀ q j, routeOf s a = some (q, j) → exec (.pbrTransit p k a b tag wr) s = .next (s.send (.transit q j a b tag.toNat))) ∧
    (routeOf s a = none → exec (.pbrTransit p k a b tag wr) s =
      .next (report (s.send (.transitRefused p k b tag.toNat wr))
        { type := 0x94, source := 320 + p, pbr := b, access := if wr then 2 else 1, detail := BitVec.ofNat 64 a }))) ∧
  (∀ (s : State) (p : Fin 64) (k : Fin 4) (d : Fin 16) (x : BitVec 64), linkUp s p k = true → s.get (PRT_PORT_CTRL_ROLE p) = 0 →
    (∀ (u : State) (wr : Bool), u = linkActivity s →
      (u.fatal = true → exec (.barAccess p k d wr x) s = .next (if wr then u else u.send (.ioUnsupported p k d))) ∧
      (u.fatal = false → ∀ v : State, v = openEvent u (320 + p) 0 (some (linkMaster p k d)) (if wr then 2 else 1) x.toNat →
        exec (.barAccess p k d wr x) s = .next (if wr then v
          else if ldOn u p k d = true then v.send (.ioData p k d 0) else u.send (.ioUnsupported p k d)))) ∧
    exec (.viralReceived p k) s = .next (notice { s with
      fabric := { s.fabric with viralSeen := s.fabric.viralSeen ++ [(p.val, k.val)] } } (320 + p))) ∧
  (∀ (s u : State) (p : Fin 64) (k : Fin 4) (d : Fin 16) (o : Fin 1024), linkUp s p k = true →
    s.get (PRT_PORT_CTRL_ROLE p) = 0 → u = linkActivity s →
    (s.boot.ready = false → ∀ f m w, exec (.configRequest p k d f m o w) s = .next (s.send (.ioRetry p k d))) ∧
    (s.boot.ready = true →
      (∀ m w, exec (.configRequest p k d 2 m o w) s = .next (u.send (.ioUnsupported p k d))) ∧
      (u.fatal = false → ldOn u p k d = true →
        (∀ w, exec (.configRequest p k d 1 .header 1 (some w)) s = .next (setBusMaster u (linkOwner p k d) (w.getLsbD 2))) ∧
        (∀ i w, exec (.configRequest p k d 0 .header o (some w)) s = .next u ∧ exec (.configRequest p k d 0 (.dvsec i) o (some w)) s = .next u) ∧
        (∀ l w, exec (.configRequest p k d 0 (.margin l) o (some w)) s = .next (hostMargin u p k l (w.setWidth 16))) ∧
        (∀ l, exec (.configRequest p k d 0 (.margin l) o none) s = .next (u.drew.send
          (.ioData p k d (BitVec.ofNat 64 (hostMarginWord u p k l u.freeNow.toNat))))) ∧
        (∀ i, exec (.configRequest p k d 1 (.dvsec i) o none) s = .next (u.drew.send
          (.ioData p k d (BitVec.ofNat 64 (dvsecWord u p k d (pairsOf u p k d).length i).toNat)))) ∧
        exec (.configRequest p k d 1 .header 2 none) s = .next (u.drew.send
          (.ioData p k d (BitVec.ofNat 64 (0x12000000 + u.freeNow.toNat % 2 ^ 32 % 256))))))) ∧
  (∀ (s : State) (p : Fin 64) (k : Fin 4), exec (.linkDown p k) s = .next (if linkUp s p k = true then subDown s p k else s))

/-- Dynamic capacity (R276 to R279). An add is refused BUSY or INVALID with nothing done; at the end of blanking the extent is offered to a
host port's device, with PENDING raised and a DC event, or held at once on a peer port. The device's response accepts some of the oldest
offer's quires, holds those and frees the rest; other quires make it invalid. A release request is sent for quires the device holds. The
base management rubric asks again each 256 folios, with a Degraded event, while the pool is short. A released quire leaves its device at
once, or after the snoops of its filtered lines. EXTENT_ADD, EXTENT_BLANK_COMPLETE, ADD_DC_RESPONSE, RELEASE_REQUEST, RELEASE_RETRY and
RELEASE_DYNAMIC_CAPACITY complete so. Asking per shortage is log entry 55's reading. -/
def Obligations.DynamicCapacityMovesByQuires : Prop :=
  (∀ (s : State) (v : BitVec 64), exec (.extentAdd v) s =
      .next ((addExtent s (extentOf v)).1.put PRT_EXTENT_STATUS_STATUS (addExtent s (extentOf v)).2)) ∧
  (∀ (s : State) (e : Extent), (s.fabric.adding.isSome || s.sealing.reseal.isSome) = true → addExtent s e = (s, 5)) ∧
  (∀ (s : State) (e : Extent), (s.fabric.adding.isSome || s.sealing.reseal.isSome) = false →
    (s.on (PRT_LD_VALID e.port e.ld) = false ∨ s.on (PRT_DC_REGION_VALID (16 * e.port + e.ld) e.region) = false
      ∨ e.count = 0 ∨ e.first < s.get (PRT_DC_REGION_BASE (16 * e.port + e.ld) e.region)
      ∨ s.get (PRT_DC_REGION_BASE (16 * e.port + e.ld) e.region) + s.get (PRT_DC_REGION_LENGTH (16 * e.port + e.ld) e.region)
        < e.first + e.count) → addExtent s e = (s, 4)) ∧
  (∀ (s u w : State) (e : Extent), s.fabric.adding = some e → e.placed = true →
    u = e.fresh.foldl blankQuire s → w = ({ u with fabric := { u.fabric with adding := none } }).put PRT_EXTENT_STATUS_LEFT 0 →
    (w.get (PRT_PORT_CTRL_ROLE e.port) = 1 → exec .extentBlankComplete s = .next (((e.quires.foldl
      (fun t q => holdQuire t e q) w).put PRT_EXTENT_STATUS_ACCEPTED e.count).put PRT_EXTENT_STATUS_STATUS 3)) ∧
    (w.get (PRT_PORT_CTRL_ROLE e.port) ≠ 1 → ∀ x : State, x = { w with fabric := { w.fabric with
        offered := w.fabric.offered ++ [e] } } →
      exec .extentBlankComplete s = .next (((x.put (PRT_DC_USE_PENDING (16 * e.port + e.ld) e.region)
        (x.get (PRT_DC_USE_PENDING (16 * e.port + e.ld) e.region) + e.count)).send
          (.dcEvent e.port e.ld 0 e.first e.count)).put PRT_EXTENT_STATUS_STATUS 2))) ∧
  (∀ (s : State) (p : Fin 64) (d : Fin 16) (qs : List (Fin 262144)),
    (s.fabric.offered.find? (fun e => e.port == p.val && e.ld == d.val) = none →
      exec (.addDcResponse p d qs) s = .next (s.send (.answer "ADD_DC_RESPONSE" 2 []))) ∧
    (∀ (e : Extent) (u w : State), s.fabric.offered.find? (fun e => e.port == p.val && e.ld == d.val) = some e →
      (∀ q ∈ qs, q.val ∈ e.quires) →
      u = ({ s with fabric := { s.fabric with offered := s.fabric.offered.filter (· != e) } }).dec
        (PRT_DC_USE_PENDING (16 * e.port + e.ld) e.region) e.count →
      w = (e.quires.filter (qs.map Fin.val).contains).foldl (fun t q => holdQuire t e q) u →
      (∀ q ∈ e.quires, q ∈ qs.map Fin.val) →
      exec (.addDcResponse p d qs) s = .next (((w.put PRT_EXTENT_STATUS_ACCEPTED
        (e.quires.filter (qs.map Fin.val).contains).length).put PRT_EXTENT_STATUS_STATUS 3).send
          (.answer "ADD_DC_RESPONSE" 0 [])))) ∧
  (∀ (s : State) (v : BitVec 64) (e : Extent), e = extentOf v → s.fabric.adding = none → exec (.releaseRequest v) s = .next (
    if e.count = 0 ∨ ¬ ∀ q ∈ e.quires, 16 * e.port + e.ld ∈ quireHolders s q then s.put PRT_EXTENT_STATUS_STATUS 4
    else (s.send (.dcEvent e.port e.ld 1 e.first e.count)).put PRT_EXTENT_STATUS_STATUS 3)) ∧
  (∀ (s : State) (n : Nat), n = shortQuires s →
    (n = 0 → exec .releaseRetry s = .next { s with fabric := { s.fabric with release := none } }) ∧
    (n ≠ 0 → s.fabric.release = none → exec .releaseRetry s = .next { askAll s n with
      fabric := { (askAll s n).fabric with release := some (n, s.folio) } }) ∧
    (n ≠ 0 → ∀ m f, s.fabric.release = some (m, f) →
      (s.folio < f + 256 → exec .releaseRetry s = .next s) ∧
      (f + 256 ≤ s.folio → ∀ u : State, u = askAll (event s 0x95 432 n) n → exec .releaseRetry s = .next
        { u with fabric := { u.fabric with release := some (n, u.folio) } }))) ∧
  (∀ (s : State) (p : Fin 64) (d : Fin 16) (qs : List (Fin 262144)),
    (qs = [] ∨ (∃ q ∈ qs, 16 * p.val + d.val ∉ quireHolders s q) →
      exec (.releaseDynamicCapacity p d qs) s = .next (s.send (.answer "RELEASE_DYNAMIC_CAPACITY" 2 []))) ∧
    (qs ≠ [] → (∀ q ∈ qs, 16 * p.val + d.val ∈ quireHolders s q) →
      ∃ t, exec (.releaseDynamicCapacity p d qs) s = .next t ∧ t.out.getLast? = some (.answer "RELEASE_DYNAMIC_CAPACITY" 0 [])))

/-- Memory requests and snoops of the ports (R19 to R22, R107, R165, R283 to R288, R294, R295, R297). A request on a sub-link that is up,
for which the sender has a credit, is classified, takes its filter entry when it obtains a copy, and takes a cell of its account's
reservation or of the shared buffer, or waits in its port's reserve with its credit withheld; a lent-in line is answered as stored; in the
Fatal state a read is answered poison and a write is dropped with its completion. An answer for a lent-out leaf completes the access that
waits for it, and poison answers a read that got none. A BIRsp answers the oldest snoop of its line for which the device is waited, or makes
a Notice. Each snoop silent for BI_TIMEOUT_LINES times out, and the coarse sweep snoops one line of its quire at a time. M2S_REQ, M2S_RWD,
S2M_RESPONSE, BIRSP, BI_TIMEOUT and COARSE_SWEEP complete so. -/
def Obligations.RequestsAndSnoopsOfThePorts : Prop :=
  (∀ (s : State) (r : LinkReq), canArrive s r.port r.sub = true → senderCredit s r.port r.sub false = true → r.lent = none → s.fatal = false →
    ∀ (u : State) (x : Option MemRead), classify (linkActivity s) r 1 = (u, x) → exec (.m2sReq r) s = .next (match x with
      | none => u
      | some a => receive (if obtainsCopy u r = true then allocFilter u r.port (a.dpa / 64) (r.cached == 2) else u) (.read a))) ∧
  (∀ (s : State) (r : LinkReq) (d : BitVec 512) (m : BitVec 64) (poi : Bool) (run : ReadRun),
    canArrive s r.port r.sub = true → senderCredit s r.port r.sub true = true → r.lent = none → s.fatal = false →
    ∀ (u : State) (x : Option MemRead), classify (linkActivity s) r (if m = BitVec.allOnes 64 then 2 else 3) = (u, x) →
    exec (.m2sRwd r d m poi run) s = .next (match x with
      | none => u
      | some a => receive (if obtainsCopy u r = true then allocFilter u r.port (a.dpa / 64) (r.cached == 2) else u)
          (.write { origin := a.origin, dpa := a.dpa, key := a.key, account := a.account, data := d, mask := m, poison := poi
                    run := run }))) ∧
  (∀ (s : State) (r : LinkReq) (d : BitVec 512) (m : BitVec 64) (poi : Bool) (run : ReadRun), canArrive s r.port r.sub = true →
    senderCredit s r.port r.sub false = true → senderCredit s r.port r.sub true = true →
    (s.fatal = true →
      exec (.m2sReq r) s = .next (respond s (reqOrigin r) (originAccount s (reqOrigin r)) .poison) ∧
      exec (.m2sRwd r d m poi run) s = .next (respond s (reqOrigin r) (originAccount s (reqOrigin r)) .done)) ∧
    (s.fatal = false → ∀ l, r.lent = some l →
      exec (.m2sReq r) s = .next (readLentIn (linkActivity s) r l) ∧
      exec (.m2sRwd r d m poi run) s = .next (writeLentIn (linkActivity s) r l d))) ∧
  (∀ (s : State) (w : Work), (∀ x ∈ s.fabric.reserve, ¬ (x.port = w.port ∧ virtualQueue s x = virtualQueue s w)) →
    (∀ r, takePlace s w = some r → place s w = enter s (w.takes r)) ∧ (takePlace s w = none → place s w = withhold s w)) ∧
  (∀ (s u : State) (tag : Nat) (w : Work) (step : LentStep), s.fatal = false → Tab.find s.fabric.lentOut tag = some (w, step) →
    u = { s with fabric := { s.fabric with lentOut := Tab.del s.fabric.lentOut tag } } →
    (∀ a, w = .read a → exec (.s2mResponse tag none) s = .next (drainReserve (endRead u a .poison))) ∧
    (∀ (a : MemRead) (l : StoredLine) (o : Opened), w = .read a → o = openLine u a.dpa a.key (StoredLine.media l) →
      exec (.s2mResponse tag (some l)) s = .next (drainReserve (endRead (opened (countBad u o) a o 1).1 a
        (opened (countBad u o) a o 1).2))) ∧
    (∀ x, w = .write x → step = .plain → ∀ l,
      exec (.s2mResponse tag l) s = .next (drainReserve (respond (leave u x.account 64) x.origin x.account .done))) ∧
    (∀ x, w = .write x → step ≠ .plain →
      exec (.s2mResponse tag none) s = .next (drainReserve (lentNext (endWrite u x .failed) x.dpa)) ∧
      ∀ l, exec (.s2mResponse tag (some l)) s =
        .next (drainReserve (lentNext (mergeCame u x (step == .again) (StoredLine.media l)) x.dpa)))) ∧
  (∀ (s : State) (p : Fin 64) (d : Fin 16) (dpa : BitVec 52) (x : Option Snoop),
    x = s.fabric.snoops.find? (fun x => x.line == dpa.toNat % 2 ^ 42 / 64 && x.waiting.contains (16 * p.val + d.val)) →
    exec (.birsp p d dpa) s = .next (match x with
      | none => notice s (320 + p)
      | some x => drainReserve (answerSnoops s (16 * p + d) fun y => y == x))) ∧
  (∀ (s : State), exec .biTimeout s = .next ((s.fabric.snoops.filter fun x =>
      decide (x.since + s.get PRT_CTRL_BI_TIMEOUT_LINES ≤ s.ruling.gen)).foldl biTimeout s)) ∧
  (∀ (s : State) (x : Snoop) (w : Write), x.why = .write w → ∀ u : State,
    u = report (x.waiting.foldl (fun t ld => t.inc (PRT_PORT_ERRORS_BI_TIMEOUTS (ld / 16))) s)
      { type := 0x91, source := 432, master := some (originMaster w.origin), pbr := originPbr w.origin
        access := if w.full then 2 else 3, dpa := some w.dpa, detail := BitVec.ofNat 64 (x.waiting.headD 0) } →
    biTimeout s x = unpark (endWrite { u with fabric := { u.fabric with
      snoops := u.fabric.snoops.filter (· != x) } } w .timeout) x.line) ∧
  (∀ (s : State), (s.fabric.coarse = [] → exec .coarseSweep s = .next s) ∧
    ∀ (q : Nat) (l : List Nat), s.fabric.coarse = q :: l →
      (s.on PRT_CTRL_COARSE_SWEEP = false → exec .coarseSweep s = .next s) ∧
      (s.on PRT_CTRL_COARSE_SWEEP = true → 32768 ≤ s.fabric.sweepLine → exec .coarseSweep s = .next (endCoarse s q)) ∧
      (s.on PRT_CTRL_COARSE_SWEEP = true → s.fabric.sweepLine < 32768 → ∀ (n : Nat) (u : State) (up : List Nat),
        n = q * 32768 + s.fabric.sweepLine → sendSnoops s n 0 (holdersOf s n) = (u, up) →
        exec .coarseSweep s = .next (endCoarse (setFabric (if up = [] then u else addSnoop u n up (.coarse q))
          { (if up = [] then u else addSnoop u n up (.coarse q)).fabric with
            sweepLine := (if up = [] then u else addSnoop u n up (.coarse q)).fabric.sweepLine + 1 }) q)))

/-- The CXL memory-device commands (R273, R511) of a logical device whose sub-link is up on a host port: one answer each. Identify gives the
capacity in units of 256 MiB with no static capacity; Get Supported Logs and Get Log give the Command Effects Log, an out-of-range slice
being invalid; Get Event Records gives the overflow count and the records' sequence numbers; Clear Event Records removes the named records
or all, and clears the overflow of an emptied log; the DC commands list regions and held quires. A device that is not there gets no answer.
(The log's identity and effect bits are CXL 3.1's, which the spec does not restate: log 27.) IDENTIFY_MEMORY_DEVICE, GET_SUPPORTED_LOGS,
GET_LOG, CXL_GET_EVENT_RECORDS, CXL_CLEAR_EVENT_RECORDS, GET_DC_CONFIGURATION and GET_DC_EXTENT_LIST complete so. -/
def Obligations.MemoryDeviceCommandsAnswerOnce : Prop :=
  ∀ (s : State) (p : Fin 64) (d : Fin 16),
  (ldAlive s p d = false →
    exec (.identifyMemoryDevice p d) s = .next s ∧ exec (.getSupportedLogs p d) s = .next s ∧
    (∀ u o l, exec (.getLog p d u o l) s = .next s) ∧ (∀ g, exec (.cxlGetEventRecords p d g) s = .next s) ∧
    (∀ g a q, exec (.cxlClearEventRecords p d g a q) s = .next s) ∧
    exec (.getDcConfiguration p d) s = .next s ∧ exec (.getDcExtentList p d) s = .next s) ∧
  (ldAlive s p d = true →
    exec (.identifyMemoryDevice p d) s = .next (s.send (.answer "IDENTIFY_MEMORY_DEVICE" 0 [s.variant.leaves / 65536, 0, 0])) ∧
    exec (.getSupportedLogs p d) s = .next (s.send (.answer "GET_SUPPORTED_LOGS" 0 [1, 4 * cxlOpcodes.length])) ∧
    (∀ u o l, exec (.getLog p d u o l) s = .next (s.send (if 4 * cxlOpcodes.length < o + l then .answer "GET_LOG" 2 [u.toNat]
      else .answer "GET_LOG" 0 ((cxlOpcodes.drop (o / 4)).take (l / 4))))) ∧
    (∀ (g : Fin 4) (n : Nat), n = 8 * (16 * p.val + d.val) + g.val →
      exec (.cxlGetEventRecords p d g) s = .next (s.send (.answer "CXL_GET_EVENT_RECORDS" 0
        (Tab.at s.blotter.cxlOverflow n 0 :: (Tab.at s.blotter.cxlLogs n []).map (·.seq)))) ∧
      (∀ q, exec (.cxlClearEventRecords p d g true q) s = .next (({ s with
        blotter := { s.blotter with
          cxlLogs := Tab.set s.blotter.cxlLogs n []
          cxlOverflow := Tab.del s.blotter.cxlOverflow n } }).send (.answer "CXL_CLEAR_EVENT_RECORDS" 0 []))) ∧
      (∀ q, (∃ x ∈ q, ∀ r ∈ Tab.at s.blotter.cxlLogs n [], r.seq ≠ x.toNat) →
        exec (.cxlClearEventRecords p d g false q) s = .next (s.send (.answer "CXL_CLEAR_EVENT_RECORDS" 2 [])))) ∧
    exec (.getDcConfiguration p d) s = .next (s.send (.answer "GET_DC_CONFIGURATION" 0
      (((List.range 8).filter fun r => s.on (PRT_DC_REGION_VALID (16 * p + d) r)).flatMap fun r =>
        [r, s.get (PRT_DC_REGION_BASE (16 * p + d) r) * 2 ^ 21, s.get (PRT_DC_REGION_LENGTH (16 * p + d) r) * 2 ^ 21,
          s.get (PRT_DC_REGION_SHARABLE (16 * p + d) r)]))) ∧
    exec (.getDcExtentList p d) s = .next (s.send (.answer "GET_DC_EXTENT_LIST" 0
      ((s.fabric.added.filter fun x => x.1 == 16 * p.val + d.val).map (·.2)))))

/-- The integer forms (R325, R326). With its core able to issue, each writes its result to wd and passes its syllables, and changes nothing
else: the two-register forms, those of a 5-bit signed immediate and of a shift by an immediate, LI, and the long forms of a 20-bit immediate
(signed for ADDL and ANDL, zero-extended for ORL, XORL and LIS, which first shifts by 20). Shifts by a register use its bits 5:0. ADD, SUB,
AND, OR, XOR, SHL, SHR, SAR, MUL, ADDI, SHLI, SHRI, SARI, LI, ADDL, ANDL, ORL, XORL and LIS complete so. -/
def Obligations.IntegerFormsWriteTheirResult : Prop :=
  ∀ (s : State) (r : CoreRun) (c : CoreState) (d a b : Fin 32), c = core s r.core →
  (Ready s r 1 →
    (∀ x ∈ ([(.add r d a b, c.w a + c.w b), (.sub r d a b, c.w a - c.w b), (.and r d a b, c.w a &&& c.w b),
        (.or r d a b, c.w a ||| c.w b), (.xor r d a b, c.w a ^^^ c.w b), (.shl r d a b, c.w a <<< ((c.w b).toNat % 64)),
        (.shr r d a b, c.w a >>> ((c.w b).toNat % 64)), (.sar r d a b, (c.w a).sshiftRight ((c.w b).toNat % 64)),
        (.mul r d a b, c.w a * c.w b)] : List (Instr × BitVec 64)),
      exec x.1 s = .next (advance s r.core 1 fun z => z.setW d x.2)) ∧
    (∀ i : BitVec 5, ∀ x ∈ ([(.addi r d a i, c.w a + i.signExtend 64), (.shli r d a i, c.w a <<< i.toNat),
        (.shri r d a i, c.w a >>> i.toNat), (.sari r d a i, (c.w a).sshiftRight i.toNat)] : List (Instr × BitVec 64)),
      exec x.1 s = .next (advance s r.core 1 fun z => z.setW d x.2)) ∧
    (∀ i : BitVec 10, exec (.li r d i) s = .next (advance s r.core 1 fun z => z.setW d (i.signExtend 64)))) ∧
  (Ready s r 2 → ∀ i : BitVec 20, ∀ x ∈ ([(.addl r d a i, c.w a + i.signExtend 64), (.andl r d a i, c.w a &&& i.signExtend 64),
      (.orl r d a i, c.w a ||| i.zeroExtend 64), (.xorl r d a i, c.w a ^^^ i.zeroExtend 64),
      (.lis r d a i, (c.w a <<< 20) ||| i.zeroExtend 64)] : List (Instr × BitVec 64)),
    exec x.1 s = .next (advance s r.core 2 fun z => z.setW d x.2))

/-- ALUX (R302, R327, R328). Under a true guard each of its 22 functions writes its result to wd and passes 2 syllables: the high halves are
those of the 128-bit products, a division by zero gives all ones and its remainder wa, MIN and MAX compare signed and MINU and MAXU
unsigned. Under a false guard every one of them only passes its syllables. A function of one operand with wb other than w0 is illegal: with
traps enabled and a handler, cause 0x01. ALUX_ADD, ALUX_SUB, ALUX_AND, ALUX_OR, ALUX_XOR, ALUX_ANDN, ALUX_SHL, ALUX_SHR, ALUX_SAR, ALUX_MUL,
ALUX_MULH, ALUX_MULHU, ALUX_DIV, ALUX_DIVU, ALUX_REM, ALUX_REMU, ALUX_MIN, ALUX_MAX, ALUX_MINU, ALUX_MAXU, ALUX_CLZ, ALUX_CTZ, ALUX_POPC,
ALUX_BSWAP, ALUX_SEXT32 and ALUX_ZEXT32 complete so. -/
def Obligations.AluxFunctionsRunUnderTheirGuard : Prop :=
  ∀ (s : State) (r : CoreRun) (c : CoreState) (d a b : Fin 32) (g : Fin 8) (n : Bool), c = core s r.core → Ready s r 2 →
  ∀ (x y : BitVec 64), x = c.w a → y = c.w b →
  (∀ p ∈ ([(.aluxAdd r d a b g n, x + y), (.aluxSub r d a b g n, x - y), (.aluxAnd r d a b g n, x &&& y),
      (.aluxOr r d a b g n, x ||| y), (.aluxXor r d a b g n, x ^^^ y), (.aluxAndn r d a b g n, x &&& ~~~y),
      (.aluxShl r d a b g n, x <<< (y.toNat % 64)), (.aluxShr r d a b g n, x >>> (y.toNat % 64)),
      (.aluxSar r d a b g n, x.sshiftRight (y.toNat % 64)), (.aluxMul r d a b g n, x * y),
      (.aluxMulh r d a b g n, ((x.signExtend 128 * y.signExtend 128) >>> 64).truncate 64),
      (.aluxMulhu r d a b g n, ((x.zeroExtend 128 * y.zeroExtend 128) >>> 64).truncate 64),
      (.aluxDiv r d a b g n, if y = 0 then BitVec.allOnes 64 else x.sdiv y),
      (.aluxDivu r d a b g n, if y = 0 then BitVec.allOnes 64 else x / y),
      (.aluxRem r d a b g n, if y = 0 then x else x.srem y), (.aluxRemu r d a b g n, if y = 0 then x else x % y),
      (.aluxMin r d a b g n, if x.toInt ≤ y.toInt then x else y), (.aluxMax r d a b g n, if x.toInt ≤ y.toInt then y else x),
      (.aluxMinu r d a b g n, if x.toNat ≤ y.toNat then x else y),
      (.aluxMaxu r d a b g n, if x.toNat ≤ y.toNat then y else x)] : List (Instr × BitVec 64)),
    exec p.1 s = .next (advance s r.core 2 fun z => if c.guard g n then z.setW d p.2 else z)) ∧
  (∀ p ∈ ([(.aluxClz r d a b g n, clz x), (.aluxCtz r d a b g n, ctz x), (.aluxPopc r d a b g n, popc x),
      (.aluxBswap r d a b g n, bswap x), (.aluxSext32 r d a b g n, (x.truncate 32).signExtend 64),
      (.aluxZext32 r d a b g n, (x.truncate 32).zeroExtend 64)] : List (Instr × BitVec 64)),
    (c.guard g n = false ∨ b = 0 → exec p.1 s = .next (advance s r.core 2 fun z => if c.guard g n then z.setW d p.2 else z)) ∧
    (c.guard g n = true → b ≠ 0 → c.enable = true → c.tvec ≠ 0 →
      exec p.1 s = .next (setCore s r.core { c with
        epc := c.pc
        cause := 1
        faddr := 0
        enable := false
        pc := c.tvec })))

/-- Compares, predicates, conditional moves, branches and NOP (R329 to R332, R337). A compare writes its predicate with equal, signed less,
unsigned less or any common bit; PLOG combines two predicates; MOVC moves under a true guard; a branch under a true guard goes to PC plus
its offset in syllables; JAL links PC + 1 in w31, JALL links PC + 2, and JALR links PC + 1 after it has read its target. NOP only passes.
CMP, CMPI, PLOG, MOVC, BR, JAL, JALR, NOP, CMPL, BRL and JALL complete so. -/
def Obligations.ComparesAndBranchesFollowTheirRules : Prop :=
  ∀ (s : State) (r : CoreRun) (c : CoreState) (p q t : Fin 8) (d a b : Fin 32) (n : Bool), c = core s r.core →
  (Ready s r 1 →
    (∀ e ∈ ([(0, c.w a == c.w b), (1, decide ((c.w a).toInt < (c.w b).toInt)), (2, decide ((c.w a).toNat < (c.w b).toNat)),
        (3, c.w a &&& c.w b != 0)] : List (Fin 4 × Bool)),
      exec (.cmp r p e.1 a b) s = .next (advance s r.core 1 fun z => z.setP p e.2)) ∧
    (∀ i : BitVec 5, ∀ e ∈ ([(0, c.w a == i.signExtend 64), (1, decide ((c.w a).toInt < (i.signExtend 64).toInt)),
        (2, decide ((c.w a).toNat < (i.signExtend 64).toNat)), (3, c.w a &&& i.signExtend 64 != 0)] : List (Fin 4 × Bool)),
      exec (.cmpi r p e.1 a i) s = .next (advance s r.core 1 fun z => z.setP p e.2)) ∧
    (∀ e ∈ ([(0, c.p q && c.p t), (1, c.p q || c.p t), (2, c.p q != c.p t), (3, c.p q && !c.p t)] : List (Fin 4 × Bool)),
      exec (.plog r p e.1 q t) s = .next (advance s r.core 1 fun z => z.setP p e.2)) ∧
    exec (.movc r d a p n) s = .next (advance s r.core 1 fun z => if c.guard p n then z.setW d (c.w a) else z) ∧
    (∀ o : BitVec 10, exec (.br r p n o) s =
      .next (if c.guard p n then jump s r.core (c.pc + o.signExtend 64) else advance s r.core 1)) ∧
    (∀ o : BitVec 15, exec (.jal r o) s = .next (jump s r.core (c.pc + o.signExtend 64) fun z => z.setW 31 (c.pc + 1))) ∧
    exec (.jalr r d a) s = .next (jump s r.core (c.w a) fun z => z.setW d (c.pc + 1)) ∧
    exec (.nop r) s = .next (advance s r.core 1)) ∧
  (Ready s r 2 →
    (∀ i : BitVec 20, ∀ e ∈ ([(0, c.w a == i.signExtend 64), (1, decide ((c.w a).toInt < (i.signExtend 64).toInt)),
        (2, decide ((c.w a).toNat < (i.signExtend 64).toNat)), (3, c.w a &&& i.signExtend 64 != 0)] : List (Fin 4 × Bool)),
      exec (.cmpl r p e.1 a i) s = .next (advance s r.core 2 fun z => z.setP p e.2)) ∧
    (∀ o : BitVec 20, exec (.brl r p n o) s =
        .next (if c.guard p n then jump s r.core (c.pc + o.signExtend 64) else advance s r.core 2) ∧
      exec (.jall r d o) s = .next (jump s r.core (c.pc + o.signExtend 64) fun z => z.setW d (c.pc + 2))))

/-- Traps and core status (R318, R319, R323, R337). A TRAP with traps enabled and a handler saves the next PC in CS_EPC, its cause and CODE
in CS_CAUSE, zero in CS_FADDR, clears ENABLE and goes to CS_TVEC. RETT outside a trap goes back to CS_EPC with ENABLE set; with ENABLE set
it is illegal. FAULT always ends the program: a Scribe by its fault, a nib core's item with the CODE. FENCE with nothing outstanding passes.
RDCS reads a status register, the count of cycles as a free value (log entry 4), and WRCS writes CS_TVEC, CS_EPC, CS_TSTATE and CS_SCRATCH
and passes over the read-only ones. TRAP, FAULT, RETT, FENCE, RDCS and WRCS complete so. -/
def Obligations.TrapsSaveAndReturnRestores : Prop :=
  ∀ (s : State) (r : CoreRun) (c : CoreState) (d a : Fin 32), c = core s r.core → Ready s r 1 →
  (∀ code : BitVec 10, c.enable = true → c.tvec ≠ 0 → exec (.trap r code) s = .next (setCore s r.core { c with
    epc := c.pc + 1
    cause := BitVec.ofNat 64 (0x0C + code.toNat * 2 ^ 8)
    faddr := 0
    enable := false
    pc := c.tvec })) ∧
  (∀ code : BitVec 10, exec (.fault r code) s = .next (
    if r.core.val < 8 then endScribe s r.core 0x0D c.pc 0 else endCore s r.core csFault 0x0D code.toNat)) ∧
  (c.enable = false → exec (.rett r) s = .next (jump s r.core c.epc fun z => { z with enable := true })) ∧
  (c.enable = true → c.tvec ≠ 0 → exec (.rett r) s = .next (setCore s r.core { c with
    epc := c.pc
    cause := 1
    faddr := 0
    enable := false
    pc := c.tvec })) ∧
  exec (.fence r) s = .next (advance s r.core 1) ∧
  (∀ x ∈ ([(0, csCore s r.core), (1, c.tvec), (2, c.epc), (3, c.cause), (4, c.faddr), (5, if c.enable then 1 else 0),
      (7, c.retired), (8, c.scratch)] : List (Fin 32 × BitVec 64)),
    exec (.rdcs r d x.1) s = .next (advance s r.core 1 fun z => z.setW d x.2)) ∧
  exec (.rdcs r d 6) s = .next (advance s.drew r.core 1 fun z => z.setW d s.freeNow) ∧
  exec (.wrcs r 1 a) s = .next (advance s r.core 1 fun z => { z with tvec := c.w a }) ∧
  exec (.wrcs r 2 a) s = .next (advance s r.core 1 fun z => { z with epc := c.w a }) ∧
  exec (.wrcs r 5 a) s = .next (advance s r.core 1 fun z => { z with enable := (c.w a).getLsbD 0 }) ∧
  exec (.wrcs r 8 a) s = .next (advance s r.core 1 fun z => { z with scratch := c.w a }) ∧
  (∀ i ∈ ([0, 3, 4, 6, 7, 9] : List (Fin 32)), exec (.wrcs r i a) s = .next (advance s r.core 1))

/-- Loads, stores and atomics in the local space (R6, R311, R333 to R336), and VLDS and VSTS there (R374). At a naturally aligned address
inside the 256 KiB a load writes the extended little-endian number to its register, a store writes the register's low bytes, an atomic
writes its function of the old number and leaves the old number in wd, and a line load or store moves 64 bytes; nothing else changes and
each passes its syllables. An uncorrectable error of the local memory is out of the hypothesis. A misaligned address is fault 0x03 and an
address beyond the space 0x05, each saved with the access and the address. LD, ST, LDX, STX, ATOM_SWAP, ATOM_ADD, ATOM_AND, ATOM_OR,
ATOM_XOR, ATOM_MIN, ATOM_MAX, ATOM_MINU, ATOM_MAXU, ATOM_CAS, VLDS and VSTS complete so. -/
def Obligations.LocalMemoryAccessesReadAndWriteBytes : Prop :=
  ∀ (s : State) (r : CoreRun) (c : CoreState) (d a b e : Fin 32), c = core s r.core → r.data = .clean →
  (∀ (m : ReadRun) (i : BitVec 5) (ea : BitVec 64), Ready s r 1 → ea = c.w a + i.signExtend 64 * 8 →
    ea.toNat % 8 = 0 → ea.toNat + 8 ≤ 2 ^ 18 →
    exec (.ld r d a i) s = .next (advance s r.core 1 fun z => z.setW d (BitVec.ofNat 64 (numAt c.mem ea.toNat 8))) ∧
    exec (.st r d a i m) s = .next (advance s r.core 1 fun z =>
      { z with mem := putBytes z.mem ea.toNat (leBytes 8 (c.w d).toNat) })) ∧
  (∀ (m : ReadRun) (o : BitVec 17) (k : Fin 4) (n : Nat) (ea : BitVec 64), Ready s r 2 → n = 2 ^ k.val →
    ea = c.w a + o.signExtend 64 → ea.toNat % n = 0 → ea.toNat + n ≤ 2 ^ 18 →
    exec (.ldx r d a k false o) s = .next (advance s r.core 2 fun z => z.setW d (BitVec.ofNat 64 (numAt c.mem ea.toNat n))) ∧
    (k ≠ 3 → exec (.ldx r d a k true o) s = .next (advance s r.core 2 fun z =>
      z.setW d (BitVec.ofInt 64 (signed (8 * n) (numAt c.mem ea.toNat n))))) ∧
    exec (.stx r d a k false o m) s = .next (advance s r.core 2 fun z =>
      { z with mem := putBytes z.mem ea.toNat (leBytes n (c.w d).toNat) })) ∧
  (∀ (m : ReadRun) (k q : Fin 4) (n old : Nat) (x : Nat → AtomOp), Ready s r 2 → 2 ≤ k.val → n = 2 ^ k.val →
    (c.w a).toNat % n = 0 → (c.w a).toNat + n ≤ 2 ^ 18 → old = numAt c.mem (c.w a).toNat n →
    (∀ op, x op = { op := op, size := n, offset := (c.w a).toNat % 64, operand := c.w b, compare := if op = 9 then c.w e else 0 }) →
    ∀ p ∈ ([(0, .atomSwap r d a b k q m), (1, .atomAdd r d a b k q m), (2, .atomAnd r d a b k q m), (3, .atomOr r d a b k q m),
        (4, .atomXor r d a b k q m), (5, .atomMin r d a b k q m), (6, .atomMax r d a b k q m), (7, .atomMinu r d a b k q m),
        (8, .atomMaxu r d a b k q m), (9, .atomCas r d a b e k q m)] : List (Nat × Instr)),
      exec p.2 s = .next (advance s r.core 2 fun z => CoreState.setW
        { z with mem := putBytes z.mem (c.w a).toNat (leBytes n (atomResult (x p.1) old)) } d (BitVec.ofNat 64 old))) ∧
  (∀ (v : Fin 16) (i : BitVec 16) (ea : BitVec 64), Ready s r 2 → 8 ≤ r.core.val → ea = c.w a + i.signExtend 64 * 64 →
    ea.toNat % 64 = 0 → ea.toNat + 64 ≤ 2 ^ 18 →
    exec (.vlds r v a i) s = .next (advance s r.core 2 fun z => z.setV v (BitVec.ofNat 512 (numAt c.mem ea.toNat 64))) ∧
    exec (.vsts r v a i) s = .next (advance s r.core 2 fun z =>
      { z with mem := putBytes z.mem ea.toNat (leBytes 64 (c.v v).toNat) })) ∧
  (∀ (i : BitVec 5) (ea : BitVec 64) (n : Nat), Ready s r 1 → c.enable = true → c.tvec ≠ 0 → ea = c.w a + i.signExtend 64 * 8 →
    ea.toNat < 2 ^ 62 →
    (ea.toNat % 8 ≠ 0 ∧ ea.toNat + 8 ≤ 2 ^ 18 ∧ n = 3 ∨ ea.toNat % 8 = 0 ∧ 2 ^ 18 < ea.toNat + 8 ∧ n = 5) →
    exec (.ld r d a i) s = .next (setCore s r.core { c with
      epc := c.pc
      cause := Trap.word { cause := n, access := 2, faddr := ea, epc := c.pc }
      faddr := ea
      enable := false
      pc := c.tvec }))

/-- What a core's outstanding accesses bring (R312 to R315, R318, R321, R337, R352, R374). A working-memory access and a device access leave
their core outstanding, retired, at the same limits; while the limit is reached or the line is busy the core waits. The oldest answered read
or atomic delivers its number or line to its destination, the oldest performed store goes off the books, and then a waiting FENCE or item
end completes when nothing is left. A failed access is an imprecise trap at the next boundary, with the PC, the access and the address of
its own instruction. LD, ST, VLDL, VSTL, DEVICE_LOAD_RETURN, DEVICE_STORE_PERFORMED and IMPRECISE_FAULT complete so. -/
def Obligations.OutstandingAccessesDeliverAndFault : Prop :=
  (∀ (s : State) (r : CoreRun) (c : CoreState) (d a : Fin 32) (i : BitVec 5) (ea : BitVec 64), c = core s r.core →
    Ready s r 1 → ea = c.w a + i.signExtend 64 * 8 → ea.toNat % 8 = 0 →
    (r.core.val < 8 → ea.toNat / 2 ^ 62 = 1 → ea.toNat % 2 ^ 62 + 8 ≤ workSize s r.core →
      ∀ u : State × Nat, u = launch (chargeNow s 4094 64) r.core 1 ea (.load (destination d) 8 false) →
      exec (.ld r d a i) s = .next (respond u.1 (.core r.core u.2) 0
        (.data (workLine u.1 (workBase u.1 r.core + ea.toNat % 2 ^ 62))))) ∧
    (ea.toNat / 2 ^ 62 = 2 → bitsOf ea.toNat 52 10 = 0 → inOperands s r.core ea.toNat 8 = true →
      exec (.ld r d a i) s = .next (deviceRead s r.core 1 ea (.load (destination d) 8 false)) ∧
      ∀ m, exec (.st r d a i m) s = .next (deviceWrite s r.core 1 ea
        (BitVec.ofNat 512 (leNat (leBytes 8 (c.w d).toNat) * 2 ^ (8 * (ea.toNat % 64))))
        (BitVec.ofNat 64 ((2 ^ 8 - 1) * 2 ^ (ea.toNat % 64))) 3 m))) ∧
  (∀ (s : State) (r : CoreRun) (c : CoreState) (v : Fin 16) (a : Fin 32) (op : Fin 4) (i : BitVec 16) (p : Operand) (x : Nat)
    (ea : BitVec 64), c = core s r.core → Ready s r 2 → 8 ≤ r.core.val →
    ((core s r.core).item.bind (itemAt s)).bind (fun x => x.operands[op.val]?) = some p →
    x = (c.w a + i.signExtend 64 * 64).toNat → x % 64 = 0 → x < 64 * p.lines → ea = BitVec.ofNat 64 (2 ^ 63 + p.addr + x) →
    exec (.vldl r v a op i) s = .next (deviceRead s r.core 2 ea (.vector (some v))) ∧
    exec (.vstl r v a op i) s = .next (deviceWrite s r.core 2 ea (c.v v) (BitVec.allOnes 64) 2 {})) ∧
  (∀ (s : State) (k : Fin 264),
    (∀ a v, answered s k false = some (a, v) →
      exec (.deviceLoadReturn k) s = .next (settle (dropAccess (deliver s k a v) k a.slot) k)) ∧
    (answered s k false = none → exec (.deviceLoadReturn k) s = .next s) ∧
    (∀ a v, answered s k true = some (a, v) →
      exec (.deviceStorePerformed k) s = .next (settle (dropAccess s k a.slot) k)) ∧
    (answered s k true = none → exec (.deviceStorePerformed k) s = .next s)) ∧
  (∀ (s : State) (k : Nat) (c : CoreState), c = core s k →
    (c.outstanding ≠ [] → settle s k = s) ∧
    (c.outstanding = [] → c.wait = some .fence → settle s k = advance (setCore s k { c with wait := none }) k 1) ∧
    (c.outstanding = [] → c.wait = some .itemEnd → settle s k = endCore s k csSuccess 0 (c.w 1).toNat) ∧
    (c.outstanding = [] → c.wait = none → settle s k = s)) ∧
  (∀ (s u : State) (k : Fin 264) (c : CoreState) (a : CoreAccess) (cause : Nat), c = core s k → c.running = true →
    c.wait = none ∨ c.wait = some .fence → k.val < 8 ∨ c.pc ≠ completionAddress → failedAccess s k = some (a, cause) →
    cause ≠ 0x0D → u = dropAccess s k a.slot → (core u k).enable = true → (core u k).tvec ≠ 0 →
    exec (.impreciseFault k) s = .next (setCore (setCore u k { core u k with wait := none }) k { core u k with
      wait := none
      epc := a.pc
      cause := Trap.word { cause := cause, access := a.kind.access, faddr := a.addr, imprecise := true, epc := a.pc }
      faddr := a.addr
      enable := false
      pc := (core u k).tvec }))

/-- R308, the predicates and guards of a core: p0 reads as 1 and a write to it is discarded; a write to another predicate is what it reads
then, and leaves the others; a guard is the predicate, inverted if the negate bit is set, so that p0 is always true and p0 negated never. -/
def Obligations.PredicatesAndGuardsFollowTheirRule : Prop :=
  ∀ (c : CoreState) (n : Fin 8) (v : Bool), c.p 0 = true ∧ c.setP 0 v = c ∧
    (n ≠ 0 → (c.setP n v).p n = v ∧ ∀ m : Fin 8, m ≠ n → (c.setP n v).p m = c.p m) ∧
    { c.setP n v with preds := c.preds } = c ∧
    (∀ neg, c.guard n neg = true ↔ (c.p n = true ∧ neg = false) ∨ (c.p n = false ∧ neg = true)) ∧
    c.guard 0 false = true ∧ c.guard 0 true = false

/-- R328, division: it never faults. DIV and DIVU by zero return all ones, REM and REMU by zero return wa; DIV of the most negative number
by -1 returns that number, and the matching REM returns 0. ALUX_DIV, ALUX_DIVU, ALUX_REM and ALUX_REMU complete so. -/
def Obligations.DivisionNeverFaults : Prop :=
  ∀ (s : State) (r : CoreRun) (c : CoreState) (d a b : Fin 32) (g : Fin 8) (n : Bool), c = core s r.core → Ready s r 2 →
  ∀ res : BitVec 64 → Host.Outcome State Fault Refusal,
    (∀ v, res v = .next (advance s r.core 2 fun z => if c.guard g n then z.setW d v else z)) →
    (∃ q u m k, exec (.aluxDiv r d a b g n) s = res q ∧ exec (.aluxDivu r d a b g n) s = res u ∧
      exec (.aluxRem r d a b g n) s = res m ∧ exec (.aluxRemu r d a b g n) s = res k) ∧
    (c.w b = 0 → exec (.aluxDiv r d a b g n) s = res (BitVec.allOnes 64) ∧ exec (.aluxDivu r d a b g n) s = res (BitVec.allOnes 64) ∧
      exec (.aluxRem r d a b g n) s = res (c.w a) ∧ exec (.aluxRemu r d a b g n) s = res (c.w a)) ∧
    (c.w a = BitVec.intMin 64 → c.w b = -1 → exec (.aluxDiv r d a b g n) s = res (BitVec.intMin 64) ∧
      exec (.aluxRem r d a b g n) s = res 0)

/-- R30, the node function's BARs outside the mailbox and doorbell ranges, on a Host port whose link is up and whose LD answers there: a
host read completes with all-zero data, a host write is discarded, and either records a Notice, of the port, that names the requester.
BAR_ACCESS completes so. -/
def Obligations.HostBarReadsZeroAndDropsWrites : Prop :=
  ∀ (s : State) (p : Fin 64) (k : Fin 4) (d : Fin 16) (x : BitVec 64), linkUp s p k = true → s.get (PRT_PORT_CTRL_ROLE p) = 0 →
    (linkActivity s).fatal = false → ldOn (linkActivity s) p k d = true →
    ∃ detail : Nat, exec (.barAccess p k d true x) s = .next (openEvent (linkActivity s) (320 + p) 0 (some (linkMaster p k d)) 2 detail) ∧
    exec (.barAccess p k d false x) s =
      .next ((openEvent (linkActivity s) (320 + p) 0 (some (linkMaster p k d)) 1 detail).send (.ioData p k d 0))

/-- Desk access (R11, R12, R66, R341, R491). A Scribe whose rubric holds the grant of the block reads a desk register into wd or writes it,
at wa plus its offset, and passes its syllables; without the grant it takes the violation. JTAG is served while debug is open and is refused
with an event otherwise. A write gives every RW field its new value unless a value lies outside its stated range, which leaves the whole
register with a Notice; an address that is no register reads zero. A register write command acts for its Scribe while the rails are up; the
slots due on the line's edge fire before a Scribe's write (R66). DRD, DRD_L, DWR, DWR_L, JTAG_DESK_ACCESS and REGISTER_WRITE complete so. -/
def Obligations.DeskAccessesFollowGrantAndRange : Prop :=
  (∀ (s : State) (r : CoreRun) (c : CoreState) (d a : Fin 32) (n x : Nat) (i : Instr) (ea : BitVec 64) (v : State × BitVec 64),
    c = core s r.core → r.core.val < 8 → Ready s r n → x = ea.toNat → x < 2 ^ 24 → x % 8 = 0 → v = deskRead s x →
    (∃ o : Fin 16, n = 1 ∧ i = .drd r d a o ∧ ea = c.w a + BitVec.ofNat 64 (8 * o.val)) ∨
      (∃ o : BitVec 19, n = 2 ∧ o.toNat % 8 = 0 ∧ i = .drdL r d a o ∧ ea = c.w a + o.zeroExtend 64) →
    (deskBlock x = none ∨ (∃ b, deskBlock x = some b ∧ readGranted s r.core b = true) →
      exec i s = .next (advance v.1 r.core n fun z => z.setW d v.2)) ∧
    (∀ b, deskBlock x = some b → readGranted s r.core b = false → exec i s = .next (grantFault s r.core 7 x))) ∧
  (∀ (s : State) (r : CoreRun) (c : CoreState) (d a : Fin 32) (n x : Nat) (i : Instr) (ea : BitVec 64) (pump : Bool),
    c = core s r.core → r.core.val < 8 → Ready s r n → x = ea.toNat → x < 2 ^ 24 → x % 8 = 0 →
    (∃ o : Fin 16, n = 1 ∧ i = .dwr r d a o pump ∧ ea = c.w a + BitVec.ofNat 64 (8 * o.val)) ∨
      (∃ o : BitVec 19, n = 2 ∧ o.toNat % 8 = 0 ∧ i = .dwrL r d a o pump ∧ ea = c.w a + o.zeroExtend 64) →
    (deskBlock x = none ∨ (∃ b, deskBlock x = some b ∧ writeGranted s r.core b = true) →
      exec i s = .next (deskWrite (settleSlots (advance s r.core n) pump) (some (Fin.ofNat 8 r.core.val)) x (c.w d) pump)) ∧
    (∀ b, deskBlock x = some b → writeGranted s r.core b = false → exec i s = .next (grantFault s r.core 8 x))) ∧
  (∀ (s : State) (x : BitVec 24) (w : Option (BitVec 64)) (v : BitVec 64) (p : Bool), s.power.rails = .up →
    (s.on FUS_STATUS_DEBUG_OPEN = false → exec (.jtagDeskAccess x w p) s = .next (deskRefused s 0x800B (if w.isSome = true then 8 else 7) x.toNat)) ∧
    (s.on FUS_STATUS_DEBUG_OPEN = true →
      exec (.jtagDeskAccess x none p) s = .next ((deskRead s x.toNat).1.send (.jtagRead (deskRead s x.toNat).2)) ∧
      exec (.jtagDeskAccess x (some v) p) s = .next (deskWrite s none x.toNat v p)) ∧
    (∀ k, exec (.registerWrite k x v p) s = .next (deskWrite (settleSlots s p) (some k) x.toNat v p))) ∧
  (∀ (s : State) (p : Bool), (∀ n : Nat, n < 64 → slotDue s n = false) → settleSlots s p = s) ∧
  (∀ (s : State) (wr : Option (Fin 8)) (a : Nat) (w : BitVec 64) (p : Bool), locate a = none →
    deskRead s a = (s, 0) ∧ deskWrite s wr a w p = notice s 443) ∧
  (∀ (s : State) (r : Reg) (i j a : Nat) (w : BitVec 64),
    ((r.fields.any fun f => outOfRange (fieldLocked s r i j) (w.toNat &&& presentBits s.variant r) f) = true →
      regWrite s r i j a w = notice s (regSource r i)) ∧
    ((r.fields.any fun f => outOfRange (fieldLocked s r i j) (w.toNat &&& presentBits s.variant r) f) = false →
      relationBroken s r (w.toNat &&& presentBits s.variant r) = false →
      ∀ x, x = r.fields.foldl (mergeField (fieldLocked s r i j) (w.toNat &&& presentBits s.variant r)) (s.word a, false) →
      regWrite s r i j a w = if x.2 = true then notice (s.setWord a x.1) (regSource r i) else s.setWord a x.1))

/-- Ruled time, events and messages of a core (R343 to R347, R353). RT_READ gives the ruled time, with the tick free (log entry 4) but never
earlier than one seen on its line. A wait for a line or a time already reached passes, else the core blocks after it, and a resume goes on
when it has come. RT_ARM and RT_DISARM program a slot of the rubric's mask, and another slot is fault 0x08. EVT_WAIT and EVT_POLL take the
next event of the mask; without one they block, or give 0. EVT_POST sends the 64 bytes at wa to the destination of wd and gives its status;
EVT_RECV takes the oldest message with its header, or gives 0. EVT_BEAT beats. All these, and WAIT_RESUME, complete so. -/
def Obligations.RuledTimeAndEventsOfACore : Prop :=
  (∀ (s : State) (r : CoreRun) (c : CoreState) (d a : Fin 32) (tick : Fin 1024), c = core s r.core → Ready s r 1 →
    exec (.rtRead r d) s = .next (advance s.timed r.core 1 fun z => z.setW d s.stamp) ∧
    (∀ u : State, u = advance s r.core 1 →
      exec (.rtWaitl r a) s = .next (if (c.w a).toNat ≤ u.ruling.line then u else block u r.core (.line (c.w a))) ∧
      ∀ v : State, v = u.passed tick → exec (.rtWaitt r a tick) s = .next (
        if (c.w a).toNat ≤ (ruledTime v v.ruling.tick).toNat then v else block v r.core (.time (c.w a)))) ∧
    (r.core.val < 8 → ∀ n : Nat, n = (c.w d).toNat % 64 →
      (slotGranted s r.core n = true →
        exec (.rtArm r d a) s = .next (advance (writeEventCtrl (writeEventTime (writeEventCtrl s n 0) n (c.w a)) n
          (BitVec.ofNat 64 (2 ^ (8 + r.core.val) + 1))) r.core 1) ∧
        exec (.rtDisarm r d) s = .next (advance (writeEventCtrl s n (BitVec.ofNat 64 (s.get (RUL_EVENT_CTRL_WAKE n) * 256
          + s.get (RUL_EVENT_CTRL_WRITE n) * 8 + s.get (RUL_EVENT_CTRL_PERIODIC n) * 4))) r.core 1)) ∧
      (slotGranted s r.core n = false → exec (.rtArm r d a) s = .next (fault s r.core 8) ∧
        exec (.rtDisarm r d) s = .next (fault s r.core 8))) ∧
    (r.core.val < 8 → ∀ x, x = takeEvent s r.core (c.w a) →
      (∀ u e, x = some (u, e) → exec (.evtWait r d a) s = .next (advance u r.core 1 fun z => z.setW d e) ∧
        exec (.evtPoll r d a) s = .next (advance u r.core 1 fun z => z.setW d e)) ∧
      (x = none → exec (.evtWait r d a) s = .next (block (advance s r.core 1) r.core (.event d (c.w a))) ∧
        exec (.evtPoll r d a) s = .next (advance s r.core 1 fun z => z.setW d 0))) ∧
    (r.core.val < 8 → exec (.evtBeat r) s = .next (advance (modRubric s r.core fun r => { r with beat := true }) r.core 1)) ∧
    ((c.w a).toNat % 8 = 0 → (c.w a).toNat + 64 ≤ 2 ^ 18 →
      (r.data = .clean → ∀ p : State × Nat, p = post s r.core (c.w d).toNat (bytesAt c.mem (c.w a).toNat 64) →
        exec (.evtPost r d a) s = .next (advance p.1 r.core 1 fun z => z.setW d (statusWord p.2 0))) ∧
      (r.core.val < 8 → ∀ m, m = (rubricAt s r.core).bind (fun r => r.inbox.head?) →
        (m = none → exec (.evtRecv r d a) s = .next (advance s r.core 1 fun z => z.setW d 0)) ∧
        (∀ y, m = some y → exec (.evtRecv r d a) s = .next (advance (modRubric s r.core fun r => { r with
          inbox := r.inbox.drop 1 }) r.core 1 fun z => CoreState.setW { z with
          mem := putBytes z.mem (c.w a).toNat (leBytes 64 y.body.toNat) } d
            (BitVec.ofNat 64 (2 ^ 63 + y.kind * 2 ^ 16 + y.source))))))) ∧
  (∀ (s : State) (k : Fin 264) (tick : Fin 1024),
    (∀ t, (core s k).wait = some (.line t) →
      exec (.waitResume k tick) s = .next (if t.toNat ≤ s.ruling.line then unblock s k else s)) ∧
    (∀ t v, (core s k).wait = some (.time t) → v = s.passed tick →
      exec (.waitResume k tick) s = .next (if t.toNat ≤ (ruledTime v v.ruling.tick).toNat then unblock v k else v)) ∧
    (s.timed.ruling.tick = s.tickNow ∧ (s.passed tick).ruling.tick = max s.ruling.tick tick) ∧
    (∀ d m, (core s k).wait = some (.event d m) →
      (takeEvent s k m = none → exec (.waitResume k tick) s = .next s) ∧
      (∀ u e, takeEvent s k m = some (u, e) → exec (.waitResume k tick) s = .next (setReg (unblock u k) k d e))) ∧
    ((core s k).wait = none → exec (.waitResume k tick) s = .next s))

/-- Placement, account and coherence primitives of a core (R145, R150, R185, R348 to R350). With the Ductus' write grant PL_PIN and PL_UNPIN
pin a leaf, PL_HEAT gives its heat and sampler, PL_MOVE orders a move to its destination word, and PL_RESOLVE gives the entry and the move
in flight in two registers (in one register a free value says which stays, log entry 36). With the accounts' grant ACCT_ADMIT tries the
records at wa and ACCT_ADJUST changes one field of an account; ACCT_SVC reads what an account was served. Without the grant each takes a
violation. The coherence requests snoop their lines and wait; COH_QRY gives the ports of the line's filter entry. Each placement primitive
looks its leaf's map block up first; a block that is lost is INVALID. All these complete so. -/
def Obligations.PlacementAccountAndCoherencePrimitives : Prop :=
  ∀ (s : State) (r : CoreRun) (c : CoreState) (d e a b : Fin 32) (map : ReadRun), c = core s r.core → map = r.map →
  (r.core.val < 8 → Ready s r 1 → writeGranted s r.core 10 = true →
    (∀ p : State × Nat, p = pinLooked s (c.w a).toNat true map →
      exec (.plPin r d a) s = .next (advance p.1 r.core 1 fun z => z.setW d (statusWord p.2 0))) ∧
    (∀ p : State × Nat, p = pinLooked s (c.w a).toNat false map →
      exec (.plUnpin r d a) s = .next (advance p.1 r.core 1 fun z => z.setW d (statusWord p.2 0))) ∧
    (∀ p : State × Nat × Nat, p = readHeat s (c.w a).toNat map →
      exec (.plHeat r d a) s = .next (advance p.1 r.core 1 fun z => z.setW d (statusWord p.2.1 p.2.2)))) ∧
  (r.core.val < 8 → Ready s r 1 → writeGranted s r.core 10 = false → exec (.plPin r d a) s = .next (grantFault s r.core 8) ∧
    exec (.plUnpin r d a) s = .next (grantFault s r.core 8) ∧ exec (.plHeat r d a) s = .next (grantFault s r.core 8)) ∧
  (r.core.val < 8 → Ready s r 2 → writeGranted s r.core 10 = true →
    (∀ (cause : Fin 8) (t : MoveTo) (q : MoveKind) (p : State × Nat × Nat), 1 ≤ cause.val → cause.val ≤ 4 →
      moveDestination (c.w b) = some t →
      p = (match q with
        | .quire => moveQuire s (c.w a).toNat cause t
        | .leaf acc => moveLooked s (c.w a).toNat cause t acc map) →
      exec (.plMove r d a b cause q) s = .next (advance p.1 r.core 2 fun z => z.setW d (statusWord p.2.1 p.2.2))) ∧
    (∀ p : State × BitVec 64 × Nat × Nat, p = resolveLeaf s (c.w a).toNat map → exec (.plResolve r d e a) s =
      .next (advance p.1.drew r.core 2 fun z => if p.1.freeNow.getLsbD 0 then
        (z.setW d p.2.1).setW e (statusWord p.2.2.1 p.2.2.2) else (z.setW e (statusWord p.2.2.1 p.2.2.2)).setW d p.2.1))) ∧
  (∀ leaf : Nat,
    (leafEntry s leaf = none → pinLooked s leaf true map = (s, stInvalid) ∧ readHeat s leaf map = (s, stInvalid, 0)) ∧
    (∀ (l : Leaf) (u : State), leafEntry s leaf = some l → lookupBlock s leaf map = (u, true) →
      pinLooked s leaf true map = pinLeaf u leaf true ∧
      readHeat s leaf map = (u, stOk, l.heat * 256 + if l.remote then 0 else l.lastSampler)) ∧
    (∀ (l : Leaf) (u : State), leafEntry s leaf = some l → lookupBlock s leaf map = (u, false) →
      pinLooked s leaf true map = (u, stInvalid) ∧ readHeat s leaf map = (u, stInvalid, 0))) ∧
  (r.core.val < 8 → Ready s r 1 → exec (.acctSvc r d a) s =
    .next (advance s r.core 1 fun z => z.setW d (s.word (ACC_SERVICE_SERVED ((c.w a).toNat % 4096)).addr))) ∧
  (r.core.val < 8 → Ready s r 2 → writeGranted s r.core 11 = true → r.data = .clean →
    (∀ (n : Nat) (cool : Bool) (p : State × Nat), n = (c.w b).toNat → 0 < n → n ≤ 4096 → (c.w a).toNat % 16 = 0 →
      (c.w a).toNat + 16 * n ≤ 2 ^ 18 → p = admitAccount s (admitRecords (bytesAt c.mem (c.w a).toNat (16 * n)) n) cool →
      exec (.acctAdmit r d a b cool) s = .next (admitDone p.1 r.core d p.2)) ∧
    (∀ (n : Nat) (cfg rat : BitVec 64) (p : State × Nat), n = (c.w a).toNat → n < 4096 →
      cfg = s.word (ACC_CFG_CLASS n).addr → rat = s.word (ACC_RATE_CEILING n).addr →
      p = adjust s n cfg (putField rat (ACC_RATE_CEILING n).lo (ACC_RATE_CEILING n).width (c.w b).toNat) →
      (c.w b).toNat < 2 ^ (ACC_RATE_CEILING n).width →
      exec (.acctAdjust r d a b 0) s = .next (advance p.1 r.core 2 fun z => z.setW d (statusWord p.2 0)))) ∧
  (Ready s r 1 → ∀ (u : State) (n : Nat), n = (c.w a).toNat → cohCheck s r.core n 1 = (u, []) →
    exec (.cohInv r d a) s = .next (cohSnoop (advance u r.core 1) r.core d (n % 2 ^ 42 / 64) 1 true) ∧
    exec (.cohData r d a) s = .next (cohSnoop (advance u r.core 1) r.core d (n % 2 ^ 42 / 64) 1 false) ∧
    (r.core.val < 8 → n % 2 ^ 42 / 64 / 32768 ∉ u.fabric.coarse → exec (.cohQry r d a) s =
      .next (advance u r.core 1 fun z => z.setW d (BitVec.ofNat 64
        (match Tab.find u.fabric.filter (n % 2 ^ 42 / 64) with | some f => f.ports | none => 0))))) ∧
  (Ready s r 2 → ∀ (u : State) (n m : Nat), n = (c.w a).toNat → m = (c.w b).toNat → n % 64 = 0 → m % 64 = 0 →
    n % 2 ^ 21 + m ≤ 2 ^ 21 → cohCheck s r.core n (m / 64) = (u, []) →
    exec (.cohInvr r d a b) s = .next (cohSnoop (advance u r.core 2) r.core d (n % 2 ^ 42 / 64) (m / 64) true))

/-- Rubrics on their Scribes (R353 to R357). At line 0 of a folio a rubric that has run a folio without a beat and is not blocked is
restarted, with an event; one that beat is owed a new beat. A failed Scribe halts, with an event, and its rubric moves to the highest free
Scribe or is stopped. The oldest takeover starts its rubric and tells the management rubric; a committed rubric replaces that of its role at
line 0; a restart that is the fourth in 64 folios stops the rubric. A load session lives 1,024 folios. A started rubric runs from its entry,
with its handle, its memory's size and its restarts in w1, w2 and w3. The accounts rubric's slot 48 fires at each line 0 (R156).
HEARTBEAT_CHECK, SCRIBE_FAULT, TAKEOVER_COPY_COMPLETE, RUBRIC_HANDOVER and LOAD_SESSION_EXPIRY complete so. -/
def Obligations.RubricsRestartMoveAndHandOver : Prop :=
  (∀ s : State, s.lineInFolio ≠ 0 ∨ s.on MBX_CTRL_HEARTBEAT = false ∨ s.fatal = true →
    exec .heartbeatCheck s = .next s) ∧
  (∀ (s : State) (k : Nat) (r : Rubric), s.lineInFolio = 0 → s.on MBX_CTRL_HEARTBEAT = true → s.fatal = false →
    k < 8 → rubricAt s k = some r → s.get (MBX_SCRIBE_STATE k) = 1 → r.started + 1024 ≤ s.ruling.gen →
    (∀ j, j < 8 → j ≠ k → rubricAt s j = none) →
    exec .heartbeatCheck s = .next (if r.beat = true ∨ s.on (MBX_SCRIBE_BLOCKED k) = true
      then setRubric s r.handle { r with beat := false } else restartRubric (event s 0xB1 (404 + k) r.handle) r.handle)) ∧
  (∀ (s : State) (h k : Nat) (r : Rubric), Tab.find s.rubrics h = some r → scribeOf s h = some k →
    (3 ≤ (recentRestarts s r).length → restartRubric s h = stopRubric s h) ∧
    ((recentRestarts s r).length < 3 → restartRubric s h = tellMoved (startRubric
      (setRubric s h { r with restarts := s.folio :: recentRestarts s r }) k h) h k)) ∧
  (∀ (s : State) (k : Fin 8), (s.get (MBX_SCRIBE_STATE k) = 3 → exec (.scribeFault k) s = .next s) ∧
    (s.get (MBX_SCRIBE_STATE k) ≠ 3 → ∀ u : State, u = haltCore (((event s 0xB2 (404 + k) (s.get (MBX_SCRIBE_HANDLE k))).put
        (MBX_SCRIBE_STATE k) 3).put (MBX_SCRIBE_BLOCKED k) 0) k →
      (Tab.find u.rubrics (s.get (MBX_SCRIBE_HANDLE k)) = none → exec (.scribeFault k) s = .next (syncLoader u)) ∧
      (∀ r, Tab.find u.rubrics (s.get (MBX_SCRIBE_HANDLE k)) = some r →
        (freeScribe u = none → exec (.scribeFault k) s = .next (stopRubric u (s.get (MBX_SCRIBE_HANDLE k)))) ∧
        (∀ j w, freeScribe u = some j → w = seat (unseat u k) j r 2 → exec (.scribeFault k) s = .next (syncLoader
          { w with scribes := { w.scribes with takeover := (w.scribes.takeover.filter fun x =>
              x.1 != s.get (MBX_SCRIBE_HANDLE k)) ++ [(s.get (MBX_SCRIBE_HANDLE k), j)] } }))))) ∧
  (∀ s : State, (s.scribes.takeover = [] → exec .takeoverCopyComplete s = .next s) ∧
    ∀ h k l, s.scribes.takeover = (h, k) :: l → exec .takeoverCopyComplete s = .next
      (tellMoved (startRubric { s with scribes := { s.scribes with takeover := l } } k h) h k)) ∧
  (∀ s : State, (s.lineInFolio ≠ 0 → exec .rubricHandover s = .next s) ∧
    (∀ (h k : Nat) (r : Rubric) (u : State), s.lineInFolio = 0 → s.scribes.handover = [(h, k)] →
      Tab.find s.rubrics h = some r → (∀ x ∈ s.rubrics, x.1 ≠ h → x.2.role ≠ r.role) →
      u = { s with scribes := { s.scribes with handover := [] } } →
      exec .rubricHandover s = .next (startRubric (setRubric u h { r with overBase := false }) k h))) ∧
  (∀ s : State, exec .loadSessionExpiry s = .next { s with scribes := { s.scribes with
    sessions := s.scribes.sessions.filter fun (_, x) => decide (s.folio < x.folio + 1024) } }) ∧
  (∀ (s v u : State) (k h : Nat) (r : Rubric), Tab.find s.rubrics h = some r →
    v = seat (setRubric s h { r with started := s.ruling.gen, beat := false, stopped := false }) k
      { r with started := s.ruling.gen, beat := false, stopped := false } 1 →
    u = (if r.role = 1 then armEpochSlot v else v) →
    startRubric s k h = syncLoader (setCore u k {
      running := true, pc := BitVec.ofNat 64 r.entry.toNat, code := r.code
      nextSlot := (core u k).nextSlot, fetchFolio := (core u k).fetchFolio
      regs := Tab.put (Tab.put (Tab.put [] 1 (BitVec.ofNat 64 h) 0) 2 (BitVec.ofNat 64 (r.units * 2 ^ 21)) 0) 3
        (BitVec.ofNat 64 (recentRestarts u r).length) 0
      mem := putBytes [] 0 r.data }))

/-- The host mailbox (R345, R346, R358 to R360, Tables 11-8 to 11-10). A doorbell of a mailbox that the host reaches sets the enables, and
with DOORBELL on an idle one submits the command, which is refused by opcode and by right, or handed on; MB_CMD and the payload are written
only while DOORBELL is clear. A command not completed in 64 folios ends with TIMEOUT; MBX_COMPLETE completes the selected mailbox. The
loader or the management rubric, when it runs, serves each command once, and its return code, detail and response stand in the mailbox when
it is completed; otherwise nothing changes. A message waits for its reply under a token (free, log entry 29). MAILBOX_DOORBELL,
MAILBOX_AREA_WRITE, MAILBOX_TIMEOUT, MBX_COMPLETE, GET_INFO, RUBRIC_LOAD_BEGIN, RUBRIC_LOAD_CHUNK, RUBRIC_STOP, RESEAL_GET_CHALLENGE and
RUBRIC_MESSAGE complete so. -/
def Obligations.MailboxCommandsAreServedOnce : Prop :=
  (∀ (s : State) (n : Fin 4096) (v : BitVec 32), (boxReached s n = false → exec (.mailboxDoorbell n v) s = .next s) ∧
    (boxReached s n = true → ∀ u : State, u = boxPut (linkActivity s) n 4
        [BitVec.ofNat 8 (v.toNat % 8 / 2 * 2 + b2n (doorbell (linkActivity s) n || v.getLsbD 0))] →
      exec (.mailboxDoorbell n v) s =
        .next (if doorbell (linkActivity s) n = true ∨ v.getLsbD 0 = false then u else submitBox u n))) ∧
  (∀ (s u : State) (n : Fin 4096) (o : BitVec 16) (l : List (BitVec 8)), boxReached s n = true → u = linkActivity s →
    (8 ≤ o.toNat ∧ o.toNat + l.length ≤ 16 ∨ 0x1000 ≤ o.toNat ∧ o.toNat + l.length ≤ 0x10000 →
      exec (.mailboxAreaWrite n o l) s = .next (if doorbell u n = true then notice u (320 + boxPort n) else boxPut u n o.toNat l)) ∧
    (o.toNat = 0x20 → l.length = 4 → leNat l < 32 → exec (.mailboxAreaWrite n o l) s = .next (boxPut u n 0x20 l))) ∧
  (∀ (s : State) (n : Fin 4096) (f : Nat), (box s n).since = some f → exec (.mailboxTimeout n) s =
    .next (if doorbell s n = true ∧ f + 64 ≤ s.folio then finish s n 9 0 [] else s)) ∧
  (∀ (s : State) (v : BitVec 64), exec (.mbxComplete v) s =
    .next (if v.getLsbD 0 = true then completeBox s (s.get MBX_SELECT_MAILBOX) else s)) ∧
  (∀ (s : State) (n : Fin 4096), Serving s n 1 → loaderReady s = true → exec (.getInfo n) s = .next (finish s n 0 0
    (leBytes 2 1 ++ leBytes 2 (variantCode s.variant) ++ leBytes 2 ((List.range 8).filter fun k =>
      s.get (MBX_SCRIBE_STATE k) == 1).length ++ leBytes 2 0))) ∧
  (∀ (s : State) (n : Fin 4096) (op : Nat) (i : Instr) (ready : Bool), (op, ready, i) ∈ ([(1, loaderReady s, .getInfo n),
      (0x10, loaderReady s, .rubricList n), (0x11, loaderReady s, .rubricLoadBegin n), (0x12, loaderReady s, .rubricLoadChunk n),
      (0x13, loaderReady s, .rubricLoadCommit n), (0x14, loaderReady s, .rubricStop n),
      (0x15, loaderReady s, .rubricRestoreBase n), (0x50, managementReady s, .getEventRecords n),
      (0x60, managementReady s && baseRuns s 1, .pinRange n), (0x70, managementReady s && baseRuns s 4, .resealGetChallenge n),
      (0x71, managementReady s && baseRuns s 4, .resealSubmit n),
      (0x80, managementReady s && baseRuns s 2, .accountRequest n)] : List (Nat × Bool × Instr)) →
    doorbell s n = false ∨ boxOpcode s n ≠ op ∨ ready = false ∨ s.fatal = true → exec i s = .next s) ∧
  (∀ (s : State) (n : Fin 4096) (p : List (BitVec 8)), p = payload s n →
    (Serving s n 0x11 → loaderReady s = true → field p 4 4 = 0 → 3988 ≤ field p 0 4 → 8 ≤ p.length →
      s.scribes.sessions.length < 65536 → ∀ x : State × Nat, x = openSession s false (field p 0 4) →
      exec (.rubricLoadBegin n) s = .next (finish x.1 n 0 0 (leBytes 2 x.2))) ∧
    (∀ x, Serving s n 0x12 → loaderReady s = true → Tab.find s.scribes.sessions (field p 0 2) = some x → x.kernel = false →
      8 ≤ p.length → field p 2 2 = 0 → field p 4 4 + (p.drop 8).length ≤ x.length →
      exec (.rubricLoadChunk n) s = .next (finish { s with scribes := { s.scribes with
        sessions := Tab.set s.scribes.sessions (field p 0 2)
          { x with bytes := putBytes x.bytes (field p 4 4) (p.drop 8) } } } n 0 0 [])) ∧
    (∀ e x, Serving s n 0x13 → loaderReady s = true → Tab.find s.scribes.sessions (field p 0 2) = some x → x.kernel = false →
      judgeRubric (closeSession s (field p 0 2)) (bytesAt x.bytes 0 x.length) = .inl e → e = 2 ∨ e = 7 ∨ e = 10 →
      exec (.rubricLoadCommit n) s = .next (finish (closeSession s (field p 0 2)) n e 0 [])) ∧
    (Serving s n 0x14 → loaderReady s = true → ∀ r, Tab.find s.rubrics (field p 0 2) = some r →
      exec (.rubricStop n) s = .next (if r.base = true then finish s n 2 0 [] else
        finish (if r.role = 0 then dropRubric s (field p 0 2) else stopRubric s (field p 0 2)) n 0 0 [])) ∧
    (Serving s n 0x70 → (managementReady s && baseRuns s 4) = true → 8 ≤ p.length → field p 3 1 = 0 →
      exec (.resealGetChallenge n) s = .next (finish s n 0 0 (leBytes 8 s.sealing.challenge.toNat))) ∧
    (Serving s n 0x20 → 4 ≤ p.length → field p 2 2 = 0 → runningRubric s (field p 0 2) = false →
      exec (.rubricMessage n) s = .next (finish s n 8 0 [])) ∧
    (Serving s n 0x20 → 4 ≤ p.length → field p 2 2 = 0 → runningRubric s (field p 0 2) = true → ∀ t u,
      t = unused (s.freeNow.toNat % 65536) (s.scribes.boxes.filterMap fun (_, b) => b.token) →
      toInbox s.drew (field p 0 2) { kind := 1, source := t, body := BitVec.ofNat 512 (field p 4 64) } = (u, true) →
      exec (.rubricMessage n) s = .next (setBox u n { box u n with token := some t })))

/-- What the loader and the management rubric do for the mailbox (R163, R183, R228, R346, R351, R356, R357, R359, R511). A verified image
becomes a rubric with the next handle on its Scribe, started at once for role 0 and at the next folio's line 0 otherwise; the base rubric of
a role is loaded in its rubric's place. The list gives the Scribes that hold rubrics. Event records are those of the log that concern the
asking device, from a sequence number on. A reseal gets the challenge's answer and starts; an account request is admitted under the hot
assumption (log entry 30); leaves that the device holds are pinned or unpinned, up to the cap. RUBRIC_LOAD_COMMIT, RUBRIC_LIST,
RUBRIC_RESTORE_BASE, GET_EVENT_RECORDS, RESEAL_SUBMIT, ACCOUNT_REQUEST and PIN_RANGE complete so. -/
def Obligations.LoaderAndManagementRubricServeTheirCommands : Prop :=
  ∀ (s : State) (n : Fin 4096) (p : List (BitVec 8)), p = payload s n →
  (∀ (x : LoadSession) (c : State) (h : Nat) (u : Rubric → State), Serving s n 0x13 → loaderReady s = true →
    Tab.find s.scribes.sessions (field p 0 2) = some x → x.kernel = false → c = closeSession s (field p 0 2) → h = nextHandle c →
    (∀ r, u r = { setRubric c h { r with handle := h } with scribes := { c.scribes with
      nextHandle := if h = 0xFFFF then 0x100 else h + 1 } }) →
    exec (.rubricLoadCommit n) s = .next (match judgeRubric c (bytesAt x.bytes 0 x.length) with
      | .inl e => finish (if e = 5 ∨ e = 6 ∨ e = 4 then event c 0xB4 440 e else c) n e 0 []
      | .inr (r, k) =>
        if r.role = 0 then finish (startRubric (u r) k h) n 0 0 (leBytes 2 h ++ leBytes 1 k ++ leBytes 1 0 ++ leBytes 4 (c.folio % 2 ^ 32))
        else finish (syncLoader { u r with scribes := { (u r).scribes with handover := (u r).scribes.handover ++ [(h, k)] } }) n 0 0
          (leBytes 2 h ++ leBytes 1 k ++ leBytes 1 0 ++ leBytes 4 ((c.folio + 1) % 2 ^ 32)))) ∧
  (∀ (ks : List Nat), Serving s n 0x10 → loaderReady s = true →
    ks = (List.range 8).filter (fun k => s.get (MBX_SCRIBE_HANDLE k) != 0) →
    exec (.rubricList n) s = .next (finish s n 0 0 (leBytes 2 ks.length ++ leBytes 2 0 ++ ks.flatMap fun k =>
      leBytes 2 (s.get (MBX_SCRIBE_HANDLE k)) ++ leBytes 2 ((rubricAt s k).getD {}).role ++ leBytes 1 k
        ++ leBytes 1 (s.get (MBX_SCRIBE_STATE k)) ++ leBytes 1 (s.get (MBX_SCRIBE_RESTARTS k)) ++ leBytes 1 0
        ++ leBytes 4 ((rubricAt s k).getD {}).version ++ leBytes 4 0
        ++ (List.range 32).map fun i => ((rubricAt s k).getD {}).name.getD i 0))) ∧
  (∀ (role k : Nat) (r : Rubric), Serving s n 0x15 → loaderReady s = true → role = field p 0 2 → role ≠ 0 →
    Tab.find s.scribes.firmware role = some r →
    (roleScribe s role = some k → exec (.rubricRestoreBase n) s = .next (finish
      (loadBase (dropRubric s (s.get (MBX_SCRIBE_HANDLE k))) role k) n 0 0 (leBytes 2 r.handle))) ∧
    (roleScribe s role = none → freeScribe s = some k →
      exec (.rubricRestoreBase n) s = .next (finish (loadBase s role k) n 0 0 (leBytes 2 r.handle)))) ∧
  (∀ rs : List Record, Serving s n 0x50 → managementReady s = true → 8 ≤ p.length → field p 6 2 = 0 →
    s.blotter.badRecords = [] → rs = (s.blotter.log.filter fun r => decide (field p 0 4 ≤ r.seq)
      && concerns s r (boxPort n) (boxLd n)).take (min (field p 4 2) 956) →
    exec (.getEventRecords n) s = .next (finish s n 0 0 (leBytes 2 rs.length ++ leBytes 2 0 ++ rs.flatMap (recordBytes s)))) ∧
  (∀ u : State, Serving s n 0x71 → (managementReady s && baseRuns s 4) = true → 14 ≤ p.length → field p 3 1 = 0 →
    0 < field p 0 2 → field p 0 2 < 1024 → field p 2 1 ≤ 4 → field p 4 4 < 2 ^ 27 →
    u = writeResealCmd { s with sealing := { s.sealing with auth := BitVec.ofNat 48 (field p 8 6) } } (resealWord p) →
    exec (.resealSubmit n) s = .next (if u.get SEL_RESEAL_STATUS_STATUS = 1 ∨ u.get SEL_RESEAL_STATUS_STATUS = 2
      then finish u n 0 0 (leBytes 2 (u.get SEL_RESEAL_STATUS_STATUS))
      else finish u n 11 (u.get SEL_RESEAL_STATUS_STATUS) (leBytes 2 (u.get SEL_RESEAL_STATUS_STATUS)))) ∧
  (∀ (k : Nat) (x : State × Nat), Serving s n 0x80 → (managementReady s && baseRuns s 2) = true → k = field p 0 2 → 0 < k →
    k ≤ 4096 → field p 2 1 < 2 → field p 3 1 = 0 → 4 + 16 * k ≤ p.length →
    x = admitAccount s (admitRecords (p.drop 4) k) false →
    exec (.accountRequest n) s = .next (finish x.1 n (if x.2 = 0 then 0 else 11) x.2
      (leBytes 8 (x.1.word ACC_ADMIT_STATUS_STATUS.addr).toNat))) ∧
  (∀ (ls : List Nat) (x : State × Nat), Serving s n 0x60 → (managementReady s && baseRuns s 1) = true → 13 ≤ p.length →
    field p 12 1 = 0 → field p 13 3 = 0 → ls = (s.ductus.map.filter fun (k, e) =>
      decide (leafOf (field p 0 8 % 2 ^ 42) ≤ k) && decide (k < leafOf (field p 0 8 % 2 ^ 42) + field p 8 4)
        && (quireHolders s (k / 512)).contains (16 * boxPort n + boxLd n) && !e.remote && e.pinned).map (·.1) →
    x = ls.foldl (fun (x : State × Nat) k => ((pinLeaf x.1 k false).1, x.2 + b2n ((pinLeaf x.1 k false).2 == stOk))) (s, 0) →
    exec (.pinRange n) s = .next (finish x.1 n 0 0 (leBytes 4 x.2)))

/-- Vector instructions of a nib core (R370 to R373). Each able to issue writes its one destination and passes its syllables: the short
forms lane by lane in their fixed type, with vd's lane as addend of the multiply-add; the dot products of even register pairs into 16 lanes
of 32 bits; VXOR. A VOP works so in the type its field codes, the bitwise ones in int32 only, and only passes under a false guard. VSPLAT
copies a register to every lane, VEXT takes a lane, zero-extended when it is 16 bits wide and sign-extended otherwise, VINS replaces a lane.
A Scribe finds each of them illegal. What a lane's rounding leaves open is free (log entries 33 to 35). VFMA_F32, VADD_F32, VMUL_F32,
VADD_I32, VXOR, VDOT_BF16, VDOT_FP16, VDOT_I8, VOP_ADD, VOP_SUB, VOP_MUL, VOP_FMA, VOP_MIN, VOP_MAX, VOP_AND, VOP_OR, VOP_XOR, VOP_CVT,
VOP_DOT, VSPLAT, VEXT, VINS and VRSUM complete so. -/
def Obligations.VectorFormsWriteTheirLanes : Prop :=
  ∀ (s u : State) (r : CoreRun) (c : CoreState), c = core s r.core → u = drewLanes s →
  (∀ d a b : Fin 16, 8 ≤ r.core.val → Ready s r 1 →
    (∀ x ∈ ([(.vfmaF32 r d a b, lanewise s c (.fp fp32) 3 d a b), (.vaddF32 r d a b, lanewise s c (.fp fp32) 0 d a b),
        (.vmulF32 r d a b, lanewise s c (.fp fp32) 2 d a b), (.vaddI32 r d a b, lanewise s c (.int 32) 0 d a b),
        (.vxor r d a b, c.v a ^^^ c.v b)] : List (Instr × BitVec 512)),
      exec x.1 s = .next (advance u r.core 1 fun z => z.setV d x.2)) ∧
    (a.val % 2 = 0 → b.val % 2 = 0 →
      ∀ x ∈ ([(.vdotBf16 r d a b, .fp bf16), (.vdotFp16 r d a b, .fp fp16), (.vdotI8 r d a b, .int 8)] : List (Instr × VType)),
        exec x.1 s = .next (advance u r.core 1 fun z => z.setV d (dot s c x.2 d a b)))) ∧
  (∀ (ty : Fin 8) (d a b : Fin 16) (g : Fin 8) (n : Bool), 8 ≤ r.core.val → Ready s r 2 →
    (c.guard g n = false → ∀ i ∈ ([.vopAdd r ty d a b g n, .vopSub r ty d a b g n, .vopMul r ty d a b g n, .vopFma r ty d a b g n,
        .vopMin r ty d a b g n, .vopMax r ty d a b g n, .vopAnd r ty d a b g n, .vopOr r ty d a b g n, .vopXor r ty d a b g n,
        .vopCvt r ty d a b g n, .vopDot r ty d a b g n] : List Instr), exec i s = .next (advance s r.core 2)) ∧
    (c.guard g n = true → ∀ t, vtype ty = some t →
      (∀ x ∈ ([(.vopAdd r ty d a b g n, 0), (.vopSub r ty d a b g n, 1), (.vopMul r ty d a b g n, 2), (.vopFma r ty d a b g n, 3),
          (.vopMin r ty d a b g n, 4), (.vopMax r ty d a b g n, 5)] : List (Instr × Nat)),
        exec x.1 s = .next (advance u r.core 2 fun z => z.setV d (lanewise s c t x.2 d a b))) ∧
      (ty = 3 → ∀ x ∈ ([(.vopAnd r ty d a b g n, c.v a &&& c.v b), (.vopOr r ty d a b g n, c.v a ||| c.v b),
          (.vopXor r ty d a b g n, c.v a ^^^ c.v b)] : List (Instr × BitVec 512)),
        exec x.1 s = .next (advance u r.core 2 fun z => z.setV d x.2)) ∧
      (t.width < 32 → a.val % 2 = 0 → b.val % 2 = 0 →
        exec (.vopDot r ty d a b g n) s = .next (advance u r.core 2 fun z => z.setV d (dot s c t d a b))) ∧
      (∀ w, b.val < 8 → vtype (Fin.ofNat 8 b.val) = some w → exec (.vopCvt r ty d a b g n) s =
        .next (advance u r.core 2 fun z => z.setV d (ofLanes w.width w.lanes fun i =>
          if i < t.lanes then convertLane t w (lane (c.v a) t.width i) (freeLane s i) else 0))))) ∧
  (∀ (ty : Fin 8) (d : Fin 16) (a : Fin 32) (e : Fin 32) (v : Fin 16) (l : Fin 64) (t : VType), 8 ≤ r.core.val → Ready s r 2 →
    vtype ty = some t →
    exec (.vsplat r ty d a) s = .next (advance s r.core 2 fun z => z.setV d (ofLanes t.width t.lanes fun _ => (c.w a).toNat)) ∧
    (l.val < t.lanes →
      exec (.vext r ty e v l) s = .next (advance s r.core 2 fun z => z.setW e (if t.width = 16 then
        BitVec.ofNat 64 (lane (c.v v) t.width l) else BitVec.ofInt 64 (signed t.width (lane (c.v v) t.width l)))) ∧
      exec (.vins r ty d a l) s = .next (advance s r.core 2 fun z => z.setV d (ofLanes t.width t.lanes fun i =>
        if i = l.val then (c.w a).toNat else lane (c.v d) t.width i))) ∧
    (∀ w, t = .int w → exec (.vrsum r ty e v) s = .next (advance u r.core 2 fun z => z.setW e (BitVec.ofInt 64 (signed w
      (((List.range t.lanes).map fun i => lane (c.v v) w i).foldl (· + ·) 0)))))) ∧
  (∀ d a b : Fin 16, r.core.val < 8 → Ready s r 1 → c.enable = true → c.tvec ≠ 0 →
    exec (.vxor r d a b) s = .next (setCore s r.core { c with
      epc := c.pc
      cause := 1
      faddr := 0
      enable := false
      pc := c.tvec })) ∧
  (∀ (c : CoreState) (w op : Nat) (d a b : Fin 16), lanewise s c (.int w) op d a b = ofLanes w (512 / w) fun i =>
    laneOp (.int w) op (lane (c.v d) w i) (lane (c.v a) w i) (lane (c.v b) w i) ((freeLane s i).getLsbD 0)) ∧
  (∀ (w z x y : Nat) (f : Bool), laneOp (.int w) 0 z x y f = x + y ∧ laneOp (.int w) 1 z x y f = x + 2 ^ w - y ∧
    laneOp (.int w) 2 z x y f = x * y ∧ laneOp (.int w) 3 z x y f = z + x * y)

/-- The kernel library and queue pairs (R100, R376 to R378, R394 to R396). Kernel loads work as rubric loads do and a verified image enters
the library under a free identifier. A removal sets HOLD and waits, and completes when no item names the kernel, with its cores to reload.
Create brings a free pair into service with its indexes at 0; delete aborts what has not started and completes once the rest has; Group Set
sets a group. A pair register is written while the pair is disabled; of an enabled one only ENABLE can be cleared, which deletes it. PARK
asks an idle core to park, which hands its dispatch queue back, and clearing it unparks. KERNEL_LOAD_BEGIN, KERNEL_LOAD_CHUNK,
KERNEL_LOAD_COMMIT, KERNEL_REMOVE, KERNEL_REMOVE_COMPLETE, KERNEL_LIST, QUEUE_CREATE, QUEUE_DELETE, GROUP_SET, the three QUE_PAIR writes,
NIB_CORE_PARK_WRITE and CORE_PARKED complete so. -/
def Obligations.KernelsPairsAndParkedCores : Prop :=
  (∀ (s : State) (n : Fin 4096) (p : List (BitVec 8)), p = payload s n →
    (Serving s n 0x40 → libraryReady s = true → field p 4 4 = 0 → 3988 ≤ field p 0 4 → 8 ≤ p.length →
      s.scribes.sessions.length < 65536 → ∀ x : State × Nat, x = openSession s true (field p 0 4) →
      exec (.kernelLoadBegin n) s = .next (finish x.1 n 0 0 (leBytes 2 x.2))) ∧
    (∀ x, Serving s n 0x41 → libraryReady s = true → Tab.find s.scribes.sessions (field p 0 2) = some x → x.kernel = true →
      8 ≤ p.length → field p 2 2 = 0 → field p 4 4 + (p.drop 8).length ≤ x.length →
      exec (.kernelLoadChunk n) s = .next (finish { s with scribes := { s.scribes with
        sessions := Tab.set s.scribes.sessions (field p 0 2)
          { x with bytes := putBytes x.bytes (field p 4 4) (p.drop 8) } } } n 0 0 [])) ∧
    (∀ (x : LoadSession) (l : List (BitVec 8)) (c : State) (k : Nat), Serving s n 0x42 → libraryReady s = true →
      Tab.find s.scribes.sessions (field p 0 2) = some x → x.kernel = true → c = closeSession s (field p 0 2) →
      l = bytesAt x.bytes 0 x.length → k = field l 0xC 2 → exec (.kernelLoadCommit n) s = .next (
        if kernelLayoutOk l = false then finish c n 2 0 []
        else match verifyImage c l (bit (field l 0xE 2) 0) false (field l 0x24 4) with
        | .inl e => finish (if e = 5 ∨ e = 6 ∨ e = 4 then event c 0xB4 440 e else c) n e 0 []
        | .inr g => if c.on (NIB_KERNEL_LOC_VALID k) = true then finish c n 10 0 []
          else match libraryRoom c (kernelOf l g).size with
          | none => finish c n 7 0 []
          | some o => finish (registerKernel c k o l (kernelOf l g)) n 0 0 (leBytes 2 k))) ∧
    (∀ k, Serving s n 0x43 → managementReady s = true → k = field p 0 2 → 0 < k → k < 4096 →
      (s.on (NIB_KERNEL_LOC_VALID k) = false → exec (.kernelRemove n) s = .next (finish s n 8 0 [])) ∧
      (s.on (NIB_KERNEL_LOC_VALID k) = true → (Tab.at s.queues.kernels k {}).removing = none → ∀ u : State,
        u = s.put (NIB_KERNEL_LOC_HOLD k) 1 → exec (.kernelRemove n) s = .next (inProgress { u with queues := { u.queues with
          kernels := Tab.set u.queues.kernels k { Tab.at s.queues.kernels k {} with removing := some n.val } } } n (0x20000 + k)))) ∧
    (∀ ks : List (Nat × Kernel), Serving s n 0x44 → managementReady s = true → ks = (s.queues.kernels.filter fun (k, _) =>
        decide (field p 0 2 ≤ k) && s.on (NIB_KERNEL_LOC_VALID k)).take 1279 →
      exec (.kernelList n) s = .next (finish s n 0 0 (leBytes 2 ks.length ++ leBytes 2 0 ++ ks.flatMap fun x => leBytes 2 x.1
        ++ leBytes 2 x.2.flags ++ leBytes 4 x.2.version ++ leBytes 8 0 ++ (List.range 32).map fun i => x.2.name.getD i 0))) ∧
    (∀ k : Nat, Serving s n 0x48 → managementReady s = true → k = field p 0 2 → k < 16384 → field p 2 2 < 1024 →
      field p 6 1 < 16 → field p 7 1 < 16 → field p 24 1 < 8 → field p 25 1 = 0 → field p 26 2 < 4096 → field p 28 4 = 0 →
      field p 8 8 % 4096 = 0 → field p 16 8 % 4096 = 0 → pairCfgOk s (createWord p) = true → pairOwnerOk (field p 4 2) = true →
      exec (.queueCreate n) s = .next (if (pair s k).enabled = true then finish s n 10 0 [] else finish
        (createPair s k (createWord p) (BitVec.ofNat 64 (field p 8 8)) (BitVec.ofNat 64 (field p 16 8))) n 0 0 [])) ∧
    (∀ k : Nat, Serving s n 0x49 → managementReady s = true → k = field p 0 2 → k < 16384 →
      ((pair s k).enabled = false → exec (.queueDelete n) s = .next (finish s n 8 0 [])) ∧
      ((pair s k).enabled = true → (pair s k).deleting = false →
        exec (.queueDelete n) s = .next (deletePair (inProgress s n (0x10000 + k)) k (some n.val)))) ∧
    (∀ g : Nat, Serving s n 0x4A → managementReady s = true → g = field p 0 2 → g < 1024 → field p 4 1 < 2 → field p 5 3 = 0 →
      exec (.groupSet n) s = .next (finish ((s.put (QUE_GROUP_VALID g) (field p 4 1)).put
        (QUE_GROUP_RUN_LIMIT_LINES g) (field p 2 2)) n 0 0 []))) ∧
  (∀ (s u : State) (k : Nat) (q : Kernel), s.queues.kernels = [(k, q)] → q.removing ≠ none →
    (∀ x ∈ s.queues.items, x.2.kernel ≠ k) → u = s.setWord (NIB_KERNEL_LOC_VALID k).addr 0 → ∀ v : State, v = { u with
      queues := { u.queues with kernels := Tab.del u.queues.kernels k }
      cores := u.cores.map fun (c, x) => (c, if 8 ≤ c ∧ u.get (NIB_CORE_KERNEL (c - 8)) = k then { x with stale := true } else x) } →
    ∀ m, q.removing = some m → exec .kernelRemoveComplete s = .next (if (box v m).token = some (0x20000 + k) then
      finish v m 0 0 [] else v)) ∧
  (∀ (s : State) (k : Nat) (p : Pair) (v w : BitVec 64), k = s.get QUE_SELECT_PAIR → p = pair s k →
    w = v &&& 0xFFFFFFC0FFFFFF00#64 →
    (p.enabled = true → p.deleting = false → exec (.quePairCfgWrite v) s = .next
      (if w = p.cfg &&& 0x7FFFFFFFFFFFFFFF#64 then deletePair s k none else notice s 430)) ∧
    (p.enabled = false → pairCfgOk s w = true → pairOwnerOk (bitsOf w.toNat 16 16) = true → exec (.quePairCfgWrite v) s = .next
      (if w.getLsbD 63 = true then createPair s k w p.sq p.cq else setPair s k { p with cfg := w })) ∧
    exec (.quePairSqWrite v) s = .next (if p.enabled = true then notice s 430 else
      setPair s k { p with sq := v &&& 0xFFFFFFFFFFFFF000#64 }) ∧
    exec (.quePairCqWrite v) s = .next (if p.enabled = true then notice s 430 else
      setPair s k { p with cq := v &&& 0xFFFFFFFFFFFFF000#64 })) ∧
  (∀ (s : State) (g : Fin 256) (v : BitVec 64), absentUnit s.variant .NIB_CORE g 0 = false →
    (∀ u : State, u = s.putB (NIB_CORE_PARK g) (v.getLsbD 60) → exec (.nibCoreParkWrite g v) s = .next (
      if v.getLsbD 60 = false ∧ u.get (NIB_CORE_STATE g) = 4 then
        (u.put (NIB_CORE_STATE g) 1).setFlag (NIB_CLUSTER_PARKED (g / 16)) (g % 16) false else u)) ∧
    exec (.coreParked g) s = .next (
      if s.get (NIB_CORE_STATE g) = 1 ∧ (s.on (NIB_CORE_PARK g) = true ∨ s.get (CHN_REPAIR_STATE_STATE g) = 5 ∧ baseRuns s 1 = true)
      then requeueItems ((s.put (NIB_CORE_STATE g) 4).setFlag (NIB_CLUSTER_PARKED (g / 16)) (g % 16)) (8 + g) else s))

/-- Work items (R168 to R172, R380 to R390). Doorbells set the tail or free completion entries, and a bad one is discarded with a Notice or
puts the pair in ERROR. A fetch takes the next entry into a validated item or ends it with its refusal; an entry that cannot be read is
ERROR. The oldest item that may be placed is placed; one that waits is tried again each line, until its limit ends it. An idle core starts
the item of earliest deadline, dropping one that is late; one at the completion address ends its item, after a fence; one past its group's
limit is stopped, and waits for its stores. What each line of lists does is the model's (log entries 31, 32 and 52). SQ_DOORBELL,
CQ_DOORBELL, ITEM_FETCH, WORK_PLACE, PREMIGRATE_RELEASE, PLACEMENT_RETRY, DEFER_LIMIT_EXPIRY, DEADLINE_DROP, CLUSTER_VOTE_RELEASE,
ITEM_START, ITEM_END and RUN_LIMIT_EXPIRY complete so. -/
def Obligations.WorkItemsAreFetchedPlacedRunAndEnded : Prop :=
  (∀ (s u : State) (p : Fin 64) (k : Fin 4) (d : Fin 16) (i : Fin 16384) (v : BitVec 32), linkUp s p k = true →
    s.get (PRT_PORT_CTRL_ROLE p) = 0 → ldOn s p k d = true → s.fatal = false → u = linkActivity s →
    ((pairsOf u p k d)[i.val]? = none → exec (.sqDoorbell p k d i v) s = .next (barRefused u p k d true (64 * i)) ∧
      exec (.cqDoorbell p k d i v) s = .next (barRefused u p k d true (64 * i + 4))) ∧
    (∀ n q, (pairsOf u p k d)[i.val]? = some n → q = pair u n →
      (q.enabled = false → exec (.sqDoorbell p k d i v) s = .next (notice u 430)) ∧
      (q.enabled = true → q.sqSize ≤ v.toNat → exec (.sqDoorbell p k d i v) s = .next (pairError (notice u 430) n)) ∧
      (q.enabled = true → v.toNat < q.sqSize → exec (.sqDoorbell p k d i v) s = .next (setPair u n { q with sqTail := v.toNat })) ∧
      (q.enabled = true → v.toNat < q.cqSize → exec (.cqDoorbell p k d i v) s = .next (setPair u n { q with
        cqHead := v.toNat
        used := q.used - (v.toNat + q.cqSize - q.cqHead) % q.cqSize })))) ∧
  (∀ (s u : State) (n : Fin 16384) (b : BitVec 512) (ok : Bool) (run : ReadRun) (p : Pair) (e : Option (BitVec 512)), p = pair s n →
    s.fatal = false → p.enabled = true → p.error = false → p.deleting = false → p.sqHead ≠ p.sqTail →
    p.inFlight + p.used < p.cqSize →
    p.cfg.getLsbD 62 = true ∨ overCeiling s (originAccount s (.queue n.val)) = false → fetchEntry s n b ok run = (u, e) →
    (e = none → exec (.itemFetch n b ⟨ok, run⟩) s = .next (pairError u n)) ∧
    (∀ (v : BitVec 512) (h i : Nat) (x : Item) (w : State), e = some v → h = (p.sqHead + 1) % p.sqSize → i = u.queues.nextItem →
      x = itemOf n i h v → w = setPair u n { p with sqHead := h, inFlight := p.inFlight + 1 } →
      ∀ y, y = setItem { w with queues := { w.queues with nextItem := i + 1 } } i x →
      (itemRefusal y x = none → exec (.itemFetch n b ⟨ok, run⟩) s = .next y) ∧
      (∀ st, itemRefusal y x = some st → exec (.itemFetch n b ⟨ok, run⟩) s = .next (endItem y i { status := st })))) ∧
  (∀ s : State, s.fatal = false →
    (∀ o, s.queues.items.find? (fun (_, x) => x.place == .waiting && !x.retry && x.parts == 0 && mayPlace s x) = o →
      exec .workPlace s = .next (match o with | some (i, x) => placeWaiting s i x | none => s)) ∧
    (∀ i x, s.queues.items = [(i, x)] → x.place = .waiting → x.parts = 0 →
      (x.retry = true → ∀ f, x.since = some f → exec .deferLimitExpiry s = .next
        (if f + s.get QUE_CTRL_DEFER_LIMIT ≤ s.folio then endItem s i { status := csNoCore } else s)) ∧
      (x.retry = false → exec .placementRetry s = .next s ∧ exec .deferLimitExpiry s = .next s) ∧
      (x.retry = true → ∀ y u, u = placeItem s i x → itemAt u i = some y → (y.retry = false ∨ y.since = none) →
        exec .placementRetry s = .next u) ∧
      exec .deadlineDrop s = .next (if dropDue s x = true then endItem s i { status := csDeadline } else s) ∧
      exec .premigrateRelease s = .next s) ∧
    (∀ i x g, s.queues.items = [(i, x)] → x.place = .migrating (8 + g) → migrated s i = true →
      exec .premigrateRelease s = .next (releaseItem s i x g))) ∧
  (∀ (s u : State) (i g : Nat) (x : Item) (l : List Nat), askMoves s i g x.toMove = (u, l) →
    (l ≠ [] ∨ migrated u i = false → releaseItem s i x g = setItem u i { x with toMove := l }) ∧
    (l = [] → migrated u i = true → (dispatching u && coreFits u x g && clusterUp u (g / 16)) = true →
      releaseItem s i x g = if 64 ≤ (core u (8 + g)).queue.length then setItem u i { x with toMove := [], place := .waiting, retry := true }
        else enqueue u i { x with toMove := [] } g)) ∧
  (∀ s : State, exec .clusterVoteRelease s = .next ((List.range s.variant.clusters).foldl (fun t c =>
    if t.flag (PWR_DOMAIN_VOTES (clusterDomain c)) 3 = true ∧ clusterBusy t c = false
        ∧ Tab.at t.queues.idle c 0 + t.get NIB_CTRL_IDLE_HOLD_FOLIOS ≤ t.folio then
      vote { t with queues := { t.queues with idle := Tab.del t.queues.idle c } } (clusterDomain c) 3 false else t) s)) ∧
  (∀ (s : State) (g : Fin 256) (k : Nat) (reads : List ReadRun), k = 8 + g.val →
    (dispatching s = true → s.get (NIB_CORE_STATE g) = 1 → s.on (NIB_CORE_PARK g) = false →
      (nextOf s k = none → exec (.itemStart ⟨g, reads⟩) s = .next s) ∧
      (∀ i x, nextOf s k = some (i, x) → exec (.itemStart ⟨g, reads⟩) s = .next
        (if dropDue s x = true then abandon s i x csDeadline else startItem (unqueue s k i) k i x reads))) ∧
    (∀ c i, c = core s k → c.running = true → c.item = some i → c.pc = BitVec.allOnes 64 →
      (failedAccess s k = none → exec (.itemEnd g) s = .next (if c.outstanding = [] then endCore s k csSuccess 0 (c.w 1).toNat
        else setCore s k { c with wait := some .itemEnd })) ∧
      (∀ a cause, failedAccess s k = some (a, cause) →
        exec (.itemEnd g) s = .next (endCore s k csFault cause a.addr.toNat))) ∧
    (∀ c x q lim, c = core s k → c.item.bind (itemAt s) = some x → q = (pair s x.pair).group →
      lim = s.get (QUE_GROUP_RUN_LIMIT_LINES q) →
      (lim = 0 ∨ s.ruling.gen < c.itemLine + lim → exec (.runLimitExpiry g) s = .next s) ∧
      (lim ≠ 0 → c.itemLine + lim ≤ s.ruling.gen → c.wait ≠ some .stopped → ∀ l, l = c.outstanding.filterMap CoreAccess.store? →
        exec (.runLimitExpiry g) s = .next (if l = [] then endCore s k csTimeout 0 (c.w 1).toNat
          else setCore s k { c with outstanding := l, wait := some .stopped }))))

/-- Clocks (R398 to R408, R410, R412 to R415, R417). A trip makes a valid input invalid and unready, counted, and its loops hold; a loop
that finds a READY source takes it and relocks, else coasts, with events; after 100 µs of VALID an input is READY. A lost lock is a lost
reference. The oscillator's lock raises READY with its trim, and out of range clears it. A domain takes an allowed READY source in order,
and a refusal sets REFUSED with an event. A gate turns on with its ancestors and turns off only without a used child. Outputs change to
READY sources; a nib PLL is set in free mode, where a crossing overrun is Fatal. REFCLK_LOSS, REFCLK_FREQUENCY_TRIP, REFCLK_VALID,
REFCLK_READY, the PLL, OSC, DOMAIN and GATE commands, COAST_ESCALATION, CLK_OUT_WRITE, NIB_PLL_WRITE and CROSSING_OVERRUN complete so. -/
def Obligations.ClocksFollowTheirSources : Prop :=
  (∀ (s : State) (q : Fin 4), (inputPresent s q = true → s.flag CLK_REF_STATUS_VALID q = true → ∀ u v : State,
      u = (((s.inc CLK_REF_STATUS_TRIPS).setFlag CLK_REF_STATUS_TRIPPED q).setFlag CLK_REF_STATUS_VALID q false).setFlag
        CLK_REF_STATUS_READY q false → v = (if (List.range 5).any (sourceReady u) = true then event u 0xD0 434 q else u) →
      exec (.refclkLoss q) s = .next (followBackstop (((List.range 5).filter fun l =>
        loopRuns v l && loopActive v l == q.val && !(loopOf v l).coast).foldl (fun t l => loseReference t l none) v))) ∧
    (s.flag CLK_REF_STATUS_VALID q = false → exec (.refclkLoss q) s = .next s) ∧
    (s.on CLK_OSC_READY = true → exec (.refclkFrequencyTrip q) s = exec (.refclkLoss q) s) ∧
    (s.on CLK_OSC_READY = false → exec (.refclkFrequencyTrip q) s = .next s) ∧
    (inputPresent s q = true → exec (.refclkValid q) s = .next (followBackstop (s.setFlag CLK_REF_STATUS_VALID q))) ∧
    exec (.refclkReady q) s = .next (if inputPresent s q = true ∧ s.flag CLK_REF_STATUS_VALID q = true then
      retakeAll (s.setFlag CLK_REF_STATUS_READY q) else s)) ∧
  (∀ (s : State) (l : Fin 11), loopRuns s l = true →
    ((loopOf s l).coast = true → exec (.pllRelock l) s = .next s ∧ exec (.pllLockLost l) s = .next s ∧
      ((loopOf s l).escalated = false → exec (.coastEscalation l) s =
        .next (event (setLoop s l { loopOf s l with escalated := true }) 0xD2 434 l))) ∧
    ((loopOf s l).coast = false → exec (.coastEscalation l) s = .next s ∧
      ((loopOf s l).holding = true → (loopOf s l).relock = false →
        exec (.pllCoast l) s = .next (coastLoop s l) ∧ exec (.pllRelock l) s = .next s) ∧
      ((loopOf s l).relock = true → exec (.pllRelock l) s = .next (releasePending (bootClock (setLoop s l {}))) ∧ exec (.pllCoast l) s = .next s) ∧
      ((loopOf s l).holding = false → exec (.pllLockLost l) s = .next (if 5 ≤ l.val then
        setLoop (event s 0xD4 434 l) l { holding := true, relock := true }
        else loseReference (event s 0xD4 434 l) l (some (loopActive (event s 0xD4 434 l) l)))))) ∧
  (∀ (s : State) (b : BitVec 8) (v : BitVec 64),
    (s.clocks.oscLock = false → exec (.oscLockComplete b) s = .next s) ∧
    (s.clocks.oscLock = true → exec (.oscLockComplete b) s = .next (releasePending (followBackstop (retakeAll
      { (s.put CLK_OSC_TRIM b.toNat).put CLK_OSC_READY 1 with clocks := { s.clocks with oscLock := false } })))) ∧
    exec .oscOutOfRange s = .next (if anyValid s = true ∧ s.on CLK_OSC_READY = true then
      event { s.put CLK_OSC_READY 0 with clocks := { s.clocks with oscLock := true } } 0xD5 434 else s) ∧
    exec (.oscRelock v) s = .next (if v.getLsbD 0 = true then { s with clocks := { s.clocks with oscLock := true } } else s) ∧
    exec .crossingOverrun s = .next (if s.on CLK_CTRL_MODE = true then event s 0xD7 434 else s) ∧
    (∀ k : Fin 2, exec (.nibPllWrite k v) s = .next (if s.on CLK_CTRL_MODE = true then
      s.put (CLK_NIB_PLL_FREQ_MHZ k) (v.toNat % 4096) else s))) ∧
  (∀ (s u : State) (n : Fin 32) (v : BitVec 64) (c : Nat), absentUnit s.variant .CLK_DOMAIN n 0 = false →
    c = v.toNat % 16 →
    u = (if v.getLsbD 11 = true then s.put (CLK_DOMAIN_REFUSED n) 0 else s) → c ≠ u.get (CLK_DOMAIN_SOURCE n) →
    (domainAllows u n c = false → exec (.domainSwitchRequest n v) s = .next (notice u 434)) ∧
    (domainAllows u n c = true → domainReady u n c = false →
      exec (.domainSwitchRequest n v) s = .next (event (u.put (CLK_DOMAIN_REFUSED n) 1) 0xD6 434 n)) ∧
    (domainAllows u n c = true → domainReady u n c = true → exec (.domainSwitchRequest n v) s = .next
      { u.put (CLK_DOMAIN_SOURCE n) c with clocks := { u.clocks with
        switches := Tab.set u.clocks.switches n (Tab.at u.clocks.switches n [] ++ [c]) } })) ∧
  (∀ (s : State) (n : Fin 32), (Tab.at s.clocks.switches n [] = [] → exec (.domainSwitchComplete n) s = .next s) ∧
    ∀ c l, Tab.at s.clocks.switches n [] = c :: l → exec (.domainSwitchComplete n) s = .next
      { s.put (CLK_DOMAIN_ACTIVE n) c with clocks := { s.clocks with
        switches := if l = [] then Tab.del s.clocks.switches n else Tab.set s.clocks.switches n l } }) ∧
  (∀ (s u : State) (g : Fin 4096) (v : BitVec 64), u = (if v.getLsbD 2 = true then s.put (CLK_GATE_REFUSED g) 0 else s) →
    (v.getLsbD 0 = true → exec (.gateWrite g v) s = .next (gateOn 4096 u g)) ∧
    (v.getLsbD 0 = false → u.on (CLK_GATE_ON g) = false → exec (.gateWrite g v) s = .next u) ∧
    (v.getLsbD 0 = false → u.on (CLK_GATE_ON g) = true → exec (.gateWrite g v) s = .next (if childUsed u g = true then
      event (u.put (CLK_GATE_REFUSED g) 1) 0xD6 434 g else (u.put (CLK_GATE_ON g) 0).put (CLK_GATE_IN_USE g) 0))) ∧
  (∀ (s u : State) (o : Fin 2) (v : BitVec 64) (c : Nat), c = v.toNat % 8 → u = s.put (CLK_OUT_ENABLE o) (bitsOf v.toNat 3 1) →
    (4 < c → exec (.clkOutWrite o v) s = .next (notice s 434)) ∧
    (c ≤ 4 → c = u.get (CLK_OUT_SOURCE o) → exec (.clkOutWrite o v) s = .next u) ∧
    (c ≤ 4 → c ≠ u.get (CLK_OUT_SOURCE o) → exec (.clkOutWrite o v) s = .next (
      if (if c = 4 then u.on CLK_ROOT_READY else sourceReady u c) = true then u.put (CLK_OUT_SOURCE o) c
      else event u 0xD6 434 (32 + o))))

/-- Domains and power states (R422 to R425, R429 to R433, R436, R437). A Scribe's vote is set or cleared in a present domain; a domain that
completes its rise or drop is up or off and the next follows. A request for the held state is ignored, for Writing under SHUTDOWN_N
reported, during a transition kept (log entry 54), else it starts. SHUTDOWN_N takes Writing to Capped and its rise back, WAKE_N wakes: each
at most once in 64 lines, else only the pin changes. A drain past its lines stops the items with TIMEOUT. An entry completes when nothing
keeps it; towers sleep again in idle Capped. The limiter steps up over the cap and down after 64 windows under 95 percent of it.
DOMAIN_VOTE, DOMAIN_UNVOTE, DOMAIN_RISE_COMPLETE, DOMAIN_DROP_COMPLETE, PWR_REQUEST, SHUTDOWN_N_FALL, SHUTDOWN_N_RISE, WAKE_N,
DRAIN_TIMEOUT, STATE_ENTRY_COMPLETE, CAPPED_IDLE_EXPIRY and LIMITER_WINDOW complete so. -/
def Obligations.DomainsAndPowerStatesMove : Prop :=
  (∀ (s : State) (k : Fin 8) (n : Fin 38), (domainPresent s n = true →
      exec (.domainVote k n) s = .next (pumpDomains (s.setFlag (PWR_DOMAIN_VOTES n) (8 + k.val) true)) ∧
      exec (.domainUnvote k n) s = .next (pumpDomains (s.setFlag (PWR_DOMAIN_VOTES n) (8 + k.val) false))) ∧
    (domainPresent s n = false → exec (.domainVote k n) s = .next s ∧ exec (.domainUnvote k n) s = .next s) ∧
    exec (.domainRiseComplete n) s = .next (if domainStatus s n = 1 then pumpDomains (domainRisen s n) else s) ∧
    exec (.domainDropComplete n) s = .next (if domainStatus s n = 3 then pumpDomains (domainDropped s n) else s)) ∧
  (∀ (s : State) (v : BitVec 64) (t : Nat), t = v.toNat % 8 →
    (t ≠ stQuiet → t ≠ stCapped → t ≠ stWriting → exec (.pwrRequest v) s = .next (notice s 435)) ∧
    (t = stQuiet ∨ t = stCapped ∨ t = stWriting → s.colophon.fatalShadow = false → powerState s ≠ 0 →
      (t = stWriting → s.on PWR_STATE_SHUTDOWN = true → exec (.pwrRequest v) s = .next (event s 0xE4 435)) ∧
      (t ≠ stWriting ∨ s.on PWR_STATE_SHUTDOWN = false → s.on PWR_STATE_IN_TRANSITION = true →
        s.power.entryLine ≠ s.ruling.gen →
        exec (.pwrRequest v) s = .next { s with power := { s.power with request := some t } }) ∧
      (t ≠ stWriting ∨ s.on PWR_STATE_SHUTDOWN = false → s.on PWR_STATE_IN_TRANSITION = false →
        (t = powerState s → exec (.pwrRequest v) s = .next s) ∧
        (t = stWriting → t ≠ powerState s →
          exec (.pwrRequest v) s = .next (leaveFor (s.put PWR_WAKE_LAST_SOURCE 4) stWriting 1)) ∧
        (t ≠ stWriting → t ≠ powerState s → powerState s ≠ stQuiet → exec (.pwrRequest v) s = .next (leaveFor s t 1))))) ∧
  (∀ (s u v : State) (high : Bool), u = { s with pins := { s.pins with shutdownN := high } } →
    v = ({ u with power := { s.power with shutdownGen := some s.ruling.gen } } : State).put PWR_STATE_SHUTDOWN (if high then 0 else 1) →
    (powerState s = 0 ∨ s.on PWR_STATE_SHUTDOWN = !high ∨ recentChange s s.power.shutdownGen = true →
      exec (if high then .shutdownNRise else .shutdownNFall) s = .next u) ∧
    (powerState s ≠ 0 → s.on PWR_STATE_SHUTDOWN = high → recentChange s s.power.shutdownGen = false →
      s.colophon.fatalShadow = false → v.on PWR_STATE_IN_TRANSITION = false →
      (high = false → s.boot.active = true → powerState v = stWriting → exec .shutdownNFall s =
        .next (leaveFor { v with power := { v.power with capByPin := true } } stCapped 2)) ∧
      (high = true → powerState v = stCapped → s.power.capByPin = true →
        exec .shutdownNRise s = .next (leaveFor v stWriting 2)))) ∧
  (∀ s : State, (s.colophon.fatalShadow = true ∨ powerState s = 0 ∨ recentChange s s.power.wakeGen = true → exec .wakeN s = .next s) ∧
    (s.colophon.fatalShadow = false → powerState s ≠ 0 → recentChange s s.power.wakeGen = false →
      exec .wakeN s = .next (wake { s with power := { s.power with wakeGen := some s.ruling.gen } } 2))) ∧
  (∀ (s u : State), powerState s = stWriting → s.on PWR_STATE_IN_TRANSITION = true → s.get PWR_STATE_TARGET ≠ stWriting →
    s.power.drained = false → s.power.entryLine + s.get PWR_CTRL_DRAIN_LINES ≤ s.ruling.gen →
    u = { s with power := { s.power with drained := true } } →
    exec .drainTimeout s = .next (((List.range s.variant.channels).filterMap fun g =>
        if (core u (8 + g)).item.isSome then some (8 + g) else none).foldl
      (fun t k => endCore (event t 0xE5 435 (k - 8)) k csTimeout 0 ((core t k).w 1).toNat) u)) ∧
  (∀ s : State, powerState s ≠ 0 → s.colophon.fatalShadow = false →
    (s.on PWR_STATE_IN_TRANSITION = false → exec .stateEntryComplete s = .next s) ∧
    (s.on PWR_STATE_IN_TRANSITION = true → s.get PWR_STATE_TARGET ≠ stWriting → drainedNow s = false →
      exec .stateEntryComplete s = .next s) ∧
    (s.on PWR_STATE_IN_TRANSITION = true → s.get PWR_STATE_TARGET = stWriting ∨ drainedNow s = true →
      exec .stateEntryComplete s = .next (holdState s)) ∧
    exec .cappedIdleExpiry s = .next (if powerState s = stCapped ∧ s.on PWR_STATE_IN_TRANSITION = false ∧ drainedNow s = true
        ∧ s.power.activeGen + s.get PWR_CTRL_CAPPED_IDLE_LINES ≤ s.ruling.gen then towersSleep s else s)) ∧
  (∀ (s u : State) (l m under over' : Nat), s.ruling.line % 64 = 0 → s.power.windowLines = m → 0 < m →
    l = (s.put PWR_INK_POWER (min 65535 (s.power.windowSum / m))).get PWR_CLASS_LIMIT_STEP →
    under = (if 100 * s.power.windowSum < 95 * (powerCap s * m) then s.power.limUnder + 1 else 0) →
    over' = (if powerCap s * m < s.power.windowSum ∧ l = 24 then s.power.limOver + 1 else 0) →
    u = { s.put PWR_INK_POWER (min 65535 (s.power.windowSum / m)) with power := { s.power with
      windowSum := 0, windowLines := 0, limUnder := under, limOver := over' } } →
    (powerCap s * m < s.power.windowSum → l < 24 → exec .limiterWindow s = .next ((List.range u.variant.clusters).foldl showCluster
      (eventOnce (u.put PWR_CLASS_LIMIT_STEP (l + 1)) 0xE7 435 0))) ∧
    (s.power.windowSum ≤ powerCap s * m → under ≠ 64 →
      exec .limiterWindow s = .next ((List.range u.variant.clusters).foldl showCluster u)) ∧
    (s.power.windowSum ≤ powerCap s * m → under = 64 → exec .limiterWindow s = .next ((List.range u.variant.clusters).foldl showCluster
      { u.put PWR_CLASS_LIMIT_STEP (l - 1) with power := { u.power with limUnder := 0 } })))

/-- The supply and the pins (R418 to R420, R427, R429, R456, R457, R520, R550). VIN on takes the node from Off to Standby with the RTC's
count; VIN off loses what the Inkwell held and every rail, and clears the Fatal latch. A VIN fault, a rail fault and RESET_N low take it to
Standby with the cause; the Fatal latch makes RESET_N ineffective. A lost phase lowers MAX_CLASS with an event, and six or more lost make a
second one. The rail rises again on RESET_N, after an Inkwell cycle, and after a THERMTRIP only once every sensor is below its restart
limit. VIN_ON, VIN_OFF, VIN_FAULT, INK_RAIL_FAULT, RESET_ASSERT, INK_PHASE_LOST, INKWELL_CYCLE_RESTART, INK_RAIL_RAISE and
THERMTRIP_RESTART_CHECK complete so. -/
def Obligations.SupplyEventsMoveTheRails : Prop :=
  (∀ (s : State) (c : Option (BitVec 64)), (s.power.rails ≠ .off → exec (.vinOn c) s = .next s) ∧
    (s.power.rails = .off → ∀ u : State, u = { s with
        colophon := { s.colophon with vinCycled := true, lockCycled := true }
        power := { s.power with rails := .standby } } →
      (∀ n, c = some n → exec (.vinOn c) s = .next (standbyPins (tickRtc u n.toNat))) ∧
      (c = none → exec (.vinOn c) s = .next (standbyPins { u with
        colophon := { u.colophon with rtc := 0, rtcValid := false }
        power := { u.power with bootEvents := u.power.bootEvents ++ [(0x138, 0)] } })))) ∧
  (∀ s : State, ∃ t, exec .vinOff s = .next t ∧ t.power.rails = .off ∧ t.colophon.fatalShadow = false ∧ t.colophon.waiting = [] ∧
    t.desk = [] ∧ t.media = [] ∧ t.cores = [] ∧ t.fuses.array = s.fuses.array ∧ t.colophon.minuteRing = s.colophon.minuteRing ∧
    t.colophon.eventRing = s.colophon.eventRing ∧ t.variant = s.variant ∧ t.out = s.out ∧ t.pending = s.pending) ∧
  (∀ s : State, (s.power.rails = .up → exec .vinFault s = .next (toStandby (event s 0xE3 436) 7) ∧
      exec .inkRailFault s = .next (toStandby (event s 0xE2 436) 9)) ∧
    (s.power.rails ≠ .up → exec .vinFault s = .next s ∧ exec .inkRailFault s = .next s) ∧
    (∀ u : State, u = { s with pins := { s.pins with resetN := false } } → exec .resetAssert s = .next (
      if s.power.rails = .up ∧ s.colophon.fatalShadow = false then toStandby u 6 else u))) ∧
  (∀ (s u : State) (c : Nat), u = toStandby s c → u.get PWR_STATE_LAST_CAUSE = c % 16 ∧ u.power.rails = .standby ∧ u.media = [] ∧
    u.cores = [] ∧ u.fuses.array = s.fuses.array ∧ u.pins.pwrGood = false ∧ u.pending = s.pending) ∧
  (∀ (s u : State) (i : Fin 8) (lost : BitVec 8), s.power.rails = .up → s.power.phasesLost.getLsbD i = false →
    lost = s.power.phasesLost ||| (1#8 <<< i.val) →
    u = event (showClass ((({ s with power := { s.power with phasesLost := lost } } : State).put PWR_INK_PHASES_OK
      (~~~lost).toNat).put PWR_CLASS_MAX_CLASS (maxClass lost))) 0xE0 436 i →
    exec (.inkPhaseLost i) s = .next (if 6 ≤ popCount 8 lost.toNat then event u 0xE1 436 i else u)) ∧
  (∀ s : State, s.power.cycling = true → ∀ u : State, u = { s with power := { s.power with cycling := false } } →
    exec .inkwellCycleRestart s = .next (if s.pins.resetN = true ∧ s.colophon.restartLock = false ∧ s.colophon.fatalShadow = false
      ∧ s.power.rails = .standby then raiseRail u else u)) ∧
  (∀ (s : State) (n : BitVec 32), exec (.inkRailRaise n) s = .next (if s.power.rails = .standby ∧ s.colophon.fatalShadow = false
      ∧ s.colophon.restartLock = false ∧ s.power.cycling = false then
    raiseRail (tickRtc { s with pins := { s.pins with resetN := true } } n.toNat) else s)) ∧
  (∀ (s u : State) (l : List (Fin 370 × BitVec 12)), s.colophon.restartLock = true → s.colophon.lockCycled = true →
    s.power.rails = .standby → s.power.cycling = false →
    ((∃ x ∈ l, absentSensor s.variant x.1 = false ∧ restartLimit x.1 ≤ signed 12 x.2.toNat) →
      exec (.thermtripRestartCheck l) s = .next s) ∧
    ((∀ x ∈ l, absentSensor s.variant x.1 = true ∨ signed 12 x.2.toNat < restartLimit x.1) →
      u = standbyPins { s with colophon := { s.colophon with restartLock := false } } →
      exec (.thermtripRestartCheck l) s = .next (if s.pins.resetN = true ∧ s.colophon.fatalShadow = false then raiseRail u else u)))

/-- Heat (R441 to R446, R450 to R452, R458, R460). After 64 lines below its limit a unit's step request falls by one; after 128 cool lines a
hot layer is cool and told; after 64 lines under the cap the fast limiter releases. A grant that a condition forbids is told and stands, a
withdrawn one ends peak. A limit write is kept only when every limit is in range, else a Notice. A sensor read gives the word and clears
HIGHEST. A step request that changes shows in the cluster and is told; a step above 0 is a Notice once a folio; the step in force is the
greatest of request, limiter and fast limiter. STEP_DECAY, LAYER_COOL, FAST_LIMITER_RELEASE, PEAK_GRANT_WRITE, THM_LIMITS_WRITE and
THM_SENSOR_READ complete so. -/
def Obligations.HeatStepsLimitsAndPeakGrants : Prop :=
  (∀ (s : State) (i : Fin 20), (Tab.at s.thermal.below i 0 < 64 → exec (.stepDecay i) s = .next s) ∧
    (64 ≤ Tab.at s.thermal.below i 0 → ∀ u : State, u = countBelow s i false → exec (.stepDecay i) s = .next (if i.val < 16 then
      setClusterStep u i (u.get (THM_CLUSTER_STEP i) - 1)
      else setTowerStep u (i - 16) (u.get (THM_TOWER_CHANNEL_STEP (i - 16)) - 1)))) ∧
  (∀ (s : State) (t : Fin 4) (l : Fin 17),
    (s.flag (THM_TOWER_HOT t) l = false ∨ Tab.at s.thermal.cool (32 * t + l) 0 < 128 → exec (.layerCool t l) s = .next s) ∧
    (s.flag (THM_TOWER_HOT t) l = true → 128 ≤ Tab.at s.thermal.cool (32 * t + l) 0 →
      exec (.layerCool t l) s = .next (tellHeat (s.setFlag (THM_TOWER_HOT t) l false) 4 (32 * t + l) (dieTemp s t l)))) ∧
  (∀ s : State, (s.on THM_CTRL_FAST_ACTIVE = false ∨ s.thermal.fastUnder < 64 → exec .fastLimiterRelease s = .next s) ∧
    (s.on THM_CTRL_FAST_ACTIVE = true → 64 ≤ s.thermal.fastUnder → ∀ u : State, u = tellHeat (s.put THM_CTRL_FAST_ACTIVE 0) 6 1 0 →
      exec .fastLimiterRelease s = .next ((List.range u.variant.clusters).foldl showCluster u))) ∧
  (∀ (s u : State) (v : BitVec 64) (g : Nat), g = bitsOf (v.toNat &&& presentBits s.variant .THM_PEAK) 16 16 →
    u = s.put THM_PEAK_GRANT g → exec (.peakGrantWrite v) s = .next
    ((List.range u.variant.clusters).foldl (fun t c =>
      if bit g c = true ∧ bit (s.get THM_PEAK_GRANT) c = false then
        (if failing t c = none then t else tellHeat t 2 c (clusterTemp t c))
      else if bit (s.get THM_PEAK_GRANT) c = true ∧ bit g c = false then endPeak t c 8 else t) u)) ∧
  (∀ (s : State) (v : BitVec 64),
    ((∃ x ∈ limitFields, bitsOf v.toNat x.1.lo x.1.width < x.2.1 ∨ x.2.2 < bitsOf v.toNat x.1.lo x.1.width) →
      exec (.thmLimitsWrite v) s = .next (notice s 437)) ∧
    ((∀ x ∈ limitFields, x.2.1 ≤ bitsOf v.toNat x.1.lo x.1.width ∧ bitsOf v.toNat x.1.lo x.1.width ≤ x.2.2) →
      exec (.thmLimitsWrite v) s =
        .next (limitFields.foldl (fun t x => t.put x.1 (bitsOf v.toNat x.1.lo x.1.width)) s))) ∧
  (∀ (s : State) (i : Fin 370), exec (.thmSensorRead i) s = .next ((s.put (THM_SENSOR_HIGHEST i) 0).send
    (.deskValue (THM_SENSOR_TEMP i).addr (s.word (THM_SENSOR_TEMP i).addr)))) ∧
  (∀ (s u : State) (c n : Nat), u = showCluster (s.put (THM_CLUSTER_STEP c) n) c →
    (s.get (THM_CLUSTER_STEP c) = n → setClusterStep s c n = s) ∧
    (s.get (THM_CLUSTER_STEP c) ≠ n → setClusterStep s c n = tellHeat u 0 c (clusterTemp s c))) ∧
  (∀ (s : State) (c step : Nat), clusterStep s c = max (max (s.get (THM_CLUSTER_STEP c)) (limiterNib s))
      (if s.on THM_CTRL_FAST_ACTIVE = true then 8 else 0) ∧
    (step = 0 → noteStep s c step = s) ∧ (step ≠ 0 → noteStep s c step = eventOnce s 0xF2 437 c c))

/-- Calibration (R462 to R470, R473). At line 0 of a folio every unit is evaluated once, and a set that differs goes to its shadow bank, to
swap in at a later line edge with the trims kept. A request is refused with a Notice on a V4384, while disabled or for no channel of the
node; a requested channel is held on its tower's edge, one of a tower in a folio and the lowest that waits; the base calibration rubric
requests every channel that falls due. A hold's result within the limits becomes the base set with the trims zero, and another is rejected,
with a Degraded event the second time running. A field set is flushed at most once in 600 s. CAL_FOLIO_EVALUATE, LANE_SET_SWAP, CAL_REQUEST,
CAL_HOLD_START, CAL_HOLD_COMPLETE and CAL_RECORD_FLUSH complete so. -/
def Obligations.CalibrationEvaluatesHoldsAndFlushes : Prop :=
  (∀ (s u : State), (s.lineInFolio ≠ 0 → exec .calFolioEvaluate s = .next s) ∧
    (s.lineInFolio = 0 → u = (List.range (s.variant.ports / 16)).foldl (fun t q =>
        t.put (COL_CAL_QUAD_TEMP q) (satSigned 12 (drivingTemp t (256 + q) 0))) s →
      exec .calFolioEvaluate s = .next (baseCalibration ((calUnits u).foldl (fun t i =>
        if (calUnit t i).loadFolio = some t.folio then t else evaluateUnit t i) u)))) ∧
  (∀ s : State, s.variant = .v4384 ∨ s.on COL_CAL_CTRL_FULL_ENABLE = false ∨ baseRuns s 5 = false → baseCalibration s = s) ∧
  (∀ (s : State) (g : Nat), s.variant ≠ .v4384 → s.on COL_CAL_CTRL_FULL_ENABLE = true → baseRuns s 5 = true → g < s.variant.channels →
    calUnit (baseCalibration s) g = if fullDue s g = true then { calUnit s g with requested := true } else calUnit s g) ∧
  (∀ (s : State) (i : Nat) (b : Tab Int), b = (unitValues i).foldl (fun t v =>
      Tab.put t v (baseValue (calUnit s i) v (drivingTemp s i v)) 0) [] →
    ((calUnit s i).holdGen ≠ none ∨ s.on COL_CAL_CTRL_APPLY_ENABLE = false ∨ b = (calUnit s i).base → evaluateUnit s i = s) ∧
    ((calUnit s i).holdGen = none → s.on COL_CAL_CTRL_APPLY_ENABLE = true → b ≠ (calUnit s i).base →
      evaluateUnit s i = setCal s i { calUnit s i with shadow := some b, loadFolio := some s.folio })) ∧
  (∀ (s : State) (q : Fin 4), ((calUnit s (256 + q)).shadow = none ∨ (calUnit s (256 + q)).loadFolio = some s.folio ∧ s.lineInFolio = 0 →
      exec (.laneSetSwap q) s = .next s) ∧
    ∀ b, (calUnit s (256 + q)).shadow = some b → (calUnit s (256 + q)).loadFolio ≠ some s.folio ∨ s.lineInFolio ≠ 0 →
      exec (.laneSetSwap q) s = .next (setCal s (256 + q) { calUnit s (256 + q) with base := b, shadow := none })) ∧
  (∀ (s : State) (v : BitVec 64) (g : Nat), g = v.toNat % 256 →
    (v.getLsbD 8 = false → exec (.calRequest v) s = .next s) ∧
    (v.getLsbD 8 = true → s.variant = .v4384 ∨ s.on COL_CAL_CTRL_FULL_ENABLE = false ∨ s.variant.channels ≤ g →
      exec (.calRequest v) s = .next (notice s 439)) ∧
    (v.getLsbD 8 = true → s.variant ≠ .v4384 → s.on COL_CAL_CTRL_FULL_ENABLE = true → g < s.variant.channels →
      exec (.calRequest v) s = .next (setCal s g { calUnit s g with requested := true }))) ∧
  (∀ (s : State) (g : Fin 256) (x : CalUnit), x = calUnit s g →
    (x.requested = true → usableChan s g = true → s.ruling.gen % 64 = 16 * (g.val / 64) + 1 → x.holdGen = none →
      (∀ y ∈ s.cal, y.1 < 256 → y.1 / 64 = g.val / 64 → y.2.heldFolio ≠ some s.folio) →
      (∀ h : Nat, h < g.val → h / 64 = g.val / 64 → (calUnit s h).requested = false ∨ usableChan s h = false) →
      exec (.calHoldStart g) s = .next ((setCal s g { x with
        requested := false
        holdGen := some s.ruling.gen
        heldFolio := some s.folio }).put (COL_CAL_CHANNEL_HOLDING g) 1)) ∧
    (x.requested = false ∨ usableChan s g = false ∨ s.ruling.gen % 64 ≠ 16 * (g.val / 64) + 1 ∨ x.holdGen ≠ none ∨
        (∃ h : Nat, h < g.val ∧ h / 64 = g.val / 64 ∧ (calUnit s h).requested = true ∧ usableChan s h = true) ∨
        (∃ y ∈ s.cal, y.1 < 256 ∧ y.1 / 64 = g.val / 64 ∧ y.2.heldFolio = some s.folio) →
      exec (.calHoldStart g) s = .next s)) ∧
  (∀ (s u : State) (g : Fin 256) (t : Int) (l : List (Nat × Int)) (e : Bool) (n : Nat) (r : Tab Int), (calUnit s g).holdGen ≠ none →
    u = s.put (COL_CAL_CHANNEL_HOLDING g) 0 → r = l.foldl (fun t (v, z) => if v < 131 then Tab.put t v z 0 else t) [] →
    exec (.calHoldComplete g t l e n) s = .next (if e = true ∧ n ≤ 12 ∧ withinSteps (calUnit s g) r = true then
      acceptResult u g t r else rejectResult u g)) ∧
  (∀ (s u : State) (i : Nat), u = event (((setCal s i { calUnit s i with
      rejections := (calUnit s i).rejections + 1
      rejectedAt := if 1 ≤ (calUnit s i).rejections then some (drivingTemp s i 0) else none
      holdGen := none }).put (rejectedF i) 1).inc COL_CAL_COUNTS_REJECTED) 0x100 439 i →
    rejectResult s i = if (calUnit s i).rejections = 1 then event u 0x102 439 i else u) ∧
  (∀ (s : State) (i : Fin 260) (x : CalUnit), x = calUnit s i →
    (x.field ≠ none → x.field ≠ x.stored → x.storedAt = none ∨ (∃ t, x.storedAt = some t ∧ t + 600 ≤ s.colophon.life.seconds) →
      exec (.calRecordFlush i) s = .next (setCal s i { x with stored := x.field, storedAt := some s.colophon.life.seconds })) ∧
    (x.field = x.stored ∨ (∃ t, x.storedAt = some t ∧ s.colophon.life.seconds < t + 600) →
      exec (.calRecordFlush i) s = .next s))

/-- Fuses (R482 to R488). A program command without its go bit, or of a rubric without its grant, does nothing; the first condition that
fails refuses it with a status and a Notice, a command during another with BUSY; else the word is being programmed with the value given. It
ends done when its reading agrees, aborted while still blank, and otherwise bad with an event; the array, the shadow and the region follow,
and the Colophon keeps it. A read shows DONE, the comparison with the shadow and the value, or DONE alone for a read-locked word; a
difference is an event. Locks set are sticky. FUSE_PROGRAM, FUSE_PROGRAM_COMPLETE, FUSE_READ, FUSE_READ_COMPLETE and FUSE_LOCK_SET complete
so. -/
def Obligations.FusesProgramReadAndLock : Prop :=
  (∀ (s : State) (k : Option (Fin 8)) (v : BitVec 64) (p : Bool) (w : Nat), w = v.toNat % 1024 →
    (v.getLsbD 16 = false ∨ fusWriter s k = false → exec (.fuseProgram k v p) s = .next s) ∧
    (v.getLsbD 16 = true → fusWriter s k = true → ∀ o, o = programRefusal s (programmerOf s k) w (s.get FUS_PROG_DATA_DATA) p →
      (∀ st, o = some st → exec (.fuseProgram k v p) s =
        .next (fuseEvent (progStatus s st w) 3 w)) ∧
      (o = none → exec (.fuseProgram k v p) s = .next (((({ s with fuses := { s.fuses with
          program := some (w, BitVec.ofNat 32 (s.get FUS_PROG_DATA_DATA)) } } : State).put FUS_PROG_STATUS_STATUS 1).put
            FUS_PROG_STATUS_WORD w))))) ∧
  (∀ (s : State) (p : Programmer) (w d : Nat) (b : Bool), s.fuses.program ≠ none → programRefusal s p w d b = some 3) ∧
  (∀ (s : State) (p : Programmer) (w d n : Nat) (b : Bool), s.fuses.program = none → regionOf w = some n →
    s.on (FUS_REGION_PROG_LOCK n) = true → programRefusal s p w d b = some 5) ∧
  (∀ (s : State) (x : Option (Fin 3)) (r : FuseReading), s.fuses.program = none → exec (.fuseProgramComplete x r) s = .next s) ∧
  (∀ (s u y z : State) (x : Option (Fin 3)) (r : FuseReading) (w st : Nat) (d : BitVec 32), s.fuses.program = some (w, d) →
    st = (match x with
      | some c => if r.blank then 9 + c.val else 12
      | none => if r.blank = false ∧ r.corrected = false ∧ r.uncorrectable = false ∧ r.marginal = false ∧ r.data = d then 2
          else 12) →
    u = progStatus { s with fuses := { s.fuses with
      program := none
      array := if r.blank then s.fuses.array else Tab.set s.fuses.array w r.data } } st w →
    y = (if r.blank then u else setShadow u w false r) → z = (match regionOf w with | some n => recompute y n | none => y) →
    exec (.fuseProgramComplete x r) s =
      .next (toColophon (if st = 12 then fuseEvent z 4 w else z) (.fuse w d.toNat st))) ∧
  (∀ (s : State) (v : BitVec 64), exec (.fuseRead v) s = .next (if v.getLsbD 16 = true then
      { (s.put FUS_READ_WORD (v.toNat % 1024)).put FUS_READ_RESULT_DONE 0 with
        fuses := { s.fuses with reading := some (v.toNat % 1024) } }
    else s.put FUS_READ_WORD (v.toNat % 1024))) ∧
  (∀ (s : State) (r : FuseReading), (s.fuses.reading = none ∨ s.fuses.program ≠ none → exec (.fuseReadComplete r) s = .next s) ∧
    ∀ (w : Nat) (u : State) (hidden bad : Bool), s.fuses.reading = some w → s.fuses.program = none →
      u = { s with fuses := { s.fuses with reading := none } } → bad = !agreesShadow u w r →
      hidden = (match regionOf w with | some n => u.on (FUS_REGION_READ_LOCK n) | none => false) →
      ∀ y, y = u.setWord FUS_READ_RESULT_DONE.addr (readResult hidden bad r) →
      exec (.fuseReadComplete r) s = .next (if bad = true then fuseEvent y 2 w else y)) ∧
  (∀ r : FuseReading, readResult true false r = 0x8000000000000000#64) ∧
  (∀ (s : State) (v : BitVec 64), exec (.fuseLockSet v) s = .next ((List.range 14).foldl (fun t n =>
    let u := if v.getLsbD (16 + n) then t.put (FUS_REGION_READ_LOCK n) 1 else t
    if v.getLsbD n then u.put (FUS_REGION_PROG_LOCK n) 1 else u) s))

/-- The Blotter (R503, R507, R510, R512). A report of a known type by a present source is recorded, and one of another is not. A wire that
reads equal is masked until the next boot, counted and recorded, as 0x121 for a source that can report Fatal. A severity write takes a class
from the next line on, keeps a Fatal default Fatal with an event, and refuses a reserved class. An event is injected only while debug is
open, with its own class. A latch clears with its class and folio, by hand or at a folio's line 0 after REARM_FOLIOS folios; the written
bits of BLT_ALERT clear. BLOTTER_REPORT, WIRE_FAULT, SEVERITY_WRITE, EVENT_INJECT, ALERT_CLEAR, LATCH_CLEAR and LATCH_REARM complete so. -/
def Obligations.BlotterReportsLatchesAndAlerts : Prop :=
  (∀ (s : State) (ty : Fin 384) (src : Fin 608) (m : Option (BitVec 16)) (a : Fin 10) (d : Option (BitVec 52)) (x : Option (BitVec 40))
    (v : BitVec 64) (full : Bool), exec (.blotterReport ty src m a d x v full) s = .next (
      if defaultSeverity ty < 5 ∧ absentUnit s.variant .BLT_SOURCE src 0 = false then
        report s { type := ty, source := src, master := m.map BitVec.toNat, access := a, dpa := d.map BitVec.toNat
                   media := x.map BitVec.toNat, detail := v, queueFull := full }
      else s)) ∧
  (∀ (s : State) (src : Fin 608), (s.on (BLT_SOURCE_WIRE_FAULT src) = true → exec (.wireFault src) s = .next s) ∧
    (s.on (BLT_SOURCE_WIRE_FAULT src) = false → absentUnit s.variant .BLT_SOURCE src 0 = false →
      exec (.wireFault src) s = .next (drainOverflow (recordOwn ((s.put (BLT_SOURCE_WIRE_FAULT src) 1).inc BLT_STATUS_WIRE_FAULTS)
        (if guardsFatal src = true then 0x121 else 0x120) src)))) ∧
  (∀ (s : State) (ty : Fin 384) (v : BitVec 64) (c : Nat), c = v.toNat % 8 →
    (defaultSeverity ty = 4 → c < 4 → exec (.severityWrite ty v) s = .next (event s 0x12A 444 ty)) ∧
    (4 < c → exec (.severityWrite ty v) s = .next (notice s 444)) ∧
    (defaultSeverity ty ≠ 4 → c ≤ 4 → exec (.severityWrite ty v) s = .next { s.put (BLT_SEVERITY_SEVERITY ty) c with
      blotter := { s.blotter with
        sevChange := Tab.set s.blotter.sevChange ty (s.ruling.line, severityOf s ty) } })) ∧
  (∀ (s : State) (k : Option (Fin 8)) (v : BitVec 64),
    (s.on FUS_STATUS_DEBUG_OPEN = false → exec (.eventInject k v) s = .next (deskRefused s (deskMaster k) 8 0x050020)) ∧
    (s.on FUS_STATUS_DEBUG_OPEN = true → exec (.eventInject k v) s = .next (
      if 4 < bitsOf v.toNat 20 3 ∨ 608 ≤ bitsOf v.toNat 0 10 then notice s 444
      else report s { type := bitsOf v.toNat 11 9, source := bitsOf v.toNat 0 10, injected := some (bitsOf v.toNat 20 3) })) ∧
    exec (.alertClear v) s = .next (driveAlert (s.put BLT_ALERT_CLASSES (s.get BLT_ALERT_CLASSES &&& (31 - v.toNat % 32))))) ∧
  (∀ (s u : State) (src : Fin 608),
    u = { ((s.put (BLT_SOURCE_LATCHED src) 0).put (BLT_SOURCE_OVERFLOW src) 0).put (BLT_SOURCE_COUNT src) 0 with
      blotter := { s.blotter with
        latchClass := Tab.del s.blotter.latchClass src
        latchFolio := Tab.del s.blotter.latchFolio src } } →
    exec (.latchClear src) s = .next u ∧
    (Tab.find s.blotter.latchFolio src = none → exec (.latchRearm src) s = .next s) ∧
    (∀ f, Tab.find s.blotter.latchFolio src = some f → exec (.latchRearm src) s = .next (
      if s.get BLT_CTRL_REARM_FOLIOS ≠ 0 ∧ s.lineInFolio = 0 ∧ f + s.get BLT_CTRL_REARM_FOLIOS ≤ s.folio then u else s)))

/-- The Colophon and the Inkwell's inputs (R453, R525 to R534, R536, R545, R550). The oldest body is committed with the next sequence
number; a Blotter body over the minute's rate is dropped and counted. A minute with the rail up is summarised and its counts start again. A
due checkpoint is written, or lost with its copy when VIN goes. A flush sets the rate and asks for a checkpoint. The calendar is set but
while ruled time is at quality 0, with a record for a step of a second. VIO goes off on overload until the retry, a crystal failure
invalidates the RTC; a stuck bus resets a responder that holds no part of a message (log entry 37). COLOPHON_COMMIT, MINUTE_SUMMARY,
CHECKPOINT_WRITE, COLOPHON_FLUSH, CALENDAR_SET, VIO_OVERLOAD, VIO_RETRY, CRYSTAL_FAILURE and MGMT_BUS_STUCK complete so. -/
def Obligations.ColophonKeepsRecordsAndTheCalendar : Prop :=
  (∀ (s : State) (bad : Bool), (s.power.rails = .off ∨ s.colophon.waiting = [] → exec (.colophonCommit bad) s = .next s) ∧
    ∀ (b : ColBody) (l : List ColBody) (u : State), s.power.rails ≠ .off → s.colophon.waiting = b :: l →
      u = { s with colophon := { s.colophon with waiting := l } } →
      ((∀ t r, b ≠ .blotter t r) → exec (.colophonCommit false) s = .next (commit u b)) ∧
      ((∃ t r, b = .blotter t r) → s.colophon.fatalShadow = false →
        (u.get COL_CTRL_EVENT_RATE ≤ s.colophon.blotterMinute → ∀ w : State, w = { u with colophon := { u.colophon with
            droppedMinute := u.colophon.droppedMinute + 1
            dropped := u.colophon.dropped + 1 } } → exec (.colophonCommit bad) s =
          .next (showColophon (if w.power.rails = .up then eventOnce w 0x136 442 0 else w))) ∧
        (s.colophon.blotterMinute < u.get COL_CTRL_EVENT_RATE → exec (.colophonCommit false) s =
          .next (commit { u with colophon := { u.colophon with blotterMinute := u.colophon.blotterMinute + 1 } } b)))) ∧
  (∀ s : State, (s.power.rails ≠ .up → exec .minuteSummary s = .next s) ∧
    (s.power.rails = .up → ∃ t, exec .minuteSummary s = .next t ∧ t.colophon.minuteSeq = s.colophon.minuteSeq + 1 ∧
      t.colophon.classCounts = [0, 0, 0, 0, 0] ∧ t.colophon.droppedMinute = 0 ∧ t.colophon.blotterMinute = 0 ∧
      t.colophon.dieMax = [] ∧ t.colophon.energy = s.colophon.energy % 10000000 ∧ t.colophon.eventRing = s.colophon.eventRing ∧
      (t.colophon.minuteRing.getLast?.map (·.seq)) = some s.colophon.minuteSeq ∧ t.media = s.media ∧ t.cores = s.cores)) ∧
  (∀ s : State, (s.power.rails = .off ∨ s.colophon.checkpointDue = false → ∀ l, exec (.checkpointWrite l) s = .next s) ∧
    (s.power.rails ≠ .off → s.colophon.checkpointDue = true → exec (.checkpointWrite false) s = .next (writeCheckpoint s) ∧
      exec (.checkpointWrite true) s = .next { s with colophon := if s.colophon.copyLast = 0 then { s.colophon with copyB := none }
        else { s.colophon with copyA := none } })) ∧
  (∀ (s : State) (v : BitVec 64) (n : Nat) (m : Bool), n = v.toNat % 32 →
    (n = 0 ∨ 16 < n → exec (.colophonFlush v) s = .next (notice s 442)) ∧
    (0 < n → n ≤ 16 → ∀ u : State, u = s.put COL_CTRL_EVENT_RATE n → exec (.colophonFlush v) s = .next (
      if v.getLsbD 8 = true then { u with colophon := { u.colophon with checkpointDue := true } } else u)) ∧
    (s.power.rails = .up → s.ruling.running = true → s.get RUL_STATUS_QUALITY = 0 →
      exec (.calendarSet m v) s = .next (event s 0x137 442)) ∧
    (s.power.rails ≠ .up ∨ s.ruling.running = false ∨ s.get RUL_STATUS_QUALITY ≠ 0 →
      exec (.calendarSet m v) s = .next (setRtc s (v.toNat * 32768) (if m then 2 else 3)))) ∧
  (∀ (s u : State) (t : Nat) (w : Nat), u = (if s.colophon.rtc + 32768 ≤ t ∨ t + 32768 ≤ s.colophon.rtc ∨ s.colophon.everSet = false
      ∨ s.colophon.rtcValid = false then toColophon s (.calendar (calendarNow s) (t / 32768) w) else s) →
    setRtc s t w = showColophon { u with colophon := { u.colophon with
      rtc := t
      rtcValid := true
      calSource := w
      everSet := true } }) ∧
  (∀ s : State, exec .vioOverload s = .next (if s.power.rails = .off ∨ s.power.vioOff = true then s
      else inkEvent { s with power := { s.power with vioOff := true } } 0x142 436 0) ∧
    exec .vioRetry s = .next { s with power := { s.power with vioOff := false } } ∧
    exec .crystalFailure s = .next (if s.power.rails = .off then s
      else inkEvent (showColophon { s with colophon := { s.colophon with rtcValid := false } }) 0x143 436 0) ∧
    exec .mgmtBusStuck s = .next s)

/-- The boot (R557 to R568). RESET_N and PWRGOOD release it from held only. The slot at the front of the order is checked: refused with its
reason it gives way to the next, and one that passes and reads the same again runs. Training done, a slot goes on to its base rubrics and no
slot to recovery. The six base rubrics start on their Scribes, or a changed image refuses the slot. Memory is active on the line after
placement and regulation run, with an event, and a slow one adds another; with SHUTDOWN_N low the node then leaves for Capped. A recovery
package is checked as slot 2. RESET_RELEASE, SLOT_CHECK_COMPLETE, TOWER_TRAINING_COMPLETE, BASE_RUBRICS_START, MEMORY_ACTIVE and
RECOVERY_PACKAGE_RECEIVED complete so. -/
def Obligations.BootGoesThroughItsSteps : Prop :=
  (∀ (s : State) (b : BootInput), exec (.resetRelease b) s = .next (if s.power.rails = .up ∧ s.boot.stage = .held ∧ s.pins.resetN = true
      ∧ s.colophon.fatalShadow = false then release s b else s)) ∧
  (∀ (s : State) (l : Option (List (BitVec 8))) (re : Bool),
    (s.boot.stage ≠ .checking ∨ s.boot.order = [] → exec (.slotCheckComplete l re) s = .next s) ∧
    (∀ (n : Nat) (o : List Nat) (u : State), s.boot.stage = .checking → s.boot.order = n :: o →
      u = { s with boot := { s.boot with order := o } } →
      (∀ a e, checkSlot u l = some (a, e) → exec (.slotCheckComplete l re) s =
        .next (nextSlot (event u 0x150 440 (refusalDetail a n e)))) ∧
      (∀ x, l = some x → checkSlot u l = none →
        (re = true → exec (.slotCheckComplete l re) s = .next (runSlot u x n)) ∧
        (re = false → exec (.slotCheckComplete l re) s = .next (nextSlot (event u 0x153 440
          (refusalDetail 9 n (((slotEntries x).findIdx? fun e => e.kind == 1).getD 0xFF)))))))) ∧
  (∀ s : State, (s.boot.order ≠ [] → nextSlot s = { s with boot := { s.boot with stage := .checking, slot := none } }) ∧
    (s.boot.order = [] → s.boot.trained = false →
      nextSlot s = { s with boot := { s.boot with stage := .training, slot := none } }) ∧
    (∀ u : State, s.boot.order = [] → s.boot.trained = true → u = { s with boot := { s.boot with stage := .recovery, slot := none } } →
      nextSlot s = if strap u 7 = 2 then u else event u 0x151 440)) ∧
  (∀ (s : State) (l : Option (List (BitVec 8))) (x : List (BitVec 8)), l = some x →
    ((x.take 32).all (· == 0xFF#8) = true → checkSlot s l = some (1, 0xFF)) ∧ checkSlot s none = some (1, 0xFF)) ∧
  (∀ (s u : State) (f : TrainingInput), (s.boot.stage ≠ .training → exec (.towerTrainingComplete f) s = .next s) ∧
    (s.boot.stage = .training → u = trainTowers s f → exec (.towerTrainingComplete f) s = .next (
      if u.boot.slot = none then noSlotLeft u else { u with boot := { u.boot with stage := .starting } }))) ∧
  (∀ s : State, (blankMedia s).media = [] ∧ (blankMedia s).ductus.map = [] ∧ (blankMedia s).sealing.counters = []) ∧
  (∀ (s : State) (f : TrainingInput), (trainTowers s f).boot.trained = true ∧ ∃ u : State, trainTowers s f =
    { ((bootReserve (blankMedia u)).put DCT_CTRL_MAP_READY 1).put SEL_CTRL_TREE_READY 1 with
      boot := { (bootReserve (blankMedia u)).boot with trained := true } }) ∧
  (∀ s : State, (s.boot.stage ≠ .starting → ∀ l, exec (.baseRubricsStart l) s = .next s) ∧
    (s.boot.stage = .starting → ∀ u : State, u = [1, 2, 3, 4, 5, 6].foldl (fun t role => loadBase t role (baseScribe role)) s →
      exec (.baseRubricsStart []) s = .next { u with boot := { u.boot with stage := .activating } }) ∧
    (s.boot.stage = .starting → ∀ r l, exec (.baseRubricsStart (r :: l)) s = .next (nextSlot (resetScribes
      (event s 0x153 440 (refusalDetail 9 (s.boot.slot.getD 0) (Tab.at s.boot.entries (r.val + 1) 0xFF))))))) ∧
  (∀ (s u v : State) (ms : BitVec 32) (a b : Rubric), s.boot.stage = .activating → baseRuns s 1 = true → baseRuns s 2 = true →
    Tab.find s.rubrics 1 = some a → Tab.find s.rubrics 2 = some b → a.started < s.ruling.gen → b.started < s.ruling.gen →
    u = event { s with boot := { s.boot with stage := .running, active := true } } 0x154 440
      (s.boot.slot.getD 0 * 2 ^ 56 + ms.toNat) →
    (2500 < ms.toNat ∧ s.boot.slot.getD 0 ≠ 2 → v = event u 0x155 440 ms.toNat) →
    (ms.toNat ≤ 2500 ∨ s.boot.slot.getD 0 = 2 → v = u) →
    exec (.memoryActive ms) s = .next (if v.on PWR_STATE_SHUTDOWN = true then
      leaveFor { v with power := { v.power with capByPin := true } } stCapped 2 else v)) ∧
  (∀ (s : State) (x : List (BitVec 8)), (s.boot.stage ≠ .recovery → exec (.recoveryPackageReceived x) s = .next s) ∧
    (s.boot.stage = .recovery → ∀ a e, checkSlot s (some x) = some (a, e) →
      exec (.recoveryPackageReceived x) s = .next (event s 0x150 440 (refusalDetail a 2 e))) ∧
    (s.boot.stage = .recovery → checkSlot s (some x) = none →
      exec (.recoveryPackageReceived x) s = .next (event (runSlot s x 2) 0x152 440)))

/-- The management endpoint and its own commands (R572, R573, R575 to R578). A message over 4,096 bytes is dropped. The bus owner sets a
binding's EID, the node names its versions, types and identifiers and takes the dynamic address of its static one. COLOPHON_READ returns
committed bytes and records; POWER requests a state and cancels an update that transfers; INKWELL_CYCLE is served once, within 1 s, for the
nonce of the last INKWELL_ARM; OWNER_PROVISION checks the vendor's signature over the last challenge, then R494, and programs word after
word; ROLLBACK_RAISE needs no update, and a version that the boot and both slots reach. Which EIDs are reserved, that R494 is checked after
the signature, and the free values (nonce, challenge, vendor ID) are the model's choice (log entries 1, 26, 45). SETDASA, ENTDAA and the
MCTP control, COLOPHON_READ, POWER, INKWELL_ARM, INKWELL_CYCLE, OWNER_CHALLENGE, OWNER_PROVISION and ROLLBACK_RAISE messages complete so. -/
def Obligations.ManagementCommandsAreServed : Prop :=
  (∀ (s : State) (e : Envelope), Reached s e true true → ∀ n, n = s.freeNow.toNat →
    (∀ x : BitVec 8, (x.toNat < 8 ∨ x.toNat = 255 → exec (.setEndpointId e x) s = .next (s.send (.answer "ERROR_INVALID_DATA" 0 []))) ∧
      (8 ≤ x.toNat → x.toNat ≠ 255 → exec (.setEndpointId e x) s = .next ({ s with mgmt := { s.mgmt with
        eid := Tab.set s.mgmt.eid (bindingOf e) x.toNat } }.send (.answer "SET_ENDPOINT_ID" 0 [x.toNat])))) ∧
    exec (.getEndpointId e) s = .next (s.send (.answer "GET_ENDPOINT_ID" 0 [Tab.at s.mgmt.eid (bindingOf e) 0])) ∧
    exec (.getEndpointUuid e) s = .next (s.send (.answer "GET_ENDPOINT_UUID" 0 [Config.endpointUuid.toNat])) ∧
    (∀ x : BitVec 8, exec (.getMctpVersionSupport e x) s = .next (if x = 0 ∨ x = 255 then s.send (.answer "GET_MCTP_VERSION_SUPPORT" 0 [1, 3])
      else if x.toNat ∈ [0, 1, 5, 6, 7, 126] then s.drew.send (.answer "GET_MCTP_VERSION_SUPPORT" 0 [n])
      else s.send (.answer "ERROR_TYPE_NOT_SUPPORTED" 0 []))) ∧
    exec (.getMessageTypeSupport e) s = .next (s.send (.answer "GET_MESSAGE_TYPE_SUPPORT" 0 [0, 1, 5, 6, 7, 126])) ∧
    exec (.getVendorDefinedMessageSupport e) s =
      .next (s.drew.send (.answer "GET_VENDOR_DEFINED_MESSAGE_SUPPORT" 0 [n % 65536]))) ∧
  (∀ (s : State) (e : Envelope) (x : BitVec 8), s.power.rails ≠ .off → e.vdm = none → 4096 < e.size →
    exec (.setEndpointId e x) s = .next (inkEvent s 0x165 441 0) ∧ exec (.getStatus e) s = .next (inkEvent s 0x165 441 0) ∧
    exec (.identify e) s = .next (inkEvent s 0x165 441 0)) ∧
  (∀ (s : State) (static dynamic : BitVec 7), s.power.rails ≠ .off → strap s 6 = 1 →
    (static.toNat = 100 + strap s 3 → exec (.setdasa static dynamic) s = .next { s with mgmt := { s.mgmt with address := some dynamic.toNat } }) ∧
    (static.toNat ≠ 100 + strap s 3 → exec (.setdasa static dynamic) s = .next s) ∧
    (s.mgmt.address = none → exec (.entdaa dynamic) s = .next ({ s with mgmt := { s.mgmt with address := some dynamic.toNat } }.send
      (.answer "ENTDAA" 0 [Config.mipiManufacturer.toNat, partNumber s.variant, strap s 3]))) ∧
    (s.mgmt.address ≠ none → exec (.entdaa dynamic) s = .next s)) ∧
  (∀ (s : State) (e : Envelope) (tag : BitVec 16), Reached s e false false → ∀ n, n = s.freeNow.toNat →
    (∀ (area : BitVec 8) (start : BitVec 32) (most : BitVec 16),
      (5 < area.toNat ∨ most.toNat < 64 ∨ 4032 < most.toNat → exec (.colophonRead e tag area start most) s =
        .next (vendorAnswer s "COLOPHON_READ" 1 tag 2 [])) ∧
      (area.toNat ≤ 5 → 64 ≤ most.toNat → most.toNat ≤ 4032 →
        (area = 5 → s.power.rails ≠ .up → exec (.colophonRead e tag area start most) s =
          .next (vendorAnswer s "COLOPHON_READ" 1 tag 1 [])) ∧
        (area ≠ 5 ∨ s.power.rails = .up → ∀ (next : Nat) (bytes : List (BitVec 8)),
          colophonArea s area.toNat start.toNat most.toNat = (next, bytes) → exec (.colophonRead e tag area start most) s =
            .next (vendorAnswer (if area = 4 then s.drew else s) "COLOPHON_READ" 1 tag 0 (next % 2 ^ 32 :: bytes.map BitVec.toNat))))) ∧
    (∀ x : BitVec 8, (x ≠ 2 → x ≠ 3 → x ≠ 4 → exec (.power e tag x) s = .next (vendorAnswer s "POWER" 2 tag 2 [])) ∧
      (x = 2 ∨ x = 3 ∨ x = 4 → (s.power.rails ≠ .up → exec (.power e tag x) s = .next (vendorAnswer s "POWER" 2 tag 1 [])) ∧
        (s.power.rails = .up → ∀ u v : State,
          u = { s with mgmt := { s.mgmt with update := none } } →
          v = (if x = 2 ∧ ((s.mgmt.update.map (·.stage)) == some .downloading) = true then event u 0x163 441 else s) →
          exec (.power e tag x) s = .next (vendorAnswer (requestState v x.toNat 5) "POWER" 2 tag 0 [])))) ∧
    exec (.inkwellArm e tag) s = .next (vendorAnswer { s.drew with mgmt := { s.mgmt with
      armed := some (s.freeNow.truncate 32) } } "INKWELL_ARM" 3 tag 0 [(s.freeNow.truncate 32).toNat]) ∧
    (∀ nonce : BitVec 32, (s.mgmt.armed = some nonce → exec (.inkwellCycle e tag nonce true) s =
        .next (inkwellCycle (vendorAnswer { s with mgmt := { s.mgmt with armed := none } } "INKWELL_CYCLE" 4 tag 0 []))) ∧
      (∀ inTime, s.mgmt.armed ≠ some nonce ∨ inTime = false → exec (.inkwellCycle e tag nonce inTime) s =
        .next (vendorAnswer (inkEvent s.drew 0x166 441 0) "INKWELL_CYCLE" 4 tag 3 [n % 256]))) ∧
    (rubricServes s = false → (∀ o, exec (.ownerChallenge e tag o) s = .next (vendorAnswer s "OWNER_CHALLENGE" 16 tag 1 [])) ∧
      (∀ o h sig p runs, exec (.ownerProvision e tag o h sig p runs) s = .next (vendorAnswer s "OWNER_PROVISION" 17 tag 1 [])) ∧
      (∀ v a b p runs, exec (.rollbackRaise e tag v a b p runs) s = .next (vendorAnswer s "ROLLBACK_RAISE" 18 tag 1 []))) ∧
    (rubricServes s = true →
      (∀ o : BitVec 8, (4 ≤ o.toNat → exec (.ownerChallenge e tag o) s = .next (vendorAnswer s "OWNER_CHALLENGE" 16 tag 2 [])) ∧
        (o.toNat < 4 → exec (.ownerChallenge e tag o) s = .next (vendorAnswer { s.drew with mgmt := { s.mgmt with
          challenge := some (o.toNat, s.freeNow) } } "OWNER_CHALLENGE" 16 tag 0 [n]))) ∧
      (∀ (o : BitVec 8) (hash : BitVec 256) (sig : List (BitVec 8)) (p : Bool) (runs : List WordRun) (u : State),
        u = { s with mgmt := { s.mgmt with challenge := none } } →
        (4 ≤ o.toNat ∨ sig.length ≠ 2420 → exec (.ownerProvision e tag o hash sig p runs) s =
          .next (vendorAnswer s "OWNER_PROVISION" 17 tag 2 [])) ∧
        (o.toNat < 4 → sig.length = 2420 → ∀ (w : Nat) (t : State) (st : Nat), w = (regionSpan (7 + o.toNat)).1 →
          programAll .authorised p u (ownerWords o.toNat hash) runs = (t, st) →
          exec (.ownerProvision e tag o hash sig p runs) s = .next (
            if vendorAuthorises s o.toNat hash sig = false then vendorAnswer (event u 0x166 441) "OWNER_PROVISION" 17 tag 3 [1]
            else if programAllowed u .authorised w (7 + o.toNat) 0 = false then vendorAnswer u "OWNER_PROVISION" 17 tag 3 [2]
            else vendorAnswer t "OWNER_PROVISION" 17 tag 0 [st]))) ∧
      (∀ (v : BitVec 16) (a b : Option (List (BitVec 8))) (p : Bool) (runs : List WordRun) (good : Bool),
        good = (decide (v.toNat ≤ s.boot.security) && !s.on FUS_STATUS_QUARANTINE && [a, b].all fun x => passesSix s x &&
          (match x with | some l => decide (v.toNat ≤ slotVersion l) | none => false)) →
        (v = 0 ∨ 256 < v.toNat → exec (.rollbackRaise e tag v a b p runs) s = .next (vendorAnswer s "ROLLBACK_RAISE" 18 tag 2 [])) ∧
        (v ≠ 0 → v.toNat ≤ 256 →
          (s.mgmt.update ≠ none → exec (.rollbackRaise e tag v a b p runs) s =
            .next (vendorAnswer (event s 0x162 441) "ROLLBACK_RAISE" 18 tag 3 [4])) ∧
          (s.mgmt.update = none → ∀ now t st, now = s.get FUS_STATUS_MIN_SECURITY →
            programAll (programmerOf s (managementScribe s)) p s
              ((List.range (v.toNat - now)).map fun i => (512 + now + 1 + i, 1)) runs = (t, st) →
            ∀ m, m = t.get FUS_STATUS_MIN_SECURITY → ∀ w, w = (if now < m then event t 0x168 441 m else t) →
            exec (.rollbackRaise e tag v a b p runs) s = .next (if good = true
              then vendorAnswer w "ROLLBACK_RAISE" 18 tag 0 [w.get FUS_STATUS_MIN_SECURITY]
              else vendorAnswer s "ROLLBACK_RAISE" 18 tag 3 [3]))))))

/-- PLDM (R579 to R581). A sensor of Table 22-3 that the node has and serves answers its reading: as last updated with the rails up, the
Inkwell's own measurement in Standby; one not served is Unavailable. Events queue for the poll. Type 5 needs Capped, Writing or MCTP
recovery and takes requests of at most 1,024 bytes. An update goes through RequestUpdate, PassComponentTable (the other slot must pass
checks 1 to 6), UpdateComponent (the slot is erased, pieces asked for in order), the data, TransferComplete (checks 1 to 7 of the slot read
back) and ActivateFirmware; a command out of its place is refused. The record contents, the coding of readings and the values PLDM leaves to
the device are the model's choice (log entries 26, 47). Every PLDM message of the table and TRANSFER_COMPLETE complete so. -/
def Obligations.PldmSensorsAndUpdatesAreServed : Prop :=
  (∀ (s : State) (e : Envelope), Reached s e false true → ∀ f, f = s.freeNow.toNat →
    exec (.getPdrRepositoryInfo e) s = .next (s.drew.send (.answer "GET_PDR_REPOSITORY_INFO" 0 [f])) ∧
    (∀ x : BitVec 32, exec (.getPdr e x) s = .next (s.drew.send (.answer "GET_PDR" 0 [x.toNat, f]))) ∧
    (∀ (x y : BitVec 16) (n : Nat), n = x.toNat →
      exec (.getSensorReading e x y) s = .next (s.send (
        if n ∉ numericSensors ∨ sensorPresent s n = false then .answer "INVALID_SENSOR_ID" 0 [n]
        else if 7 < n ∧ rubricServes s = false then .answer "SENSOR_UNAVAILABLE" 0 [n]
        else if s.power.rails = .up then .answer "GET_SENSOR_READING" 0 [n, reading s n]
        else .answer "GET_SENSOR_READING" 0 [n, y.toNat])) ∧
      exec (.getStateSensorReadings e x) s = .next (s.send (
        if n ∉ [6, 7, 40, 42] then .answer "INVALID_SENSOR_ID" 0 [n]
        else if 7 < n ∧ rubricServes s = false then .answer "SENSOR_UNAVAILABLE" 0 [n]
        else if s.power.rails = .up then .answer "GET_STATE_SENSOR_READINGS" 0 [n, reading s n]
        else .answer "GET_STATE_SENSOR_READINGS" 0 [n, sensorSource s n]))) ∧
    (∀ x : Option (BitVec 8), exec (.setEventReceiver e x) s = .next ({ s with mgmt := { s.mgmt with
      receiver := x.map BitVec.toNat } }.send (.answer "SET_EVENT_RECEIVER" 0 []))) ∧
    (s.mgmt.events = [] → exec (.pollForPlatformEventMessage e) s =
      .next (s.send (.answer "POLL_FOR_PLATFORM_EVENT_MESSAGE" 0 []))) ∧
    (∀ n v l, s.mgmt.events = (n, v) :: l → exec (.pollForPlatformEventMessage e) s =
      .next ({ s with mgmt := { s.mgmt with events := l } }.send (.answer "POLL_FOR_PLATFORM_EVENT_MESSAGE" 0 [n, v])))) ∧
  (∀ (s : State) (e : Envelope), Reached s e false false →
    (rubricServes s = false → (s.boot.stage ≠ .recovery ∨ s.power.rails ≠ .up ∨ s.fatal = true) →
      exec (.requestUpdate e) s = .next (s.send (.answer "ERROR_NOT_READY" 0 [])) ∧
      exec (.getStatus e) s = .next (s.send (.answer "ERROR_NOT_READY" 0 [])))) ∧
  (∀ (s : State) (e : Envelope), Reached s e false false → e.size ≤ 1024 →
    (rubricServes s = true ∨ s.boot.stage = .recovery ∧ s.power.rails = .up ∧ s.fatal = false) →
    exec (.queryDeviceIdentifiers e) s = .next (s.drew.send (.answer "QUERY_DEVICE_IDENTIFIERS" 0 [s.freeNow.toNat % 65536])) ∧
    exec (.getFirmwareParameters e) s = .next (s.drew.send (.answer "GET_FIRMWARE_PARAMETERS" 0
      ((if s.boot.stage = .recovery then [1, 2, 3] else [1, 2]) ++ [s.freeNow.toNat]))) ∧
    exec (.getStatus e) s = .next (s.send (.answer "GET_STATUS" 0 [updateCode s.mgmt.update])) ∧
    (s.mgmt.update ≠ none → exec (.requestUpdate e) s = .next (s.send (.answer "ALREADY_IN_UPDATE_MODE" 0 []))) ∧
    (s.mgmt.update = none → exec (.requestUpdate e) s = .next ({ s with mgmt := { s.mgmt with
        update := some {} } }.send (.answer "REQUEST_UPDATE" 0 [])) ∧
      exec (.cancelUpdate e) s = .next (s.send (.answer "NOT_IN_UPDATE_MODE" 0 []))) ∧
    (∀ u : Update, s.mgmt.update = some u → ∀ st : Option Update → State, (∀ x, st x = { s with mgmt := { s.mgmt with update := x } }) →
      exec (.cancelUpdate e) s = .next ((st none).send (.answer "CANCEL_UPDATE" 0 [])) ∧
      exec (.cancelUpdateComponent e) s = .next (if u.stage = .downloading ∨ u.stage = .verified then
        (st (some { u with stage := .ready, received := 0, staged := [] })).send (.answer "CANCEL_UPDATE_COMPONENT" 0 [])
        else outOfState s) ∧
      (∀ (c : BitVec 16) (x : Option (List (BitVec 8))),
        (u.stage = .downloading ∨ u.stage = .verified → exec (.passComponentTable e c x) s = .next (outOfState s)) ∧
        (u.stage = .learning ∨ u.stage = .ready →
          exec (.passComponentTable e c x) s = .next (
            if (c = 1 ∨ c = 2) ∧ passesSix s x = true ∨ c = 3 ∧ s.boot.stage = .recovery then
              (st (some { u with stage := .ready, component := c.toNat })).send (.answer "PASS_COMPONENT_TABLE" 0 [c.toNat])
            else s.send (.answer "PASS_COMPONENT_TABLE" 1 [c.toNat])))) ∧
      (∀ (c : BitVec 16) (n : BitVec 32),
        (u.stage ≠ .ready ∨ u.component ≠ c.toNat → exec (.updateComponent e c n) s = .next (outOfState s)) ∧
        (u.stage = .ready → u.component = c.toNat → 0 < n.toNat → n.toNat ≤ 67108864 →
          ∀ (w : Update) (t : State), w = { u with stage := .downloading, length := n.toNat, received := 0, staged := [] } →
          t = (st (some w)).send (.answer "UPDATE_COMPONENT" 0 [u.component]) →
          exec (.updateComponent e c n) s = .next ((if u.component < 3 then t.send (.flashErase (u.component - 1)) else t).send
            (.answer "REQUEST_FIRMWARE_DATA" 0 [0, min 1024 n.toNat])))) ∧
      (∀ bytes : List (BitVec 8),
        (u.stage ≠ .downloading ∨ u.length ≤ u.received → exec (.firmwareDataResponse e bytes) s = .next s) ∧
        (u.stage = .downloading → u.received < u.length →
          (bytes.length ≠ min 1024 (u.length - u.received) → exec (.firmwareDataResponse e bytes) s =
            .next (s.send (.answer "REQUEST_FIRMWARE_DATA" 0 [u.received, min 1024 (u.length - u.received)]))) ∧
          (bytes.length = min 1024 (u.length - u.received) → ∀ w : Update,
            w = { u with received := u.received + bytes.length, staged := if u.component = 3 then putBytes u.staged u.received bytes else u.staged } →
            exec (.firmwareDataResponse e bytes) s = .next (requestPiece { (if u.component < 3 then
              s.send (.flashWrite (u.component - 1) u.received bytes) else s) with mgmt := { s.mgmt with update := some w } } w)))) ∧
      (u.stage ≠ .verified → exec (.activateFirmware e) s = .next (outOfState s)) ∧
      (u.stage = .verified → ∀ t, t = (st none).send (.answer "ACTIVATE_FIRMWARE" 0 []) → exec (.activateFirmware e) s =
        .next (if u.component = 3 then runPackage t (bytesAt u.staged 0 u.length) else t)))) ∧
  (∀ (s : State) (u : Update) (x image : Option (List (BitVec 8))), s.mgmt.update = some u → s.power.rails = .up → s.fatal = false →
    u.stage = .downloading → u.length ≤ u.received → image = (if u.component = 3 then some (bytesAt u.staged 0 u.length) else x) →
    ∀ st : State → UpdateStage → State, (∀ t g, st t g = { t with mgmt := { t.mgmt with update := some { u with stage := g } } }) →
    exec (.transferComplete x) s = .next (match checkSlot s image with
      | some (r, _) => (st s .ready).send (.answer "VERIFY_COMPLETE" r [])
      | none => (st (if u.component = 3 then s else event s 0x167 441 (u.component - 1)) .verified).send
          (.answer "VERIFY_COMPLETE" 0 []))) ∧
  (∀ (s : State) (x : Option (List (BitVec 8))), s.mgmt.update = none → exec (.transferComplete x) s = .next s)

/-- SPDM (R582 to R584). Out of Capped and Writing a request gets ERROR Busy. The connection goes through versions, capabilities and
algorithms; without a common extended algorithm the answer is UnsupportedRequest. Slot 0's chain is read by its digest and in portions, and
signed with; a node without an identity answers Unspecified. Index n + 1 reports entry n of the measurement log. A session begins with
KEY_EXCHANGE, takes the requester's chain, is established by FINISH, and ends; chunks come in order. The order of the messages, the
session's identifier as an operand, and the signatures (free values) are the model's choice (log entries 1, 28, 44). Every SPDM message of
the table completes so. -/
def Obligations.SpdmResponderServesItsMessages : Prop :=
  (∀ (s : State) (e : Envelope), Reached s e false true → rubricServes s = false →
    exec (.getVersion e) s = .next (s.send (.answer "ERROR_BUSY" 0 [])) ∧ exec (.getDigests e) s = .next (s.send (.answer "ERROR_BUSY" 0 []))) ∧
  (∀ (s : State) (e : Envelope), Reached s e false true → rubricServes s = true →
    ∀ (c : SpdmConn) (st : SpdmConn → State), c = conn s e →
      (∀ x, st x = { s with mgmt := { s.mgmt with spdm := Tab.set s.mgmt.spdm (connKey e) x } }) →
    exec (.getVersion e) s = .next ((st { version := true }).send (.answer "GET_VERSION" 0 [18, 19])) ∧
    exec (.getCapabilities e) s = .next (if c.version = true then
      (st { c with caps := true }).send (.answer "GET_CAPABILITIES" 0 [spdmCapabilities]) else spdmError s) ∧
    (∀ common, exec (.negotiateAlgorithms e common) s = .next (if c.caps = false then spdmError s
      else if common = false then s.send (.answer "ERROR_UNSUPPORTED_REQUEST" 0 [])
      else (st { c with algs := true }).send (.answer "NEGOTIATE_ALGORITHMS" 0 []))) ∧
    (∀ (h : BitVec 8) (n : BitVec 16) (last : Bool), ∀ want, want = ((c.chunks.filter (·.1 == h.toNat)).map (·.2)).getD 0 →
      exec (.chunkSend e h n last) s = .next (if c.caps = false then spdmError s
        else if n.toNat ≠ want then spdmError (st { c with chunks := none })
        else (st { c with chunks := if last then none else some (h.toNat, n.toNat + 1) }).send (.answer "CHUNK_SEND_ACK" 0 [h.toNat, n.toNat])) ∧
      exec (.chunkGet e h n last) s = .next (if c.caps = false then spdmError s
        else if n.toNat ≠ want then spdmError (st { c with chunks := none })
        else (st { c with chunks := if last then none else some (h.toNat, n.toNat + 1) }).send (.answer "CHUNK_RESPONSE" 0 [h.toNat, n.toNat]))) ∧
    (c.algs = false → exec (.getDigests e) s = .next (spdmError s) ∧ (∀ n, exec (.challenge e n) s = .next (spdmError s)) ∧
      ∀ n, exec (.keyExchange e n) s = .next (spdmError s)) ∧
    (c.algs = true → hasIdentity s = false → exec (.getDigests e) s = .next (spdmError s) ∧
      ∀ n, exec (.challenge e n) s = .next (s.send (.answer "ERROR_UNSPECIFIED" 0 [])) ∧
        ∀ a b, exec (.getCertificate e n a b) s = .next (s.send (.answer "ERROR_UNSPECIFIED" 0 []))) ∧
    (c.algs = true → ∀ (i : BitVec 8) (blocks : List Nat),
      (16 < i.toNat → i ≠ 255 → ∀ g, exec (.getMeasurements e i g) s = .next (spdmError s)) ∧
      (i = 0 → exec (.getMeasurements e i false) s = .next (s.send (.answer "GET_MEASUREMENTS" 0 [16]))) ∧
      (0 < i.toNat → i.toNat ≤ 16 → blocks = [i.toNat, measurement s (i.toNat - 1)] →
        exec (.getMeasurements e i false) s = .next (s.send (.answer "GET_MEASUREMENTS" 0 blocks)) ∧
        (hasIdentity s = true → exec (.getMeasurements e i true) s =
          .next (s.drew.send (.answer "GET_MEASUREMENTS" 0 (blocks ++ [s.freeNow.toNat]))))) ∧
      (i = 255 → blocks = ((List.range 16).flatMap fun n => [n + 1, measurement s n]) →
        exec (.getMeasurements e i false) s = .next (s.send (.answer "GET_MEASUREMENTS" 0 blocks)))) ∧
    (c.algs = true → hasIdentity s = true → ∀ l, l = chain s →
      exec (.getDigests e) s = .next (s.send (.answer "GET_DIGESTS" 0 [1, (Config.sha3 l).toNat])) ∧
      (∀ n : Fin 16, exec (.challenge e n) s = .next (if n = 0 then
        s.drew.send (.answer "CHALLENGE_AUTH" 0 [(Config.sha3 l).toNat, s.freeNow.toNat]) else spdmError s)) ∧
      (∀ (n : Fin 16) (a b : BitVec 16) (part : List (BitVec 8)), part = (l.drop a.toNat).take b.toNat →
        exec (.getCertificate e n a b) s = .next (if n ≠ 0 ∨ l.length ≤ a.toNat then spdmError s
          else s.send (.answer "GET_CERTIFICATE" 0 ([part.length, l.length - a.toNat - part.length] ++ part.map BitVec.toNat)))) ∧
      (∀ i : BitVec 32, exec (.keyExchange e i) s = .next (if (Tab.find s.mgmt.sessions i.toNat).isSome = true then spdmError s
        else { s.drew with mgmt := { s.mgmt with
            sessions := Tab.set s.mgmt.sessions i.toNat { port := Option.map (fun v : Fin 64 × Fin 4 × Fin 16 × Fin 8 => v.1.val) e.vdm } } }.send
          (.answer "KEY_EXCHANGE" 0 [i.toNat, s.freeNow.toNat])))) ∧
    (∀ i : BitVec 32, (sessionHere s e i.toNat = none → (∀ v, exec (.finish e i v) s = .next (spdmError s)) ∧
        exec (.heartbeat e i) s = .next (spdmError s)) ∧
      (∀ x : Session, sessionHere s e i.toNat = some x → ∀ t : Tab Session → State,
        (∀ l, t l = { s with mgmt := { s.mgmt with sessions := l } }) →
        (x.established = false →
          exec (.finish e i true) s = .next ((t (Tab.set s.mgmt.sessions i.toNat { x with established := true })).send (.answer "FINISH" 0 [i.toNat])) ∧
          exec (.finish e i false) s = .next (spdmError (t (Tab.del s.mgmt.sessions i.toNat))) ∧
          exec (.getEncapsulatedRequest e i) s = .next (s.send (.answer "ENCAPSULATED_REQUEST" 0 [i.toNat])) ∧
          (∀ leaf root, exec (.deliverEncapsulatedResponse e i leaf root true) s = .next ((t (Tab.set s.mgmt.sessions i.toNat
              { x with mutAuth := true, leaf := leaf, root := root })).send (.answer "ENCAPSULATED_RESPONSE_ACK" 0 [i.toNat])) ∧
            exec (.deliverEncapsulatedResponse e i leaf root false) s = .next (spdmError s)) ∧
          exec (.heartbeat e i) s = .next (spdmError s) ∧ exec (.keyUpdate e i) s = .next (spdmError s) ∧
          exec (.endSession e i) s = .next (spdmError s)) ∧
        (x.established = true →
          exec (.heartbeat e i) s = .next (s.send (.answer "HEARTBEAT_ACK" 0 [i.toNat])) ∧
          exec (.keyUpdate e i) s = .next (s.send (.answer "KEY_UPDATE_ACK" 0 [i.toNat])) ∧
          exec (.endSession e i) s = .next ((t (Tab.del s.mgmt.sessions i.toNat)).send (.answer "END_SESSION_ACK" 0 [i.toNat])) ∧
          (∀ v, exec (.finish e i v) s = .next (spdmError s)) ∧ exec (.getEncapsulatedRequest e i) s = .next (spdmError s)))))

/-- The CXL FM API (R585, Table 22-6). Out of Capped and Writing a command gets return code Busy. The node identifies itself, reports the
background operation, the memory and LDs of a Host port, the quires each LD holds, its dynamic capacity and an LD's regions and extents; a
port that is not a Host port of the node is invalid. A region is set through PRT_DC_REGION, an extent added or released through
PRT_EXTENT_CMD, whose status maps to a return code. The vendor ID and the code of each status are the model's choice (log entries 26, 28).
Every FM API message of the table completes so. -/
def Obligations.FmApiServesCapacityCommands : Prop :=
  (∀ (s : State) (e : Envelope), Reached s e false false → rubricServes s = false →
    exec (.identify e) s = .next (s.send (.answer "FM_BUSY" 0 [])) ∧ exec (.getDcdInfo e) s = .next (s.send (.answer "FM_BUSY" 0 [])) ∧
    ∀ v, exec (.initiateDynamicCapacityAdd e v) s = .next (s.send (.answer "FM_BUSY" 0 []))) ∧
  (∀ (s : State) (e : Envelope), Reached s e false false → rubricServes s = true →
    exec (.identify e) s = .next (s.drew.send (.answer "IDENTIFY" 0 [s.freeNow.toNat % 65536])) ∧
    exec (.backgroundOperationStatus e) s = .next (s.send (.answer "BACKGROUND_OPERATION_STATUS" 0
      [if s.fabric.adding.isSome = true then 1 else 0, s.get PRT_EXTENT_STATUS_STATUS])) ∧
    exec (.getDcdInfo e) s = .next (s.send (.answer "GET_DCD_INFO" 0 [s.variant.leaves / 512, 8])) ∧
    (∀ p : Fin 64, (s.variant.ports ≤ p.val ∨ s.get (PRT_PORT_CTRL_ROLE p) ≠ 0 →
        exec (.getLdInfo e p) s = .next (s.send (.answer "FM_INVALID_INPUT" 0 [])) ∧
        exec (.getLdAllocations e p) s = .next (s.send (.answer "FM_INVALID_INPUT" 0 [])) ∧
        ∀ d, exec (.getHostDcRegionConfiguration e p d) s = .next (s.send (.answer "FM_INVALID_INPUT" 0 []))) ∧
      (p.val < s.variant.ports → s.get (PRT_PORT_CTRL_ROLE p) = 0 →
        exec (.getLdInfo e p) s = .next (s.send (.answer "GET_LD_INFO" 0
          [s.variant.leaves * 4096, ((List.range 16).filter fun d => s.on (PRT_LD_VALID p d)).length])) ∧
        exec (.getLdAllocations e p) s = .next (s.send (.answer "GET_LD_ALLOCATIONS" 0 ((List.range 16).map fun d =>
          (s.fabric.holders.filter fun q => q.2.contains (16 * p.val + d)).length))) ∧
        (∀ d : Fin 16, exec (.getHostDcRegionConfiguration e p d) s = .next (s.send (.answer "GET_HOST_DC_REGION_CONFIGURATION" 0
            ((List.range 8).map fun r => (s.word (PRT_DC_REGION_VALID (16 * p.val + d.val) r).addr).toNat))) ∧
          exec (.getDcRegionExtentLists e p d) s = .next (s.send (.answer "GET_DC_REGION_EXTENT_LISTS" 0
            ((s.fabric.holders.filter fun q => q.2.contains (16 * p.val + d.val)).map (·.1)))) ∧
          (∀ (r : Fin 8) (v : BitVec 64),
            (regionRefused s p d r v = false → exec (.setDcRegionConfiguration e p d r v) s =
              .next ((s.setWord (PRT_DC_REGION_VALID (16 * p.val + d.val) r).addr
                (BitVec.ofNat 64 (bitsOf v.toNat 62 2 * 2 ^ 62 + v.toNat % 2 ^ 36))).send
                (.answer "SET_DC_REGION_CONFIGURATION" 0 []))) ∧
            (regionRefused s p d r v = true → exec (.setDcRegionConfiguration e p d r v) s =
              .next ((notice s (320 + p.val)).send (.answer "FM_INVALID_INPUT" 0 []))))))) ∧
    (∀ (v : BitVec 64) (t : State) (code : Nat) (result : String → State), (∀ name, result name =
        if code = 5 then s.send (.answer "FM_BUSY" 0 [])
        else (t.put PRT_EXTENT_STATUS_STATUS code).send (if code = 4 then .answer "FM_INVALID_INPUT" 0 []
          else if code = 6 then .answer "FM_RESOURCES_EXHAUSTED" 0 [] else .answer name 0 [code])) →
      (addExtent s (extentOf v) = (t, code) → exec (.initiateDynamicCapacityAdd e v) s = .next (result "INITIATE_DYNAMIC_CAPACITY_ADD")) ∧
      (askRelease s (extentOf v) = (t, code) →
        exec (.initiateDynamicCapacityRelease e v) s = .next (result "INITIATE_DYNAMIC_CAPACITY_RELEASE"))))
end

