-- ==== Sys2Proof/Laws/Tab.lean ====
section
/-! SUPPORT. Sparse tables: reading after writing, and the canonical form. -/

namespace Sys2Proof.Machine

variable {α : Type}

@[simp] theorem Tab.find_nil (k : Nat) : Tab.find ([] : Tab α) k = none := rfl

@[simp] theorem Tab.find_set_self (t : Tab α) (k : Nat) (v : α) : Tab.find (Tab.set t k v) k = some v := by
  induction t with
  | nil => simp [Tab.set, Tab.find]
  | cons x r ih =>
    obtain ⟨a, w⟩ := x
    simp only [Tab.set]
    split
    · simp [Tab.find]
    · split
      · simp [Tab.find]
      · rename_i h1 h2
        simp [Tab.find, Ne.symm h2, ih]

theorem Tab.find_set_ne (t : Tab α) {k j : Nat} (v : α) (h : j ≠ k) : Tab.find (Tab.set t k v) j = Tab.find t j := by
  induction t with
  | nil => simp [Tab.set, Tab.find, h.symm]
  | cons x r ih =>
    obtain ⟨a, w⟩ := x
    simp only [Tab.set]
    split
    · simp [Tab.find, h.symm]
    · split
      · rename_i h1 h2
        subst h2
        simp [Tab.find, h.symm]
      · simp [Tab.find, ih]

theorem Tab.find_del_self (t : Tab α) (k : Nat) : Tab.find (Tab.del t k) k = none := by
  induction t with
  | nil => rfl
  | cons x r ih =>
    obtain ⟨a, w⟩ := x
    simp only [Tab.del]
    split
    · exact ih
    · rename_i h
      simp [Tab.find, h, ih]

theorem Tab.find_del_ne (t : Tab α) {k j : Nat} (h : j ≠ k) : Tab.find (Tab.del t k) j = Tab.find t j := by
  induction t with
  | nil => rfl
  | cons x r ih =>
    obtain ⟨a, w⟩ := x
    simp only [Tab.del]
    split
    · rename_i e
      subst e
      simp [Tab.find, h.symm, ih]
    · simp [Tab.find, ih]

@[simp] theorem Tab.find_put_self [DecidableEq α] (t : Tab α) (k : Nat) (v d : α) :
    (Tab.find (Tab.put t k v d) k).getD d = v := by
  unfold Tab.put
  split
  · rename_i h
    simp [Tab.find_del_self, h]
  · simp

theorem Tab.find_put_ne [DecidableEq α] (t : Tab α) {k j : Nat} (v d : α) (h : j ≠ k) :
    Tab.find (Tab.put t k v d) j = Tab.find t j := by
  unfold Tab.put
  split
  · exact Tab.find_del_ne t h
  · exact Tab.find_set_ne t v h

@[simp] theorem Tab.at_set_self (t : Tab α) (k : Nat) (v d : α) : Tab.at (Tab.set t k v) k d = v := by
  simp [Tab.at]

theorem Tab.at_set_ne (t : Tab α) {k j : Nat} (v d : α) (h : j ≠ k) : Tab.at (Tab.set t k v) j d = Tab.at t j d := by
  simp [Tab.at, Tab.find_set_ne t v h]

@[simp] theorem Tab.at_put_self [DecidableEq α] (t : Tab α) (k : Nat) (v d : α) : Tab.at (Tab.put t k v d) k d = v := by
  simp [Tab.at]

theorem Tab.at_put_ne [DecidableEq α] (t : Tab α) {k j : Nat} (v d e : α) (h : j ≠ k) :
    Tab.at (Tab.put t k v d) j e = Tab.at t j e := by
  simp [Tab.at, Tab.find_put_ne t v d h]

/-! ### The canonical form -/

/-- Keys rise exactly when they are pairwise rising. -/
theorem Tab.sorted_iff (t : Tab α) : Tab.Sorted t = true ↔ t.Pairwise fun x y => x.1 < y.1 := by
  induction t with
  | nil => simp [Tab.Sorted]
  | cons x r ih =>
    obtain ⟨a, w⟩ := x
    cases r with
    | nil => simp [Tab.Sorted]
    | cons y q =>
      obtain ⟨b, z⟩ := y
      rw [Tab.Sorted, Bool.and_eq_true, decide_eq_true_iff, ih, List.pairwise_cons (a := (a, w))]
      refine and_congr_left fun hp => ⟨fun h c hc => ?_, fun h => h (b, z) (by simp)⟩
      rcases List.mem_cons.1 hc with rfl | hc
      · exact h
      · exact h.trans ((List.pairwise_cons.1 hp).1 c hc)

theorem Tab.canon_iff [DecidableEq α] (t : Tab α) (d : Nat → α) :
    Tab.Canon t d = true ↔ (t.Pairwise fun x y => x.1 < y.1) ∧ ∀ x ∈ t, x.2 ≠ d x.1 := by
  simp [Tab.Canon, Tab.sorted_iff]

theorem Tab.canon_nil [DecidableEq α] (d : Nat → α) : Tab.Canon ([] : Tab α) d = true := rfl

theorem Tab.canon_filter [DecidableEq α] {t : Tab α} {d : Nat → α} (p : Nat × α → Bool) (h : Tab.Canon t d = true) :
    Tab.Canon (t.filter p) d = true := by
  rw [Tab.canon_iff] at *
  exact ⟨h.1.filter p, fun x hx => h.2 x (List.mem_filter.1 hx).1⟩

theorem Tab.mem_set {t : Tab α} {k : Nat} {v : α} {x : Nat × α} (h : x ∈ Tab.set t k v) : x = (k, v) ∨ x ∈ t := by
  induction t with
  | nil => simpa [Tab.set] using h
  | cons y r ih =>
    obtain ⟨a, w⟩ := y
    simp only [Tab.set] at h
    split at h
    · simpa using h
    · split at h
      · rcases List.mem_cons.1 h with h | h
        · exact .inl h
        · exact .inr (List.mem_cons_of_mem _ h)
      · rcases List.mem_cons.1 h with h | h
        · exact .inr (by simp [h])
        · exact (ih h).imp_right (List.mem_cons_of_mem _)

theorem Tab.mem_del {t : Tab α} {k : Nat} {x : Nat × α} (h : x ∈ Tab.del t k) : x ∈ t := by
  induction t with
  | nil => simpa [Tab.del] using h
  | cons y r ih =>
    obtain ⟨a, w⟩ := y
    simp only [Tab.del] at h
    split at h
    · exact List.mem_cons_of_mem _ (ih h)
    · rcases List.mem_cons.1 h with h | h
      · simp [h]
      · exact List.mem_cons_of_mem _ (ih h)

theorem Tab.rising_set {t : Tab α} (k : Nat) (v : α) (h : t.Pairwise fun x y => x.1 < y.1) :
    (Tab.set t k v).Pairwise fun x y => x.1 < y.1 := by
  induction t with
  | nil => simp [Tab.set]
  | cons y r ih =>
    obtain ⟨a, w⟩ := y
    have hr := List.pairwise_cons.1 h
    simp only [Tab.set]
    split
    · rename_i hk
      refine List.pairwise_cons.2 ⟨fun z hz => ?_, h⟩
      rcases List.mem_cons.1 hz with rfl | hz
      · exact hk
      · exact hk.trans (hr.1 z hz)
    · split
      · rename_i e
        subst e
        exact List.pairwise_cons.2 hr
      · rename_i h1 h2
        refine List.pairwise_cons.2 ⟨fun z hz => ?_, ih hr.2⟩
        rcases Tab.mem_set hz with rfl | hz
        · simp only
          omega
        · exact hr.1 z hz

theorem Tab.rising_del {t : Tab α} (k : Nat) (h : t.Pairwise fun x y => x.1 < y.1) :
    (Tab.del t k).Pairwise fun x y => x.1 < y.1 := by
  induction t with
  | nil => simp [Tab.del]
  | cons y r ih =>
    obtain ⟨a, w⟩ := y
    have hr := List.pairwise_cons.1 h
    simp only [Tab.del]
    split
    · exact ih hr.2
    · exact List.pairwise_cons.2 ⟨fun z hz => hr.1 z (Tab.mem_del hz), ih hr.2⟩

theorem Tab.canon_put [DecidableEq α] {t : Tab α} {d : Nat → α} (k : Nat) (v : α) (h : Tab.Canon t d = true) :
    Tab.Canon (Tab.put t k v (d k)) d = true := by
  rw [Tab.canon_iff] at *
  unfold Tab.put
  split
  · exact ⟨Tab.rising_del k h.1, fun x hx => h.2 x (Tab.mem_del hx)⟩
  · rename_i hv
    refine ⟨Tab.rising_set k v h.1, fun x hx => ?_⟩
    rcases Tab.mem_set hx with rfl | hx
    · exact hv
    · exact h.2 x hx

theorem Tab.canon_foldl_put {β : Type} [DecidableEq α] {d : α} (l : List β) (key : β → Nat) (val : β → α) {t : Tab α}
    (h : Tab.Canon t (fun _ => d) = true) :
    Tab.Canon (l.foldl (fun t x => Tab.put t (key x) (val x) d) t) (fun _ => d) = true := by
  induction l generalizing t with
  | nil => exact h
  | cons x r ih => exact ih (Tab.canon_put (d := fun _ => d) (key x) (val x) h)

end Sys2Proof.Machine
end

