-- ==== Sys2Proof/Laws/State.lean ====
section
/-! SUPPORT. The small lemmas of the state's operations: what each leaves alone (one lemma per field, true by definition),
and what a register field reads after a write. -/

namespace Sys2Proof.Machine

/-! ### Fields that an operation leaves alone -/

@[simp] theorem State.setWord_variant (s : State) (a : Nat) (w : BitVec 64) : (s.setWord a w).variant = s.variant := rfl
@[simp] theorem State.setWord_blotter (s : State) (a : Nat) (w : BitVec 64) : (s.setWord a w).blotter = s.blotter := rfl
@[simp] theorem State.setWord_ruling (s : State) (a : Nat) (w : BitVec 64) : (s.setWord a w).ruling = s.ruling := rfl
@[simp] theorem State.setWord_media (s : State) (a : Nat) (w : BitVec 64) : (s.setWord a w).media = s.media := rfl
@[simp] theorem State.setWord_chans (s : State) (a : Nat) (w : BitVec 64) : (s.setWord a w).chans = s.chans := rfl
@[simp] theorem State.setWord_rankFails (s : State) (a : Nat) (w : BitVec 64) : (s.setWord a w).rankFails = s.rankFails := rfl
@[simp] theorem State.setWord_layersFailed (s : State) (a : Nat) (w : BitVec 64) : (s.setWord a w).layersFailed = s.layersFailed := rfl
@[simp] theorem State.setWord_ductus (s : State) (a : Nat) (w : BitVec 64) : (s.setWord a w).ductus = s.ductus := rfl
@[simp] theorem State.setWord_accounts (s : State) (a : Nat) (w : BitVec 64) : (s.setWord a w).accounts = s.accounts := rfl
@[simp] theorem State.setWord_sealing (s : State) (a : Nat) (w : BitVec 64) : (s.setWord a w).sealing = s.sealing := rfl
@[simp] theorem State.setWord_fabric (s : State) (a : Nat) (w : BitVec 64) : (s.setWord a w).fabric = s.fabric := rfl
@[simp] theorem State.setWord_colophon (s : State) (a : Nat) (w : BitVec 64) : (s.setWord a w).colophon = s.colophon := rfl
@[simp] theorem State.setWord_cal (s : State) (a : Nat) (w : BitVec 64) : (s.setWord a w).cal = s.cal := rfl
@[simp] theorem State.setWord_pins (s : State) (a : Nat) (w : BitVec 64) : (s.setWord a w).pins = s.pins := rfl
@[simp] theorem State.setWord_fuses (s : State) (a : Nat) (w : BitVec 64) : (s.setWord a w).fuses = s.fuses := rfl
@[simp] theorem State.setWord_lanes (s : State) (a : Nat) (w : BitVec 64) : (s.setWord a w).lanes = s.lanes := rfl
@[simp] theorem State.setWord_mgmt (s : State) (a : Nat) (w : BitVec 64) : (s.setWord a w).mgmt = s.mgmt := rfl
@[simp] theorem State.setWord_power (s : State) (a : Nat) (w : BitVec 64) : (s.setWord a w).power = s.power := rfl
@[simp] theorem State.setWord_thermal (s : State) (a : Nat) (w : BitVec 64) : (s.setWord a w).thermal = s.thermal := rfl
@[simp] theorem State.setWord_boot (s : State) (a : Nat) (w : BitVec 64) : (s.setWord a w).boot = s.boot := rfl
@[simp] theorem State.setWord_clocks (s : State) (a : Nat) (w : BitVec 64) : (s.setWord a w).clocks = s.clocks := rfl
@[simp] theorem State.setWord_rubrics (s : State) (a : Nat) (w : BitVec 64) : (s.setWord a w).rubrics = s.rubrics := rfl
@[simp] theorem State.setWord_scribes (s : State) (a : Nat) (w : BitVec 64) : (s.setWord a w).scribes = s.scribes := rfl
@[simp] theorem State.setWord_queues (s : State) (a : Nat) (w : BitVec 64) : (s.setWord a w).queues = s.queues := rfl
@[simp] theorem State.setWord_cores (s : State) (a : Nat) (w : BitVec 64) : (s.setWord a w).cores = s.cores := rfl
@[simp] theorem State.setWord_out (s : State) (a : Nat) (w : BitVec 64) : (s.setWord a w).out = s.out := rfl
@[simp] theorem State.setWord_free (s : State) (a : Nat) (w : BitVec 64) : (s.setWord a w).free = s.free := rfl
@[simp] theorem State.setWord_pending (s : State) (a : Nat) (w : BitVec 64) : (s.setWord a w).pending = s.pending := rfl

@[simp] theorem State.send_variant (s : State) (o : Output) : (s.send o).variant = s.variant := rfl
@[simp] theorem State.send_desk (s : State) (o : Output) : (s.send o).desk = s.desk := rfl
@[simp] theorem State.send_blotter (s : State) (o : Output) : (s.send o).blotter = s.blotter := rfl
@[simp] theorem State.send_ruling (s : State) (o : Output) : (s.send o).ruling = s.ruling := rfl
@[simp] theorem State.send_media (s : State) (o : Output) : (s.send o).media = s.media := rfl
@[simp] theorem State.send_chans (s : State) (o : Output) : (s.send o).chans = s.chans := rfl
@[simp] theorem State.send_rankFails (s : State) (o : Output) : (s.send o).rankFails = s.rankFails := rfl
@[simp] theorem State.send_layersFailed (s : State) (o : Output) : (s.send o).layersFailed = s.layersFailed := rfl
@[simp] theorem State.send_ductus (s : State) (o : Output) : (s.send o).ductus = s.ductus := rfl
@[simp] theorem State.send_accounts (s : State) (o : Output) : (s.send o).accounts = s.accounts := rfl
@[simp] theorem State.send_sealing (s : State) (o : Output) : (s.send o).sealing = s.sealing := rfl
@[simp] theorem State.send_fabric (s : State) (o : Output) : (s.send o).fabric = s.fabric := rfl
@[simp] theorem State.send_colophon (s : State) (o : Output) : (s.send o).colophon = s.colophon := rfl
@[simp] theorem State.send_cal (s : State) (o : Output) : (s.send o).cal = s.cal := rfl
@[simp] theorem State.send_pins (s : State) (o : Output) : (s.send o).pins = s.pins := rfl
@[simp] theorem State.send_fuses (s : State) (o : Output) : (s.send o).fuses = s.fuses := rfl
@[simp] theorem State.send_lanes (s : State) (o : Output) : (s.send o).lanes = s.lanes := rfl
@[simp] theorem State.send_mgmt (s : State) (o : Output) : (s.send o).mgmt = s.mgmt := rfl
@[simp] theorem State.send_power (s : State) (o : Output) : (s.send o).power = s.power := rfl
@[simp] theorem State.send_thermal (s : State) (o : Output) : (s.send o).thermal = s.thermal := rfl
@[simp] theorem State.send_boot (s : State) (o : Output) : (s.send o).boot = s.boot := rfl
@[simp] theorem State.send_clocks (s : State) (o : Output) : (s.send o).clocks = s.clocks := rfl
@[simp] theorem State.send_rubrics (s : State) (o : Output) : (s.send o).rubrics = s.rubrics := rfl
@[simp] theorem State.send_scribes (s : State) (o : Output) : (s.send o).scribes = s.scribes := rfl
@[simp] theorem State.send_queues (s : State) (o : Output) : (s.send o).queues = s.queues := rfl
@[simp] theorem State.send_cores (s : State) (o : Output) : (s.send o).cores = s.cores := rfl
@[simp] theorem State.send_free (s : State) (o : Output) : (s.send o).free = s.free := rfl
@[simp] theorem State.send_pending (s : State) (o : Output) : (s.send o).pending = s.pending := rfl

@[simp] theorem State.drew_variant (s : State) : (s.drew).variant = s.variant := rfl
@[simp] theorem State.drew_desk (s : State) : (s.drew).desk = s.desk := rfl
@[simp] theorem State.drew_blotter (s : State) : (s.drew).blotter = s.blotter := rfl
@[simp] theorem State.drew_ruling (s : State) : (s.drew).ruling = s.ruling := rfl
@[simp] theorem State.drew_media (s : State) : (s.drew).media = s.media := rfl
@[simp] theorem State.drew_chans (s : State) : (s.drew).chans = s.chans := rfl
@[simp] theorem State.drew_rankFails (s : State) : (s.drew).rankFails = s.rankFails := rfl
@[simp] theorem State.drew_layersFailed (s : State) : (s.drew).layersFailed = s.layersFailed := rfl
@[simp] theorem State.drew_ductus (s : State) : (s.drew).ductus = s.ductus := rfl
@[simp] theorem State.drew_accounts (s : State) : (s.drew).accounts = s.accounts := rfl
@[simp] theorem State.drew_sealing (s : State) : (s.drew).sealing = s.sealing := rfl
@[simp] theorem State.drew_fabric (s : State) : (s.drew).fabric = s.fabric := rfl
@[simp] theorem State.drew_colophon (s : State) : (s.drew).colophon = s.colophon := rfl
@[simp] theorem State.drew_cal (s : State) : (s.drew).cal = s.cal := rfl
@[simp] theorem State.drew_pins (s : State) : (s.drew).pins = s.pins := rfl
@[simp] theorem State.drew_fuses (s : State) : (s.drew).fuses = s.fuses := rfl
@[simp] theorem State.drew_lanes (s : State) : (s.drew).lanes = s.lanes := rfl
@[simp] theorem State.drew_mgmt (s : State) : (s.drew).mgmt = s.mgmt := rfl
@[simp] theorem State.drew_power (s : State) : (s.drew).power = s.power := rfl
@[simp] theorem State.drew_thermal (s : State) : (s.drew).thermal = s.thermal := rfl
@[simp] theorem State.drew_boot (s : State) : (s.drew).boot = s.boot := rfl
@[simp] theorem State.drew_clocks (s : State) : (s.drew).clocks = s.clocks := rfl
@[simp] theorem State.drew_rubrics (s : State) : (s.drew).rubrics = s.rubrics := rfl
@[simp] theorem State.drew_scribes (s : State) : (s.drew).scribes = s.scribes := rfl
@[simp] theorem State.drew_queues (s : State) : (s.drew).queues = s.queues := rfl
@[simp] theorem State.drew_cores (s : State) : (s.drew).cores = s.cores := rfl
@[simp] theorem State.drew_out (s : State) : (s.drew).out = s.out := rfl
@[simp] theorem State.drew_pending (s : State) : (s.drew).pending = s.pending := rfl

@[simp] theorem State.put_variant (s : State) (f : Fld) (v : Nat) : (s.put f v).variant = s.variant := rfl
@[simp] theorem State.put_blotter (s : State) (f : Fld) (v : Nat) : (s.put f v).blotter = s.blotter := rfl
@[simp] theorem State.put_ruling (s : State) (f : Fld) (v : Nat) : (s.put f v).ruling = s.ruling := rfl
@[simp] theorem State.put_media (s : State) (f : Fld) (v : Nat) : (s.put f v).media = s.media := rfl
@[simp] theorem State.put_chans (s : State) (f : Fld) (v : Nat) : (s.put f v).chans = s.chans := rfl
@[simp] theorem State.put_rankFails (s : State) (f : Fld) (v : Nat) : (s.put f v).rankFails = s.rankFails := rfl
@[simp] theorem State.put_layersFailed (s : State) (f : Fld) (v : Nat) : (s.put f v).layersFailed = s.layersFailed := rfl
@[simp] theorem State.put_ductus (s : State) (f : Fld) (v : Nat) : (s.put f v).ductus = s.ductus := rfl
@[simp] theorem State.put_accounts (s : State) (f : Fld) (v : Nat) : (s.put f v).accounts = s.accounts := rfl
@[simp] theorem State.put_sealing (s : State) (f : Fld) (v : Nat) : (s.put f v).sealing = s.sealing := rfl
@[simp] theorem State.put_fabric (s : State) (f : Fld) (v : Nat) : (s.put f v).fabric = s.fabric := rfl
@[simp] theorem State.put_colophon (s : State) (f : Fld) (v : Nat) : (s.put f v).colophon = s.colophon := rfl
@[simp] theorem State.put_cal (s : State) (f : Fld) (v : Nat) : (s.put f v).cal = s.cal := rfl
@[simp] theorem State.put_pins (s : State) (f : Fld) (v : Nat) : (s.put f v).pins = s.pins := rfl
@[simp] theorem State.put_fuses (s : State) (f : Fld) (v : Nat) : (s.put f v).fuses = s.fuses := rfl
@[simp] theorem State.put_lanes (s : State) (f : Fld) (v : Nat) : (s.put f v).lanes = s.lanes := rfl
@[simp] theorem State.put_mgmt (s : State) (f : Fld) (v : Nat) : (s.put f v).mgmt = s.mgmt := rfl
@[simp] theorem State.put_power (s : State) (f : Fld) (v : Nat) : (s.put f v).power = s.power := rfl
@[simp] theorem State.put_thermal (s : State) (f : Fld) (v : Nat) : (s.put f v).thermal = s.thermal := rfl
@[simp] theorem State.put_boot (s : State) (f : Fld) (v : Nat) : (s.put f v).boot = s.boot := rfl
@[simp] theorem State.put_clocks (s : State) (f : Fld) (v : Nat) : (s.put f v).clocks = s.clocks := rfl
@[simp] theorem State.put_rubrics (s : State) (f : Fld) (v : Nat) : (s.put f v).rubrics = s.rubrics := rfl
@[simp] theorem State.put_scribes (s : State) (f : Fld) (v : Nat) : (s.put f v).scribes = s.scribes := rfl
@[simp] theorem State.put_queues (s : State) (f : Fld) (v : Nat) : (s.put f v).queues = s.queues := rfl
@[simp] theorem State.put_cores (s : State) (f : Fld) (v : Nat) : (s.put f v).cores = s.cores := rfl
@[simp] theorem State.put_out (s : State) (f : Fld) (v : Nat) : (s.put f v).out = s.out := rfl
@[simp] theorem State.put_free (s : State) (f : Fld) (v : Nat) : (s.put f v).free = s.free := rfl
@[simp] theorem State.put_pending (s : State) (f : Fld) (v : Nat) : (s.put f v).pending = s.pending := rfl

@[simp] theorem State.putB_variant (s : State) (f : Fld) (b : Bool) : (s.putB f b).variant = s.variant := rfl
@[simp] theorem State.putB_blotter (s : State) (f : Fld) (b : Bool) : (s.putB f b).blotter = s.blotter := rfl
@[simp] theorem State.putB_ruling (s : State) (f : Fld) (b : Bool) : (s.putB f b).ruling = s.ruling := rfl
@[simp] theorem State.putB_media (s : State) (f : Fld) (b : Bool) : (s.putB f b).media = s.media := rfl
@[simp] theorem State.putB_chans (s : State) (f : Fld) (b : Bool) : (s.putB f b).chans = s.chans := rfl
@[simp] theorem State.putB_rankFails (s : State) (f : Fld) (b : Bool) : (s.putB f b).rankFails = s.rankFails := rfl
@[simp] theorem State.putB_layersFailed (s : State) (f : Fld) (b : Bool) : (s.putB f b).layersFailed = s.layersFailed := rfl
@[simp] theorem State.putB_ductus (s : State) (f : Fld) (b : Bool) : (s.putB f b).ductus = s.ductus := rfl
@[simp] theorem State.putB_accounts (s : State) (f : Fld) (b : Bool) : (s.putB f b).accounts = s.accounts := rfl
@[simp] theorem State.putB_sealing (s : State) (f : Fld) (b : Bool) : (s.putB f b).sealing = s.sealing := rfl
@[simp] theorem State.putB_fabric (s : State) (f : Fld) (b : Bool) : (s.putB f b).fabric = s.fabric := rfl
@[simp] theorem State.putB_colophon (s : State) (f : Fld) (b : Bool) : (s.putB f b).colophon = s.colophon := rfl
@[simp] theorem State.putB_cal (s : State) (f : Fld) (b : Bool) : (s.putB f b).cal = s.cal := rfl
@[simp] theorem State.putB_pins (s : State) (f : Fld) (b : Bool) : (s.putB f b).pins = s.pins := rfl
@[simp] theorem State.putB_fuses (s : State) (f : Fld) (b : Bool) : (s.putB f b).fuses = s.fuses := rfl
@[simp] theorem State.putB_lanes (s : State) (f : Fld) (b : Bool) : (s.putB f b).lanes = s.lanes := rfl
@[simp] theorem State.putB_mgmt (s : State) (f : Fld) (b : Bool) : (s.putB f b).mgmt = s.mgmt := rfl
@[simp] theorem State.putB_power (s : State) (f : Fld) (b : Bool) : (s.putB f b).power = s.power := rfl
@[simp] theorem State.putB_thermal (s : State) (f : Fld) (b : Bool) : (s.putB f b).thermal = s.thermal := rfl
@[simp] theorem State.putB_boot (s : State) (f : Fld) (b : Bool) : (s.putB f b).boot = s.boot := rfl
@[simp] theorem State.putB_clocks (s : State) (f : Fld) (b : Bool) : (s.putB f b).clocks = s.clocks := rfl
@[simp] theorem State.putB_rubrics (s : State) (f : Fld) (b : Bool) : (s.putB f b).rubrics = s.rubrics := rfl
@[simp] theorem State.putB_scribes (s : State) (f : Fld) (b : Bool) : (s.putB f b).scribes = s.scribes := rfl
@[simp] theorem State.putB_queues (s : State) (f : Fld) (b : Bool) : (s.putB f b).queues = s.queues := rfl
@[simp] theorem State.putB_cores (s : State) (f : Fld) (b : Bool) : (s.putB f b).cores = s.cores := rfl
@[simp] theorem State.putB_out (s : State) (f : Fld) (b : Bool) : (s.putB f b).out = s.out := rfl
@[simp] theorem State.putB_free (s : State) (f : Fld) (b : Bool) : (s.putB f b).free = s.free := rfl
@[simp] theorem State.putB_pending (s : State) (f : Fld) (b : Bool) : (s.putB f b).pending = s.pending := rfl

@[simp] theorem State.inc_variant (s : State) (f : Fld) (k : Nat) : (s.inc f k).variant = s.variant := rfl
@[simp] theorem State.inc_blotter (s : State) (f : Fld) (k : Nat) : (s.inc f k).blotter = s.blotter := rfl
@[simp] theorem State.inc_ruling (s : State) (f : Fld) (k : Nat) : (s.inc f k).ruling = s.ruling := rfl
@[simp] theorem State.inc_media (s : State) (f : Fld) (k : Nat) : (s.inc f k).media = s.media := rfl
@[simp] theorem State.inc_chans (s : State) (f : Fld) (k : Nat) : (s.inc f k).chans = s.chans := rfl
@[simp] theorem State.inc_rankFails (s : State) (f : Fld) (k : Nat) : (s.inc f k).rankFails = s.rankFails := rfl
@[simp] theorem State.inc_layersFailed (s : State) (f : Fld) (k : Nat) : (s.inc f k).layersFailed = s.layersFailed := rfl
@[simp] theorem State.inc_ductus (s : State) (f : Fld) (k : Nat) : (s.inc f k).ductus = s.ductus := rfl
@[simp] theorem State.inc_accounts (s : State) (f : Fld) (k : Nat) : (s.inc f k).accounts = s.accounts := rfl
@[simp] theorem State.inc_sealing (s : State) (f : Fld) (k : Nat) : (s.inc f k).sealing = s.sealing := rfl
@[simp] theorem State.inc_fabric (s : State) (f : Fld) (k : Nat) : (s.inc f k).fabric = s.fabric := rfl
@[simp] theorem State.inc_colophon (s : State) (f : Fld) (k : Nat) : (s.inc f k).colophon = s.colophon := rfl
@[simp] theorem State.inc_cal (s : State) (f : Fld) (k : Nat) : (s.inc f k).cal = s.cal := rfl
@[simp] theorem State.inc_pins (s : State) (f : Fld) (k : Nat) : (s.inc f k).pins = s.pins := rfl
@[simp] theorem State.inc_fuses (s : State) (f : Fld) (k : Nat) : (s.inc f k).fuses = s.fuses := rfl
@[simp] theorem State.inc_lanes (s : State) (f : Fld) (k : Nat) : (s.inc f k).lanes = s.lanes := rfl
@[simp] theorem State.inc_mgmt (s : State) (f : Fld) (k : Nat) : (s.inc f k).mgmt = s.mgmt := rfl
@[simp] theorem State.inc_power (s : State) (f : Fld) (k : Nat) : (s.inc f k).power = s.power := rfl
@[simp] theorem State.inc_thermal (s : State) (f : Fld) (k : Nat) : (s.inc f k).thermal = s.thermal := rfl
@[simp] theorem State.inc_boot (s : State) (f : Fld) (k : Nat) : (s.inc f k).boot = s.boot := rfl
@[simp] theorem State.inc_clocks (s : State) (f : Fld) (k : Nat) : (s.inc f k).clocks = s.clocks := rfl
@[simp] theorem State.inc_rubrics (s : State) (f : Fld) (k : Nat) : (s.inc f k).rubrics = s.rubrics := rfl
@[simp] theorem State.inc_scribes (s : State) (f : Fld) (k : Nat) : (s.inc f k).scribes = s.scribes := rfl
@[simp] theorem State.inc_queues (s : State) (f : Fld) (k : Nat) : (s.inc f k).queues = s.queues := rfl
@[simp] theorem State.inc_cores (s : State) (f : Fld) (k : Nat) : (s.inc f k).cores = s.cores := rfl
@[simp] theorem State.inc_out (s : State) (f : Fld) (k : Nat) : (s.inc f k).out = s.out := rfl
@[simp] theorem State.inc_free (s : State) (f : Fld) (k : Nat) : (s.inc f k).free = s.free := rfl
@[simp] theorem State.inc_pending (s : State) (f : Fld) (k : Nat) : (s.inc f k).pending = s.pending := rfl

@[simp] theorem State.incW_variant (s : State) (f : Fld) (k : Nat) : (s.incW f k).variant = s.variant := rfl
@[simp] theorem State.incW_blotter (s : State) (f : Fld) (k : Nat) : (s.incW f k).blotter = s.blotter := rfl
@[simp] theorem State.incW_ruling (s : State) (f : Fld) (k : Nat) : (s.incW f k).ruling = s.ruling := rfl
@[simp] theorem State.incW_media (s : State) (f : Fld) (k : Nat) : (s.incW f k).media = s.media := rfl
@[simp] theorem State.incW_chans (s : State) (f : Fld) (k : Nat) : (s.incW f k).chans = s.chans := rfl
@[simp] theorem State.incW_rankFails (s : State) (f : Fld) (k : Nat) : (s.incW f k).rankFails = s.rankFails := rfl
@[simp] theorem State.incW_layersFailed (s : State) (f : Fld) (k : Nat) : (s.incW f k).layersFailed = s.layersFailed := rfl
@[simp] theorem State.incW_ductus (s : State) (f : Fld) (k : Nat) : (s.incW f k).ductus = s.ductus := rfl
@[simp] theorem State.incW_accounts (s : State) (f : Fld) (k : Nat) : (s.incW f k).accounts = s.accounts := rfl
@[simp] theorem State.incW_sealing (s : State) (f : Fld) (k : Nat) : (s.incW f k).sealing = s.sealing := rfl
@[simp] theorem State.incW_fabric (s : State) (f : Fld) (k : Nat) : (s.incW f k).fabric = s.fabric := rfl
@[simp] theorem State.incW_colophon (s : State) (f : Fld) (k : Nat) : (s.incW f k).colophon = s.colophon := rfl
@[simp] theorem State.incW_cal (s : State) (f : Fld) (k : Nat) : (s.incW f k).cal = s.cal := rfl
@[simp] theorem State.incW_pins (s : State) (f : Fld) (k : Nat) : (s.incW f k).pins = s.pins := rfl
@[simp] theorem State.incW_fuses (s : State) (f : Fld) (k : Nat) : (s.incW f k).fuses = s.fuses := rfl
@[simp] theorem State.incW_lanes (s : State) (f : Fld) (k : Nat) : (s.incW f k).lanes = s.lanes := rfl
@[simp] theorem State.incW_mgmt (s : State) (f : Fld) (k : Nat) : (s.incW f k).mgmt = s.mgmt := rfl
@[simp] theorem State.incW_power (s : State) (f : Fld) (k : Nat) : (s.incW f k).power = s.power := rfl
@[simp] theorem State.incW_thermal (s : State) (f : Fld) (k : Nat) : (s.incW f k).thermal = s.thermal := rfl
@[simp] theorem State.incW_boot (s : State) (f : Fld) (k : Nat) : (s.incW f k).boot = s.boot := rfl
@[simp] theorem State.incW_clocks (s : State) (f : Fld) (k : Nat) : (s.incW f k).clocks = s.clocks := rfl
@[simp] theorem State.incW_rubrics (s : State) (f : Fld) (k : Nat) : (s.incW f k).rubrics = s.rubrics := rfl
@[simp] theorem State.incW_scribes (s : State) (f : Fld) (k : Nat) : (s.incW f k).scribes = s.scribes := rfl
@[simp] theorem State.incW_queues (s : State) (f : Fld) (k : Nat) : (s.incW f k).queues = s.queues := rfl
@[simp] theorem State.incW_cores (s : State) (f : Fld) (k : Nat) : (s.incW f k).cores = s.cores := rfl
@[simp] theorem State.incW_out (s : State) (f : Fld) (k : Nat) : (s.incW f k).out = s.out := rfl
@[simp] theorem State.incW_free (s : State) (f : Fld) (k : Nat) : (s.incW f k).free = s.free := rfl
@[simp] theorem State.incW_pending (s : State) (f : Fld) (k : Nat) : (s.incW f k).pending = s.pending := rfl

@[simp] theorem State.dec_variant (s : State) (f : Fld) (k : Nat) : (s.dec f k).variant = s.variant := rfl
@[simp] theorem State.dec_blotter (s : State) (f : Fld) (k : Nat) : (s.dec f k).blotter = s.blotter := rfl
@[simp] theorem State.dec_ruling (s : State) (f : Fld) (k : Nat) : (s.dec f k).ruling = s.ruling := rfl
@[simp] theorem State.dec_media (s : State) (f : Fld) (k : Nat) : (s.dec f k).media = s.media := rfl
@[simp] theorem State.dec_chans (s : State) (f : Fld) (k : Nat) : (s.dec f k).chans = s.chans := rfl
@[simp] theorem State.dec_rankFails (s : State) (f : Fld) (k : Nat) : (s.dec f k).rankFails = s.rankFails := rfl
@[simp] theorem State.dec_layersFailed (s : State) (f : Fld) (k : Nat) : (s.dec f k).layersFailed = s.layersFailed := rfl
@[simp] theorem State.dec_ductus (s : State) (f : Fld) (k : Nat) : (s.dec f k).ductus = s.ductus := rfl
@[simp] theorem State.dec_accounts (s : State) (f : Fld) (k : Nat) : (s.dec f k).accounts = s.accounts := rfl
@[simp] theorem State.dec_sealing (s : State) (f : Fld) (k : Nat) : (s.dec f k).sealing = s.sealing := rfl
@[simp] theorem State.dec_fabric (s : State) (f : Fld) (k : Nat) : (s.dec f k).fabric = s.fabric := rfl
@[simp] theorem State.dec_colophon (s : State) (f : Fld) (k : Nat) : (s.dec f k).colophon = s.colophon := rfl
@[simp] theorem State.dec_cal (s : State) (f : Fld) (k : Nat) : (s.dec f k).cal = s.cal := rfl
@[simp] theorem State.dec_pins (s : State) (f : Fld) (k : Nat) : (s.dec f k).pins = s.pins := rfl
@[simp] theorem State.dec_fuses (s : State) (f : Fld) (k : Nat) : (s.dec f k).fuses = s.fuses := rfl
@[simp] theorem State.dec_lanes (s : State) (f : Fld) (k : Nat) : (s.dec f k).lanes = s.lanes := rfl
@[simp] theorem State.dec_mgmt (s : State) (f : Fld) (k : Nat) : (s.dec f k).mgmt = s.mgmt := rfl
@[simp] theorem State.dec_power (s : State) (f : Fld) (k : Nat) : (s.dec f k).power = s.power := rfl
@[simp] theorem State.dec_thermal (s : State) (f : Fld) (k : Nat) : (s.dec f k).thermal = s.thermal := rfl
@[simp] theorem State.dec_boot (s : State) (f : Fld) (k : Nat) : (s.dec f k).boot = s.boot := rfl
@[simp] theorem State.dec_clocks (s : State) (f : Fld) (k : Nat) : (s.dec f k).clocks = s.clocks := rfl
@[simp] theorem State.dec_rubrics (s : State) (f : Fld) (k : Nat) : (s.dec f k).rubrics = s.rubrics := rfl
@[simp] theorem State.dec_scribes (s : State) (f : Fld) (k : Nat) : (s.dec f k).scribes = s.scribes := rfl
@[simp] theorem State.dec_queues (s : State) (f : Fld) (k : Nat) : (s.dec f k).queues = s.queues := rfl
@[simp] theorem State.dec_cores (s : State) (f : Fld) (k : Nat) : (s.dec f k).cores = s.cores := rfl
@[simp] theorem State.dec_out (s : State) (f : Fld) (k : Nat) : (s.dec f k).out = s.out := rfl
@[simp] theorem State.dec_free (s : State) (f : Fld) (k : Nat) : (s.dec f k).free = s.free := rfl
@[simp] theorem State.dec_pending (s : State) (f : Fld) (k : Nat) : (s.dec f k).pending = s.pending := rfl

@[simp] theorem State.setFlag_variant (s : State) (f : Fld) (i : Nat) (b : Bool) : (s.setFlag f i b).variant = s.variant := rfl
@[simp] theorem State.setFlag_blotter (s : State) (f : Fld) (i : Nat) (b : Bool) : (s.setFlag f i b).blotter = s.blotter := rfl
@[simp] theorem State.setFlag_ruling (s : State) (f : Fld) (i : Nat) (b : Bool) : (s.setFlag f i b).ruling = s.ruling := rfl
@[simp] theorem State.setFlag_media (s : State) (f : Fld) (i : Nat) (b : Bool) : (s.setFlag f i b).media = s.media := rfl
@[simp] theorem State.setFlag_chans (s : State) (f : Fld) (i : Nat) (b : Bool) : (s.setFlag f i b).chans = s.chans := rfl
@[simp] theorem State.setFlag_rankFails (s : State) (f : Fld) (i : Nat) (b : Bool) : (s.setFlag f i b).rankFails = s.rankFails := rfl
@[simp] theorem State.setFlag_layersFailed (s : State) (f : Fld) (i : Nat) (b : Bool) : (s.setFlag f i b).layersFailed = s.layersFailed := rfl
@[simp] theorem State.setFlag_ductus (s : State) (f : Fld) (i : Nat) (b : Bool) : (s.setFlag f i b).ductus = s.ductus := rfl
@[simp] theorem State.setFlag_accounts (s : State) (f : Fld) (i : Nat) (b : Bool) : (s.setFlag f i b).accounts = s.accounts := rfl
@[simp] theorem State.setFlag_sealing (s : State) (f : Fld) (i : Nat) (b : Bool) : (s.setFlag f i b).sealing = s.sealing := rfl
@[simp] theorem State.setFlag_fabric (s : State) (f : Fld) (i : Nat) (b : Bool) : (s.setFlag f i b).fabric = s.fabric := rfl
@[simp] theorem State.setFlag_colophon (s : State) (f : Fld) (i : Nat) (b : Bool) : (s.setFlag f i b).colophon = s.colophon := rfl
@[simp] theorem State.setFlag_cal (s : State) (f : Fld) (i : Nat) (b : Bool) : (s.setFlag f i b).cal = s.cal := rfl
@[simp] theorem State.setFlag_pins (s : State) (f : Fld) (i : Nat) (b : Bool) : (s.setFlag f i b).pins = s.pins := rfl
@[simp] theorem State.setFlag_fuses (s : State) (f : Fld) (i : Nat) (b : Bool) : (s.setFlag f i b).fuses = s.fuses := rfl
@[simp] theorem State.setFlag_lanes (s : State) (f : Fld) (i : Nat) (b : Bool) : (s.setFlag f i b).lanes = s.lanes := rfl
@[simp] theorem State.setFlag_mgmt (s : State) (f : Fld) (i : Nat) (b : Bool) : (s.setFlag f i b).mgmt = s.mgmt := rfl
@[simp] theorem State.setFlag_power (s : State) (f : Fld) (i : Nat) (b : Bool) : (s.setFlag f i b).power = s.power := rfl
@[simp] theorem State.setFlag_thermal (s : State) (f : Fld) (i : Nat) (b : Bool) : (s.setFlag f i b).thermal = s.thermal := rfl
@[simp] theorem State.setFlag_boot (s : State) (f : Fld) (i : Nat) (b : Bool) : (s.setFlag f i b).boot = s.boot := rfl
@[simp] theorem State.setFlag_clocks (s : State) (f : Fld) (i : Nat) (b : Bool) : (s.setFlag f i b).clocks = s.clocks := rfl
@[simp] theorem State.setFlag_rubrics (s : State) (f : Fld) (i : Nat) (b : Bool) : (s.setFlag f i b).rubrics = s.rubrics := rfl
@[simp] theorem State.setFlag_scribes (s : State) (f : Fld) (i : Nat) (b : Bool) : (s.setFlag f i b).scribes = s.scribes := rfl
@[simp] theorem State.setFlag_queues (s : State) (f : Fld) (i : Nat) (b : Bool) : (s.setFlag f i b).queues = s.queues := rfl
@[simp] theorem State.setFlag_cores (s : State) (f : Fld) (i : Nat) (b : Bool) : (s.setFlag f i b).cores = s.cores := rfl
@[simp] theorem State.setFlag_out (s : State) (f : Fld) (i : Nat) (b : Bool) : (s.setFlag f i b).out = s.out := rfl
@[simp] theorem State.setFlag_free (s : State) (f : Fld) (i : Nat) (b : Bool) : (s.setFlag f i b).free = s.free := rfl
@[simp] theorem State.setFlag_pending (s : State) (f : Fld) (i : Nat) (b : Bool) : (s.setFlag f i b).pending = s.pending := rfl

@[simp] theorem State.send_out (s : State) (o : Output) : (s.send o).out = s.out ++ [o] := rfl
@[simp] theorem State.drew_free (s : State) : s.drew.free = s.free + 1 := rfl
@[simp] theorem State.each_nil {α : Type} (s : State) (f : State → α → State) : s.each [] f = s := rfl
@[simp] theorem State.each_cons {α : Type} (s : State) (a : α) (l : List α) (f : State → α → State) :
    s.each (a :: l) f = (f s a).each l f := rfl
@[simp] theorem State.word_send (s : State) (o : Output) (a : Nat) : (s.send o).word a = s.word a := rfl
@[simp] theorem State.word_drew (s : State) (a : Nat) : s.drew.word a = s.word a := rfl
@[simp] theorem State.get_send (s : State) (o : Output) (f : Fld) : (s.send o).get f = s.get f := rfl
@[simp] theorem State.get_drew (s : State) (f : Fld) : s.drew.get f = s.get f := rfl

/-! ### Registers keep their values through an update of what is no register -/

@[simp] theorem State.word_with_blotter (s : State) (x : Blotter) (a : Nat) : State.word { s with blotter := x } a = s.word a := rfl
@[simp] theorem State.get_with_blotter (s : State) (x : Blotter) (g : Fld) : State.get { s with blotter := x } g = s.get g := rfl
@[simp] theorem State.on_with_blotter (s : State) (x : Blotter) (g : Fld) : State.on { s with blotter := x } g = s.on g := rfl
@[simp] theorem State.word_with_ruling (s : State) (x : Ruling) (a : Nat) : State.word { s with ruling := x } a = s.word a := rfl
@[simp] theorem State.get_with_ruling (s : State) (x : Ruling) (g : Fld) : State.get { s with ruling := x } g = s.get g := rfl
@[simp] theorem State.on_with_ruling (s : State) (x : Ruling) (g : Fld) : State.on { s with ruling := x } g = s.on g := rfl
@[simp] theorem State.word_with_media (s : State) (x : Tab Codeword) (a : Nat) : State.word { s with media := x } a = s.word a := rfl
@[simp] theorem State.get_with_media (s : State) (x : Tab Codeword) (g : Fld) : State.get { s with media := x } g = s.get g := rfl
@[simp] theorem State.on_with_media (s : State) (x : Tab Codeword) (g : Fld) : State.on { s with media := x } g = s.on g := rfl
@[simp] theorem State.word_with_chans (s : State) (x : Tab Chan) (a : Nat) : State.word { s with chans := x } a = s.word a := rfl
@[simp] theorem State.get_with_chans (s : State) (x : Tab Chan) (g : Fld) : State.get { s with chans := x } g = s.get g := rfl
@[simp] theorem State.on_with_chans (s : State) (x : Tab Chan) (g : Fld) : State.on { s with chans := x } g = s.on g := rfl
@[simp] theorem State.word_with_rankFails (s : State) (x : List (Nat × Nat × Nat)) (a : Nat) : State.word { s with rankFails := x } a = s.word a := rfl
@[simp] theorem State.get_with_rankFails (s : State) (x : List (Nat × Nat × Nat)) (g : Fld) : State.get { s with rankFails := x } g = s.get g := rfl
@[simp] theorem State.on_with_rankFails (s : State) (x : List (Nat × Nat × Nat)) (g : Fld) : State.on { s with rankFails := x } g = s.on g := rfl
@[simp] theorem State.word_with_layersFailed (s : State) (x : List (Nat × Nat)) (a : Nat) : State.word { s with layersFailed := x } a = s.word a := rfl
@[simp] theorem State.get_with_layersFailed (s : State) (x : List (Nat × Nat)) (g : Fld) : State.get { s with layersFailed := x } g = s.get g := rfl
@[simp] theorem State.on_with_layersFailed (s : State) (x : List (Nat × Nat)) (g : Fld) : State.on { s with layersFailed := x } g = s.on g := rfl
@[simp] theorem State.word_with_ductus (s : State) (x : Ductus) (a : Nat) : State.word { s with ductus := x } a = s.word a := rfl
@[simp] theorem State.get_with_ductus (s : State) (x : Ductus) (g : Fld) : State.get { s with ductus := x } g = s.get g := rfl
@[simp] theorem State.on_with_ductus (s : State) (x : Ductus) (g : Fld) : State.on { s with ductus := x } g = s.on g := rfl
@[simp] theorem State.word_with_accounts (s : State) (x : Accounts) (a : Nat) : State.word { s with accounts := x } a = s.word a := rfl
@[simp] theorem State.get_with_accounts (s : State) (x : Accounts) (g : Fld) : State.get { s with accounts := x } g = s.get g := rfl
@[simp] theorem State.on_with_accounts (s : State) (x : Accounts) (g : Fld) : State.on { s with accounts := x } g = s.on g := rfl
@[simp] theorem State.word_with_sealing (s : State) (x : Seal) (a : Nat) : State.word { s with sealing := x } a = s.word a := rfl
@[simp] theorem State.get_with_sealing (s : State) (x : Seal) (g : Fld) : State.get { s with sealing := x } g = s.get g := rfl
@[simp] theorem State.on_with_sealing (s : State) (x : Seal) (g : Fld) : State.on { s with sealing := x } g = s.on g := rfl
@[simp] theorem State.word_with_fabric (s : State) (x : Fabric) (a : Nat) : State.word { s with fabric := x } a = s.word a := rfl
@[simp] theorem State.get_with_fabric (s : State) (x : Fabric) (g : Fld) : State.get { s with fabric := x } g = s.get g := rfl
@[simp] theorem State.on_with_fabric (s : State) (x : Fabric) (g : Fld) : State.on { s with fabric := x } g = s.on g := rfl
@[simp] theorem State.word_with_colophon (s : State) (x : Colophon) (a : Nat) : State.word { s with colophon := x } a = s.word a := rfl
@[simp] theorem State.get_with_colophon (s : State) (x : Colophon) (g : Fld) : State.get { s with colophon := x } g = s.get g := rfl
@[simp] theorem State.on_with_colophon (s : State) (x : Colophon) (g : Fld) : State.on { s with colophon := x } g = s.on g := rfl
@[simp] theorem State.word_with_cal (s : State) (x : Tab CalUnit) (a : Nat) : State.word { s with cal := x } a = s.word a := rfl
@[simp] theorem State.get_with_cal (s : State) (x : Tab CalUnit) (g : Fld) : State.get { s with cal := x } g = s.get g := rfl
@[simp] theorem State.on_with_cal (s : State) (x : Tab CalUnit) (g : Fld) : State.on { s with cal := x } g = s.on g := rfl
@[simp] theorem State.word_with_pins (s : State) (x : Pins) (a : Nat) : State.word { s with pins := x } a = s.word a := rfl
@[simp] theorem State.get_with_pins (s : State) (x : Pins) (g : Fld) : State.get { s with pins := x } g = s.get g := rfl
@[simp] theorem State.on_with_pins (s : State) (x : Pins) (g : Fld) : State.on { s with pins := x } g = s.on g := rfl
@[simp] theorem State.word_with_fuses (s : State) (x : Fuses) (a : Nat) : State.word { s with fuses := x } a = s.word a := rfl
@[simp] theorem State.get_with_fuses (s : State) (x : Fuses) (g : Fld) : State.get { s with fuses := x } g = s.get g := rfl
@[simp] theorem State.on_with_fuses (s : State) (x : Fuses) (g : Fld) : State.on { s with fuses := x } g = s.on g := rfl
@[simp] theorem State.word_with_lanes (s : State) (x : Lanes) (a : Nat) : State.word { s with lanes := x } a = s.word a := rfl
@[simp] theorem State.get_with_lanes (s : State) (x : Lanes) (g : Fld) : State.get { s with lanes := x } g = s.get g := rfl
@[simp] theorem State.on_with_lanes (s : State) (x : Lanes) (g : Fld) : State.on { s with lanes := x } g = s.on g := rfl
@[simp] theorem State.word_with_mgmt (s : State) (x : Mgmt) (a : Nat) : State.word { s with mgmt := x } a = s.word a := rfl
@[simp] theorem State.get_with_mgmt (s : State) (x : Mgmt) (g : Fld) : State.get { s with mgmt := x } g = s.get g := rfl
@[simp] theorem State.on_with_mgmt (s : State) (x : Mgmt) (g : Fld) : State.on { s with mgmt := x } g = s.on g := rfl
@[simp] theorem State.word_with_power (s : State) (x : Power) (a : Nat) : State.word { s with power := x } a = s.word a := rfl
@[simp] theorem State.get_with_power (s : State) (x : Power) (g : Fld) : State.get { s with power := x } g = s.get g := rfl
@[simp] theorem State.on_with_power (s : State) (x : Power) (g : Fld) : State.on { s with power := x } g = s.on g := rfl
@[simp] theorem State.word_with_thermal (s : State) (x : Thermal) (a : Nat) : State.word { s with thermal := x } a = s.word a := rfl
@[simp] theorem State.get_with_thermal (s : State) (x : Thermal) (g : Fld) : State.get { s with thermal := x } g = s.get g := rfl
@[simp] theorem State.on_with_thermal (s : State) (x : Thermal) (g : Fld) : State.on { s with thermal := x } g = s.on g := rfl
@[simp] theorem State.word_with_boot (s : State) (x : Boot) (a : Nat) : State.word { s with boot := x } a = s.word a := rfl
@[simp] theorem State.get_with_boot (s : State) (x : Boot) (g : Fld) : State.get { s with boot := x } g = s.get g := rfl
@[simp] theorem State.on_with_boot (s : State) (x : Boot) (g : Fld) : State.on { s with boot := x } g = s.on g := rfl
@[simp] theorem State.word_with_clocks (s : State) (x : Clocks) (a : Nat) : State.word { s with clocks := x } a = s.word a := rfl
@[simp] theorem State.get_with_clocks (s : State) (x : Clocks) (g : Fld) : State.get { s with clocks := x } g = s.get g := rfl
@[simp] theorem State.on_with_clocks (s : State) (x : Clocks) (g : Fld) : State.on { s with clocks := x } g = s.on g := rfl
@[simp] theorem State.word_with_rubrics (s : State) (x : Tab Rubric) (a : Nat) : State.word { s with rubrics := x } a = s.word a := rfl
@[simp] theorem State.get_with_rubrics (s : State) (x : Tab Rubric) (g : Fld) : State.get { s with rubrics := x } g = s.get g := rfl
@[simp] theorem State.on_with_rubrics (s : State) (x : Tab Rubric) (g : Fld) : State.on { s with rubrics := x } g = s.on g := rfl
@[simp] theorem State.word_with_scribes (s : State) (x : Scribes) (a : Nat) : State.word { s with scribes := x } a = s.word a := rfl
@[simp] theorem State.get_with_scribes (s : State) (x : Scribes) (g : Fld) : State.get { s with scribes := x } g = s.get g := rfl
@[simp] theorem State.on_with_scribes (s : State) (x : Scribes) (g : Fld) : State.on { s with scribes := x } g = s.on g := rfl
@[simp] theorem State.word_with_queues (s : State) (x : Queues) (a : Nat) : State.word { s with queues := x } a = s.word a := rfl
@[simp] theorem State.get_with_queues (s : State) (x : Queues) (g : Fld) : State.get { s with queues := x } g = s.get g := rfl
@[simp] theorem State.on_with_queues (s : State) (x : Queues) (g : Fld) : State.on { s with queues := x } g = s.on g := rfl
@[simp] theorem State.word_with_cores (s : State) (x : Tab CoreState) (a : Nat) : State.word { s with cores := x } a = s.word a := rfl
@[simp] theorem State.get_with_cores (s : State) (x : Tab CoreState) (g : Fld) : State.get { s with cores := x } g = s.get g := rfl
@[simp] theorem State.on_with_cores (s : State) (x : Tab CoreState) (g : Fld) : State.on { s with cores := x } g = s.on g := rfl
@[simp] theorem State.word_with_out (s : State) (x : List Output) (a : Nat) : State.word { s with out := x } a = s.word a := rfl
@[simp] theorem State.get_with_out (s : State) (x : List Output) (g : Fld) : State.get { s with out := x } g = s.get g := rfl
@[simp] theorem State.on_with_out (s : State) (x : List Output) (g : Fld) : State.on { s with out := x } g = s.on g := rfl
@[simp] theorem State.word_with_free (s : State) (x : Nat) (a : Nat) : State.word { s with free := x } a = s.word a := rfl
@[simp] theorem State.get_with_free (s : State) (x : Nat) (g : Fld) : State.get { s with free := x } g = s.get g := rfl
@[simp] theorem State.on_with_free (s : State) (x : Nat) (g : Fld) : State.on { s with free := x } g = s.on g := rfl
@[simp] theorem State.word_with_pending (s : State) (x : List Instr) (a : Nat) : State.word { s with pending := x } a = s.word a := rfl
@[simp] theorem State.get_with_pending (s : State) (x : List Instr) (g : Fld) : State.get { s with pending := x } g = s.get g := rfl
@[simp] theorem State.on_with_pending (s : State) (x : List Instr) (g : Fld) : State.on { s with pending := x } g = s.on g := rfl

/-! ### Registers -/

@[simp] theorem State.word_setWord (s : State) (a : Nat) (w : BitVec 64) : (s.setWord a w).word a = w := by
  simp [State.word, State.setWord]

theorem State.word_setWord_ne (s : State) {a b : Nat} (w : BitVec 64) (h : b ≠ a) : (s.setWord a w).word b = s.word b := by
  simp [State.word, State.setWord, Tab.find_put_ne _ _ _ h]

@[simp] theorem State.word_put (s : State) (f : Fld) (v : Nat) :
    (s.put f v).word f.addr = putField (s.word f.addr) f.lo f.width v := by
  simp [State.put]

theorem State.word_put_ne (s : State) (f : Fld) (v : Nat) {a : Nat} (h : a ≠ f.addr) : (s.put f v).word a = s.word a :=
  State.word_setWord_ne s _ h

theorem State.get_setWord (s : State) (f : Fld) (w : BitVec 64) :
    (s.setWord f.addr w).get f = (w.extractLsb' f.lo f.width).toNat := by
  simp [State.get]

theorem State.get_setWord_ne (s : State) (f : Fld) {a : Nat} (w : BitVec 64) (h : f.addr ≠ a) :
    (s.setWord a w).get f = s.get f := by
  simp [State.get, State.word_setWord_ne s w h]

theorem putField_getLsbD (w : BitVec 64) (lo width v i : Nat) (hi : i < 64) :
    (putField w lo width v).getLsbD i = if lo ≤ i ∧ i < lo + width then v.testBit (i - lo) else w.getLsbD i := by
  simp only [putField, BitVec.getLsbD_or, BitVec.getLsbD_and, BitVec.getLsbD_not, BitVec.getLsbD_shiftLeft,
    BitVec.getLsbD_ofNat, Nat.testBit_two_pow_sub_one, Nat.testBit_mod_two_pow, hi, decide_true, Bool.true_and]
  by_cases h1 : lo ≤ i
  · by_cases h2 : i < lo + width
    · have h3 : i - lo < 64 := by omega
      have h4 : ¬ i < lo := by omega
      have h5 : i - lo < width := by omega
      simp [h1, h2, h3, h4, h5]
    · have h4 : ¬ i < lo := by omega
      have h5 : ¬ i - lo < width := by omega
      simp [h1, h2, h4, h5]
  · have h4 : i < lo := by omega
    simp [h1, h4]

/-- A field reads what was written to it. -/
theorem State.get_put (s : State) (f : Fld) (v : Nat) (h : f.lo + f.width ≤ 64) : (s.put f v).get f = v % 2 ^ f.width := by
  simp only [State.get, State.word_put]
  apply Nat.eq_of_testBit_eq
  intro i
  rw [← BitVec.getLsbD, BitVec.getLsbD_extractLsb', Nat.testBit_mod_two_pow]
  by_cases hi : i < f.width
  · rw [putField_getLsbD _ _ _ _ _ (by omega)]
    have : f.lo ≤ f.lo + i ∧ f.lo + i < f.lo + f.width := by omega
    simp [hi, this]
  · simp [hi]

/-- Another field of the register keeps its value. -/
theorem State.get_put_bits (s : State) (f g : Fld) (v : Nat) (ha : g.addr = f.addr) (hg : g.lo + g.width ≤ 64)
    (h : g.lo + g.width ≤ f.lo ∨ f.lo + f.width ≤ g.lo) : (s.put f v).get g = s.get g := by
  simp only [State.get]
  rw [ha, State.word_put]
  apply Nat.eq_of_testBit_eq
  intro i
  rw [← BitVec.getLsbD, ← BitVec.getLsbD, BitVec.getLsbD_extractLsb', BitVec.getLsbD_extractLsb']
  by_cases hi : i < g.width
  · rw [putField_getLsbD _ _ _ _ _ (by omega)]
    have : ¬ (f.lo ≤ g.lo + i ∧ g.lo + i < f.lo + f.width) := by omega
    simp [hi, this]
  · simp [hi]

/-- A field of another register keeps its value. -/
theorem State.get_put_addr (s : State) (f g : Fld) (v : Nat) (h : g.addr ≠ f.addr) : (s.put f v).get g = s.get g :=
  State.get_setWord_ne s g _ h

/-- A field holds a value of its width. -/
theorem State.get_lt (s : State) (f : Fld) : s.get f < 2 ^ f.width := by
  simpa [State.get] using (BitVec.extractLsb' f.lo f.width (s.word f.addr)).isLt

end Sys2Proof.Machine
end

