-- ==== Sys2Proof/Laws/Conditions.lean ====
section
/-! SUPPORT. What the shared operations do under the conditions that statements name: a core that is ready issues its
instruction, a mailbox under service runs its command, a message that reaches the responder is served. -/

namespace Sys2Proof.Machine

theorem core_setCore (s : State) (k : Nat) (c : CoreState) : core (setCore s k c) k = c := by
  simp [core, setCore]

/-- An instruction that a ready core can issue acts on the core's state, and its operands are not awaited. -/
theorem issue_ready (s : State) (r : CoreRun) (n : Needs) (f : State → CoreState → State) (h : Ready s r n.len)
    (hs : n.scribeOnly = true → r.core.val < 8) (hv : n.vector = true → 8 ≤ r.core.val) :
    issue s r n f = f s (core s r.core) := by
  obtain ⟨h1, h2, h3, h4, h5, h6, h7⟩ := h
  have hf : failedAccess s r.core = none := by simp [failedAccess, h3]
  unfold issue
  simp only [h1, h2, h3, hf, h6, h7, awaited, awaitedV, eccCorrected]
  have h8 : (decide (8 ≤ r.core.val) && (core s r.core).pc == completionAddress) = false := by
    rcases h4 with h | h
    · simp; omega
    · simp [h]
  rw [h8, if_neg (by simp), if_neg (by omega)]
  have h9 : (n.scribeOnly && decide (8 ≤ r.core.val)) = false := by
    cases hh : n.scribeOnly <;> simp; have := hs hh; omega
  have h10 : (n.vector && decide (r.core.val < 8)) = false := by
    cases hh : n.vector <;> simp; have := hv hh; omega
  simp [h9, h10]

/-- A ready core computes a register from register values and passes the instruction. -/
theorem compute_ready (s : State) (r : CoreRun) (len : Nat) (reads : List Nat) (d : Nat) (g : CoreState → BitVec 64) (h : Ready s r len) :
    compute s r len reads d g = advance s r.core len fun x => x.setW d (g (core s r.core)) :=
  issue_ready s r { len := len, reads := reads } _ h (by simp) (by simp)

/-- A precise fault with nothing outstanding, traps enabled and a handler is saved and goes to the handler. -/
theorem fault_handled (s : State) (k cause access : Nat) (faddr : BitVec 64) (ho : (core s k).outstanding = [])
    (he : (core s k).enable = true) (ht : (core s k).tvec ≠ 0) (hc : cause ≠ 0x0D) :
    fault s k cause access faddr = setCore s k { core s k with
      epc := (core s k).pc, cause := Trap.word { cause := cause, access := access, faddr := faddr, epc := (core s k).pc }
      faddr := faddr, enable := false, pc := (core s k).tvec } := by
  unfold fault raiseTrap
  simp only [ho, he]
  rw [if_pos (by rfl), if_neg hc, if_neg (by decide), if_neg ht]

/-- A mailbox under service runs the command and is finished with its result. -/
theorem serve_serving (s : State) (n op : Nat) (ready : Bool) (f) (h : Serving s n op) (hr : ready = true) :
    serve s n op ready f = finish (f s (payload s n)).1 n (f s (payload s n)).2.ret (f s (payload s n)).2.detail (f s (payload s n)).2.resp := by
  obtain ⟨h1, h2, h3, h4, h5⟩ := h
  have h6 : (box s n).since.isNone = false := by cases hh : (box s n).since <;> simp_all
  simp only [serve, h1, h6, h3, h4, hr, h5]; simp

/-- The same for a command that may go on after its first answer. -/
theorem serveLong_serving (s : State) (n op : Nat) (ready : Bool) (f) (h : Serving s n op) (hr : ready = true) :
    serveLong s n op ready f = match f s (payload s n) with
  | (s, some ret) => finish s n ret 0 []
  | (s, none) => s := by
  obtain ⟨h1, h2, h3, h4, h5⟩ := h
  have h6 : (box s n).since.isNone = false := by cases hh : (box s n).since <;> simp_all
  simp only [serveLong, h1, h6, h3, h4, hr, h5]; simp <;> rfl

/-- A message that reaches the responder is served. -/
theorem accept_reached (s : State) (e : Envelope) (c b : Bool) (f : State → State) (h : Reached s e c b) : accept s e c b f = f s := by
  obtain ⟨h1, h2, h3, h4⟩ := h
  rcases h4 with h4 | ⟨h5, h6, h7, p, h8, h9, h10⟩
  · simp [accept, h1, h4, takeMessage, h3]; omega
  · simp [accept, h6, h7, h8, h9, h10, h5, takeMessage, h3]; omega

/-- A PLDM Type 5 request that reaches the responder in a state that serves it. -/
theorem pldmFive_reached (s : State) (e : Envelope) (f) (h : Reached s e false false) (hz : e.size ≤ 1024)
    (hr : rubricServes s = true ∨ s.boot.stage = .recovery ∧ s.power.rails = .up ∧ s.fatal = false) : pldmFive s e f = f s := by
  unfold pldmFive; rw [accept_reached s e _ _ _ h, if_neg, if_neg (by omega)]
  rcases hr with h | ⟨h1, h2, h3⟩ <;> simp [*, inRecovery]

end Sys2Proof.Machine
end

