-- ==== Sys2Proof/Laws/Kept.lean ====
section
/-! SUPPORT. What every meaning keeps, as one relation between the state before and the state after, and the lemmas that
carry it through the forms definitions are built from. The files KeptX hold one lemma for each state function of
module X. -/

namespace Sys2Proof.Machine

/-- What no command changes or takes back: the variant (R2), the queue, the messages sent, the free values drawn, and
the canonical forms of the desk and the media. -/
structure Kept (s t : State) : Prop where
  variant : t.variant = s.variant
  pending : t.pending = s.pending
  free : s.free ≤ t.free
  out : s.out <+: t.out
  desk : s.deskWf = true → t.deskWf = true
  media : Memory.wf s.media = true → Memory.wf t.media = true

/-- An outcome that goes on, to a state that keeps what every step keeps. -/
def Ends (s : State) (o : Host.Outcome State Fault Refusal) : Prop := ∃ t, o = .next t ∧ Kept s t

theorem Kept.refl (s : State) : Kept s s := ⟨rfl, rfl, Nat.le_refl _, List.prefix_rfl, id, id⟩

theorem Kept.trans {s t u : State} (h : Kept s t) (k : Kept t u) : Kept s u :=
  ⟨k.variant.trans h.variant, k.pending.trans h.pending, h.free.trans k.free, h.out.trans k.out,
    fun x => k.desk (h.desk x), fun x => k.media (h.media x)⟩

theorem Ends.next {s t : State} (h : Kept s t) : Ends s (.next t) := ⟨t, rfl, h⟩

theorem Kept.cut {s x : State} {G : Prop} (h : Kept s x) (k : Kept s x → G) : G := k h

theorem Kept.ite {s a b : State} {c : Prop} [Decidable c] (h : Kept s a) (k : Kept s b) :
    Kept s (if c then a else b) := by
  split <;> assumption

theorem Kept.ite_fst {α : Type} {s : State} {a b : State × α} {c : Prop} [Decidable c] (h : Kept s a.1) (k : Kept s b.1) :
    Kept s (if c then a else b).1 := by
  split <;> assumption

theorem Kept.of_fst {α : Type} {s a : State} {p : State × α} {b : α} (e : p = (a, b)) (h : Kept s p.1) : Kept s a := by
  rw [e] at h
  exact h

theorem Kept.of_snd {α : Type} {s a : State} {p : α × State} {b : α} (e : p = (b, a)) (h : Kept s p.2) : Kept s a := by
  rw [e] at h
  exact h

/-- A state that differs only in fields the relation does not name. -/
theorem Kept.upd {s t : State} (h : Kept s t) {a b c d e f g i j k l m n o p q r u v w x y z} :
    Kept s (State.mk t.variant t.desk a b t.media c d e f g i j k l m n o p q r u v w x y z t.out t.free t.pending) :=
  ⟨h.variant, h.pending, h.free, h.out, h.desk, h.media⟩

/-- The same, with free values drawn. -/
theorem Kept.draw {s t : State} (h : Kept s t) {a b c d e f g i j k l m n o p q r u v w x y z free} :
    Kept s (State.mk t.variant t.desk a b t.media c d e f g i j k l m n o p q r u v w x y z t.out (t.free + free) t.pending) :=
  ⟨h.variant, h.pending, h.free.trans (Nat.le_add_right _ _), h.out, h.desk, h.media⟩

theorem Kept.filterMedia {s t : State} (h : Kept s t) (p : Nat × Codeword → Bool) :
    Kept s { t with media := t.media.filter p } :=
  ⟨h.variant, h.pending, h.free, h.out, h.desk, fun x => Tab.canon_filter p (h.media x)⟩

theorem foldl_kept {α : Type} {s t : State} {l : List α} {f : State → α → State} (h : Kept s t)
    (hf : ∀ x a, Kept s x → Kept s (f x a)) : Kept s (l.foldl f t) := by
  induction l generalizing t with
  | nil => exact h
  | cons a r ih => exact ih (hf t a h)

theorem foldl_kept_fst {α β : Type} {s : State} {t : State × β} {l : List α} {f : State × β → α → State × β} (h : Kept s t.1)
    (hf : ∀ x a, Kept s x.1 → Kept s (f x a).1) : Kept s (l.foldl f t).1 := by
  induction l generalizing t with
  | nil => exact h
  | cons a r ih => exact ih (hf t a h)

/-! ### The operations of Ops and Media -/

theorem State.setWord_kept {s t : State} {a : Nat} {w : BitVec 64} (h : Kept s t) : Kept s (t.setWord a w) :=
  ⟨h.variant, h.pending, h.free, h.out, fun x => Tab.canon_put (d := resetAt t.variant) a w (h.desk x), h.media⟩

theorem State.send_kept {s t : State} {o : Output} (h : Kept s t) : Kept s (t.send o) :=
  ⟨h.variant, h.pending, h.free, h.out.trans (List.prefix_append _ _), h.desk, h.media⟩

theorem State.drew_kept {s t : State} (h : Kept s t) : Kept s t.drew := Kept.draw h

theorem State.each_kept {α : Type} {s t : State} {l : List α} {f : State → α → State} (h : Kept s t)
    (hf : ∀ x a, Kept s x → Kept s (f x a)) : Kept s (t.each l f) := foldl_kept h hf

theorem State.when_kept {s t : State} {c : Bool} {f : State → State} (h : Kept s t)
    (hf : ∀ x, Kept s x → Kept s (f x)) : Kept s (t.when c f) := Kept.ite (hf t h) h

theorem setLine_kept {s t : State} {l : Loc} {i : Nat} {m : MediaLine} (h : Kept s t) : Kept s (setLine t l i m) :=
  ⟨h.variant, h.pending, h.free, h.out, h.desk, fun x => Tab.canon_put (α := Codeword) (d := fun _ => {}) (l.addr i) m.coded (h.media x)⟩

end Sys2Proof.Machine
end

