-- ==== Sys2Proof/Laws/KeptOps.lean ====
section
/-! SUPPORT. What every step keeps, through the functions of Ops. -/

set_option linter.all false
set_option maxRecDepth 8000

namespace Sys2Proof.Machine

theorem State.put_kept {f : Fld} {v : Nat} {s0 s : State} (h : Kept s0 s) :
    Kept s0 (State.put s f v) := by
  unfold State.put
  with_reducible repeat' first
    | exact h
    | refine State.setWord_kept ?_

theorem State.putB_kept {f : Fld} {b : Bool} {s0 s : State} (h : Kept s0 s) :
    Kept s0 (State.putB s f b) := by
  unfold State.putB
  with_reducible repeat' first
    | exact h
    | refine State.put_kept ?_

theorem State.inc_kept {f : Fld} {k : Nat} {s0 s : State} (h : Kept s0 s) :
    Kept s0 (State.inc s f k) := by
  unfold State.inc
  with_reducible repeat' first
    | exact h
    | refine State.put_kept ?_

theorem State.incW_kept {f : Fld} {k : Nat} {s0 s : State} (h : Kept s0 s) :
    Kept s0 (State.incW s f k) := by
  unfold State.incW
  with_reducible repeat' first
    | exact h
    | refine State.put_kept ?_

theorem State.dec_kept {f : Fld} {k : Nat} {s0 s : State} (h : Kept s0 s) :
    Kept s0 (State.dec s f k) := by
  unfold State.dec
  with_reducible repeat' first
    | exact h
    | refine State.put_kept ?_

theorem State.setFlag_kept {f : Fld} {i : Nat} {b : Bool} {s0 s : State} (h : Kept s0 s) :
    Kept s0 (State.setFlag s f i b) := by
  unfold State.setFlag
  with_reducible repeat' first
    | exact h
    | refine State.put_kept ?_

theorem State.timed_kept {s0 s : State} (h : Kept s0 s) :
    Kept s0 (State.timed s) := by
  unfold State.timed
  with_reducible repeat' first
    | exact h
    | refine State.drew_kept ?_
    | (refine Kept.upd ?_; first | assumption | refine State.drew_kept ?_)

theorem State.passed_kept {tick : Nat} {s0 s : State} (h : Kept s0 s) :
    Kept s0 (State.passed s tick) := by
  unfold State.passed
  with_reducible repeat' first
    | exact h
    | (refine Kept.upd ?_; first | assumption)

end Sys2Proof.Machine
end

