-- ==== Sys2Proof/Laws/KeptBlotter.lean ====
section
/-! SUPPORT. What every step keeps, through the functions of Blotter. -/

set_option linter.all false
set_option maxRecDepth 8000

namespace Sys2Proof.Machine

theorem queueEvent_kept {k : Nat} {d : BitVec 64} {s0 s : State} (h : Kept s0 s) :
    Kept s0 (queueEvent s k d) := by
  unfold queueEvent
  with_reducible repeat' first
    | exact h
    | refine Kept.ite ?_ ?_
    | assumption
    | (intro hx; clear_value x)
    | (intro x; refine Kept.cut (s := s0) (x := x) ?_ ?_)
    | (intro x; refine Kept.cut (s := s0) (x := x.1) ?_ ?_)
    | (intro x; clear_value x)
    | lift_lets -underBinder
    | split
    | refine Kept.of_fst (by assumption) ?_
    | (unfold x; split)
    | (refine Kept.upd ?_; first | assumption | refine Kept.ite ?_ ?_ | (refine Kept.upd ?_; first | assumption))

theorem toCxlLogs_kept {r : Record} {s0 s : State} (h : Kept s0 s) :
    Kept s0 (toCxlLogs s r) := by
  unfold toCxlLogs
  with_reducible repeat' first
    | exact h
    | refine State.each_kept ?_ (fun x a hx => ?_)
    | refine Kept.ite ?_ ?_
    | assumption
    | (intro hx; clear_value x)
    | (intro x; refine Kept.cut (s := s0) (x := x) ?_ ?_)
    | (intro x; refine Kept.cut (s := s0) (x := x.1) ?_ ?_)
    | (intro x; clear_value x)
    | lift_lets -underBinder
    | split
    | refine Kept.of_fst (by assumption) ?_
    | (refine Kept.upd ?_; first | assumption | refine State.each_kept ?_ (fun x a hx => ?_) | refine Kept.ite ?_ ?_ | (refine Kept.upd ?_; first | assumption | refine State.each_kept ?_ (fun x a hx => ?_)))

theorem driveAlert_kept {s0 s : State} (h : Kept s0 s) :
    Kept s0 (driveAlert s) := by
  unfold driveAlert
  with_reducible repeat' first
    | exact h
    | assumption
    | (intro hx; clear_value x)
    | (intro x; refine Kept.cut (s := s0) (x := x) ?_ ?_)
    | (intro x; refine Kept.cut (s := s0) (x := x.1) ?_ ?_)
    | (intro x; clear_value x)
    | lift_lets -underBinder
    | (refine Kept.upd ?_; first | assumption)

theorem countMinute_kept {c : Nat} {s0 s : State} (h : Kept s0 s) :
    Kept s0 (countMinute s c) := by
  unfold countMinute
  with_reducible repeat' first
    | exact h
    | split
    | (refine Kept.upd ?_; first | assumption)

theorem toColophon_kept {b : ColBody} {s0 s : State} (h : Kept s0 s) :
    Kept s0 (toColophon s b) := by
  unfold toColophon
  with_reducible repeat' first
    | exact h
    | (refine Kept.upd ?_; first | assumption)

theorem countPort_kept {p : Nat} {uncorrectable : Nat} {replays : Nat} {lanes : Nat} {downs : Nat} {s0 s : State} (h : Kept s0 s) :
    Kept s0 (countPort s p uncorrectable replays lanes downs) := by
  unfold countPort
  with_reducible repeat' first
    | exact h
    | assumption
    | (intro hx; clear_value x)
    | (intro x; refine Kept.cut (s := s0) (x := x) ?_ ?_)
    | (intro x; refine Kept.cut (s := s0) (x := x.1) ?_ ?_)
    | (intro x; clear_value x)
    | lift_lets -underBinder
    | split
    | refine Kept.of_fst (by assumption) ?_
    | (refine Kept.upd ?_; first | assumption)

theorem sendViral_kept {s0 s : State} (h : Kept s0 s) :
    Kept s0 (sendViral s) := by
  unfold sendViral
  with_reducible repeat' first
    | exact h
    | refine State.put_kept ?_
    | refine State.send_kept ?_
    | refine State.each_kept ?_ (fun x a hx => ?_)
    | refine Kept.ite ?_ ?_
    | assumption
    | (intro hx; clear_value x)
    | (intro x; refine Kept.cut (s := s0) (x := x) ?_ ?_)
    | (intro x; refine Kept.cut (s := s0) (x := x.1) ?_ ?_)
    | (intro x; clear_value x)
    | lift_lets -underBinder
    | split

theorem haltCluster_kept {c : Nat} {s0 s : State} (h : Kept s0 s) :
    Kept s0 (haltCluster s c) := by
  unfold haltCluster
  with_reducible repeat' first
    | exact h
    | refine State.put_kept ?_
    | refine State.each_kept ?_ (fun x a hx => ?_)
    | refine Kept.ite ?_ ?_
    | assumption
    | (intro hx; clear_value x)
    | (intro x; refine Kept.cut (s := s0) (x := x) ?_ ?_)
    | (intro x; refine Kept.cut (s := s0) (x := x.1) ?_ ?_)
    | (intro x; clear_value x)
    | lift_lets -underBinder
    | split

theorem haltAll_kept {s0 s : State} (h : Kept s0 s) :
    Kept s0 (haltAll s) := by
  unfold haltAll
  with_reducible repeat' first
    | exact h
    | refine State.put_kept ?_
    | refine State.each_kept ?_ (fun x a hx => ?_)
    | refine haltCluster_kept ?_
    | refine Kept.ite ?_ ?_
    | assumption
    | (intro hx; clear_value x)
    | (intro x; refine Kept.cut (s := s0) (x := x) ?_ ?_)
    | (intro x; refine Kept.cut (s := s0) (x := x.1) ?_ ?_)
    | (intro x; clear_value x)
    | lift_lets -underBinder
    | split
    | refine Kept.of_fst (by assumption) ?_
    | (refine Kept.upd ?_; first | assumption | refine State.put_kept ?_ | refine State.each_kept ?_ (fun x a hx => ?_) | refine haltCluster_kept ?_ | refine Kept.ite ?_ ?_ | (refine Kept.upd ?_; first | assumption | refine State.put_kept ?_ | refine State.each_kept ?_ (fun x a hx => ?_) | refine haltCluster_kept ?_))

theorem fatalSequence_kept {r : Record} {before : List Record} {s0 s : State} (h : Kept s0 s) :
    Kept s0 (fatalSequence s r before) := by
  unfold fatalSequence
  with_reducible repeat' first
    | exact h
    | refine State.put_kept ?_
    | refine State.timed_kept ?_
    | refine toColophon_kept ?_
    | refine sendViral_kept ?_
    | refine haltAll_kept ?_
    | refine foldl_kept ?_ fun x a hx => ?_
    | refine foldl_kept_fst ?_ fun x a hx => ?_
    | assumption
    | (intro hx; clear_value x)
    | (intro x; refine Kept.cut (s := s0) (x := x) ?_ ?_)
    | (intro x; refine Kept.cut (s := s0) (x := x.1) ?_ ?_)
    | (intro x; clear_value x)
    | lift_lets -underBinder
    | (refine Kept.upd ?_; first | assumption | refine State.put_kept ?_ | refine State.timed_kept ?_ | refine toColophon_kept ?_ | refine sendViral_kept ?_ | refine haltAll_kept ?_)

theorem actOn_kept {r : Record} {before : List Record} {s0 s : State} (h : Kept s0 s) :
    Kept s0 (actOn s r before) := by
  unfold actOn
  with_reducible repeat' first
    | exact h
    | refine State.setFlag_kept ?_
    | refine queueEvent_kept ?_
    | refine toCxlLogs_kept ?_
    | refine driveAlert_kept ?_
    | refine countMinute_kept ?_
    | refine toColophon_kept ?_
    | refine fatalSequence_kept ?_
    | refine Kept.ite ?_ ?_
    | assumption
    | (intro hx; clear_value x)
    | (intro x; refine Kept.cut (s := s0) (x := x) ?_ ?_)
    | (intro x; refine Kept.cut (s := s0) (x := x.1) ?_ ?_)
    | (intro x; clear_value x)
    | lift_lets -underBinder
    | split
    | (refine Kept.upd ?_; first | assumption | refine State.setFlag_kept ?_ | refine queueEvent_kept ?_ | refine toCxlLogs_kept ?_ | refine driveAlert_kept ?_ | refine countMinute_kept ?_ | refine toColophon_kept ?_ | refine fatalSequence_kept ?_ | refine Kept.ite ?_ ?_)

theorem record_kept {e : Event} {sev : Nat} {cap : Bool} {s0 s : State} (h : Kept s0 s) :
    Kept s0 (record s e sev cap) := by
  unfold record
  with_reducible repeat' first
    | exact h
    | refine State.put_kept ?_
    | refine State.inc_kept ?_
    | refine State.timed_kept ?_
    | refine actOn_kept ?_
    | assumption
    | (intro hx; clear_value x)
    | (intro x; refine Kept.cut (s := s0) (x := x) ?_ ?_)
    | (intro x; refine Kept.cut (s := s0) (x := x.1) ?_ ?_)
    | (intro x; clear_value x)
    | lift_lets -underBinder
    | (refine Kept.upd ?_; first | assumption | refine State.put_kept ?_ | refine State.inc_kept ?_ | refine State.timed_kept ?_ | refine actOn_kept ?_)

theorem latch_kept {e : Event} {sev : Nat} {s0 s : State} (h : Kept s0 s) :
    Kept s0 (latch s e sev) := by
  unfold latch
  with_reducible repeat' first
    | exact h
    | refine State.put_kept ?_
    | assumption
    | (intro hx; clear_value x)
    | (intro x; refine Kept.cut (s := s0) (x := x) ?_ ?_)
    | (intro x; refine Kept.cut (s := s0) (x := x.1) ?_ ?_)
    | (intro x; clear_value x)
    | lift_lets -underBinder
    | (refine Kept.upd ?_; first | assumption | refine State.put_kept ?_)

theorem absorb_kept {src : Nat} {s0 s : State} (h : Kept s0 s) :
    Kept s0 (absorb s src) := by
  unfold absorb
  with_reducible repeat' first
    | exact h
    | refine State.put_kept ?_
    | refine State.inc_kept ?_
    | assumption
    | (intro hx; clear_value x)
    | (intro x; refine Kept.cut (s := s0) (x := x) ?_ ?_)
    | (intro x; refine Kept.cut (s := s0) (x := x.1) ?_ ?_)
    | (intro x; clear_value x)
    | lift_lets -underBinder
    | (refine Kept.upd ?_; first | assumption | refine State.put_kept ?_ | refine State.inc_kept ?_)

theorem recordOwn_kept {type : Nat} {detail : Nat} {s0 s : State} (h : Kept s0 s) :
    Kept s0 (recordOwn s type detail) := by
  unfold recordOwn
  with_reducible repeat' first
    | exact h
    | refine record_kept ?_

theorem reportOne_kept {e : Event} {s0 s : State} (h : Kept s0 s) :
    Kept s0 (reportOne s e) := by
  unfold reportOne
  with_reducible repeat' first
    | exact h
    | refine record_kept ?_
    | refine latch_kept ?_
    | refine absorb_kept ?_
    | refine recordOwn_kept ?_
    | refine Kept.ite ?_ ?_
    | assumption
    | (intro hx; clear_value x)
    | (intro x; refine Kept.cut (s := s0) (x := x) ?_ ?_)
    | (intro x; refine Kept.cut (s := s0) (x := x.1) ?_ ?_)
    | (intro x; clear_value x)
    | lift_lets -underBinder
    | split
    | (refine Kept.upd ?_; first | assumption | refine record_kept ?_ | refine latch_kept ?_ | refine absorb_kept ?_ | refine recordOwn_kept ?_ | refine Kept.ite ?_ ?_ | (refine Kept.upd ?_; first | assumption | refine record_kept ?_ | refine latch_kept ?_ | refine absorb_kept ?_ | refine recordOwn_kept ?_))

theorem drainOverflow_kept {s0 s : State} (h : Kept s0 s) :
    Kept s0 (drainOverflow s) := by
  unfold drainOverflow
  with_reducible repeat' first
    | exact h
    | refine State.each_kept ?_ (fun x a hx => ?_)
    | refine reportOne_kept ?_
    | assumption
    | (intro hx; clear_value x)
    | (intro x; refine Kept.cut (s := s0) (x := x) ?_ ?_)
    | (intro x; refine Kept.cut (s := s0) (x := x.1) ?_ ?_)
    | (intro x; clear_value x)
    | lift_lets -underBinder
    | split
    | refine Kept.of_fst (by assumption) ?_
    | (unfold x; split)
    | (refine Kept.upd ?_; first | assumption | refine State.each_kept ?_ (fun x a hx => ?_) | refine reportOne_kept ?_ | (refine Kept.upd ?_; first | assumption | refine State.each_kept ?_ (fun x a hx => ?_) | refine reportOne_kept ?_))

theorem report_kept {e : Event} {s0 s : State} (h : Kept s0 s) :
    Kept s0 (report s e) := by
  unfold report
  with_reducible repeat' first
    | exact h
    | refine reportOne_kept ?_
    | refine drainOverflow_kept ?_

theorem postEvent_kept {k : Nat} {d : BitVec 64} {s0 s : State} (h : Kept s0 s) :
    Kept s0 (postEvent s k d) := by
  unfold postEvent
  with_reducible repeat' first
    | exact h
    | refine queueEvent_kept ?_
    | refine drainOverflow_kept ?_

theorem event_kept {type : Nat} {source : Nat} {detail : Nat} {s0 s : State} (h : Kept s0 s) :
    Kept s0 (event s type source detail) := by
  unfold event
  with_reducible repeat' first
    | exact h
    | refine report_kept ?_

theorem eventOnce_kept {type : Nat} {source : Nat} {unit : Nat} {detail : Nat} {s0 s : State} (h : Kept s0 s) :
    Kept s0 (eventOnce s type source unit detail) := by
  unfold eventOnce
  with_reducible repeat' first
    | exact h
    | refine event_kept ?_
    | refine Kept.ite ?_ ?_
    | refine Kept.ite_fst ?_ ?_
    | assumption
    | (intro hx; clear_value x)
    | (intro x; refine Kept.cut (s := s0) (x := x) ?_ ?_)
    | (intro x; refine Kept.cut (s := s0) (x := x.1) ?_ ?_)
    | (intro x; clear_value x)
    | lift_lets -underBinder
    | split
    | (refine Kept.upd ?_; first | assumption | refine event_kept ?_ | refine Kept.ite ?_ ?_)

theorem openEvent_kept {source : Nat} {sev : Nat} {master : Option Nat} {access : Nat} {detail : Nat} {s0 s : State} (h : Kept s0 s) :
    Kept s0 (openEvent s source sev master access detail) := by
  unfold openEvent
  with_reducible repeat' first
    | exact h
    | refine State.drew_kept ?_
    | refine report_kept ?_

theorem deskRefused_kept {master : Nat} {access : Nat} {addr : Nat} {s0 s : State} (h : Kept s0 s) :
    Kept s0 (deskRefused s master access addr) := by
  unfold deskRefused
  with_reducible repeat' first
    | exact h
    | refine report_kept ?_

theorem notice_kept {source : Nat} {s0 s : State} (h : Kept s0 s) :
    Kept s0 (notice s source) := by
  unfold notice
  with_reducible repeat' first
    | exact h
    | refine openEvent_kept ?_

theorem execBlotterReport_ends {type : Fin 384} {source : Fin 608} {master : Option (BitVec 16)} {access : Fin 10} {dpa : Option (BitVec 52)} {media : Option (BitVec 40)} {detail : BitVec 64} {queueFull : Bool} {s0 s : State} (h : Kept s0 s) :
    Ends s0 (execBlotterReport type source master access dpa media detail queueFull s) := by
  unfold execBlotterReport
  refine Ends.next ?_
  with_reducible repeat' first
    | exact h
    | refine report_kept ?_
    | refine Kept.ite ?_ ?_
    | split

theorem execWireFault_ends {source : Fin 608} {s0 s : State} (h : Kept s0 s) :
    Ends s0 (execWireFault source s) := by
  unfold execWireFault
  refine Ends.next ?_
  with_reducible repeat' first
    | exact h
    | refine State.put_kept ?_
    | refine State.inc_kept ?_
    | refine recordOwn_kept ?_
    | refine drainOverflow_kept ?_
    | refine Kept.ite ?_ ?_
    | assumption
    | (intro hx; clear_value x)
    | (intro x; refine Kept.cut (s := s0) (x := x) ?_ ?_)
    | (intro x; refine Kept.cut (s := s0) (x := x.1) ?_ ?_)
    | (intro x; clear_value x)
    | lift_lets -underBinder
    | split

theorem writeSeverity_kept {t : Nat} {w : BitVec 64} {s0 s : State} (h : Kept s0 s) :
    Kept s0 (writeSeverity s t w) := by
  unfold writeSeverity
  with_reducible repeat' first
    | exact h
    | refine State.put_kept ?_
    | refine event_kept ?_
    | refine notice_kept ?_
    | refine Kept.ite ?_ ?_
    | assumption
    | (intro hx; clear_value x)
    | (intro x; refine Kept.cut (s := s0) (x := x) ?_ ?_)
    | (intro x; refine Kept.cut (s := s0) (x := x.1) ?_ ?_)
    | (intro x; clear_value x)
    | lift_lets -underBinder
    | split
    | (refine Kept.upd ?_; first | assumption | refine State.put_kept ?_ | refine event_kept ?_ | refine notice_kept ?_ | refine Kept.ite ?_ ?_)

theorem execSeverityWrite_ends {type : Fin 384} {value : BitVec 64} {s0 s : State} (h : Kept s0 s) :
    Ends s0 (execSeverityWrite type value s) := by
  unfold execSeverityWrite
  refine Ends.next ?_
  with_reducible repeat' first
    | exact h
    | refine writeSeverity_kept ?_

theorem injectEvent_kept {writer : Option (Fin 8)} {w : BitVec 64} {s0 s : State} (h : Kept s0 s) :
    Kept s0 (injectEvent s writer w) := by
  unfold injectEvent
  with_reducible repeat' first
    | exact h
    | refine report_kept ?_
    | refine deskRefused_kept ?_
    | refine notice_kept ?_
    | refine Kept.ite ?_ ?_
    | assumption
    | (intro hx; clear_value x)
    | (intro x; refine Kept.cut (s := s0) (x := x) ?_ ?_)
    | (intro x; refine Kept.cut (s := s0) (x := x.1) ?_ ?_)
    | (intro x; clear_value x)
    | lift_lets -underBinder
    | split

theorem execEventInject_ends {writer : Option (Fin 8)} {value : BitVec 64} {s0 s : State} (h : Kept s0 s) :
    Ends s0 (execEventInject writer value s) := by
  unfold execEventInject
  refine Ends.next ?_
  with_reducible repeat' first
    | exact h
    | refine injectEvent_kept ?_

theorem clearLatch_kept {src : Nat} {s0 s : State} (h : Kept s0 s) :
    Kept s0 (clearLatch s src) := by
  unfold clearLatch
  with_reducible repeat' first
    | exact h
    | refine State.put_kept ?_
    | assumption
    | (intro hx; clear_value x)
    | (intro x; refine Kept.cut (s := s0) (x := x) ?_ ?_)
    | (intro x; refine Kept.cut (s := s0) (x := x.1) ?_ ?_)
    | (intro x; clear_value x)
    | lift_lets -underBinder
    | (refine Kept.upd ?_; first | assumption | refine State.put_kept ?_)

theorem execLatchClear_ends {source : Fin 608} {s0 s : State} (h : Kept s0 s) :
    Ends s0 (execLatchClear source s) := by
  unfold execLatchClear
  refine Ends.next ?_
  with_reducible repeat' first
    | exact h
    | refine clearLatch_kept ?_

theorem execLatchRearm_ends {source : Fin 608} {s0 s : State} (h : Kept s0 s) :
    Ends s0 (execLatchRearm source s) := by
  unfold execLatchRearm
  refine Ends.next ?_
  with_reducible repeat' first
    | exact h
    | refine clearLatch_kept ?_
    | refine Kept.ite ?_ ?_
    | assumption
    | (intro hx; clear_value x)
    | (intro x; refine Kept.cut (s := s0) (x := x) ?_ ?_)
    | (intro x; refine Kept.cut (s := s0) (x := x.1) ?_ ?_)
    | (intro x; clear_value x)
    | lift_lets -underBinder
    | split
    | refine Kept.of_fst (by assumption) ?_
    | (unfold x; split)

theorem clearAlert_kept {w : BitVec 64} {s0 s : State} (h : Kept s0 s) :
    Kept s0 (clearAlert s w) := by
  unfold clearAlert
  with_reducible repeat' first
    | exact h
    | refine State.put_kept ?_
    | refine driveAlert_kept ?_

theorem execAlertClear_ends {value : BitVec 64} {s0 s : State} (h : Kept s0 s) :
    Ends s0 (execAlertClear value s) := by
  unfold execAlertClear
  refine Ends.next ?_
  with_reducible repeat' first
    | exact h
    | refine clearAlert_kept ?_

end Sys2Proof.Machine
end

