-- ==== Sys2Proof/Laws/KeptAccounts.lean ====
section
/-! SUPPORT. What every step keeps, through the functions of Accounts. -/

set_option linter.all false
set_option maxRecDepth 8000

namespace Sys2Proof.Machine

theorem setAcct_kept {a : Nat} {x0 : Acct} {s0 s : State} (h : Kept s0 s) :
    Kept s0 (setAcct s a x0) := by
  unfold setAcct
  with_reducible repeat' first
    | exact h
    | (refine Kept.upd ?_; first | assumption)

theorem modAcct_kept {a : Nat} {f : Acct → Acct} {s0 s : State} (h : Kept s0 s) :
    Kept s0 (modAcct s a f) := by
  unfold modAcct
  with_reducible repeat' first
    | exact h
    | refine setAcct_kept ?_

theorem arrive_kept {a : Nat} {n : Nat} {s0 s : State} (h : Kept s0 s) :
    Kept s0 (arrive s a n) := by
  unfold arrive
  with_reducible repeat' first
    | exact h
    | refine modAcct_kept ?_
    | assumption
    | (refine Kept.upd ?_; first | assumption | refine modAcct_kept ?_)

theorem count_kept {a : Nat} {n : Nat} {s0 s : State} (h : Kept s0 s) :
    Kept s0 (count s a n) := by
  unfold count
  with_reducible repeat' first
    | exact h
    | refine modAcct_kept ?_
    | assumption
    | (refine Kept.upd ?_; first | assumption | refine modAcct_kept ?_)

theorem leave_kept {a : Nat} {n : Nat} {s0 s : State} (h : Kept s0 s) :
    Kept s0 (leave s a n) := by
  unfold leave
  with_reducible repeat' first
    | exact h
    | refine modAcct_kept ?_
    | assumption
    | (refine Kept.upd ?_; first | assumption | refine modAcct_kept ?_)

theorem chargeNow_kept {a : Nat} {n : Nat} {s0 s : State} (h : Kept s0 s) :
    Kept s0 (chargeNow s a n) := by
  unfold chargeNow
  with_reducible repeat' first
    | exact h
    | refine arrive_kept ?_
    | refine count_kept ?_

theorem resetLevels_kept {a : Nat} {s0 s : State} (h : Kept s0 s) :
    Kept s0 (resetLevels s a) := by
  unfold resetLevels
  with_reducible repeat' first
    | exact h
    | refine Kept.ite ?_ ?_
    | assumption
    | (intro hx; clear_value x)
    | (intro x; refine Kept.cut (s := s0) (x := x) ?_ ?_)
    | (intro x; refine Kept.cut (s := s0) (x := x.1) ?_ ?_)
    | (intro x; clear_value x)
    | lift_lets -underBinder
    | split
    | refine Kept.of_fst (by assumption) ?_
    | (refine Kept.upd ?_; first | assumption | refine Kept.ite ?_ ?_ | (refine Kept.upd ?_; first | assumption))

theorem admitStatus_kept {st : Nat} {res : Nat} {idx : Nat} {exc : Nat} {acc : Nat} {s0 s : State} (h : Kept s0 s) :
    Kept s0 (admitStatus s st res idx exc acc) := by
  unfold admitStatus
  with_reducible repeat' first
    | exact h
    | refine State.put_kept ?_

theorem admitAccount_kept {records : List (BitVec 64 × BitVec 64)} {cool : Bool} {s0 s : State} (h : Kept s0 s) :
    Kept s0 (admitAccount s records cool).1 := by
  unfold admitAccount
  with_reducible repeat' first
    | exact h
    | refine admitStatus_kept ?_
    | refine Kept.ite ?_ ?_
    | refine Kept.ite_fst ?_ ?_
    | assumption
    | (intro hx; clear_value x)
    | (intro x; refine Kept.cut (s := s0) (x := x) ?_ ?_)
    | (intro x; refine Kept.cut (s := s0) (x := x.1) ?_ ?_)
    | (intro x; clear_value x)
    | lift_lets -underBinder
    | split
    | refine Kept.of_fst (by assumption) ?_
    | (unfold x; split)
    | (refine Kept.upd ?_; first | assumption | refine admitStatus_kept ?_ | refine Kept.ite ?_ ?_)

theorem adjust_kept {a : Nat} {cfg : BitVec 64} {rate : BitVec 64} {s0 s : State} (h : Kept s0 s) :
    Kept s0 (adjust s a cfg rate).1 := by
  unfold adjust
  with_reducible repeat' first
    | exact h
    | refine modAcct_kept ?_
    | refine Kept.ite ?_ ?_
    | refine Kept.ite_fst ?_ ?_
    | assumption
    | (intro hx; clear_value x)
    | (intro x; refine Kept.cut (s := s0) (x := x) ?_ ?_)
    | (intro x; refine Kept.cut (s := s0) (x := x.1) ?_ ?_)
    | (intro x; clear_value x)
    | lift_lets -underBinder
    | split
    | (refine Kept.upd ?_; first | assumption | refine modAcct_kept ?_ | refine Kept.ite ?_ ?_)

theorem setTerms_kept {a : Nat} {cfg : BitVec 64} {rate : BitVec 64} {s0 s : State} (h : Kept s0 s) :
    Kept s0 (setTerms s a cfg rate) := by
  unfold setTerms
  with_reducible repeat' first
    | exact h
    | refine State.setWord_kept ?_

theorem reserveCells_kept {s0 s : State} (h : Kept s0 s) :
    Kept s0 (reserveCells s) := by
  unfold reserveCells
  with_reducible repeat' first
    | exact h
    | refine State.put_kept ?_
    | refine foldl_kept ?_ fun x a hx => ?_
    | refine foldl_kept_fst ?_ fun x a hx => ?_
    | assumption
    | (intro hx; clear_value x)
    | (intro x; refine Kept.cut (s := s0) (x := x) ?_ ?_)
    | (intro x; refine Kept.cut (s := s0) (x := x.1) ?_ ?_)
    | (intro x; clear_value x)
    | lift_lets -underBinder

theorem applyTerms_kept {c : BitVec 64} {r : BitVec 64} {s0 s : State} (h : Kept s0 s) :
    Kept s0 (applyTerms s c r) := by
  unfold applyTerms
  with_reducible repeat' first
    | exact h
    | refine State.setWord_kept ?_
    | refine State.put_kept ?_
    | refine State.setFlag_kept ?_
    | refine modAcct_kept ?_
    | refine setTerms_kept ?_
    | refine Kept.ite ?_ ?_
    | assumption
    | (intro hx; clear_value x)
    | (intro x; refine Kept.cut (s := s0) (x := x) ?_ ?_)
    | (intro x; refine Kept.cut (s := s0) (x := x.1) ?_ ?_)
    | (intro x; clear_value x)
    | lift_lets -underBinder
    | split
    | (refine Kept.upd ?_; first | assumption | refine State.setWord_kept ?_ | refine State.put_kept ?_ | refine State.setFlag_kept ?_ | refine modAcct_kept ?_ | refine setTerms_kept ?_ | refine Kept.ite ?_ ?_ | (refine Kept.upd ?_; first | assumption | refine State.setWord_kept ?_ | refine State.put_kept ?_ | refine State.setFlag_kept ?_ | refine modAcct_kept ?_ | refine setTerms_kept ?_))

theorem applyAdmitted_kept {s0 s : State} (h : Kept s0 s) :
    Kept s0 (applyAdmitted s) := by
  unfold applyAdmitted
  with_reducible repeat' first
    | exact h
    | refine State.putB_kept ?_
    | refine State.each_kept ?_ (fun x a hx => ?_)
    | refine postEvent_kept ?_
    | refine reserveCells_kept ?_
    | refine applyTerms_kept ?_
    | refine Kept.ite ?_ ?_
    | refine Kept.ite_fst ?_ ?_
    | assumption
    | (intro hx; clear_value x)
    | (intro x; refine Kept.cut (s := s0) (x := x) ?_ ?_)
    | (intro x; refine Kept.cut (s := s0) (x := x.1) ?_ ?_)
    | (intro x; clear_value x)
    | lift_lets -underBinder
    | split
    | refine Kept.of_fst (by assumption) ?_
    | (unfold x; split)
    | (refine Kept.upd ?_; first | assumption | refine State.putB_kept ?_ | refine State.each_kept ?_ (fun x a hx => ?_) | refine postEvent_kept ?_ | refine reserveCells_kept ?_ | refine applyTerms_kept ?_ | refine Kept.ite ?_ ?_)

theorem execAdmitTakeEffect_ends {s0 s : State} (h : Kept s0 s) :
    Ends s0 (execAdmitTakeEffect s) := by
  unfold execAdmitTakeEffect
  refine Ends.next ?_
  with_reducible repeat' first
    | exact h
    | refine applyAdmitted_kept ?_

theorem accrue_kept {a : Nat} {s0 s : State} (h : Kept s0 s) :
    Kept s0 (accrue s a) := by
  unfold accrue
  with_reducible repeat' first
    | exact h
    | refine modAcct_kept ?_
    | assumption
    | (intro hx; clear_value x)
    | (intro x; refine Kept.cut (s := s0) (x := x) ?_ ?_)
    | (intro x; refine Kept.cut (s := s0) (x := x.1) ?_ ?_)
    | (intro x; clear_value x)
    | lift_lets -underBinder
    | (refine Kept.upd ?_; first | assumption | refine modAcct_kept ?_)

theorem accrueAgain_kept {a : Nat} {s0 s : State} (h : Kept s0 s) :
    Kept s0 (accrueAgain s a) := by
  unfold accrueAgain
  with_reducible repeat' first
    | exact h
    | refine modAcct_kept ?_
    | refine accrue_kept ?_
    | assumption
    | (refine Kept.upd ?_; first | assumption | refine modAcct_kept ?_ | refine accrue_kept ?_)

theorem setUrgency_kept {a : Nat} {u : Nat} {s0 s : State} (h : Kept s0 s) :
    Kept s0 (setUrgency s a u) := by
  unfold setUrgency
  with_reducible repeat' first
    | exact h
    | refine State.put_kept ?_
    | refine Kept.ite ?_ ?_
    | split

theorem urgencyWindow_kept {a : Nat} {s0 s : State} (h : Kept s0 s) :
    Kept s0 (urgencyWindow s a) := by
  unfold urgencyWindow
  with_reducible repeat' first
    | exact h
    | refine State.put_kept ?_
    | refine event_kept ?_
    | refine setAcct_kept ?_
    | refine modAcct_kept ?_
    | refine setUrgency_kept ?_
    | refine Kept.ite ?_ ?_
    | assumption
    | (intro hx; clear_value x)
    | (intro x; refine Kept.cut (s := s0) (x := x) ?_ ?_)
    | (intro x; refine Kept.cut (s := s0) (x := x.1) ?_ ?_)
    | (intro x; clear_value x)
    | lift_lets -underBinder
    | split
    | refine Kept.of_fst (by assumption) ?_
    | (unfold x; split)
    | (refine Kept.upd ?_; first | assumption | refine State.put_kept ?_ | refine event_kept ?_ | refine setAcct_kept ?_ | refine modAcct_kept ?_ | refine setUrgency_kept ?_ | refine Kept.ite ?_ ?_)

theorem missMsix_kept {a : Nat} {s0 s : State} (h : Kept s0 s) :
    Kept s0 (missMsix s a) := by
  unfold missMsix
  with_reducible repeat' first
    | exact h
    | refine State.send_kept ?_
    | refine modAcct_kept ?_
    | refine Kept.ite ?_ ?_
    | assumption
    | (intro hx; clear_value x)
    | (intro x; refine Kept.cut (s := s0) (x := x) ?_ ?_)
    | (intro x; refine Kept.cut (s := s0) (x := x.1) ?_ ?_)
    | (intro x; clear_value x)
    | lift_lets -underBinder
    | split
    | refine Kept.of_fst (by assumption) ?_
    | (unfold x; split)
    | (refine Kept.upd ?_; first | assumption | refine State.send_kept ?_ | refine modAcct_kept ?_ | refine Kept.ite ?_ ?_)

theorem judgeMiss_kept {a : Nat} {s0 s : State} (h : Kept s0 s) :
    Kept s0 (judgeMiss s a) := by
  unfold judgeMiss
  with_reducible repeat' first
    | exact h
    | refine State.put_kept ?_
    | refine State.inc_kept ?_
    | refine State.setFlag_kept ?_
    | refine postEvent_kept ?_
    | refine eventOnce_kept ?_
    | refine modAcct_kept ?_
    | refine missMsix_kept ?_
    | refine Kept.ite ?_ ?_
    | assumption
    | (intro hx; clear_value x)
    | (intro x; refine Kept.cut (s := s0) (x := x) ?_ ?_)
    | (intro x; refine Kept.cut (s := s0) (x := x.1) ?_ ?_)
    | (intro x; clear_value x)
    | lift_lets -underBinder
    | split
    | refine Kept.of_fst (by assumption) ?_
    | (unfold x; split)
    | (refine Kept.upd ?_; first | assumption | refine State.put_kept ?_ | refine State.inc_kept ?_ | refine State.setFlag_kept ?_ | refine postEvent_kept ?_ | refine eventOnce_kept ?_ | refine modAcct_kept ?_ | refine missMsix_kept ?_ | refine Kept.ite ?_ ?_)

theorem turnWindow_kept {a : Nat} {s0 s : State} (h : Kept s0 s) :
    Kept s0 (turnWindow s a) := by
  unfold turnWindow
  with_reducible repeat' first
    | exact h
    | refine State.put_kept ?_
    | refine State.putB_kept ?_
    | refine setAcct_kept ?_
    | refine resetLevels_kept ?_
    | refine adjust_kept ?_
    | refine setTerms_kept ?_
    | refine accrue_kept ?_
    | refine urgencyWindow_kept ?_
    | refine Kept.ite ?_ ?_
    | assumption
    | (intro hx; clear_value x)
    | (intro x; refine Kept.cut (s := s0) (x := x) ?_ ?_)
    | (intro x; refine Kept.cut (s := s0) (x := x.1) ?_ ?_)
    | (intro x; clear_value x)
    | lift_lets -underBinder
    | split
    | refine Kept.of_fst (by assumption) ?_
    | (unfold x; split)
    | (refine Kept.upd ?_; first | assumption | refine State.put_kept ?_ | refine State.putB_kept ?_ | refine setAcct_kept ?_ | refine resetLevels_kept ?_ | refine adjust_kept ?_ | refine setTerms_kept ?_ | refine accrue_kept ?_ | refine urgencyWindow_kept ?_ | refine Kept.ite ?_ ?_)

theorem missCheck_kept {a : Nat} {s0 s : State} (h : Kept s0 s) :
    Kept s0 (missCheck s a) := by
  unfold missCheck
  with_reducible repeat' first
    | exact h
    | refine judgeMiss_kept ?_
    | refine Kept.ite ?_ ?_
    | split

theorem execMissCheck_ends {account : Fin 4096} {s0 s : State} (h : Kept s0 s) :
    Ends s0 (execMissCheck account s) := by
  unfold execMissCheck
  refine Ends.next ?_
  with_reducible repeat' first
    | exact h
    | refine missCheck_kept ?_

theorem jumpWindow_kept {counts : Bool} {a : Nat} {s0 s : State} (h : Kept s0 s) :
    Kept s0 (jumpWindow s counts a) := by
  unfold jumpWindow
  with_reducible repeat' first
    | exact h
    | refine modAcct_kept ?_
    | refine judgeMiss_kept ?_
    | refine turnWindow_kept ?_
    | refine Kept.ite ?_ ?_
    | assumption
    | (intro hx; clear_value x)
    | (intro x; refine Kept.cut (s := s0) (x := x) ?_ ?_)
    | (intro x; refine Kept.cut (s := s0) (x := x.1) ?_ ?_)
    | (intro x; clear_value x)
    | lift_lets -underBinder
    | split
    | refine Kept.of_fst (by assumption) ?_
    | (unfold x; split)
    | (refine Kept.upd ?_; first | assumption | refine modAcct_kept ?_ | refine judgeMiss_kept ?_ | refine turnWindow_kept ?_ | refine Kept.ite ?_ ?_)

theorem sampleUrgency_kept {pins : BitVec 16} {s0 s : State} (h : Kept s0 s) :
    Kept s0 (sampleUrgency s pins) := by
  unfold sampleUrgency
  with_reducible repeat' first
    | exact h
    | refine State.each_kept ?_ (fun x a hx => ?_)
    | refine modAcct_kept ?_
    | refine setUrgency_kept ?_
    | refine Kept.ite ?_ ?_
    | assumption
    | (intro hx; clear_value x)
    | (intro x; refine Kept.cut (s := s0) (x := x) ?_ ?_)
    | (intro x; refine Kept.cut (s := s0) (x := x.1) ?_ ?_)
    | (intro x; clear_value x)
    | lift_lets -underBinder
    | split
    | refine Kept.of_fst (by assumption) ?_
    | (unfold x; split)
    | (refine Kept.upd ?_; first | assumption | refine State.each_kept ?_ (fun x a hx => ?_) | refine modAcct_kept ?_ | refine setUrgency_kept ?_ | refine Kept.ite ?_ ?_ | (refine Kept.upd ?_; first | assumption | refine State.each_kept ?_ (fun x a hx => ?_) | refine modAcct_kept ?_ | refine setUrgency_kept ?_))

theorem accountEdge_kept {pins : BitVec 16} {s0 s : State} (h : Kept s0 s) :
    Kept s0 (accountEdge s pins) := by
  unfold accountEdge
  with_reducible repeat' first
    | exact h
    | refine State.each_kept ?_ (fun x a hx => ?_)
    | refine modAcct_kept ?_
    | refine accrue_kept ?_
    | refine sampleUrgency_kept ?_
    | refine Kept.ite ?_ ?_
    | assumption
    | (intro hx; clear_value x)
    | (intro x; refine Kept.cut (s := s0) (x := x) ?_ ?_)
    | (intro x; refine Kept.cut (s := s0) (x := x.1) ?_ ?_)
    | (intro x; clear_value x)
    | lift_lets -underBinder
    | split
    | (refine Kept.upd ?_; first | assumption | refine State.each_kept ?_ (fun x a hx => ?_) | refine modAcct_kept ?_ | refine accrue_kept ?_ | refine sampleUrgency_kept ?_ | refine Kept.ite ?_ ?_)

theorem execUrgencyMessage_ends {port : Fin 64} {sub : Fin 4} {ld : Fin 16} {urgency : Fin 4} {s0 s : State} (h : Kept s0 s) :
    Ends s0 (execUrgencyMessage port sub ld urgency s) := by
  unfold execUrgencyMessage
  refine Ends.next ?_
  with_reducible repeat' first
    | exact h
    | refine event_kept ?_
    | assumption
    | split
    | refine Kept.of_fst (by assumption) ?_
    | (refine Kept.upd ?_; first | assumption | refine event_kept ?_)

theorem showResource_kept {x0 : Resource} {s0 s : State} (h : Kept s0 s) :
    Kept s0 (showResource s x0) := by
  unfold showResource
  with_reducible repeat' first
    | exact h
    | refine State.put_kept ?_
    | refine State.putB_kept ?_
    | refine Kept.ite ?_ ?_
    | assumption
    | (intro hx; clear_value x)
    | (intro x; refine Kept.cut (s := s0) (x := x) ?_ ?_)
    | (intro x; refine Kept.cut (s := s0) (x := x.1) ?_ ?_)
    | (intro x; clear_value x)
    | lift_lets -underBinder
    | split

theorem evaluate_kept {striped : Nat → Bool} {deliver : Nat → Nat × Nat} {s0 s : State} (h : Kept s0 s) :
    Kept s0 (evaluate s striped deliver) := by
  unfold evaluate
  with_reducible repeat' first
    | exact h
    | refine State.put_kept ?_
    | refine State.putB_kept ?_
    | refine State.setFlag_kept ?_
    | refine State.each_kept ?_ (fun x a hx => ?_)
    | refine postEvent_kept ?_
    | refine event_kept ?_
    | refine accrueAgain_kept ?_
    | refine missMsix_kept ?_
    | refine showResource_kept ?_
    | refine Kept.ite ?_ ?_
    | refine foldl_kept ?_ fun x a hx => ?_
    | refine foldl_kept_fst ?_ fun x a hx => ?_
    | assumption
    | (intro hx; clear_value x)
    | (intro x; refine Kept.cut (s := s0) (x := x) ?_ ?_)
    | (intro x; refine Kept.cut (s := s0) (x := x.1) ?_ ?_)
    | (intro x; clear_value x)
    | lift_lets -underBinder
    | split
    | (refine Kept.upd ?_; first | assumption | refine State.put_kept ?_ | refine State.putB_kept ?_ | refine State.setFlag_kept ?_ | refine State.each_kept ?_ (fun x a hx => ?_) | refine postEvent_kept ?_ | refine event_kept ?_ | refine accrueAgain_kept ?_ | refine missMsix_kept ?_ | refine showResource_kept ?_ | refine Kept.ite ?_ ?_)

end Sys2Proof.Machine
end

