-- ==== Sys2Proof/Laws/KeptMedia.lean ====
section
/-! SUPPORT. What every step keeps, through the functions of Media. -/

set_option linter.all false
set_option maxRecDepth 8000

namespace Sys2Proof.Machine

theorem setChan_kept {g : Nat} {c : Chan} {s0 s : State} (h : Kept s0 s) :
    Kept s0 (setChan s g c) := by
  unfold setChan
  with_reducible repeat' first
    | exact h
    | (refine Kept.upd ?_; first | assumption)

theorem modChan_kept {g : Nat} {f : Chan → Chan} {s0 s : State} (h : Kept s0 s) :
    Kept s0 (modChan s g f) := by
  unfold modChan
  with_reducible repeat' first
    | exact h
    | refine setChan_kept ?_

theorem storeLine_kept {l : Loc} {i : Nat} {m : MediaLine} {s0 s : State} (h : Kept s0 s) :
    Kept s0 (storeLine s l i m) := by
  unfold storeLine
  with_reducible repeat' first
    | exact h
    | refine State.each_kept ?_ (fun x a hx => ?_)
    | refine setLine_kept ?_
    | assumption

theorem setDuctus_kept {d : Ductus} {s0 s : State} (h : Kept s0 s) :
    Kept s0 (setDuctus s d) := by
  unfold setDuctus
  with_reducible repeat' first
    | exact h
    | (refine Kept.upd ?_; first | assumption)

theorem setLeaf_kept {leaf : Nat} {e : Leaf} {s0 s : State} (h : Kept s0 s) :
    Kept s0 (setLeaf s leaf e) := by
  unfold setLeaf
  with_reducible repeat' first
    | exact h
    | (refine Kept.upd ?_; first | assumption)

end Sys2Proof.Machine
end

