-- ==== Sys2Proof/Laws/KeptSeal.lean ====
section
/-! SUPPORT. What every step keeps, through the functions of Seal. -/

set_option linter.all false
set_option maxRecDepth 8000

namespace Sys2Proof.Machine

theorem draw_kept {s0 s : State} (h : Kept s0 s) :
    Kept s0 (draw s).2 := by
  unfold draw
  with_reducible repeat' first
    | exact h
    | refine State.drew_kept ?_

theorem setSeal_kept {x0 : Seal} {s0 s : State} (h : Kept s0 s) :
    Kept s0 (setSeal s x0) := by
  unfold setSeal
  with_reducible repeat' first
    | exact h
    | (refine Kept.upd ?_; first | assumption)

theorem setNode_kept {level : Nat} {node : Nat} {n : TreeNode} {s0 s : State} (h : Kept s0 s) :
    Kept s0 (setNode s level node n) := by
  unfold setNode
  with_reducible repeat' first
    | exact h
    | refine setSeal_kept ?_
    | (refine Kept.upd ?_; first | assumption | refine setSeal_kept ?_)

theorem remac_kept {level : Nat} {node : Nat} {s0 s : State} (h : Kept s0 s) :
    Kept s0 (remac s level node) := by
  unfold remac
  with_reducible repeat' first
    | exact h
    | refine setSeal_kept ?_
    | refine setNode_kept ?_
    | refine Kept.ite ?_ ?_
    | assumption
    | (intro hx; clear_value x)
    | (intro x; refine Kept.cut (s := s0) (x := x) ?_ ?_)
    | (intro x; refine Kept.cut (s := s0) (x := x.1) ?_ ?_)
    | (intro x; clear_value x)
    | lift_lets -underBinder
    | split
    | refine Kept.of_fst (by assumption) ?_
    | (unfold x; split)
    | (refine Kept.upd ?_; first | assumption | refine setSeal_kept ?_ | refine setNode_kept ?_ | refine Kept.ite ?_ ?_)

theorem listNode_kept {level : Nat} {node : Nat} {s0 s : State} (h : Kept s0 s) :
    Kept s0 (listNode s level node) := by
  unfold listNode
  with_reducible repeat' first
    | exact h
    | refine setNode_kept ?_
    | refine Kept.ite ?_ ?_
    | split

theorem noteModified_kept {level : Nat} {node : Nat} {s0 s : State} (h : Kept s0 s) :
    Kept s0 (noteModified s level node) := by
  unfold noteModified
  with_reducible repeat' first
    | exact h
    | refine setSeal_kept ?_
    | refine Kept.ite ?_ ?_
    | refine Kept.ite_fst ?_ ?_
    | assumption
    | (intro hx; clear_value x)
    | (intro x; refine Kept.cut (s := s0) (x := x) ?_ ?_)
    | (intro x; refine Kept.cut (s := s0) (x := x.1) ?_ ?_)
    | (intro x; clear_value x)
    | lift_lets -underBinder
    | split
    | (refine Kept.upd ?_; first | assumption | refine setSeal_kept ?_ | refine Kept.ite ?_ ?_)

theorem writeBack_kept {level : Nat} {node : Nat} {s0 s : State} (h : Kept s0 s) :
    Kept s0 (writeBack s level node) := by
  unfold writeBack
  with_reducible repeat' first
    | exact h
    | refine State.each_kept ?_ (fun x a hx => ?_)
    | refine setNode_kept ?_
    | refine remac_kept ?_
    | refine listNode_kept ?_
    | refine noteModified_kept ?_
    | refine Kept.ite ?_ ?_
    | assumption
    | (intro hx; clear_value x)
    | (intro x; refine Kept.cut (s := s0) (x := x) ?_ ?_)
    | (intro x; refine Kept.cut (s := s0) (x := x.1) ?_ ?_)
    | (intro x; clear_value x)
    | lift_lets -underBinder
    | split
    | (refine Kept.upd ?_; first | assumption | refine State.each_kept ?_ (fun x a hx => ?_) | refine setNode_kept ?_ | refine remac_kept ?_ | refine listNode_kept ?_ | refine noteModified_kept ?_ | refine Kept.ite ?_ ?_)

theorem flushTree_kept {s0 s : State} (h : Kept s0 s) :
    Kept s0 (flushTree s) := by
  unfold flushTree
  with_reducible repeat' first
    | exact h
    | refine State.each_kept ?_ (fun x a hx => ?_)
    | refine setSeal_kept ?_
    | refine writeBack_kept ?_
    | assumption
    | (intro hx; clear_value x)
    | (intro x; refine Kept.cut (s := s0) (x := x) ?_ ?_)
    | (intro x; refine Kept.cut (s := s0) (x := x.1) ?_ ?_)
    | (intro x; clear_value x)
    | lift_lets -underBinder
    | split
    | (refine Kept.upd ?_; first | assumption | refine State.each_kept ?_ (fun x a hx => ?_) | refine setSeal_kept ?_ | refine writeBack_kept ?_)

theorem relock_kept {s0 s : State} (h : Kept s0 s) :
    Kept s0 (relock s) := by
  unfold relock
  with_reducible repeat' first
    | exact h
    | refine State.put_kept ?_
    | refine setSeal_kept ?_
    | assumption
    | (intro hx; clear_value x)
    | (intro x; refine Kept.cut (s := s0) (x := x) ?_ ?_)
    | (intro x; refine Kept.cut (s := s0) (x := x.1) ?_ ?_)
    | (intro x; clear_value x)
    | lift_lets -underBinder
    | (refine Kept.upd ?_; first | assumption | refine State.put_kept ?_ | refine setSeal_kept ?_)

theorem evictOne_kept {s0 s : State} (h : Kept s0 s) :
    Kept s0 (evictOne s) := by
  unfold evictOne
  with_reducible repeat' first
    | exact h
    | refine chargeNow_kept ?_
    | refine setSeal_kept ?_
    | refine writeBack_kept ?_
    | refine Kept.ite ?_ ?_
    | assumption
    | (intro hx; clear_value x)
    | (intro x; refine Kept.cut (s := s0) (x := x) ?_ ?_)
    | (intro x; refine Kept.cut (s := s0) (x := x.1) ?_ ?_)
    | (intro x; clear_value x)
    | lift_lets -underBinder
    | split
    | refine Kept.of_fst (by assumption) ?_
    | (unfold x; split)
    | (refine Kept.upd ?_; first | assumption | refine chargeNow_kept ?_ | refine setSeal_kept ?_ | refine writeBack_kept ?_ | refine Kept.ite ?_ ?_)

theorem setModified_kept {level : Nat} {node : Nat} {d : Bool} {s0 s : State} (h : Kept s0 s) :
    Kept s0 (setModified s level node d) := by
  unfold setModified
  with_reducible repeat' first
    | exact h
    | refine setSeal_kept ?_
    | refine Kept.ite ?_ ?_
    | refine Kept.ite_fst ?_ ?_
    | assumption
    | split

theorem cleanCounter_kept {leaf : Nat} {s0 s : State} (h : Kept s0 s) :
    Kept s0 (cleanCounter s leaf) := by
  unfold cleanCounter
  with_reducible repeat' first
    | exact h
    | refine chargeNow_kept ?_
    | refine writeBack_kept ?_
    | refine setModified_kept ?_
    | refine Kept.ite ?_ ?_
    | split

theorem touch_kept {level : Nat} {node : Nat} {modified : Bool} {s0 s : State} (h : Kept s0 s) :
    Kept s0 (touch s level node modified) := by
  unfold touch
  with_reducible repeat' first
    | exact h
    | refine State.incW_kept ?_
    | refine setSeal_kept ?_
    | refine evictOne_kept ?_
    | refine Kept.ite ?_ ?_
    | assumption
    | (intro hx; clear_value x)
    | (intro x; refine Kept.cut (s := s0) (x := x) ?_ ?_)
    | (intro x; refine Kept.cut (s := s0) (x := x.1) ?_ ?_)
    | (intro x; clear_value x)
    | lift_lets -underBinder
    | split
    | refine Kept.of_fst (by assumption) ?_
    | (unfold x; split)
    | (refine Kept.upd ?_; first | assumption | refine State.incW_kept ?_ | refine setSeal_kept ?_ | refine evictOne_kept ?_ | refine Kept.ite ?_ ?_)

theorem touchCounter_kept {leaf : Nat} {account : Nat} {modified : Bool} {s0 s : State} (h : Kept s0 s) :
    Kept s0 (touchCounter s leaf account modified) := by
  unfold touchCounter
  with_reducible repeat' first
    | exact h
    | refine chargeNow_kept ?_
    | refine touch_kept ?_
    | refine Kept.ite ?_ ?_
    | assumption
    | (intro hx; clear_value x)
    | (intro x; refine Kept.cut (s := s0) (x := x) ?_ ?_)
    | (intro x; refine Kept.cut (s := s0) (x := x.1) ?_ ?_)
    | (intro x; clear_value x)
    | lift_lets -underBinder
    | split

theorem sealEvent_kept {row : Nat} {source : Nat} {detail : Nat} {s0 s : State} (h : Kept s0 s) :
    Kept s0 (sealEvent s row source detail) := by
  unfold sealEvent
  with_reducible repeat' first
    | exact h
    | refine postEvent_kept ?_
    | refine event_kept ?_

theorem setEntry_kept {i : Nat} {level : Nat} {node : Nat} {s0 s : State} (h : Kept s0 s) :
    Kept s0 (setEntry s i level node) := by
  unfold setEntry
  with_reducible repeat' first
    | exact h
    | refine State.put_kept ?_

theorem clearEntry_kept {i : Nat} {s0 s : State} (h : Kept s0 s) :
    Kept s0 (clearEntry s i) := by
  unfold clearEntry
  with_reducible repeat' first
    | exact h
    | refine State.setWord_kept ?_

theorem placeEntry_kept {lv : Nat} {nd : Nat} {s0 s : State} (h : Kept s0 s) :
    Kept s0 (placeEntry s lv nd) := by
  unfold placeEntry
  with_reducible repeat' first
    | exact h
    | refine State.each_kept ?_ (fun x a hx => ?_)
    | refine setSeal_kept ?_
    | refine setEntry_kept ?_
    | refine clearEntry_kept ?_
    | assumption
    | (intro hx; clear_value x)
    | (intro x; refine Kept.cut (s := s0) (x := x) ?_ ?_)
    | (intro x; refine Kept.cut (s := s0) (x := x.1) ?_ ?_)
    | (intro x; clear_value x)
    | lift_lets -underBinder
    | split
    | refine Kept.of_fst (by assumption) ?_
    | (unfold x; split)
    | (refine Kept.upd ?_; first | assumption | refine State.each_kept ?_ (fun x a hx => ?_) | refine setSeal_kept ?_ | refine setEntry_kept ?_ | refine clearEntry_kept ?_)

theorem settleLost_kept {s0 s : State} (h : Kept s0 s) :
    Kept s0 (settleLost s) := by
  unfold settleLost
  with_reducible repeat' first
    | exact h
    | refine State.each_kept ?_ (fun x a hx => ?_)
    | refine setSeal_kept ?_
    | refine placeEntry_kept ?_
    | assumption
    | (refine Kept.upd ?_; first | assumption | refine State.each_kept ?_ (fun x a hx => ?_) | refine setSeal_kept ?_ | refine placeEntry_kept ?_)

theorem addUnverifiable_kept {level : Nat} {node : Nat} {s0 s : State} (h : Kept s0 s) :
    Kept s0 (addUnverifiable s level node) := by
  unfold addUnverifiable
  with_reducible repeat' first
    | exact h
    | refine sealEvent_kept ?_
    | refine placeEntry_kept ?_
    | refine Kept.ite ?_ ?_
    | assumption
    | (intro hx; clear_value x)
    | (intro x; refine Kept.cut (s := s0) (x := x) ?_ ?_)
    | (intro x; refine Kept.cut (s := s0) (x := x.1) ?_ ?_)
    | (intro x; clear_value x)
    | lift_lets -underBinder
    | split
    | refine Kept.of_fst (by assumption) ?_

theorem markProtected_kept {dpa : Nat} {key : Nat} {s0 s : State} (h : Kept s0 s) :
    Kept s0 (markProtected s dpa key) := by
  unfold markProtected
  with_reducible repeat' first
    | exact h
    | refine setSeal_kept ?_
    | refine Kept.ite ?_ ?_
    | assumption
    | (intro hx; clear_value x)
    | (intro x; refine Kept.cut (s := s0) (x := x) ?_ ?_)
    | (intro x; refine Kept.cut (s := s0) (x := x.1) ?_ ?_)
    | (intro x; clear_value x)
    | lift_lets -underBinder
    | split
    | (refine Kept.upd ?_; first | assumption | refine setSeal_kept ?_ | refine Kept.ite ?_ ?_)

theorem openCounter_kept {g : Nat} {k : Nat} {s0 s : State} (h : Kept s0 s) :
    Kept s0 (openCounter s g k) := by
  unfold openCounter
  with_reducible repeat' first
    | exact h
    | refine Kept.ite ?_ ?_
    | split
    | refine Kept.of_fst (by assumption) ?_
    | (refine Kept.upd ?_; first | assumption | refine Kept.ite ?_ ?_)

theorem closeCounters_kept {s0 s : State} (h : Kept s0 s) :
    Kept s0 (closeCounters s) := by
  unfold closeCounters
  with_reducible repeat' first
    | exact h
    | assumption
    | (refine Kept.upd ?_; first | assumption)

theorem placeCounter_kept {leaf : Nat} {sel : Nat} {s0 s : State} (h : Kept s0 s) :
    Kept s0 (placeCounter s leaf sel) := by
  unfold placeCounter
  with_reducible repeat' first
    | exact h
    | refine State.put_kept ?_
    | refine setSeal_kept ?_
    | refine listNode_kept ?_
    | refine openCounter_kept ?_
    | refine Kept.ite ?_ ?_
    | assumption
    | (intro hx; clear_value x)
    | (intro x; refine Kept.cut (s := s0) (x := x) ?_ ?_)
    | (intro x; refine Kept.cut (s := s0) (x := x.1) ?_ ?_)
    | (intro x; clear_value x)
    | lift_lets -underBinder
    | split
    | refine Kept.of_fst (by assumption) ?_
    | (unfold x; split)

theorem allocCounter_kept {leaf : Nat} {s0 s t : State} (h : Kept s0 s) (e : allocCounter s leaf = some t) : Kept s0 t := by
  unfold allocCounter at e
  split at e
  · cases e
  · obtain ⟨sel, -, rfl⟩ := Option.map_eq_some_iff.1 e
    exact placeCounter_kept h

theorem freeCounter_kept {leaf : Nat} {s0 s : State} (h : Kept s0 s) :
    Kept s0 (freeCounter s leaf) := by
  unfold freeCounter
  with_reducible repeat' first
    | exact h
    | refine State.dec_kept ?_
    | refine setSeal_kept ?_
    | refine closeCounters_kept ?_
    | refine Kept.ite ?_ ?_
    | assumption
    | split
    | refine Kept.of_fst (by assumption) ?_

theorem mapLeafLines_kept {leaf : Nat} {f : Nat → MediaLine → MediaLine} {s0 s : State} (h : Kept s0 s) :
    Kept s0 (mapLeafLines s leaf f) := by
  unfold mapLeafLines
  with_reducible repeat' first
    | exact h
    | refine State.each_kept ?_ (fun x a hx => ?_)
    | refine setLine_kept ?_
    | refine Kept.ite ?_ ?_
    | assumption
    | (intro hx; clear_value x)
    | (intro x; refine Kept.cut (s := s0) (x := x) ?_ ?_)
    | (intro x; refine Kept.cut (s := s0) (x := x.1) ?_ ?_)
    | (intro x; clear_value x)
    | lift_lets -underBinder
    | split
    | refine Kept.of_fst (by assumption) ?_
    | (refine Kept.upd ?_; first | assumption | refine State.each_kept ?_ (fun x a hx => ?_) | refine setLine_kept ?_ | refine Kept.ite ?_ ?_)

theorem retag_kept {before : State} {leaf : Nat} {skip : Nat} {account : Nat} {s0 s : State} (h : Kept s0 s) :
    Kept s0 (retag s before leaf skip account) := by
  unfold retag
  with_reducible repeat' first
    | exact h
    | refine chargeNow_kept ?_
    | refine setSeal_kept ?_
    | refine mapLeafLines_kept ?_
    | refine Kept.ite ?_ ?_
    | refine foldl_kept ?_ fun x a hx => ?_
    | refine foldl_kept_fst ?_ fun x a hx => ?_
    | assumption
    | (intro hx; clear_value x)
    | (intro x; refine Kept.cut (s := s0) (x := x) ?_ ?_)
    | (intro x; refine Kept.cut (s := s0) (x := x.1) ?_ ?_)
    | (intro x; clear_value x)
    | lift_lets -underBinder
    | split
    | refine Kept.of_fst (by assumption) ?_
    | (unfold x; split)
    | (refine Kept.upd ?_; first | assumption | refine chargeNow_kept ?_ | refine setSeal_kept ?_ | refine mapLeafLines_kept ?_ | refine Kept.ite ?_ ?_)

theorem bumpCounter_kept {dpa account : Nat} {s0 s t : State} (h : Kept s0 s) (e : bumpCounter s dpa account = some t) :
    Kept s0 t := by
  unfold bumpCounter at e
  have h' : Kept s0 (setSeal s { s.sealing with stale := Tab.del s.sealing.stale (dpa / 64) }) := setSeal_kept h
  simp only at e
  split at e
  · obtain ⟨u, hu, rfl⟩ := Option.map_eq_some_iff.1 e
    have hk := allocCounter_kept h' hu
    split
    · exact touchCounter_kept (setSeal_kept hk)
    · exact hk
  · split at e
    · cases e
      exact touchCounter_kept (setSeal_kept h')
    · split at e
      · cases e
        exact touchCounter_kept (retag_kept (setSeal_kept h'))
      · obtain ⟨u, hu, rfl⟩ := Option.map_eq_some_iff.1 e
        exact touchCounter_kept (retag_kept (allocCounter_kept h' hu))

theorem sealViolation_kept {o : Origin} {dpa : Nat} {access : Nat} {opcode : Nat} {s0 s : State} (h : Kept s0 s) :
    Kept s0 (sealViolation s o dpa access opcode) := by
  unfold sealViolation
  with_reducible repeat' first
    | exact h
    | refine State.inc_kept ?_
    | refine State.drew_kept ?_
    | refine report_kept ?_
    | refine postEvent_kept ?_
    | assumption
    | (intro hx; clear_value x)
    | (intro x; refine Kept.cut (s := s0) (x := x) ?_ ?_)
    | (intro x; refine Kept.cut (s := s0) (x := x.1) ?_ ?_)
    | (intro x; clear_value x)
    | lift_lets -underBinder

theorem sealAccessEvent_kept {row : Nat} {o : Origin} {dpa : Nat} {access : Nat} {s0 s : State} (h : Kept s0 s) :
    Kept s0 (sealAccessEvent s row o dpa access) := by
  unfold sealAccessEvent
  with_reducible repeat' first
    | exact h
    | refine State.drew_kept ?_
    | refine report_kept ?_
    | refine postEvent_kept ?_
    | assumption
    | (intro hx; clear_value x)
    | (intro x; refine Kept.cut (s := s0) (x := x) ?_ ?_)
    | (intro x; refine Kept.cut (s := s0) (x := x.1) ?_ ?_)
    | (intro x; clear_value x)
    | lift_lets -underBinder

theorem mergeFill_kept {dpa : Nat} {key : Nat} {v : BitVec 512} {s0 s : State} (h : Kept s0 s) :
    Kept s0 (mergeFill s dpa key v) := by
  unfold mergeFill
  with_reducible repeat' first
    | exact h
    | refine setSeal_kept ?_
    | refine Kept.ite ?_ ?_
    | assumption
    | split
    | refine Kept.of_fst (by assumption) ?_

theorem mergeDrop_kept {p : Nat → Nat → Bool} {s0 s : State} (h : Kept s0 s) :
    Kept s0 (mergeDrop s p) := by
  unfold mergeDrop
  with_reducible repeat' first
    | exact h
    | refine setSeal_kept ?_
    | assumption
    | split
    | refine Kept.of_fst (by assumption) ?_
    | (refine Kept.upd ?_; first | assumption | refine setSeal_kept ?_)

end Sys2Proof.Machine
end

