-- ==== Sys2Proof/Laws/KeptLeaves.lean ====
section
/-! SUPPORT. What every step keeps, through the functions of Leaves. -/

set_option linter.all false
set_option maxRecDepth 8000

namespace Sys2Proof.Machine

theorem takeSlot_kept {l : Loc} {owner : Nat} {s0 s : State} (h : Kept s0 s) :
    Kept s0 (takeSlot s l owner) := by
  unfold takeSlot
  with_reducible repeat' first
    | exact h
    | (refine Kept.upd ?_; first | assumption)

theorem freeSlot_kept {l : Loc} {s0 s : State} (h : Kept s0 s) :
    Kept s0 (freeSlot s l) := by
  unfold freeSlot
  with_reducible repeat' first
    | exact h
    | (refine Kept.upd ?_; first | assumption)

theorem showLocked_kept {s0 s : State} (h : Kept s0 s) :
    Kept s0 (showLocked s) := by
  unfold showLocked
  with_reducible repeat' first
    | exact h
    | refine State.put_kept ?_
    | refine relock_kept ?_

theorem useBlock_kept {b : Nat} {s0 s : State} (h : Kept s0 s) :
    Kept s0 (useBlock s b) := by
  unfold useBlock
  with_reducible repeat' first
    | exact h
    | assumption
    | (intro hx; clear_value x)
    | (intro x; refine Kept.cut (s := s0) (x := x) ?_ ?_)
    | (intro x; refine Kept.cut (s := s0) (x := x.1) ?_ ?_)
    | (intro x; clear_value x)
    | lift_lets -underBinder
    | (refine Kept.upd ?_; first | assumption)

theorem installBlock_kept {b : Nat} {s0 s : State} (h : Kept s0 s) :
    Kept s0 (installBlock s b) := by
  unfold installBlock
  with_reducible repeat' first
    | exact h
    | refine Kept.ite ?_ ?_
    | assumption
    | (intro hx; clear_value x)
    | (intro x; refine Kept.cut (s := s0) (x := x) ?_ ?_)
    | (intro x; refine Kept.cut (s := s0) (x := x.1) ?_ ?_)
    | (intro x; clear_value x)
    | lift_lets -underBinder
    | split
    | refine Kept.of_fst (by assumption) ?_
    | (unfold x; split)
    | (refine Kept.upd ?_; first | assumption | refine Kept.ite ?_ ?_)

theorem heatSample_kept {o : Origin} {leaf : Nat} {write : Bool} {s0 s : State} (h : Kept s0 s) :
    Kept s0 (heatSample s o leaf write) := by
  unfold heatSample
  with_reducible repeat' first
    | exact h
    | refine setLeaf_kept ?_
    | refine Kept.ite ?_ ?_
    | assumption
    | (intro hx; clear_value x)
    | (intro x; refine Kept.cut (s := s0) (x := x) ?_ ?_)
    | (intro x; refine Kept.cut (s := s0) (x := x.1) ?_ ?_)
    | (intro x; clear_value x)
    | lift_lets -underBinder
    | split
    | refine Kept.of_fst (by assumption) ?_
    | (unfold x; split)
    | (refine Kept.upd ?_; first | assumption | refine setLeaf_kept ?_ | refine Kept.ite ?_ ?_ | (refine Kept.upd ?_; first | assumption | refine setLeaf_kept ?_))

theorem showMoves_kept {s0 s : State} (h : Kept s0 s) :
    Kept s0 (showMoves s) := by
  unfold showMoves
  with_reducible repeat' first
    | exact h
    | refine State.put_kept ?_
    | refine State.putB_kept ?_
    | assumption
    | (intro hx; clear_value x)
    | (intro x; refine Kept.cut (s := s0) (x := x) ?_ ?_)
    | (intro x; refine Kept.cut (s := s0) (x := x.1) ?_ ?_)
    | (intro x; clear_value x)
    | lift_lets -underBinder
    | split
    | refine Kept.of_fst (by assumption) ?_

theorem addMove_kept {k : Nat} {m : Move} {s0 s : State} (h : Kept s0 s) :
    Kept s0 (addMove s k m) := by
  unfold addMove
  with_reducible repeat' first
    | exact h
    | refine showMoves_kept ?_
    | (refine Kept.upd ?_; first | assumption | refine showMoves_kept ?_)

theorem spend_kept {cause : Nat} {bytes : Nat} {s0 s : State} (h : Kept s0 s) :
    Kept s0 (spend s cause bytes) := by
  unfold spend
  with_reducible repeat' first
    | exact h
    | refine Kept.ite ?_ ?_
    | split
    | (refine Kept.upd ?_; first | assumption | refine Kept.ite ?_ ?_)

theorem startMove_kept {leaf : Nat} {cause : Nat} {e : Leaf} {dest : MoveDest} {item : Option Nat} {s0 s : State} (h : Kept s0 s) :
    Kept s0 (startMove s leaf cause e dest item) := by
  unfold startMove
  with_reducible repeat' first
    | exact h
    | refine setLeaf_kept ?_
    | refine openCounter_kept ?_
    | refine takeSlot_kept ?_
    | refine addMove_kept ?_
    | refine spend_kept ?_
    | refine Kept.ite ?_ ?_
    | assumption
    | (intro hx; clear_value x)
    | (intro x; refine Kept.cut (s := s0) (x := x) ?_ ?_)
    | (intro x; refine Kept.cut (s := s0) (x := x.1) ?_ ?_)
    | (intro x; clear_value x)
    | lift_lets -underBinder
    | split
    | refine Kept.of_fst (by assumption) ?_
    | (unfold x; split)
    | (refine Kept.upd ?_; first | assumption | refine setLeaf_kept ?_ | refine openCounter_kept ?_ | refine takeSlot_kept ?_ | refine addMove_kept ?_ | refine spend_kept ?_ | refine Kept.ite ?_ ?_)

theorem moveEnded_kept {slot : Nat} {leaf : Nat} {aborted : Bool} {s0 s : State} (h : Kept s0 s) :
    Kept s0 (moveEnded s slot leaf aborted) := by
  unfold moveEnded
  with_reducible repeat' first
    | exact h
    | refine State.each_kept ?_ (fun x a hx => ?_)
    | refine postEvent_kept ?_
    | assumption

theorem relabel_kept {old : Nat} {new : Nat} {s0 s : State} (h : Kept s0 s) :
    Kept s0 (relabel s old new) := by
  unfold relabel
  with_reducible repeat' first
    | exact h
    | refine Kept.ite ?_ ?_
    | assumption
    | split
    | refine Kept.of_fst (by assumption) ?_
    | (refine Kept.upd ?_; first | assumption | refine Kept.ite ?_ ?_)

theorem moveQuireTo_kept {k : Nat} {q : Nat} {cause : Nat} {g : Nat} {c : Nat} {xs : List Nat} {s0 s : State} (h : Kept s0 s) :
    Kept s0 (moveQuireTo s k q cause g c xs) := by
  unfold moveQuireTo
  with_reducible repeat' first
    | exact h
    | refine State.each_kept ?_ (fun x a hx => ?_)
    | refine takeSlot_kept ?_
    | refine addMove_kept ?_
    | refine spend_kept ?_
    | refine relabel_kept ?_
    | assumption
    | (intro hx; clear_value x)
    | (intro x; refine Kept.cut (s := s0) (x := x) ?_ ?_)
    | (intro x; refine Kept.cut (s := s0) (x := x.1) ?_ ?_)
    | (intro x; clear_value x)
    | lift_lets -underBinder

theorem startQuireMove_kept {q : Nat} {cause : Nat} {g : Nat} {stay : Bool} {s0 s : State} (h : Kept s0 s) :
    Kept s0 (startQuireMove s q cause g stay) := by
  unfold startQuireMove
  with_reducible repeat' first
    | exact h
    | refine moveQuireTo_kept ?_
    | split
    | refine Kept.of_fst (by assumption) ?_

theorem startHostedMove_kept {slot : Nat} {l : Loc} {stay : Bool} {s0 s : State} (h : Kept s0 s) :
    Kept s0 (startHostedMove s slot l stay) := by
  unfold startHostedMove
  with_reducible repeat' first
    | exact h
    | refine takeSlot_kept ?_
    | refine addMove_kept ?_
    | split
    | refine Kept.of_fst (by assumption) ?_

theorem giveSlots_kept {later : Bool} {ls : List Loc} {s0 s : State} (h : Kept s0 s) :
    Kept s0 (giveSlots s later ls) := by
  unfold giveSlots
  with_reducible repeat' first
    | exact h
    | refine State.each_kept ?_ (fun x a hx => ?_)
    | refine freeSlot_kept ?_
    | refine Kept.ite ?_ ?_
    | split
    | (refine Kept.upd ?_; first | assumption | refine State.each_kept ?_ (fun x a hx => ?_) | refine freeSlot_kept ?_ | refine Kept.ite ?_ ?_)

theorem dropMove_kept {k : Nat} {m : Move} {later : Bool} {s0 s : State} (h : Kept s0 s) :
    Kept s0 (dropMove s k m later) := by
  unfold dropMove
  with_reducible repeat' first
    | exact h
    | refine setLeaf_kept ?_
    | refine closeCounters_kept ?_
    | refine relabel_kept ?_
    | refine giveSlots_kept ?_
    | refine Kept.ite ?_ ?_
    | assumption
    | (intro hx; clear_value x)
    | (intro x; refine Kept.cut (s := s0) (x := x) ?_ ?_)
    | (intro x; refine Kept.cut (s := s0) (x := x.1) ?_ ?_)
    | (intro x; clear_value x)
    | lift_lets -underBinder
    | split
    | refine Kept.of_fst (by assumption) ?_
    | (unfold x; split)
    | (refine Kept.upd ?_; first | assumption | refine setLeaf_kept ?_ | refine closeCounters_kept ?_ | refine relabel_kept ?_ | refine giveSlots_kept ?_ | refine Kept.ite ?_ ?_)

theorem reissueMove_kept {m : Move} {s0 s : State} (h : Kept s0 s) :
    Kept s0 (reissueMove s m) := by
  unfold reissueMove
  with_reducible repeat' first
    | exact h
    | refine startMove_kept ?_
    | refine startQuireMove_kept ?_
    | refine startHostedMove_kept ?_
    | refine Kept.ite ?_ ?_
    | assumption
    | (intro hx; clear_value x)
    | (intro x; refine Kept.cut (s := s0) (x := x) ?_ ?_)
    | (intro x; refine Kept.cut (s := s0) (x := x.1) ?_ ?_)
    | (intro x; clear_value x)
    | lift_lets -underBinder
    | split
    | refine Kept.of_fst (by assumption) ?_
    | (unfold x; split)

theorem abortMove_kept {k : Nat} {reissue : Bool} {later : Bool} {s0 s : State} (h : Kept s0 s) :
    Kept s0 (abortMove s k reissue later) := by
  unfold abortMove
  with_reducible repeat' first
    | exact h
    | refine State.inc_kept ?_
    | refine event_kept ?_
    | refine showMoves_kept ?_
    | refine moveEnded_kept ?_
    | refine dropMove_kept ?_
    | refine reissueMove_kept ?_
    | refine Kept.ite ?_ ?_
    | assumption
    | (intro hx; clear_value x)
    | (intro x; refine Kept.cut (s := s0) (x := x) ?_ ?_)
    | (intro x; refine Kept.cut (s := s0) (x := x.1) ?_ ?_)
    | (intro x; clear_value x)
    | lift_lets -underBinder
    | split
    | refine Kept.of_fst (by assumption) ?_
    | (unfold x; split)

theorem abortTo_kept {p : Loc → Bool} {s0 s : State} (h : Kept s0 s) :
    Kept s0 (abortTo s p) := by
  unfold abortTo
  with_reducible repeat' first
    | exact h
    | refine State.each_kept ?_ (fun x a hx => ?_)
    | refine abortMove_kept ?_
    | assumption
    | split
    | refine Kept.of_fst (by assumption) ?_

theorem reclass_kept {p : Loc → Bool} {s0 s : State} (h : Kept s0 s) :
    Kept s0 (reclass s p) := by
  unfold reclass
  with_reducible repeat' first
    | exact h
    | refine showMoves_kept ?_
    | refine Kept.ite ?_ ?_
    | assumption
    | split
    | refine Kept.of_fst (by assumption) ?_
    | (refine Kept.upd ?_; first | assumption | refine showMoves_kept ?_ | refine Kept.ite ?_ ?_)

theorem unhost_kept {slot : Nat} {s0 s : State} (h : Kept s0 s) :
    Kept s0 (unhost s slot) := by
  unfold unhost
  with_reducible repeat' first
    | exact h
    | refine State.dec_kept ?_
    | refine freeSlot_kept ?_
    | refine abortMove_kept ?_
    | assumption
    | (intro hx; clear_value x)
    | (intro x; refine Kept.cut (s := s0) (x := x) ?_ ?_)
    | (intro x; refine Kept.cut (s := s0) (x := x.1) ?_ ?_)
    | (intro x; clear_value x)
    | lift_lets -underBinder
    | split
    | refine Kept.of_fst (by assumption) ?_
    | (unfold x; split)
    | (refine Kept.upd ?_; first | assumption | refine State.dec_kept ?_ | refine freeSlot_kept ?_ | refine abortMove_kept ?_)

theorem replaceQuires_kept {g : Nat} {s0 s : State} (h : Kept s0 s) :
    Kept s0 (replaceQuires s g) := by
  unfold replaceQuires
  with_reducible repeat' first
    | exact h
    | refine State.each_kept ?_ (fun x a hx => ?_)
    | refine takeSlot_kept ?_
    | refine Kept.ite ?_ ?_
    | assumption
    | (intro hx; clear_value x)
    | (intro x; refine Kept.cut (s := s0) (x := x) ?_ ?_)
    | (intro x; refine Kept.cut (s := s0) (x := x.1) ?_ ?_)
    | (intro x; clear_value x)
    | lift_lets -underBinder
    | split
    | refine Kept.of_fst (by assumption) ?_
    | (unfold x; split)
    | (refine Kept.upd ?_; first | assumption | refine State.each_kept ?_ (fun x a hx => ?_) | refine takeSlot_kept ?_ | refine Kept.ite ?_ ?_)

theorem pump_kept {s0 s : State} (h : Kept s0 s) :
    Kept s0 (pump s) := by
  unfold pump
  with_reducible repeat' first
    | exact h
    | refine State.each_kept ?_ (fun x a hx => ?_)
    | refine startMove_kept ?_
    | refine startQuireMove_kept ?_
    | refine startHostedMove_kept ?_
    | refine Kept.ite ?_ ?_
    | assumption
    | (intro hx; clear_value x)
    | (intro x; refine Kept.cut (s := s0) (x := x) ?_ ?_)
    | (intro x; refine Kept.cut (s := s0) (x := x.1) ?_ ?_)
    | (intro x; clear_value x)
    | lift_lets -underBinder
    | split
    | refine Kept.of_fst (by assumption) ?_
    | (unfold x; split)

theorem orderEvacuation_kept {v : Evacuation} {s0 s : State} (h : Kept s0 s) :
    Kept s0 (orderEvacuation s v) := by
  unfold orderEvacuation
  with_reducible repeat' first
    | exact h
    | refine reclass_kept ?_
    | refine pump_kept ?_
    | refine Kept.ite ?_ ?_
    | refine foldl_kept ?_ fun x a hx => ?_
    | refine foldl_kept_fst ?_ fun x a hx => ?_
    | assumption
    | (intro hx; clear_value x)
    | (intro x; refine Kept.cut (s := s0) (x := x) ?_ ?_)
    | (intro x; refine Kept.cut (s := s0) (x := x.1) ?_ ?_)
    | (intro x; clear_value x)
    | lift_lets -underBinder
    | split
    | (refine Kept.upd ?_; first | assumption | refine reclass_kept ?_ | refine pump_kept ?_ | refine Kept.ite ?_ ?_ | (refine Kept.upd ?_; first | assumption | refine reclass_kept ?_ | refine pump_kept ?_))

end Sys2Proof.Machine
end

