-- ==== Sys2Proof/Laws/KeptCalibration.lean ====
section
/-! SUPPORT. What every step keeps, through the functions of Calibration. -/

set_option linter.all false
set_option maxRecDepth 8000

namespace Sys2Proof.Machine

theorem setCal_kept {u : Nat} {x0 : CalUnit} {s0 s : State} (h : Kept s0 s) :
    Kept s0 (setCal s u x0) := by
  unfold setCal
  with_reducible repeat' first
    | exact h
    | (refine Kept.upd ?_; first | assumption)

theorem showTrim_kept {u : Nat} {s0 s : State} (h : Kept s0 s) :
    Kept s0 (showTrim s u) := by
  unfold showTrim
  with_reducible repeat' first
    | exact h
    | refine State.put_kept ?_
    | refine Kept.ite ?_ ?_
    | split

theorem trimSteps_kept {u : Nat} {moves : List (Nat × Bool)} {s0 s : State} (h : Kept s0 s) :
    Kept s0 (trimSteps s u moves) := by
  unfold trimSteps
  with_reducible repeat' first
    | exact h
    | refine State.put_kept ?_
    | refine event_kept ?_
    | refine setCal_kept ?_
    | refine showTrim_kept ?_
    | refine Kept.ite ?_ ?_
    | refine foldl_kept ?_ fun x a hx => ?_
    | refine foldl_kept_fst ?_ fun x a hx => ?_
    | assumption
    | (intro hx; clear_value x)
    | (intro x; refine Kept.cut (s := s0) (x := x) ?_ ?_)
    | (intro x; refine Kept.cut (s := s0) (x := x.1) ?_ ?_)
    | (intro x; clear_value x)
    | lift_lets -underBinder
    | split
    | refine Kept.of_fst (by assumption) ?_
    | (refine Kept.upd ?_; first | assumption | refine State.put_kept ?_ | refine event_kept ?_ | refine setCal_kept ?_ | refine showTrim_kept ?_ | refine Kept.ite ?_ ?_)

theorem swapBank_kept {u : Nat} {s0 s : State} (h : Kept s0 s) :
    Kept s0 (swapBank s u) := by
  unfold swapBank
  with_reducible repeat' first
    | exact h
    | refine setCal_kept ?_
    | assumption
    | (intro hx; clear_value x)
    | (intro x; refine Kept.cut (s := s0) (x := x) ?_ ?_)
    | (intro x; refine Kept.cut (s := s0) (x := x.1) ?_ ?_)
    | (intro x; clear_value x)
    | lift_lets -underBinder
    | split
    | refine Kept.of_fst (by assumption) ?_
    | (unfold x; split)
    | (refine Kept.upd ?_; first | assumption | refine setCal_kept ?_)

theorem evaluateUnit_kept {u : Nat} {s0 s : State} (h : Kept s0 s) :
    Kept s0 (evaluateUnit s u) := by
  unfold evaluateUnit
  with_reducible repeat' first
    | exact h
    | refine State.put_kept ?_
    | refine setCal_kept ?_
    | refine Kept.ite ?_ ?_
    | refine foldl_kept ?_ fun x a hx => ?_
    | refine foldl_kept_fst ?_ fun x a hx => ?_
    | assumption
    | (intro hx; clear_value x)
    | (intro x; refine Kept.cut (s := s0) (x := x) ?_ ?_)
    | (intro x; refine Kept.cut (s := s0) (x := x.1) ?_ ?_)
    | (intro x; clear_value x)
    | lift_lets -underBinder
    | split
    | (refine Kept.upd ?_; first | assumption | refine State.put_kept ?_ | refine setCal_kept ?_ | refine Kept.ite ?_ ?_)

theorem baseCalibration_kept {s0 s : State} (h : Kept s0 s) :
    Kept s0 (baseCalibration s) := by
  unfold baseCalibration
  with_reducible repeat' first
    | exact h
    | refine State.each_kept ?_ (fun x a hx => ?_)
    | refine setCal_kept ?_
    | refine Kept.ite ?_ ?_
    | assumption
    | split
    | (refine Kept.upd ?_; first | assumption | refine State.each_kept ?_ (fun x a hx => ?_) | refine setCal_kept ?_ | refine Kept.ite ?_ ?_)

theorem execCalFolioEvaluate_ends {s0 s : State} (h : Kept s0 s) :
    Ends s0 (execCalFolioEvaluate s) := by
  unfold execCalFolioEvaluate
  refine Ends.next ?_
  with_reducible repeat' first
    | exact h
    | refine State.put_kept ?_
    | refine State.each_kept ?_ (fun x a hx => ?_)
    | refine evaluateUnit_kept ?_
    | refine baseCalibration_kept ?_
    | refine Kept.ite ?_ ?_
    | assumption
    | (intro hx; clear_value x)
    | (intro x; refine Kept.cut (s := s0) (x := x) ?_ ?_)
    | (intro x; refine Kept.cut (s := s0) (x := x.1) ?_ ?_)
    | (intro x; clear_value x)
    | lift_lets -underBinder
    | split

theorem execLaneSetSwap_ends {quad : Fin 4} {s0 s : State} (h : Kept s0 s) :
    Ends s0 (execLaneSetSwap quad s) := by
  unfold execLaneSetSwap
  refine Ends.next ?_
  with_reducible repeat' first
    | exact h
    | refine swapBank_kept ?_
    | refine Kept.ite ?_ ?_
    | assumption
    | (intro hx; clear_value x)
    | (intro x; refine Kept.cut (s := s0) (x := x) ?_ ?_)
    | (intro x; refine Kept.cut (s := s0) (x := x.1) ?_ ?_)
    | (intro x; clear_value x)
    | lift_lets -underBinder
    | split

theorem requestCal_kept {w : BitVec 64} {s0 s : State} (h : Kept s0 s) :
    Kept s0 (requestCal s w) := by
  unfold requestCal
  with_reducible repeat' first
    | exact h
    | refine notice_kept ?_
    | refine setCal_kept ?_
    | refine Kept.ite ?_ ?_
    | assumption
    | (intro hx; clear_value x)
    | (intro x; refine Kept.cut (s := s0) (x := x) ?_ ?_)
    | (intro x; refine Kept.cut (s := s0) (x := x.1) ?_ ?_)
    | (intro x; clear_value x)
    | lift_lets -underBinder
    | split
    | (refine Kept.upd ?_; first | assumption | refine notice_kept ?_ | refine setCal_kept ?_ | refine Kept.ite ?_ ?_)

theorem execCalRequest_ends {value : BitVec 64} {s0 s : State} (h : Kept s0 s) :
    Ends s0 (execCalRequest value s) := by
  unfold execCalRequest
  refine Ends.next ?_
  with_reducible repeat' first
    | exact h
    | refine requestCal_kept ?_

theorem execCalHoldStart_ends {chan : Fin 256} {s0 s : State} (h : Kept s0 s) :
    Ends s0 (execCalHoldStart chan s) := by
  unfold execCalHoldStart
  refine Ends.next ?_
  with_reducible repeat' first
    | exact h
    | refine State.put_kept ?_
    | refine setCal_kept ?_
    | refine Kept.ite ?_ ?_
    | assumption
    | (intro hx; clear_value x)
    | (intro x; refine Kept.cut (s := s0) (x := x) ?_ ?_)
    | (intro x; refine Kept.cut (s := s0) (x := x.1) ?_ ?_)
    | (intro x; clear_value x)
    | lift_lets -underBinder
    | split
    | refine Kept.of_fst (by assumption) ?_
    | (refine Kept.upd ?_; first | assumption | refine State.put_kept ?_ | refine setCal_kept ?_ | refine Kept.ite ?_ ?_)

theorem rejectResult_kept {u : Nat} {s0 s : State} (h : Kept s0 s) :
    Kept s0 (rejectResult s u) := by
  unfold rejectResult
  with_reducible repeat' first
    | exact h
    | refine State.put_kept ?_
    | refine State.inc_kept ?_
    | refine event_kept ?_
    | refine setCal_kept ?_
    | refine Kept.ite ?_ ?_
    | assumption
    | (intro hx; clear_value x)
    | (intro x; refine Kept.cut (s := s0) (x := x) ?_ ?_)
    | (intro x; refine Kept.cut (s := s0) (x := x.1) ?_ ?_)
    | (intro x; clear_value x)
    | lift_lets -underBinder
    | split

theorem cancelHold_kept {g : Nat} {again : Bool} {s0 s : State} (h : Kept s0 s) :
    Kept s0 (cancelHold s g again) := by
  unfold cancelHold
  with_reducible repeat' first
    | exact h
    | refine State.put_kept ?_
    | refine setCal_kept ?_
    | refine Kept.ite ?_ ?_
    | assumption
    | (intro hx; clear_value x)
    | (intro x; refine Kept.cut (s := s0) (x := x) ?_ ?_)
    | (intro x; refine Kept.cut (s := s0) (x := x.1) ?_ ?_)
    | (intro x; clear_value x)
    | lift_lets -underBinder
    | split
    | (refine Kept.upd ?_; first | assumption | refine State.put_kept ?_ | refine setCal_kept ?_ | refine Kept.ite ?_ ?_)

theorem acceptResult_kept {u : Nat} {t : Int} {r : Tab Int} {s0 s : State} (h : Kept s0 s) :
    Kept s0 (acceptResult s u t r) := by
  unfold acceptResult
  with_reducible repeat' first
    | exact h
    | refine State.put_kept ?_
    | refine State.inc_kept ?_
    | refine setCal_kept ?_
    | refine showTrim_kept ?_
    | refine Kept.ite ?_ ?_
    | assumption
    | (intro hx; clear_value x)
    | (intro x; refine Kept.cut (s := s0) (x := x) ?_ ?_)
    | (intro x; refine Kept.cut (s := s0) (x := x.1) ?_ ?_)
    | (intro x; clear_value x)
    | lift_lets -underBinder
    | split
    | refine Kept.of_fst (by assumption) ?_
    | (unfold x; split)
    | (refine Kept.upd ?_; first | assumption | refine State.put_kept ?_ | refine State.inc_kept ?_ | refine setCal_kept ?_ | refine showTrim_kept ?_ | refine Kept.ite ?_ ?_)

theorem calibrateLane_kept {p : Nat} {l : Nat} {best : Option (Nat × Nat × Nat)} {drift : Nat} {s0 s : State} (h : Kept s0 s) :
    Kept s0 (calibrateLane s p l best drift).1 := by
  unfold calibrateLane
  with_reducible repeat' first
    | exact h
    | refine State.put_kept ?_
    | refine rejectResult_kept ?_
    | refine acceptResult_kept ?_
    | refine Kept.ite ?_ ?_
    | refine Kept.ite_fst ?_ ?_
    | assumption
    | (intro hx; clear_value x)
    | (intro x; refine Kept.cut (s := s0) (x := x) ?_ ?_)
    | (intro x; refine Kept.cut (s := s0) (x := x.1) ?_ ?_)
    | (intro x; clear_value x)
    | lift_lets -underBinder
    | split
    | refine Kept.of_fst (by assumption) ?_
    | (unfold x; split)

theorem execCalHoldComplete_ends {chan : Fin 256} {temp : Int} {values : List (Nat × Int)} {eyes : Bool} {drift : Nat} {s0 s : State} (h : Kept s0 s) :
    Ends s0 (execCalHoldComplete chan temp values eyes drift s) := by
  unfold execCalHoldComplete
  refine Ends.next ?_
  with_reducible repeat' first
    | exact h
    | refine State.put_kept ?_
    | refine rejectResult_kept ?_
    | refine acceptResult_kept ?_
    | refine Kept.ite ?_ ?_
    | refine foldl_kept ?_ fun x a hx => ?_
    | refine foldl_kept_fst ?_ fun x a hx => ?_
    | assumption
    | (intro hx; clear_value x)
    | (intro x; refine Kept.cut (s := s0) (x := x) ?_ ?_)
    | (intro x; refine Kept.cut (s := s0) (x := x.1) ?_ ?_)
    | (intro x; clear_value x)
    | lift_lets -underBinder
    | split

theorem execCalRecordFlush_ends {unit : Fin 260} {s0 s : State} (h : Kept s0 s) :
    Ends s0 (execCalRecordFlush unit s) := by
  unfold execCalRecordFlush
  refine Ends.next ?_
  with_reducible repeat' first
    | exact h
    | refine setCal_kept ?_
    | refine Kept.ite ?_ ?_
    | assumption
    | (intro hx; clear_value x)
    | (intro x; refine Kept.cut (s := s0) (x := x) ?_ ?_)
    | (intro x; refine Kept.cut (s := s0) (x := x.1) ?_ ?_)
    | (intro x; clear_value x)
    | lift_lets -underBinder
    | split
    | refine Kept.of_fst (by assumption) ?_
    | (unfold x; split)
    | (refine Kept.upd ?_; first | assumption | refine setCal_kept ?_ | refine Kept.ite ?_ ?_)

end Sys2Proof.Machine
end

