-- ==== Sys2Proof/Laws/KeptCores.lean ====
section
/-! SUPPORT. What every step keeps, through the functions of Cores. -/

set_option linter.all false
set_option maxRecDepth 8000

namespace Sys2Proof.Machine

theorem setCore_kept {k : Nat} {c : CoreState} {s0 s : State} (h : Kept s0 s) :
    Kept s0 (setCore s k c) := by
  unfold setCore
  with_reducible repeat' first
    | exact h
    | (refine Kept.upd ?_; first | assumption)

theorem modCore_kept {k : Nat} {f : CoreState → CoreState} {s0 s : State} (h : Kept s0 s) :
    Kept s0 (modCore s k f) := by
  unfold modCore
  with_reducible repeat' first
    | exact h
    | refine setCore_kept ?_

theorem setReg_kept {k : Nat} {n : Nat} {v : BitVec 64} {s0 s : State} (h : Kept s0 s) :
    Kept s0 (setReg s k n v) := by
  unfold setReg
  with_reducible repeat' first
    | exact h
    | refine modCore_kept ?_
    | assumption

theorem dropAccess_kept {k : Nat} {slot : Nat} {s0 s : State} (h : Kept s0 s) :
    Kept s0 (dropAccess s k slot) := by
  unfold dropAccess
  with_reducible repeat' first
    | exact h
    | refine modCore_kept ?_
    | assumption
    | (intro hx; clear_value x)
    | (intro x; refine Kept.cut (s := s0) (x := x) ?_ ?_)
    | (intro x; refine Kept.cut (s := s0) (x := x.1) ?_ ?_)
    | (intro x; clear_value x)
    | lift_lets -underBinder
    | (refine Kept.upd ?_; first | assumption | refine modCore_kept ?_)

theorem setItem_kept {i : Nat} {x0 : Item} {s0 s : State} (h : Kept s0 s) :
    Kept s0 (setItem s i x0) := by
  unfold setItem
  with_reducible repeat' first
    | exact h
    | (refine Kept.upd ?_; first | assumption)

theorem showDepth_kept {k : Nat} {s0 s : State} (h : Kept s0 s) :
    Kept s0 (showDepth s k) := by
  unfold showDepth
  with_reducible repeat' first
    | exact h
    | refine State.put_kept ?_

theorem noteUse_kept {k : Nat} {s0 s : State} (h : Kept s0 s) :
    Kept s0 (noteUse s k) := by
  unfold noteUse
  with_reducible repeat' first
    | exact h
    | (refine Kept.upd ?_; first | assumption)

theorem requeueItems_kept {k : Nat} {s0 s : State} (h : Kept s0 s) :
    Kept s0 (requeueItems s k) := by
  unfold requeueItems
  with_reducible repeat' first
    | exact h
    | refine modCore_kept ?_
    | refine setItem_kept ?_
    | refine showDepth_kept ?_
    | refine noteUse_kept ?_
    | refine Kept.ite ?_ ?_
    | refine foldl_kept ?_ fun x a hx => ?_
    | refine foldl_kept_fst ?_ fun x a hx => ?_
    | assumption
    | (intro hx; clear_value x)
    | (intro x; refine Kept.cut (s := s0) (x := x) ?_ ?_)
    | (intro x; refine Kept.cut (s := s0) (x := x.1) ?_ ?_)
    | (intro x; clear_value x)
    | lift_lets -underBinder
    | split
    | refine Kept.of_fst (by assumption) ?_
    | (unfold x; split)
    | (refine Kept.upd ?_; first | assumption | refine modCore_kept ?_ | refine setItem_kept ?_ | refine showDepth_kept ?_ | refine noteUse_kept ?_ | refine Kept.ite ?_ ?_)

theorem keepCluster_kept {k : Nat} {s0 s : State} (h : Kept s0 s) :
    Kept s0 (keepCluster s k) := by
  unfold keepCluster
  with_reducible repeat' first
    | exact h
    | refine setItem_kept ?_
    | refine foldl_kept ?_ fun x a hx => ?_
    | refine foldl_kept_fst ?_ fun x a hx => ?_
    | assumption
    | split
    | refine Kept.of_fst (by assumption) ?_
    | (refine Kept.upd ?_; first | assumption | refine setItem_kept ?_)

theorem discardItems_kept {p : Nat} {j : Nat} {s0 s : State} (h : Kept s0 s) :
    Kept s0 (discardItems s p j) := by
  unfold discardItems
  with_reducible repeat' first
    | exact h
    | refine event_kept ?_
    | refine modCore_kept ?_
    | refine showDepth_kept ?_
    | refine noteUse_kept ?_
    | refine Kept.ite ?_ ?_
    | refine Kept.ite_fst ?_ ?_
    | refine foldl_kept ?_ fun x a hx => ?_
    | refine foldl_kept_fst ?_ fun x a hx => ?_
    | assumption
    | (intro hx; clear_value x)
    | (intro x; refine Kept.cut (s := s0) (x := x) ?_ ?_)
    | (intro x; refine Kept.cut (s := s0) (x := x.1) ?_ ?_)
    | (intro x; clear_value x)
    | lift_lets -underBinder
    | split
    | refine Kept.of_fst (by assumption) ?_
    | (refine Kept.upd ?_; first | assumption | refine event_kept ?_ | refine modCore_kept ?_ | refine showDepth_kept ?_ | refine noteUse_kept ?_ | refine Kept.ite ?_ ?_ | (refine Kept.upd ?_; first | assumption | refine event_kept ?_ | refine modCore_kept ?_ | refine showDepth_kept ?_ | refine noteUse_kept ?_))

end Sys2Proof.Machine
end

