-- ==== Sys2Proof/Laws/KeptChannel.lean ====
section
/-! SUPPORT. What every step keeps, through the functions of Channel. -/

set_option linter.all false
set_option maxRecDepth 8000

namespace Sys2Proof.Machine

theorem broadcast_kept {d : BitVec 64} {s0 s : State} (h : Kept s0 s) :
    Kept s0 (broadcast s d) := by
  unfold broadcast
  with_reducible repeat' first
    | exact h
    | refine State.each_kept ?_ (fun x a hx => ?_)
    | refine postEvent_kept ?_
    | assumption

theorem recordRepair_kept {g : Nat} {kind : Nat} {index : Nat} {s0 s : State} (h : Kept s0 s) :
    Kept s0 (recordRepair s g kind index) := by
  unfold recordRepair
  with_reducible repeat' first
    | exact h
    | refine toColophon_kept ?_

theorem leaveSpreadSets_kept {g : Nat} {s0 s : State} (h : Kept s0 s) :
    Kept s0 (leaveSpreadSets s g) := by
  unfold leaveSpreadSets
  with_reducible repeat' first
    | exact h
    | refine State.setFlag_kept ?_
    | refine State.each_kept ?_ (fun x a hx => ?_)
    | assumption

theorem wantRelease_kept {n : Nat} {s0 s : State} (h : Kept s0 s) :
    Kept s0 (wantRelease s n) := by
  unfold wantRelease
  with_reducible repeat' first
    | exact h
    | (refine Kept.upd ?_; first | assumption)

theorem enterState_kept {g : Nat} {new : Nat} {lost : Bool} {s0 s : State} (h : Kept s0 s) :
    Kept s0 (enterState s g new lost) := by
  unfold enterState
  with_reducible repeat' first
    | exact h
    | refine State.put_kept ?_
    | refine event_kept ?_
    | refine abortTo_kept ?_
    | refine orderEvacuation_kept ?_
    | refine cancelHold_kept ?_
    | refine requeueItems_kept ?_
    | refine keepCluster_kept ?_
    | refine broadcast_kept ?_
    | refine recordRepair_kept ?_
    | refine leaveSpreadSets_kept ?_
    | refine wantRelease_kept ?_
    | refine Kept.ite ?_ ?_
    | assumption
    | (intro hx; clear_value x)
    | (intro x; refine Kept.cut (s := s0) (x := x) ?_ ?_)
    | (intro x; refine Kept.cut (s := s0) (x := x.1) ?_ ?_)
    | (intro x; clear_value x)
    | lift_lets -underBinder
    | split
    | refine Kept.of_fst (by assumption) ?_
    | (unfold x; split)
    | (refine Kept.upd ?_; first | assumption | refine State.put_kept ?_ | refine event_kept ?_ | refine abortTo_kept ?_ | refine orderEvacuation_kept ?_ | refine cancelHold_kept ?_ | refine requeueItems_kept ?_ | refine keepCluster_kept ?_ | refine broadcast_kept ?_ | refine recordRepair_kept ?_ | refine leaveSpreadSets_kept ?_ | refine wantRelease_kept ?_ | refine Kept.ite ?_ ?_)

theorem updateState_kept {g : Nat} {s0 s : State} (h : Kept s0 s) :
    Kept s0 (updateState s g) := by
  unfold updateState
  with_reducible repeat' first
    | exact h
    | refine enterState_kept ?_
    | refine Kept.ite ?_ ?_
    | assumption
    | (intro hx; clear_value x)
    | (intro x; refine Kept.cut (s := s0) (x := x) ?_ ?_)
    | (intro x; refine Kept.cut (s := s0) (x := x.1) ?_ ?_)
    | (intro x; clear_value x)
    | lift_lets -underBinder
    | split

theorem finishEvacuations_kept {s0 s : State} (h : Kept s0 s) :
    Kept s0 (finishEvacuations s) := by
  unfold finishEvacuations
  with_reducible repeat' first
    | exact h
    | refine State.each_kept ?_ (fun x a hx => ?_)
    | refine enterState_kept ?_
    | refine Kept.ite ?_ ?_
    | assumption
    | (intro hx; clear_value x)
    | (intro x; refine Kept.cut (s := s0) (x := x) ?_ ?_)
    | (intro x; refine Kept.cut (s := s0) (x := x.1) ?_ ?_)
    | (intro x; clear_value x)
    | lift_lets -underBinder
    | split
    | (refine Kept.upd ?_; first | assumption | refine State.each_kept ?_ (fun x a hx => ?_) | refine enterState_kept ?_ | refine Kept.ite ?_ ?_)

theorem declareData_kept {g : Nat} {t : Nat} {s0 s : State} (h : Kept s0 s) :
    Kept s0 (declareData s g t) := by
  unfold declareData
  with_reducible repeat' first
    | exact h
    | refine State.put_kept ?_
    | refine State.setFlag_kept ?_
    | refine event_kept ?_
    | refine modChan_kept ?_
    | refine cancelHold_kept ?_
    | refine recordRepair_kept ?_
    | refine updateState_kept ?_
    | refine Kept.ite ?_ ?_
    | assumption
    | (intro hx; clear_value x)
    | (intro x; refine Kept.cut (s := s0) (x := x) ?_ ?_)
    | (intro x; refine Kept.cut (s := s0) (x := x.1) ?_ ?_)
    | (intro x; clear_value x)
    | lift_lets -underBinder
    | split
    | (refine Kept.upd ?_; first | assumption | refine State.put_kept ?_ | refine State.setFlag_kept ?_ | refine event_kept ?_ | refine modChan_kept ?_ | refine cancelHold_kept ?_ | refine recordRepair_kept ?_ | refine updateState_kept ?_ | refine Kept.ite ?_ ?_)

theorem declareCa_kept {g : Nat} {t : Nat} {s0 s : State} (h : Kept s0 s) :
    Kept s0 (declareCa s g t) := by
  unfold declareCa
  with_reducible repeat' first
    | exact h
    | refine State.put_kept ?_
    | refine State.setFlag_kept ?_
    | refine event_kept ?_
    | refine modChan_kept ?_
    | refine cancelHold_kept ?_
    | refine recordRepair_kept ?_
    | refine updateState_kept ?_
    | refine Kept.ite ?_ ?_
    | assumption
    | (intro hx; clear_value x)
    | (intro x; refine Kept.cut (s := s0) (x := x) ?_ ?_)
    | (intro x; refine Kept.cut (s := s0) (x := x.1) ?_ ?_)
    | (intro x; clear_value x)
    | lift_lets -underBinder
    | split
    | (refine Kept.upd ?_; first | assumption | refine State.put_kept ?_ | refine State.setFlag_kept ?_ | refine event_kept ?_ | refine modChan_kept ?_ | refine cancelHold_kept ?_ | refine recordRepair_kept ?_ | refine updateState_kept ?_ | refine Kept.ite ?_ ?_)

theorem reportRow_kept {g : Nat} {bank : Nat} {row : Nat} {s0 s : State} (h : Kept s0 s) :
    Kept s0 (reportRow s g bank row) := by
  unfold reportRow
  with_reducible repeat' first
    | exact h
    | split
    | refine Kept.of_fst (by assumption) ?_
    | (refine Kept.upd ?_; first | assumption)

theorem showPending_kept {g : Nat} {s0 s : State} (h : Kept s0 s) :
    Kept s0 (showPending s g) := by
  unfold showPending
  with_reducible repeat' first
    | exact h
    | refine State.put_kept ?_

theorem rowErrors_kept {g : Nat} {bank : Nat} {row : Nat} {n : Nat} {s0 s : State} (h : Kept s0 s) :
    Kept s0 (rowErrors s g bank row n) := by
  unfold rowErrors
  with_reducible repeat' first
    | exact h
    | refine event_kept ?_
    | refine setChan_kept ?_
    | refine reportRow_kept ?_
    | refine showPending_kept ?_
    | refine Kept.ite ?_ ?_
    | assumption
    | (intro hx; clear_value x)
    | (intro x; refine Kept.cut (s := s0) (x := x) ?_ ?_)
    | (intro x; refine Kept.cut (s := s0) (x := x.1) ?_ ?_)
    | (intro x; clear_value x)
    | lift_lets -underBinder
    | split
    | refine Kept.of_fst (by assumption) ?_
    | (unfold x; split)
    | (refine Kept.upd ?_; first | assumption | refine event_kept ?_ | refine setChan_kept ?_ | refine reportRow_kept ?_ | refine showPending_kept ?_ | refine Kept.ite ?_ ?_)

theorem countDecode_kept {g : Nat} {bank : Nat} {row : Nat} {errors : List (Fin 40)} {s0 s : State} (h : Kept s0 s) :
    Kept s0 (countDecode s g bank row errors) := by
  unfold countDecode
  with_reducible repeat' first
    | exact h
    | refine State.inc_kept ?_
    | refine State.each_kept ?_ (fun x a hx => ?_)
    | refine modChan_kept ?_
    | refine declareData_kept ?_
    | refine rowErrors_kept ?_
    | refine Kept.ite ?_ ?_
    | refine foldl_kept ?_ fun x a hx => ?_
    | refine foldl_kept_fst ?_ fun x a hx => ?_
    | assumption
    | (intro hx; clear_value x)
    | (intro x; refine Kept.cut (s := s0) (x := x) ?_ ?_)
    | (intro x; refine Kept.cut (s := s0) (x := x.1) ?_ ?_)
    | (intro x; clear_value x)
    | lift_lets -underBinder
    | split
    | refine Kept.of_fst (by assumption) ?_

theorem substitute_kept {g : Nat} {r : Nat} {s0 s : State} (h : Kept s0 s) :
    Kept s0 (substitute s g r) := by
  unfold substitute
  with_reducible repeat' first
    | exact h
    | refine State.put_kept ?_
    | refine event_kept ?_
    | refine modChan_kept ?_
    | refine recordRepair_kept ?_
    | assumption
    | (intro hx; clear_value x)
    | (intro x; refine Kept.cut (s := s0) (x := x) ?_ ?_)
    | (intro x; refine Kept.cut (s := s0) (x := x.1) ?_ ?_)
    | (intro x; clear_value x)
    | lift_lets -underBinder
    | (refine Kept.upd ?_; first | assumption | refine State.put_kept ?_ | refine event_kept ?_ | refine modChan_kept ?_ | refine recordRepair_kept ?_)

theorem retire_kept {g : Nat} {r : Nat} {s0 s : State} (h : Kept s0 s) :
    Kept s0 (retire s g r) := by
  unfold retire
  with_reducible repeat' first
    | exact h
    | refine State.setFlag_kept ?_
    | refine event_kept ?_
    | refine abortTo_kept ?_
    | refine orderEvacuation_kept ?_
    | refine recordRepair_kept ?_
    | refine wantRelease_kept ?_
    | refine updateState_kept ?_
    | refine Kept.ite ?_ ?_
    | assumption
    | (intro hx; clear_value x)
    | (intro x; refine Kept.cut (s := s0) (x := x) ?_ ?_)
    | (intro x; refine Kept.cut (s := s0) (x := x.1) ?_ ?_)
    | (intro x; clear_value x)
    | lift_lets -underBinder
    | split

theorem failSpare_kept {g : Nat} {s0 s : State} (h : Kept s0 s) :
    Kept s0 (failSpare s g) := by
  unfold failSpare
  with_reducible repeat' first
    | exact h
    | refine State.put_kept ?_
    | refine modChan_kept ?_
    | refine recordRepair_kept ?_
    | refine retire_kept ?_
    | assumption
    | (intro hx; clear_value x)
    | (intro x; refine Kept.cut (s := s0) (x := x) ?_ ?_)
    | (intro x; refine Kept.cut (s := s0) (x := x.1) ?_ ?_)
    | (intro x; clear_value x)
    | lift_lets -underBinder
    | split
    | refine Kept.of_fst (by assumption) ?_
    | (unfold x; split)
    | (refine Kept.upd ?_; first | assumption | refine State.put_kept ?_ | refine modChan_kept ?_ | refine recordRepair_kept ?_ | refine retire_kept ?_)

theorem failRank_kept {g : Nat} {r : Nat} {s0 s : State} (h : Kept s0 s) :
    Kept s0 (failRank s g r) := by
  unfold failRank
  with_reducible repeat' first
    | exact h
    | refine substitute_kept ?_
    | refine retire_kept ?_
    | refine failSpare_kept ?_
    | refine Kept.ite ?_ ?_
    | split

theorem failLayer_kept {t : Nat} {l : Nat} {by' : Nat} {s0 s : State} (h : Kept s0 s) :
    Kept s0 (failLayer s t l by') := by
  unfold failLayer
  with_reducible repeat' first
    | exact h
    | refine State.each_kept ?_ (fun x a hx => ?_)
    | refine event_kept ?_
    | refine recordRepair_kept ?_
    | refine failSpare_kept ?_
    | refine failRank_kept ?_
    | refine Kept.ite ?_ ?_
    | assumption
    | (intro hx; clear_value x)
    | (intro x; refine Kept.cut (s := s0) (x := x) ?_ ?_)
    | (intro x; refine Kept.cut (s := s0) (x := x.1) ?_ ?_)
    | (intro x; clear_value x)
    | lift_lets -underBinder
    | split
    | (refine Kept.upd ?_; first | assumption | refine State.each_kept ?_ (fun x a hx => ?_) | refine event_kept ?_ | refine recordRepair_kept ?_ | refine failSpare_kept ?_ | refine failRank_kept ?_ | refine Kept.ite ?_ ?_)

theorem countRankFail_kept {g : Nat} {r : Nat} {s0 s : State} (h : Kept s0 s) :
    Kept s0 (countRankFail s g r) := by
  unfold countRankFail
  with_reducible repeat' first
    | exact h
    | refine failLayer_kept ?_
    | refine Kept.ite ?_ ?_
    | assumption
    | (intro hx; clear_value x)
    | (intro x; refine Kept.cut (s := s0) (x := x) ?_ ?_)
    | (intro x; refine Kept.cut (s := s0) (x := x.1) ?_ ?_)
    | (intro x; clear_value x)
    | lift_lets -underBinder
    | split
    | refine Kept.of_fst (by assumption) ?_
    | (refine Kept.upd ?_; first | assumption | refine failLayer_kept ?_ | refine Kept.ite ?_ ?_)

theorem spareTestFails_kept {g : Nat} {s0 s : State} (h : Kept s0 s) :
    Kept s0 (spareTestFails s g) := by
  unfold spareTestFails
  with_reducible repeat' first
    | exact h
    | refine event_kept ?_
    | refine failSpare_kept ?_
    | refine countRankFail_kept ?_

theorem dieStops_kept {t : Nat} {l : Nat} {s0 s : State} (h : Kept s0 s) :
    Kept s0 (dieStops s t l) := by
  unfold dieStops
  with_reducible repeat' first
    | exact h
    | refine failLayer_kept ?_
    | refine Kept.ite ?_ ?_
    | split

theorem rankFailed_kept {g : Nat} {r : Nat} {master : Option Nat} {access : Nat} {dpa : Option Nat} {media : Option Nat} {s0 s : State} (h : Kept s0 s) :
    Kept s0 (rankFailed s g r master access dpa media) := by
  unfold rankFailed
  with_reducible repeat' first
    | exact h
    | refine report_kept ?_
    | refine failRank_kept ?_
    | refine countRankFail_kept ?_
    | refine Kept.ite ?_ ?_
    | assumption
    | (intro hx; clear_value x)
    | (intro x; refine Kept.cut (s := s0) (x := x) ?_ ?_)
    | (intro x; refine Kept.cut (s := s0) (x := x.1) ?_ ?_)
    | (intro x; clear_value x)
    | lift_lets -underBinder
    | split

theorem transient_kept {g : Nat} {s0 s : State} (h : Kept s0 s) :
    Kept s0 (transient s g) := by
  unfold transient
  with_reducible repeat' first
    | exact h
    | refine State.inc_kept ?_
    | refine event_kept ?_

theorem readSeen_kept {l : Loc} {i : Nat} {run : ReadRun} {master : Option Nat} {dpa : Option Nat} {s0 s : State} (h : Kept s0 s) :
    Kept s0 (readSeen s l i run master dpa) := by
  unfold readSeen
  with_reducible repeat' first
    | exact h
    | refine countDecode_kept ?_
    | refine rankFailed_kept ?_
    | refine transient_kept ?_
    | refine Kept.ite ?_ ?_
    | assumption
    | (intro hx; clear_value x)
    | (intro x; refine Kept.cut (s := s0) (x := x) ?_ ?_)
    | (intro x; refine Kept.cut (s := s0) (x := x.1) ?_ ?_)
    | (intro x; clear_value x)
    | lift_lets -underBinder
    | split

theorem respond_kept {o : Origin} {account : Nat} {r : Reply} {s0 s : State} (h : Kept s0 s) :
    Kept s0 (respond s o account r) := by
  unfold respond
  with_reducible repeat' first
    | exact h
    | refine State.send_kept ?_
    | refine Kept.ite ?_ ?_
    | assumption
    | (intro hx; clear_value x)
    | (intro x; refine Kept.cut (s := s0) (x := x) ?_ ?_)
    | (intro x; refine Kept.cut (s := s0) (x := x.1) ?_ ?_)
    | (intro x; clear_value x)
    | lift_lets -underBinder
    | split
    | refine Kept.of_fst (by assumption) ?_
    | (unfold x; split)
    | (refine Kept.upd ?_; first | assumption | refine State.send_kept ?_ | refine Kept.ite ?_ ?_)

theorem fillPools_kept {g : Nat} {s0 s : State} (h : Kept s0 s) :
    Kept s0 (fillPools s g) := by
  unfold fillPools
  with_reducible repeat' first
    | exact h
    | refine State.put_kept ?_
    | refine setChan_kept ?_
    | refine foldl_kept ?_ fun x a hx => ?_
    | refine foldl_kept_fst ?_ fun x a hx => ?_
    | assumption
    | (intro hx; clear_value x)
    | (intro x; refine Kept.cut (s := s0) (x := x) ?_ ?_)
    | (intro x; refine Kept.cut (s := s0) (x := x.1) ?_ ?_)
    | (intro x; clear_value x)
    | lift_lets -underBinder

theorem fillWaiting_kept {s0 s : State} (h : Kept s0 s) :
    Kept s0 (fillWaiting s) := by
  unfold fillWaiting
  with_reducible repeat' first
    | exact h
    | refine State.each_kept ?_ (fun x a hx => ?_)
    | refine fillPools_kept ?_
    | assumption

theorem enterPool_kept {a : MemRead} {l : Loc} {s0 s : State} (h : Kept s0 s) :
    Kept s0 (enterPool s a l) := by
  unfold enterPool
  with_reducible repeat' first
    | exact h
    | refine modChan_kept ?_
    | refine fillPools_kept ?_
    | assumption
    | (intro hx; clear_value x)
    | (intro x; refine Kept.cut (s := s0) (x := x) ?_ ?_)
    | (intro x; refine Kept.cut (s := s0) (x := x.1) ?_ ?_)
    | (intro x; clear_value x)
    | lift_lets -underBinder
    | (refine Kept.upd ?_; first | assumption | refine modChan_kept ?_ | refine fillPools_kept ?_)

theorem fillWrites_kept {g : Nat} {s0 s : State} (h : Kept s0 s) :
    Kept s0 (fillWrites s g) := by
  unfold fillWrites
  with_reducible repeat' first
    | exact h
    | refine State.each_kept ?_ (fun x a hx => ?_)
    | refine setChan_kept ?_
    | refine respond_kept ?_
    | assumption
    | (intro hx; clear_value x)
    | (intro x; refine Kept.cut (s := s0) (x := x) ?_ ?_)
    | (intro x; refine Kept.cut (s := s0) (x := x.1) ?_ ?_)
    | (intro x; clear_value x)
    | lift_lets -underBinder
    | split
    | refine Kept.of_fst (by assumption) ?_
    | (unfold x; split)
    | (refine Kept.upd ?_; first | assumption | refine State.each_kept ?_ (fun x a hx => ?_) | refine setChan_kept ?_ | refine respond_kept ?_)

theorem refreshBank_kept {g : Nat} {bank : Nat} {s0 s : State} (h : Kept s0 s) :
    Kept s0 (refreshBank s g bank) := by
  unfold refreshBank
  with_reducible repeat' first
    | exact h
    | refine modChan_kept ?_
    | refine Kept.ite ?_ ?_
    | assumption
    | (intro hx; clear_value x)
    | (intro x; refine Kept.cut (s := s0) (x := x) ?_ ?_)
    | (intro x; refine Kept.cut (s := s0) (x := x.1) ?_ ?_)
    | (intro x; clear_value x)
    | lift_lets -underBinder
    | split
    | refine Kept.of_fst (by assumption) ?_
    | (refine Kept.upd ?_; first | assumption | refine modChan_kept ?_ | refine Kept.ite ?_ ?_)

theorem countActivate_kept {g : Nat} {bank : Nat} {row : Nat} {s0 s : State} (h : Kept s0 s) :
    Kept s0 (countActivate s g bank row) := by
  unfold countActivate
  with_reducible repeat' first
    | exact h
    | refine State.put_kept ?_
    | refine event_kept ?_
    | refine setChan_kept ?_
    | refine modChan_kept ?_
    | refine Kept.ite ?_ ?_
    | refine foldl_kept ?_ fun x a hx => ?_
    | refine foldl_kept_fst ?_ fun x a hx => ?_
    | assumption
    | (intro hx; clear_value x)
    | (intro x; refine Kept.cut (s := s0) (x := x) ?_ ?_)
    | (intro x; refine Kept.cut (s := s0) (x := x.1) ?_ ?_)
    | (intro x; clear_value x)
    | lift_lets -underBinder
    | split
    | (refine Kept.upd ?_; first | assumption | refine State.put_kept ?_ | refine event_kept ?_ | refine setChan_kept ?_ | refine modChan_kept ?_ | refine Kept.ite ?_ ?_)

end Sys2Proof.Machine
end

