-- ==== Sys2Proof/Laws/KeptAccess.lean ====
section
/-! SUPPORT. What every step keeps, through the functions of Access. -/

set_option linter.all false
set_option maxRecDepth 8000

namespace Sys2Proof.Machine

theorem setFabric_kept {f : Fabric} {s0 s : State} (h : Kept s0 s) :
    Kept s0 (setFabric s f) := by
  unfold setFabric
  with_reducible repeat' first
    | exact h
    | (refine Kept.upd ?_; first | assumption)

theorem showFilter_kept {s0 s : State} (h : Kept s0 s) :
    Kept s0 (showFilter s) := by
  unfold showFilter
  with_reducible repeat' first
    | exact h
    | refine State.put_kept ?_
    | assumption

theorem sendSnoops_kept {line : Nat} {kind : Nat} {lds : List Nat} {s0 s : State} (h : Kept s0 s) :
    Kept s0 (sendSnoops s line kind lds).1 := by
  unfold sendSnoops
  with_reducible repeat' first
    | exact h
    | refine State.send_kept ?_
    | refine State.each_kept ?_ (fun x a hx => ?_)
    | assumption
    | (intro hx; clear_value x)
    | (intro x; refine Kept.cut (s := s0) (x := x) ?_ ?_)
    | (intro x; refine Kept.cut (s := s0) (x := x.1) ?_ ?_)
    | (intro x; clear_value x)
    | lift_lets -underBinder

theorem addSnoop_kept {line : Nat} {lds : List Nat} {why : SnoopWhy} {s0 s : State} (h : Kept s0 s) :
    Kept s0 (addSnoop s line lds why) := by
  unfold addSnoop
  with_reducible repeat' first
    | exact h
    | refine setFabric_kept ?_
    | (refine Kept.upd ?_; first | assumption | refine setFabric_kept ?_)

theorem setCoarse_kept {q : Nat} {s0 s : State} (h : Kept s0 s) :
    Kept s0 (setCoarse s q) := by
  unfold setCoarse
  with_reducible repeat' first
    | exact h
    | refine eventOnce_kept ?_
    | refine setFabric_kept ?_
    | refine Kept.ite ?_ ?_
    | split
    | (refine Kept.upd ?_; first | assumption | refine eventOnce_kept ?_ | refine setFabric_kept ?_ | refine Kept.ite ?_ ?_)

theorem allocFilter_kept {port : Nat} {line : Nat} {exclusive : Bool} {s0 s : State} (h : Kept s0 s) :
    Kept s0 (allocFilter s port line exclusive) := by
  unfold allocFilter
  with_reducible repeat' first
    | exact h
    | refine State.put_kept ?_
    | refine setFabric_kept ?_
    | refine showFilter_kept ?_
    | refine sendSnoops_kept ?_
    | refine addSnoop_kept ?_
    | refine setCoarse_kept ?_
    | refine Kept.ite ?_ ?_
    | refine Kept.ite_fst ?_ ?_
    | assumption
    | (intro hx; clear_value x)
    | (intro x; refine Kept.cut (s := s0) (x := x) ?_ ?_)
    | (intro x; refine Kept.cut (s := s0) (x := x.1) ?_ ?_)
    | (intro x; clear_value x)
    | lift_lets -underBinder
    | split
    | refine Kept.of_fst (by assumption) ?_
    | (unfold x; split)
    | (refine Kept.upd ?_; first | assumption | refine State.put_kept ?_ | refine setFabric_kept ?_ | refine showFilter_kept ?_ | refine sendSnoops_kept ?_ | refine addSnoop_kept ?_ | refine setCoarse_kept ?_ | refine Kept.ite ?_ ?_)

theorem clearHolders_kept {line : Nat} {keep : Option Nat} {s0 s : State} (h : Kept s0 s) :
    Kept s0 (clearHolders s line keep) := by
  unfold clearHolders
  with_reducible repeat' first
    | exact h
    | refine setFabric_kept ?_
    | refine showFilter_kept ?_
    | refine Kept.ite ?_ ?_
    | assumption
    | (intro hx; clear_value x)
    | (intro x; refine Kept.cut (s := s0) (x := x) ?_ ?_)
    | (intro x; refine Kept.cut (s := s0) (x := x.1) ?_ ?_)
    | (intro x; clear_value x)
    | lift_lets -underBinder
    | split
    | refine Kept.of_fst (by assumption) ?_
    | (unfold x; split)
    | (refine Kept.upd ?_; first | assumption | refine setFabric_kept ?_ | refine showFilter_kept ?_ | refine Kept.ite ?_ ?_)

theorem opened_kept {a : MemRead} {o : Opened} {access : Nat} {s0 s : State} (h : Kept s0 s) :
    Kept s0 (opened s a o access).1 := by
  unfold opened
  with_reducible repeat' first
    | exact h
    | refine sealViolation_kept ?_
    | refine sealAccessEvent_kept ?_
    | split
    | refine Kept.of_fst (by assumption) ?_

theorem topFailed_kept {leaf : Nat} {both : Bool} {s0 s : State} (h : Kept s0 s) :
    Kept s0 (topFailed s leaf both) := by
  unfold topFailed
  with_reducible repeat' first
    | exact h
    | refine sealEvent_kept ?_
    | refine Kept.ite ?_ ?_
    | assumption
    | (intro hx; clear_value x)
    | (intro x; refine Kept.cut (s := s0) (x := x) ?_ ?_)
    | (intro x; refine Kept.cut (s := s0) (x := x.1) ?_ ?_)
    | (intro x; clear_value x)
    | lift_lets -underBinder
    | split

theorem treeMet_kept {dpa : Nat} {fresh : Bool} {t : Option (Fin 5 × Bool)} {s0 s : State} (h : Kept s0 s) :
    Kept s0 (treeMet s dpa fresh t) := by
  unfold treeMet
  with_reducible repeat' first
    | exact h
    | refine State.inc_kept ?_
    | refine chargeNow_kept ?_
    | refine writeBack_kept ?_
    | refine sealEvent_kept ?_
    | refine addUnverifiable_kept ?_
    | refine rankFailed_kept ?_
    | refine topFailed_kept ?_
    | refine Kept.ite ?_ ?_
    | assumption
    | (intro hx; clear_value x)
    | (intro x; refine Kept.cut (s := s0) (x := x) ?_ ?_)
    | (intro x; refine Kept.cut (s := s0) (x := x.1) ?_ ?_)
    | (intro x; clear_value x)
    | lift_lets -underBinder
    | split
    | refine Kept.of_fst (by assumption) ?_
    | (unfold x; split)

theorem countBad_kept {o : Opened} {s0 s : State} (h : Kept s0 s) :
    Kept s0 (countBad s o) := by
  unfold countBad
  with_reducible repeat' first
    | exact h
    | refine State.inc_kept ?_
    | split
    | refine Kept.of_fst (by assumption) ?_

theorem failLine_kept {o : Origin} {dpa : Nat} {access : Nat} {l : Loc} {s0 s : State} (h : Kept s0 s) :
    Kept s0 (failLine s o dpa access l) := by
  unfold failLine
  with_reducible repeat' first
    | exact h
    | refine rankFailed_kept ?_
    | assumption
    | (intro hx; clear_value x)
    | (intro x; refine Kept.cut (s := s0) (x := x) ?_ ?_)
    | (intro x; refine Kept.cut (s := s0) (x := x.1) ?_ ?_)
    | (intro x; clear_value x)
    | lift_lets -underBinder

theorem mergeOpen_kept {w : Write} {l : Loc} {m : MediaLine} {s0 s : State} (h : Kept s0 s) :
    Kept s0 (mergeOpen s w l m).1 := by
  unfold mergeOpen
  with_reducible repeat' first
    | exact h
    | refine storeLine_kept ?_
    | refine sealAccessEvent_kept ?_
    | refine mergeDrop_kept ?_
    | refine countDecode_kept ?_
    | refine transient_kept ?_
    | refine opened_kept ?_
    | refine countBad_kept ?_
    | refine failLine_kept ?_
    | refine Kept.ite ?_ ?_
    | refine Kept.ite_fst ?_ ?_
    | assumption
    | (intro hx; clear_value x)
    | (intro x; refine Kept.cut (s := s0) (x := x) ?_ ?_)
    | (intro x; refine Kept.cut (s := s0) (x := x.1) ?_ ?_)
    | (intro x; clear_value x)
    | lift_lets -underBinder
    | split
    | refine Kept.of_fst (by assumption) ?_
    | (unfold x; split)
    | (refine Kept.upd ?_; first | assumption | refine storeLine_kept ?_ | refine sealAccessEvent_kept ?_ | refine mergeDrop_kept ?_ | refine countDecode_kept ?_ | refine transient_kept ?_ | refine opened_kept ?_ | refine countBad_kept ?_ | refine failLine_kept ?_ | refine Kept.ite ?_ ?_)

theorem mergeRead_kept {w : Write} {l : Loc} {s0 s : State} (h : Kept s0 s) :
    Kept s0 (mergeRead s w l).1 := by
  unfold mergeRead
  with_reducible repeat' first
    | exact h
    | refine State.incW_kept ?_
    | refine chargeNow_kept ?_
    | refine mergeOpen_kept ?_
    | refine Kept.ite ?_ ?_
    | refine Kept.ite_fst ?_ ?_
    | assumption
    | (intro hx; clear_value x)
    | (intro x; refine Kept.cut (s := s0) (x := x) ?_ ?_)
    | (intro x; refine Kept.cut (s := s0) (x := x.1) ?_ ?_)
    | (intro x; clear_value x)
    | lift_lets -underBinder
    | split
    | refine Kept.of_fst (by assumption) ?_
    | (unfold x; split)

theorem sendLent_kept {e : Leaf} {line : Nat} {w : Work} {step : LentStep} {m : Option MediaLine} {s0 s : State} (h : Kept s0 s) :
    Kept s0 (sendLent s e line w step m) := by
  unfold sendLent
  with_reducible repeat' first
    | exact h
    | refine State.send_kept ?_
    | refine setFabric_kept ?_
    | assumption
    | (intro hx; clear_value x)
    | (intro x; refine Kept.cut (s := s0) (x := x) ?_ ?_)
    | (intro x; refine Kept.cut (s := s0) (x := x.1) ?_ ?_)
    | (intro x; clear_value x)
    | lift_lets -underBinder
    | (refine Kept.upd ?_; first | assumption | refine State.send_kept ?_ | refine setFabric_kept ?_)

theorem lentDown_kept {o : Origin} {dpa : Nat} {access : Nat} {s0 s : State} (h : Kept s0 s) :
    Kept s0 (lentDown s o dpa access) := by
  unfold lentDown
  with_reducible repeat' first
    | exact h
    | refine report_kept ?_

theorem enterWrite_kept {l : Loc} {w : Option Write} {dpa : Nat} {account : Nat} {m : MediaLine} {fixed : Option Nat} {s0 s : State} (h : Kept s0 s) :
    Kept s0 (enterWrite s l w dpa account m fixed) := by
  unfold enterWrite
  with_reducible repeat' first
    | exact h
    | refine modChan_kept ?_
    | refine fillWrites_kept ?_
    | assumption
    | (refine Kept.upd ?_; first | assumption | refine modChan_kept ?_ | refine fillWrites_kept ?_)

theorem mirrorHere_kept {cause : Nat} {dpa : Nat} {m : MediaLine} {l : Loc} {s0 s : State} (h : Kept s0 s) :
    Kept s0 (mirrorHere s cause dpa m l) := by
  unfold mirrorHere
  with_reducible repeat' first
    | exact h
    | refine State.when_kept ?_ (fun x hx => ?_)
    | refine arrive_kept ?_
    | refine chargeNow_kept ?_
    | refine enterWrite_kept ?_
    | refine Kept.ite ?_ ?_
    | assumption
    | split

theorem mirrorAway_kept {i : Nat} {m : MediaLine} {p : Nat} {q : Nat} {sl : Nat} {s0 s : State} (h : Kept s0 s) :
    Kept s0 (mirrorAway s i m p q sl) := by
  unfold mirrorAway
  with_reducible repeat' first
    | exact h
    | refine State.send_kept ?_
    | refine setFabric_kept ?_
    | assumption
    | (intro hx; clear_value x)
    | (intro x; refine Kept.cut (s := s0) (x := x) ?_ ?_)
    | (intro x; refine Kept.cut (s := s0) (x := x.1) ?_ ?_)
    | (intro x; clear_value x)
    | lift_lets -underBinder
    | (refine Kept.upd ?_; first | assumption | refine State.send_kept ?_ | refine setFabric_kept ?_)

theorem mirror_kept {dpa : Nat} {m : MediaLine} {s0 s : State} (h : Kept s0 s) :
    Kept s0 (mirror s dpa m) := by
  unfold mirror
  with_reducible repeat' first
    | exact h
    | refine mirrorHere_kept ?_
    | refine mirrorAway_kept ?_
    | refine Kept.ite ?_ ?_
    | assumption
    | (intro hx; clear_value x)
    | (intro x; refine Kept.cut (s := s0) (x := x) ?_ ?_)
    | (intro x; refine Kept.cut (s := s0) (x := x.1) ?_ ?_)
    | (intro x; clear_value x)
    | lift_lets -underBinder
    | split
    | refine Kept.of_fst (by assumption) ?_
    | (unfold x; split)
    | (refine Kept.upd ?_; first | assumption | refine mirrorHere_kept ?_ | refine mirrorAway_kept ?_ | refine Kept.ite ?_ ?_)

theorem placeLine_kept {w : Option Write} {dpa : Nat} {account : Nat} {m : MediaLine} {s0 s : State} (h : Kept s0 s) :
    Kept s0 (placeLine s w dpa account m) := by
  unfold placeLine
  with_reducible repeat' first
    | exact h
    | refine enterWrite_kept ?_
    | refine mirror_kept ?_
    | refine Kept.ite ?_ ?_
    | split
    | refine Kept.of_fst (by assumption) ?_

theorem endWrite_kept {w : Write} {r : Reply} {s0 s : State} (h : Kept s0 s) :
    Kept s0 (endWrite s w r) := by
  unfold endWrite
  with_reducible repeat' first
    | exact h
    | refine leave_kept ?_
    | refine respond_kept ?_
    | assumption
    | (intro hx; clear_value x)
    | (intro x; refine Kept.cut (s := s0) (x := x) ?_ ?_)
    | (intro x; refine Kept.cut (s := s0) (x := x.1) ?_ ?_)
    | (intro x; clear_value x)
    | lift_lets -underBinder
    | split
    | refine Kept.of_fst (by assumption) ?_
    | (unfold x; split)

theorem refuseWrite_kept {w : Write} {s0 s : State} (h : Kept s0 s) :
    Kept s0 (refuseWrite s w) := by
  unfold refuseWrite
  with_reducible repeat' first
    | exact h
    | refine sealViolation_kept ?_
    | refine endWrite_kept ?_
    | refine Kept.ite ?_ ?_
    | split

theorem freshened_kept {w : Write} {s0 s t : State} (h : Kept s0 s) (e : freshened s w = some t) : Kept s0 t := by
  unfold freshened at e
  split at e
  · exact bumpCounter_kept h e
  · cases e
    exact h

theorem mergeKeep_kept {w : Write} {plain : BitVec 512} {s0 s : State} (h : Kept s0 s) :
    Kept s0 (mergeKeep s w plain) := by
  unfold mergeKeep
  with_reducible repeat' first
    | exact h
    | refine markProtected_kept ?_
    | refine mergeFill_kept ?_
    | refine mergeDrop_kept ?_
    | refine Kept.ite ?_ ?_
    | assumption
    | (intro hx; clear_value x)
    | (intro x; refine Kept.cut (s := s0) (x := x) ?_ ?_)
    | (intro x; refine Kept.cut (s := s0) (x := x.1) ?_ ?_)
    | (intro x; clear_value x)
    | lift_lets -underBinder
    | split

theorem sealAndPlace_kept {w : Write} {plain : BitVec 512} {s0 s : State} (h : Kept s0 s) :
    Kept s0 (sealAndPlace s w plain) := by
  unfold sealAndPlace
  with_reducible repeat' first
    | exact h
    | refine sealEvent_kept ?_
    | refine placeLine_kept ?_
    | refine refuseWrite_kept ?_
    | refine freshened_kept ?_ (by assumption)
    | refine mergeKeep_kept ?_
    | refine Kept.ite ?_ ?_
    | assumption
    | (intro hx; clear_value x)
    | (intro x; refine Kept.cut (s := s0) (x := x) ?_ ?_)
    | (intro x; refine Kept.cut (s := s0) (x := x.1) ?_ ?_)
    | (intro x; clear_value x)
    | lift_lets -underBinder
    | split
    | refine Kept.of_fst (by assumption) ?_
    | (unfold x; split)
    | (refine Kept.upd ?_; first | assumption | refine sealEvent_kept ?_ | refine placeLine_kept ?_ | refine refuseWrite_kept ?_ | refine freshened_kept ?_ (by assumption) | refine mergeKeep_kept ?_ | refine Kept.ite ?_ ?_)

theorem commitLocal_kept {w : Write} {l : Loc} {s0 s : State} (h : Kept s0 s) :
    Kept s0 (commitLocal s w l) := by
  unfold commitLocal
  with_reducible repeat' first
    | exact h
    | refine leave_kept ?_
    | refine respond_kept ?_
    | refine treeMet_kept ?_
    | refine mergeRead_kept ?_
    | refine endWrite_kept ?_
    | refine refuseWrite_kept ?_
    | refine sealAndPlace_kept ?_
    | refine Kept.ite ?_ ?_
    | refine Kept.ite_fst ?_ ?_
    | assumption
    | (intro hx; clear_value x)
    | (intro x; refine Kept.cut (s := s0) (x := x) ?_ ?_)
    | (intro x; refine Kept.cut (s := s0) (x := x.1) ?_ ?_)
    | (intro x; clear_value x)
    | lift_lets -underBinder
    | split
    | refine Kept.of_fst (by assumption) ?_
    | (unfold x; split)

theorem endRead_kept {a : MemRead} {r : Reply} {s0 s : State} (h : Kept s0 s) :
    Kept s0 (endRead s a r) := by
  unfold endRead
  with_reducible repeat' first
    | exact h
    | refine leave_kept ?_
    | refine respond_kept ?_

theorem sealAndSend_kept {w : Write} {e : Leaf} {plain : BitVec 512} {s0 s : State} (h : Kept s0 s) :
    Kept s0 (sealAndSend s w e plain) := by
  unfold sealAndSend
  with_reducible repeat' first
    | exact h
    | refine State.send_kept ?_
    | refine leave_kept ?_
    | refine sealEvent_kept ?_
    | refine sendLent_kept ?_
    | refine mirror_kept ?_
    | refine refuseWrite_kept ?_
    | refine freshened_kept ?_ (by assumption)
    | refine mergeKeep_kept ?_
    | refine Kept.ite ?_ ?_
    | assumption
    | (intro hx; clear_value x)
    | (intro x; refine Kept.cut (s := s0) (x := x) ?_ ?_)
    | (intro x; refine Kept.cut (s := s0) (x := x.1) ?_ ?_)
    | (intro x; clear_value x)
    | lift_lets -underBinder
    | split
    | refine Kept.of_fst (by assumption) ?_
    | (unfold x; split)
    | (refine Kept.upd ?_; first | assumption | refine State.send_kept ?_ | refine leave_kept ?_ | refine sealEvent_kept ?_ | refine sendLent_kept ?_ | refine mirror_kept ?_ | refine refuseWrite_kept ?_ | refine freshened_kept ?_ (by assumption) | refine mergeKeep_kept ?_ | refine Kept.ite ?_ ?_)

theorem mergeLent_kept {w : Write} {e : Leaf} {old : BitVec 512} {s0 s : State} (h : Kept s0 s) :
    Kept s0 (mergeLent s w e old) := by
  unfold mergeLent
  with_reducible repeat' first
    | exact h
    | refine leave_kept ?_
    | refine respond_kept ?_
    | refine sealAndSend_kept ?_
    | refine Kept.ite ?_ ?_
    | assumption
    | (intro hx; clear_value x)
    | (intro x; refine Kept.cut (s := s0) (x := x) ?_ ?_)
    | (intro x; refine Kept.cut (s := s0) (x := x.1) ?_ ?_)
    | (intro x; clear_value x)
    | lift_lets -underBinder
    | split

theorem commitRemote_kept {w : Write} {e : Leaf} {s0 s : State} (h : Kept s0 s) :
    Kept s0 (commitRemote s w e) := by
  unfold commitRemote
  with_reducible repeat' first
    | exact h
    | refine State.incW_kept ?_
    | refine setFabric_kept ?_
    | refine treeMet_kept ?_
    | refine sendLent_kept ?_
    | refine lentDown_kept ?_
    | refine endWrite_kept ?_
    | refine refuseWrite_kept ?_
    | refine sealAndSend_kept ?_
    | refine mergeLent_kept ?_
    | refine Kept.ite ?_ ?_
    | assumption
    | (intro hx; clear_value x)
    | (intro x; refine Kept.cut (s := s0) (x := x) ?_ ?_)
    | (intro x; refine Kept.cut (s := s0) (x := x.1) ?_ ?_)
    | (intro x; clear_value x)
    | lift_lets -underBinder
    | split
    | refine Kept.of_fst (by assumption) ?_
    | (unfold x; split)
    | (refine Kept.upd ?_; first | assumption | refine State.incW_kept ?_ | refine setFabric_kept ?_ | refine treeMet_kept ?_ | refine sendLent_kept ?_ | refine lentDown_kept ?_ | refine endWrite_kept ?_ | refine refuseWrite_kept ?_ | refine sealAndSend_kept ?_ | refine mergeLent_kept ?_ | refine Kept.ite ?_ ?_)

theorem commitWrite_kept {w : Write} {s0 s : State} (h : Kept s0 s) :
    Kept s0 (commitWrite s w) := by
  unfold commitWrite
  with_reducible repeat' first
    | exact h
    | refine clearHolders_kept ?_
    | refine endWrite_kept ?_
    | refine commitLocal_kept ?_
    | refine commitRemote_kept ?_
    | refine Kept.ite ?_ ?_
    | assumption
    | (intro hx; clear_value x)
    | (intro x; refine Kept.cut (s := s0) (x := x) ?_ ?_)
    | (intro x; refine Kept.cut (s := s0) (x := x.1) ?_ ?_)
    | (intro x; clear_value x)
    | lift_lets -underBinder
    | split
    | refine Kept.of_fst (by assumption) ?_
    | (unfold x; split)

theorem startWrite_kept {w : Write} {s0 s : State} (h : Kept s0 s) :
    Kept s0 (startWrite s w) := by
  unfold startWrite
  with_reducible repeat' first
    | exact h
    | refine setFabric_kept ?_
    | refine sendSnoops_kept ?_
    | refine addSnoop_kept ?_
    | refine commitWrite_kept ?_
    | refine Kept.ite ?_ ?_
    | refine Kept.ite_fst ?_ ?_
    | assumption
    | (intro hx; clear_value x)
    | (intro x; refine Kept.cut (s := s0) (x := x) ?_ ?_)
    | (intro x; refine Kept.cut (s := s0) (x := x.1) ?_ ?_)
    | (intro x; clear_value x)
    | lift_lets -underBinder
    | split
    | refine Kept.of_fst (by assumption) ?_
    | (unfold x; split)
    | (refine Kept.upd ?_; first | assumption | refine setFabric_kept ?_ | refine sendSnoops_kept ?_ | refine addSnoop_kept ?_ | refine commitWrite_kept ?_ | refine Kept.ite ?_ ?_)

theorem unpark_kept {line : Nat} {s0 s : State} (h : Kept s0 s) :
    Kept s0 (unpark s line) := by
  unfold unpark
  with_reducible repeat' first
    | exact h
    | refine State.each_kept ?_ (fun x a hx => ?_)
    | refine setFabric_kept ?_
    | refine startWrite_kept ?_
    | assumption
    | (intro hx; clear_value x)
    | (intro x; refine Kept.cut (s := s0) (x := x) ?_ ?_)
    | (intro x; refine Kept.cut (s := s0) (x := x.1) ?_ ?_)
    | (intro x; clear_value x)
    | lift_lets -underBinder
    | (refine Kept.upd ?_; first | assumption | refine State.each_kept ?_ (fun x a hx => ?_) | refine setFabric_kept ?_ | refine startWrite_kept ?_)

theorem dispatchRead_kept {a : MemRead} {s0 s : State} (h : Kept s0 s) :
    Kept s0 (dispatchRead s a) := by
  unfold dispatchRead
  with_reducible repeat' first
    | exact h
    | refine enterPool_kept ?_
    | refine opened_kept ?_
    | refine countBad_kept ?_
    | refine sendLent_kept ?_
    | refine lentDown_kept ?_
    | refine endRead_kept ?_
    | refine Kept.ite ?_ ?_
    | refine Kept.ite_fst ?_ ?_
    | assumption
    | (intro hx; clear_value x)
    | (intro x; refine Kept.cut (s := s0) (x := x) ?_ ?_)
    | (intro x; refine Kept.cut (s := s0) (x := x.1) ?_ ?_)
    | (intro x; clear_value x)
    | lift_lets -underBinder
    | split
    | refine Kept.of_fst (by assumption) ?_
    | (unfold x; split)

theorem startRead_kept {a : MemRead} {s0 s : State} (h : Kept s0 s) :
    Kept s0 (startRead s a) := by
  unfold startRead
  with_reducible repeat' first
    | exact h
    | refine sendSnoops_kept ?_
    | refine addSnoop_kept ?_
    | refine dispatchRead_kept ?_
    | refine Kept.ite ?_ ?_
    | refine Kept.ite_fst ?_ ?_
    | assumption
    | (intro hx; clear_value x)
    | (intro x; refine Kept.cut (s := s0) (x := x) ?_ ?_)
    | (intro x; refine Kept.cut (s := s0) (x := x.1) ?_ ?_)
    | (intro x; clear_value x)
    | lift_lets -underBinder
    | split
    | refine Kept.of_fst (by assumption) ?_
    | (unfold x; split)

theorem proceed_kept {w : Work} {s0 s : State} (h : Kept s0 s) :
    Kept s0 (proceed s w) := by
  unfold proceed
  with_reducible repeat' first
    | exact h
    | refine startWrite_kept ?_
    | refine startRead_kept ?_
    | split
    | refine Kept.of_fst (by assumption) ?_

theorem lookup_kept {w : Work} {s0 s : State} (h : Kept s0 s) :
    Kept s0 (lookup s w) := by
  unfold lookup
  with_reducible repeat' first
    | exact h
    | refine State.incW_kept ?_
    | refine useBlock_kept ?_
    | refine heatSample_kept ?_
    | refine proceed_kept ?_
    | refine Kept.ite ?_ ?_
    | assumption
    | (intro hx; clear_value x)
    | (intro x; refine Kept.cut (s := s0) (x := x) ?_ ?_)
    | (intro x; refine Kept.cut (s := s0) (x := x.1) ?_ ?_)
    | (intro x; clear_value x)
    | lift_lets -underBinder
    | split
    | refine Kept.of_fst (by assumption) ?_
    | (unfold x; split)
    | (refine Kept.upd ?_; first | assumption | refine State.incW_kept ?_ | refine useBlock_kept ?_ | refine heatSample_kept ?_ | refine proceed_kept ?_ | refine Kept.ite ?_ ?_)

theorem hold_kept {w : Work} {s0 s : State} (h : Kept s0 s) :
    Kept s0 (hold s w) := by
  unfold hold
  with_reducible repeat' first
    | exact h
    | refine modAcct_kept ?_
    | assumption
    | (intro hx; clear_value x)
    | (intro x; refine Kept.cut (s := s0) (x := x) ?_ ?_)
    | (intro x; refine Kept.cut (s := s0) (x := x.1) ?_ ?_)
    | (intro x; clear_value x)
    | lift_lets -underBinder
    | (refine Kept.upd ?_; first | assumption | refine modAcct_kept ?_)

theorem enter_kept {w : Work} {s0 s : State} (h : Kept s0 s) :
    Kept s0 (enter s w) := by
  unfold enter
  with_reducible repeat' first
    | exact h
    | refine lookup_kept ?_
    | refine hold_kept ?_
    | refine Kept.ite ?_ ?_
    | split

theorem submit_kept {w : Work} {s0 s : State} (h : Kept s0 s) :
    Kept s0 (submit s w) := by
  unfold submit
  with_reducible repeat' first
    | exact h
    | refine arrive_kept ?_
    | refine enter_kept ?_

theorem releaseHeld_kept {a : Nat} {s0 s : State} (h : Kept s0 s) :
    Kept s0 (releaseHeld s a) := by
  unfold releaseHeld
  with_reducible repeat' first
    | exact h
    | refine State.each_kept ?_ (fun x a hx => ?_)
    | refine lookup_kept ?_
    | refine hold_kept ?_
    | refine Kept.ite ?_ ?_
    | assumption
    | (intro hx; clear_value x)
    | (intro x; refine Kept.cut (s := s0) (x := x) ?_ ?_)
    | (intro x; refine Kept.cut (s := s0) (x := x.1) ?_ ?_)
    | (intro x; clear_value x)
    | lift_lets -underBinder
    | split
    | (refine Kept.upd ?_; first | assumption | refine State.each_kept ?_ (fun x a hx => ?_) | refine lookup_kept ?_ | refine hold_kept ?_ | refine Kept.ite ?_ ?_)

theorem withhold_kept {w : Work} {s0 s : State} (h : Kept s0 s) :
    Kept s0 (withhold s w) := by
  unfold withhold
  with_reducible repeat' first
    | exact h
    | refine State.put_kept ?_
    | refine setFabric_kept ?_
    | assumption
    | (intro hx; clear_value x)
    | (intro x; refine Kept.cut (s := s0) (x := x) ?_ ?_)
    | (intro x; refine Kept.cut (s := s0) (x := x.1) ?_ ?_)
    | (intro x; clear_value x)
    | lift_lets -underBinder

theorem place_kept {w : Work} {s0 s : State} (h : Kept s0 s) :
    Kept s0 (place s w) := by
  unfold place
  with_reducible repeat' first
    | exact h
    | refine enter_kept ?_
    | refine withhold_kept ?_
    | refine Kept.ite ?_ ?_
    | assumption
    | split
    | refine Kept.of_fst (by assumption) ?_

theorem receive_kept {w : Work} {s0 s : State} (h : Kept s0 s) :
    Kept s0 (receive s w) := by
  unfold receive
  with_reducible repeat' first
    | exact h
    | refine arrive_kept ?_
    | refine place_kept ?_

theorem drainReserve_kept {s0 s : State} (h : Kept s0 s) :
    Kept s0 (drainReserve s) := by
  unfold drainReserve
  with_reducible repeat' first
    | exact h
    | refine State.each_kept ?_ (fun x a hx => ?_)
    | refine setFabric_kept ?_
    | refine place_kept ?_
    | refine Kept.ite ?_ ?_
    | split
    | (refine Kept.upd ?_; first | assumption | refine State.each_kept ?_ (fun x a hx => ?_) | refine setFabric_kept ?_ | refine place_kept ?_ | refine Kept.ite ?_ ?_)

theorem portViolation_kept {r : LinkReq} {access : Nat} {s0 s : State} (h : Kept s0 s) :
    Kept s0 (portViolation s r access) := by
  unfold portViolation
  with_reducible repeat' first
    | exact h
    | refine State.inc_kept ?_
    | refine report_kept ?_

theorem answerRefused_kept {r : LinkReq} {write : Bool} {s0 s : State} (h : Kept s0 s) :
    Kept s0 (answerRefused s r write) := by
  unfold answerRefused
  with_reducible repeat' first
    | exact h
    | refine respond_kept ?_
    | refine Kept.ite ?_ ?_
    | assumption
    | (intro hx; clear_value x)
    | (intro x; refine Kept.cut (s := s0) (x := x) ?_ ?_)
    | (intro x; refine Kept.cut (s := s0) (x := x.1) ?_ ?_)
    | (intro x; clear_value x)
    | lift_lets -underBinder
    | split

theorem classify_kept {r : LinkReq} {access : Nat} {s0 s : State} (h : Kept s0 s) :
    Kept s0 (classify s r access).1 := by
  unfold classify
  with_reducible repeat' first
    | exact h
    | refine sealViolation_kept ?_
    | refine portViolation_kept ?_
    | refine answerRefused_kept ?_
    | refine Kept.ite ?_ ?_
    | refine Kept.ite_fst ?_ ?_
    | assumption
    | (intro hx; clear_value x)
    | (intro x; refine Kept.cut (s := s0) (x := x) ?_ ?_)
    | (intro x; refine Kept.cut (s := s0) (x := x.1) ?_ ?_)
    | (intro x; clear_value x)
    | lift_lets -underBinder
    | split
    | refine Kept.of_fst (by assumption) ?_
    | (unfold x; split)

theorem coreClassify_kept {c : Nat} {slot : Nat} {addr : Nat} {write : Bool} {access : Nat} {s0 s : State} (h : Kept s0 s) :
    Kept s0 (coreClassify s c slot addr write access).1 := by
  unfold coreClassify
  with_reducible repeat' first
    | exact h
    | refine sealViolation_kept ?_
    | refine Kept.ite ?_ ?_
    | refine Kept.ite_fst ?_ ?_
    | assumption
    | (intro hx; clear_value x)
    | (intro x; refine Kept.cut (s := s0) (x := x) ?_ ?_)
    | (intro x; refine Kept.cut (s := s0) (x := x.1) ?_ ?_)
    | (intro x; clear_value x)
    | lift_lets -underBinder
    | split

end Sys2Proof.Machine
end

