-- ==== Sys2Proof/Laws/KeptChannelRows.lean ====
section
/-! SUPPORT. What every step keeps, through the functions of ChannelRows. -/

set_option linter.all false
set_option maxRecDepth 8000

namespace Sys2Proof.Machine

theorem holdPooled_kept {g : Nat} {s0 s : State} (h : Kept s0 s) :
    Kept s0 (holdPooled s g) := by
  unfold holdPooled
  with_reducible repeat' first
    | exact h
    | refine State.each_kept ?_ (fun x a hx => ?_)
    | refine modChan_kept ?_
    | refine hold_kept ?_
    | assumption
    | (intro hx; clear_value x)
    | (intro x; refine Kept.cut (s := s0) (x := x) ?_ ?_)
    | (intro x; refine Kept.cut (s := s0) (x := x.1) ?_ ?_)
    | (intro x; clear_value x)
    | lift_lets -underBinder
    | (refine Kept.upd ?_; first | assumption | refine State.each_kept ?_ (fun x a hx => ?_) | refine modChan_kept ?_ | refine hold_kept ?_)

theorem batch_kept {g : Nat} {aged : Nat} {s0 s : State} (h : Kept s0 s) :
    Kept s0 (batch s g aged) := by
  unfold batch
  with_reducible repeat' first
    | exact h
    | refine setChan_kept ?_
    | refine Kept.ite ?_ ?_
    | assumption
    | (intro hx; clear_value x)
    | (intro x; refine Kept.cut (s := s0) (x := x) ?_ ?_)
    | (intro x; refine Kept.cut (s := s0) (x := x.1) ?_ ?_)
    | (intro x; clear_value x)
    | lift_lets -underBinder
    | split
    | (refine Kept.upd ?_; first | assumption | refine setChan_kept ?_ | refine Kept.ite ?_ ?_)

theorem activate_kept {g : Nat} {bank : Nat} {row : Nat} {s0 s : State} (h : Kept s0 s) :
    Kept s0 (activate s g bank row) := by
  unfold activate
  with_reducible repeat' first
    | exact h
    | refine modChan_kept ?_
    | refine countActivate_kept ?_
    | assumption
    | (intro hx; clear_value x)
    | (intro x; refine Kept.cut (s := s0) (x := x) ?_ ?_)
    | (intro x; refine Kept.cut (s := s0) (x := x.1) ?_ ?_)
    | (intro x; clear_value x)
    | lift_lets -underBinder

theorem column_kept {g : Nat} {x0 : Cand} {account : Nat} {s0 s : State} (h : Kept s0 s) :
    Kept s0 (column s g x0 account) := by
  unfold column
  with_reducible repeat' first
    | exact h
    | refine count_kept ?_
    | refine modChan_kept ?_
    | assumption
    | split
    | refine Kept.of_fst (by assumption) ?_
    | (refine Kept.upd ?_; first | assumption | refine count_kept ?_ | refine modChan_kept ?_)

theorem readArray_kept {g : Nat} {r : Req} {s0 s : State} (h : Kept s0 s) :
    Kept s0 (readArray s g r) := by
  unfold readArray
  with_reducible repeat' first
    | exact h
    | refine modChan_kept ?_
    | assumption
    | (intro hx; clear_value x)
    | (intro x; refine Kept.cut (s := s0) (x := x) ?_ ?_)
    | (intro x; refine Kept.cut (s := s0) (x := x.1) ?_ ?_)
    | (intro x; clear_value x)
    | lift_lets -underBinder
    | (refine Kept.upd ?_; first | assumption | refine modChan_kept ?_)

theorem writeArray_kept {g : Nat} {w : WLine} {s0 s : State} (h : Kept s0 s) :
    Kept s0 (writeArray s g w) := by
  unfold writeArray
  with_reducible repeat' first
    | exact h
    | refine modChan_kept ?_
    | refine storeLine_kept ?_
    | assumption
    | (intro hx; clear_value x)
    | (intro x; refine Kept.cut (s := s0) (x := x) ?_ ?_)
    | (intro x; refine Kept.cut (s := s0) (x := x.1) ?_ ?_)
    | (intro x; clear_value x)
    | lift_lets -underBinder

theorem issueRead_kept {g : Nat} {x0 : Cand} {s0 s : State} (h : Kept s0 s) :
    Kept s0 (issueRead s g x0) := by
  unfold issueRead
  with_reducible repeat' first
    | exact h
    | refine modChan_kept ?_
    | refine fillPools_kept ?_
    | refine activate_kept ?_
    | refine column_kept ?_
    | refine readArray_kept ?_
    | refine Kept.ite ?_ ?_
    | assumption
    | (intro hx; clear_value x)
    | (intro x; refine Kept.cut (s := s0) (x := x) ?_ ?_)
    | (intro x; refine Kept.cut (s := s0) (x := x.1) ?_ ?_)
    | (intro x; clear_value x)
    | lift_lets -underBinder
    | split
    | refine Kept.of_fst (by assumption) ?_
    | (unfold x; split)
    | (refine Kept.upd ?_; first | assumption | refine modChan_kept ?_ | refine fillPools_kept ?_ | refine activate_kept ?_ | refine column_kept ?_ | refine readArray_kept ?_ | refine Kept.ite ?_ ?_)

theorem issueWrite_kept {g : Nat} {x0 : Cand} {s0 s : State} (h : Kept s0 s) :
    Kept s0 (issueWrite s g x0) := by
  unfold issueWrite
  with_reducible repeat' first
    | exact h
    | refine modChan_kept ?_
    | refine fillWrites_kept ?_
    | refine activate_kept ?_
    | refine column_kept ?_
    | refine writeArray_kept ?_
    | refine Kept.ite ?_ ?_
    | assumption
    | (intro hx; clear_value x)
    | (intro x; refine Kept.cut (s := s0) (x := x) ?_ ?_)
    | (intro x; refine Kept.cut (s := s0) (x := x.1) ?_ ?_)
    | (intro x; clear_value x)
    | lift_lets -underBinder
    | split
    | refine Kept.of_fst (by assumption) ?_
    | (unfold x; split)
    | (refine Kept.upd ?_; first | assumption | refine modChan_kept ?_ | refine fillWrites_kept ?_ | refine activate_kept ?_ | refine column_kept ?_ | refine writeArray_kept ?_ | refine Kept.ite ?_ ?_)

theorem undoCmd_kept {g : Nat} {x0 : ChanCmd} {s0 s : State} (h : Kept s0 s) :
    Kept s0 (undoCmd s g x0) := by
  unfold undoCmd
  with_reducible repeat' first
    | exact h
    | refine State.each_kept ?_ (fun x a hx => ?_)
    | refine modChan_kept ?_
    | refine setLine_kept ?_
    | refine activate_kept ?_
    | assumption
    | split
    | refine Kept.of_fst (by assumption) ?_
    | (refine Kept.upd ?_; first | assumption | refine State.each_kept ?_ (fun x a hx => ?_) | refine modChan_kept ?_ | refine setLine_kept ?_ | refine activate_kept ?_)

theorem reissueCmd_kept {g : Nat} {x0 : ChanCmd} {s0 s : State} (h : Kept s0 s) :
    Kept s0 (reissueCmd s g x0) := by
  unfold reissueCmd
  with_reducible repeat' first
    | exact h
    | refine activate_kept ?_
    | refine readArray_kept ?_
    | refine writeArray_kept ?_
    | split
    | refine Kept.of_fst (by assumption) ?_

theorem reissueAll_kept {g : Nat} {s0 s : State} (h : Kept s0 s) :
    Kept s0 (reissueAll s g) := by
  unfold reissueAll
  with_reducible repeat' first
    | exact h
    | refine State.each_kept ?_ (fun x a hx => ?_)
    | refine modChan_kept ?_
    | refine reissueCmd_kept ?_
    | assumption
    | (intro hx; clear_value x)
    | (intro x; refine Kept.cut (s := s0) (x := x) ?_ ?_)
    | (intro x; refine Kept.cut (s := s0) (x := x.1) ?_ ?_)
    | (intro x; clear_value x)
    | lift_lets -underBinder
    | (refine Kept.upd ?_; first | assumption | refine State.each_kept ?_ (fun x a hx => ?_) | refine modChan_kept ?_ | refine reissueCmd_kept ?_)

theorem serveSlot_kept {g : Nat} {agedReads : Nat} {agedWrites : Nat} {busy : List Nat} {s0 s : State} (h : Kept s0 s) :
    Kept s0 (serveSlot s g agedReads agedWrites busy) := by
  unfold serveSlot
  with_reducible repeat' first
    | exact h
    | refine issueRead_kept ?_
    | refine issueWrite_kept ?_
    | refine Kept.ite ?_ ?_
    | assumption
    | (intro hx; clear_value x)
    | (intro x; refine Kept.cut (s := s0) (x := x) ?_ ?_)
    | (intro x; refine Kept.cut (s := s0) (x := x.1) ?_ ?_)
    | (intro x; clear_value x)
    | lift_lets -underBinder
    | split
    | refine Kept.of_fst (by assumption) ?_
    | (unfold x; split)

theorem execCommandPick_ends {chan : Fin 256} {aged : AgedRun} {busy : List (Fin 272)} {s0 s : State} (h : Kept s0 s) :
    Ends s0 (execCommandPick chan aged busy s) := by
  unfold execCommandPick
  refine Ends.next ?_
  with_reducible repeat' first
    | exact h
    | refine modChan_kept ?_
    | refine fillPools_kept ?_
    | refine drainReserve_kept ?_
    | refine holdPooled_kept ?_
    | refine batch_kept ?_
    | refine reissueCmd_kept ?_
    | refine serveSlot_kept ?_
    | refine Kept.ite ?_ ?_
    | assumption
    | (intro hx; clear_value x)
    | (intro x; refine Kept.cut (s := s0) (x := x) ?_ ?_)
    | (intro x; refine Kept.cut (s := s0) (x := x.1) ?_ ?_)
    | (intro x; clear_value x)
    | lift_lets -underBinder
    | split
    | refine Kept.of_fst (by assumption) ?_
    | (unfold x; split)
    | (refine Kept.upd ?_; first | assumption | refine modChan_kept ?_ | refine fillPools_kept ?_ | refine drainReserve_kept ?_ | refine holdPooled_kept ?_ | refine batch_kept ?_ | refine reissueCmd_kept ?_ | refine serveSlot_kept ?_ | refine Kept.ite ?_ ?_)

theorem answerLentIn_kept {o : Origin} {line : Nat} {m : MediaLine} {s0 s : State} (h : Kept s0 s) :
    Kept s0 (answerLentIn s o line m) := by
  unfold answerLentIn
  with_reducible repeat' first
    | exact h
    | refine State.send_kept ?_
    | refine unhost_kept ?_
    | refine Kept.ite ?_ ?_
    | assumption
    | (intro hx; clear_value x)
    | (intro x; refine Kept.cut (s := s0) (x := x) ?_ ?_)
    | (intro x; refine Kept.cut (s := s0) (x := x.1) ?_ ?_)
    | (intro x; clear_value x)
    | lift_lets -underBinder
    | split
    | refine Kept.of_fst (by assumption) ?_
    | (unfold x; split)

theorem readBack_kept {g : Nat} {i : Issued} {run : ReadRun} {s0 s : State} (h : Kept s0 s) :
    Kept s0 (readBack s g i run).1 := by
  unfold readBack
  with_reducible repeat' first
    | exact h
    | refine touchCounter_kept ?_
    | refine countDecode_kept ?_
    | refine respond_kept ?_
    | refine opened_kept ?_
    | refine treeMet_kept ?_
    | refine answerLentIn_kept ?_
    | refine Kept.ite ?_ ?_
    | refine Kept.ite_fst ?_ ?_
    | assumption
    | (intro hx; clear_value x)
    | (intro x; refine Kept.cut (s := s0) (x := x) ?_ ?_)
    | (intro x; refine Kept.cut (s := s0) (x := x.1) ?_ ?_)
    | (intro x; clear_value x)
    | lift_lets -underBinder
    | split
    | refine Kept.of_fst (by assumption) ?_

theorem execReadDataReturn_ends {chan : Fin 256} {run : ReadRun} {s0 s : State} (h : Kept s0 s) :
    Ends s0 (execReadDataReturn chan run s) := by
  unfold execReadDataReturn
  refine Ends.next ?_
  with_reducible repeat' first
    | exact h
    | refine modChan_kept ?_
    | refine readBack_kept ?_
    | assumption
    | (intro hx; clear_value x)
    | (intro x; refine Kept.cut (s := s0) (x := x) ?_ ?_)
    | (intro x; refine Kept.cut (s := s0) (x := x.1) ?_ ?_)
    | (intro x; clear_value x)
    | lift_lets -underBinder
    | split
    | refine Kept.of_fst (by assumption) ?_
    | (unfold x; split)
    | (refine Kept.upd ?_; first | assumption | refine modChan_kept ?_ | refine readBack_kept ?_)

theorem noteLost_kept {l : Loc} {i : Nat} {s0 s : State} (h : Kept s0 s) :
    Kept s0 (noteLost s l i) := by
  unfold noteLost
  with_reducible repeat' first
    | exact h
    | refine modChan_kept ?_
    | refine Kept.ite ?_ ?_
    | assumption
    | split
    | (refine Kept.upd ?_; first | assumption | refine modChan_kept ?_ | refine Kept.ite ?_ ?_)

theorem execRereadComplete_ends {chan : Fin 256} {run : ReadRun} {s0 s : State} (h : Kept s0 s) :
    Ends s0 (execRereadComplete chan run s) := by
  unfold execRereadComplete
  refine Ends.next ?_
  with_reducible repeat' first
    | exact h
    | refine modChan_kept ?_
    | refine transient_kept ?_
    | refine readSeen_kept ?_
    | refine respond_kept ?_
    | refine countBad_kept ?_
    | refine failLine_kept ?_
    | refine answerLentIn_kept ?_
    | refine readBack_kept ?_
    | refine noteLost_kept ?_
    | refine Kept.ite ?_ ?_
    | refine Kept.ite_fst ?_ ?_
    | assumption
    | (intro hx; clear_value x)
    | (intro x; refine Kept.cut (s := s0) (x := x) ?_ ?_)
    | (intro x; refine Kept.cut (s := s0) (x := x.1) ?_ ?_)
    | (intro x; clear_value x)
    | lift_lets -underBinder
    | split
    | refine Kept.of_fst (by assumption) ?_
    | (unfold x; split)
    | (refine Kept.upd ?_; first | assumption | refine modChan_kept ?_ | refine transient_kept ?_ | refine readSeen_kept ?_ | refine respond_kept ?_ | refine countBad_kept ?_ | refine failLine_kept ?_ | refine answerLentIn_kept ?_ | refine readBack_kept ?_ | refine noteLost_kept ?_ | refine Kept.ite ?_ ?_)

theorem moveRows_kept {g r lo hi : Nat} {s0 s : State} (h : Kept s0 s) : Kept s0 (moveRows s g r lo hi) :=
  ⟨h.variant, h.pending, h.free, h.out, h.desk, fun x =>
    Tab.canon_foldl_put (α := Codeword) (d := {}) _ _ _ (Tab.canon_filter _ (h.media x))⟩

theorem copyBad_kept {l : Loc} {i : Nat} {s0 s : State} (h : Kept s0 s) :
    Kept s0 (copyBad s l i) := by
  unfold copyBad
  with_reducible repeat' first
    | exact h
    | refine report_kept ?_
    | refine setLine_kept ?_
    | refine mergeDrop_kept ?_
    | assumption
    | (intro hx; clear_value x)
    | (intro x; refine Kept.cut (s := s0) (x := x) ?_ ?_)
    | (intro x; refine Kept.cut (s := s0) (x := x.1) ?_ ?_)
    | (intro x; clear_value x)
    | lift_lets -underBinder
    | split
    | refine Kept.of_fst (by assumption) ?_
    | (unfold x; split)
    | (refine Kept.upd ?_; first | assumption | refine report_kept ?_ | refine setLine_kept ?_ | refine mergeDrop_kept ?_)

theorem copyRows_kept {g : Nat} {r : Nat} {lo : Nat} {hi : Nat} {reads : List (Nat × Nat × ReadRun)} {s0 s : State} (h : Kept s0 s) :
    Kept s0 (copyRows s g r lo hi reads) := by
  unfold copyRows
  with_reducible repeat' first
    | exact h
    | refine State.each_kept ?_ (fun x a hx => ?_)
    | refine chargeNow_kept ?_
    | refine modChan_kept ?_
    | refine readSeen_kept ?_
    | refine moveRows_kept ?_
    | refine copyBad_kept ?_
    | assumption
    | (intro hx; clear_value x)
    | (intro x; refine Kept.cut (s := s0) (x := x) ?_ ?_)
    | (intro x; refine Kept.cut (s := s0) (x := x.1) ?_ ?_)
    | (intro x; clear_value x)
    | lift_lets -underBinder
    | (refine Kept.upd ?_; first | assumption | refine State.each_kept ?_ (fun x a hx => ?_) | refine chargeNow_kept ?_ | refine modChan_kept ?_ | refine readSeen_kept ?_ | refine moveRows_kept ?_ | refine copyBad_kept ?_)

theorem advanceCopy_kept {g : Nat} {upto : Nat} {reads : List (Nat × Nat × ReadRun)} {s0 s : State} (h : Kept s0 s) :
    Kept s0 (advanceCopy s g upto reads) := by
  unfold advanceCopy
  with_reducible repeat' first
    | exact h
    | refine State.put_kept ?_
    | refine copyRows_kept ?_
    | refine Kept.ite ?_ ?_
    | assumption
    | (intro hx; clear_value x)
    | (intro x; refine Kept.cut (s := s0) (x := x) ?_ ?_)
    | (intro x; refine Kept.cut (s := s0) (x := x.1) ?_ ?_)
    | (intro x; clear_value x)
    | lift_lets -underBinder
    | split

theorem copyStep_kept {x0 : CopyRun} {s0 s : State} (h : Kept s0 s) :
    Kept s0 (copyStep s x0) := by
  unfold copyStep
  with_reducible repeat' first
    | exact h
    | refine advanceCopy_kept ?_
    | refine Kept.ite ?_ ?_
    | refine Kept.ite_fst ?_ ?_
    | assumption
    | (intro hx; clear_value x)
    | (intro x; refine Kept.cut (s := s0) (x := x) ?_ ?_)
    | (intro x; refine Kept.cut (s := s0) (x := x.1) ?_ ?_)
    | (intro x; clear_value x)
    | lift_lets -underBinder
    | split

theorem execSpareCopyComplete_ends {chan : Fin 256} {reads : List (Fin 25600 × Fin 64 × ReadRun)} {s0 s : State} (h : Kept s0 s) :
    Ends s0 (execSpareCopyComplete chan reads s) := by
  unfold execSpareCopyComplete
  refine Ends.next ?_
  with_reducible repeat' first
    | exact h
    | refine State.put_kept ?_
    | refine advanceCopy_kept ?_
    | refine Kept.ite ?_ ?_
    | refine Kept.ite_fst ?_ ?_
    | assumption
    | (intro hx; clear_value x)
    | (intro x; refine Kept.cut (s := s0) (x := x) ?_ ?_)
    | (intro x; refine Kept.cut (s := s0) (x := x.1) ?_ ?_)
    | (intro x; clear_value x)
    | lift_lets -underBinder
    | split

theorem execRowIdleClose_ends {chan : Fin 256} {bank : Fin 272} {s0 s : State} (h : Kept s0 s) :
    Ends s0 (execRowIdleClose chan bank s) := by
  unfold execRowIdleClose
  refine Ends.next ?_
  with_reducible repeat' first
    | exact h
    | refine modChan_kept ?_
    | refine Kept.ite ?_ ?_
    | assumption
    | (intro hx; clear_value x)
    | (intro x; refine Kept.cut (s := s0) (x := x) ?_ ?_)
    | (intro x; refine Kept.cut (s := s0) (x := x.1) ?_ ?_)
    | (intro x; clear_value x)
    | lift_lets -underBinder
    | split
    | (refine Kept.upd ?_; first | assumption | refine modChan_kept ?_ | refine Kept.ite ?_ ?_)

theorem refreshBelow_kept {g : Nat} {bank : Nat} {s0 s : State} (h : Kept s0 s) :
    Kept s0 (refreshBelow s g bank) := by
  unfold refreshBelow
  with_reducible repeat' first
    | exact h
    | refine State.each_kept ?_ (fun x a hx => ?_)
    | refine refreshBank_kept ?_
    | refine Kept.ite ?_ ?_
    | assumption
    | split

theorem execRefreshDue_ends {chan : Fin 256} {bank : Fin 272} {s0 s : State} (h : Kept s0 s) :
    Ends s0 (execRefreshDue chan bank s) := by
  unfold execRefreshDue
  refine Ends.next ?_
  with_reducible repeat' first
    | exact h
    | refine refreshBank_kept ?_
    | refine refreshBelow_kept ?_
    | refine Kept.ite ?_ ?_
    | assumption
    | (intro hx; clear_value x)
    | (intro x; refine Kept.cut (s := s0) (x := x) ?_ ?_)
    | (intro x; refine Kept.cut (s := s0) (x := x.1) ?_ ?_)
    | (intro x; clear_value x)
    | lift_lets -underBinder
    | split

theorem execBackstopExpiry_ends {chan : Fin 256} {bank : Fin 272} {s0 s : State} (h : Kept s0 s) :
    Ends s0 (execBackstopExpiry chan bank s) := by
  unfold execBackstopExpiry
  refine Ends.next ?_
  with_reducible repeat' first
    | exact h
    | refine State.put_kept ?_
    | refine State.inc_kept ?_
    | refine event_kept ?_
    | refine eventOnce_kept ?_
    | refine modChan_kept ?_
    | refine refreshBank_kept ?_
    | refine Kept.ite ?_ ?_
    | assumption
    | (intro hx; clear_value x)
    | (intro x; refine Kept.cut (s := s0) (x := x) ?_ ?_)
    | (intro x; refine Kept.cut (s := s0) (x := x.1) ?_ ?_)
    | (intro x; clear_value x)
    | lift_lets -underBinder
    | split

theorem execTargetedRefresh_ends {chan : Fin 256} {s0 s : State} (h : Kept s0 s) :
    Ends s0 (execTargetedRefresh chan s) := by
  unfold execTargetedRefresh
  refine Ends.next ?_
  with_reducible repeat' first
    | exact h
    | refine State.put_kept ?_
    | refine State.inc_kept ?_
    | refine eventOnce_kept ?_
    | refine setChan_kept ?_
    | refine refreshBelow_kept ?_
    | refine Kept.ite ?_ ?_
    | assumption
    | (intro hx; clear_value x)
    | (intro x; refine Kept.cut (s := s0) (x := x) ?_ ?_)
    | (intro x; refine Kept.cut (s := s0) (x := x.1) ?_ ?_)
    | (intro x; clear_value x)
    | lift_lets -underBinder
    | split
    | refine Kept.of_fst (by assumption) ?_
    | (unfold x; split)

theorem eyeRule_kept {g : Nat} {low : List (Fin 59)} {s0 s : State} (h : Kept s0 s) :
    Kept s0 (eyeRule s g low) := by
  unfold eyeRule
  with_reducible repeat' first
    | exact h
    | refine State.each_kept ?_ (fun x a hx => ?_)
    | refine setChan_kept ?_
    | refine declareData_kept ?_
    | refine declareCa_kept ?_
    | refine Kept.ite ?_ ?_
    | refine foldl_kept ?_ fun x a hx => ?_
    | refine foldl_kept_fst ?_ fun x a hx => ?_
    | assumption
    | (intro hx; clear_value x)
    | (intro x; refine Kept.cut (s := s0) (x := x) ?_ ?_)
    | (intro x; refine Kept.cut (s := s0) (x := x.1) ?_ ?_)
    | (intro x; clear_value x)
    | lift_lets -underBinder
    | split
    | refine Kept.of_fst (by assumption) ?_
    | (refine Kept.upd ?_; first | assumption | refine State.each_kept ?_ (fun x a hx => ?_) | refine setChan_kept ?_ | refine declareData_kept ?_ | refine declareCa_kept ?_ | refine Kept.ite ?_ ?_)

theorem execRetrainingPause_ends {chan : Fin 256} {low : List (Fin 59)} {steps : List (Fin 131 × Bool)} {spare : SpareRun} {s0 s : State} (h : Kept s0 s) :
    Ends s0 (execRetrainingPause chan low steps spare s) := by
  unfold execRetrainingPause
  refine Ends.next ?_
  with_reducible repeat' first
    | exact h
    | refine State.incW_kept ?_
    | refine modChan_kept ?_
    | refine trimSteps_kept ?_
    | refine swapBank_kept ?_
    | refine eyeRule_kept ?_
    | refine Kept.ite ?_ ?_
    | assumption
    | (intro hx; clear_value x)
    | (intro x; refine Kept.cut (s := s0) (x := x) ?_ ?_)
    | (intro x; refine Kept.cut (s := s0) (x := x.1) ?_ ?_)
    | (intro x; clear_value x)
    | lift_lets -underBinder
    | split
    | refine Kept.of_fst (by assumption) ?_

theorem abandonTest_kept {g : Nat} {s0 s : State} (h : Kept s0 s) :
    Kept s0 (abandonTest s g) := by
  unfold abandonTest
  with_reducible repeat' first
    | exact h
    | refine State.put_kept ?_
    | refine State.inc_kept ?_
    | refine event_kept ?_
    | refine modChan_kept ?_
    | assumption
    | (intro hx; clear_value x)
    | (intro x; refine Kept.cut (s := s0) (x := x) ?_ ?_)
    | (intro x; refine Kept.cut (s := s0) (x := x.1) ?_ ?_)
    | (intro x; clear_value x)
    | lift_lets -underBinder
    | (refine Kept.upd ?_; first | assumption | refine State.put_kept ?_ | refine State.inc_kept ?_ | refine event_kept ?_ | refine modChan_kept ?_)

theorem testInUse_kept {g : Nat} {reads : List ReadRun} {s0 s : State} (h : Kept s0 s) :
    Kept s0 (testInUse s g reads) := by
  unfold testInUse
  with_reducible repeat' first
    | exact h
    | refine State.each_kept ?_ (fun x a hx => ?_)
    | refine modChan_kept ?_
    | refine readSeen_kept ?_
    | refine Kept.ite ?_ ?_
    | refine Kept.ite_fst ?_ ?_
    | assumption
    | (intro hx; clear_value x)
    | (intro x; refine Kept.cut (s := s0) (x := x) ?_ ?_)
    | (intro x; refine Kept.cut (s := s0) (x := x.1) ?_ ?_)
    | (intro x; clear_value x)
    | lift_lets -underBinder
    | split
    | (refine Kept.upd ?_; first | assumption | refine State.each_kept ?_ (fun x a hx => ?_) | refine modChan_kept ?_ | refine readSeen_kept ?_ | refine Kept.ite ?_ ?_)

theorem execPauseComplete_ends {chan : Fin 256} {length : Fin 512} {s0 s : State} (h : Kept s0 s) :
    Ends s0 (execPauseComplete chan length s) := by
  unfold execPauseComplete
  refine Ends.next ?_
  with_reducible repeat' first
    | exact h
    | refine State.put_kept ?_
    | refine modChan_kept ?_
    | refine spareTestFails_kept ?_
    | refine abandonTest_kept ?_
    | refine testInUse_kept ?_
    | refine Kept.ite ?_ ?_
    | assumption
    | (intro hx; clear_value x)
    | (intro x; refine Kept.cut (s := s0) (x := x) ?_ ?_)
    | (intro x; refine Kept.cut (s := s0) (x := x.1) ?_ ?_)
    | (intro x; clear_value x)
    | lift_lets -underBinder
    | split
    | refine Kept.of_fst (by assumption) ?_
    | (unfold x; split)
    | (refine Kept.upd ?_; first | assumption | refine State.put_kept ?_ | refine modChan_kept ?_ | refine spareTestFails_kept ?_ | refine abandonTest_kept ?_ | refine testInUse_kept ?_ | refine Kept.ite ?_ ?_)

theorem execPauseLengthLimit_ends {chan : Fin 256} {s0 s : State} (h : Kept s0 s) :
    Ends s0 (execPauseLengthLimit chan s) := by
  unfold execPauseLengthLimit
  refine Ends.next ?_
  with_reducible repeat' first
    | exact h
    | refine abandonTest_kept ?_
    | refine Kept.ite ?_ ?_
    | assumption
    | (intro hx; clear_value x)
    | (intro x; refine Kept.cut (s := s0) (x := x) ?_ ?_)
    | (intro x; refine Kept.cut (s := s0) (x := x.1) ?_ ?_)
    | (intro x; clear_value x)
    | lift_lets -underBinder
    | split
    | refine Kept.of_fst (by assumption) ?_
    | (unfold x; split)

theorem execRepairPause_ends {chan : Fin 256} {declares : Option (Fin 15)} {s0 s : State} (h : Kept s0 s) :
    Ends s0 (execRepairPause chan declares s) := by
  unfold execRepairPause
  refine Ends.next ?_
  with_reducible repeat' first
    | exact h
    | refine modChan_kept ?_
    | refine declareCa_kept ?_
    | refine rankFailed_kept ?_
    | refine reissueAll_kept ?_
    | refine Kept.ite ?_ ?_
    | assumption
    | (intro hx; clear_value x)
    | (intro x; refine Kept.cut (s := s0) (x := x) ?_ ?_)
    | (intro x; refine Kept.cut (s := s0) (x := x.1) ?_ ?_)
    | (intro x; clear_value x)
    | lift_lets -underBinder
    | split
    | refine Kept.of_fst (by assumption) ?_
    | (unfold x; split)
    | (refine Kept.upd ?_; first | assumption | refine modChan_kept ?_ | refine declareCa_kept ?_ | refine rankFailed_kept ?_ | refine reissueAll_kept ?_ | refine Kept.ite ?_ ?_)

theorem execParityAlert_ends {chan : Fin 256} {rank : Fin 17} {traced : Option (Fin 15)} {alert : AlertRun} {s0 s : State} (h : Kept s0 s) :
    Ends s0 (execParityAlert chan rank traced alert s) := by
  unfold execParityAlert
  refine Ends.next ?_
  with_reducible repeat' first
    | exact h
    | refine State.each_kept ?_ (fun x a hx => ?_)
    | refine modChan_kept ?_
    | refine declareCa_kept ?_
    | refine undoCmd_kept ?_
    | refine Kept.ite ?_ ?_
    | assumption
    | (intro hx; clear_value x)
    | (intro x; refine Kept.cut (s := s0) (x := x) ?_ ?_)
    | (intro x; refine Kept.cut (s := s0) (x := x.1) ?_ ?_)
    | (intro x; clear_value x)
    | lift_lets -underBinder
    | split
    | refine Kept.of_fst (by assumption) ?_
    | (unfold x; split)
    | (refine Kept.upd ?_; first | assumption | refine State.each_kept ?_ (fun x a hx => ?_) | refine modChan_kept ?_ | refine declareCa_kept ?_ | refine undoCmd_kept ?_ | refine Kept.ite ?_ ?_)

theorem execSignalCopyFailed_ends {chan : Fin 256} {wire : Fin 14} {s0 s : State} (h : Kept s0 s) :
    Ends s0 (execSignalCopyFailed chan wire s) := by
  unfold execSignalCopyFailed
  refine Ends.next ?_
  with_reducible repeat' first
    | exact h
    | refine State.setFlag_kept ?_
    | refine event_kept ?_
    | refine recordRepair_kept ?_
    | refine updateState_kept ?_
    | refine Kept.ite ?_ ?_
    | assumption
    | (intro hx; clear_value x)
    | (intro x; refine Kept.cut (s := s0) (x := x) ?_ ?_)
    | (intro x; refine Kept.cut (s := s0) (x := x.1) ?_ ?_)
    | (intro x; clear_value x)
    | lift_lets -underBinder
    | split
    | (refine Kept.upd ?_; first | assumption | refine State.setFlag_kept ?_ | refine event_kept ?_ | refine recordRepair_kept ?_ | refine updateState_kept ?_ | refine Kept.ite ?_ ?_)

theorem execTowerSupplyFault_ends {tower : Fin 4} {s0 s : State} (h : Kept s0 s) :
    Ends s0 (execTowerSupplyFault tower s) := by
  unfold execTowerSupplyFault
  refine Ends.next ?_
  with_reducible repeat' first
    | exact h
    | refine event_kept ?_
    | refine Kept.ite ?_ ?_
    | split

theorem writeSched_kept {g : Nat} {w : BitVec 64} {s0 s : State} (h : Kept s0 s) :
    Kept s0 (writeSched s g w) := by
  unfold writeSched
  with_reducible repeat' first
    | exact h
    | refine State.put_kept ?_
    | refine notice_kept ?_
    | refine modChan_kept ?_
    | refine Kept.ite ?_ ?_
    | assumption
    | (intro hx; clear_value x)
    | (intro x; refine Kept.cut (s := s0) (x := x) ?_ ?_)
    | (intro x; refine Kept.cut (s := s0) (x := x.1) ?_ ?_)
    | (intro x; clear_value x)
    | lift_lets -underBinder
    | split
    | (refine Kept.upd ?_; first | assumption | refine State.put_kept ?_ | refine notice_kept ?_ | refine modChan_kept ?_ | refine Kept.ite ?_ ?_)

theorem execChnSchedWrite_ends {chan : Fin 256} {value : BitVec 64} {s0 s : State} (h : Kept s0 s) :
    Ends s0 (execChnSchedWrite chan value s) := by
  unfold execChnSchedWrite
  refine Ends.next ?_
  with_reducible repeat' first
    | exact h
    | refine writeSched_kept ?_
    | refine Kept.ite ?_ ?_
    | split

theorem readPool_kept {g : Nat} {s0 s : State} (h : Kept s0 s) :
    Kept s0 (readPool s g).1 := by
  unfold readPool
  with_reducible repeat' first
    | exact h
    | refine State.put_kept ?_

theorem poolWritten_kept {g : Nat} {s0 s : State} (h : Kept s0 s) :
    Kept s0 (poolWritten s g) := by
  unfold poolWritten
  with_reducible repeat' first
    | exact h
    | refine fillPools_kept ?_

theorem execChnPoolRead_ends {chan : Fin 256} {s0 s : State} (h : Kept s0 s) :
    Ends s0 (execChnPoolRead chan s) := by
  unfold execChnPoolRead
  refine Ends.next ?_
  with_reducible repeat' first
    | exact h
    | refine State.send_kept ?_
    | refine readPool_kept ?_
    | refine Kept.ite ?_ ?_
    | refine Kept.ite_fst ?_ ?_
    | assumption
    | (intro hx; clear_value x)
    | (intro x; refine Kept.cut (s := s0) (x := x) ?_ ?_)
    | (intro x; refine Kept.cut (s := s0) (x := x.1) ?_ ?_)
    | (intro x; clear_value x)
    | lift_lets -underBinder
    | split
    | refine Kept.of_fst (by assumption) ?_

theorem channelFolio_kept {s0 s : State} (h : Kept s0 s) :
    Kept s0 (channelFolio s) := by
  unfold channelFolio
  with_reducible repeat' first
    | exact h
    | assumption
    | split
    | refine Kept.of_fst (by assumption) ?_
    | (refine Kept.upd ?_; first | assumption)

end Sys2Proof.Machine
end

