-- ==== Sys2Proof/Laws/KeptDuctus.lean ====
section
/-! SUPPORT. What every step keeps, through the functions of Ductus. -/

set_option linter.all false
set_option maxRecDepth 8000

namespace Sys2Proof.Machine

theorem mapLost_kept {block : Nat} {s0 s : State} (h : Kept s0 s) :
    Kept s0 (mapLost s block) := by
  unfold mapLost
  with_reducible repeat' first
    | exact h
    | refine event_kept ?_

theorem readMap_kept {b : Nat} {run : ReadRun} {s0 s : State} (h : Kept s0 s) :
    Kept s0 (readMap s b run).1 := by
  unfold readMap
  with_reducible repeat' first
    | exact h
    | refine readSeen_kept ?_
    | refine mapLost_kept ?_
    | refine Kept.ite ?_ ?_
    | refine Kept.ite_fst ?_ ?_
    | assumption
    | (intro hx; clear_value x)
    | (intro x; refine Kept.cut (s := s0) (x := x) ?_ ?_)
    | (intro x; refine Kept.cut (s := s0) (x := x.1) ?_ ?_)
    | (intro x; clear_value x)
    | lift_lets -underBinder
    | split
    | refine Kept.of_fst (by assumption) ?_
    | (unfold x; split)

theorem lookupBlock_kept {leaf : Nat} {run : ReadRun} {s0 s : State} (h : Kept s0 s) :
    Kept s0 (lookupBlock s leaf run).1 := by
  unfold lookupBlock
  with_reducible repeat' first
    | exact h
    | refine State.incW_kept ?_
    | refine useBlock_kept ?_
    | refine installBlock_kept ?_
    | refine readMap_kept ?_
    | refine Kept.ite ?_ ?_
    | refine Kept.ite_fst ?_ ?_
    | assumption
    | (intro hx; clear_value x)
    | (intro x; refine Kept.cut (s := s0) (x := x) ?_ ?_)
    | (intro x; refine Kept.cut (s := s0) (x := x.1) ?_ ?_)
    | (intro x; clear_value x)
    | lift_lets -underBinder
    | split
    | refine Kept.of_fst (by assumption) ?_
    | (unfold x; split)

theorem endLost_kept {w : Work} {s0 s : State} (h : Kept s0 s) :
    Kept s0 (endLost s w) := by
  unfold endLost
  with_reducible repeat' first
    | exact h
    | refine endWrite_kept ?_
    | refine endRead_kept ?_
    | split
    | refine Kept.of_fst (by assumption) ?_

theorem execMapCacheMissFill_ends {map : ReadRun} {s0 s : State} (h : Kept s0 s) :
    Ends s0 (execMapCacheMissFill map s) := by
  unfold execMapCacheMissFill
  refine Ends.next ?_
  with_reducible repeat' first
    | exact h
    | refine State.each_kept ?_ (fun x a hx => ?_)
    | refine installBlock_kept ?_
    | refine heatSample_kept ?_
    | refine proceed_kept ?_
    | refine readMap_kept ?_
    | refine endLost_kept ?_
    | assumption
    | (intro hx; clear_value x)
    | (intro x; refine Kept.cut (s := s0) (x := x) ?_ ?_)
    | (intro x; refine Kept.cut (s := s0) (x := x.1) ?_ ?_)
    | (intro x; clear_value x)
    | lift_lets -underBinder
    | split
    | refine Kept.of_fst (by assumption) ?_
    | (unfold x; split)
    | (refine Kept.upd ?_; first | assumption | refine State.each_kept ?_ (fun x a hx => ?_) | refine installBlock_kept ?_ | refine heatSample_kept ?_ | refine proceed_kept ?_ | refine readMap_kept ?_ | refine endLost_kept ?_)

theorem sweepEntry_kept {leaf : Nat} {e : Leaf} {s0 s : State} (h : Kept s0 s) :
    Kept s0 (sweepEntry s leaf e) := by
  unfold sweepEntry
  with_reducible repeat' first
    | exact h
    | refine setLeaf_kept ?_
    | refine Kept.ite ?_ ?_
    | assumption
    | (intro hx; clear_value x)
    | (intro x; refine Kept.cut (s := s0) (x := x) ?_ ?_)
    | (intro x; refine Kept.cut (s := s0) (x := x.1) ?_ ?_)
    | (intro x; clear_value x)
    | lift_lets -underBinder
    | split
    | (refine Kept.upd ?_; first | assumption | refine setLeaf_kept ?_ | refine Kept.ite ?_ ?_ | (refine Kept.upd ?_; first | assumption | refine setLeaf_kept ?_))

theorem execHeatSweep_ends {map : ReadRun} {s0 s : State} (h : Kept s0 s) :
    Ends s0 (execHeatSweep map s) := by
  unfold execHeatSweep
  refine Ends.next ?_
  with_reducible repeat' first
    | exact h
    | refine State.each_kept ?_ (fun x a hx => ?_)
    | refine chargeNow_kept ?_
    | refine readMap_kept ?_
    | refine sweepEntry_kept ?_
    | refine Kept.ite ?_ ?_
    | refine Kept.ite_fst ?_ ?_
    | assumption
    | (intro hx; clear_value x)
    | (intro x; refine Kept.cut (s := s0) (x := x) ?_ ?_)
    | (intro x; refine Kept.cut (s := s0) (x := x.1) ?_ ?_)
    | (intro x; clear_value x)
    | lift_lets -underBinder
    | split
    | refine Kept.of_fst (by assumption) ?_
    | (unfold x; split)
    | (refine Kept.upd ?_; first | assumption | refine State.each_kept ?_ (fun x a hx => ?_) | refine chargeNow_kept ?_ | refine readMap_kept ?_ | refine sweepEntry_kept ?_ | refine Kept.ite ?_ ?_)

theorem moveLeaf_kept {leaf : Nat} {cause : Nat} {dest : MoveTo} {accepts : Bool} {item : Option Nat} {s0 s : State} (h : Kept s0 s) :
    Kept s0 (moveLeaf s leaf cause dest accepts item).1 := by
  unfold moveLeaf
  with_reducible repeat' first
    | exact h
    | refine State.drew_kept ?_
    | refine startMove_kept ?_
    | assumption
    | (intro hx; clear_value x)
    | (intro x; refine Kept.cut (s := s0) (x := x) ?_ ?_)
    | (intro x; refine Kept.cut (s := s0) (x := x.1) ?_ ?_)
    | (intro x; clear_value x)
    | lift_lets -underBinder
    | split
    | refine Kept.of_fst (by assumption) ?_
    | (unfold x; split)

theorem moveLooked_kept {leaf : Nat} {cause : Nat} {dest : MoveTo} {accepts : Bool} {map : ReadRun} {s0 s : State} (h : Kept s0 s) :
    Kept s0 (moveLooked s leaf cause dest accepts map).1 := by
  unfold moveLooked
  with_reducible repeat' first
    | exact h
    | refine lookupBlock_kept ?_
    | refine moveLeaf_kept ?_
    | refine Kept.ite ?_ ?_
    | refine Kept.ite_fst ?_ ?_
    | split
    | refine Kept.of_fst (by assumption) ?_

theorem moveQuire_kept {q : Nat} {cause : Nat} {dest : MoveTo} {s0 s : State} (h : Kept s0 s) :
    Kept s0 (moveQuire s q cause dest).1 := by
  unfold moveQuire
  with_reducible repeat' first
    | exact h
    | refine moveQuireTo_kept ?_
    | refine Kept.ite ?_ ?_
    | refine Kept.ite_fst ?_ ?_
    | assumption
    | (intro hx; clear_value x)
    | (intro x; refine Kept.cut (s := s0) (x := x) ?_ ?_)
    | (intro x; refine Kept.cut (s := s0) (x := x.1) ?_ ?_)
    | (intro x; clear_value x)
    | lift_lets -underBinder
    | split
    | refine Kept.of_fst (by assumption) ?_
    | (unfold x; split)

theorem pinLeaf_kept {leaf : Nat} {pin : Bool} {s0 s : State} (h : Kept s0 s) :
    Kept s0 (pinLeaf s leaf pin).1 := by
  unfold pinLeaf
  with_reducible repeat' first
    | exact h
    | refine setLeaf_kept ?_
    | refine abortMove_kept ?_
    | refine Kept.ite ?_ ?_
    | refine Kept.ite_fst ?_ ?_
    | assumption
    | (intro hx; clear_value x)
    | (intro x; refine Kept.cut (s := s0) (x := x) ?_ ?_)
    | (intro x; refine Kept.cut (s := s0) (x := x.1) ?_ ?_)
    | (intro x; clear_value x)
    | lift_lets -underBinder
    | split
    | refine Kept.of_fst (by assumption) ?_
    | (unfold x; split)
    | (refine Kept.upd ?_; first | assumption | refine setLeaf_kept ?_ | refine abortMove_kept ?_ | refine Kept.ite ?_ ?_)

theorem pinLooked_kept {leaf : Nat} {pin : Bool} {map : ReadRun} {s0 s : State} (h : Kept s0 s) :
    Kept s0 (pinLooked s leaf pin map).1 := by
  unfold pinLooked
  with_reducible repeat' first
    | exact h
    | refine lookupBlock_kept ?_
    | refine pinLeaf_kept ?_
    | refine Kept.ite ?_ ?_
    | refine Kept.ite_fst ?_ ?_
    | split
    | refine Kept.of_fst (by assumption) ?_

theorem readHeat_kept {leaf : Nat} {map : ReadRun} {s0 s : State} (h : Kept s0 s) :
    Kept s0 (readHeat s leaf map).1 := by
  unfold readHeat
  with_reducible repeat' first
    | exact h
    | refine lookupBlock_kept ?_
    | refine Kept.ite ?_ ?_
    | refine Kept.ite_fst ?_ ?_
    | split
    | refine Kept.of_fst (by assumption) ?_

theorem resolveLeaf_kept {dpa : Nat} {map : ReadRun} {s0 s : State} (h : Kept s0 s) :
    Kept s0 (resolveLeaf s dpa map).1 := by
  unfold resolveLeaf
  with_reducible repeat' first
    | exact h
    | refine lookupBlock_kept ?_
    | refine Kept.ite ?_ ?_
    | refine Kept.ite_fst ?_ ?_
    | assumption
    | (intro hx; clear_value x)
    | (intro x; refine Kept.cut (s := s0) (x := x) ?_ ?_)
    | (intro x; refine Kept.cut (s := s0) (x := x.1) ?_ ?_)
    | (intro x; clear_value x)
    | lift_lets -underBinder
    | split
    | refine Kept.of_fst (by assumption) ?_
    | (unfold x; split)

theorem stripeMove_kept {ls : List (Nat × Leaf)} {dest : (Loc → Bool) → Option Loc} {s0 s : State} (h : Kept s0 s) :
    Kept s0 (stripeMove s ls dest).1 := by
  unfold stripeMove
  with_reducible repeat' first
    | exact h
    | refine startMove_kept ?_
    | refine Kept.ite ?_ ?_
    | refine Kept.ite_fst ?_ ?_
    | assumption
    | (intro hx; clear_value x)
    | (intro x; refine Kept.cut (s := s0) (x := x) ?_ ?_)
    | (intro x; refine Kept.cut (s := s0) (x := x.1) ?_ ?_)
    | (intro x; clear_value x)
    | lift_lets -underBinder
    | split
    | refine Kept.of_fst (by assumption) ?_
    | (unfold x; split)
    | (refine Kept.draw ?_; assumption)

theorem stripeStep_kept {a : Nat} {set : List Nat} {s0 s : State} (h : Kept s0 s) :
    Kept s0 (stripeStep s a set).1 := by
  unfold stripeStep
  with_reducible repeat' first
    | exact h
    | refine stripeMove_kept ?_
    | refine Kept.ite ?_ ?_
    | refine Kept.ite_fst ?_ ?_
    | assumption
    | (intro hx; clear_value x)
    | (intro x; refine Kept.cut (s := s0) (x := x) ?_ ?_)
    | (intro x; refine Kept.cut (s := s0) (x := x.1) ?_ ?_)
    | (intro x; clear_value x)
    | lift_lets -underBinder
    | split
    | refine Kept.of_fst (by assumption) ?_
    | (unfold x; split)

theorem setPinBroken_kept {a : Nat} {broken : Bool} {s0 s : State} (h : Kept s0 s) :
    Kept s0 (setPinBroken s a broken) := by
  unfold setPinBroken
  with_reducible repeat' first
    | exact h
    | refine Kept.ite ?_ ?_
    | assumption
    | (intro hx; clear_value x)
    | (intro x; refine Kept.cut (s := s0) (x := x) ?_ ?_)
    | (intro x; refine Kept.cut (s := s0) (x := x.1) ?_ ?_)
    | (intro x; clear_value x)
    | lift_lets -underBinder
    | split
    | (refine Kept.upd ?_; first | assumption | refine Kept.ite ?_ ?_)

theorem stripeLoop_kept {a : Nat} {set : List Nat} {n : Nat} {s0 s : State} (h : Kept s0 s) :
    Kept s0 (stripeLoop a set n s) := by
  induction n generalizing s with
  | zero => exact h
  | succ n ih =>
    unfold stripeLoop
    split
    · exact ih (Kept.of_fst (by assumption) (stripeStep_kept h))
    · exact setPinBroken_kept (eventOnce_kept (Kept.of_fst (by assumption) (stripeStep_kept h)))
    · exact Kept.of_fst (by assumption) (stripeStep_kept h)

theorem restoreStripes_kept {s0 s : State} (h : Kept s0 s) :
    Kept s0 (restoreStripes s) := by
  unfold restoreStripes
  with_reducible repeat' first
    | exact h
    | refine State.each_kept ?_ (fun x a hx => ?_)
    | refine setPinBroken_kept ?_
    | refine stripeLoop_kept ?_
    | refine Kept.ite ?_ ?_
    | assumption
    | (intro hx; clear_value x)
    | (intro x; refine Kept.cut (s := s0) (x := x) ?_ ?_)
    | (intro x; refine Kept.cut (s := s0) (x := x.1) ?_ ?_)
    | (intro x; clear_value x)
    | lift_lets -underBinder
    | split

theorem putHeat_kept {i : Nat} {c : Nat} {x0 : Nat × Nat × Nat} {s0 s : State} (h : Kept s0 s) :
    Kept s0 (putHeat s i c x0) := by
  unfold putHeat
  with_reducible repeat' first
    | exact h
    | refine State.setWord_kept ?_

theorem clearHeatList_kept {s0 s : State} (h : Kept s0 s) : Kept s0 (clearHeatList s) :=
  ⟨h.variant, h.pending, h.free, h.out, fun x => Tab.canon_filter _ (h.desk x), h.media⟩

theorem freezeHeat_kept {s0 s : State} (h : Kept s0 s) :
    Kept s0 (freezeHeat s) := by
  unfold freezeHeat
  with_reducible repeat' first
    | exact h
    | refine State.put_kept ?_
    | refine State.each_kept ?_ (fun x a hx => ?_)
    | refine putHeat_kept ?_
    | refine clearHeatList_kept ?_
    | assumption
    | (intro hx; clear_value x)
    | (intro x; refine Kept.cut (s := s0) (x := x) ?_ ?_)
    | (intro x; refine Kept.cut (s := s0) (x := x.1) ?_ ?_)
    | (intro x; clear_value x)
    | lift_lets -underBinder
    | (refine Kept.upd ?_; first | assumption | refine State.put_kept ?_ | refine State.each_kept ?_ (fun x a hx => ?_) | refine putHeat_kept ?_ | refine clearHeatList_kept ?_)

theorem takeLoad_kept {s0 s : State} (h : Kept s0 s) :
    Kept s0 (takeLoad s) := by
  unfold takeLoad
  with_reducible repeat' first
    | exact h
    | refine State.put_kept ?_
    | refine State.each_kept ?_ (fun x a hx => ?_)
    | refine modChan_kept ?_
    | refine Kept.ite ?_ ?_
    | assumption
    | (intro hx; clear_value x)
    | (intro x; refine Kept.cut (s := s0) (x := x) ?_ ?_)
    | (intro x; refine Kept.cut (s := s0) (x := x.1) ?_ ?_)
    | (intro x; clear_value x)
    | lift_lets -underBinder
    | split
    | (refine Kept.upd ?_; first | assumption | refine State.put_kept ?_ | refine State.each_kept ?_ (fun x a hx => ?_) | refine modChan_kept ?_ | refine Kept.ite ?_ ?_)

theorem takeEffect_kept {s0 s : State} (h : Kept s0 s) :
    Kept s0 (takeEffect s) := by
  unfold takeEffect
  with_reducible repeat' first
    | exact h
    | assumption
    | (intro hx; clear_value x)
    | (intro x; refine Kept.cut (s := s0) (x := x) ?_ ?_)
    | (intro x; refine Kept.cut (s := s0) (x := x.1) ?_ ?_)
    | (intro x; clear_value x)
    | lift_lets -underBinder
    | split
    | refine Kept.of_fst (by assumption) ?_
    | (refine Kept.upd ?_; first | assumption)

theorem baseMove_kept {leaf : Nat} {cause : Nat} {dest : Option MoveTo} {s0 s : State} (h : Kept s0 s) :
    Kept s0 (baseMove s leaf cause dest) := by
  unfold baseMove
  with_reducible repeat' first
    | exact h
    | refine moveLeaf_kept ?_
    | refine Kept.ite ?_ ?_
    | refine Kept.ite_fst ?_ ?_
    | split
    | refine Kept.of_fst (by assumption) ?_

theorem thermalRelief_kept {cand : List (Nat × Nat × Nat)} {s0 s : State} (h : Kept s0 s) :
    Kept s0 (thermalRelief s cand) := by
  unfold thermalRelief
  with_reducible repeat' first
    | exact h
    | refine State.each_kept ?_ (fun x a hx => ?_)
    | refine baseMove_kept ?_
    | refine Kept.ite ?_ ?_
    | assumption
    | (intro hx; clear_value x)
    | (intro x; refine Kept.cut (s := s0) (x := x) ?_ ?_)
    | (intro x; refine Kept.cut (s := s0) (x := x.1) ?_ ?_)
    | (intro x; clear_value x)
    | lift_lets -underBinder
    | split
    | refine Kept.of_fst (by assumption) ?_
    | (unfold x; split)

theorem localityMoves_kept {cand : List (Nat × Nat × Nat)} {s0 s : State} (h : Kept s0 s) :
    Kept s0 (localityMoves s cand) := by
  unfold localityMoves
  with_reducible repeat' first
    | exact h
    | refine State.each_kept ?_ (fun x a hx => ?_)
    | refine baseMove_kept ?_
    | refine Kept.ite ?_ ?_
    | assumption
    | (intro hx; clear_value x)
    | (intro x; refine Kept.cut (s := s0) (x := x) ?_ ?_)
    | (intro x; refine Kept.cut (s := s0) (x := x.1) ?_ ?_)
    | (intro x; clear_value x)
    | lift_lets -underBinder
    | split
    | refine Kept.of_fst (by assumption) ?_
    | (unfold x; split)

theorem heatMoves_kept {cand : List (Nat × Nat × Nat)} {s0 s : State} (h : Kept s0 s) :
    Kept s0 (heatMoves s cand) := by
  unfold heatMoves
  with_reducible repeat' first
    | exact h
    | refine State.each_kept ?_ (fun x a hx => ?_)
    | refine baseMove_kept ?_
    | refine localityMoves_kept ?_
    | refine Kept.ite ?_ ?_
    | refine foldl_kept ?_ fun x a hx => ?_
    | refine foldl_kept_fst ?_ fun x a hx => ?_
    | assumption
    | (intro hx; clear_value x)
    | (intro x; refine Kept.cut (s := s0) (x := x) ?_ ?_)
    | (intro x; refine Kept.cut (s := s0) (x := x.1) ?_ ?_)
    | (intro x; clear_value x)
    | lift_lets -underBinder
    | split
    | refine Kept.of_fst (by assumption) ?_
    | (unfold x; split)

theorem lendCold_kept {cand : List (Nat × Nat × Nat)} {s0 s : State} (h : Kept s0 s) :
    Kept s0 (lendCold s cand) := by
  unfold lendCold
  with_reducible repeat' first
    | exact h
    | refine State.drew_kept ?_
    | refine State.each_kept ?_ (fun x a hx => ?_)
    | refine moveLeaf_kept ?_
    | refine Kept.ite ?_ ?_
    | refine Kept.ite_fst ?_ ?_
    | assumption
    | split
    | refine Kept.of_fst (by assumption) ?_

theorem execDecisionEpoch_ends {s0 s : State} (h : Kept s0 s) :
    Ends s0 (execDecisionEpoch s) := by
  unfold execDecisionEpoch
  refine Ends.next ?_
  with_reducible repeat' first
    | exact h
    | refine restoreStripes_kept ?_
    | refine freezeHeat_kept ?_
    | refine takeLoad_kept ?_
    | refine takeEffect_kept ?_
    | refine thermalRelief_kept ?_
    | refine heatMoves_kept ?_
    | refine lendCold_kept ?_
    | refine Kept.ite ?_ ?_
    | assumption
    | (intro hx; clear_value x)
    | (intro x; refine Kept.cut (s := s0) (x := x) ?_ ?_)
    | (intro x; refine Kept.cut (s := s0) (x := x.1) ?_ ?_)
    | (intro x; clear_value x)
    | lift_lets -underBinder
    | split

theorem copyLine_kept {m : Move} {i : Nat} {l : MediaLine} {s0 s : State} (h : Kept s0 s) :
    Kept s0 (copyLine s m i l) := by
  unfold copyLine
  with_reducible repeat' first
    | exact h
    | refine State.send_kept ?_
    | refine storeLine_kept ?_
    | refine setFabric_kept ?_
    | assumption
    | (intro hx; clear_value x)
    | (intro x; refine Kept.cut (s := s0) (x := x) ?_ ?_)
    | (intro x; refine Kept.cut (s := s0) (x := x.1) ?_ ?_)
    | (intro x; clear_value x)
    | lift_lets -underBinder
    | split
    | refine Kept.of_fst (by assumption) ?_
    | (unfold x; split)
    | (refine Kept.upd ?_; first | assumption | refine State.send_kept ?_ | refine storeLine_kept ?_ | refine setFabric_kept ?_)

theorem quireLost_kept {q : Nat} {i : Nat} {s0 s : State} (h : Kept s0 s) :
    Kept s0 (quireLost s q i) := by
  unfold quireLost
  with_reducible repeat' first
    | exact h
    | refine State.inc_kept ?_
    | refine sealEvent_kept ?_
    | refine addUnverifiable_kept ?_
    | refine mapLost_kept ?_
    | refine Kept.ite ?_ ?_
    | split
    | refine Kept.of_fst (by assumption) ?_

theorem copyLost_kept {m : Move} {i : Nat} {s0 s : State} (h : Kept s0 s) :
    Kept s0 (copyLost s m i) := by
  unfold copyLost
  with_reducible repeat' first
    | exact h
    | refine report_kept ?_
    | refine mergeDrop_kept ?_
    | refine quireLost_kept ?_
    | refine Kept.ite ?_ ?_
    | assumption
    | (intro hx; clear_value x)
    | (intro x; refine Kept.cut (s := s0) (x := x) ?_ ?_)
    | (intro x; refine Kept.cut (s := s0) (x := x.1) ?_ ?_)
    | (intro x; clear_value x)
    | lift_lets -underBinder
    | split
    | refine Kept.of_fst (by assumption) ?_
    | (unfold x; split)
    | (refine Kept.upd ?_; first | assumption | refine report_kept ?_ | refine mergeDrop_kept ?_ | refine quireLost_kept ?_ | refine Kept.ite ?_ ?_)

theorem copyReads_kept {m : Move} {reads : List (Nat × ReadRun)} {s0 s : State} (h : Kept s0 s) :
    Kept s0 (copyReads s m reads).1 := by
  unfold copyReads
  with_reducible repeat' first
    | exact h
    | refine State.each_kept ?_ (fun x a hx => ?_)
    | refine readSeen_kept ?_
    | refine Kept.ite ?_ ?_
    | refine Kept.ite_fst ?_ ?_
    | assumption
    | (intro hx; clear_value x)
    | (intro x; refine Kept.cut (s := s0) (x := x) ?_ ?_)
    | (intro x; refine Kept.cut (s := s0) (x := x.1) ?_ ?_)
    | (intro x; clear_value x)
    | lift_lets -underBinder
    | split

theorem copyLeaf_kept {m : Move} {home : List StoredLine} {lost : List Nat} {s0 s : State} (h : Kept s0 s) :
    Kept s0 (copyLeaf s m home lost) := by
  unfold copyLeaf
  with_reducible repeat' first
    | exact h
    | refine State.each_kept ?_ (fun x a hx => ?_)
    | refine copyLine_kept ?_
    | refine Kept.ite ?_ ?_
    | assumption
    | (intro hx; clear_value x)
    | (intro x; refine Kept.cut (s := s0) (x := x) ?_ ?_)
    | (intro x; refine Kept.cut (s := s0) (x := x.1) ?_ ?_)
    | (intro x; clear_value x)
    | lift_lets -underBinder
    | split
    | (refine Kept.upd ?_; first | assumption | refine State.each_kept ?_ (fun x a hx => ?_) | refine copyLine_kept ?_ | refine Kept.ite ?_ ?_)

theorem copyQuire_kept {m : Move} {lost : List Nat} {s0 s : State} (h : Kept s0 s) :
    Kept s0 (copyQuire s m lost) := by
  unfold copyQuire
  with_reducible repeat' first
    | exact h
    | refine State.each_kept ?_ (fun x a hx => ?_)
    | refine storeLine_kept ?_
    | assumption
    | (intro hx; clear_value x)
    | (intro x; refine Kept.cut (s := s0) (x := x) ?_ ?_)
    | (intro x; refine Kept.cut (s := s0) (x := x.1) ?_ ?_)
    | (intro x; clear_value x)
    | lift_lets -underBinder
    | split
    | refine Kept.of_fst (by assumption) ?_
    | (unfold x; split)
    | (refine Kept.upd ?_; first | assumption | refine State.each_kept ?_ (fun x a hx => ?_) | refine storeLine_kept ?_)

theorem execMoveCopyComplete_ends {slot : Fin 64} {reads : List (Fin 32768 × ReadRun)} {home : List StoredLine} {s0 s : State} (h : Kept s0 s) :
    Ends s0 (execMoveCopyComplete slot reads home s) := by
  unfold execMoveCopyComplete
  refine Ends.next ?_
  with_reducible repeat' first
    | exact h
    | refine State.each_kept ?_ (fun x a hx => ?_)
    | refine chargeNow_kept ?_
    | refine cleanCounter_kept ?_
    | refine copyLost_kept ?_
    | refine copyReads_kept ?_
    | refine copyLeaf_kept ?_
    | refine copyQuire_kept ?_
    | refine Kept.ite ?_ ?_
    | refine Kept.ite_fst ?_ ?_
    | assumption
    | (intro hx; clear_value x)
    | (intro x; refine Kept.cut (s := s0) (x := x) ?_ ?_)
    | (intro x; refine Kept.cut (s := s0) (x := x.1) ?_ ?_)
    | (intro x; clear_value x)
    | lift_lets -underBinder
    | split
    | refine Kept.of_fst (by assumption) ?_
    | (unfold x; split)
    | (refine Kept.upd ?_; first | assumption | refine State.each_kept ?_ (fun x a hx => ?_) | refine chargeNow_kept ?_ | refine cleanCounter_kept ?_ | refine copyLost_kept ?_ | refine copyReads_kept ?_ | refine copyLeaf_kept ?_ | refine copyQuire_kept ?_ | refine Kept.ite ?_ ?_)

theorem switchLeaf_kept {m : Move} {e : Leaf} {s0 s : State} (h : Kept s0 s) :
    Kept s0 (switchLeaf s m e) := by
  unfold switchLeaf
  with_reducible repeat' first
    | exact h
    | refine State.inc_kept ?_
    | refine State.dec_kept ?_
    | refine setLeaf_kept ?_
    | refine setSeal_kept ?_
    | refine Kept.ite ?_ ?_
    | assumption
    | (intro hx; clear_value x)
    | (intro x; refine Kept.cut (s := s0) (x := x) ?_ ?_)
    | (intro x; refine Kept.cut (s := s0) (x := x.1) ?_ ?_)
    | (intro x; clear_value x)
    | lift_lets -underBinder
    | split
    | refine Kept.of_fst (by assumption) ?_
    | (unfold x; split)
    | (refine Kept.upd ?_; first | assumption | refine State.inc_kept ?_ | refine State.dec_kept ?_ | refine setLeaf_kept ?_ | refine setSeal_kept ?_ | refine Kept.ite ?_ ?_)

theorem switchMove_kept {m : Move} {s0 s : State} (h : Kept s0 s) :
    Kept s0 (switchMove s m) := by
  unfold switchMove
  with_reducible repeat' first
    | exact h
    | refine switchLeaf_kept ?_
    | refine Kept.ite ?_ ?_
    | split
    | refine Kept.of_fst (by assumption) ?_
    | (refine Kept.upd ?_; first | assumption | refine switchLeaf_kept ?_ | refine Kept.ite ?_ ?_ | (refine Kept.upd ?_; first | assumption | refine switchLeaf_kept ?_))

theorem execMapSwitch_ends {run : MoveRun} {s0 s : State} (h : Kept s0 s) :
    Ends s0 (execMapSwitch run s) := by
  unfold execMapSwitch
  refine Ends.next ?_
  with_reducible repeat' first
    | exact h
    | refine State.put_kept ?_
    | refine State.incW_kept ?_
    | refine lookupBlock_kept ?_
    | refine switchMove_kept ?_
    | refine Kept.ite ?_ ?_
    | refine Kept.ite_fst ?_ ?_
    | assumption
    | (intro hx; clear_value x)
    | (intro x; refine Kept.cut (s := s0) (x := x) ?_ ?_)
    | (intro x; refine Kept.cut (s := s0) (x := x.1) ?_ ?_)
    | (intro x; clear_value x)
    | lift_lets -underBinder
    | split
    | refine Kept.of_fst (by assumption) ?_
    | (unfold x; split)
    | (refine Kept.upd ?_; first | assumption | refine State.put_kept ?_ | refine State.incW_kept ?_ | refine lookupBlock_kept ?_ | refine switchMove_kept ?_ | refine Kept.ite ?_ ?_)

theorem execMovingClear_ends {slot : Fin 64} {s0 s : State} (h : Kept s0 s) :
    Ends s0 (execMovingClear slot s) := by
  unfold execMovingClear
  refine Ends.next ?_
  with_reducible repeat' first
    | exact h
    | refine setLeaf_kept ?_
    | refine showMoves_kept ?_
    | refine moveEnded_kept ?_
    | refine Kept.ite ?_ ?_
    | assumption
    | (intro hx; clear_value x)
    | (intro x; refine Kept.cut (s := s0) (x := x) ?_ ?_)
    | (intro x; refine Kept.cut (s := s0) (x := x.1) ?_ ?_)
    | (intro x; clear_value x)
    | lift_lets -underBinder
    | split
    | refine Kept.of_fst (by assumption) ?_
    | (unfold x; split)
    | (refine Kept.upd ?_; first | assumption | refine setLeaf_kept ?_ | refine showMoves_kept ?_ | refine moveEnded_kept ?_ | refine Kept.ite ?_ ?_)

theorem pumpRecalls_kept {s0 s : State} (h : Kept s0 s) :
    Kept s0 (pumpRecalls s) := by
  unfold pumpRecalls
  with_reducible repeat' first
    | exact h
    | refine State.each_kept ?_ (fun x a hx => ?_)
    | refine startMove_kept ?_
    | refine Kept.ite ?_ ?_
    | assumption
    | split
    | refine Kept.of_fst (by assumption) ?_

theorem endRecalls_kept {s0 s : State} (h : Kept s0 s) :
    Kept s0 (endRecalls s) := by
  unfold endRecalls
  with_reducible repeat' first
    | exact h
    | assumption
    | split
    | refine Kept.of_fst (by assumption) ?_
    | (refine Kept.upd ?_; first | assumption)

theorem execSourceSlotFree_ends {slot : Fin 64} {s0 s : State} (h : Kept s0 s) :
    Ends s0 (execSourceSlotFree slot s) := by
  unfold execSourceSlotFree
  refine Ends.next ?_
  with_reducible repeat' first
    | exact h
    | refine State.each_kept ?_ (fun x a hx => ?_)
    | refine closeCounters_kept ?_
    | refine freeSlot_kept ?_
    | refine pump_kept ?_
    | refine finishEvacuations_kept ?_
    | refine pumpRecalls_kept ?_
    | refine endRecalls_kept ?_
    | refine Kept.ite ?_ ?_
    | assumption
    | (intro hx; clear_value x)
    | (intro x; refine Kept.cut (s := s0) (x := x) ?_ ?_)
    | (intro x; refine Kept.cut (s := s0) (x := x.1) ?_ ?_)
    | (intro x; clear_value x)
    | lift_lets -underBinder
    | split
    | refine Kept.of_fst (by assumption) ?_
    | (unfold x; split)
    | (refine Kept.upd ?_; first | assumption | refine State.each_kept ?_ (fun x a hx => ?_) | refine closeCounters_kept ?_ | refine freeSlot_kept ?_ | refine pump_kept ?_ | refine finishEvacuations_kept ?_ | refine pumpRecalls_kept ?_ | refine endRecalls_kept ?_ | refine Kept.ite ?_ ?_)

theorem execRecall_ends {port : Fin 64} {pbr : BitVec 12} {slots : List (BitVec 28)} {s0 s : State} (h : Kept s0 s) :
    Ends s0 (execRecall port pbr slots s) := by
  unfold execRecall
  refine Ends.next ?_
  with_reducible repeat' first
    | exact h
    | refine pumpRecalls_kept ?_
    | refine Kept.ite ?_ ?_
    | assumption
    | (intro hx; clear_value x)
    | (intro x; refine Kept.cut (s := s0) (x := x) ?_ ?_)
    | (intro x; refine Kept.cut (s := s0) (x := x.1) ?_ ?_)
    | (intro x; clear_value x)
    | lift_lets -underBinder
    | split
    | refine Kept.of_fst (by assumption) ?_
    | (refine Kept.upd ?_; first | assumption | refine pumpRecalls_kept ?_ | refine Kept.ite ?_ ?_)

theorem execRecallTimeout_ends {s0 s : State} (h : Kept s0 s) :
    Ends s0 (execRecallTimeout s) := by
  unfold execRecallTimeout
  refine Ends.next ?_
  with_reducible repeat' first
    | exact h
    | refine State.each_kept ?_ (fun x a hx => ?_)
    | refine event_kept ?_
    | refine Kept.ite ?_ ?_
    | assumption
    | (intro hx; clear_value x)
    | (intro x; refine Kept.cut (s := s0) (x := x) ?_ ?_)
    | (intro x; refine Kept.cut (s := s0) (x := x.1) ?_ ?_)
    | (intro x; clear_value x)
    | lift_lets -underBinder
    | split
    | (refine Kept.upd ?_; first | assumption | refine State.each_kept ?_ (fun x a hx => ?_) | refine event_kept ?_ | refine Kept.ite ?_ ?_)

theorem writeSpread_kept {n : Nat} {w : Nat} {v : BitVec 64} {s0 s : State} (h : Kept s0 s) :
    Kept s0 (writeSpread s n w v) := by
  unfold writeSpread
  with_reducible repeat' first
    | exact h
    | refine State.setWord_kept ?_
    | refine notice_kept ?_
    | refine Kept.ite ?_ ?_
    | refine foldl_kept ?_ fun x a hx => ?_
    | refine foldl_kept_fst ?_ fun x a hx => ?_
    | assumption
    | (intro hx; clear_value x)
    | (intro x; refine Kept.cut (s := s0) (x := x) ?_ ?_)
    | (intro x; refine Kept.cut (s := s0) (x := x.1) ?_ ?_)
    | (intro x; clear_value x)
    | lift_lets -underBinder
    | split

theorem execDctSpreadSetWrite_ends {slot : Fin 512} {word : Fin 4} {value : BitVec 64} {s0 s : State} (h : Kept s0 s) :
    Ends s0 (execDctSpreadSetWrite slot word value s) := by
  unfold execDctSpreadSetWrite
  refine Ends.next ?_
  with_reducible repeat' first
    | exact h
    | refine writeSpread_kept ?_
    | refine Kept.ite ?_ ?_
    | split

theorem execAccountWindowEnd_ends {account : Fin 4096} {s0 s : State} (h : Kept s0 s) :
    Ends s0 (execAccountWindowEnd account s) := by
  unfold execAccountWindowEnd
  refine Ends.next ?_
  with_reducible repeat' first
    | exact h
    | refine turnWindow_kept ?_
    | refine releaseHeld_kept ?_
    | refine Kept.ite ?_ ?_
    | split

end Sys2Proof.Machine
end

