-- ==== Sys2Proof/Laws/KeptFuses.lean ====
section
/-! SUPPORT. What every step keeps, through the functions of Fuses. -/

set_option linter.all false
set_option maxRecDepth 8000

namespace Sys2Proof.Machine

theorem showRegion_kept {n : Nat} {usable : Bool} {s0 s : State} (h : Kept s0 s) :
    Kept s0 (showRegion s n usable) := by
  unfold showRegion
  with_reducible repeat' first
    | exact h
    | refine State.put_kept ?_
    | refine State.putB_kept ?_
    | refine Kept.ite ?_ ?_
    | assumption
    | (intro hx; clear_value x)
    | (intro x; refine Kept.cut (s := s0) (x := x) ?_ ?_)
    | (intro x; refine Kept.cut (s := s0) (x := x.1) ?_ ?_)
    | (intro x; clear_value x)
    | lift_lets -underBinder
    | split

theorem showCounts_kept {s0 s : State} (h : Kept s0 s) :
    Kept s0 (showCounts s) := by
  unfold showCounts
  with_reducible repeat' first
    | exact h
    | refine State.put_kept ?_
    | assumption
    | (intro hx; clear_value x)
    | (intro x; refine Kept.cut (s := s0) (x := x) ?_ ?_)
    | (intro x; refine Kept.cut (s := s0) (x := x.1) ?_ ?_)
    | (intro x; clear_value x)
    | lift_lets -underBinder

theorem fuseEvent_kept {row : Nat} {detail : Nat} {s0 s : State} (h : Kept s0 s) :
    Kept s0 (fuseEvent s row detail) := by
  unfold fuseEvent
  with_reducible repeat' first
    | exact h
    | refine toColophon_kept ?_
    | refine event_kept ?_
    | refine Kept.ite ?_ ?_
    | assumption
    | (intro hx; clear_value x)
    | (intro x; refine Kept.cut (s := s0) (x := x) ?_ ?_)
    | (intro x; refine Kept.cut (s := s0) (x := x.1) ?_ ?_)
    | (intro x; clear_value x)
    | lift_lets -underBinder
    | split
    | refine Kept.of_fst (by assumption) ?_
    | (unfold x; split)

theorem recompute_kept {n : Nat} {s0 s : State} (h : Kept s0 s) :
    Kept s0 (recompute s n) := by
  unfold recompute
  with_reducible repeat' first
    | exact h
    | refine State.put_kept ?_
    | refine State.putB_kept ?_
    | refine showRegion_kept ?_
    | refine showCounts_kept ?_
    | refine fuseEvent_kept ?_
    | refine Kept.ite ?_ ?_
    | assumption
    | (intro hx; clear_value x)
    | (intro x; refine Kept.cut (s := s0) (x := x) ?_ ?_)
    | (intro x; refine Kept.cut (s := s0) (x := x.1) ?_ ?_)
    | (intro x; clear_value x)
    | lift_lets -underBinder
    | split

theorem progStatus_kept {st : Nat} {w : Nat} {s0 s : State} (h : Kept s0 s) :
    Kept s0 (progStatus s st w) := by
  unfold progStatus
  with_reducible repeat' first
    | exact h
    | refine State.put_kept ?_

theorem programWord_kept {p : Programmer} {w : Nat} {data : Nat} {pump : Bool} {s0 s : State} (h : Kept s0 s) :
    Kept s0 (programWord s p w data pump).1 := by
  unfold programWord
  with_reducible repeat' first
    | exact h
    | refine pump_kept ?_
    | refine fuseEvent_kept ?_
    | refine progStatus_kept ?_
    | split
    | refine Kept.of_fst (by assumption) ?_
    | (refine Kept.upd ?_; first | assumption | refine pump_kept ?_ | refine fuseEvent_kept ?_ | refine progStatus_kept ?_)

theorem writeProgCmd_kept {p : Programmer} {v : BitVec 64} {pump : Bool} {s0 s : State} (h : Kept s0 s) :
    Kept s0 (writeProgCmd s p v pump) := by
  unfold writeProgCmd
  with_reducible repeat' first
    | exact h
    | refine pump_kept ?_
    | refine programWord_kept ?_
    | refine Kept.ite ?_ ?_
    | refine Kept.ite_fst ?_ ?_
    | split

theorem execFuseProgram_ends {writer : Option (Fin 8)} {value : BitVec 64} {pump : Bool} {s0 s : State} (h : Kept s0 s) :
    Ends s0 (execFuseProgram writer value pump s) := by
  unfold execFuseProgram
  refine Ends.next ?_
  with_reducible repeat' first
    | exact h
    | refine pump_kept ?_
    | refine writeProgCmd_kept ?_
    | refine Kept.ite ?_ ?_
    | split

theorem setShadow_kept {w : Nat} {blank : Bool} {r : FuseReading} {s0 s : State} (h : Kept s0 s) :
    Kept s0 (setShadow s w blank r) := by
  unfold setShadow
  with_reducible repeat' first
    | exact h
    | refine State.setWord_kept ?_
    | refine State.drew_kept ?_
    | refine Kept.ite ?_ ?_
    | assumption
    | (intro hx; clear_value x)
    | (intro x; refine Kept.cut (s := s0) (x := x) ?_ ?_)
    | (intro x; refine Kept.cut (s := s0) (x := x.1) ?_ ?_)
    | (intro x; clear_value x)
    | lift_lets -underBinder
    | split
    | refine Kept.of_fst (by assumption) ?_
    | (unfold x; split)

theorem programmed_kept {stopped : Option (Fin 3)} {r : FuseReading} {s0 s : State} (h : Kept s0 s) :
    Kept s0 (programmed s stopped r).1 := by
  unfold programmed
  with_reducible repeat' first
    | exact h
    | refine toColophon_kept ?_
    | refine fuseEvent_kept ?_
    | refine recompute_kept ?_
    | refine progStatus_kept ?_
    | refine setShadow_kept ?_
    | refine Kept.ite ?_ ?_
    | refine Kept.ite_fst ?_ ?_
    | assumption
    | (intro hx; clear_value x)
    | (intro x; refine Kept.cut (s := s0) (x := x) ?_ ?_)
    | (intro x; refine Kept.cut (s := s0) (x := x.1) ?_ ?_)
    | (intro x; clear_value x)
    | lift_lets -underBinder
    | split
    | refine Kept.of_fst (by assumption) ?_
    | (unfold x; split)
    | (refine Kept.upd ?_; first | assumption | refine toColophon_kept ?_ | refine fuseEvent_kept ?_ | refine recompute_kept ?_ | refine progStatus_kept ?_ | refine setShadow_kept ?_ | refine Kept.ite ?_ ?_)

theorem execFuseProgramComplete_ends {stopped : Option (Fin 3)} {reading : FuseReading} {s0 s : State} (h : Kept s0 s) :
    Ends s0 (execFuseProgramComplete stopped reading s) := by
  unfold execFuseProgramComplete
  refine Ends.next ?_
  with_reducible repeat' first
    | exact h
    | refine programmed_kept ?_

theorem writeFusRead_kept {v : BitVec 64} {s0 s : State} (h : Kept s0 s) :
    Kept s0 (writeFusRead s v) := by
  unfold writeFusRead
  with_reducible repeat' first
    | exact h
    | refine State.put_kept ?_
    | refine Kept.ite ?_ ?_
    | assumption
    | (intro hx; clear_value x)
    | (intro x; refine Kept.cut (s := s0) (x := x) ?_ ?_)
    | (intro x; refine Kept.cut (s := s0) (x := x.1) ?_ ?_)
    | (intro x; clear_value x)
    | lift_lets -underBinder
    | split
    | (refine Kept.upd ?_; first | assumption | refine State.put_kept ?_ | refine Kept.ite ?_ ?_)

theorem execFuseRead_ends {value : BitVec 64} {s0 s : State} (h : Kept s0 s) :
    Ends s0 (execFuseRead value s) := by
  unfold execFuseRead
  refine Ends.next ?_
  with_reducible repeat' first
    | exact h
    | refine writeFusRead_kept ?_

theorem execFuseReadComplete_ends {reading : FuseReading} {s0 s : State} (h : Kept s0 s) :
    Ends s0 (execFuseReadComplete reading s) := by
  unfold execFuseReadComplete
  refine Ends.next ?_
  with_reducible repeat' first
    | exact h
    | refine State.setWord_kept ?_
    | refine fuseEvent_kept ?_
    | refine Kept.ite ?_ ?_
    | assumption
    | (intro hx; clear_value x)
    | (intro x; refine Kept.cut (s := s0) (x := x) ?_ ?_)
    | (intro x; refine Kept.cut (s := s0) (x := x.1) ?_ ?_)
    | (intro x; clear_value x)
    | lift_lets -underBinder
    | split
    | refine Kept.of_fst (by assumption) ?_
    | (unfold x; split)
    | (refine Kept.upd ?_; first | assumption | refine State.setWord_kept ?_ | refine fuseEvent_kept ?_ | refine Kept.ite ?_ ?_)

theorem writeLockSet_kept {v : BitVec 64} {s0 s : State} (h : Kept s0 s) :
    Kept s0 (writeLockSet s v) := by
  unfold writeLockSet
  with_reducible repeat' first
    | exact h
    | refine State.put_kept ?_
    | refine State.each_kept ?_ (fun x a hx => ?_)
    | refine Kept.ite ?_ ?_
    | assumption
    | (intro hx; clear_value x)
    | (intro x; refine Kept.cut (s := s0) (x := x) ?_ ?_)
    | (intro x; refine Kept.cut (s := s0) (x := x.1) ?_ ?_)
    | (intro x; clear_value x)
    | lift_lets -underBinder
    | split

theorem execFuseLockSet_ends {value : BitVec 64} {s0 s : State} (h : Kept s0 s) :
    Ends s0 (execFuseLockSet value s) := by
  unfold execFuseLockSet
  refine Ends.next ?_
  with_reducible repeat' first
    | exact h
    | refine writeLockSet_kept ?_

end Sys2Proof.Machine
end

