-- ==== Sys2Proof/Laws/KeptPower.lean ====
section
/-! SUPPORT. What every step keeps, through the functions of Power. -/

set_option linter.all false
set_option maxRecDepth 8000

namespace Sys2Proof.Machine

theorem pumpDomains_kept {s0 s : State} (h : Kept s0 s) :
    Kept s0 (pumpDomains s) := by
  unfold pumpDomains
  with_reducible repeat' first
    | exact h
    | refine State.put_kept ?_
    | refine Kept.ite ?_ ?_
    | assumption
    | split
    | refine Kept.of_fst (by assumption) ?_

theorem vote_kept {n : Nat} {b : Nat} {on' : Bool} {s0 s : State} (h : Kept s0 s) :
    Kept s0 (vote s n b on') := by
  unfold vote
  with_reducible repeat' first
    | exact h
    | refine State.setFlag_kept ?_
    | refine pumpDomains_kept ?_

theorem linkVotes_kept {port : Nat} {s0 s : State} (h : Kept s0 s) :
    Kept s0 (linkVotes s port) := by
  unfold linkVotes
  with_reducible repeat' first
    | exact h
    | refine vote_kept ?_
    | assumption
    | (intro hx; clear_value x)
    | (intro x; refine Kept.cut (s := s0) (x := x) ?_ ?_)
    | (intro x; refine Kept.cut (s := s0) (x := x.1) ?_ ?_)
    | (intro x; clear_value x)
    | lift_lets -underBinder

theorem towersSleep_kept {s0 s : State} (h : Kept s0 s) :
    Kept s0 (towersSleep s) := by
  unfold towersSleep
  with_reducible repeat' first
    | exact h
    | refine State.put_kept ?_
    | refine State.each_kept ?_ (fun x a hx => ?_)
    | refine modChan_kept ?_
    | refine Kept.ite ?_ ?_
    | assumption
    | (intro hx; clear_value x)
    | (intro x; refine Kept.cut (s := s0) (x := x) ?_ ?_)
    | (intro x; refine Kept.cut (s := s0) (x := x.1) ?_ ?_)
    | (intro x; clear_value x)
    | lift_lets -underBinder
    | split
    | (refine Kept.upd ?_; first | assumption | refine State.put_kept ?_ | refine State.each_kept ?_ (fun x a hx => ?_) | refine modChan_kept ?_ | refine Kept.ite ?_ ?_)

theorem towersWake_kept {s0 s : State} (h : Kept s0 s) :
    Kept s0 (towersWake s) := by
  unfold towersWake
  with_reducible repeat' first
    | exact h
    | refine State.put_kept ?_
    | refine State.each_kept ?_ (fun x a hx => ?_)
    | refine modChan_kept ?_
    | refine Kept.ite ?_ ?_
    | assumption
    | (intro hx; clear_value x)
    | (intro x; refine Kept.cut (s := s0) (x := x) ?_ ?_)
    | (intro x; refine Kept.cut (s := s0) (x := x.1) ?_ ?_)
    | (intro x; clear_value x)
    | lift_lets -underBinder
    | split
    | (refine Kept.upd ?_; first | assumption | refine State.put_kept ?_ | refine State.each_kept ?_ (fun x a hx => ?_) | refine modChan_kept ?_ | refine Kept.ite ?_ ?_)

theorem beginTransition_kept {target : Nat} {cause : Nat} {s0 s : State} (h : Kept s0 s) :
    Kept s0 (beginTransition s target cause) := by
  unfold beginTransition
  with_reducible repeat' first
    | exact h
    | refine State.put_kept ?_
    | assumption
    | (intro hx; clear_value x)
    | (intro x; refine Kept.cut (s := s0) (x := x) ?_ ?_)
    | (intro x; refine Kept.cut (s := s0) (x := x.1) ?_ ?_)
    | (intro x; clear_value x)
    | lift_lets -underBinder
    | (refine Kept.upd ?_; first | assumption | refine State.put_kept ?_)

theorem serveWake_kept {source : Nat} {cause : Nat} {s0 s : State} (h : Kept s0 s) :
    Kept s0 (serveWake s source cause) := by
  unfold serveWake
  with_reducible repeat' first
    | exact h
    | refine State.put_kept ?_
    | refine towersWake_kept ?_
    | refine beginTransition_kept ?_
    | refine Kept.ite ?_ ?_
    | assumption
    | (intro hx; clear_value x)
    | (intro x; refine Kept.cut (s := s0) (x := x) ?_ ?_)
    | (intro x; refine Kept.cut (s := s0) (x := x.1) ?_ ?_)
    | (intro x; clear_value x)
    | lift_lets -underBinder
    | split

theorem wake_kept {source : Nat} {s0 s : State} (h : Kept s0 s) :
    Kept s0 (wake s source) := by
  unfold wake
  with_reducible repeat' first
    | exact h
    | refine serveWake_kept ?_
    | refine Kept.ite ?_ ?_
    | split
    | (refine Kept.upd ?_; first | assumption | refine serveWake_kept ?_ | refine Kept.ite ?_ ?_)

theorem linkActivity_kept {s0 s : State} (h : Kept s0 s) :
    Kept s0 (linkActivity s) := by
  unfold linkActivity
  with_reducible repeat' first
    | exact h
    | refine serveWake_kept ?_
    | refine wake_kept ?_
    | refine Kept.ite ?_ ?_
    | split
    | (refine Kept.upd ?_; first | assumption | refine serveWake_kept ?_ | refine wake_kept ?_ | refine Kept.ite ?_ ?_ | (refine Kept.upd ?_; first | assumption | refine serveWake_kept ?_ | refine wake_kept ?_))

theorem mainDiesLost_kept {flushed : Bool} {s0 s : State} (h : Kept s0 s) : Kept s0 (mainDiesLost s flushed) :=
  ⟨h.variant, h.pending, h.free, h.out, fun _ => rfl, fun _ => rfl⟩

theorem standbyPins_kept {s0 s : State} (h : Kept s0 s) :
    Kept s0 (standbyPins s) := by
  unfold standbyPins
  with_reducible repeat' first
    | exact h
    | (refine Kept.upd ?_; first | assumption)

theorem toStandby_kept {cause : Nat} {s0 s : State} (h : Kept s0 s) :
    Kept s0 (toStandby s cause) := by
  unfold toStandby
  with_reducible repeat' first
    | exact h
    | refine State.put_kept ?_
    | refine State.timed_kept ?_
    | refine toColophon_kept ?_
    | refine mainDiesLost_kept ?_
    | refine standbyPins_kept ?_
    | refine Kept.ite ?_ ?_
    | assumption
    | (intro hx; clear_value x)
    | (intro x; refine Kept.cut (s := s0) (x := x) ?_ ?_)
    | (intro x; refine Kept.cut (s := s0) (x := x.1) ?_ ?_)
    | (intro x; clear_value x)
    | lift_lets -underBinder
    | split

end Sys2Proof.Machine
end

