-- ==== Sys2Proof/Laws/KeptRuling.lean ====
section
/-! SUPPORT. What every step keeps, through the functions of Ruling. -/

set_option linter.all false
set_option maxRecDepth 8000

namespace Sys2Proof.Machine

theorem setQual_kept {c : Nat} {q : SourceQual} {s0 s : State} (h : Kept s0 s) :
    Kept s0 (setQual s c q) := by
  unfold setQual
  with_reducible repeat' first
    | exact h
    | (refine Kept.upd ?_; first | assumption)

theorem setPin_kept {p : PinRul} {s0 s : State} (h : Kept s0 s) :
    Kept s0 (setPin s p) := by
  unfold setPin
  with_reducible repeat' first
    | exact h
    | (refine Kept.upd ?_; first | assumption)

theorem setPeer_kept {p : Nat} {r : PeerRul} {s0 s : State} (h : Kept s0 s) :
    Kept s0 (setPeer s p r) := by
  unfold setPeer
  with_reducible repeat' first
    | exact h
    | (refine Kept.upd ?_; first | assumption)

theorem showPeriod_kept {s0 s : State} (h : Kept s0 s) :
    Kept s0 (showPeriod s) := by
  unfold showPeriod
  with_reducible repeat' first
    | exact h
    | refine State.put_kept ?_
    | refine Kept.ite ?_ ?_
    | split

theorem judge_kept {o : Offer} {s0 s : State} (h : Kept s0 s) :
    Kept s0 (judge s o) := by
  unfold judge
  with_reducible repeat' first
    | exact h
    | refine State.put_kept ?_
    | refine State.putB_kept ?_
    | refine showPeriod_kept ?_
    | refine Kept.ite ?_ ?_
    | assumption
    | (intro hx; clear_value x)
    | (intro x; refine Kept.cut (s := s0) (x := x) ?_ ?_)
    | (intro x; refine Kept.cut (s := s0) (x := x.1) ?_ ?_)
    | (intro x; clear_value x)
    | lift_lets -underBinder
    | split
    | (refine Kept.upd ?_; first | assumption | refine State.put_kept ?_ | refine State.putB_kept ?_ | refine showPeriod_kept ?_ | refine Kept.ite ?_ ?_)

theorem takeUp_kept {c : Nat} {s0 s : State} (h : Kept s0 s) :
    Kept s0 (takeUp s c) := by
  unfold takeUp
  with_reducible repeat' first
    | exact h
    | refine State.put_kept ?_
    | refine setQual_kept ?_
    | refine judge_kept ?_
    | refine Kept.ite ?_ ?_
    | assumption
    | (intro hx; clear_value x)
    | (intro x; refine Kept.cut (s := s0) (x := x) ?_ ?_)
    | (intro x; refine Kept.cut (s := s0) (x := x.1) ?_ ?_)
    | (intro x; clear_value x)
    | lift_lets -underBinder
    | split
    | (refine Kept.upd ?_; first | assumption | refine State.put_kept ?_ | refine setQual_kept ?_ | refine judge_kept ?_ | refine Kept.ite ?_ ?_)

theorem consider_kept {s0 s : State} (h : Kept s0 s) :
    Kept s0 (consider s) := by
  unfold consider
  with_reducible repeat' first
    | exact h
    | refine takeUp_kept ?_
    | refine Kept.ite ?_ ?_
    | assumption
    | (intro hx; clear_value x)
    | (intro x; refine Kept.cut (s := s0) (x := x) ?_ ?_)
    | (intro x; refine Kept.cut (s := s0) (x := x.1) ?_ ?_)
    | (intro x; clear_value x)
    | lift_lets -underBinder
    | split
    | refine Kept.of_fst (by assumption) ?_
    | (unfold x; split)

theorem qualify_kept {c : Nat} {s0 s : State} (h : Kept s0 s) :
    Kept s0 (qualify s c) := by
  unfold qualify
  with_reducible repeat' first
    | exact h
    | refine setQual_kept ?_
    | refine consider_kept ?_
    | refine Kept.ite ?_ ?_
    | assumption
    | (intro hx; clear_value x)
    | (intro x; refine Kept.cut (s := s0) (x := x) ?_ ?_)
    | (intro x; refine Kept.cut (s := s0) (x := x.1) ?_ ?_)
    | (intro x; clear_value x)
    | lift_lets -underBinder
    | split
    | (refine Kept.upd ?_; first | assumption | refine setQual_kept ?_ | refine consider_kept ?_ | refine Kept.ite ?_ ?_)

theorem forget_kept {c : Nat} {s0 s : State} (h : Kept s0 s) :
    Kept s0 (forget s c) := by
  unfold forget
  with_reducible repeat' first
    | exact h
    | refine Kept.ite ?_ ?_
    | split
    | (refine Kept.upd ?_; first | assumption | refine Kept.ite ?_ ?_ | (refine Kept.upd ?_; first | assumption))

theorem loseSource_kept {c : Nat} {s0 s : State} (h : Kept s0 s) :
    Kept s0 (loseSource s c) := by
  unfold loseSource
  with_reducible repeat' first
    | exact h
    | refine State.put_kept ?_
    | refine event_kept ?_
    | refine setQual_kept ?_
    | refine takeUp_kept ?_
    | refine forget_kept ?_
    | refine Kept.ite ?_ ?_
    | assumption
    | (intro hx; clear_value x)
    | (intro x; refine Kept.cut (s := s0) (x := x) ?_ ?_)
    | (intro x; refine Kept.cut (s := s0) (x := x.1) ?_ ?_)
    | (intro x; clear_value x)
    | lift_lets -underBinder
    | split
    | refine Kept.of_fst (by assumption) ?_
    | (unfold x; split)
    | (refine Kept.upd ?_; first | assumption | refine State.put_kept ?_ | refine event_kept ?_ | refine setQual_kept ?_ | refine takeUp_kept ?_ | refine forget_kept ?_ | refine Kept.ite ?_ ?_ | (refine Kept.upd ?_; first | assumption | refine State.put_kept ?_ | refine event_kept ?_ | refine setQual_kept ?_ | refine takeUp_kept ?_ | refine forget_kept ?_))

theorem violation_kept {s0 s : State} (h : Kept s0 s) :
    Kept s0 (violation s) := by
  unfold violation
  with_reducible repeat' first
    | exact h
    | refine State.inc_kept ?_
    | refine setPin_kept ?_
    | refine loseSource_kept ?_
    | refine Kept.ite ?_ ?_
    | assumption
    | (intro hx; clear_value x)
    | (intro x; refine Kept.cut (s := s0) (x := x) ?_ ?_)
    | (intro x; refine Kept.cut (s := s0) (x := x.1) ?_ ?_)
    | (intro x; clear_value x)
    | lift_lets -underBinder
    | split
    | (refine Kept.upd ?_; first | assumption | refine State.inc_kept ?_ | refine setPin_kept ?_ | refine loseSource_kept ?_ | refine Kept.ite ?_ ?_)

theorem checkPin_kept {s0 s : State} (h : Kept s0 s) :
    Kept s0 (checkPin s) := by
  unfold checkPin
  with_reducible repeat' first
    | exact h
    | refine qualify_kept ?_
    | refine loseSource_kept ?_
    | refine Kept.ite ?_ ?_
    | assumption
    | (intro hx; clear_value x)
    | (intro x; refine Kept.cut (s := s0) (x := x) ?_ ?_)
    | (intro x; refine Kept.cut (s := s0) (x := x.1) ?_ ?_)
    | (intro x; clear_value x)
    | lift_lets -underBinder
    | split

theorem execRulePulse_ends {offset : Int} {width : Nat} {period : Nat} {alt : Bool} {s0 s : State} (h : Kept s0 s) :
    Ends s0 (execRulePulse offset width period alt s) := by
  unfold execRulePulse
  refine Ends.next ?_
  with_reducible repeat' first
    | exact h
    | refine setPin_kept ?_
    | refine showPeriod_kept ?_
    | refine violation_kept ?_
    | refine checkPin_kept ?_
    | refine Kept.ite ?_ ?_
    | assumption
    | (intro hx; clear_value x)
    | (intro x; refine Kept.cut (s := s0) (x := x) ?_ ?_)
    | (intro x; refine Kept.cut (s := s0) (x := x.1) ?_ ?_)
    | (intro x; clear_value x)
    | lift_lets -underBinder
    | split
    | (refine Kept.upd ?_; first | assumption | refine setPin_kept ?_ | refine showPeriod_kept ?_ | refine violation_kept ?_ | refine checkPin_kept ?_ | refine Kept.ite ?_ ?_)

theorem headerFails_kept {s0 s : State} (h : Kept s0 s) :
    Kept s0 (headerFails s) := by
  unfold headerFails
  with_reducible repeat' first
    | exact h
    | refine State.inc_kept ?_
    | refine event_kept ?_

theorem keepHeader_kept {h0 : BitVec 128} {s0 s : State} (h : Kept s0 s) :
    Kept s0 (keepHeader s h0) := by
  unfold keepHeader
  with_reducible repeat' first
    | exact h
    | refine State.setWord_kept ?_

theorem execFolioHeader_ends {s0 s : State} (h : Kept s0 s) :
    Ends s0 (execFolioHeader s) := by
  unfold execFolioHeader
  refine Ends.next ?_
  with_reducible repeat' first
    | exact h
    | refine setPin_kept ?_
    | refine judge_kept ?_
    | refine checkPin_kept ?_
    | refine headerFails_kept ?_
    | refine keepHeader_kept ?_
    | refine Kept.ite ?_ ?_
    | assumption
    | (intro hx; clear_value x)
    | (intro x; refine Kept.cut (s := s0) (x := x) ?_ ?_)
    | (intro x; refine Kept.cut (s := s0) (x := x.1) ?_ ?_)
    | (intro x; clear_value x)
    | lift_lets -underBinder
    | split
    | refine Kept.of_fst (by assumption) ?_
    | (unfold x; split)
    | (refine Kept.upd ?_; first | assumption | refine setPin_kept ?_ | refine judge_kept ?_ | refine checkPin_kept ?_ | refine headerFails_kept ?_ | refine keepHeader_kept ?_ | refine Kept.ite ?_ ?_)

theorem choosePeer_kept {s0 s : State} (h : Kept s0 s) :
    Kept s0 (choosePeer s) := by
  unfold choosePeer
  with_reducible repeat' first
    | exact h
    | refine takeUp_kept ?_
    | refine qualify_kept ?_
    | refine loseSource_kept ?_
    | refine Kept.ite ?_ ?_
    | assumption
    | (intro hx; clear_value x)
    | (intro x; refine Kept.cut (s := s0) (x := x) ?_ ?_)
    | (intro x; refine Kept.cut (s := s0) (x := x.1) ?_ ?_)
    | (intro x; clear_value x)
    | lift_lets -underBinder
    | split
    | refine Kept.of_fst (by assumption) ?_
    | (unfold x; split)
    | (refine Kept.upd ?_; first | assumption | refine takeUp_kept ?_ | refine qualify_kept ?_ | refine loseSource_kept ?_ | refine Kept.ite ?_ ?_ | (refine Kept.upd ?_; first | assumption | refine takeUp_kept ?_ | refine qualify_kept ?_ | refine loseSource_kept ?_))

theorem execAnnounce_ends {port : Fin 64} {payload : BitVec 256} {periods : List Nat} {s0 s : State} (h : Kept s0 s) :
    Ends s0 (execAnnounce port payload periods s) := by
  unfold execAnnounce
  refine Ends.next ?_
  with_reducible repeat' first
    | exact h
    | refine setPeer_kept ?_
    | refine judge_kept ?_
    | refine headerFails_kept ?_
    | refine keepHeader_kept ?_
    | refine choosePeer_kept ?_
    | refine Kept.ite ?_ ?_
    | assumption
    | (intro hx; clear_value x)
    | (intro x; refine Kept.cut (s := s0) (x := x) ?_ ?_)
    | (intro x; refine Kept.cut (s := s0) (x := x.1) ?_ ?_)
    | (intro x; clear_value x)
    | lift_lets -underBinder
    | split
    | refine Kept.of_fst (by assumption) ?_
    | (unfold x; split)
    | (refine Kept.upd ?_; first | assumption | refine setPeer_kept ?_ | refine judge_kept ?_ | refine headerFails_kept ?_ | refine keepHeader_kept ?_ | refine choosePeer_kept ?_ | refine Kept.ite ?_ ?_)

theorem execSyncRequest_ends {port : Fin 64} {head : BitVec 128} {body : BitVec 128} {tick2 : Fin 1024} {tick3 : Fin 1024} {s0 s : State} (h : Kept s0 s) :
    Ends s0 (execSyncRequest port head body tick2 tick3 s) := by
  unfold execSyncRequest
  refine Ends.next ?_
  with_reducible repeat' first
    | exact h
    | refine State.send_kept ?_
    | refine State.passed_kept ?_
    | refine Kept.ite ?_ ?_
    | assumption
    | (intro hx; clear_value x)
    | (intro x; refine Kept.cut (s := s0) (x := x) ?_ ?_)
    | (intro x; refine Kept.cut (s := s0) (x := x.1) ?_ ?_)
    | (intro x; clear_value x)
    | lift_lets -underBinder
    | split

theorem execSyncResponse_ends {port : Fin 64} {head : BitVec 128} {t2 : BitVec 64} {t3 : BitVec 64} {tick4 : Fin 1024} {s0 s : State} (h : Kept s0 s) :
    Ends s0 (execSyncResponse port head t2 t3 tick4 s) := by
  unfold execSyncResponse
  refine Ends.next ?_
  with_reducible repeat' first
    | exact h
    | refine State.passed_kept ?_
    | refine setPeer_kept ?_
    | refine choosePeer_kept ?_
    | refine Kept.ite ?_ ?_
    | assumption
    | (intro hx; clear_value x)
    | (intro x; refine Kept.cut (s := s0) (x := x) ?_ ?_)
    | (intro x; refine Kept.cut (s := s0) (x := x.1) ?_ ?_)
    | (intro x; clear_value x)
    | lift_lets -underBinder
    | split
    | (refine Kept.upd ?_; first | assumption | refine State.passed_kept ?_ | refine setPeer_kept ?_ | refine choosePeer_kept ?_ | refine Kept.ite ?_ ?_)

theorem execPtmDialogComplete_ends {ok : Bool} {master : BitVec 64} {tick : Fin 1024} {s0 s : State} (h : Kept s0 s) :
    Ends s0 (execPtmDialogComplete ok master tick s) := by
  unfold execPtmDialogComplete
  refine Ends.next ?_
  with_reducible repeat' first
    | exact h
    | refine State.passed_kept ?_
    | refine judge_kept ?_
    | refine qualify_kept ?_
    | refine loseSource_kept ?_
    | refine Kept.ite ?_ ?_
    | assumption
    | (intro hx; clear_value x)
    | (intro x; refine Kept.cut (s := s0) (x := x) ?_ ?_)
    | (intro x; refine Kept.cut (s := s0) (x := x.1) ?_ ?_)
    | (intro x; clear_value x)
    | lift_lets -underBinder
    | split
    | (refine Kept.upd ?_; first | assumption | refine State.passed_kept ?_ | refine judge_kept ?_ | refine qualify_kept ?_ | refine loseSource_kept ?_ | refine Kept.ite ?_ ?_)

theorem execSourceRevert_ends {source : Fin 4} {s0 s : State} (h : Kept s0 s) :
    Ends s0 (execSourceRevert source s) := by
  unfold execSourceRevert
  refine Ends.next ?_
  with_reducible repeat' first
    | exact h
    | refine takeUp_kept ?_
    | refine Kept.ite ?_ ?_
    | assumption
    | (intro hx; clear_value x)
    | (intro x; refine Kept.cut (s := s0) (x := x) ?_ ?_)
    | (intro x; refine Kept.cut (s := s0) (x := x.1) ?_ ?_)
    | (intro x; clear_value x)
    | lift_lets -underBinder
    | split

theorem writeRulSource_kept {w : BitVec 64} {s0 s : State} (h : Kept s0 s) :
    Kept s0 (writeRulSource s w) := by
  unfold writeRulSource
  with_reducible repeat' first
    | exact h
    | refine State.put_kept ?_
    | refine notice_kept ?_
    | refine Kept.ite ?_ ?_
    | assumption
    | (intro hx; clear_value x)
    | (intro x; refine Kept.cut (s := s0) (x := x) ?_ ?_)
    | (intro x; refine Kept.cut (s := s0) (x := x.1) ?_ ?_)
    | (intro x; clear_value x)
    | lift_lets -underBinder
    | split
    | (refine Kept.upd ?_; first | assumption | refine State.put_kept ?_ | refine notice_kept ?_ | refine Kept.ite ?_ ?_)

theorem execRulSourceWrite_ends {value : BitVec 64} {s0 s : State} (h : Kept s0 s) :
    Ends s0 (execRulSourceWrite value s) := by
  unfold execRulSourceWrite
  refine Ends.next ?_
  with_reducible repeat' first
    | exact h
    | refine writeRulSource_kept ?_

theorem execSourceOrderApply_ends {s0 s : State} (h : Kept s0 s) :
    Ends s0 (execSourceOrderApply s) := by
  unfold execSourceOrderApply
  refine Ends.next ?_
  with_reducible repeat' first
    | exact h
    | refine consider_kept ?_
    | refine Kept.ite ?_ ?_
    | split
    | refine Kept.of_fst (by assumption) ?_
    | (refine Kept.upd ?_; first | assumption | refine consider_kept ?_ | refine Kept.ite ?_ ?_)

theorem clearRulCounts_kept {s0 s : State} (h : Kept s0 s) :
    Kept s0 (clearRulCounts s) := by
  unfold clearRulCounts
  with_reducible repeat' first
    | exact h
    | refine State.put_kept ?_

theorem execRulClearCounts_ends {s0 s : State} (h : Kept s0 s) :
    Ends s0 (execRulClearCounts s) := by
  unfold execRulClearCounts
  refine Ends.next ?_
  with_reducible repeat' first
    | exact h
    | refine clearRulCounts_kept ?_

theorem noteArm_kept {n : Nat} {s0 s : State} (h : Kept s0 s) :
    Kept s0 (noteArm s n) := by
  unfold noteArm
  with_reducible repeat' first
    | exact h
    | (refine Kept.upd ?_; first | assumption)

theorem writeEventCtrl_kept {n : Nat} {w : BitVec 64} {s0 s : State} (h : Kept s0 s) :
    Kept s0 (writeEventCtrl s n w) := by
  unfold writeEventCtrl
  with_reducible repeat' first
    | exact h
    | refine State.put_kept ?_
    | refine State.putB_kept ?_
    | refine notice_kept ?_
    | refine noteArm_kept ?_
    | refine Kept.ite ?_ ?_
    | assumption
    | (intro hx; clear_value x)
    | (intro x; refine Kept.cut (s := s0) (x := x) ?_ ?_)
    | (intro x; refine Kept.cut (s := s0) (x := x.1) ?_ ?_)
    | (intro x; clear_value x)
    | lift_lets -underBinder
    | split

theorem writeEventTime_kept {n : Nat} {w : BitVec 64} {s0 s : State} (h : Kept s0 s) :
    Kept s0 (writeEventTime s n w) := by
  unfold writeEventTime
  with_reducible repeat' first
    | exact h
    | refine State.put_kept ?_
    | refine notice_kept ?_
    | refine noteArm_kept ?_
    | refine Kept.ite ?_ ?_
    | assumption
    | (intro hx; clear_value x)
    | (intro x; refine Kept.cut (s := s0) (x := x) ?_ ?_)
    | (intro x; refine Kept.cut (s := s0) (x := x.1) ?_ ?_)
    | (intro x; clear_value x)
    | lift_lets -underBinder
    | split

theorem writeEventAddr_kept {n : Nat} {w : BitVec 64} {s0 s : State} (h : Kept s0 s) :
    Kept s0 (writeEventAddr s n w) := by
  unfold writeEventAddr
  with_reducible repeat' first
    | exact h
    | refine State.put_kept ?_
    | refine notice_kept ?_
    | refine noteArm_kept ?_
    | refine Kept.ite ?_ ?_
    | assumption
    | (intro hx; clear_value x)
    | (intro x; refine Kept.cut (s := s0) (x := x) ?_ ?_)
    | (intro x; refine Kept.cut (s := s0) (x := x.1) ?_ ?_)
    | (intro x; clear_value x)
    | lift_lets -underBinder
    | split

theorem execRulEventCtrlWrite_ends {slot : Fin 64} {value : BitVec 64} {s0 s : State} (h : Kept s0 s) :
    Ends s0 (execRulEventCtrlWrite slot value s) := by
  unfold execRulEventCtrlWrite
  refine Ends.next ?_
  with_reducible repeat' first
    | exact h
    | refine writeEventCtrl_kept ?_

theorem execRulEventTimeWrite_ends {slot : Fin 64} {value : BitVec 64} {s0 s : State} (h : Kept s0 s) :
    Ends s0 (execRulEventTimeWrite slot value s) := by
  unfold execRulEventTimeWrite
  refine Ends.next ?_
  with_reducible repeat' first
    | exact h
    | refine writeEventTime_kept ?_

theorem execRulEventAddrWrite_ends {slot : Fin 64} {value : BitVec 64} {s0 s : State} (h : Kept s0 s) :
    Ends s0 (execRulEventAddrWrite slot value s) := by
  unfold execRulEventAddrWrite
  refine Ends.next ?_
  with_reducible repeat' first
    | exact h
    | refine writeEventAddr_kept ?_

theorem fireSlot_kept {n : Nat} {s0 s : State} (h : Kept s0 s) :
    Kept s0 (fireSlot s n) := by
  unfold fireSlot
  with_reducible repeat' first
    | exact h
    | refine State.put_kept ?_
    | refine State.setFlag_kept ?_
    | refine State.each_kept ?_ (fun x a hx => ?_)
    | refine postEvent_kept ?_
    | refine event_kept ?_
    | refine wake_kept ?_
    | refine Kept.ite ?_ ?_
    | assumption
    | (intro hx; clear_value x)
    | (intro x; refine Kept.cut (s := s0) (x := x) ?_ ?_)
    | (intro x; refine Kept.cut (s := s0) (x := x.1) ?_ ?_)
    | (intro x; clear_value x)
    | lift_lets -underBinder
    | split
    | (refine Kept.upd ?_; first | assumption | refine State.put_kept ?_ | refine State.setFlag_kept ?_ | refine State.each_kept ?_ (fun x a hx => ?_) | refine postEvent_kept ?_ | refine event_kept ?_ | refine wake_kept ?_ | refine Kept.ite ?_ ?_)

theorem missingLine_kept {s0 s : State} (h : Kept s0 s) :
    Kept s0 (missingLine s) := by
  unfold missingLine
  with_reducible repeat' first
    | exact h
    | refine State.inc_kept ?_
    | refine setPin_kept ?_
    | refine loseSource_kept ?_
    | refine violation_kept ?_
    | refine Kept.ite ?_ ?_
    | assumption
    | (intro hx; clear_value x)
    | (intro x; refine Kept.cut (s := s0) (x := x) ?_ ?_)
    | (intro x; refine Kept.cut (s := s0) (x := x.1) ?_ ?_)
    | (intro x; clear_value x)
    | lift_lets -underBinder
    | split
    | (refine Kept.upd ?_; first | assumption | refine State.inc_kept ?_ | refine setPin_kept ?_ | refine loseSource_kept ?_ | refine violation_kept ?_ | refine Kept.ite ?_ ?_)

theorem slewStep_kept {s0 s : State} (h : Kept s0 s) :
    Kept s0 (slewStep s) := by
  unfold slewStep
  with_reducible repeat' first
    | exact h
    | refine State.put_kept ?_
    | refine State.putB_kept ?_
    | refine Kept.ite ?_ ?_
    | assumption
    | (intro hx; clear_value x)
    | (intro x; refine Kept.cut (s := s0) (x := x) ?_ ?_)
    | (intro x; refine Kept.cut (s := s0) (x := x.1) ?_ ?_)
    | (intro x; clear_value x)
    | lift_lets -underBinder
    | split

theorem announceAll_kept {s0 s : State} (h : Kept s0 s) :
    Kept s0 (announceAll s) := by
  unfold announceAll
  with_reducible repeat' first
    | exact h
    | refine State.drew_kept ?_
    | refine State.send_kept ?_
    | refine State.each_kept ?_ (fun x a hx => ?_)
    | refine Kept.ite ?_ ?_
    | assumption
    | (intro hx; clear_value x)
    | (intro x; refine Kept.cut (s := s0) (x := x) ?_ ?_)
    | (intro x; refine Kept.cut (s := s0) (x := x.1) ?_ ?_)
    | (intro x; clear_value x)
    | lift_lets -underBinder
    | split

theorem holdHeader_kept {s0 s : State} (h : Kept s0 s) :
    Kept s0 (holdHeader s) := by
  unfold holdHeader
  with_reducible repeat' first
    | exact h
    | (refine Kept.upd ?_; first | assumption)

theorem ruleFolio_kept {s0 s : State} (h : Kept s0 s) :
    Kept s0 (ruleFolio s) := by
  unfold ruleFolio
  with_reducible repeat' first
    | exact h
    | refine State.put_kept ?_
    | refine event_kept ?_
    | refine choosePeer_kept ?_
    | refine announceAll_kept ?_
    | refine holdHeader_kept ?_
    | refine Kept.ite ?_ ?_
    | assumption
    | (intro hx; clear_value x)
    | (intro x; refine Kept.cut (s := s0) (x := x) ?_ ?_)
    | (intro x; refine Kept.cut (s := s0) (x := x.1) ?_ ?_)
    | (intro x; clear_value x)
    | lift_lets -underBinder
    | split
    | refine Kept.of_fst (by assumption) ?_
    | (refine Kept.upd ?_; first | assumption | refine State.put_kept ?_ | refine event_kept ?_ | refine choosePeer_kept ?_ | refine announceAll_kept ?_ | refine holdHeader_kept ?_ | refine Kept.ite ?_ ?_ | (refine Kept.upd ?_; first | assumption | refine State.put_kept ?_ | refine event_kept ?_ | refine choosePeer_kept ?_ | refine announceAll_kept ?_ | refine holdHeader_kept ?_))

theorem startPtm_kept {s0 s : State} (h : Kept s0 s) :
    Kept s0 (startPtm s) := by
  unfold startPtm
  with_reducible repeat' first
    | exact h
    | refine State.send_kept ?_
    | refine Kept.ite ?_ ?_
    | assumption
    | (intro hx; clear_value x)
    | (intro x; refine Kept.cut (s := s0) (x := x) ?_ ?_)
    | (intro x; refine Kept.cut (s := s0) (x := x.1) ?_ ?_)
    | (intro x; clear_value x)
    | lift_lets -underBinder
    | split

theorem pulseOut_kept {s0 s : State} (h : Kept s0 s) :
    Kept s0 (pulseOut s) := by
  unfold pulseOut
  with_reducible repeat' first
    | exact h
    | refine State.send_kept ?_
    | refine Kept.ite ?_ ?_
    | assumption
    | (intro hx; clear_value x)
    | (intro x; refine Kept.cut (s := s0) (x := x) ?_ ?_)
    | (intro x; refine Kept.cut (s := s0) (x := x.1) ?_ ?_)
    | (intro x; clear_value x)
    | lift_lets -underBinder
    | split

theorem ruleSends_kept {s0 s : State} (h : Kept s0 s) :
    Kept s0 (ruleSends s) := by
  unfold ruleSends
  with_reducible repeat' first
    | exact h
    | refine State.send_kept ?_
    | refine State.each_kept ?_ (fun x a hx => ?_)
    | refine setPeer_kept ?_
    | refine startPtm_kept ?_
    | refine pulseOut_kept ?_
    | refine Kept.ite ?_ ?_
    | assumption
    | (intro hx; clear_value x)
    | (intro x; refine Kept.cut (s := s0) (x := x) ?_ ?_)
    | (intro x; refine Kept.cut (s := s0) (x := x.1) ?_ ?_)
    | (intro x; clear_value x)
    | lift_lets -underBinder
    | split
    | (refine Kept.upd ?_; first | assumption | refine State.send_kept ?_ | refine State.each_kept ?_ (fun x a hx => ?_) | refine setPeer_kept ?_ | refine startPtm_kept ?_ | refine pulseOut_kept ?_ | refine Kept.ite ?_ ?_)

theorem trimOsc_kept {trim : BitVec 8} {s0 s : State} (h : Kept s0 s) :
    Kept s0 (trimOsc s trim) := by
  unfold trimOsc
  with_reducible repeat' first
    | exact h
    | refine State.put_kept ?_
    | refine Kept.ite ?_ ?_
    | assumption
    | (intro hx; clear_value x)
    | (intro x; refine Kept.cut (s := s0) (x := x) ?_ ?_)
    | (intro x; refine Kept.cut (s := s0) (x := x.1) ?_ ?_)
    | (intro x; clear_value x)
    | lift_lets -underBinder
    | split

theorem ruleEdge_kept {localPs : Nat} {trim : BitVec 8} {s0 s : State} (h : Kept s0 s) :
    Kept s0 (ruleEdge localPs trim s) := by
  unfold ruleEdge
  with_reducible repeat' first
    | exact h
    | refine State.put_kept ?_
    | refine missingLine_kept ?_
    | refine slewStep_kept ?_
    | refine ruleFolio_kept ?_
    | refine ruleSends_kept ?_
    | refine trimOsc_kept ?_
    | refine Kept.ite ?_ ?_
    | assumption
    | (intro hx; clear_value x)
    | (intro x; refine Kept.cut (s := s0) (x := x) ?_ ?_)
    | (intro x; refine Kept.cut (s := s0) (x := x.1) ?_ ?_)
    | (intro x; clear_value x)
    | lift_lets -underBinder
    | split
    | (refine Kept.upd ?_; first | assumption | refine State.put_kept ?_ | refine missingLine_kept ?_ | refine slewStep_kept ?_ | refine ruleFolio_kept ?_ | refine ruleSends_kept ?_ | refine trimOsc_kept ?_ | refine Kept.ite ?_ ?_)

theorem ruleJump_kept {elapsed : Nat} {s0 s : State} (h : Kept s0 s) :
    Kept s0 (ruleJump s elapsed) := by
  unfold ruleJump
  with_reducible repeat' first
    | exact h
    | refine State.put_kept ?_
    | refine event_kept ?_
    | refine showPeriod_kept ?_
    | refine holdHeader_kept ?_
    | refine Kept.ite ?_ ?_
    | assumption
    | (intro hx; clear_value x)
    | (intro x; refine Kept.cut (s := s0) (x := x) ?_ ?_)
    | (intro x; refine Kept.cut (s := s0) (x := x.1) ?_ ?_)
    | (intro x; clear_value x)
    | lift_lets -underBinder
    | split
    | (refine Kept.upd ?_; first | assumption | refine State.put_kept ?_ | refine event_kept ?_ | refine showPeriod_kept ?_ | refine holdHeader_kept ?_ | refine Kept.ite ?_ ?_)

end Sys2Proof.Machine
end

