-- ==== Sys2Proof/Laws/KeptCoherence.lean ====
section
/-! SUPPORT. What every step keeps, through the functions of Coherence. -/

set_option linter.all false
set_option maxRecDepth 8000

namespace Sys2Proof.Machine

theorem hostedRow_kept {port : Nat} {pbr : Nat} {slot : Nat} {s0 s : State} (h : Kept s0 s) :
    Kept s0 (hostedRow s port pbr slot).1 := by
  unfold hostedRow
  with_reducible repeat' first
    | exact h
    | refine State.inc_kept ?_
    | refine takeSlot_kept ?_
    | refine Kept.ite ?_ ?_
    | refine Kept.ite_fst ?_ ?_
    | assumption
    | (intro hx; clear_value x)
    | (intro x; refine Kept.cut (s := s0) (x := x) ?_ ?_)
    | (intro x; refine Kept.cut (s := s0) (x := x.1) ?_ ?_)
    | (intro x; clear_value x)
    | lift_lets -underBinder
    | split
    | refine Kept.of_fst (by assumption) ?_
    | (unfold x; split)
    | (refine Kept.upd ?_; first | assumption | refine State.inc_kept ?_ | refine takeSlot_kept ?_ | refine Kept.ite ?_ ?_)

theorem readLentIn_kept {r : LinkReq} {l : LentLine} {s0 s : State} (h : Kept s0 s) :
    Kept s0 (readLentIn s r l) := by
  unfold readLentIn
  with_reducible repeat' first
    | exact h
    | refine arrive_kept ?_
    | refine leave_kept ?_
    | refine enterPool_kept ?_
    | refine portViolation_kept ?_
    | refine answerRefused_kept ?_
    | refine answerLentIn_kept ?_
    | assumption
    | (intro hx; clear_value x)
    | (intro x; refine Kept.cut (s := s0) (x := x) ?_ ?_)
    | (intro x; refine Kept.cut (s := s0) (x := x.1) ?_ ?_)
    | (intro x; clear_value x)
    | lift_lets -underBinder
    | split
    | refine Kept.of_fst (by assumption) ?_
    | (unfold x; split)

theorem mirrorLentIn_kept {slot : Nat} {dpa : Nat} {m : MediaLine} {s0 s : State} (h : Kept s0 s) :
    Kept s0 (mirrorLentIn s slot dpa m) := by
  unfold mirrorLentIn
  with_reducible repeat' first
    | exact h
    | refine mirrorHere_kept ?_
    | refine Kept.ite ?_ ?_
    | assumption
    | (intro hx; clear_value x)
    | (intro x; refine Kept.cut (s := s0) (x := x) ?_ ?_)
    | (intro x; refine Kept.cut (s := s0) (x := x.1) ?_ ?_)
    | (intro x; clear_value x)
    | lift_lets -underBinder
    | split
    | refine Kept.of_fst (by assumption) ?_
    | (unfold x; split)
    | (refine Kept.upd ?_; first | assumption | refine mirrorHere_kept ?_ | refine Kept.ite ?_ ?_)

theorem writeLentIn_kept {r : LinkReq} {l : LentLine} {data : BitVec 512} {s0 s : State} (h : Kept s0 s) :
    Kept s0 (writeLentIn s r l data) := by
  unfold writeLentIn
  with_reducible repeat' first
    | exact h
    | refine arrive_kept ?_
    | refine respond_kept ?_
    | refine enterWrite_kept ?_
    | refine portViolation_kept ?_
    | refine answerRefused_kept ?_
    | refine hostedRow_kept ?_
    | refine mirrorLentIn_kept ?_
    | assumption
    | (intro hx; clear_value x)
    | (intro x; refine Kept.cut (s := s0) (x := x) ?_ ?_)
    | (intro x; refine Kept.cut (s := s0) (x := x.1) ?_ ?_)
    | (intro x; clear_value x)
    | lift_lets -underBinder
    | split
    | refine Kept.of_fst (by assumption) ?_
    | (unfold x; split)

theorem placeQuire_kept {hard : Option Nat} {q : Nat} {s0 s : State} (h : Kept s0 s) :
    Kept s0 (placeQuire s hard q) := by
  unfold placeQuire
  with_reducible repeat' first
    | exact h
    | refine State.each_kept ?_ (fun x a hx => ?_)
    | refine setLeaf_kept ?_
    | refine takeSlot_kept ?_
    | refine installBlock_kept ?_
    | refine Kept.ite ?_ ?_
    | assumption
    | (intro hx; clear_value x)
    | (intro x; refine Kept.cut (s := s0) (x := x) ?_ ?_)
    | (intro x; refine Kept.cut (s := s0) (x := x.1) ?_ ?_)
    | (intro x; clear_value x)
    | lift_lets -underBinder
    | split
    | refine Kept.of_fst (by assumption) ?_
    | (unfold x; split)

theorem blankQuire_kept {q : Nat} {s0 s : State} (h : Kept s0 s) :
    Kept s0 (blankQuire s q) := by
  unfold blankQuire
  with_reducible repeat' first
    | exact h
    | refine State.each_kept ?_ (fun x a hx => ?_)
    | refine chargeNow_kept ?_
    | refine setSeal_kept ?_
    | refine mapLeafLines_kept ?_
    | refine mergeDrop_kept ?_
    | assumption
    | (intro hx; clear_value x)
    | (intro x; refine Kept.cut (s := s0) (x := x) ?_ ?_)
    | (intro x; refine Kept.cut (s := s0) (x := x.1) ?_ ?_)
    | (intro x; clear_value x)
    | lift_lets -underBinder
    | split
    | refine Kept.of_fst (by assumption) ?_
    | (refine Kept.upd ?_; first | assumption | refine State.each_kept ?_ (fun x a hx => ?_) | refine chargeNow_kept ?_ | refine setSeal_kept ?_ | refine mapLeafLines_kept ?_ | refine mergeDrop_kept ?_)

theorem freeQuire_kept {q : Nat} {s0 s : State} (h : Kept s0 s) :
    Kept s0 (freeQuire s q) := by
  unfold freeQuire
  with_reducible repeat' first
    | exact h
    | refine State.dec_kept ?_
    | refine State.each_kept ?_ (fun x a hx => ?_)
    | refine freeCounter_kept ?_
    | refine mergeDrop_kept ?_
    | refine freeSlot_kept ?_
    | refine showLocked_kept ?_
    | refine giveSlots_kept ?_
    | refine abortMove_kept ?_
    | refine Kept.ite ?_ ?_
    | assumption
    | (intro hx; clear_value x)
    | (intro x; refine Kept.cut (s := s0) (x := x) ?_ ?_)
    | (intro x; refine Kept.cut (s := s0) (x := x.1) ?_ ?_)
    | (intro x; clear_value x)
    | lift_lets -underBinder
    | split
    | refine Kept.of_fst (by assumption) ?_
    | (refine Kept.upd ?_; first | assumption | refine State.dec_kept ?_ | refine State.each_kept ?_ (fun x a hx => ?_) | refine freeCounter_kept ?_ | refine mergeDrop_kept ?_ | refine freeSlot_kept ?_ | refine showLocked_kept ?_ | refine giveSlots_kept ?_ | refine abortMove_kept ?_ | refine Kept.ite ?_ ?_)

theorem unlistQuire_kept {ld : Nat} {q : Nat} {s0 s : State} (h : Kept s0 s) :
    Kept s0 (unlistQuire s ld q) := by
  unfold unlistQuire
  with_reducible repeat' first
    | exact h
    | refine setFabric_kept ?_
    | refine showFilter_kept ?_
    | refine Kept.ite ?_ ?_
    | assumption
    | (intro hx; clear_value x)
    | (intro x; refine Kept.cut (s := s0) (x := x) ?_ ?_)
    | (intro x; refine Kept.cut (s := s0) (x := x.1) ?_ ?_)
    | (intro x; clear_value x)
    | lift_lets -underBinder
    | split
    | refine Kept.of_fst (by assumption) ?_
    | (refine Kept.upd ?_; first | assumption | refine setFabric_kept ?_ | refine showFilter_kept ?_ | refine Kept.ite ?_ ?_)

theorem leaveQuire_kept {ld : Nat} {q : Nat} {s0 s : State} (h : Kept s0 s) :
    Kept s0 (leaveQuire s ld q) := by
  unfold leaveQuire
  with_reducible repeat' first
    | exact h
    | refine State.dec_kept ?_
    | refine setFabric_kept ?_
    | refine freeQuire_kept ?_
    | refine unlistQuire_kept ?_
    | refine Kept.ite ?_ ?_
    | refine Kept.ite_fst ?_ ?_
    | assumption
    | (intro hx; clear_value x)
    | (intro x; refine Kept.cut (s := s0) (x := x) ?_ ?_)
    | (intro x; refine Kept.cut (s := s0) (x := x.1) ?_ ?_)
    | (intro x; clear_value x)
    | lift_lets -underBinder
    | split
    | refine Kept.of_fst (by assumption) ?_
    | (unfold x; split)
    | (refine Kept.upd ?_; first | assumption | refine State.dec_kept ?_ | refine setFabric_kept ?_ | refine freeQuire_kept ?_ | refine unlistQuire_kept ?_ | refine Kept.ite ?_ ?_)

theorem holdQuire_kept {e : Extent} {q : Nat} {s0 s : State} (h : Kept s0 s) :
    Kept s0 (holdQuire s e q) := by
  unfold holdQuire
  with_reducible repeat' first
    | exact h
    | refine State.inc_kept ?_
    | refine setFabric_kept ?_
    | assumption
    | (intro hx; clear_value x)
    | (intro x; refine Kept.cut (s := s0) (x := x) ?_ ?_)
    | (intro x; refine Kept.cut (s := s0) (x := x.1) ?_ ?_)
    | (intro x; clear_value x)
    | lift_lets -underBinder

theorem recallHosted_kept {n : Nat} {s0 s : State} (h : Kept s0 s) :
    Kept s0 (recallHosted s n) := by
  unfold recallHosted
  with_reducible repeat' first
    | exact h
    | refine State.send_kept ?_
    | refine State.each_kept ?_ (fun x a hx => ?_)
    | refine setFabric_kept ?_
    | assumption
    | (intro hx; clear_value x)
    | (intro x; refine Kept.cut (s := s0) (x := x) ?_ ?_)
    | (intro x; refine Kept.cut (s := s0) (x := x.1) ?_ ?_)
    | (intro x; clear_value x)
    | lift_lets -underBinder
    | split
    | refine Kept.of_fst (by assumption) ?_
    | (refine Kept.upd ?_; first | assumption | refine State.send_kept ?_ | refine State.each_kept ?_ (fun x a hx => ?_) | refine setFabric_kept ?_)

theorem endCoarse_kept {q : Nat} {s0 s : State} (h : Kept s0 s) :
    Kept s0 (endCoarse s q) := by
  unfold endCoarse
  with_reducible repeat' first
    | exact h
    | refine setFabric_kept ?_
    | refine showFilter_kept ?_
    | refine Kept.ite ?_ ?_
    | assumption
    | split
    | (refine Kept.upd ?_; first | assumption | refine setFabric_kept ?_ | refine showFilter_kept ?_ | refine Kept.ite ?_ ?_)

theorem cohEnd_kept {k : Nat} {status : Nat} {s0 s : State} (h : Kept s0 s) :
    Kept s0 (cohEnd s k status) := by
  unfold cohEnd
  with_reducible repeat' first
    | exact h
    | refine modCore_kept ?_
    | refine setReg_kept ?_
    | refine Kept.ite ?_ ?_
    | assumption
    | split
    | refine Kept.of_fst (by assumption) ?_
    | (refine Kept.upd ?_; first | assumption | refine modCore_kept ?_ | refine setReg_kept ?_ | refine Kept.ite ?_ ?_)

theorem snoopDone_kept {x0 : Snoop} {s0 s : State} (h : Kept s0 s) :
    Kept s0 (snoopDone s x0) := by
  unfold snoopDone
  with_reducible repeat' first
    | exact h
    | refine showFilter_kept ?_
    | refine clearHolders_kept ?_
    | refine commitWrite_kept ?_
    | refine unpark_kept ?_
    | refine dispatchRead_kept ?_
    | refine leaveQuire_kept ?_
    | refine endCoarse_kept ?_
    | refine cohEnd_kept ?_
    | refine Kept.ite ?_ ?_
    | assumption
    | (intro hx; clear_value x)
    | (intro x; refine Kept.cut (s := s0) (x := x) ?_ ?_)
    | (intro x; refine Kept.cut (s := s0) (x := x.1) ?_ ?_)
    | (intro x; clear_value x)
    | lift_lets -underBinder
    | split
    | refine Kept.of_fst (by assumption) ?_
    | (unfold x; split)

theorem answerSnoops_kept {ld : Nat} {p : Snoop → Bool} {s0 s : State} (h : Kept s0 s) :
    Kept s0 (answerSnoops s ld p) := by
  unfold answerSnoops
  with_reducible repeat' first
    | exact h
    | refine State.each_kept ?_ (fun x a hx => ?_)
    | refine setFabric_kept ?_
    | refine snoopDone_kept ?_
    | refine Kept.ite ?_ ?_
    | assumption
    | (intro hx; clear_value x)
    | (intro x; refine Kept.cut (s := s0) (x := x) ?_ ?_)
    | (intro x; refine Kept.cut (s := s0) (x := x.1) ?_ ?_)
    | (intro x; clear_value x)
    | lift_lets -underBinder
    | split
    | (refine Kept.upd ?_; first | assumption | refine State.each_kept ?_ (fun x a hx => ?_) | refine setFabric_kept ?_ | refine snoopDone_kept ?_ | refine Kept.ite ?_ ?_)

theorem dropReads_kept {p : Nat} {k : Nat} {s0 s : State} (h : Kept s0 s) :
    Kept s0 (dropReads s p k) := by
  unfold dropReads
  with_reducible repeat' first
    | exact h
    | assumption
    | (intro hx; clear_value x)
    | (intro x; refine Kept.cut (s := s0) (x := x) ?_ ?_)
    | (intro x; refine Kept.cut (s := s0) (x := x.1) ?_ ?_)
    | (intro x; clear_value x)
    | lift_lets -underBinder
    | split
    | refine Kept.of_fst (by assumption) ?_
    | (unfold x; split)
    | (refine Kept.upd ?_; first | assumption | (refine Kept.upd ?_; first | assumption))

theorem clearPort_kept {p : Nat} {s0 s : State} (h : Kept s0 s) :
    Kept s0 (clearPort s p).1 := by
  unfold clearPort
  with_reducible repeat' first
    | exact h
    | refine setFabric_kept ?_
    | refine showFilter_kept ?_
    | refine Kept.ite ?_ ?_
    | refine Kept.ite_fst ?_ ?_
    | assumption
    | (intro hx; clear_value x)
    | (intro x; refine Kept.cut (s := s0) (x := x) ?_ ?_)
    | (intro x; refine Kept.cut (s := s0) (x := x.1) ?_ ?_)
    | (intro x; clear_value x)
    | lift_lets -underBinder
    | split
    | refine Kept.of_fst (by assumption) ?_
    | (refine Kept.upd ?_; first | assumption | refine setFabric_kept ?_ | refine showFilter_kept ?_ | refine Kept.ite ?_ ?_)

theorem failLent_kept {p : Nat} {s0 s : State} (h : Kept s0 s) :
    Kept s0 (failLent s p) := by
  unfold failLent
  with_reducible repeat' first
    | exact h
    | refine State.each_kept ?_ (fun x a hx => ?_)
    | refine setFabric_kept ?_
    | refine lentDown_kept ?_
    | refine endWrite_kept ?_
    | refine endRead_kept ?_
    | assumption
    | (intro hx; clear_value x)
    | (intro x; refine Kept.cut (s := s0) (x := x) ?_ ?_)
    | (intro x; refine Kept.cut (s := s0) (x := x.1) ?_ ?_)
    | (intro x; clear_value x)
    | lift_lets -underBinder
    | split
    | refine Kept.of_fst (by assumption) ?_
    | (unfold x; split)
    | (refine Kept.upd ?_; first | assumption | refine State.each_kept ?_ (fun x a hx => ?_) | refine setFabric_kept ?_ | refine lentDown_kept ?_ | refine endWrite_kept ?_ | refine endRead_kept ?_)

theorem loseRuling_kept {p : Nat} {s0 s : State} (h : Kept s0 s) :
    Kept s0 (loseRuling s p) := by
  unfold loseRuling
  with_reducible repeat' first
    | exact h
    | refine setPeer_kept ?_
    | refine loseSource_kept ?_
    | refine choosePeer_kept ?_
    | refine Kept.ite ?_ ?_
    | assumption
    | (intro hx; clear_value x)
    | (intro x; refine Kept.cut (s := s0) (x := x) ?_ ?_)
    | (intro x; refine Kept.cut (s := s0) (x := x.1) ?_ ?_)
    | (intro x; clear_value x)
    | lift_lets -underBinder
    | split

theorem setLink_kept {p : Nat} {k : Nat} {state : Nat} {s0 s : State} (h : Kept s0 s) :
    Kept s0 (setLink s p k state) := by
  unfold setLink
  with_reducible repeat' first
    | exact h
    | refine State.put_kept ?_
    | refine State.putB_kept ?_

theorem linkDown_kept {p : Nat} {k : Nat} {s0 s : State} (h : Kept s0 s) :
    Kept s0 (linkDown s p k) := by
  unfold linkDown
  with_reducible repeat' first
    | exact h
    | refine State.put_kept ?_
    | refine State.inc_kept ?_
    | refine State.each_kept ?_ (fun x a hx => ?_)
    | refine countPort_kept ?_
    | refine event_kept ?_
    | refine discardItems_kept ?_
    | refine setFabric_kept ?_
    | refine answerSnoops_kept ?_
    | refine dropReads_kept ?_
    | refine clearPort_kept ?_
    | refine failLent_kept ?_
    | refine loseRuling_kept ?_
    | refine setLink_kept ?_
    | refine Kept.ite ?_ ?_
    | refine Kept.ite_fst ?_ ?_
    | assumption
    | (intro hx; clear_value x)
    | (intro x; refine Kept.cut (s := s0) (x := x) ?_ ?_)
    | (intro x; refine Kept.cut (s := s0) (x := x.1) ?_ ?_)
    | (intro x; clear_value x)
    | lift_lets -underBinder
    | split
    | refine Kept.of_fst (by assumption) ?_
    | (refine Kept.upd ?_; first | assumption | refine State.put_kept ?_ | refine State.inc_kept ?_ | refine State.each_kept ?_ (fun x a hx => ?_) | refine countPort_kept ?_ | refine event_kept ?_ | refine discardItems_kept ?_ | refine setFabric_kept ?_ | refine answerSnoops_kept ?_ | refine dropReads_kept ?_ | refine clearPort_kept ?_ | refine failLent_kept ?_ | refine loseRuling_kept ?_ | refine setLink_kept ?_ | refine Kept.ite ?_ ?_)

end Sys2Proof.Machine
end

