-- ==== Sys2Proof/Laws/KeptLanes.lean ====
section
/-! SUPPORT. What every step keeps, through the functions of Lanes. -/

set_option linter.all false
set_option maxRecDepth 8000

namespace Sys2Proof.Machine

theorem setWidth_kept {p : Nat} {k : Nat} {w : Nat} {high : Bool} {s0 s : State} (h : Kept s0 s) :
    Kept s0 (setWidth s p k w high) := by
  unfold setWidth
  with_reducible repeat' first
    | exact h
    | refine State.put_kept ?_
    | refine State.putB_kept ?_
    | refine State.setFlag_kept ?_
    | refine State.each_kept ?_ (fun x a hx => ?_)
    | assumption
    | (intro hx; clear_value x)
    | (intro x; refine Kept.cut (s := s0) (x := x) ?_ ?_)
    | (intro x; refine Kept.cut (s := s0) (x := x.1) ?_ ?_)
    | (intro x; clear_value x)
    | lift_lets -underBinder
    | split
    | refine Kept.of_fst (by assumption) ?_

theorem showActive_kept {p : Nat} {k : Nat} {s0 s : State} (h : Kept s0 s) :
    Kept s0 (showActive s p k) := by
  unfold showActive
  with_reducible repeat' first
    | exact h
    | refine State.setFlag_kept ?_
    | refine State.each_kept ?_ (fun x a hx => ?_)
    | assumption
    | (intro hx; clear_value x)
    | (intro x; refine Kept.cut (s := s0) (x := x) ?_ ?_)
    | (intro x; refine Kept.cut (s := s0) (x := x.1) ?_ ?_)
    | (intro x; clear_value x)
    | lift_lets -underBinder
    | split
    | refine Kept.of_fst (by assumption) ?_

theorem setLanes_kept {x0 : Lanes} {s0 s : State} (h : Kept s0 s) :
    Kept s0 (setLanes s x0) := by
  unfold setLanes
  with_reducible repeat' first
    | exact h
    | (refine Kept.upd ?_; first | assumption)

theorem goodWake_kept {p : Nat} {s0 s : State} (h : Kept s0 s) :
    Kept s0 (goodWake s p) := by
  unfold goodWake
  with_reducible repeat' first
    | exact h
    | refine State.put_kept ?_
    | refine setLanes_kept ?_
    | assumption
    | (intro hx; clear_value x)
    | (intro x; refine Kept.cut (s := s0) (x := x) ?_ ?_)
    | (intro x; refine Kept.cut (s := s0) (x := x.1) ?_ ?_)
    | (intro x; clear_value x)
    | lift_lets -underBinder

theorem subDown_kept {p : Nat} {k : Nat} {s0 s : State} (h : Kept s0 s) :
    Kept s0 (subDown s p k) := by
  unfold subDown
  with_reducible repeat' first
    | exact h
    | refine State.put_kept ?_
    | refine State.setFlag_kept ?_
    | refine State.each_kept ?_ (fun x a hx => ?_)
    | refine linkDown_kept ?_
    | refine setLanes_kept ?_
    | assumption
    | (intro hx; clear_value x)
    | (intro x; refine Kept.cut (s := s0) (x := x) ?_ ?_)
    | (intro x; refine Kept.cut (s := s0) (x := x.1) ?_ ?_)
    | (intro x; clear_value x)
    | lift_lets -underBinder
    | split
    | refine Kept.of_fst (by assumption) ?_

theorem portDown_kept {p : Nat} {s0 s : State} (h : Kept s0 s) :
    Kept s0 (portDown s p) := by
  unfold portDown
  with_reducible repeat' first
    | exact h
    | refine State.each_kept ?_ (fun x a hx => ?_)
    | refine subDown_kept ?_
    | assumption

theorem showRest_kept {p : Nat} {s0 s : State} (h : Kept s0 s) :
    Kept s0 (showRest s p) := by
  unfold showRest
  with_reducible repeat' first
    | exact h
    | refine State.each_kept ?_ (fun x a hx => ?_)
    | refine setLink_kept ?_
    | refine Kept.ite ?_ ?_
    | assumption
    | split

theorem quadToDetect_kept {q : Nat} {s0 s : State} (h : Kept s0 s) :
    Kept s0 (quadToDetect s q) := by
  unfold quadToDetect
  with_reducible repeat' first
    | exact h
    | refine State.each_kept ?_ (fun x a hx => ?_)
    | refine portDown_kept ?_
    | refine Kept.ite ?_ ?_
    | assumption
    | (intro hx; clear_value x)
    | (intro x; refine Kept.cut (s := s0) (x := x) ?_ ?_)
    | (intro x; refine Kept.cut (s := s0) (x := x.1) ?_ ?_)
    | (intro x; clear_value x)
    | lift_lets -underBinder
    | split
    | refine Kept.of_fst (by assumption) ?_
    | refine Kept.of_snd (by assumption) ?_
    | (unfold x; split)

theorem sendDoze_kept {p : Nat} {s0 s : State} (h : Kept s0 s) :
    Kept s0 (sendDoze s p) := by
  unfold sendDoze
  with_reducible repeat' first
    | exact h
    | refine State.send_kept ?_
    | refine Kept.ite ?_ ?_
    | split

theorem execLinkTrainingComplete_ends {port : Fin 64} {sub : Fin 4} {width : Fin 6} {rate : Fin 6} {mirrored : Bool} {polarity : BitVec 16} {s0 s : State} (h : Kept s0 s) :
    Ends s0 (execLinkTrainingComplete port sub width rate mirrored polarity s) := by
  unfold execLinkTrainingComplete
  refine Ends.next ?_
  with_reducible repeat' first
    | exact h
    | refine State.put_kept ?_
    | refine State.setFlag_kept ?_
    | refine State.each_kept ?_ (fun x a hx => ?_)
    | refine setLink_kept ?_
    | refine setWidth_kept ?_
    | refine setLanes_kept ?_
    | refine goodWake_kept ?_
    | refine sendDoze_kept ?_
    | refine Kept.ite ?_ ?_
    | assumption
    | (intro hx; clear_value x)
    | (intro x; refine Kept.cut (s := s0) (x := x) ?_ ?_)
    | (intro x; refine Kept.cut (s := s0) (x := x.1) ?_ ?_)
    | (intro x; clear_value x)
    | lift_lets -underBinder
    | split
    | refine Kept.of_fst (by assumption) ?_
    | (unfold x; split)
    | (refine Kept.upd ?_; first | assumption | refine State.put_kept ?_ | refine State.setFlag_kept ?_ | refine State.each_kept ?_ (fun x a hx => ?_) | refine setLink_kept ?_ | refine setWidth_kept ?_ | refine setLanes_kept ?_ | refine goodWake_kept ?_ | refine sendDoze_kept ?_ | refine Kept.ite ?_ ?_)

theorem execLinkTrainingFailed_ends {port : Fin 64} {sub : Fin 4} {reason : Fin 3} {s0 s : State} (h : Kept s0 s) :
    Ends s0 (execLinkTrainingFailed port sub reason s) := by
  unfold execLinkTrainingFailed
  refine Ends.next ?_
  with_reducible repeat' first
    | exact h
    | refine event_kept ?_
    | refine notice_kept ?_
    | refine setLink_kept ?_
    | refine Kept.ite ?_ ?_
    | assumption
    | (intro hx; clear_value x)
    | (intro x; refine Kept.cut (s := s0) (x := x) ?_ ?_)
    | (intro x; refine Kept.cut (s := s0) (x := x.1) ?_ ?_)
    | (intro x; clear_value x)
    | lift_lets -underBinder
    | split

theorem declareLane_kept {p : Nat} {l : Nat} {s0 s : State} (h : Kept s0 s) :
    Kept s0 (declareLane s p l) := by
  unfold declareLane
  with_reducible repeat' first
    | exact h
    | refine State.setFlag_kept ?_
    | refine countPort_kept ?_
    | refine event_kept ?_
    | refine setLink_kept ?_
    | refine setLanes_kept ?_
    | refine subDown_kept ?_
    | refine Kept.ite ?_ ?_
    | assumption
    | (intro hx; clear_value x)
    | (intro x; refine Kept.cut (s := s0) (x := x) ?_ ?_)
    | (intro x; refine Kept.cut (s := s0) (x := x.1) ?_ ?_)
    | (intro x; clear_value x)
    | lift_lets -underBinder
    | split
    | (refine Kept.upd ?_; first | assumption | refine State.setFlag_kept ?_ | refine countPort_kept ?_ | refine event_kept ?_ | refine setLink_kept ?_ | refine setLanes_kept ?_ | refine subDown_kept ?_ | refine Kept.ite ?_ ?_)

theorem execLockLoss_ends {port : Fin 64} {lane : Fin 16} {s0 s : State} (h : Kept s0 s) :
    Ends s0 (execLockLoss port lane s) := by
  unfold execLockLoss
  refine Ends.next ?_
  with_reducible repeat' first
    | exact h
    | refine State.inc_kept ?_
    | refine setLanes_kept ?_
    | refine Kept.ite ?_ ?_
    | assumption
    | (intro hx; clear_value x)
    | (intro x; refine Kept.cut (s := s0) (x := x) ?_ ?_)
    | (intro x; refine Kept.cut (s := s0) (x := x.1) ?_ ?_)
    | (intro x; clear_value x)
    | lift_lets -underBinder
    | split
    | (refine Kept.upd ?_; first | assumption | refine State.inc_kept ?_ | refine setLanes_kept ?_ | refine Kept.ite ?_ ?_)

theorem execLockRegained_ends {port : Fin 64} {lane : Fin 16} {s0 s : State} (h : Kept s0 s) :
    Ends s0 (execLockRegained port lane s) := by
  unfold execLockRegained
  refine Ends.next ?_
  with_reducible repeat' first
    | exact h
    | refine setLanes_kept ?_
    | (refine Kept.upd ?_; first | assumption | refine setLanes_kept ?_)

theorem execLockTimeout_ends {port : Fin 64} {lane : Fin 16} {s0 s : State} (h : Kept s0 s) :
    Ends s0 (execLockTimeout port lane s) := by
  unfold execLockTimeout
  refine Ends.next ?_
  with_reducible repeat' first
    | exact h
    | refine declareLane_kept ?_
    | refine Kept.ite ?_ ?_
    | split

theorem execRecoveryEntry_ends {port : Fin 64} {sub : Fin 4} {s0 s : State} (h : Kept s0 s) :
    Ends s0 (execRecoveryEntry port sub s) := by
  unfold execRecoveryEntry
  refine Ends.next ?_
  with_reducible repeat' first
    | exact h
    | refine setLink_kept ?_
    | refine Kept.ite ?_ ?_
    | split

theorem noteUnlocked_kept {p : Nat} {k : Nat} {retrain : Bool} {unlocked : List Nat} {s0 s : State} (h : Kept s0 s) :
    Kept s0 (noteUnlocked s p k retrain unlocked) := by
  unfold noteUnlocked
  with_reducible repeat' first
    | exact h
    | refine State.each_kept ?_ (fun x a hx => ?_)
    | refine setLanes_kept ?_
    | refine declareLane_kept ?_
    | refine Kept.ite ?_ ?_
    | assumption
    | (intro hx; clear_value x)
    | (intro x; refine Kept.cut (s := s0) (x := x) ?_ ?_)
    | (intro x; refine Kept.cut (s := s0) (x := x.1) ?_ ?_)
    | (intro x; clear_value x)
    | lift_lets -underBinder
    | split
    | refine Kept.of_fst (by assumption) ?_
    | (refine Kept.upd ?_; first | assumption | refine State.each_kept ?_ (fun x a hx => ?_) | refine setLanes_kept ?_ | refine declareLane_kept ?_ | refine Kept.ite ?_ ?_)

theorem execRecoveryComplete_ends {port : Fin 64} {sub : Fin 4} {partner : Bool} {unlocked : List (Fin 16)} {s0 s : State} (h : Kept s0 s) :
    Ends s0 (execRecoveryComplete port sub partner unlocked s) := by
  unfold execRecoveryComplete
  refine Ends.next ?_
  with_reducible repeat' first
    | exact h
    | refine event_kept ?_
    | refine eventOnce_kept ?_
    | refine setLink_kept ?_
    | refine setWidth_kept ?_
    | refine setLanes_kept ?_
    | refine subDown_kept ?_
    | refine noteUnlocked_kept ?_
    | refine Kept.ite ?_ ?_
    | assumption
    | (intro hx; clear_value x)
    | (intro x; refine Kept.cut (s := s0) (x := x) ?_ ?_)
    | (intro x; refine Kept.cut (s := s0) (x := x.1) ?_ ?_)
    | (intro x; clear_value x)
    | lift_lets -underBinder
    | split
    | refine Kept.of_fst (by assumption) ?_
    | (unfold x; split)
    | (refine Kept.upd ?_; first | assumption | refine event_kept ?_ | refine eventOnce_kept ?_ | refine setLink_kept ?_ | refine setWidth_kept ?_ | refine setLanes_kept ?_ | refine subDown_kept ?_ | refine noteUnlocked_kept ?_ | refine Kept.ite ?_ ?_)

theorem countFlits_kept {r : FlitRun} {s0 s : State} (h : Kept s0 s) :
    Kept s0 (countFlits s r) := by
  unfold countFlits
  with_reducible repeat' first
    | exact h
    | refine State.inc_kept ?_
    | refine State.incW_kept ?_
    | refine State.each_kept ?_ (fun x a hx => ?_)
    | refine countPort_kept ?_
    | refine setLanes_kept ?_
    | assumption
    | (intro hx; clear_value x)
    | (intro x; refine Kept.cut (s := s0) (x := x) ?_ ?_)
    | (intro x; refine Kept.cut (s := s0) (x := x.1) ?_ ?_)
    | (intro x; clear_value x)
    | lift_lets -underBinder
    | (refine Kept.upd ?_; first | assumption | refine State.inc_kept ?_ | refine State.incW_kept ?_ | refine State.each_kept ?_ (fun x a hx => ?_) | refine countPort_kept ?_ | refine setLanes_kept ?_)

theorem laneFolio_kept {s0 s : State} (h : Kept s0 s) :
    Kept s0 (laneFolio s) := by
  unfold laneFolio
  with_reducible repeat' first
    | exact h
    | refine State.each_kept ?_ (fun x a hx => ?_)
    | refine setLanes_kept ?_
    | refine declareLane_kept ?_
    | assumption
    | (intro hx; clear_value x)
    | (intro x; refine Kept.cut (s := s0) (x := x) ?_ ?_)
    | (intro x; refine Kept.cut (s := s0) (x := x.1) ?_ ?_)
    | (intro x; clear_value x)
    | lift_lets -underBinder
    | split
    | refine Kept.of_fst (by assumption) ?_
    | (refine Kept.upd ?_; first | assumption | refine State.each_kept ?_ (fun x a hx => ?_) | refine setLanes_kept ?_ | refine declareLane_kept ?_)

theorem execEqualizationRequest_ends {port : Fin 64} {lane : LaneRate} {legal : Bool} {preset : Fin 16} {cm2 : BitVec 6} {cm1 : BitVec 6} {c0 : BitVec 6} {cp1 : BitVec 6} {s0 s : State} (h : Kept s0 s) :
    Ends s0 (execEqualizationRequest port lane legal preset cm2 cm1 c0 cp1 s) := by
  unfold execEqualizationRequest
  refine Ends.next ?_
  with_reducible repeat' first
    | exact h
    | refine State.put_kept ?_
    | refine Kept.ite ?_ ?_
    | assumption
    | (intro hx; clear_value x)
    | (intro x; refine Kept.cut (s := s0) (x := x) ?_ ?_)
    | (intro x; refine Kept.cut (s := s0) (x := x.1) ?_ ?_)
    | (intro x; clear_value x)
    | lift_lets -underBinder
    | split

theorem execEqualizationPhaseEnd_ends {port : Fin 64} {lane : LaneRate} {tried : PhaseRun} {s0 s : State} (h : Kept s0 s) :
    Ends s0 (execEqualizationPhaseEnd port lane tried s) := by
  unfold execEqualizationPhaseEnd
  refine Ends.next ?_
  with_reducible repeat' first
    | exact h
    | refine State.put_kept ?_
    | refine State.send_kept ?_
    | refine State.each_kept ?_ (fun x a hx => ?_)
    | refine event_kept ?_
    | refine calibrateLane_kept ?_
    | refine Kept.ite ?_ ?_
    | refine Kept.ite_fst ?_ ?_
    | assumption
    | (intro hx; clear_value x)
    | (intro x; refine Kept.cut (s := s0) (x := x) ?_ ?_)
    | (intro x; refine Kept.cut (s := s0) (x := x.1) ?_ ?_)
    | (intro x; clear_value x)
    | lift_lets -underBinder
    | split
    | refine Kept.of_fst (by assumption) ?_
    | (unfold x; split)

theorem writeMargin_kept {p : Nat} {l : Nat} {v : BitVec 64} {s0 s : State} (h : Kept s0 s) :
    Kept s0 (writeMargin s p l v) := by
  unfold writeMargin
  with_reducible repeat' first
    | exact h
    | refine State.put_kept ?_
    | refine notice_kept ?_
    | refine setLanes_kept ?_
    | refine Kept.ite ?_ ?_
    | assumption
    | (intro hx; clear_value x)
    | (intro x; refine Kept.cut (s := s0) (x := x) ?_ ?_)
    | (intro x; refine Kept.cut (s := s0) (x := x.1) ?_ ?_)
    | (intro x; clear_value x)
    | lift_lets -underBinder
    | split
    | (refine Kept.upd ?_; first | assumption | refine State.put_kept ?_ | refine notice_kept ?_ | refine setLanes_kept ?_ | refine Kept.ite ?_ ?_)

theorem hostStep_kept {p : Nat} {l : Nat} {steps : Nat} {kind : Nat} {side : Nat} {s0 s : State} (h : Kept s0 s) :
    Kept s0 (hostStep s p l steps kind side) := by
  unfold hostStep
  with_reducible repeat' first
    | exact h
    | refine writeMargin_kept ?_
    | assumption
    | (intro hx; clear_value x)
    | (intro x; refine Kept.cut (s := s0) (x := x) ?_ ?_)
    | (intro x; refine Kept.cut (s := s0) (x := x.1) ?_ ?_)
    | (intro x; clear_value x)
    | lift_lets -underBinder

theorem hostMargin_kept {p : Nat} {k : Nat} {l : Nat} {v : BitVec 16} {s0 s : State} (h : Kept s0 s) :
    Kept s0 (hostMargin s p k l v) := by
  unfold hostMargin
  with_reducible repeat' first
    | exact h
    | refine State.put_kept ?_
    | refine setLanes_kept ?_
    | refine hostStep_kept ?_
    | refine Kept.ite ?_ ?_
    | assumption
    | (intro hx; clear_value x)
    | (intro x; refine Kept.cut (s := s0) (x := x) ?_ ?_)
    | (intro x; refine Kept.cut (s := s0) (x := x.1) ?_ ?_)
    | (intro x; clear_value x)
    | lift_lets -underBinder
    | split
    | refine Kept.of_fst (by assumption) ?_
    | (unfold x; split)
    | (refine Kept.upd ?_; first | assumption | refine State.put_kept ?_ | refine setLanes_kept ?_ | refine hostStep_kept ?_ | refine Kept.ite ?_ ?_)

theorem execMarginStart_ends {port : Fin 64} {lane : Fin 16} {value : BitVec 64} {s0 s : State} (h : Kept s0 s) :
    Ends s0 (execMarginStart port lane value s) := by
  unfold execMarginStart
  refine Ends.next ?_
  with_reducible repeat' first
    | exact h
    | refine writeMargin_kept ?_
    | refine Kept.ite ?_ ?_
    | split

theorem execMarginStepComplete_ends {port : Fin 64} {lane : Fin 16} {samples : Nat} {errors : Nat} {s0 s : State} (h : Kept s0 s) :
    Ends s0 (execMarginStepComplete port lane samples errors s) := by
  unfold execMarginStepComplete
  refine Ends.next ?_
  with_reducible repeat' first
    | exact h
    | refine State.put_kept ?_
    | refine setLanes_kept ?_
    | refine Kept.ite ?_ ?_
    | assumption
    | (intro hx; clear_value x)
    | (intro x; refine Kept.cut (s := s0) (x := x) ?_ ?_)
    | (intro x; refine Kept.cut (s := s0) (x := x.1) ?_ ?_)
    | (intro x; clear_value x)
    | lift_lets -underBinder
    | split
    | (refine Kept.upd ?_; first | assumption | refine State.put_kept ?_ | refine setLanes_kept ?_ | refine Kept.ite ?_ ?_)

theorem writeLanCtrl_kept {p : Nat} {v : BitVec 64} {s0 s : State} (h : Kept s0 s) :
    Kept s0 (writeLanCtrl s p v) := by
  unfold writeLanCtrl
  with_reducible repeat' first
    | exact h
    | refine State.put_kept ?_
    | refine State.each_kept ?_ (fun x a hx => ?_)
    | refine notice_kept ?_
    | refine setLink_kept ?_
    | refine setLanes_kept ?_
    | refine portDown_kept ?_
    | refine showRest_kept ?_
    | refine Kept.ite ?_ ?_
    | assumption
    | (intro hx; clear_value x)
    | (intro x; refine Kept.cut (s := s0) (x := x) ?_ ?_)
    | (intro x; refine Kept.cut (s := s0) (x := x.1) ?_ ?_)
    | (intro x; clear_value x)
    | lift_lets -underBinder
    | split
    | (refine Kept.upd ?_; first | assumption | refine State.put_kept ?_ | refine State.each_kept ?_ (fun x a hx => ?_) | refine notice_kept ?_ | refine setLink_kept ?_ | refine setLanes_kept ?_ | refine portDown_kept ?_ | refine showRest_kept ?_ | refine Kept.ite ?_ ?_)

theorem execPortRetrain_ends {port : Fin 64} {value : BitVec 64} {s0 s : State} (h : Kept s0 s) :
    Ends s0 (execPortRetrain port value s) := by
  unfold execPortRetrain
  refine Ends.next ?_
  with_reducible repeat' first
    | exact h
    | refine writeLanCtrl_kept ?_
    | refine Kept.ite ?_ ?_
    | split

theorem writeQuad_kept {q : Nat} {v : BitVec 64} {s0 s : State} (h : Kept s0 s) :
    Kept s0 (writeQuad s q v) := by
  unfold writeQuad
  with_reducible repeat' first
    | exact h
    | refine State.put_kept ?_
    | refine State.each_kept ?_ (fun x a hx => ?_)
    | refine event_kept ?_
    | refine notice_kept ?_
    | refine portDown_kept ?_
    | refine showRest_kept ?_
    | refine Kept.ite ?_ ?_
    | assumption
    | (intro hx; clear_value x)
    | (intro x; refine Kept.cut (s := s0) (x := x) ?_ ?_)
    | (intro x; refine Kept.cut (s := s0) (x := x.1) ?_ ?_)
    | (intro x; clear_value x)
    | lift_lets -underBinder
    | split

theorem execBifurcationWrite_ends {quad : Fin 4} {value : BitVec 64} {s0 s : State} (h : Kept s0 s) :
    Ends s0 (execBifurcationWrite quad value s) := by
  unfold execBifurcationWrite
  refine Ends.next ?_
  with_reducible repeat' first
    | exact h
    | refine writeQuad_kept ?_
    | refine Kept.ite ?_ ?_
    | split

theorem runPair_kept {k : Nat} {on' : Bool} {s0 s : State} (h : Kept s0 s) :
    Kept s0 (runPair s k on') := by
  unfold runPair
  with_reducible repeat' first
    | exact h
    | refine State.put_kept ?_
    | refine State.putB_kept ?_
    | refine vote_kept ?_
    | refine linkVotes_kept ?_
    | refine portDown_kept ?_
    | refine showRest_kept ?_
    | refine Kept.ite ?_ ?_
    | assumption
    | (intro hx; clear_value x)
    | (intro x; refine Kept.cut (s := s0) (x := x) ?_ ?_)
    | (intro x; refine Kept.cut (s := s0) (x := x.1) ?_ ?_)
    | (intro x; clear_value x)
    | lift_lets -underBinder
    | split

theorem writePair_kept {k : Nat} {v : BitVec 64} {s0 s : State} (h : Kept s0 s) :
    Kept s0 (writePair s k v) := by
  unfold writePair
  with_reducible repeat' first
    | exact h
    | refine State.put_kept ?_
    | refine notice_kept ?_
    | refine runPair_kept ?_
    | refine Kept.ite ?_ ?_
    | assumption
    | (intro hx; clear_value x)
    | (intro x; refine Kept.cut (s := s0) (x := x) ?_ ?_)
    | (intro x; refine Kept.cut (s := s0) (x := x.1) ?_ ?_)
    | (intro x; clear_value x)
    | lift_lets -underBinder
    | split

theorem execPairEnableWrite_ends {pair : Fin 32} {value : BitVec 64} {s0 s : State} (h : Kept s0 s) :
    Ends s0 (execPairEnableWrite pair value s) := by
  unfold execPairEnableWrite
  refine Ends.next ?_
  with_reducible repeat' first
    | exact h
    | refine writePair_kept ?_
    | refine Kept.ite ?_ ?_
    | split

theorem execPairForward_ends {pair : Fin 32} {upper : Bool} {sub : Fin 4} {kind : Fin 6} {rates : BitVec 6} {errors : FlitErrors} {overrun : Bool} {s0 s : State} (h : Kept s0 s) :
    Ends s0 (execPairForward pair upper sub kind rates errors overrun s) := by
  unfold execPairForward
  refine Ends.next ?_
  with_reducible repeat' first
    | exact h
    | refine State.inc_kept ?_
    | refine State.incW_kept ?_
    | refine State.send_kept ?_
    | refine State.each_kept ?_ (fun x a hx => ?_)
    | refine countPort_kept ?_
    | refine event_kept ?_
    | refine setLink_kept ?_
    | refine setLanes_kept ?_
    | refine Kept.ite ?_ ?_
    | assumption
    | (intro hx; clear_value x)
    | (intro x; refine Kept.cut (s := s0) (x := x) ?_ ?_)
    | (intro x; refine Kept.cut (s := s0) (x := x.1) ?_ ?_)
    | (intro x; clear_value x)
    | lift_lets -underBinder
    | split
    | (refine Kept.upd ?_; first | assumption | refine State.inc_kept ?_ | refine State.incW_kept ?_ | refine State.send_kept ?_ | refine State.each_kept ?_ (fun x a hx => ?_) | refine countPort_kept ?_ | refine event_kept ?_ | refine setLink_kept ?_ | refine setLanes_kept ?_ | refine Kept.ite ?_ ?_)

theorem execPairReady_ends {pair : Fin 32} {latUp : BitVec 8} {latDown : BitVec 8} {s0 s : State} (h : Kept s0 s) :
    Ends s0 (execPairReady pair latUp latDown s) := by
  unfold execPairReady
  refine Ends.next ?_
  with_reducible repeat' first
    | exact h
    | refine State.put_kept ?_
    | refine Kept.ite ?_ ?_
    | assumption
    | (intro hx; clear_value x)
    | (intro x; refine Kept.cut (s := s0) (x := x) ?_ ?_)
    | (intro x; refine Kept.cut (s := s0) (x := x.1) ?_ ?_)
    | (intro x; clear_value x)
    | lift_lets -underBinder
    | split

theorem execPairReadyTimeout_ends {pair : Fin 32} {s0 s : State} (h : Kept s0 s) :
    Ends s0 (execPairReadyTimeout pair s) := by
  unfold execPairReadyTimeout
  refine Ends.next ?_
  with_reducible repeat' first
    | exact h
    | refine event_kept ?_
    | refine Kept.ite ?_ ?_
    | split

theorem execL0pNarrow_ends {port : Fin 64} {sub : Fin 4} {partner : Bool} {s0 s : State} (h : Kept s0 s) :
    Ends s0 (execL0pNarrow port sub partner s) := by
  unfold execL0pNarrow
  refine Ends.next ?_
  with_reducible repeat' first
    | exact h
    | refine State.put_kept ?_
    | refine showActive_kept ?_
    | refine Kept.ite ?_ ?_
    | assumption
    | (intro hx; clear_value x)
    | (intro x; refine Kept.cut (s := s0) (x := x) ?_ ?_)
    | (intro x; refine Kept.cut (s := s0) (x := x.1) ?_ ?_)
    | (intro x; clear_value x)
    | lift_lets -underBinder
    | split

theorem execL0pWiden_ends {port : Fin 64} {sub : Fin 4} {stuck : Option (Fin 16)} {s0 s : State} (h : Kept s0 s) :
    Ends s0 (execL0pWiden port sub stuck s) := by
  unfold execL0pWiden
  refine Ends.next ?_
  with_reducible repeat' first
    | exact h
    | refine State.put_kept ?_
    | refine showActive_kept ?_
    | refine declareLane_kept ?_
    | refine Kept.ite ?_ ?_
    | assumption
    | (intro hx; clear_value x)
    | (intro x; refine Kept.cut (s := s0) (x := x) ?_ ?_)
    | (intro x; refine Kept.cut (s := s0) (x := x.1) ?_ ?_)
    | (intro x; clear_value x)
    | lift_lets -underBinder
    | split
    | refine Kept.of_fst (by assumption) ?_
    | (unfold x; split)

theorem execAspmL1Entry_ends {port : Fin 64} {sub : Fin 4} {s0 s : State} (h : Kept s0 s) :
    Ends s0 (execAspmL1Entry port sub s) := by
  unfold execAspmL1Entry
  refine Ends.next ?_
  with_reducible repeat' first
    | exact h
    | refine setLink_kept ?_
    | refine Kept.ite ?_ ?_
    | split

theorem execAspmL1Exit_ends {port : Fin 64} {sub : Fin 4} {s0 s : State} (h : Kept s0 s) :
    Ends s0 (execAspmL1Exit port sub s) := by
  unfold execAspmL1Exit
  refine Ends.next ?_
  with_reducible repeat' first
    | exact h
    | refine setLink_kept ?_
    | refine goodWake_kept ?_
    | refine Kept.ite ?_ ?_
    | split

theorem execDozeEnableMessage_ends {port : Fin 64} {enable : Bool} {s0 s : State} (h : Kept s0 s) :
    Ends s0 (execDozeEnableMessage port enable s) := by
  unfold execDozeEnableMessage
  refine Ends.next ?_
  with_reducible repeat' first
    | exact h
    | refine State.putB_kept ?_
    | refine Kept.ite ?_ ?_
    | split

theorem writeDoze_kept {p : Nat} {v : BitVec 64} {s0 s : State} (h : Kept s0 s) :
    Kept s0 (writeDoze s p v) := by
  unfold writeDoze
  with_reducible repeat' first
    | exact h
    | refine State.put_kept ?_
    | refine State.putB_kept ?_
    | refine notice_kept ?_
    | refine sendDoze_kept ?_
    | refine Kept.ite ?_ ?_
    | assumption
    | (intro hx; clear_value x)
    | (intro x; refine Kept.cut (s := s0) (x := x) ?_ ?_)
    | (intro x; refine Kept.cut (s := s0) (x := x.1) ?_ ?_)
    | (intro x; clear_value x)
    | lift_lets -underBinder
    | split

theorem execLanDozeWrite_ends {port : Fin 64} {value : BitVec 64} {s0 s : State} (h : Kept s0 s) :
    Ends s0 (execLanDozeWrite port value s) := by
  unfold execLanDozeWrite
  refine Ends.next ?_
  with_reducible repeat' first
    | exact h
    | refine writeDoze_kept ?_
    | refine Kept.ite ?_ ?_
    | split

theorem execHalfDozeEntry_ends {port : Fin 64} {sub : Fin 4} {partner : Bool} {s0 s : State} (h : Kept s0 s) :
    Ends s0 (execHalfDozeEntry port sub partner s) := by
  unfold execHalfDozeEntry
  refine Ends.next ?_
  with_reducible repeat' first
    | exact h
    | refine State.put_kept ?_
    | refine State.incW_kept ?_
    | refine Kept.ite ?_ ?_
    | assumption
    | (intro hx; clear_value x)
    | (intro x; refine Kept.cut (s := s0) (x := x) ?_ ?_)
    | (intro x; refine Kept.cut (s := s0) (x := x.1) ?_ ?_)
    | (intro x; clear_value x)
    | lift_lets -underBinder
    | split

theorem execHalfDozeWake_ends {port : Fin 64} {sub : Fin 4} {partner : Bool} {s0 s : State} (h : Kept s0 s) :
    Ends s0 (execHalfDozeWake port sub partner s) := by
  unfold execHalfDozeWake
  refine Ends.next ?_
  with_reducible repeat' first
    | exact h
    | refine State.put_kept ?_
    | refine goodWake_kept ?_
    | refine Kept.ite ?_ ?_
    | assumption
    | (intro hx; clear_value x)
    | (intro x; refine Kept.cut (s := s0) (x := x) ?_ ?_)
    | (intro x; refine Kept.cut (s := s0) (x := x.1) ?_ ?_)
    | (intro x; clear_value x)
    | lift_lets -underBinder
    | split

theorem execElectricalIdleExit_ends {port : Fin 64} {lane : Fin 16} {s0 s : State} (h : Kept s0 s) :
    Ends s0 (execElectricalIdleExit port lane s) := by
  unfold execElectricalIdleExit
  refine Ends.next ?_
  with_reducible repeat' first
    | exact h
    | refine setLink_kept ?_
    | refine setLanes_kept ?_
    | refine Kept.ite ?_ ?_
    | assumption
    | (intro hx; clear_value x)
    | (intro x; refine Kept.cut (s := s0) (x := x) ?_ ?_)
    | (intro x; refine Kept.cut (s := s0) (x := x.1) ?_ ?_)
    | (intro x; clear_value x)
    | lift_lets -underBinder
    | split
    | (refine Kept.upd ?_; first | assumption | refine setLink_kept ?_ | refine setLanes_kept ?_ | refine Kept.ite ?_ ?_)

theorem execFalseWake_ends {port : Fin 64} {lane : Fin 16} {s0 s : State} (h : Kept s0 s) :
    Ends s0 (execFalseWake port lane s) := by
  unfold execFalseWake
  refine Ends.next ?_
  with_reducible repeat' first
    | exact h
    | refine State.put_kept ?_
    | refine State.inc_kept ?_
    | refine eventOnce_kept ?_
    | refine setLink_kept ?_
    | refine setLanes_kept ?_
    | refine Kept.ite ?_ ?_
    | assumption
    | (intro hx; clear_value x)
    | (intro x; refine Kept.cut (s := s0) (x := x) ?_ ?_)
    | (intro x; refine Kept.cut (s := s0) (x := x.1) ?_ ?_)
    | (intro x; clear_value x)
    | lift_lets -underBinder
    | split

theorem execBackoffEnd_ends {port : Fin 64} {s0 s : State} (h : Kept s0 s) :
    Ends s0 (execBackoffEnd port s) := by
  unfold execBackoffEnd
  refine Ends.next ?_
  with_reducible repeat' first
    | exact h
    | refine setLanes_kept ?_
    | (refine Kept.upd ?_; first | assumption | refine setLanes_kept ?_)

end Sys2Proof.Machine
end

