-- ==== Sys2Proof/Laws/KeptFabric.lean ====
section
/-! SUPPORT. What every step keeps, through the functions of Fabric. -/

set_option linter.all false
set_option maxRecDepth 8000

namespace Sys2Proof.Machine

theorem execM2sReq_ends {req : LinkReq} {s0 s : State} (h : Kept s0 s) :
    Ends s0 (execM2sReq req s) := by
  unfold execM2sReq
  refine Ends.next ?_
  with_reducible repeat' first
    | exact h
    | refine respond_kept ?_
    | refine allocFilter_kept ?_
    | refine receive_kept ?_
    | refine classify_kept ?_
    | refine linkActivity_kept ?_
    | refine readLentIn_kept ?_
    | refine Kept.ite ?_ ?_
    | refine Kept.ite_fst ?_ ?_
    | assumption
    | (intro hx; clear_value x)
    | (intro x; refine Kept.cut (s := s0) (x := x) ?_ ?_)
    | (intro x; refine Kept.cut (s := s0) (x := x.1) ?_ ?_)
    | (intro x; clear_value x)
    | lift_lets -underBinder
    | split
    | refine Kept.of_fst (by assumption) ?_
    | (unfold x; split)

theorem execM2sRwd_ends {req : LinkReq} {data : BitVec 512} {mask : BitVec 64} {poison : Bool} {run : ReadRun} {s0 s : State} (h : Kept s0 s) :
    Ends s0 (execM2sRwd req data mask poison run s) := by
  unfold execM2sRwd
  refine Ends.next ?_
  with_reducible repeat' first
    | exact h
    | refine respond_kept ?_
    | refine allocFilter_kept ?_
    | refine receive_kept ?_
    | refine classify_kept ?_
    | refine linkActivity_kept ?_
    | refine writeLentIn_kept ?_
    | refine Kept.ite ?_ ?_
    | refine Kept.ite_fst ?_ ?_
    | assumption
    | (intro hx; clear_value x)
    | (intro x; refine Kept.cut (s := s0) (x := x) ?_ ?_)
    | (intro x; refine Kept.cut (s := s0) (x := x.1) ?_ ?_)
    | (intro x; clear_value x)
    | lift_lets -underBinder
    | split
    | refine Kept.of_fst (by assumption) ?_
    | (unfold x; split)

theorem lentNext_kept {dpa : Nat} {s0 s : State} (h : Kept s0 s) :
    Kept s0 (lentNext s dpa) := by
  unfold lentNext
  with_reducible repeat' first
    | exact h
    | refine State.each_kept ?_ (fun x a hx => ?_)
    | refine setFabric_kept ?_
    | refine commitWrite_kept ?_
    | assumption
    | (intro hx; clear_value x)
    | (intro x; refine Kept.cut (s := s0) (x := x) ?_ ?_)
    | (intro x; refine Kept.cut (s := s0) (x := x.1) ?_ ?_)
    | (intro x; clear_value x)
    | lift_lets -underBinder
    | (refine Kept.upd ?_; first | assumption | refine State.each_kept ?_ (fun x a hx => ?_) | refine setFabric_kept ?_ | refine commitWrite_kept ?_)

theorem mergeCame_kept {w : Write} {again : Bool} {m : MediaLine} {s0 s : State} (h : Kept s0 s) :
    Kept s0 (mergeCame s w again m) := by
  unfold mergeCame
  with_reducible repeat' first
    | exact h
    | refine leave_kept ?_
    | refine storeLine_kept ?_
    | refine sealAccessEvent_kept ?_
    | refine mergeDrop_kept ?_
    | refine respond_kept ?_
    | refine opened_kept ?_
    | refine countBad_kept ?_
    | refine sendLent_kept ?_
    | refine mirrorAway_kept ?_
    | refine endWrite_kept ?_
    | refine sealAndPlace_kept ?_
    | refine mergeLent_kept ?_
    | refine Kept.ite ?_ ?_
    | refine Kept.ite_fst ?_ ?_
    | assumption
    | (intro hx; clear_value x)
    | (intro x; refine Kept.cut (s := s0) (x := x) ?_ ?_)
    | (intro x; refine Kept.cut (s := s0) (x := x.1) ?_ ?_)
    | (intro x; clear_value x)
    | lift_lets -underBinder
    | split
    | refine Kept.of_fst (by assumption) ?_
    | (unfold x; split)
    | (refine Kept.upd ?_; first | assumption | refine leave_kept ?_ | refine storeLine_kept ?_ | refine sealAccessEvent_kept ?_ | refine mergeDrop_kept ?_ | refine respond_kept ?_ | refine opened_kept ?_ | refine countBad_kept ?_ | refine sendLent_kept ?_ | refine mirrorAway_kept ?_ | refine endWrite_kept ?_ | refine sealAndPlace_kept ?_ | refine mergeLent_kept ?_ | refine Kept.ite ?_ ?_)

theorem execS2mResponse_ends {tag : Nat} {line : Option StoredLine} {s0 s : State} (h : Kept s0 s) :
    Ends s0 (execS2mResponse tag line s) := by
  unfold execS2mResponse
  refine Ends.next ?_
  with_reducible repeat' first
    | exact h
    | refine leave_kept ?_
    | refine respond_kept ?_
    | refine setFabric_kept ?_
    | refine opened_kept ?_
    | refine countBad_kept ?_
    | refine endWrite_kept ?_
    | refine endRead_kept ?_
    | refine drainReserve_kept ?_
    | refine lentNext_kept ?_
    | refine mergeCame_kept ?_
    | refine Kept.ite ?_ ?_
    | refine Kept.ite_fst ?_ ?_
    | assumption
    | (intro hx; clear_value x)
    | (intro x; refine Kept.cut (s := s0) (x := x) ?_ ?_)
    | (intro x; refine Kept.cut (s := s0) (x := x.1) ?_ ?_)
    | (intro x; clear_value x)
    | lift_lets -underBinder
    | split
    | refine Kept.of_fst (by assumption) ?_
    | (unfold x; split)
    | (refine Kept.upd ?_; first | assumption | refine leave_kept ?_ | refine respond_kept ?_ | refine setFabric_kept ?_ | refine opened_kept ?_ | refine countBad_kept ?_ | refine endWrite_kept ?_ | refine endRead_kept ?_ | refine drainReserve_kept ?_ | refine lentNext_kept ?_ | refine mergeCame_kept ?_ | refine Kept.ite ?_ ?_)

theorem portReserves_kept {s0 s : State} (h : Kept s0 s) :
    Kept s0 (portReserves s) := by
  unfold portReserves
  with_reducible repeat' first
    | exact h
    | refine State.put_kept ?_
    | refine reserveCells_kept ?_
    | refine Kept.ite ?_ ?_
    | refine foldl_kept ?_ fun x a hx => ?_
    | refine foldl_kept_fst ?_ fun x a hx => ?_
    | assumption
    | (intro hx; clear_value x)
    | (intro x; refine Kept.cut (s := s0) (x := x) ?_ ?_)
    | (intro x; refine Kept.cut (s := s0) (x := x.1) ?_ ?_)
    | (intro x; clear_value x)
    | lift_lets -underBinder
    | split

theorem writePortCtrl_kept {p : Nat} {v : BitVec 64} {s0 s : State} (h : Kept s0 s) :
    Kept s0 (writePortCtrl s p v) := by
  unfold writePortCtrl
  with_reducible repeat' first
    | exact h
    | refine State.put_kept ?_
    | refine notice_kept ?_
    | refine linkVotes_kept ?_
    | refine portDown_kept ?_
    | refine showRest_kept ?_
    | refine portReserves_kept ?_
    | refine Kept.ite ?_ ?_
    | assumption
    | (intro hx; clear_value x)
    | (intro x; refine Kept.cut (s := s0) (x := x) ?_ ?_)
    | (intro x; refine Kept.cut (s := s0) (x := x.1) ?_ ?_)
    | (intro x; clear_value x)
    | lift_lets -underBinder
    | split

theorem execRoleWrite_ends {port : Fin 64} {value : BitVec 64} {s0 s : State} (h : Kept s0 s) :
    Ends s0 (execRoleWrite port value s) := by
  unfold execRoleWrite
  refine Ends.next ?_
  with_reducible repeat' first
    | exact h
    | refine writePortCtrl_kept ?_
    | refine Kept.ite ?_ ?_
    | split

theorem writeLd_kept {p : Nat} {d : Nat} {v : BitVec 64} {s0 s : State} (h : Kept s0 s) :
    Kept s0 (writeLd s p d v) := by
  unfold writeLd
  with_reducible repeat' first
    | exact h
    | refine State.setWord_kept ?_
    | refine notice_kept ?_
    | refine Kept.ite ?_ ?_
    | assumption
    | (intro hx; clear_value x)
    | (intro x; refine Kept.cut (s := s0) (x := x) ?_ ?_)
    | (intro x; refine Kept.cut (s := s0) (x := x.1) ?_ ?_)
    | (intro x; clear_value x)
    | lift_lets -underBinder
    | split

theorem execPrtLdWrite_ends {port : Fin 64} {ld : Fin 16} {value : BitVec 64} {s0 s : State} (h : Kept s0 s) :
    Ends s0 (execPrtLdWrite port ld value s) := by
  unfold execPrtLdWrite
  refine Ends.next ?_
  with_reducible repeat' first
    | exact h
    | refine writeLd_kept ?_
    | refine Kept.ite ?_ ?_
    | split

theorem writeRegion_kept {p : Nat} {d : Nat} {r : Nat} {v : BitVec 64} {s0 s : State} (h : Kept s0 s) :
    Kept s0 (writeRegion s p d r v) := by
  unfold writeRegion
  with_reducible repeat' first
    | exact h
    | refine State.setWord_kept ?_
    | refine notice_kept ?_
    | refine Kept.ite ?_ ?_
    | split

theorem execDcRegionWrite_ends {port : Fin 64} {ld : Fin 16} {region : Fin 8} {value : BitVec 64} {s0 s : State} (h : Kept s0 s) :
    Ends s0 (execDcRegionWrite port ld region value s) := by
  unfold execDcRegionWrite
  refine Ends.next ?_
  with_reducible repeat' first
    | exact h
    | refine writeRegion_kept ?_
    | refine Kept.ite ?_ ?_
    | split

theorem extentStatus_kept {st : Nat} {s0 s : State} (h : Kept s0 s) :
    Kept s0 (extentStatus s st) := by
  unfold extentStatus
  with_reducible repeat' first
    | exact h
    | refine State.put_kept ?_

theorem addExtent_kept {e : Extent} {s0 s : State} (h : Kept s0 s) :
    Kept s0 (addExtent s e).1 := by
  unfold addExtent
  with_reducible repeat' first
    | exact h
    | refine State.put_kept ?_
    | refine State.each_kept ?_ (fun x a hx => ?_)
    | refine count_kept ?_
    | refine showLocked_kept ?_
    | refine setFabric_kept ?_
    | refine placeQuire_kept ?_
    | refine recallHosted_kept ?_
    | refine Kept.ite ?_ ?_
    | refine Kept.ite_fst ?_ ?_
    | assumption
    | (intro hx; clear_value x)
    | (intro x; refine Kept.cut (s := s0) (x := x) ?_ ?_)
    | (intro x; refine Kept.cut (s := s0) (x := x.1) ?_ ?_)
    | (intro x; clear_value x)
    | lift_lets -underBinder
    | split
    | (refine Kept.upd ?_; first | assumption | refine State.put_kept ?_ | refine State.each_kept ?_ (fun x a hx => ?_) | refine count_kept ?_ | refine showLocked_kept ?_ | refine setFabric_kept ?_ | refine placeQuire_kept ?_ | refine recallHosted_kept ?_ | refine Kept.ite ?_ ?_)

theorem writeExtentAdd_kept {v : BitVec 64} {s0 s : State} (h : Kept s0 s) :
    Kept s0 (writeExtentAdd s v) := by
  unfold writeExtentAdd
  with_reducible repeat' first
    | exact h
    | refine extentStatus_kept ?_
    | refine addExtent_kept ?_
    | assumption
    | (intro hx; clear_value x)
    | (intro x; refine Kept.cut (s := s0) (x := x) ?_ ?_)
    | (intro x; refine Kept.cut (s := s0) (x := x.1) ?_ ?_)
    | (intro x; clear_value x)
    | lift_lets -underBinder
    | split
    | refine Kept.of_fst (by assumption) ?_

theorem execExtentAdd_ends {value : BitVec 64} {s0 s : State} (h : Kept s0 s) :
    Ends s0 (execExtentAdd value s) := by
  unfold execExtentAdd
  refine Ends.next ?_
  with_reducible repeat' first
    | exact h
    | refine writeExtentAdd_kept ?_

theorem execExtentBlankComplete_ends {s0 s : State} (h : Kept s0 s) :
    Ends s0 (execExtentBlankComplete s) := by
  unfold execExtentBlankComplete
  refine Ends.next ?_
  with_reducible repeat' first
    | exact h
    | refine State.put_kept ?_
    | refine State.send_kept ?_
    | refine State.each_kept ?_ (fun x a hx => ?_)
    | refine count_kept ?_
    | refine setFabric_kept ?_
    | refine placeQuire_kept ?_
    | refine blankQuire_kept ?_
    | refine holdQuire_kept ?_
    | refine extentStatus_kept ?_
    | refine Kept.ite ?_ ?_
    | assumption
    | (intro hx; clear_value x)
    | (intro x; refine Kept.cut (s := s0) (x := x) ?_ ?_)
    | (intro x; refine Kept.cut (s := s0) (x := x.1) ?_ ?_)
    | (intro x; clear_value x)
    | lift_lets -underBinder
    | split
    | refine Kept.of_fst (by assumption) ?_
    | (unfold x; split)
    | (refine Kept.upd ?_; first | assumption | refine State.put_kept ?_ | refine State.send_kept ?_ | refine State.each_kept ?_ (fun x a hx => ?_) | refine count_kept ?_ | refine setFabric_kept ?_ | refine placeQuire_kept ?_ | refine blankQuire_kept ?_ | refine holdQuire_kept ?_ | refine extentStatus_kept ?_ | refine Kept.ite ?_ ?_)

theorem execAddDcResponse_ends {port : Fin 64} {ld : Fin 16} {quires : List (Fin 262144)} {s0 s : State} (h : Kept s0 s) :
    Ends s0 (execAddDcResponse port ld quires s) := by
  unfold execAddDcResponse
  refine Ends.next ?_
  with_reducible repeat' first
    | exact h
    | refine State.put_kept ?_
    | refine State.dec_kept ?_
    | refine State.send_kept ?_
    | refine State.each_kept ?_ (fun x a hx => ?_)
    | refine count_kept ?_
    | refine setFabric_kept ?_
    | refine freeQuire_kept ?_
    | refine holdQuire_kept ?_
    | refine extentStatus_kept ?_
    | refine Kept.ite ?_ ?_
    | assumption
    | (intro hx; clear_value x)
    | (intro x; refine Kept.cut (s := s0) (x := x) ?_ ?_)
    | (intro x; refine Kept.cut (s := s0) (x := x.1) ?_ ?_)
    | (intro x; clear_value x)
    | lift_lets -underBinder
    | split
    | refine Kept.of_fst (by assumption) ?_
    | (unfold x; split)
    | (refine Kept.upd ?_; first | assumption | refine State.put_kept ?_ | refine State.dec_kept ?_ | refine State.send_kept ?_ | refine State.each_kept ?_ (fun x a hx => ?_) | refine count_kept ?_ | refine setFabric_kept ?_ | refine freeQuire_kept ?_ | refine holdQuire_kept ?_ | refine extentStatus_kept ?_ | refine Kept.ite ?_ ?_)

theorem askRelease_kept {e : Extent} {s0 s : State} (h : Kept s0 s) :
    Kept s0 (askRelease s e).1 := by
  unfold askRelease
  with_reducible repeat' first
    | exact h
    | refine State.send_kept ?_
    | refine count_kept ?_
    | refine Kept.ite ?_ ?_
    | refine Kept.ite_fst ?_ ?_
    | assumption
    | split

theorem writeRelease_kept {v : BitVec 64} {s0 s : State} (h : Kept s0 s) :
    Kept s0 (writeRelease s v) := by
  unfold writeRelease
  with_reducible repeat' first
    | exact h
    | refine extentStatus_kept ?_
    | refine askRelease_kept ?_
    | assumption
    | (intro hx; clear_value x)
    | (intro x; refine Kept.cut (s := s0) (x := x) ?_ ?_)
    | (intro x; refine Kept.cut (s := s0) (x := x.1) ?_ ?_)
    | (intro x; clear_value x)
    | lift_lets -underBinder
    | split
    | refine Kept.of_fst (by assumption) ?_

theorem writeExtentCmd_kept {v : BitVec 64} {s0 s : State} (h : Kept s0 s) :
    Kept s0 (writeExtentCmd s v) := by
  unfold writeExtentCmd
  with_reducible repeat' first
    | exact h
    | refine notice_kept ?_
    | refine writeExtentAdd_kept ?_
    | refine writeRelease_kept ?_
    | split
    | refine Kept.of_fst (by assumption) ?_

theorem execReleaseRequest_ends {value : BitVec 64} {s0 s : State} (h : Kept s0 s) :
    Ends s0 (execReleaseRequest value s) := by
  unfold execReleaseRequest
  refine Ends.next ?_
  with_reducible repeat' first
    | exact h
    | refine writeRelease_kept ?_

theorem askAll_kept {n : Nat} {s0 s : State} (h : Kept s0 s) :
    Kept s0 (askAll s n) := by
  unfold askAll
  with_reducible repeat' first
    | exact h
    | refine State.send_kept ?_
    | refine State.each_kept ?_ (fun x a hx => ?_)
    | assumption
    | (intro hx; clear_value x)
    | (intro x; refine Kept.cut (s := s0) (x := x) ?_ ?_)
    | (intro x; refine Kept.cut (s := s0) (x := x.1) ?_ ?_)
    | (intro x; clear_value x)
    | lift_lets -underBinder

theorem execReleaseRetry_ends {s0 s : State} (h : Kept s0 s) :
    Ends s0 (execReleaseRetry s) := by
  unfold execReleaseRetry
  refine Ends.next ?_
  with_reducible repeat' first
    | exact h
    | refine event_kept ?_
    | refine setFabric_kept ?_
    | refine askAll_kept ?_
    | refine Kept.ite ?_ ?_
    | assumption
    | (intro hx; clear_value x)
    | (intro x; refine Kept.cut (s := s0) (x := x) ?_ ?_)
    | (intro x; refine Kept.cut (s := s0) (x := x.1) ?_ ?_)
    | (intro x; clear_value x)
    | lift_lets -underBinder
    | split
    | refine Kept.of_fst (by assumption) ?_
    | (unfold x; split)
    | (refine Kept.upd ?_; first | assumption | refine event_kept ?_ | refine setFabric_kept ?_ | refine askAll_kept ?_ | refine Kept.ite ?_ ?_)

theorem execReleaseDynamicCapacity_ends {port : Fin 64} {ld : Fin 16} {quires : List (Fin 262144)} {s0 s : State} (h : Kept s0 s) :
    Ends s0 (execReleaseDynamicCapacity port ld quires s) := by
  unfold execReleaseDynamicCapacity
  refine Ends.next ?_
  with_reducible repeat' first
    | exact h
    | refine State.send_kept ?_
    | refine State.each_kept ?_ (fun x a hx => ?_)
    | refine addSnoop_kept ?_
    | refine leaveQuire_kept ?_
    | refine Kept.ite ?_ ?_
    | refine Kept.ite_fst ?_ ?_
    | assumption
    | (intro hx; clear_value x)
    | (intro x; refine Kept.cut (s := s0) (x := x) ?_ ?_)
    | (intro x; refine Kept.cut (s := s0) (x := x.1) ?_ ?_)
    | (intro x; clear_value x)
    | lift_lets -underBinder
    | split
    | refine Kept.of_fst (by assumption) ?_

theorem execBirsp_ends {port : Fin 64} {ld : Fin 16} {dpa : BitVec 52} {s0 s : State} (h : Kept s0 s) :
    Ends s0 (execBirsp port ld dpa s) := by
  unfold execBirsp
  refine Ends.next ?_
  with_reducible repeat' first
    | exact h
    | refine notice_kept ?_
    | refine drainReserve_kept ?_
    | refine answerSnoops_kept ?_
    | assumption
    | (intro hx; clear_value x)
    | (intro x; refine Kept.cut (s := s0) (x := x) ?_ ?_)
    | (intro x; refine Kept.cut (s := s0) (x := x.1) ?_ ?_)
    | (intro x; clear_value x)
    | lift_lets -underBinder
    | split
    | refine Kept.of_fst (by assumption) ?_
    | (unfold x; split)

theorem biTimeout_kept {x0 : Snoop} {s0 s : State} (h : Kept s0 s) :
    Kept s0 (biTimeout s x0) := by
  unfold biTimeout
  with_reducible repeat' first
    | exact h
    | refine State.inc_kept ?_
    | refine State.each_kept ?_ (fun x a hx => ?_)
    | refine report_kept ?_
    | refine setFabric_kept ?_
    | refine endWrite_kept ?_
    | refine unpark_kept ?_
    | refine cohEnd_kept ?_
    | refine Kept.ite ?_ ?_
    | assumption
    | (intro hx; clear_value x)
    | (intro x; refine Kept.cut (s := s0) (x := x) ?_ ?_)
    | (intro x; refine Kept.cut (s := s0) (x := x.1) ?_ ?_)
    | (intro x; clear_value x)
    | lift_lets -underBinder
    | split
    | refine Kept.of_fst (by assumption) ?_
    | (unfold x; split)
    | (refine Kept.upd ?_; first | assumption | refine State.inc_kept ?_ | refine State.each_kept ?_ (fun x a hx => ?_) | refine report_kept ?_ | refine setFabric_kept ?_ | refine endWrite_kept ?_ | refine unpark_kept ?_ | refine cohEnd_kept ?_ | refine Kept.ite ?_ ?_ | (refine Kept.upd ?_; first | assumption | refine State.inc_kept ?_ | refine State.each_kept ?_ (fun x a hx => ?_) | refine report_kept ?_ | refine setFabric_kept ?_ | refine endWrite_kept ?_ | refine unpark_kept ?_ | refine cohEnd_kept ?_))

theorem execBiTimeout_ends {s0 s : State} (h : Kept s0 s) :
    Ends s0 (execBiTimeout s) := by
  unfold execBiTimeout
  refine Ends.next ?_
  with_reducible repeat' first
    | exact h
    | refine State.each_kept ?_ (fun x a hx => ?_)
    | refine biTimeout_kept ?_
    | assumption

theorem execCoarseSweep_ends {s0 s : State} (h : Kept s0 s) :
    Ends s0 (execCoarseSweep s) := by
  unfold execCoarseSweep
  refine Ends.next ?_
  with_reducible repeat' first
    | exact h
    | refine setFabric_kept ?_
    | refine sendSnoops_kept ?_
    | refine addSnoop_kept ?_
    | refine endCoarse_kept ?_
    | refine Kept.ite ?_ ?_
    | refine Kept.ite_fst ?_ ?_
    | assumption
    | (intro hx; clear_value x)
    | (intro x; refine Kept.cut (s := s0) (x := x) ?_ ?_)
    | (intro x; refine Kept.cut (s := s0) (x := x.1) ?_ ?_)
    | (intro x; clear_value x)
    | lift_lets -underBinder
    | split
    | refine Kept.of_fst (by assumption) ?_
    | (unfold x; split)
    | (refine Kept.upd ?_; first | assumption | refine setFabric_kept ?_ | refine sendSnoops_kept ?_ | refine addSnoop_kept ?_ | refine endCoarse_kept ?_ | refine Kept.ite ?_ ?_)

theorem execPbrTransit_ends {port : Fin 64} {sub : Fin 4} {dpid : Fin 4096} {spid : Fin 4096} {tag : BitVec 16} {write : Bool} {s0 s : State} (h : Kept s0 s) :
    Ends s0 (execPbrTransit port sub dpid spid tag write s) := by
  unfold execPbrTransit
  refine Ends.next ?_
  with_reducible repeat' first
    | exact h
    | refine State.send_kept ?_
    | refine report_kept ?_
    | refine Kept.ite ?_ ?_
    | split
    | refine Kept.of_fst (by assumption) ?_

theorem barRefused_kept {p : Nat} {k : Nat} {d : Nat} {write : Bool} {addr : Nat} {s0 s : State} (h : Kept s0 s) :
    Kept s0 (barRefused s p k d write addr) := by
  unfold barRefused
  with_reducible repeat' first
    | exact h
    | refine openEvent_kept ?_
    | refine Kept.ite ?_ ?_
    | split

theorem execBarAccess_ends {port : Fin 64} {sub : Fin 4} {ld : Fin 16} {write : Bool} {addr : BitVec 64} {s0 s : State} (h : Kept s0 s) :
    Ends s0 (execBarAccess port sub ld write addr s) := by
  unfold execBarAccess
  refine Ends.next ?_
  with_reducible repeat' first
    | exact h
    | refine State.send_kept ?_
    | refine linkActivity_kept ?_
    | refine barRefused_kept ?_
    | refine Kept.ite ?_ ?_
    | assumption
    | (intro hx; clear_value x)
    | (intro x; refine Kept.cut (s := s0) (x := x) ?_ ?_)
    | (intro x; refine Kept.cut (s := s0) (x := x.1) ?_ ?_)
    | (intro x; clear_value x)
    | lift_lets -underBinder
    | split

theorem execViralReceived_ends {port : Fin 64} {sub : Fin 4} {s0 s : State} (h : Kept s0 s) :
    Ends s0 (execViralReceived port sub s) := by
  unfold execViralReceived
  refine Ends.next ?_
  with_reducible repeat' first
    | exact h
    | refine notice_kept ?_
    | refine setFabric_kept ?_
    | refine Kept.ite ?_ ?_
    | split
    | (refine Kept.upd ?_; first | assumption | refine notice_kept ?_ | refine setFabric_kept ?_ | refine Kept.ite ?_ ?_)

theorem execIdentifyMemoryDevice_ends {port : Fin 64} {ld : Fin 16} {s0 s : State} (h : Kept s0 s) :
    Ends s0 (execIdentifyMemoryDevice port ld s) := by
  unfold execIdentifyMemoryDevice
  refine Ends.next ?_
  with_reducible repeat' first
    | exact h
    | refine State.send_kept ?_
    | refine Kept.ite ?_ ?_
    | split

theorem execGetSupportedLogs_ends {port : Fin 64} {ld : Fin 16} {s0 s : State} (h : Kept s0 s) :
    Ends s0 (execGetSupportedLogs port ld s) := by
  unfold execGetSupportedLogs
  refine Ends.next ?_
  with_reducible repeat' first
    | exact h
    | refine State.send_kept ?_
    | refine Kept.ite ?_ ?_
    | split

theorem execGetLog_ends {port : Fin 64} {ld : Fin 16} {uuid : BitVec 128} {offset : Nat} {length : Nat} {s0 s : State} (h : Kept s0 s) :
    Ends s0 (execGetLog port ld uuid offset length s) := by
  unfold execGetLog
  refine Ends.next ?_
  with_reducible repeat' first
    | exact h
    | refine State.send_kept ?_
    | refine Kept.ite ?_ ?_
    | split

theorem execCxlGetEventRecords_ends {port : Fin 64} {ld : Fin 16} {log : Fin 4} {s0 s : State} (h : Kept s0 s) :
    Ends s0 (execCxlGetEventRecords port ld log s) := by
  unfold execCxlGetEventRecords
  refine Ends.next ?_
  with_reducible repeat' first
    | exact h
    | refine State.send_kept ?_
    | refine Kept.ite ?_ ?_
    | assumption
    | (intro hx; clear_value x)
    | (intro x; refine Kept.cut (s := s0) (x := x) ?_ ?_)
    | (intro x; refine Kept.cut (s := s0) (x := x.1) ?_ ?_)
    | (intro x; clear_value x)
    | lift_lets -underBinder
    | split

theorem execCxlClearEventRecords_ends {port : Fin 64} {ld : Fin 16} {log : Fin 4} {all : Bool} {seqs : List (BitVec 64)} {s0 s : State} (h : Kept s0 s) :
    Ends s0 (execCxlClearEventRecords port ld log all seqs s) := by
  unfold execCxlClearEventRecords
  refine Ends.next ?_
  with_reducible repeat' first
    | exact h
    | refine State.send_kept ?_
    | refine Kept.ite ?_ ?_
    | assumption
    | (intro hx; clear_value x)
    | (intro x; refine Kept.cut (s := s0) (x := x) ?_ ?_)
    | (intro x; refine Kept.cut (s := s0) (x := x.1) ?_ ?_)
    | (intro x; clear_value x)
    | lift_lets -underBinder
    | split
    | (refine Kept.upd ?_; first | assumption | refine State.send_kept ?_ | refine Kept.ite ?_ ?_)

theorem execGetDcConfiguration_ends {port : Fin 64} {ld : Fin 16} {s0 s : State} (h : Kept s0 s) :
    Ends s0 (execGetDcConfiguration port ld s) := by
  unfold execGetDcConfiguration
  refine Ends.next ?_
  with_reducible repeat' first
    | exact h
    | refine State.send_kept ?_
    | refine Kept.ite ?_ ?_
    | assumption
    | (intro hx; clear_value x)
    | (intro x; refine Kept.cut (s := s0) (x := x) ?_ ?_)
    | (intro x; refine Kept.cut (s := s0) (x := x.1) ?_ ?_)
    | (intro x; clear_value x)
    | lift_lets -underBinder
    | split

theorem execGetDcExtentList_ends {port : Fin 64} {ld : Fin 16} {s0 s : State} (h : Kept s0 s) :
    Ends s0 (execGetDcExtentList port ld s) := by
  unfold execGetDcExtentList
  refine Ends.next ?_
  with_reducible repeat' first
    | exact h
    | refine State.send_kept ?_
    | refine Kept.ite ?_ ?_
    | refine Kept.ite_fst ?_ ?_
    | assumption
    | split

theorem execLinkDown_ends {port : Fin 64} {sub : Fin 4} {s0 s : State} (h : Kept s0 s) :
    Ends s0 (execLinkDown port sub s) := by
  unfold execLinkDown
  refine Ends.next ?_
  with_reducible repeat' first
    | exact h
    | refine subDown_kept ?_
    | refine Kept.ite ?_ ?_
    | split

end Sys2Proof.Machine
end

