-- ==== Sys2Proof/Laws/KeptKeyLoad.lean ====
section
/-! SUPPORT. What every step keeps, through the functions of KeyLoad. -/

set_option linter.all false
set_option maxRecDepth 8000

namespace Sys2Proof.Machine

theorem spdmError_kept {s0 s : State} (h : Kept s0 s) :
    Kept s0 (spdmError s) := by
  unfold spdmError
  with_reducible repeat' first
    | exact h
    | refine State.drew_kept ?_
    | refine State.send_kept ?_

theorem keyAnswer_kept {name : String} {status : Nat} {k : Nat} {s0 s : State} (h : Kept s0 s) :
    Kept s0 (keyAnswer s name status k) := by
  unfold keyAnswer
  with_reducible repeat' first
    | exact h
    | refine State.send_kept ?_

theorem inKeySession_kept {id : Nat} {f : State → Session → State} {s0 s : State} (h_f : ∀ x a0, Kept s0 x → Kept s0 (f x a0)) (h : Kept s0 s) :
    Kept s0 (inKeySession s id f) := by
  unfold inKeySession
  with_reducible repeat' first
    | exact h
    | refine h_f _ _ ?_
    | refine spdmError_kept ?_
    | refine Kept.ite ?_ ?_
    | split
    | refine Kept.of_fst (by assumption) ?_

theorem fillKey_kept {k : Nat} {level : Nat} {source : Nat} {binding : Nat} {clusters : Nat} {key : Key} {s0 s : State} (h : Kept s0 s) :
    Kept s0 (fillKey s k level source binding clusters key) := by
  unfold fillKey
  with_reducible repeat' first
    | exact h
    | refine State.setWord_kept ?_
    | refine setSeal_kept ?_
    | assumption
    | (intro hx; clear_value x)
    | (intro x; refine Kept.cut (s := s0) (x := x) ?_ ?_)
    | (intro x; refine Kept.cut (s := s0) (x := x.1) ?_ ?_)
    | (intro x; clear_value x)
    | lift_lets -underBinder
    | split
    | refine Kept.of_fst (by assumption) ?_
    | (unfold x; split)
    | (refine Kept.upd ?_; first | assumption | refine State.setWord_kept ?_ | refine setSeal_kept ?_)

theorem execKeyLoad_ends {session : BitVec 32} {level : BitVec 2} {index : BitVec 16} {binding : BitVec 16} {clusters : BitVec 16} {xts : BitVec 512} {integrity : BitVec 256} {s0 s : State} (h : Kept s0 s) :
    Ends s0 (execKeyLoad session level index binding clusters xts integrity s) := by
  unfold execKeyLoad
  refine Ends.next ?_
  with_reducible repeat' first
    | exact h
    | refine State.send_kept ?_
    | refine keyAnswer_kept ?_
    | refine inKeySession_kept (fun x a0 hx => ?_) ?_
    | refine fillKey_kept ?_
    | refine Kept.ite ?_ ?_
    | assumption
    | (intro hx; clear_value x)
    | (intro x; refine Kept.cut (s := s0) (x := x) ?_ ?_)
    | (intro x; refine Kept.cut (s := s0) (x := x.1) ?_ ?_)
    | (intro x; clear_value x)
    | lift_lets -underBinder
    | split

theorem clearKey_kept {k : Nat} {s0 s : State} (h : Kept s0 s) :
    Kept s0 (clearKey s k) := by
  unfold clearKey
  with_reducible repeat' first
    | exact h
    | refine State.put_kept ?_

theorem execKeyClear_ends {session : BitVec 32} {index : BitVec 16} {s0 s : State} (h : Kept s0 s) :
    Ends s0 (execKeyClear session index s) := by
  unfold execKeyClear
  refine Ends.next ?_
  with_reducible repeat' first
    | exact h
    | refine State.send_kept ?_
    | refine keyAnswer_kept ?_
    | refine inKeySession_kept (fun x a0 hx => ?_) ?_
    | refine clearKey_kept ?_
    | refine Kept.ite ?_ ?_
    | assumption
    | (intro hx; clear_value x)
    | (intro x; refine Kept.cut (s := s0) (x := x) ?_ ?_)
    | (intro x; refine Kept.cut (s := s0) (x := x.1) ?_ ?_)
    | (intro x; clear_value x)
    | lift_lets -underBinder
    | split

theorem execKeyQuery_ends {session : BitVec 32} {ask : KeyAsk} {s0 s : State} (h : Kept s0 s) :
    Ends s0 (execKeyQuery session ask s) := by
  unfold execKeyQuery
  refine Ends.next ?_
  with_reducible repeat' first
    | exact h
    | refine State.send_kept ?_
    | refine keyAnswer_kept ?_
    | refine inKeySession_kept (fun x a0 hx => ?_) ?_
    | refine Kept.ite ?_ ?_
    | assumption
    | split

theorem execKeyClearComplete_ends {index : Fin 1024} {s0 s : State} (h : Kept s0 s) :
    Ends s0 (execKeyClearComplete index s) := by
  unfold execKeyClearComplete
  refine Ends.next ?_
  with_reducible repeat' first
    | exact h
    | refine State.setWord_kept ?_
    | refine setSeal_kept ?_
    | refine mergeDrop_kept ?_
    | refine Kept.ite ?_ ?_
    | assumption
    | (intro hx; clear_value x)
    | (intro x; refine Kept.cut (s := s0) (x := x) ?_ ?_)
    | (intro x; refine Kept.cut (s := s0) (x := x.1) ?_ ?_)
    | (intro x; clear_value x)
    | lift_lets -underBinder
    | split
    | (refine Kept.upd ?_; first | assumption | refine State.setWord_kept ?_ | refine setSeal_kept ?_ | refine mergeDrop_kept ?_ | refine Kept.ite ?_ ?_)

theorem tspAnswer_kept {name : String} {ok : Bool} {s0 s : State} (h : Kept s0 s) :
    Kept s0 (tspAnswer s name ok) := by
  unfold tspAnswer
  with_reducible repeat' first
    | exact h
    | refine State.send_kept ?_

theorem execTspGetVersion_ends {port : Fin 64} {sub : Fin 4} {ld : Fin 16} {s0 s : State} (h : Kept s0 s) :
    Ends s0 (execTspGetVersion port sub ld s) := by
  unfold execTspGetVersion
  refine Ends.next ?_
  with_reducible repeat' first
    | exact h
    | refine tspAnswer_kept ?_
    | refine Kept.ite ?_ ?_
    | split

theorem execTspSetTargetConfig_ends {port : Fin 64} {sub : Fin 4} {ld : Fin 16} {config : BitVec 32} {confidential : Bool} {s0 s : State} (h : Kept s0 s) :
    Ends s0 (execTspSetTargetConfig port sub ld config confidential s) := by
  unfold execTspSetTargetConfig
  refine Ends.next ?_
  with_reducible repeat' first
    | exact h
    | refine setSeal_kept ?_
    | refine tspAnswer_kept ?_
    | refine Kept.ite ?_ ?_
    | assumption
    | (intro hx; clear_value x)
    | (intro x; refine Kept.cut (s := s0) (x := x) ?_ ?_)
    | (intro x; refine Kept.cut (s := s0) (x := x.1) ?_ ?_)
    | (intro x; clear_value x)
    | lift_lets -underBinder
    | split

theorem execTspLockTargetConfig_ends {port : Fin 64} {sub : Fin 4} {ld : Fin 16} {s0 s : State} (h : Kept s0 s) :
    Ends s0 (execTspLockTargetConfig port sub ld s) := by
  unfold execTspLockTargetConfig
  refine Ends.next ?_
  with_reducible repeat' first
    | exact h
    | refine State.put_kept ?_
    | refine tspAnswer_kept ?_
    | refine Kept.ite ?_ ?_
    | split

theorem execTspSetKey_ends {port : Fin 64} {sub : Fin 4} {ld : Fin 16} {index : BitVec 16} {xts : BitVec 512} {integrity : BitVec 256} {s0 s : State} (h : Kept s0 s) :
    Ends s0 (execTspSetKey port sub ld index xts integrity s) := by
  unfold execTspSetKey
  refine Ends.next ?_
  with_reducible repeat' first
    | exact h
    | refine fillKey_kept ?_
    | refine tspAnswer_kept ?_
    | refine Kept.ite ?_ ?_
    | assumption
    | (intro hx; clear_value x)
    | (intro x; refine Kept.cut (s := s0) (x := x) ?_ ?_)
    | (intro x; refine Kept.cut (s := s0) (x := x.1) ?_ ?_)
    | (intro x; clear_value x)
    | lift_lets -underBinder
    | split

theorem execTspClearKey_ends {port : Fin 64} {sub : Fin 4} {ld : Fin 16} {index : BitVec 16} {s0 s : State} (h : Kept s0 s) :
    Ends s0 (execTspClearKey port sub ld index s) := by
  unfold execTspClearKey
  refine Ends.next ?_
  with_reducible repeat' first
    | exact h
    | refine clearKey_kept ?_
    | refine tspAnswer_kept ?_
    | refine Kept.ite ?_ ?_
    | assumption
    | (intro hx; clear_value x)
    | (intro x; refine Kept.cut (s := s0) (x := x) ?_ ?_)
    | (intro x; refine Kept.cut (s := s0) (x := x.1) ?_ ?_)
    | (intro x; clear_value x)
    | lift_lets -underBinder
    | split

theorem execTspSetTeState_ends {port : Fin 64} {sub : Fin 4} {ld : Fin 16} {dpa : BitVec 52} {length : BitVec 52} {te : Bool} {s0 s : State} (h : Kept s0 s) :
    Ends s0 (execTspSetTeState port sub ld dpa length te s) := by
  unfold execTspSetTeState
  refine Ends.next ?_
  with_reducible repeat' first
    | exact h
    | refine setSeal_kept ?_
    | refine tspAnswer_kept ?_
    | refine Kept.ite ?_ ?_
    | assumption
    | (intro hx; clear_value x)
    | (intro x; refine Kept.cut (s := s0) (x := x) ?_ ?_)
    | (intro x; refine Kept.cut (s := s0) (x := x.1) ?_ ?_)
    | (intro x; clear_value x)
    | lift_lets -underBinder
    | split
    | (refine Kept.upd ?_; first | assumption | refine setSeal_kept ?_ | refine tspAnswer_kept ?_ | refine Kept.ite ?_ ?_)

theorem newChallenge_kept {s0 s : State} (h : Kept s0 s) :
    Kept s0 (newChallenge s) := by
  unfold newChallenge
  with_reducible repeat' first
    | exact h
    | refine State.setWord_kept ?_
    | refine State.drew_kept ?_
    | refine setSeal_kept ?_
    | assumption
    | (intro hx; clear_value x)
    | (intro x; refine Kept.cut (s := s0) (x := x) ?_ ?_)
    | (intro x; refine Kept.cut (s := s0) (x := x.1) ?_ ?_)
    | (intro x; clear_value x)
    | lift_lets -underBinder
    | (refine Kept.upd ?_; first | assumption | refine State.setWord_kept ?_ | refine State.drew_kept ?_ | refine setSeal_kept ?_)

theorem startReseal_kept {k : Nat} {level : Nat} {node : Nat} {s0 s : State} (h : Kept s0 s) :
    Kept s0 (startReseal s k level node).1 := by
  unfold startReseal
  with_reducible repeat' first
    | exact h
    | refine State.put_kept ?_
    | refine State.each_kept ?_ (fun x a hx => ?_)
    | refine setSeal_kept ?_
    | refine sealEvent_kept ?_
    | refine sendSnoops_kept ?_
    | refine addSnoop_kept ?_
    | refine Kept.ite ?_ ?_
    | refine Kept.ite_fst ?_ ?_
    | assumption
    | (intro hx; clear_value x)
    | (intro x; refine Kept.cut (s := s0) (x := x) ?_ ?_)
    | (intro x; refine Kept.cut (s := s0) (x := x.1) ?_ ?_)
    | (intro x; clear_value x)
    | lift_lets -underBinder
    | split
    | refine Kept.of_fst (by assumption) ?_
    | (refine Kept.upd ?_; first | assumption | refine State.put_kept ?_ | refine State.each_kept ?_ (fun x a hx => ?_) | refine setSeal_kept ?_ | refine sealEvent_kept ?_ | refine sendSnoops_kept ?_ | refine addSnoop_kept ?_ | refine Kept.ite ?_ ?_)

theorem writeResealCmd_kept {v : BitVec 64} {s0 s : State} (h : Kept s0 s) :
    Kept s0 (writeResealCmd s v) := by
  unfold writeResealCmd
  with_reducible repeat' first
    | exact h
    | refine State.setWord_kept ?_
    | refine State.put_kept ?_
    | refine notice_kept ?_
    | refine newChallenge_kept ?_
    | refine startReseal_kept ?_
    | refine Kept.ite ?_ ?_
    | refine Kept.ite_fst ?_ ?_
    | assumption
    | (intro hx; clear_value x)
    | (intro x; refine Kept.cut (s := s0) (x := x) ?_ ?_)
    | (intro x; refine Kept.cut (s := s0) (x := x.1) ?_ ?_)
    | (intro x; clear_value x)
    | lift_lets -underBinder
    | split
    | refine Kept.of_fst (by assumption) ?_

theorem execResealStart_ends {value : BitVec 64} {s0 s : State} (h : Kept s0 s) :
    Ends s0 (execResealStart value s) := by
  unfold execResealStart
  refine Ends.next ?_
  with_reducible repeat' first
    | exact h
    | refine writeResealCmd_kept ?_

theorem rebuild_kept {level : Nat} {node : Nat} {s0 s : State} (h : Kept s0 s) :
    Kept s0 (rebuild s level node) := by
  unfold rebuild
  with_reducible repeat' first
    | exact h
    | refine State.each_kept ?_ (fun x a hx => ?_)
    | refine setSeal_kept ?_
    | refine remac_kept ?_
    | refine Kept.ite ?_ ?_
    | refine Kept.ite_fst ?_ ?_
    | assumption
    | (intro hx; clear_value x)
    | (intro x; refine Kept.cut (s := s0) (x := x) ?_ ?_)
    | (intro x; refine Kept.cut (s := s0) (x := x.1) ?_ ?_)
    | (intro x; clear_value x)
    | lift_lets -underBinder
    | split
    | refine Kept.of_fst (by assumption) ?_
    | (refine Kept.upd ?_; first | assumption | refine State.each_kept ?_ (fun x a hx => ?_) | refine setSeal_kept ?_ | refine remac_kept ?_ | refine Kept.ite ?_ ?_)

theorem newEpoch_kept {level : Nat} {node : Nat} {s0 s : State} (h : Kept s0 s) :
    Kept s0 (newEpoch s level node) := by
  unfold newEpoch
  with_reducible repeat' first
    | exact h
    | refine setNode_kept ?_
    | refine writeBack_kept ?_
    | refine Kept.ite ?_ ?_
    | assumption
    | (intro hx; clear_value x)
    | (intro x; refine Kept.cut (s := s0) (x := x) ?_ ?_)
    | (intro x; refine Kept.cut (s := s0) (x := x.1) ?_ ?_)
    | (intro x; clear_value x)
    | lift_lets -underBinder
    | split
    | (refine Kept.upd ?_; first | assumption | refine setNode_kept ?_ | refine writeBack_kept ?_ | refine Kept.ite ?_ ?_)

theorem resealLeaf_kept {k : Nat} {leaf : Nat} {s0 s : State} (h : Kept s0 s) :
    Kept s0 (resealLeaf s k leaf) := by
  unfold resealLeaf
  with_reducible repeat' first
    | exact h
    | refine State.each_kept ?_ (fun x a hx => ?_)
    | refine chargeNow_kept ?_
    | refine freeCounter_kept ?_
    | refine mapLeafLines_kept ?_
    | refine mergeDrop_kept ?_
    | refine clearHolders_kept ?_
    | refine Kept.ite ?_ ?_
    | refine Kept.ite_fst ?_ ?_
    | assumption
    | (intro hx; clear_value x)
    | (intro x; refine Kept.cut (s := s0) (x := x) ?_ ?_)
    | (intro x; refine Kept.cut (s := s0) (x := x.1) ?_ ?_)
    | (intro x; clear_value x)
    | lift_lets -underBinder
    | split

theorem execResealComplete_ends {s0 s : State} (h : Kept s0 s) :
    Ends s0 (execResealComplete s) := by
  unfold execResealComplete
  refine Ends.next ?_
  with_reducible repeat' first
    | exact h
    | refine State.put_kept ?_
    | refine State.each_kept ?_ (fun x a hx => ?_)
    | refine setSeal_kept ?_
    | refine clearEntry_kept ?_
    | refine settleLost_kept ?_
    | refine showLocked_kept ?_
    | refine rebuild_kept ?_
    | refine newEpoch_kept ?_
    | refine resealLeaf_kept ?_
    | refine Kept.ite ?_ ?_
    | assumption
    | (intro hx; clear_value x)
    | (intro x; refine Kept.cut (s := s0) (x := x) ?_ ?_)
    | (intro x; refine Kept.cut (s := s0) (x := x.1) ?_ ?_)
    | (intro x; clear_value x)
    | lift_lets -underBinder
    | split
    | refine Kept.of_fst (by assumption) ?_
    | (unfold x; split)
    | (refine Kept.upd ?_; first | assumption | refine State.put_kept ?_ | refine State.each_kept ?_ (fun x a hx => ?_) | refine setSeal_kept ?_ | refine clearEntry_kept ?_ | refine settleLost_kept ?_ | refine showLocked_kept ?_ | refine rebuild_kept ?_ | refine newEpoch_kept ?_ | refine resealLeaf_kept ?_ | refine Kept.ite ?_ ?_)

theorem execIdeKmMessage_ends {session : BitVec 32} {port : Fin 64} {stream : Fin 2} {op : Fin 3} {keySet : Fin 2} {containment : Bool} {key : BitVec 256} {s0 s : State} (h : Kept s0 s) :
    Ends s0 (execIdeKmMessage session port stream op keySet containment key s) := by
  unfold execIdeKmMessage
  refine Ends.next ?_
  with_reducible repeat' first
    | exact h
    | refine State.put_kept ?_
    | refine State.putB_kept ?_
    | refine State.send_kept ?_
    | refine setSeal_kept ?_
    | refine spdmError_kept ?_
    | refine Kept.ite ?_ ?_
    | refine Kept.ite_fst ?_ ?_
    | assumption
    | (intro hx; clear_value x)
    | (intro x; refine Kept.cut (s := s0) (x := x) ?_ ?_)
    | (intro x; refine Kept.cut (s := s0) (x := x.1) ?_ ?_)
    | (intro x; clear_value x)
    | lift_lets -underBinder
    | split
    | refine Kept.of_fst (by assumption) ?_
    | (unfold x; split)
    | (refine Kept.upd ?_; first | assumption | refine State.put_kept ?_ | refine State.putB_kept ?_ | refine State.send_kept ?_ | refine setSeal_kept ?_ | refine spdmError_kept ?_ | refine Kept.ite ?_ ?_)

theorem execIdeIntegrityFailure_ends {port : Fin 64} {stream : Fin 2} {s0 s : State} (h : Kept s0 s) :
    Ends s0 (execIdeIntegrityFailure port stream s) := by
  unfold execIdeIntegrityFailure
  refine Ends.next ?_
  with_reducible repeat' first
    | exact h
    | refine State.put_kept ?_
    | refine State.inc_kept ?_
    | refine sealEvent_kept ?_
    | refine Kept.ite ?_ ?_
    | split

end Sys2Proof.Machine
end

