-- ==== Sys2Proof/Laws/KeptRubrics.lean ====
section
/-! SUPPORT. What every step keeps, through the functions of Rubrics. -/

set_option linter.all false
set_option maxRecDepth 8000

namespace Sys2Proof.Machine

theorem syncLoader_kept {s0 s : State} (h : Kept s0 s) :
    Kept s0 (syncLoader s) := by
  unfold syncLoader
  with_reducible repeat' first
    | exact h
    | refine State.put_kept ?_
    | refine State.putB_kept ?_
    | refine State.each_kept ?_ (fun x a hx => ?_)
    | assumption
    | (intro hx; clear_value x)
    | (intro x; refine Kept.cut (s := s0) (x := x) ?_ ?_)
    | (intro x; refine Kept.cut (s := s0) (x := x.1) ?_ ?_)
    | (intro x; clear_value x)
    | lift_lets -underBinder
    | split
    | refine Kept.of_fst (by assumption) ?_
    | (unfold x; split)
    | (refine Kept.upd ?_; first | assumption | refine State.put_kept ?_ | refine State.putB_kept ?_ | refine State.each_kept ?_ (fun x a hx => ?_))

theorem setRubric_kept {h0 : Nat} {r : Rubric} {s0 s : State} (h : Kept s0 s) :
    Kept s0 (setRubric s h0 r) := by
  unfold setRubric
  with_reducible repeat' first
    | exact h
    | (refine Kept.upd ?_; first | assumption)

theorem haltCore_kept {k : Nat} {s0 s : State} (h : Kept s0 s) :
    Kept s0 (haltCore s k) := by
  unfold haltCore
  with_reducible repeat' first
    | exact h
    | refine modCore_kept ?_
    | assumption

theorem setTargets_kept {r : Rubric} {k : Nat} {s0 s : State} (h : Kept s0 s) :
    Kept s0 (setTargets s r k) := by
  unfold setTargets
  with_reducible repeat' first
    | exact h
    | refine State.put_kept ?_
    | refine State.each_kept ?_ (fun x a hx => ?_)
    | refine Kept.ite ?_ ?_
    | assumption
    | (intro hx; clear_value x)
    | (intro x; refine Kept.cut (s := s0) (x := x) ?_ ?_)
    | (intro x; refine Kept.cut (s := s0) (x := x.1) ?_ ?_)
    | (intro x; clear_value x)
    | lift_lets -underBinder
    | split

theorem seat_kept {k : Nat} {r : Rubric} {state : Nat} {s0 s : State} (h : Kept s0 s) :
    Kept s0 (seat s k r state) := by
  unfold seat
  with_reducible repeat' first
    | exact h
    | refine State.put_kept ?_
    | refine setTargets_kept ?_
    | assumption
    | (intro hx; clear_value x)
    | (intro x; refine Kept.cut (s := s0) (x := x) ?_ ?_)
    | (intro x; refine Kept.cut (s := s0) (x := x.1) ?_ ?_)
    | (intro x; clear_value x)
    | lift_lets -underBinder

theorem armEpochSlot_kept {s0 s : State} (h : Kept s0 s) :
    Kept s0 (armEpochSlot s) := by
  unfold armEpochSlot
  with_reducible repeat' first
    | exact h
    | refine State.put_kept ?_
    | refine noteArm_kept ?_
    | assumption
    | (intro hx; clear_value x)
    | (intro x; refine Kept.cut (s := s0) (x := x) ?_ ?_)
    | (intro x; refine Kept.cut (s := s0) (x := x.1) ?_ ?_)
    | (intro x; clear_value x)
    | lift_lets -underBinder

theorem startRubric_kept {k : Nat} {h0 : Nat} {s0 s : State} (h : Kept s0 s) :
    Kept s0 (startRubric s k h0) := by
  unfold startRubric
  with_reducible repeat' first
    | exact h
    | refine State.put_kept ?_
    | refine setCore_kept ?_
    | refine syncLoader_kept ?_
    | refine setRubric_kept ?_
    | refine seat_kept ?_
    | refine armEpochSlot_kept ?_
    | refine Kept.ite ?_ ?_
    | assumption
    | (intro hx; clear_value x)
    | (intro x; refine Kept.cut (s := s0) (x := x) ?_ ?_)
    | (intro x; refine Kept.cut (s := s0) (x := x.1) ?_ ?_)
    | (intro x; clear_value x)
    | lift_lets -underBinder
    | split
    | refine Kept.of_fst (by assumption) ?_
    | (unfold x; split)
    | (refine Kept.upd ?_; first | assumption | refine State.put_kept ?_ | refine setCore_kept ?_ | refine syncLoader_kept ?_ | refine setRubric_kept ?_ | refine seat_kept ?_ | refine armEpochSlot_kept ?_ | refine Kept.ite ?_ ?_)

theorem unseat_kept {k : Nat} {s0 s : State} (h : Kept s0 s) :
    Kept s0 (unseat s k) := by
  unfold unseat
  with_reducible repeat' first
    | exact h
    | refine State.put_kept ?_
    | refine haltCore_kept ?_
    | refine Kept.ite ?_ ?_
    | assumption
    | (intro hx; clear_value x)
    | (intro x; refine Kept.cut (s := s0) (x := x) ?_ ?_)
    | (intro x; refine Kept.cut (s := s0) (x := x.1) ?_ ?_)
    | (intro x; clear_value x)
    | lift_lets -underBinder
    | split

theorem dropRubric_kept {h0 : Nat} {s0 s : State} (h : Kept s0 s) :
    Kept s0 (dropRubric s h0) := by
  unfold dropRubric
  with_reducible repeat' first
    | exact h
    | refine syncLoader_kept ?_
    | refine unseat_kept ?_
    | assumption
    | (intro hx; clear_value x)
    | (intro x; refine Kept.cut (s := s0) (x := x) ?_ ?_)
    | (intro x; refine Kept.cut (s := s0) (x := x.1) ?_ ?_)
    | (intro x; clear_value x)
    | lift_lets -underBinder
    | split
    | refine Kept.of_fst (by assumption) ?_
    | (unfold x; split)
    | (refine Kept.upd ?_; first | assumption | refine syncLoader_kept ?_ | refine unseat_kept ?_)

theorem tellMoved_kept {h0 : Nat} {k : Nat} {s0 s : State} (h : Kept s0 s) :
    Kept s0 (tellMoved s h0 k) := by
  unfold tellMoved
  with_reducible repeat' first
    | exact h
    | refine postEvent_kept ?_
    | assumption
    | split
    | refine Kept.of_fst (by assumption) ?_

theorem loadBase_kept {role : Nat} {k : Nat} {s0 s : State} (h : Kept s0 s) :
    Kept s0 (loadBase s role k) := by
  unfold loadBase
  with_reducible repeat' first
    | exact h
    | refine setRubric_kept ?_
    | refine startRubric_kept ?_
    | assumption
    | (intro hx; clear_value x)
    | (intro x; refine Kept.cut (s := s0) (x := x) ?_ ?_)
    | (intro x; refine Kept.cut (s := s0) (x := x.1) ?_ ?_)
    | (intro x; clear_value x)
    | lift_lets -underBinder
    | split
    | refine Kept.of_fst (by assumption) ?_
    | (unfold x; split)
    | (refine Kept.upd ?_; first | assumption | refine setRubric_kept ?_ | refine startRubric_kept ?_)

theorem stopRubric_kept {h0 : Nat} {s0 s : State} (h : Kept s0 s) :
    Kept s0 (stopRubric s h0) := by
  unfold stopRubric
  with_reducible repeat' first
    | exact h
    | refine event_kept ?_
    | refine dropRubric_kept ?_
    | refine loadBase_kept ?_
    | refine Kept.ite ?_ ?_
    | assumption
    | (intro hx; clear_value x)
    | (intro x; refine Kept.cut (s := s0) (x := x) ?_ ?_)
    | (intro x; refine Kept.cut (s := s0) (x := x.1) ?_ ?_)
    | (intro x; clear_value x)
    | lift_lets -underBinder
    | split
    | refine Kept.of_fst (by assumption) ?_
    | (unfold x; split)

theorem restartRubric_kept {h0 : Nat} {s0 s : State} (h : Kept s0 s) :
    Kept s0 (restartRubric s h0) := by
  unfold restartRubric
  with_reducible repeat' first
    | exact h
    | refine setRubric_kept ?_
    | refine startRubric_kept ?_
    | refine tellMoved_kept ?_
    | refine stopRubric_kept ?_
    | refine Kept.ite ?_ ?_
    | assumption
    | (intro hx; clear_value x)
    | (intro x; refine Kept.cut (s := s0) (x := x) ?_ ?_)
    | (intro x; refine Kept.cut (s := s0) (x := x.1) ?_ ?_)
    | (intro x; clear_value x)
    | lift_lets -underBinder
    | split
    | refine Kept.of_fst (by assumption) ?_
    | (unfold x; split)
    | (refine Kept.upd ?_; first | assumption | refine setRubric_kept ?_ | refine startRubric_kept ?_ | refine tellMoved_kept ?_ | refine stopRubric_kept ?_ | refine Kept.ite ?_ ?_)

theorem endScribe_kept {k : Nat} {cause : Nat} {pc : BitVec 64} {faddr : BitVec 64} {s0 s : State} (h : Kept s0 s) :
    Kept s0 (endScribe s k cause pc faddr) := by
  unfold endScribe
  with_reducible repeat' first
    | exact h
    | refine State.put_kept ?_
    | refine report_kept ?_
    | refine restartRubric_kept ?_
    | refine Kept.ite ?_ ?_
    | assumption
    | (intro hx; clear_value x)
    | (intro x; refine Kept.cut (s := s0) (x := x) ?_ ?_)
    | (intro x; refine Kept.cut (s := s0) (x := x.1) ?_ ?_)
    | (intro x; clear_value x)
    | lift_lets -underBinder
    | split

theorem scribeFault_kept {k : Nat} {s0 s : State} (h : Kept s0 s) :
    Kept s0 (scribeFault s k) := by
  unfold scribeFault
  with_reducible repeat' first
    | exact h
    | refine State.put_kept ?_
    | refine event_kept ?_
    | refine syncLoader_kept ?_
    | refine haltCore_kept ?_
    | refine seat_kept ?_
    | refine unseat_kept ?_
    | refine stopRubric_kept ?_
    | refine Kept.ite ?_ ?_
    | refine Kept.ite_fst ?_ ?_
    | assumption
    | (intro hx; clear_value x)
    | (intro x; refine Kept.cut (s := s0) (x := x) ?_ ?_)
    | (intro x; refine Kept.cut (s := s0) (x := x.1) ?_ ?_)
    | (intro x; clear_value x)
    | lift_lets -underBinder
    | split
    | refine Kept.of_fst (by assumption) ?_
    | (unfold x; split)
    | (refine Kept.upd ?_; first | assumption | refine State.put_kept ?_ | refine event_kept ?_ | refine syncLoader_kept ?_ | refine haltCore_kept ?_ | refine seat_kept ?_ | refine unseat_kept ?_ | refine stopRubric_kept ?_ | refine Kept.ite ?_ ?_)

theorem execHeartbeatCheck_ends {s0 s : State} (h : Kept s0 s) :
    Ends s0 (execHeartbeatCheck s) := by
  unfold execHeartbeatCheck
  refine Ends.next ?_
  with_reducible repeat' first
    | exact h
    | refine State.each_kept ?_ (fun x a hx => ?_)
    | refine event_kept ?_
    | refine setRubric_kept ?_
    | refine restartRubric_kept ?_
    | refine Kept.ite ?_ ?_
    | assumption
    | (intro hx; clear_value x)
    | (intro x; refine Kept.cut (s := s0) (x := x) ?_ ?_)
    | (intro x; refine Kept.cut (s := s0) (x := x.1) ?_ ?_)
    | (intro x; clear_value x)
    | lift_lets -underBinder
    | split
    | refine Kept.of_fst (by assumption) ?_
    | (unfold x; split)
    | (refine Kept.upd ?_; first | assumption | refine State.each_kept ?_ (fun x a hx => ?_) | refine event_kept ?_ | refine setRubric_kept ?_ | refine restartRubric_kept ?_ | refine Kept.ite ?_ ?_)

theorem execScribeFault_ends {scribe : Fin 8} {s0 s : State} (h : Kept s0 s) :
    Ends s0 (execScribeFault scribe s) := by
  unfold execScribeFault
  refine Ends.next ?_
  with_reducible repeat' first
    | exact h
    | refine scribeFault_kept ?_

theorem execTakeoverCopyComplete_ends {s0 s : State} (h : Kept s0 s) :
    Ends s0 (execTakeoverCopyComplete s) := by
  unfold execTakeoverCopyComplete
  refine Ends.next ?_
  with_reducible repeat' first
    | exact h
    | refine startRubric_kept ?_
    | refine tellMoved_kept ?_
    | split
    | refine Kept.of_fst (by assumption) ?_
    | (refine Kept.upd ?_; first | assumption | refine startRubric_kept ?_ | refine tellMoved_kept ?_)

theorem execRubricHandover_ends {s0 s : State} (h : Kept s0 s) :
    Ends s0 (execRubricHandover s) := by
  unfold execRubricHandover
  refine Ends.next ?_
  with_reducible repeat' first
    | exact h
    | refine State.each_kept ?_ (fun x a hx => ?_)
    | refine setRubric_kept ?_
    | refine startRubric_kept ?_
    | refine dropRubric_kept ?_
    | refine Kept.ite ?_ ?_
    | assumption
    | (intro hx; clear_value x)
    | (intro x; refine Kept.cut (s := s0) (x := x) ?_ ?_)
    | (intro x; refine Kept.cut (s := s0) (x := x.1) ?_ ?_)
    | (intro x; clear_value x)
    | lift_lets -underBinder
    | split
    | refine Kept.of_fst (by assumption) ?_
    | (unfold x; split)
    | (refine Kept.upd ?_; first | assumption | refine State.each_kept ?_ (fun x a hx => ?_) | refine setRubric_kept ?_ | refine startRubric_kept ?_ | refine dropRubric_kept ?_ | refine Kept.ite ?_ ?_)

theorem execLoadSessionExpiry_ends {s0 s : State} (h : Kept s0 s) :
    Ends s0 (execLoadSessionExpiry s) := by
  unfold execLoadSessionExpiry
  refine Ends.next ?_
  with_reducible repeat' first
    | exact h
    | assumption
    | split
    | refine Kept.of_fst (by assumption) ?_
    | (refine Kept.upd ?_; first | assumption)

end Sys2Proof.Machine
end

