-- ==== Sys2Proof/Laws/KeptMailbox.lean ====
section
/-! SUPPORT. What every step keeps, through the functions of Mailbox. -/

set_option linter.all false
set_option maxRecDepth 8000

namespace Sys2Proof.Machine

theorem setBox_kept {n : Nat} {b : Mailbox} {s0 s : State} (h : Kept s0 s) :
    Kept s0 (setBox s n b) := by
  unfold setBox
  with_reducible repeat' first
    | exact h
    | (refine Kept.upd ?_; first | assumption)

theorem boxPut_kept {n : Nat} {off : Nat} {l : List (BitVec 8)} {s0 s : State} (h : Kept s0 s) :
    Kept s0 (boxPut s n off l) := by
  unfold boxPut
  with_reducible repeat' first
    | exact h
    | refine State.put_kept ?_
    | refine setBox_kept ?_
    | refine foldl_kept ?_ fun x a hx => ?_
    | refine foldl_kept_fst ?_ fun x a hx => ?_
    | assumption
    | (intro hx; clear_value x)
    | (intro x; refine Kept.cut (s := s0) (x := x) ?_ ?_)
    | (intro x; refine Kept.cut (s := s0) (x := x.1) ?_ ?_)
    | (intro x; clear_value x)
    | lift_lets -underBinder
    | split
    | refine Kept.of_fst (by assumption) ?_
    | (refine Kept.upd ?_; first | assumption | refine State.put_kept ?_ | refine setBox_kept ?_)

theorem completeBox_kept {n : Nat} {s0 s : State} (h : Kept s0 s) :
    Kept s0 (completeBox s n) := by
  unfold completeBox
  with_reducible repeat' first
    | exact h
    | refine State.put_kept ?_
    | refine State.send_kept ?_
    | refine setBox_kept ?_
    | refine Kept.ite ?_ ?_
    | assumption
    | (intro hx; clear_value x)
    | (intro x; refine Kept.cut (s := s0) (x := x) ?_ ?_)
    | (intro x; refine Kept.cut (s := s0) (x := x.1) ?_ ?_)
    | (intro x; clear_value x)
    | lift_lets -underBinder
    | split
    | (refine Kept.upd ?_; first | assumption | refine State.put_kept ?_ | refine State.send_kept ?_ | refine setBox_kept ?_ | refine Kept.ite ?_ ?_)

theorem finish_kept {n : Nat} {ret : Nat} {detail : Nat} {resp : List (BitVec 8)} {s0 s : State} (h : Kept s0 s) :
    Kept s0 (finish s n ret detail resp) := by
  unfold finish
  with_reducible repeat' first
    | exact h
    | refine boxPut_kept ?_
    | refine completeBox_kept ?_
    | assumption
    | (intro hx; clear_value x)
    | (intro x; refine Kept.cut (s := s0) (x := x) ?_ ?_)
    | (intro x; refine Kept.cut (s := s0) (x := x.1) ?_ ?_)
    | (intro x; clear_value x)
    | lift_lets -underBinder

theorem asyncPost_kept {owner : Nat} {type : Nat} {source : Nat} {data : List (BitVec 8)} {s0 s : State} (h : Kept s0 s) :
    Kept s0 (asyncPost s owner type source data).1 := by
  unfold asyncPost
  with_reducible repeat' first
    | exact h
    | refine State.send_kept ?_
    | refine State.timed_kept ?_
    | refine setBox_kept ?_
    | refine boxPut_kept ?_
    | refine Kept.ite ?_ ?_
    | refine Kept.ite_fst ?_ ?_
    | assumption
    | (intro hx; clear_value x)
    | (intro x; refine Kept.cut (s := s0) (x := x) ?_ ?_)
    | (intro x; refine Kept.cut (s := s0) (x := x.1) ?_ ?_)
    | (intro x; clear_value x)
    | lift_lets -underBinder
    | split
    | (refine Kept.upd ?_; first | assumption | refine State.send_kept ?_ | refine State.timed_kept ?_ | refine setBox_kept ?_ | refine boxPut_kept ?_ | refine Kept.ite ?_ ?_)

theorem submitBox_kept {n : Nat} {s0 s : State} (h : Kept s0 s) :
    Kept s0 (submitBox s n) := by
  unfold submitBox
  with_reducible repeat' first
    | exact h
    | refine postEvent_kept ?_
    | refine setBox_kept ?_
    | refine finish_kept ?_
    | refine Kept.ite ?_ ?_
    | assumption
    | (intro hx; clear_value x)
    | (intro x; refine Kept.cut (s := s0) (x := x) ?_ ?_)
    | (intro x; refine Kept.cut (s := s0) (x := x.1) ?_ ?_)
    | (intro x; clear_value x)
    | lift_lets -underBinder
    | split
    | refine Kept.of_fst (by assumption) ?_
    | (unfold x; split)
    | (refine Kept.upd ?_; first | assumption | refine postEvent_kept ?_ | refine setBox_kept ?_ | refine finish_kept ?_ | refine Kept.ite ?_ ?_)

theorem execMailboxDoorbell_ends {mailbox : Fin 4096} {value : BitVec 32} {s0 s : State} (h : Kept s0 s) :
    Ends s0 (execMailboxDoorbell mailbox value s) := by
  unfold execMailboxDoorbell
  refine Ends.next ?_
  with_reducible repeat' first
    | exact h
    | refine linkActivity_kept ?_
    | refine boxPut_kept ?_
    | refine submitBox_kept ?_
    | refine Kept.ite ?_ ?_
    | assumption
    | (intro hx; clear_value x)
    | (intro x; refine Kept.cut (s := s0) (x := x) ?_ ?_)
    | (intro x; refine Kept.cut (s := s0) (x := x.1) ?_ ?_)
    | (intro x; clear_value x)
    | lift_lets -underBinder
    | split

theorem execMailboxAreaWrite_ends {mailbox : Fin 4096} {offset : BitVec 16} {bytes : List (BitVec 8)} {s0 s : State} (h : Kept s0 s) :
    Ends s0 (execMailboxAreaWrite mailbox offset bytes s) := by
  unfold execMailboxAreaWrite
  refine Ends.next ?_
  with_reducible repeat' first
    | exact h
    | refine notice_kept ?_
    | refine linkActivity_kept ?_
    | refine boxPut_kept ?_
    | refine Kept.ite ?_ ?_
    | assumption
    | (intro hx; clear_value x)
    | (intro x; refine Kept.cut (s := s0) (x := x) ?_ ?_)
    | (intro x; refine Kept.cut (s := s0) (x := x.1) ?_ ?_)
    | (intro x; clear_value x)
    | lift_lets -underBinder
    | split

theorem execMailboxTimeout_ends {mailbox : Fin 4096} {s0 s : State} (h : Kept s0 s) :
    Ends s0 (execMailboxTimeout mailbox s) := by
  unfold execMailboxTimeout
  refine Ends.next ?_
  with_reducible repeat' first
    | exact h
    | refine finish_kept ?_
    | refine Kept.ite ?_ ?_
    | split
    | refine Kept.of_fst (by assumption) ?_

theorem writeMbxComplete_kept {v : BitVec 64} {s0 s : State} (h : Kept s0 s) :
    Kept s0 (writeMbxComplete s v) := by
  unfold writeMbxComplete
  with_reducible repeat' first
    | exact h
    | refine completeBox_kept ?_
    | refine Kept.ite ?_ ?_
    | assumption
    | split

theorem execMbxComplete_ends {value : BitVec 64} {s0 s : State} (h : Kept s0 s) :
    Ends s0 (execMbxComplete value s) := by
  unfold execMbxComplete
  refine Ends.next ?_
  with_reducible repeat' first
    | exact h
    | refine writeMbxComplete_kept ?_
    | assumption

theorem serve_kept {n : Nat} {op : Nat} {ready : Bool} {f : State → List (BitVec 8) → State × Served} {s0 s : State} (h_f : ∀ x a0, Kept s0 x → Kept s0 (f x a0).1) (h : Kept s0 s) :
    Kept s0 (serve s n op ready f) := by
  unfold serve
  with_reducible repeat' first
    | exact h
    | refine h_f _ _ ?_
    | refine finish_kept ?_
    | refine Kept.ite ?_ ?_
    | refine Kept.ite_fst ?_ ?_
    | assumption
    | (intro hx; clear_value x)
    | (intro x; refine Kept.cut (s := s0) (x := x) ?_ ?_)
    | (intro x; refine Kept.cut (s := s0) (x := x.1) ?_ ?_)
    | (intro x; clear_value x)
    | lift_lets -underBinder
    | split
    | refine Kept.of_fst (by assumption) ?_

theorem execGetInfo_ends {mailbox : Fin 4096} {s0 s : State} (h : Kept s0 s) :
    Ends s0 (execGetInfo mailbox s) := by
  unfold execGetInfo
  refine Ends.next ?_
  with_reducible repeat' first
    | exact h
    | refine serve_kept (fun x a0 hx => ?_) ?_
    | assumption
    | (intro hx; clear_value x)
    | (intro x; refine Kept.cut (s := s0) (x := x) ?_ ?_)
    | (intro x; refine Kept.cut (s := s0) (x := x.1) ?_ ?_)
    | (intro x; clear_value x)
    | lift_lets -underBinder

theorem execRubricList_ends {mailbox : Fin 4096} {s0 s : State} (h : Kept s0 s) :
    Ends s0 (execRubricList mailbox s) := by
  unfold execRubricList
  refine Ends.next ?_
  with_reducible repeat' first
    | exact h
    | refine serve_kept (fun x a0 hx => ?_) ?_
    | assumption
    | (intro hx; clear_value x)
    | (intro x; refine Kept.cut (s := s0) (x := x) ?_ ?_)
    | (intro x; refine Kept.cut (s := s0) (x := x.1) ?_ ?_)
    | (intro x; clear_value x)
    | lift_lets -underBinder

theorem openSession_kept {kernel : Bool} {length : Nat} {s0 s : State} (h : Kept s0 s) :
    Kept s0 (openSession s kernel length).1 := by
  unfold openSession
  with_reducible repeat' first
    | exact h
    | refine State.drew_kept ?_
    | assumption
    | (intro hx; clear_value x)
    | (intro x; refine Kept.cut (s := s0) (x := x) ?_ ?_)
    | (intro x; refine Kept.cut (s := s0) (x := x.1) ?_ ?_)
    | (intro x; clear_value x)
    | lift_lets -underBinder
    | (refine Kept.upd ?_; first | assumption | refine State.drew_kept ?_)

theorem loadBegin_kept {kernel : Bool} {p : List (BitVec 8)} {s0 s : State} (h : Kept s0 s) :
    Kept s0 (loadBegin kernel s p).1 := by
  unfold loadBegin
  with_reducible repeat' first
    | exact h
    | refine openSession_kept ?_
    | refine Kept.ite ?_ ?_
    | refine Kept.ite_fst ?_ ?_
    | assumption
    | (intro hx; clear_value x)
    | (intro x; refine Kept.cut (s := s0) (x := x) ?_ ?_)
    | (intro x; refine Kept.cut (s := s0) (x := x.1) ?_ ?_)
    | (intro x; clear_value x)
    | lift_lets -underBinder
    | split
    | refine Kept.of_fst (by assumption) ?_

theorem loadChunk_kept {kernel : Bool} {p : List (BitVec 8)} {s0 s : State} (h : Kept s0 s) :
    Kept s0 (loadChunk kernel s p).1 := by
  unfold loadChunk
  with_reducible repeat' first
    | exact h
    | refine Kept.ite ?_ ?_
    | refine Kept.ite_fst ?_ ?_
    | assumption
    | (intro hx; clear_value x)
    | (intro x; refine Kept.cut (s := s0) (x := x) ?_ ?_)
    | (intro x; refine Kept.cut (s := s0) (x := x.1) ?_ ?_)
    | (intro x; clear_value x)
    | lift_lets -underBinder
    | split
    | refine Kept.of_fst (by assumption) ?_
    | (unfold x; split)
    | (refine Kept.upd ?_; first | assumption | refine Kept.ite ?_ ?_)

theorem closeSession_kept {id : Nat} {s0 s : State} (h : Kept s0 s) :
    Kept s0 (closeSession s id) := by
  unfold closeSession
  with_reducible repeat' first
    | exact h
    | (refine Kept.upd ?_; first | assumption)

theorem loadCommit_kept {p : List (BitVec 8)} {s0 s : State} (h : Kept s0 s) :
    Kept s0 (loadCommit s p).1 := by
  unfold loadCommit
  with_reducible repeat' first
    | exact h
    | refine event_kept ?_
    | refine syncLoader_kept ?_
    | refine setRubric_kept ?_
    | refine startRubric_kept ?_
    | refine closeSession_kept ?_
    | refine Kept.ite ?_ ?_
    | refine Kept.ite_fst ?_ ?_
    | assumption
    | (intro hx; clear_value x)
    | (intro x; refine Kept.cut (s := s0) (x := x) ?_ ?_)
    | (intro x; refine Kept.cut (s := s0) (x := x.1) ?_ ?_)
    | (intro x; clear_value x)
    | lift_lets -underBinder
    | split
    | refine Kept.of_fst (by assumption) ?_
    | (unfold x; split)
    | (refine Kept.upd ?_; first | assumption | refine event_kept ?_ | refine syncLoader_kept ?_ | refine setRubric_kept ?_ | refine startRubric_kept ?_ | refine closeSession_kept ?_ | refine Kept.ite ?_ ?_ | (refine Kept.upd ?_; first | assumption | refine event_kept ?_ | refine syncLoader_kept ?_ | refine setRubric_kept ?_ | refine startRubric_kept ?_ | refine closeSession_kept ?_))

theorem execRubricLoadBegin_ends {mailbox : Fin 4096} {s0 s : State} (h : Kept s0 s) :
    Ends s0 (execRubricLoadBegin mailbox s) := by
  unfold execRubricLoadBegin
  refine Ends.next ?_
  with_reducible repeat' first
    | exact h
    | refine serve_kept (fun x a0 hx => ?_) ?_
    | refine loadBegin_kept ?_
    | refine Kept.ite ?_ ?_
    | assumption
    | (intro hx; clear_value x)
    | (intro x; refine Kept.cut (s := s0) (x := x) ?_ ?_)
    | (intro x; refine Kept.cut (s := s0) (x := x.1) ?_ ?_)
    | (intro x; clear_value x)
    | lift_lets -underBinder
    | split
    | refine Kept.of_fst (by assumption) ?_
    | refine Kept.of_snd (by assumption) ?_
    | (unfold x; split)

theorem execRubricLoadChunk_ends {mailbox : Fin 4096} {s0 s : State} (h : Kept s0 s) :
    Ends s0 (execRubricLoadChunk mailbox s) := by
  unfold execRubricLoadChunk
  refine Ends.next ?_
  with_reducible repeat' first
    | exact h
    | refine serve_kept (fun x a0 hx => ?_) ?_
    | refine loadChunk_kept ?_
    | refine Kept.ite ?_ ?_
    | assumption
    | (intro hx; clear_value x)
    | (intro x; refine Kept.cut (s := s0) (x := x) ?_ ?_)
    | (intro x; refine Kept.cut (s := s0) (x := x.1) ?_ ?_)
    | (intro x; clear_value x)
    | lift_lets -underBinder
    | split
    | refine Kept.of_fst (by assumption) ?_
    | refine Kept.of_snd (by assumption) ?_
    | (unfold x; split)

theorem execRubricLoadCommit_ends {mailbox : Fin 4096} {s0 s : State} (h : Kept s0 s) :
    Ends s0 (execRubricLoadCommit mailbox s) := by
  unfold execRubricLoadCommit
  refine Ends.next ?_
  with_reducible repeat' first
    | exact h
    | refine serve_kept (fun x a0 hx => ?_) ?_
    | refine loadCommit_kept ?_
    | refine Kept.ite ?_ ?_
    | assumption
    | (intro hx; clear_value x)
    | (intro x; refine Kept.cut (s := s0) (x := x) ?_ ?_)
    | (intro x; refine Kept.cut (s := s0) (x := x.1) ?_ ?_)
    | (intro x; clear_value x)
    | lift_lets -underBinder
    | split
    | refine Kept.of_fst (by assumption) ?_
    | refine Kept.of_snd (by assumption) ?_
    | (unfold x; split)

theorem execRubricStop_ends {mailbox : Fin 4096} {s0 s : State} (h : Kept s0 s) :
    Ends s0 (execRubricStop mailbox s) := by
  unfold execRubricStop
  refine Ends.next ?_
  with_reducible repeat' first
    | exact h
    | refine dropRubric_kept ?_
    | refine stopRubric_kept ?_
    | refine serve_kept (fun x a0 hx => ?_) ?_
    | refine Kept.ite ?_ ?_
    | refine Kept.ite_fst ?_ ?_
    | assumption
    | (intro hx; clear_value x)
    | (intro x; refine Kept.cut (s := s0) (x := x) ?_ ?_)
    | (intro x; refine Kept.cut (s := s0) (x := x.1) ?_ ?_)
    | (intro x; clear_value x)
    | lift_lets -underBinder
    | split
    | refine Kept.of_fst (by assumption) ?_
    | (unfold x; split)

theorem execRubricRestoreBase_ends {mailbox : Fin 4096} {s0 s : State} (h : Kept s0 s) :
    Ends s0 (execRubricRestoreBase mailbox s) := by
  unfold execRubricRestoreBase
  refine Ends.next ?_
  with_reducible repeat' first
    | exact h
    | refine dropRubric_kept ?_
    | refine loadBase_kept ?_
    | refine serve_kept (fun x a0 hx => ?_) ?_
    | refine Kept.ite ?_ ?_
    | refine Kept.ite_fst ?_ ?_
    | assumption
    | (intro hx; clear_value x)
    | (intro x; refine Kept.cut (s := s0) (x := x) ?_ ?_)
    | (intro x; refine Kept.cut (s := s0) (x := x.1) ?_ ?_)
    | (intro x; clear_value x)
    | lift_lets -underBinder
    | split
    | refine Kept.of_fst (by assumption) ?_
    | (unfold x; split)
    | (refine Kept.upd ?_; first | assumption | refine dropRubric_kept ?_ | refine loadBase_kept ?_ | refine serve_kept (fun x a0 hx => ?_) ?_ | refine Kept.ite ?_ ?_)

theorem toInbox_kept {h0 : Nat} {m : Message} {s0 s : State} (h : Kept s0 s) :
    Kept s0 (toInbox s h0 m).1 := by
  unfold toInbox
  with_reducible repeat' first
    | exact h
    | refine postEvent_kept ?_
    | refine setRubric_kept ?_
    | refine Kept.ite ?_ ?_
    | refine Kept.ite_fst ?_ ?_
    | assumption
    | (intro hx; clear_value x)
    | (intro x; refine Kept.cut (s := s0) (x := x) ?_ ?_)
    | (intro x; refine Kept.cut (s := s0) (x := x.1) ?_ ?_)
    | (intro x; clear_value x)
    | lift_lets -underBinder
    | split
    | refine Kept.of_fst (by assumption) ?_
    | (unfold x; split)
    | (refine Kept.upd ?_; first | assumption | refine postEvent_kept ?_ | refine setRubric_kept ?_ | refine Kept.ite ?_ ?_)

theorem execRubricMessage_ends {mailbox : Fin 4096} {s0 s : State} (h : Kept s0 s) :
    Ends s0 (execRubricMessage mailbox s) := by
  unfold execRubricMessage
  refine Ends.next ?_
  with_reducible repeat' first
    | exact h
    | refine State.drew_kept ?_
    | refine setBox_kept ?_
    | refine finish_kept ?_
    | refine toInbox_kept ?_
    | refine Kept.ite ?_ ?_
    | refine Kept.ite_fst ?_ ?_
    | assumption
    | (intro hx; clear_value x)
    | (intro x; refine Kept.cut (s := s0) (x := x) ?_ ?_)
    | (intro x; refine Kept.cut (s := s0) (x := x.1) ?_ ?_)
    | (intro x; clear_value x)
    | lift_lets -underBinder
    | split
    | refine Kept.of_fst (by assumption) ?_
    | (unfold x; split)
    | (refine Kept.upd ?_; first | assumption | refine State.drew_kept ?_ | refine setBox_kept ?_ | refine finish_kept ?_ | refine toInbox_kept ?_ | refine Kept.ite ?_ ?_)

theorem replyTo_kept {t : Nat} {body : List (BitVec 8)} {s0 s : State} (h : Kept s0 s) :
    Kept s0 (replyTo s t body).1 := by
  unfold replyTo
  with_reducible repeat' first
    | exact h
    | refine finish_kept ?_
    | assumption
    | split
    | refine Kept.of_fst (by assumption) ?_

theorem execGetEventRecords_ends {mailbox : Fin 4096} {s0 s : State} (h : Kept s0 s) :
    Ends s0 (execGetEventRecords mailbox s) := by
  unfold execGetEventRecords
  refine Ends.next ?_
  with_reducible repeat' first
    | exact h
    | refine State.each_kept ?_ (fun x a hx => ?_)
    | refine event_kept ?_
    | refine serve_kept (fun x a0 hx => ?_) ?_
    | refine Kept.ite ?_ ?_
    | refine Kept.ite_fst ?_ ?_
    | assumption
    | (intro hx; clear_value x)
    | (intro x; refine Kept.cut (s := s0) (x := x) ?_ ?_)
    | (intro x; refine Kept.cut (s := s0) (x := x.1) ?_ ?_)
    | (intro x; clear_value x)
    | lift_lets -underBinder
    | split

theorem execPinRange_ends {mailbox : Fin 4096} {s0 s : State} (h : Kept s0 s) :
    Ends s0 (execPinRange mailbox s) := by
  unfold execPinRange
  refine Ends.next ?_
  with_reducible repeat' first
    | exact h
    | refine pinLeaf_kept ?_
    | refine serve_kept (fun x a0 hx => ?_) ?_
    | refine Kept.ite ?_ ?_
    | refine Kept.ite_fst ?_ ?_
    | refine foldl_kept ?_ fun x a hx => ?_
    | refine foldl_kept_fst ?_ fun x a hx => ?_
    | assumption
    | (intro hx; clear_value x)
    | (intro x; refine Kept.cut (s := s0) (x := x) ?_ ?_)
    | (intro x; refine Kept.cut (s := s0) (x := x.1) ?_ ?_)
    | (intro x; clear_value x)
    | lift_lets -underBinder
    | split
    | refine Kept.of_fst (by assumption) ?_

theorem execResealGetChallenge_ends {mailbox : Fin 4096} {s0 s : State} (h : Kept s0 s) :
    Ends s0 (execResealGetChallenge mailbox s) := by
  unfold execResealGetChallenge
  refine Ends.next ?_
  with_reducible repeat' first
    | exact h
    | refine serve_kept (fun x a0 hx => ?_) ?_
    | refine Kept.ite ?_ ?_
    | refine Kept.ite_fst ?_ ?_
    | assumption
    | split

theorem execResealSubmit_ends {mailbox : Fin 4096} {s0 s : State} (h : Kept s0 s) :
    Ends s0 (execResealSubmit mailbox s) := by
  unfold execResealSubmit
  refine Ends.next ?_
  with_reducible repeat' first
    | exact h
    | refine setSeal_kept ?_
    | refine writeResealCmd_kept ?_
    | refine serve_kept (fun x a0 hx => ?_) ?_
    | refine Kept.ite ?_ ?_
    | refine Kept.ite_fst ?_ ?_
    | assumption
    | (intro hx; clear_value x)
    | (intro x; refine Kept.cut (s := s0) (x := x) ?_ ?_)
    | (intro x; refine Kept.cut (s := s0) (x := x.1) ?_ ?_)
    | (intro x; clear_value x)
    | lift_lets -underBinder
    | split
    | (refine Kept.upd ?_; first | assumption | refine setSeal_kept ?_ | refine writeResealCmd_kept ?_ | refine serve_kept (fun x a0 hx => ?_) ?_ | refine Kept.ite ?_ ?_)

theorem execAccountRequest_ends {mailbox : Fin 4096} {s0 s : State} (h : Kept s0 s) :
    Ends s0 (execAccountRequest mailbox s) := by
  unfold execAccountRequest
  refine Ends.next ?_
  with_reducible repeat' first
    | exact h
    | refine admitAccount_kept ?_
    | refine serve_kept (fun x a0 hx => ?_) ?_
    | refine Kept.ite ?_ ?_
    | refine Kept.ite_fst ?_ ?_
    | assumption
    | (intro hx; clear_value x)
    | (intro x; refine Kept.cut (s := s0) (x := x) ?_ ?_)
    | (intro x; refine Kept.cut (s := s0) (x := x.1) ?_ ?_)
    | (intro x; clear_value x)
    | lift_lets -underBinder
    | split
    | refine Kept.of_fst (by assumption) ?_

theorem growSpread_kept {a : Nat} {s0 s : State} (h : Kept s0 s) :
    Kept s0 (growSpread s a) := by
  unfold growSpread
  with_reducible repeat' first
    | exact h
    | refine writeSpread_kept ?_
    | assumption
    | (intro hx; clear_value x)
    | (intro x; refine Kept.cut (s := s0) (x := x) ?_ ?_)
    | (intro x; refine Kept.cut (s := s0) (x := x.1) ?_ ?_)
    | (intro x; clear_value x)
    | lift_lets -underBinder
    | split
    | refine Kept.of_fst (by assumption) ?_
    | (unfold x; split)

theorem reducedRubric_kept {a : Nat} {s0 s : State} (h : Kept s0 s) :
    Kept s0 (reducedRubric s a) := by
  unfold reducedRubric
  with_reducible repeat' first
    | exact h
    | refine State.drew_kept ?_
    | refine State.each_kept ?_ (fun x a hx => ?_)
    | refine asyncPost_kept ?_
    | refine growSpread_kept ?_
    | assumption
    | (intro hx; clear_value x)
    | (intro x; refine Kept.cut (s := s0) (x := x) ?_ ?_)
    | (intro x; refine Kept.cut (s := s0) (x := x.1) ?_ ?_)
    | (intro x; clear_value x)
    | lift_lets -underBinder

theorem execShortfallEvaluation_ends {s0 s : State} (h : Kept s0 s) :
    Ends s0 (execShortfallEvaluation s) := by
  unfold execShortfallEvaluation
  refine Ends.next ?_
  with_reducible repeat' first
    | exact h
    | refine State.each_kept ?_ (fun x a hx => ?_)
    | refine evaluate_kept ?_
    | refine fillWaiting_kept ?_
    | refine reducedRubric_kept ?_
    | refine Kept.ite ?_ ?_
    | assumption
    | (intro hx; clear_value x)
    | (intro x; refine Kept.cut (s := s0) (x := x) ?_ ?_)
    | (intro x; refine Kept.cut (s := s0) (x := x.1) ?_ ?_)
    | (intro x; clear_value x)
    | lift_lets -underBinder
    | split

end Sys2Proof.Machine
end

