-- ==== Sys2Proof/Laws/KeptQueues.lean ====
section
/-! SUPPORT. What every step keeps, through the functions of Queues. -/

set_option linter.all false
set_option maxRecDepth 8000

namespace Sys2Proof.Machine

theorem setPair_kept {n : Nat} {p : Pair} {s0 s : State} (h : Kept s0 s) :
    Kept s0 (setPair s n p) := by
  unfold setPair
  with_reducible repeat' first
    | exact h
    | (refine Kept.upd ?_; first | assumption)

theorem pairError_kept {n : Nat} {s0 s : State} (h : Kept s0 s) :
    Kept s0 (pairError s n) := by
  unfold pairError
  with_reducible repeat' first
    | exact h
    | refine event_kept ?_
    | refine setPair_kept ?_
    | refine Kept.ite ?_ ?_
    | assumption
    | (intro hx; clear_value x)
    | (intro x; refine Kept.cut (s := s0) (x := x) ?_ ?_)
    | (intro x; refine Kept.cut (s := s0) (x := x.1) ?_ ?_)
    | (intro x; clear_value x)
    | lift_lets -underBinder
    | split
    | (refine Kept.upd ?_; first | assumption | refine event_kept ?_ | refine setPair_kept ?_ | refine Kept.ite ?_ ?_)

theorem engineRead_kept {n : Nat} {dpa : Nat} {account : Nat} {run : ReadRun} {s0 s : State} (h : Kept s0 s) :
    Kept s0 (engineRead s n dpa account run).1 := by
  unfold engineRead
  with_reducible repeat' first
    | exact h
    | refine chargeNow_kept ?_
    | refine readSeen_kept ?_
    | refine Kept.ite ?_ ?_
    | refine Kept.ite_fst ?_ ?_
    | assumption
    | (intro hx; clear_value x)
    | (intro x; refine Kept.cut (s := s0) (x := x) ?_ ?_)
    | (intro x; refine Kept.cut (s := s0) (x := x.1) ?_ ?_)
    | (intro x; clear_value x)
    | lift_lets -underBinder
    | split
    | refine Kept.of_fst (by assumption) ?_
    | (unfold x; split)

theorem engineWrite_kept {n : Nat} {dpa : Nat} {bytes : List (BitVec 8)} {s0 s : State} (h : Kept s0 s) :
    Kept s0 (engineWrite s n dpa bytes) := by
  unfold engineWrite
  with_reducible repeat' first
    | exact h
    | refine submit_kept ?_
    | refine pairError_kept ?_
    | refine Kept.ite ?_ ?_
    | assumption
    | (intro hx; clear_value x)
    | (intro x; refine Kept.cut (s := s0) (x := x) ?_ ?_)
    | (intro x; refine Kept.cut (s := s0) (x := x.1) ?_ ?_)
    | (intro x; clear_value x)
    | lift_lets -underBinder
    | split

theorem settlePair_kept {n : Nat} {s0 s : State} (h : Kept s0 s) :
    Kept s0 (settlePair s n) := by
  unfold settlePair
  with_reducible repeat' first
    | exact h
    | refine finish_kept ?_
    | refine setPair_kept ?_
    | refine Kept.ite ?_ ?_
    | assumption
    | (intro hx; clear_value x)
    | (intro x; refine Kept.cut (s := s0) (x := x) ?_ ?_)
    | (intro x; refine Kept.cut (s := s0) (x := x.1) ?_ ?_)
    | (intro x; clear_value x)
    | lift_lets -underBinder
    | split
    | refine Kept.of_fst (by assumption) ?_
    | (unfold x; split)
    | (refine Kept.upd ?_; first | assumption | refine finish_kept ?_ | refine setPair_kept ?_ | refine Kept.ite ?_ ?_)

theorem countCompletion_kept {n : Nat} {status : Nat} {s0 s : State} (h : Kept s0 s) :
    Kept s0 (countCompletion s n status) := by
  unfold countCompletion
  with_reducible repeat' first
    | exact h
    | refine State.inc_kept ?_
    | refine event_kept ?_
    | refine eventOnce_kept ?_
    | refine Kept.ite ?_ ?_
    | assumption
    | (intro hx; clear_value x)
    | (intro x; refine Kept.cut (s := s0) (x := x) ?_ ?_)
    | (intro x; refine Kept.cut (s := s0) (x := x.1) ?_ ?_)
    | (intro x; clear_value x)
    | lift_lets -underBinder
    | split

theorem writeCompletion_kept {x0 : Item} {e : Ending} {s0 s : State} (h : Kept s0 s) :
    Kept s0 (writeCompletion s x0 e) := by
  unfold writeCompletion
  with_reducible repeat' first
    | exact h
    | refine State.drew_kept ?_
    | refine State.send_kept ?_
    | refine State.timed_kept ?_
    | refine event_kept ?_
    | refine setPair_kept ?_
    | refine pairError_kept ?_
    | refine engineWrite_kept ?_
    | refine settlePair_kept ?_
    | refine countCompletion_kept ?_
    | refine Kept.ite ?_ ?_
    | assumption
    | (intro hx; clear_value x)
    | (intro x; refine Kept.cut (s := s0) (x := x) ?_ ?_)
    | (intro x; refine Kept.cut (s := s0) (x := x.1) ?_ ?_)
    | (intro x; clear_value x)
    | lift_lets -underBinder
    | split
    | (refine Kept.upd ?_; first | assumption | refine State.drew_kept ?_ | refine State.send_kept ?_ | refine State.timed_kept ?_ | refine event_kept ?_ | refine setPair_kept ?_ | refine pairError_kept ?_ | refine engineWrite_kept ?_ | refine settlePair_kept ?_ | refine countCompletion_kept ?_ | refine Kept.ite ?_ ?_)

theorem endItem_kept {i : Nat} {e : Ending} {s0 s : State} (h : Kept s0 s) :
    Kept s0 (endItem s i e) := by
  unfold endItem
  with_reducible repeat' first
    | exact h
    | refine setItem_kept ?_
    | refine writeCompletion_kept ?_
    | refine Kept.ite ?_ ?_
    | assumption
    | (intro hx; clear_value x)
    | (intro x; refine Kept.cut (s := s0) (x := x) ?_ ?_)
    | (intro x; refine Kept.cut (s := s0) (x := x.1) ?_ ?_)
    | (intro x; clear_value x)
    | lift_lets -underBinder
    | split
    | refine Kept.of_fst (by assumption) ?_
    | (unfold x; split)
    | (refine Kept.upd ?_; first | assumption | refine setItem_kept ?_ | refine writeCompletion_kept ?_ | refine Kept.ite ?_ ?_ | (refine Kept.upd ?_; first | assumption | refine setItem_kept ?_ | refine writeCompletion_kept ?_))

theorem enqueue_kept {i : Nat} {x0 : Item} {g : Nat} {s0 s : State} (h : Kept s0 s) :
    Kept s0 (enqueue s i x0 g) := by
  unfold enqueue
  with_reducible repeat' first
    | exact h
    | refine State.incW_kept ?_
    | refine modCore_kept ?_
    | refine setItem_kept ?_
    | refine showDepth_kept ?_
    | refine place_kept ?_
    | refine vote_kept ?_
    | assumption
    | (intro hx; clear_value x)
    | (intro x; refine Kept.cut (s := s0) (x := x) ?_ ?_)
    | (intro x; refine Kept.cut (s := s0) (x := x.1) ?_ ?_)
    | (intro x; clear_value x)
    | lift_lets -underBinder
    | (refine Kept.upd ?_; first | assumption | refine State.incW_kept ?_ | refine modCore_kept ?_ | refine setItem_kept ?_ | refine showDepth_kept ?_ | refine place_kept ?_ | refine vote_kept ?_)

theorem askMoves_kept {i : Nat} {g : Nat} {leaves : List Nat} {s0 s : State} (h : Kept s0 s) :
    Kept s0 (askMoves s i g leaves).1 := by
  unfold askMoves
  with_reducible repeat' first
    | exact h
    | refine moveLeaf_kept ?_
    | refine Kept.ite ?_ ?_
    | refine Kept.ite_fst ?_ ?_
    | refine foldl_kept ?_ fun x a hx => ?_
    | refine foldl_kept_fst ?_ fun x a hx => ?_
    | assumption
    | (intro hx; clear_value x)
    | (intro x; refine Kept.cut (s := s0) (x := x) ?_ ?_)
    | (intro x; refine Kept.cut (s := s0) (x := x.1) ?_ ?_)
    | (intro x; clear_value x)
    | lift_lets -underBinder
    | split
    | refine Kept.of_fst (by assumption) ?_

theorem dispatchItem_kept {i : Nat} {x0 : Item} {g : Nat} {s0 s : State} (h : Kept s0 s) :
    Kept s0 (dispatchItem s i x0 g) := by
  unfold dispatchItem
  with_reducible repeat' first
    | exact h
    | refine setItem_kept ?_
    | refine place_kept ?_
    | refine enqueue_kept ?_
    | refine askMoves_kept ?_
    | refine Kept.ite ?_ ?_
    | refine Kept.ite_fst ?_ ?_
    | assumption
    | (intro hx; clear_value x)
    | (intro x; refine Kept.cut (s := s0) (x := x) ?_ ?_)
    | (intro x; refine Kept.cut (s := s0) (x := x.1) ?_ ?_)
    | (intro x; clear_value x)
    | lift_lets -underBinder
    | split
    | refine Kept.of_fst (by assumption) ?_
    | (unfold x; split)
    | (refine Kept.upd ?_; first | assumption | refine setItem_kept ?_ | refine place_kept ?_ | refine enqueue_kept ?_ | refine askMoves_kept ?_ | refine Kept.ite ?_ ?_)

theorem placeItem_kept {i : Nat} {x0 : Item} {s0 s : State} (h : Kept s0 s) :
    Kept s0 (placeItem s i x0) := by
  unfold placeItem
  with_reducible repeat' first
    | exact h
    | refine setItem_kept ?_
    | refine dispatchItem_kept ?_
    | split
    | refine Kept.of_fst (by assumption) ?_
    | (refine Kept.upd ?_; first | assumption | refine setItem_kept ?_ | refine dispatchItem_kept ?_)

theorem splitItem_kept {i : Nat} {x0 : Item} {s0 s : State} (h : Kept s0 s) :
    Kept s0 (splitItem s i x0) := by
  unfold splitItem
  with_reducible repeat' first
    | exact h
    | refine State.each_kept ?_ (fun x a hx => ?_)
    | refine setItem_kept ?_
    | refine place_kept ?_
    | refine placeItem_kept ?_
    | assumption
    | (intro hx; clear_value x)
    | (intro x; refine Kept.cut (s := s0) (x := x) ?_ ?_)
    | (intro x; refine Kept.cut (s := s0) (x := x.1) ?_ ?_)
    | (intro x; clear_value x)
    | lift_lets -underBinder
    | (refine Kept.upd ?_; first | assumption | refine State.each_kept ?_ (fun x a hx => ?_) | refine setItem_kept ?_ | refine place_kept ?_ | refine placeItem_kept ?_ | (refine Kept.upd ?_; first | assumption | refine State.each_kept ?_ (fun x a hx => ?_) | refine setItem_kept ?_ | refine place_kept ?_ | refine placeItem_kept ?_))

theorem placeWaiting_kept {i : Nat} {x0 : Item} {s0 s : State} (h : Kept s0 s) :
    Kept s0 (placeWaiting s i x0) := by
  unfold placeWaiting
  with_reducible repeat' first
    | exact h
    | refine placeItem_kept ?_
    | refine splitItem_kept ?_
    | refine Kept.ite ?_ ?_
    | split

theorem unqueue_kept {k : Nat} {i : Nat} {s0 s : State} (h : Kept s0 s) :
    Kept s0 (unqueue s k i) := by
  unfold unqueue
  with_reducible repeat' first
    | exact h
    | refine modCore_kept ?_
    | refine showDepth_kept ?_
    | refine noteUse_kept ?_
    | assumption
    | (refine Kept.upd ?_; first | assumption | refine modCore_kept ?_ | refine showDepth_kept ?_ | refine noteUse_kept ?_)

theorem drewLine_kept {s0 s : State} (h : Kept s0 s) :
    Kept s0 (drewLine s) := by
  unfold drewLine
  with_reducible repeat' first
    | exact h
    | (refine Kept.upd ?_; first | assumption)
    | (refine Kept.draw ?_; assumption)

theorem readArgs_kept {x0 : Item} {reads : List ReadRun} {s0 s : State} (h : Kept s0 s) :
    Kept s0 (readArgs s x0 reads).1 := by
  unfold readArgs
  with_reducible repeat' first
    | exact h
    | refine engineRead_kept ?_
    | refine drewLine_kept ?_
    | refine foldl_kept ?_ fun x a hx => ?_
    | refine foldl_kept_fst ?_ fun x a hx => ?_
    | assumption
    | split
    | refine Kept.of_fst (by assumption) ?_

theorem startItem_kept {k : Nat} {i : Nat} {x0 : Item} {reads : List ReadRun} {s0 s : State} (h : Kept s0 s) :
    Kept s0 (startItem s k i x0 reads) := by
  unfold startItem
  with_reducible repeat' first
    | exact h
    | refine State.put_kept ?_
    | refine State.drew_kept ?_
    | refine setCore_kept ?_
    | refine setItem_kept ?_
    | refine place_kept ?_
    | refine readArgs_kept ?_
    | refine Kept.ite ?_ ?_
    | refine Kept.ite_fst ?_ ?_
    | assumption
    | (intro hx; clear_value x)
    | (intro x; refine Kept.cut (s := s0) (x := x) ?_ ?_)
    | (intro x; refine Kept.cut (s := s0) (x := x.1) ?_ ?_)
    | (intro x; clear_value x)
    | lift_lets -underBinder
    | split
    | refine Kept.of_fst (by assumption) ?_
    | (refine Kept.upd ?_; first | assumption | refine State.put_kept ?_ | refine State.drew_kept ?_ | refine setCore_kept ?_ | refine setItem_kept ?_ | refine place_kept ?_ | refine readArgs_kept ?_ | refine Kept.ite ?_ ?_)

theorem idleCore_kept {k : Nat} {s0 s : State} (h : Kept s0 s) :
    Kept s0 (idleCore s k) := by
  unfold idleCore
  with_reducible repeat' first
    | exact h
    | refine State.put_kept ?_
    | refine modCore_kept ?_
    | refine noteUse_kept ?_
    | assumption
    | (intro hx; clear_value x)
    | (intro x; refine Kept.cut (s := s0) (x := x) ?_ ?_)
    | (intro x; refine Kept.cut (s := s0) (x := x.1) ?_ ?_)
    | (intro x; clear_value x)
    | lift_lets -underBinder

theorem endCore_kept {k : Nat} {status : Nat} {cause : Nat} {result : Nat} {s0 s : State} (h : Kept s0 s) :
    Kept s0 (endCore s k status cause result) := by
  unfold endCore
  with_reducible repeat' first
    | exact h
    | refine endItem_kept ?_
    | refine idleCore_kept ?_
    | split
    | refine Kept.of_fst (by assumption) ?_

theorem deletePair_kept {n : Nat} {asker : Option Nat} {s0 s : State} (h : Kept s0 s) :
    Kept s0 (deletePair s n asker) := by
  unfold deletePair
  with_reducible repeat' first
    | exact h
    | refine State.each_kept ?_ (fun x a hx => ?_)
    | refine place_kept ?_
    | refine setPair_kept ?_
    | refine settlePair_kept ?_
    | refine endItem_kept ?_
    | refine unqueue_kept ?_
    | assumption
    | (intro hx; clear_value x)
    | (intro x; refine Kept.cut (s := s0) (x := x) ?_ ?_)
    | (intro x; refine Kept.cut (s := s0) (x := x.1) ?_ ?_)
    | (intro x; clear_value x)
    | lift_lets -underBinder
    | split
    | refine Kept.of_fst (by assumption) ?_
    | (unfold x; split)
    | (refine Kept.upd ?_; first | assumption | refine State.each_kept ?_ (fun x a hx => ?_) | refine place_kept ?_ | refine setPair_kept ?_ | refine settlePair_kept ?_ | refine endItem_kept ?_ | refine unqueue_kept ?_)

theorem createPair_kept {n : Nat} {cfg : BitVec 64} {sq : BitVec 64} {cq : BitVec 64} {s0 s : State} (h : Kept s0 s) :
    Kept s0 (createPair s n cfg sq cq) := by
  unfold createPair
  with_reducible repeat' first
    | exact h
    | refine setPair_kept ?_

end Sys2Proof.Machine
end

