-- ==== Sys2Proof/Laws/KeptQueueRows.lean ====
section
/-! SUPPORT. What every step keeps, through the functions of QueueRows. -/

set_option linter.all false
set_option maxRecDepth 8000

namespace Sys2Proof.Machine

theorem execWorkPlace_ends {s0 s : State} (h : Kept s0 s) :
    Ends s0 (execWorkPlace s) := by
  unfold execWorkPlace
  refine Ends.next ?_
  with_reducible repeat' first
    | exact h
    | refine place_kept ?_
    | refine placeWaiting_kept ?_
    | refine Kept.ite ?_ ?_
    | assumption
    | split
    | refine Kept.of_fst (by assumption) ?_

theorem releaseItem_kept {i : Nat} {x0 : Item} {g : Nat} {s0 s : State} (h : Kept s0 s) :
    Kept s0 (releaseItem s i x0 g) := by
  unfold releaseItem
  with_reducible repeat' first
    | exact h
    | refine setItem_kept ?_
    | refine place_kept ?_
    | refine enqueue_kept ?_
    | refine askMoves_kept ?_
    | refine Kept.ite ?_ ?_
    | refine Kept.ite_fst ?_ ?_
    | assumption
    | (intro hx; clear_value x)
    | (intro x; refine Kept.cut (s := s0) (x := x) ?_ ?_)
    | (intro x; refine Kept.cut (s := s0) (x := x.1) ?_ ?_)
    | (intro x; clear_value x)
    | lift_lets -underBinder
    | split
    | (refine Kept.upd ?_; first | assumption | refine setItem_kept ?_ | refine place_kept ?_ | refine enqueue_kept ?_ | refine askMoves_kept ?_ | refine Kept.ite ?_ ?_)

theorem execPremigrateRelease_ends {s0 s : State} (h : Kept s0 s) :
    Ends s0 (execPremigrateRelease s) := by
  unfold execPremigrateRelease
  refine Ends.next ?_
  with_reducible repeat' first
    | exact h
    | refine State.each_kept ?_ (fun x a hx => ?_)
    | refine place_kept ?_
    | refine releaseItem_kept ?_
    | refine Kept.ite ?_ ?_
    | assumption
    | (intro hx; clear_value x)
    | (intro x; refine Kept.cut (s := s0) (x := x) ?_ ?_)
    | (intro x; refine Kept.cut (s := s0) (x := x.1) ?_ ?_)
    | (intro x; clear_value x)
    | lift_lets -underBinder
    | split
    | refine Kept.of_fst (by assumption) ?_
    | (unfold x; split)

theorem execPlacementRetry_ends {s0 s : State} (h : Kept s0 s) :
    Ends s0 (execPlacementRetry s) := by
  unfold execPlacementRetry
  refine Ends.next ?_
  with_reducible repeat' first
    | exact h
    | refine State.each_kept ?_ (fun x a hx => ?_)
    | refine event_kept ?_
    | refine setItem_kept ?_
    | refine noteUse_kept ?_
    | refine vote_kept ?_
    | refine placeItem_kept ?_
    | refine Kept.ite ?_ ?_
    | assumption
    | (intro hx; clear_value x)
    | (intro x; refine Kept.cut (s := s0) (x := x) ?_ ?_)
    | (intro x; refine Kept.cut (s := s0) (x := x.1) ?_ ?_)
    | (intro x; clear_value x)
    | lift_lets -underBinder
    | split
    | refine Kept.of_fst (by assumption) ?_
    | (unfold x; split)
    | (refine Kept.upd ?_; first | assumption | refine State.each_kept ?_ (fun x a hx => ?_) | refine event_kept ?_ | refine setItem_kept ?_ | refine noteUse_kept ?_ | refine vote_kept ?_ | refine placeItem_kept ?_ | refine Kept.ite ?_ ?_)

theorem execDeferLimitExpiry_ends {s0 s : State} (h : Kept s0 s) :
    Ends s0 (execDeferLimitExpiry s) := by
  unfold execDeferLimitExpiry
  refine Ends.next ?_
  with_reducible repeat' first
    | exact h
    | refine State.each_kept ?_ (fun x a hx => ?_)
    | refine endItem_kept ?_
    | refine Kept.ite ?_ ?_
    | assumption
    | (intro hx; clear_value x)
    | (intro x; refine Kept.cut (s := s0) (x := x) ?_ ?_)
    | (intro x; refine Kept.cut (s := s0) (x := x.1) ?_ ?_)
    | (intro x; clear_value x)
    | lift_lets -underBinder
    | split
    | refine Kept.of_fst (by assumption) ?_
    | (unfold x; split)

theorem execClusterVoteRelease_ends {s0 s : State} (h : Kept s0 s) :
    Ends s0 (execClusterVoteRelease s) := by
  unfold execClusterVoteRelease
  refine Ends.next ?_
  with_reducible repeat' first
    | exact h
    | refine State.each_kept ?_ (fun x a hx => ?_)
    | refine vote_kept ?_
    | refine Kept.ite ?_ ?_
    | assumption
    | split
    | (refine Kept.upd ?_; first | assumption | refine State.each_kept ?_ (fun x a hx => ?_) | refine vote_kept ?_ | refine Kept.ite ?_ ?_)

theorem ring_kept {p : Nat} {k : Nat} {d : Nat} {i : Nat} {off : Nat} {v : BitVec 32} {size : Pair → Nat} {f : Pair → Nat → Pair} {s0 s : State} (h : Kept s0 s) :
    Kept s0 (ring s p k d i off v size f) := by
  unfold ring
  with_reducible repeat' first
    | exact h
    | refine notice_kept ?_
    | refine linkActivity_kept ?_
    | refine barRefused_kept ?_
    | refine setPair_kept ?_
    | refine pairError_kept ?_
    | refine Kept.ite ?_ ?_
    | assumption
    | (intro hx; clear_value x)
    | (intro x; refine Kept.cut (s := s0) (x := x) ?_ ?_)
    | (intro x; refine Kept.cut (s := s0) (x := x.1) ?_ ?_)
    | (intro x; clear_value x)
    | lift_lets -underBinder
    | split
    | refine Kept.of_fst (by assumption) ?_
    | (unfold x; split)

theorem execSqDoorbell_ends {port : Fin 64} {sub : Fin 4} {ld : Fin 16} {index : Fin 16384} {value : BitVec 32} {s0 s : State} (h : Kept s0 s) :
    Ends s0 (execSqDoorbell port sub ld index value s) := by
  unfold execSqDoorbell
  refine Ends.next ?_
  with_reducible repeat' first
    | exact h
    | refine ring_kept ?_
    | assumption
    | (refine Kept.upd ?_; first | assumption | refine ring_kept ?_)

theorem execCqDoorbell_ends {port : Fin 64} {sub : Fin 4} {ld : Fin 16} {index : Fin 16384} {value : BitVec 32} {s0 s : State} (h : Kept s0 s) :
    Ends s0 (execCqDoorbell port sub ld index value s) := by
  unfold execCqDoorbell
  refine Ends.next ?_
  with_reducible repeat' first
    | exact h
    | refine ring_kept ?_
    | assumption
    | (refine Kept.upd ?_; first | assumption | refine ring_kept ?_)

theorem fetchEntry_kept {n : Nat} {data : BitVec 512} {ok : Bool} {run : ReadRun} {s0 s : State} (h : Kept s0 s) :
    Kept s0 (fetchEntry s n data ok run).1 := by
  unfold fetchEntry
  with_reducible repeat' first
    | exact h
    | refine chargeNow_kept ?_
    | refine engineRead_kept ?_
    | refine Kept.ite ?_ ?_
    | refine Kept.ite_fst ?_ ?_
    | assumption
    | (intro hx; clear_value x)
    | (intro x; refine Kept.cut (s := s0) (x := x) ?_ ?_)
    | (intro x; refine Kept.cut (s := s0) (x := x.1) ?_ ?_)
    | (intro x; clear_value x)
    | lift_lets -underBinder
    | split
    | refine Kept.of_fst (by assumption) ?_
    | (unfold x; split)

theorem execItemFetch_ends {pair : Fin 16384} {data : BitVec 512} {fetch : FetchRun} {s0 s : State} (h : Kept s0 s) :
    Ends s0 (execItemFetch pair data fetch s) := by
  unfold execItemFetch
  refine Ends.next ?_
  with_reducible repeat' first
    | exact h
    | refine setItem_kept ?_
    | refine setPair_kept ?_
    | refine pairError_kept ?_
    | refine endItem_kept ?_
    | refine fetchEntry_kept ?_
    | refine Kept.ite ?_ ?_
    | refine Kept.ite_fst ?_ ?_
    | assumption
    | (intro hx; clear_value x)
    | (intro x; refine Kept.cut (s := s0) (x := x) ?_ ?_)
    | (intro x; refine Kept.cut (s := s0) (x := x.1) ?_ ?_)
    | (intro x; clear_value x)
    | lift_lets -underBinder
    | split
    | refine Kept.of_fst (by assumption) ?_
    | (unfold x; split)
    | (refine Kept.upd ?_; first | assumption | refine setItem_kept ?_ | refine setPair_kept ?_ | refine pairError_kept ?_ | refine endItem_kept ?_ | refine fetchEntry_kept ?_ | refine Kept.ite ?_ ?_)

theorem abandon_kept {i : Nat} {x0 : Item} {status : Nat} {s0 s : State} (h : Kept s0 s) :
    Kept s0 (abandon s i x0 status) := by
  unfold abandon
  with_reducible repeat' first
    | exact h
    | refine place_kept ?_
    | refine endItem_kept ?_
    | refine unqueue_kept ?_
    | assumption
    | (intro hx; clear_value x)
    | (intro x; refine Kept.cut (s := s0) (x := x) ?_ ?_)
    | (intro x; refine Kept.cut (s := s0) (x := x.1) ?_ ?_)
    | (intro x; clear_value x)
    | lift_lets -underBinder
    | split
    | refine Kept.of_fst (by assumption) ?_
    | (unfold x; split)
    | (refine Kept.upd ?_; first | assumption | refine place_kept ?_ | refine endItem_kept ?_ | refine unqueue_kept ?_)

theorem execItemStart_ends {start : StartRun} {s0 s : State} (h : Kept s0 s) :
    Ends s0 (execItemStart start s) := by
  unfold execItemStart
  refine Ends.next ?_
  with_reducible repeat' first
    | exact h
    | refine unqueue_kept ?_
    | refine startItem_kept ?_
    | refine abandon_kept ?_
    | refine Kept.ite ?_ ?_
    | assumption
    | (intro hx; clear_value x)
    | (intro x; refine Kept.cut (s := s0) (x := x) ?_ ?_)
    | (intro x; refine Kept.cut (s := s0) (x := x.1) ?_ ?_)
    | (intro x; clear_value x)
    | lift_lets -underBinder
    | split
    | refine Kept.of_fst (by assumption) ?_
    | (unfold x; split)

theorem execDeadlineDrop_ends {s0 s : State} (h : Kept s0 s) :
    Ends s0 (execDeadlineDrop s) := by
  unfold execDeadlineDrop
  refine Ends.next ?_
  with_reducible repeat' first
    | exact h
    | refine State.each_kept ?_ (fun x a hx => ?_)
    | refine abandon_kept ?_
    | refine Kept.ite ?_ ?_
    | assumption
    | split
    | refine Kept.of_fst (by assumption) ?_

theorem execItemEnd_ends {core : Fin 256} {s0 s : State} (h : Kept s0 s) :
    Ends s0 (execItemEnd core s) := by
  unfold execItemEnd
  refine Ends.next ?_
  with_reducible repeat' first
    | exact h
    | refine modCore_kept ?_
    | refine endCore_kept ?_
    | refine Kept.ite ?_ ?_
    | assumption
    | (intro hx; clear_value x)
    | (intro x; refine Kept.cut (s := s0) (x := x) ?_ ?_)
    | (intro x; refine Kept.cut (s := s0) (x := x.1) ?_ ?_)
    | (intro x; clear_value x)
    | lift_lets -underBinder
    | split
    | refine Kept.of_fst (by assumption) ?_
    | (unfold x; split)
    | (refine Kept.upd ?_; first | assumption | refine modCore_kept ?_ | refine endCore_kept ?_ | refine Kept.ite ?_ ?_)

theorem execRunLimitExpiry_ends {core : Fin 256} {s0 s : State} (h : Kept s0 s) :
    Ends s0 (execRunLimitExpiry core s) := by
  unfold execRunLimitExpiry
  refine Ends.next ?_
  with_reducible repeat' first
    | exact h
    | refine modCore_kept ?_
    | refine endCore_kept ?_
    | refine Kept.ite ?_ ?_
    | assumption
    | (intro hx; clear_value x)
    | (intro x; refine Kept.cut (s := s0) (x := x) ?_ ?_)
    | (intro x; refine Kept.cut (s := s0) (x := x.1) ?_ ?_)
    | (intro x; clear_value x)
    | lift_lets -underBinder
    | split
    | refine Kept.of_fst (by assumption) ?_
    | (unfold x; split)
    | (refine Kept.upd ?_; first | assumption | refine modCore_kept ?_ | refine endCore_kept ?_ | refine Kept.ite ?_ ?_)

theorem writeNibCore_kept {g : Nat} {v : BitVec 64} {s0 s : State} (h : Kept s0 s) :
    Kept s0 (writeNibCore s g v) := by
  unfold writeNibCore
  with_reducible repeat' first
    | exact h
    | refine State.put_kept ?_
    | refine State.putB_kept ?_
    | refine State.setFlag_kept ?_
    | refine Kept.ite ?_ ?_
    | assumption
    | (intro hx; clear_value x)
    | (intro x; refine Kept.cut (s := s0) (x := x) ?_ ?_)
    | (intro x; refine Kept.cut (s := s0) (x := x.1) ?_ ?_)
    | (intro x; clear_value x)
    | lift_lets -underBinder
    | split

theorem execNibCoreParkWrite_ends {core : Fin 256} {value : BitVec 64} {s0 s : State} (h : Kept s0 s) :
    Ends s0 (execNibCoreParkWrite core value s) := by
  unfold execNibCoreParkWrite
  refine Ends.next ?_
  with_reducible repeat' first
    | exact h
    | refine writeNibCore_kept ?_
    | refine Kept.ite ?_ ?_
    | split

theorem execCoreParked_ends {core : Fin 256} {s0 s : State} (h : Kept s0 s) :
    Ends s0 (execCoreParked core s) := by
  unfold execCoreParked
  refine Ends.next ?_
  with_reducible repeat' first
    | exact h
    | refine State.put_kept ?_
    | refine State.setFlag_kept ?_
    | refine requeueItems_kept ?_
    | refine Kept.ite ?_ ?_
    | assumption
    | (intro hx; clear_value x)
    | (intro x; refine Kept.cut (s := s0) (x := x) ?_ ?_)
    | (intro x; refine Kept.cut (s := s0) (x := x.1) ?_ ?_)
    | (intro x; clear_value x)
    | lift_lets -underBinder
    | split

theorem registerKernel_kept {id : Nat} {off : Nat} {l : List (BitVec 8)} {q : Kernel} {s0 s : State} (h : Kept s0 s) :
    Kept s0 (registerKernel s id off l q) := by
  unfold registerKernel
  with_reducible repeat' first
    | exact h
    | refine State.setWord_kept ?_
    | assumption
    | (intro hx; clear_value x)
    | (intro x; refine Kept.cut (s := s0) (x := x) ?_ ?_)
    | (intro x; refine Kept.cut (s := s0) (x := x.1) ?_ ?_)
    | (intro x; clear_value x)
    | lift_lets -underBinder
    | (refine Kept.upd ?_; first | assumption | refine State.setWord_kept ?_)

theorem kernelCommit_kept {p : List (BitVec 8)} {s0 s : State} (h : Kept s0 s) :
    Kept s0 (kernelCommit s p).1 := by
  unfold kernelCommit
  with_reducible repeat' first
    | exact h
    | refine event_kept ?_
    | refine closeSession_kept ?_
    | refine registerKernel_kept ?_
    | refine Kept.ite ?_ ?_
    | refine Kept.ite_fst ?_ ?_
    | assumption
    | (intro hx; clear_value x)
    | (intro x; refine Kept.cut (s := s0) (x := x) ?_ ?_)
    | (intro x; refine Kept.cut (s := s0) (x := x.1) ?_ ?_)
    | (intro x; clear_value x)
    | lift_lets -underBinder
    | split
    | refine Kept.of_fst (by assumption) ?_
    | (unfold x; split)

theorem execKernelLoadBegin_ends {mailbox : Fin 4096} {s0 s : State} (h : Kept s0 s) :
    Ends s0 (execKernelLoadBegin mailbox s) := by
  unfold execKernelLoadBegin
  refine Ends.next ?_
  with_reducible repeat' first
    | exact h
    | refine serve_kept (fun x a0 hx => ?_) ?_
    | refine loadBegin_kept ?_
    | refine Kept.ite ?_ ?_
    | assumption
    | (intro hx; clear_value x)
    | (intro x; refine Kept.cut (s := s0) (x := x) ?_ ?_)
    | (intro x; refine Kept.cut (s := s0) (x := x.1) ?_ ?_)
    | (intro x; clear_value x)
    | lift_lets -underBinder
    | split
    | refine Kept.of_fst (by assumption) ?_
    | refine Kept.of_snd (by assumption) ?_
    | (unfold x; split)

theorem execKernelLoadChunk_ends {mailbox : Fin 4096} {s0 s : State} (h : Kept s0 s) :
    Ends s0 (execKernelLoadChunk mailbox s) := by
  unfold execKernelLoadChunk
  refine Ends.next ?_
  with_reducible repeat' first
    | exact h
    | refine serve_kept (fun x a0 hx => ?_) ?_
    | refine loadChunk_kept ?_
    | refine Kept.ite ?_ ?_
    | assumption
    | (intro hx; clear_value x)
    | (intro x; refine Kept.cut (s := s0) (x := x) ?_ ?_)
    | (intro x; refine Kept.cut (s := s0) (x := x.1) ?_ ?_)
    | (intro x; clear_value x)
    | lift_lets -underBinder
    | split
    | refine Kept.of_fst (by assumption) ?_
    | refine Kept.of_snd (by assumption) ?_
    | (unfold x; split)

theorem execKernelLoadCommit_ends {mailbox : Fin 4096} {s0 s : State} (h : Kept s0 s) :
    Ends s0 (execKernelLoadCommit mailbox s) := by
  unfold execKernelLoadCommit
  refine Ends.next ?_
  with_reducible repeat' first
    | exact h
    | refine serve_kept (fun x a0 hx => ?_) ?_
    | refine kernelCommit_kept ?_
    | refine Kept.ite ?_ ?_
    | assumption
    | (intro hx; clear_value x)
    | (intro x; refine Kept.cut (s := s0) (x := x) ?_ ?_)
    | (intro x; refine Kept.cut (s := s0) (x := x.1) ?_ ?_)
    | (intro x; clear_value x)
    | lift_lets -underBinder
    | split
    | refine Kept.of_fst (by assumption) ?_
    | refine Kept.of_snd (by assumption) ?_
    | (unfold x; split)

theorem serveLong_kept {n : Nat} {op : Nat} {ready : Bool} {f : State → List (BitVec 8) → State × Option Nat} {s0 s : State} (h_f : ∀ x a0, Kept s0 x → Kept s0 (f x a0).1) (h : Kept s0 s) :
    Kept s0 (serveLong s n op ready f) := by
  unfold serveLong
  with_reducible repeat' first
    | exact h
    | refine h_f _ _ ?_
    | refine finish_kept ?_
    | refine Kept.ite ?_ ?_
    | refine Kept.ite_fst ?_ ?_
    | split
    | refine Kept.of_fst (by assumption) ?_

theorem inProgress_kept {n : Nat} {t : Nat} {s0 s : State} (h : Kept s0 s) :
    Kept s0 (inProgress s n t) := by
  unfold inProgress
  with_reducible repeat' first
    | exact h
    | refine setBox_kept ?_
    | (refine Kept.upd ?_; first | assumption | refine setBox_kept ?_)

theorem execKernelRemove_ends {mailbox : Fin 4096} {s0 s : State} (h : Kept s0 s) :
    Ends s0 (execKernelRemove mailbox s) := by
  unfold execKernelRemove
  refine Ends.next ?_
  with_reducible repeat' first
    | exact h
    | refine State.put_kept ?_
    | refine serveLong_kept (fun x a0 hx => ?_) ?_
    | refine inProgress_kept ?_
    | refine Kept.ite ?_ ?_
    | refine Kept.ite_fst ?_ ?_
    | assumption
    | (intro hx; clear_value x)
    | (intro x; refine Kept.cut (s := s0) (x := x) ?_ ?_)
    | (intro x; refine Kept.cut (s := s0) (x := x.1) ?_ ?_)
    | (intro x; clear_value x)
    | lift_lets -underBinder
    | split
    | (refine Kept.upd ?_; first | assumption | refine State.put_kept ?_ | refine serveLong_kept (fun x a0 hx => ?_) ?_ | refine inProgress_kept ?_ | refine Kept.ite ?_ ?_)

theorem execKernelRemoveComplete_ends {s0 s : State} (h : Kept s0 s) :
    Ends s0 (execKernelRemoveComplete s) := by
  unfold execKernelRemoveComplete
  refine Ends.next ?_
  with_reducible repeat' first
    | exact h
    | refine State.setWord_kept ?_
    | refine State.each_kept ?_ (fun x a hx => ?_)
    | refine finish_kept ?_
    | refine Kept.ite ?_ ?_
    | assumption
    | (intro hx; clear_value x)
    | (intro x; refine Kept.cut (s := s0) (x := x) ?_ ?_)
    | (intro x; refine Kept.cut (s := s0) (x := x.1) ?_ ?_)
    | (intro x; clear_value x)
    | lift_lets -underBinder
    | split
    | refine Kept.of_fst (by assumption) ?_
    | (unfold x; split)
    | (refine Kept.upd ?_; first | assumption | refine State.setWord_kept ?_ | refine State.each_kept ?_ (fun x a hx => ?_) | refine finish_kept ?_ | refine Kept.ite ?_ ?_)

theorem execKernelList_ends {mailbox : Fin 4096} {s0 s : State} (h : Kept s0 s) :
    Ends s0 (execKernelList mailbox s) := by
  unfold execKernelList
  refine Ends.next ?_
  with_reducible repeat' first
    | exact h
    | refine serve_kept (fun x a0 hx => ?_) ?_
    | assumption
    | (intro hx; clear_value x)
    | (intro x; refine Kept.cut (s := s0) (x := x) ?_ ?_)
    | (intro x; refine Kept.cut (s := s0) (x := x.1) ?_ ?_)
    | (intro x; clear_value x)
    | lift_lets -underBinder
    | split
    | refine Kept.of_fst (by assumption) ?_

theorem execQueueCreate_ends {mailbox : Fin 4096} {s0 s : State} (h : Kept s0 s) :
    Ends s0 (execQueueCreate mailbox s) := by
  unfold execQueueCreate
  refine Ends.next ?_
  with_reducible repeat' first
    | exact h
    | refine serve_kept (fun x a0 hx => ?_) ?_
    | refine createPair_kept ?_
    | refine Kept.ite ?_ ?_
    | refine Kept.ite_fst ?_ ?_
    | assumption
    | (intro hx; clear_value x)
    | (intro x; refine Kept.cut (s := s0) (x := x) ?_ ?_)
    | (intro x; refine Kept.cut (s := s0) (x := x.1) ?_ ?_)
    | (intro x; clear_value x)
    | lift_lets -underBinder
    | split

theorem execQueueDelete_ends {mailbox : Fin 4096} {s0 s : State} (h : Kept s0 s) :
    Ends s0 (execQueueDelete mailbox s) := by
  unfold execQueueDelete
  refine Ends.next ?_
  with_reducible repeat' first
    | exact h
    | refine deletePair_kept ?_
    | refine serveLong_kept (fun x a0 hx => ?_) ?_
    | refine inProgress_kept ?_
    | refine Kept.ite ?_ ?_
    | refine Kept.ite_fst ?_ ?_
    | assumption
    | (intro hx; clear_value x)
    | (intro x; refine Kept.cut (s := s0) (x := x) ?_ ?_)
    | (intro x; refine Kept.cut (s := s0) (x := x.1) ?_ ?_)
    | (intro x; clear_value x)
    | lift_lets -underBinder
    | split

theorem execGroupSet_ends {mailbox : Fin 4096} {s0 s : State} (h : Kept s0 s) :
    Ends s0 (execGroupSet mailbox s) := by
  unfold execGroupSet
  refine Ends.next ?_
  with_reducible repeat' first
    | exact h
    | refine State.put_kept ?_
    | refine serve_kept (fun x a0 hx => ?_) ?_
    | refine Kept.ite ?_ ?_
    | refine Kept.ite_fst ?_ ?_
    | assumption
    | (intro hx; clear_value x)
    | (intro x; refine Kept.cut (s := s0) (x := x) ?_ ?_)
    | (intro x; refine Kept.cut (s := s0) (x := x.1) ?_ ?_)
    | (intro x; clear_value x)
    | lift_lets -underBinder
    | split

theorem writePairCfg_kept {v : BitVec 64} {s0 s : State} (h : Kept s0 s) :
    Kept s0 (writePairCfg s v) := by
  unfold writePairCfg
  with_reducible repeat' first
    | exact h
    | refine notice_kept ?_
    | refine setPair_kept ?_
    | refine deletePair_kept ?_
    | refine createPair_kept ?_
    | refine Kept.ite ?_ ?_
    | assumption
    | (intro hx; clear_value x)
    | (intro x; refine Kept.cut (s := s0) (x := x) ?_ ?_)
    | (intro x; refine Kept.cut (s := s0) (x := x.1) ?_ ?_)
    | (intro x; clear_value x)
    | lift_lets -underBinder
    | split
    | (refine Kept.upd ?_; first | assumption | refine notice_kept ?_ | refine setPair_kept ?_ | refine deletePair_kept ?_ | refine createPair_kept ?_ | refine Kept.ite ?_ ?_)

theorem writePairBase_kept {cq : Bool} {v : BitVec 64} {s0 s : State} (h : Kept s0 s) :
    Kept s0 (writePairBase s cq v) := by
  unfold writePairBase
  with_reducible repeat' first
    | exact h
    | refine notice_kept ?_
    | refine setPair_kept ?_
    | refine Kept.ite ?_ ?_
    | assumption
    | (intro hx; clear_value x)
    | (intro x; refine Kept.cut (s := s0) (x := x) ?_ ?_)
    | (intro x; refine Kept.cut (s := s0) (x := x.1) ?_ ?_)
    | (intro x; clear_value x)
    | lift_lets -underBinder
    | split
    | (refine Kept.upd ?_; first | assumption | refine notice_kept ?_ | refine setPair_kept ?_ | refine Kept.ite ?_ ?_)

theorem execQuePairCfgWrite_ends {value : BitVec 64} {s0 s : State} (h : Kept s0 s) :
    Ends s0 (execQuePairCfgWrite value s) := by
  unfold execQuePairCfgWrite
  refine Ends.next ?_
  with_reducible repeat' first
    | exact h
    | refine writePairCfg_kept ?_

theorem execQuePairSqWrite_ends {value : BitVec 64} {s0 s : State} (h : Kept s0 s) :
    Ends s0 (execQuePairSqWrite value s) := by
  unfold execQuePairSqWrite
  refine Ends.next ?_
  with_reducible repeat' first
    | exact h
    | refine writePairBase_kept ?_

theorem execQuePairCqWrite_ends {value : BitVec 64} {s0 s : State} (h : Kept s0 s) :
    Ends s0 (execQuePairCqWrite value s) := by
  unfold execQuePairCqWrite
  refine Ends.next ?_
  with_reducible repeat' first
    | exact h
    | refine writePairBase_kept ?_

theorem setBusMaster_kept {o : Nat} {on : Bool} {s0 s : State} (h : Kept s0 s) :
    Kept s0 (setBusMaster s o on) := by
  unfold setBusMaster
  with_reducible repeat' first
    | exact h
    | refine setFabric_kept ?_
    | refine Kept.ite ?_ ?_
    | assumption
    | (intro hx; clear_value x)
    | (intro x; refine Kept.cut (s := s0) (x := x) ?_ ?_)
    | (intro x; refine Kept.cut (s := s0) (x := x.1) ?_ ?_)
    | (intro x; clear_value x)
    | lift_lets -underBinder
    | split
    | (refine Kept.upd ?_; first | assumption | refine setFabric_kept ?_ | refine Kept.ite ?_ ?_)

theorem execConfigRequest_ends {port : Fin 64} {sub : Fin 4} {ld : Fin 16} {func : Fin 8} {area : ConfigArea} {offset : Fin 1024} {write : Option (BitVec 32)} {s0 s : State} (h : Kept s0 s) :
    Ends s0 (execConfigRequest port sub ld func area offset write s) := by
  unfold execConfigRequest
  refine Ends.next ?_
  with_reducible repeat' first
    | exact h
    | refine State.drew_kept ?_
    | refine State.send_kept ?_
    | refine linkActivity_kept ?_
    | refine setWidth_kept ?_
    | refine hostMargin_kept ?_
    | refine setBusMaster_kept ?_
    | refine Kept.ite ?_ ?_
    | assumption
    | (intro hx; clear_value x)
    | (intro x; refine Kept.cut (s := s0) (x := x) ?_ ?_)
    | (intro x; refine Kept.cut (s := s0) (x := x.1) ?_ ?_)
    | (intro x; clear_value x)
    | lift_lets -underBinder
    | split
    | refine Kept.of_fst (by assumption) ?_
    | (unfold x; split)

end Sys2Proof.Machine
end

