-- ==== Sys2Proof/Laws/KeptBexorn.lean ====
section
/-! SUPPORT. What every step keeps, through the functions of Bexorn. -/

set_option linter.all false
set_option maxRecDepth 8000

namespace Sys2Proof.Machine

theorem endProgram_kept {k : Nat} {t : Trap} {cause : Nat} {s0 s : State} (h : Kept s0 s) :
    Kept s0 (endProgram s k t cause) := by
  unfold endProgram
  with_reducible repeat' first
    | exact h
    | refine endScribe_kept ?_
    | refine endCore_kept ?_
    | refine Kept.ite ?_ ?_
    | split

theorem raiseTrap_kept {k : Nat} {t : Trap} {s0 s : State} (h : Kept s0 s) :
    Kept s0 (raiseTrap s k t) := by
  unfold raiseTrap
  with_reducible repeat' first
    | exact h
    | refine setCore_kept ?_
    | refine endProgram_kept ?_
    | refine Kept.ite ?_ ?_
    | assumption
    | (intro hx; clear_value x)
    | (intro x; refine Kept.cut (s := s0) (x := x) ?_ ?_)
    | (intro x; refine Kept.cut (s := s0) (x := x.1) ?_ ?_)
    | (intro x; clear_value x)
    | lift_lets -underBinder
    | split
    | (refine Kept.upd ?_; first | assumption | refine setCore_kept ?_ | refine endProgram_kept ?_ | refine Kept.ite ?_ ?_)

theorem fault_kept {k : Nat} {cause : Nat} {access : Nat} {faddr : BitVec 64} {s0 s : State} (h : Kept s0 s) :
    Kept s0 (fault s k cause access faddr) := by
  unfold fault
  with_reducible repeat' first
    | exact h
    | refine raiseTrap_kept ?_
    | refine Kept.ite ?_ ?_
    | assumption
    | (intro hx; clear_value x)
    | (intro x; refine Kept.cut (s := s0) (x := x) ?_ ?_)
    | (intro x; refine Kept.cut (s := s0) (x := x.1) ?_ ?_)
    | (intro x; clear_value x)
    | lift_lets -underBinder
    | split

theorem eccFault_kept {k : Nat} {access : Nat} {faddr : BitVec 64} {s0 s : State} (h : Kept s0 s) :
    Kept s0 (eccFault s k access faddr) := by
  unfold eccFault
  with_reducible repeat' first
    | exact h
    | refine event_kept ?_
    | refine modCore_kept ?_
    | refine scribeFault_kept ?_
    | refine fault_kept ?_
    | refine Kept.ite ?_ ?_
    | assumption
    | split
    | (refine Kept.upd ?_; first | assumption | refine event_kept ?_ | refine modCore_kept ?_ | refine scribeFault_kept ?_ | refine fault_kept ?_ | refine Kept.ite ?_ ?_)

theorem eccCorrected_kept {k : Nat} {e : Ecc} {s0 s : State} (h : Kept s0 s) :
    Kept s0 (eccCorrected s k e) := by
  unfold eccCorrected
  with_reducible repeat' first
    | exact h
    | refine openEvent_kept ?_
    | refine Kept.ite ?_ ?_
    | split

theorem issue_kept {r : CoreRun} {n : Needs} {f : State → CoreState → State} {s0 s : State} (h_f : ∀ x a0, Kept s0 x → Kept s0 (f x a0)) (h : Kept s0 s) :
    Kept s0 (issue s r n f) := by
  unfold issue
  with_reducible repeat' first
    | exact h
    | refine h_f _ _ ?_
    | refine fault_kept ?_
    | refine eccFault_kept ?_
    | refine eccCorrected_kept ?_
    | refine Kept.ite ?_ ?_
    | assumption
    | (intro hx; clear_value x)
    | (intro x; refine Kept.cut (s := s0) (x := x) ?_ ?_)
    | (intro x; refine Kept.cut (s := s0) (x := x.1) ?_ ?_)
    | (intro x; clear_value x)
    | lift_lets -underBinder
    | split
    | refine Kept.of_fst (by assumption) ?_
    | (unfold x; split)

theorem advance_kept {k : Nat} {len : Nat} {f : CoreState → CoreState} {s0 s : State} (h : Kept s0 s) :
    Kept s0 (advance s k len f) := by
  unfold advance
  with_reducible repeat' first
    | exact h
    | refine modCore_kept ?_
    | assumption
    | (refine Kept.upd ?_; first | assumption | refine modCore_kept ?_)

theorem jump_kept {k : Nat} {target : BitVec 64} {f : CoreState → CoreState} {s0 s : State} (h : Kept s0 s) :
    Kept s0 (jump s k target f) := by
  unfold jump
  with_reducible repeat' first
    | exact h
    | refine modCore_kept ?_
    | assumption
    | (refine Kept.upd ?_; first | assumption | refine modCore_kept ?_)

theorem compute_kept {r : CoreRun} {len : Nat} {reads : List Nat} {d : Nat} {g : CoreState → BitVec 64} {s0 s : State} (h : Kept s0 s) :
    Kept s0 (compute s r len reads d g) := by
  unfold compute
  with_reducible repeat' first
    | exact h
    | refine issue_kept (fun x a0 hx => ?_) ?_
    | refine advance_kept ?_
    | assumption

theorem alu_kept {r : CoreRun} {d : Fin 32} {a : Fin 32} {b : Fin 32} {op : BitVec 64 → BitVec 64 → BitVec 64} {s0 s : State} (h : Kept s0 s) :
    Kept s0 (alu s r d a b op) := by
  unfold alu
  with_reducible repeat' first
    | exact h
    | refine compute_kept ?_
    | assumption

theorem aluImm_kept {r : CoreRun} {len : Nat} {d : Fin 32} {a : Fin 32} {op : BitVec 64 → BitVec 64} {s0 s : State} (h : Kept s0 s) :
    Kept s0 (aluImm s r len d a op) := by
  unfold aluImm
  with_reducible repeat' first
    | exact h
    | refine compute_kept ?_
    | assumption

theorem execAdd_ends {run : CoreRun} {d : Fin 32} {a : Fin 32} {b : Fin 32} {s0 s : State} (h : Kept s0 s) :
    Ends s0 (execAdd run d a b s) := by
  unfold execAdd
  refine Ends.next ?_
  with_reducible repeat' first
    | exact h
    | refine alu_kept ?_

theorem execSub_ends {run : CoreRun} {d : Fin 32} {a : Fin 32} {b : Fin 32} {s0 s : State} (h : Kept s0 s) :
    Ends s0 (execSub run d a b s) := by
  unfold execSub
  refine Ends.next ?_
  with_reducible repeat' first
    | exact h
    | refine alu_kept ?_

theorem execAnd_ends {run : CoreRun} {d : Fin 32} {a : Fin 32} {b : Fin 32} {s0 s : State} (h : Kept s0 s) :
    Ends s0 (execAnd run d a b s) := by
  unfold execAnd
  refine Ends.next ?_
  with_reducible repeat' first
    | exact h
    | refine alu_kept ?_

theorem execOr_ends {run : CoreRun} {d : Fin 32} {a : Fin 32} {b : Fin 32} {s0 s : State} (h : Kept s0 s) :
    Ends s0 (execOr run d a b s) := by
  unfold execOr
  refine Ends.next ?_
  with_reducible repeat' first
    | exact h
    | refine alu_kept ?_

theorem execXor_ends {run : CoreRun} {d : Fin 32} {a : Fin 32} {b : Fin 32} {s0 s : State} (h : Kept s0 s) :
    Ends s0 (execXor run d a b s) := by
  unfold execXor
  refine Ends.next ?_
  with_reducible repeat' first
    | exact h
    | refine alu_kept ?_

theorem execShl_ends {run : CoreRun} {d : Fin 32} {a : Fin 32} {b : Fin 32} {s0 s : State} (h : Kept s0 s) :
    Ends s0 (execShl run d a b s) := by
  unfold execShl
  refine Ends.next ?_
  with_reducible repeat' first
    | exact h
    | refine alu_kept ?_

theorem execShr_ends {run : CoreRun} {d : Fin 32} {a : Fin 32} {b : Fin 32} {s0 s : State} (h : Kept s0 s) :
    Ends s0 (execShr run d a b s) := by
  unfold execShr
  refine Ends.next ?_
  with_reducible repeat' first
    | exact h
    | refine alu_kept ?_

theorem execSar_ends {run : CoreRun} {d : Fin 32} {a : Fin 32} {b : Fin 32} {s0 s : State} (h : Kept s0 s) :
    Ends s0 (execSar run d a b s) := by
  unfold execSar
  refine Ends.next ?_
  with_reducible repeat' first
    | exact h
    | refine alu_kept ?_

theorem execMul_ends {run : CoreRun} {d : Fin 32} {a : Fin 32} {b : Fin 32} {s0 s : State} (h : Kept s0 s) :
    Ends s0 (execMul run d a b s) := by
  unfold execMul
  refine Ends.next ?_
  with_reducible repeat' first
    | exact h
    | refine alu_kept ?_

theorem execAddi_ends {run : CoreRun} {d : Fin 32} {a : Fin 32} {imm : BitVec 5} {s0 s : State} (h : Kept s0 s) :
    Ends s0 (execAddi run d a imm s) := by
  unfold execAddi
  refine Ends.next ?_
  with_reducible repeat' first
    | exact h
    | refine aluImm_kept ?_

theorem execShli_ends {run : CoreRun} {d : Fin 32} {a : Fin 32} {imm : BitVec 5} {s0 s : State} (h : Kept s0 s) :
    Ends s0 (execShli run d a imm s) := by
  unfold execShli
  refine Ends.next ?_
  with_reducible repeat' first
    | exact h
    | refine aluImm_kept ?_
    | assumption

theorem execShri_ends {run : CoreRun} {d : Fin 32} {a : Fin 32} {imm : BitVec 5} {s0 s : State} (h : Kept s0 s) :
    Ends s0 (execShri run d a imm s) := by
  unfold execShri
  refine Ends.next ?_
  with_reducible repeat' first
    | exact h
    | refine aluImm_kept ?_
    | assumption

theorem execSari_ends {run : CoreRun} {d : Fin 32} {a : Fin 32} {imm : BitVec 5} {s0 s : State} (h : Kept s0 s) :
    Ends s0 (execSari run d a imm s) := by
  unfold execSari
  refine Ends.next ?_
  with_reducible repeat' first
    | exact h
    | refine aluImm_kept ?_
    | assumption
    | split

theorem execLi_ends {run : CoreRun} {d : Fin 32} {imm : BitVec 10} {s0 s : State} (h : Kept s0 s) :
    Ends s0 (execLi run d imm s) := by
  unfold execLi
  refine Ends.next ?_
  with_reducible repeat' first
    | exact h
    | refine compute_kept ?_
    | assumption

theorem execAddl_ends {run : CoreRun} {d : Fin 32} {a : Fin 32} {imm : BitVec 20} {s0 s : State} (h : Kept s0 s) :
    Ends s0 (execAddl run d a imm s) := by
  unfold execAddl
  refine Ends.next ?_
  with_reducible repeat' first
    | exact h
    | refine aluImm_kept ?_

theorem execAndl_ends {run : CoreRun} {d : Fin 32} {a : Fin 32} {imm : BitVec 20} {s0 s : State} (h : Kept s0 s) :
    Ends s0 (execAndl run d a imm s) := by
  unfold execAndl
  refine Ends.next ?_
  with_reducible repeat' first
    | exact h
    | refine aluImm_kept ?_

theorem execOrl_ends {run : CoreRun} {d : Fin 32} {a : Fin 32} {imm : BitVec 20} {s0 s : State} (h : Kept s0 s) :
    Ends s0 (execOrl run d a imm s) := by
  unfold execOrl
  refine Ends.next ?_
  with_reducible repeat' first
    | exact h
    | refine aluImm_kept ?_

theorem execXorl_ends {run : CoreRun} {d : Fin 32} {a : Fin 32} {imm : BitVec 20} {s0 s : State} (h : Kept s0 s) :
    Ends s0 (execXorl run d a imm s) := by
  unfold execXorl
  refine Ends.next ?_
  with_reducible repeat' first
    | exact h
    | refine aluImm_kept ?_

theorem execLis_ends {run : CoreRun} {d : Fin 32} {a : Fin 32} {imm : BitVec 20} {s0 s : State} (h : Kept s0 s) :
    Ends s0 (execLis run d a imm s) := by
  unfold execLis
  refine Ends.next ?_
  with_reducible repeat' first
    | exact h
    | refine aluImm_kept ?_
    | assumption

theorem alux_kept {r : CoreRun} {d : Fin 32} {a : Fin 32} {b : Fin 32} {guard : Fin 8} {neg : Bool} {unary : Bool} {op : BitVec 64 → BitVec 64 → BitVec 64} {s0 s : State} (h : Kept s0 s) :
    Kept s0 (alux s r d a b guard neg unary op) := by
  unfold alux
  with_reducible repeat' first
    | exact h
    | refine fault_kept ?_
    | refine issue_kept (fun x a0 hx => ?_) ?_
    | refine advance_kept ?_
    | refine Kept.ite ?_ ?_
    | assumption
    | (intro hx; clear_value x)
    | (intro x; refine Kept.cut (s := s0) (x := x) ?_ ?_)
    | (intro x; refine Kept.cut (s := s0) (x := x.1) ?_ ?_)
    | (intro x; clear_value x)
    | lift_lets -underBinder
    | split

theorem execAluxAdd_ends {run : CoreRun} {d : Fin 32} {a : Fin 32} {b : Fin 32} {guard : Fin 8} {neg : Bool} {s0 s : State} (h : Kept s0 s) :
    Ends s0 (execAluxAdd run d a b guard neg s) := by
  unfold execAluxAdd
  refine Ends.next ?_
  with_reducible repeat' first
    | exact h
    | refine alux_kept ?_

theorem execAluxSub_ends {run : CoreRun} {d : Fin 32} {a : Fin 32} {b : Fin 32} {guard : Fin 8} {neg : Bool} {s0 s : State} (h : Kept s0 s) :
    Ends s0 (execAluxSub run d a b guard neg s) := by
  unfold execAluxSub
  refine Ends.next ?_
  with_reducible repeat' first
    | exact h
    | refine alux_kept ?_

theorem execAluxAnd_ends {run : CoreRun} {d : Fin 32} {a : Fin 32} {b : Fin 32} {guard : Fin 8} {neg : Bool} {s0 s : State} (h : Kept s0 s) :
    Ends s0 (execAluxAnd run d a b guard neg s) := by
  unfold execAluxAnd
  refine Ends.next ?_
  with_reducible repeat' first
    | exact h
    | refine alux_kept ?_

theorem execAluxOr_ends {run : CoreRun} {d : Fin 32} {a : Fin 32} {b : Fin 32} {guard : Fin 8} {neg : Bool} {s0 s : State} (h : Kept s0 s) :
    Ends s0 (execAluxOr run d a b guard neg s) := by
  unfold execAluxOr
  refine Ends.next ?_
  with_reducible repeat' first
    | exact h
    | refine alux_kept ?_

theorem execAluxXor_ends {run : CoreRun} {d : Fin 32} {a : Fin 32} {b : Fin 32} {guard : Fin 8} {neg : Bool} {s0 s : State} (h : Kept s0 s) :
    Ends s0 (execAluxXor run d a b guard neg s) := by
  unfold execAluxXor
  refine Ends.next ?_
  with_reducible repeat' first
    | exact h
    | refine alux_kept ?_

theorem execAluxAndn_ends {run : CoreRun} {d : Fin 32} {a : Fin 32} {b : Fin 32} {guard : Fin 8} {neg : Bool} {s0 s : State} (h : Kept s0 s) :
    Ends s0 (execAluxAndn run d a b guard neg s) := by
  unfold execAluxAndn
  refine Ends.next ?_
  with_reducible repeat' first
    | exact h
    | refine alux_kept ?_
    | assumption

theorem execAluxShl_ends {run : CoreRun} {d : Fin 32} {a : Fin 32} {b : Fin 32} {guard : Fin 8} {neg : Bool} {s0 s : State} (h : Kept s0 s) :
    Ends s0 (execAluxShl run d a b guard neg s) := by
  unfold execAluxShl
  refine Ends.next ?_
  with_reducible repeat' first
    | exact h
    | refine alux_kept ?_

theorem execAluxShr_ends {run : CoreRun} {d : Fin 32} {a : Fin 32} {b : Fin 32} {guard : Fin 8} {neg : Bool} {s0 s : State} (h : Kept s0 s) :
    Ends s0 (execAluxShr run d a b guard neg s) := by
  unfold execAluxShr
  refine Ends.next ?_
  with_reducible repeat' first
    | exact h
    | refine alux_kept ?_

theorem execAluxSar_ends {run : CoreRun} {d : Fin 32} {a : Fin 32} {b : Fin 32} {guard : Fin 8} {neg : Bool} {s0 s : State} (h : Kept s0 s) :
    Ends s0 (execAluxSar run d a b guard neg s) := by
  unfold execAluxSar
  refine Ends.next ?_
  with_reducible repeat' first
    | exact h
    | refine alux_kept ?_

theorem execAluxMul_ends {run : CoreRun} {d : Fin 32} {a : Fin 32} {b : Fin 32} {guard : Fin 8} {neg : Bool} {s0 s : State} (h : Kept s0 s) :
    Ends s0 (execAluxMul run d a b guard neg s) := by
  unfold execAluxMul
  refine Ends.next ?_
  with_reducible repeat' first
    | exact h
    | refine alux_kept ?_

theorem execAluxMulh_ends {run : CoreRun} {d : Fin 32} {a : Fin 32} {b : Fin 32} {guard : Fin 8} {neg : Bool} {s0 s : State} (h : Kept s0 s) :
    Ends s0 (execAluxMulh run d a b guard neg s) := by
  unfold execAluxMulh
  refine Ends.next ?_
  with_reducible repeat' first
    | exact h
    | refine alux_kept ?_

theorem execAluxMulhu_ends {run : CoreRun} {d : Fin 32} {a : Fin 32} {b : Fin 32} {guard : Fin 8} {neg : Bool} {s0 s : State} (h : Kept s0 s) :
    Ends s0 (execAluxMulhu run d a b guard neg s) := by
  unfold execAluxMulhu
  refine Ends.next ?_
  with_reducible repeat' first
    | exact h
    | refine alux_kept ?_

theorem execAluxDiv_ends {run : CoreRun} {d : Fin 32} {a : Fin 32} {b : Fin 32} {guard : Fin 8} {neg : Bool} {s0 s : State} (h : Kept s0 s) :
    Ends s0 (execAluxDiv run d a b guard neg s) := by
  unfold execAluxDiv
  refine Ends.next ?_
  with_reducible repeat' first
    | exact h
    | refine alux_kept ?_

theorem execAluxDivu_ends {run : CoreRun} {d : Fin 32} {a : Fin 32} {b : Fin 32} {guard : Fin 8} {neg : Bool} {s0 s : State} (h : Kept s0 s) :
    Ends s0 (execAluxDivu run d a b guard neg s) := by
  unfold execAluxDivu
  refine Ends.next ?_
  with_reducible repeat' first
    | exact h
    | refine alux_kept ?_

theorem execAluxRem_ends {run : CoreRun} {d : Fin 32} {a : Fin 32} {b : Fin 32} {guard : Fin 8} {neg : Bool} {s0 s : State} (h : Kept s0 s) :
    Ends s0 (execAluxRem run d a b guard neg s) := by
  unfold execAluxRem
  refine Ends.next ?_
  with_reducible repeat' first
    | exact h
    | refine alux_kept ?_

theorem execAluxRemu_ends {run : CoreRun} {d : Fin 32} {a : Fin 32} {b : Fin 32} {guard : Fin 8} {neg : Bool} {s0 s : State} (h : Kept s0 s) :
    Ends s0 (execAluxRemu run d a b guard neg s) := by
  unfold execAluxRemu
  refine Ends.next ?_
  with_reducible repeat' first
    | exact h
    | refine alux_kept ?_

theorem execAluxMin_ends {run : CoreRun} {d : Fin 32} {a : Fin 32} {b : Fin 32} {guard : Fin 8} {neg : Bool} {s0 s : State} (h : Kept s0 s) :
    Ends s0 (execAluxMin run d a b guard neg s) := by
  unfold execAluxMin
  refine Ends.next ?_
  with_reducible repeat' first
    | exact h
    | refine alux_kept ?_
    | refine Kept.ite ?_ ?_
    | assumption
    | split

theorem execAluxMax_ends {run : CoreRun} {d : Fin 32} {a : Fin 32} {b : Fin 32} {guard : Fin 8} {neg : Bool} {s0 s : State} (h : Kept s0 s) :
    Ends s0 (execAluxMax run d a b guard neg s) := by
  unfold execAluxMax
  refine Ends.next ?_
  with_reducible repeat' first
    | exact h
    | refine alux_kept ?_
    | refine Kept.ite ?_ ?_
    | assumption
    | split

theorem execAluxMinu_ends {run : CoreRun} {d : Fin 32} {a : Fin 32} {b : Fin 32} {guard : Fin 8} {neg : Bool} {s0 s : State} (h : Kept s0 s) :
    Ends s0 (execAluxMinu run d a b guard neg s) := by
  unfold execAluxMinu
  refine Ends.next ?_
  with_reducible repeat' first
    | exact h
    | refine alux_kept ?_
    | refine Kept.ite ?_ ?_
    | assumption
    | split

theorem execAluxMaxu_ends {run : CoreRun} {d : Fin 32} {a : Fin 32} {b : Fin 32} {guard : Fin 8} {neg : Bool} {s0 s : State} (h : Kept s0 s) :
    Ends s0 (execAluxMaxu run d a b guard neg s) := by
  unfold execAluxMaxu
  refine Ends.next ?_
  with_reducible repeat' first
    | exact h
    | refine alux_kept ?_
    | refine Kept.ite ?_ ?_
    | assumption
    | split

theorem execAluxClz_ends {run : CoreRun} {d : Fin 32} {a : Fin 32} {b : Fin 32} {guard : Fin 8} {neg : Bool} {s0 s : State} (h : Kept s0 s) :
    Ends s0 (execAluxClz run d a b guard neg s) := by
  unfold execAluxClz
  refine Ends.next ?_
  with_reducible repeat' first
    | exact h
    | refine alux_kept ?_
    | assumption

theorem execAluxCtz_ends {run : CoreRun} {d : Fin 32} {a : Fin 32} {b : Fin 32} {guard : Fin 8} {neg : Bool} {s0 s : State} (h : Kept s0 s) :
    Ends s0 (execAluxCtz run d a b guard neg s) := by
  unfold execAluxCtz
  refine Ends.next ?_
  with_reducible repeat' first
    | exact h
    | refine alux_kept ?_
    | assumption

theorem execAluxPopc_ends {run : CoreRun} {d : Fin 32} {a : Fin 32} {b : Fin 32} {guard : Fin 8} {neg : Bool} {s0 s : State} (h : Kept s0 s) :
    Ends s0 (execAluxPopc run d a b guard neg s) := by
  unfold execAluxPopc
  refine Ends.next ?_
  with_reducible repeat' first
    | exact h
    | refine alux_kept ?_
    | assumption

theorem execAluxBswap_ends {run : CoreRun} {d : Fin 32} {a : Fin 32} {b : Fin 32} {guard : Fin 8} {neg : Bool} {s0 s : State} (h : Kept s0 s) :
    Ends s0 (execAluxBswap run d a b guard neg s) := by
  unfold execAluxBswap
  refine Ends.next ?_
  with_reducible repeat' first
    | exact h
    | refine alux_kept ?_
    | assumption

theorem execAluxSext32_ends {run : CoreRun} {d : Fin 32} {a : Fin 32} {b : Fin 32} {guard : Fin 8} {neg : Bool} {s0 s : State} (h : Kept s0 s) :
    Ends s0 (execAluxSext32 run d a b guard neg s) := by
  unfold execAluxSext32
  refine Ends.next ?_
  with_reducible repeat' first
    | exact h
    | refine alux_kept ?_
    | assumption

theorem execAluxZext32_ends {run : CoreRun} {d : Fin 32} {a : Fin 32} {b : Fin 32} {guard : Fin 8} {neg : Bool} {s0 s : State} (h : Kept s0 s) :
    Ends s0 (execAluxZext32 run d a b guard neg s) := by
  unfold execAluxZext32
  refine Ends.next ?_
  with_reducible repeat' first
    | exact h
    | refine alux_kept ?_
    | assumption

theorem compare_kept {r : CoreRun} {len : Nat} {reads : List Nat} {p : Fin 8} {cond : Fin 4} {x0 : CoreState → BitVec 64} {y : CoreState → BitVec 64} {s0 s : State} (h : Kept s0 s) :
    Kept s0 (compare s r len reads p cond x0 y) := by
  unfold compare
  with_reducible repeat' first
    | exact h
    | refine issue_kept (fun x a0 hx => ?_) ?_
    | refine advance_kept ?_
    | assumption

theorem execCmp_ends {run : CoreRun} {p : Fin 8} {cond : Fin 4} {a : Fin 32} {b : Fin 32} {s0 s : State} (h : Kept s0 s) :
    Ends s0 (execCmp run p cond a b s) := by
  unfold execCmp
  refine Ends.next ?_
  with_reducible repeat' first
    | exact h
    | refine compare_kept ?_
    | assumption

theorem execCmpi_ends {run : CoreRun} {p : Fin 8} {cond : Fin 4} {a : Fin 32} {imm : BitVec 5} {s0 s : State} (h : Kept s0 s) :
    Ends s0 (execCmpi run p cond a imm s) := by
  unfold execCmpi
  refine Ends.next ?_
  with_reducible repeat' first
    | exact h
    | refine compare_kept ?_
    | assumption

theorem execCmpl_ends {run : CoreRun} {p : Fin 8} {cond : Fin 4} {a : Fin 32} {imm : BitVec 20} {s0 s : State} (h : Kept s0 s) :
    Ends s0 (execCmpl run p cond a imm s) := by
  unfold execCmpl
  refine Ends.next ?_
  with_reducible repeat' first
    | exact h
    | refine compare_kept ?_
    | assumption

theorem execPlog_ends {run : CoreRun} {p : Fin 8} {op : Fin 4} {a : Fin 8} {b : Fin 8} {s0 s : State} (h : Kept s0 s) :
    Ends s0 (execPlog run p op a b s) := by
  unfold execPlog
  refine Ends.next ?_
  with_reducible repeat' first
    | exact h
    | refine issue_kept (fun x a0 hx => ?_) ?_
    | refine advance_kept ?_
    | assumption
    | (intro hx; clear_value x)
    | (intro x; refine Kept.cut (s := s0) (x := x) ?_ ?_)
    | (intro x; refine Kept.cut (s := s0) (x := x.1) ?_ ?_)
    | (intro x; clear_value x)
    | lift_lets -underBinder
    | split
    | refine Kept.of_fst (by assumption) ?_
    | (unfold x; split)

theorem execMovc_ends {run : CoreRun} {d : Fin 32} {a : Fin 32} {guard : Fin 8} {neg : Bool} {s0 s : State} (h : Kept s0 s) :
    Ends s0 (execMovc run d a guard neg s) := by
  unfold execMovc
  refine Ends.next ?_
  with_reducible repeat' first
    | exact h
    | refine issue_kept (fun x a0 hx => ?_) ?_
    | refine advance_kept ?_
    | refine Kept.ite ?_ ?_
    | assumption
    | split

theorem branch_kept {r : CoreRun} {len : Nat} {p : Fin 8} {neg : Bool} {off : BitVec 64} {s0 s : State} (h : Kept s0 s) :
    Kept s0 (branch s r len p neg off) := by
  unfold branch
  with_reducible repeat' first
    | exact h
    | refine issue_kept (fun x a0 hx => ?_) ?_
    | refine advance_kept ?_
    | refine jump_kept ?_
    | refine Kept.ite ?_ ?_
    | assumption
    | split

theorem execBr_ends {run : CoreRun} {p : Fin 8} {neg : Bool} {offset : BitVec 10} {s0 s : State} (h : Kept s0 s) :
    Ends s0 (execBr run p neg offset s) := by
  unfold execBr
  refine Ends.next ?_
  with_reducible repeat' first
    | exact h
    | refine branch_kept ?_

theorem execBrl_ends {run : CoreRun} {p : Fin 8} {neg : Bool} {offset : BitVec 20} {s0 s : State} (h : Kept s0 s) :
    Ends s0 (execBrl run p neg offset s) := by
  unfold execBrl
  refine Ends.next ?_
  with_reducible repeat' first
    | exact h
    | refine branch_kept ?_

theorem execJal_ends {run : CoreRun} {offset : BitVec 15} {s0 s : State} (h : Kept s0 s) :
    Ends s0 (execJal run offset s) := by
  unfold execJal
  refine Ends.next ?_
  with_reducible repeat' first
    | exact h
    | refine issue_kept (fun x a0 hx => ?_) ?_
    | refine jump_kept ?_
    | assumption

theorem execJall_ends {run : CoreRun} {d : Fin 32} {offset : BitVec 20} {s0 s : State} (h : Kept s0 s) :
    Ends s0 (execJall run d offset s) := by
  unfold execJall
  refine Ends.next ?_
  with_reducible repeat' first
    | exact h
    | refine issue_kept (fun x a0 hx => ?_) ?_
    | refine jump_kept ?_
    | assumption

theorem execJalr_ends {run : CoreRun} {d : Fin 32} {a : Fin 32} {s0 s : State} (h : Kept s0 s) :
    Ends s0 (execJalr run d a s) := by
  unfold execJalr
  refine Ends.next ?_
  with_reducible repeat' first
    | exact h
    | refine issue_kept (fun x a0 hx => ?_) ?_
    | refine jump_kept ?_
    | assumption

theorem execNop_ends {run : CoreRun} {s0 s : State} (h : Kept s0 s) :
    Ends s0 (execNop run s) := by
  unfold execNop
  refine Ends.next ?_
  with_reducible repeat' first
    | exact h
    | refine issue_kept (fun x a0 hx => ?_) ?_
    | refine advance_kept ?_
    | assumption

theorem execFence_ends {run : CoreRun} {s0 s : State} (h : Kept s0 s) :
    Ends s0 (execFence run s) := by
  unfold execFence
  refine Ends.next ?_
  with_reducible repeat' first
    | exact h
    | refine modCore_kept ?_
    | refine issue_kept (fun x a0 hx => ?_) ?_
    | refine advance_kept ?_
    | refine Kept.ite ?_ ?_
    | assumption
    | split
    | (refine Kept.upd ?_; first | assumption | refine modCore_kept ?_ | refine issue_kept (fun x a0 hx => ?_) ?_ | refine advance_kept ?_ | refine Kept.ite ?_ ?_)

theorem execTrap_ends {run : CoreRun} {code : BitVec 10} {s0 s : State} (h : Kept s0 s) :
    Ends s0 (execTrap run code s) := by
  unfold execTrap
  refine Ends.next ?_
  with_reducible repeat' first
    | exact h
    | refine raiseTrap_kept ?_
    | refine issue_kept (fun x a0 hx => ?_) ?_
    | assumption

theorem execFault_ends {run : CoreRun} {code : BitVec 10} {s0 s : State} (h : Kept s0 s) :
    Ends s0 (execFault run code s) := by
  unfold execFault
  refine Ends.next ?_
  with_reducible repeat' first
    | exact h
    | refine raiseTrap_kept ?_
    | refine issue_kept (fun x a0 hx => ?_) ?_
    | assumption

theorem execRett_ends {run : CoreRun} {s0 s : State} (h : Kept s0 s) :
    Ends s0 (execRett run s) := by
  unfold execRett
  refine Ends.next ?_
  with_reducible repeat' first
    | exact h
    | refine fault_kept ?_
    | refine issue_kept (fun x a0 hx => ?_) ?_
    | refine jump_kept ?_
    | refine Kept.ite ?_ ?_
    | assumption
    | split
    | (refine Kept.upd ?_; first | assumption | refine fault_kept ?_ | refine issue_kept (fun x a0 hx => ?_) ?_ | refine jump_kept ?_ | refine Kept.ite ?_ ?_)

theorem execRdcs_ends {run : CoreRun} {d : Fin 32} {index : Fin 32} {s0 s : State} (h : Kept s0 s) :
    Ends s0 (execRdcs run d index s) := by
  unfold execRdcs
  refine Ends.next ?_
  with_reducible repeat' first
    | exact h
    | refine State.drew_kept ?_
    | refine fault_kept ?_
    | refine issue_kept (fun x a0 hx => ?_) ?_
    | refine advance_kept ?_
    | refine Kept.ite ?_ ?_
    | assumption
    | split
    | refine Kept.of_fst (by assumption) ?_

theorem execWrcs_ends {run : CoreRun} {index : Fin 32} {a : Fin 32} {s0 s : State} (h : Kept s0 s) :
    Ends s0 (execWrcs run index a s) := by
  unfold execWrcs
  refine Ends.next ?_
  with_reducible repeat' first
    | exact h
    | refine fault_kept ?_
    | refine issue_kept (fun x a0 hx => ?_) ?_
    | refine advance_kept ?_
    | refine Kept.ite ?_ ?_
    | assumption
    | (intro hx; clear_value x)
    | (intro x; refine Kept.cut (s := s0) (x := x) ?_ ?_)
    | (intro x; refine Kept.cut (s := s0) (x := x.1) ?_ ?_)
    | (intro x; clear_value x)
    | lift_lets -underBinder
    | split
    | refine Kept.of_fst (by assumption) ?_
    | (unfold x; split)
    | (refine Kept.upd ?_; first | assumption | refine fault_kept ?_ | refine issue_kept (fun x a0 hx => ?_) ?_ | refine advance_kept ?_ | refine Kept.ite ?_ ?_ | (refine Kept.upd ?_; first | assumption | refine fault_kept ?_ | refine issue_kept (fun x a0 hx => ?_) ?_ | refine advance_kept ?_))

end Sys2Proof.Machine
end

