-- ==== Sys2Proof/Laws/KeptClocks.lean ====
section
/-! SUPPORT. What every step keeps, through the functions of Clocks. -/

set_option linter.all false
set_option maxRecDepth 8000

namespace Sys2Proof.Machine

theorem setLoop_kept {l : Nat} {x0 : Loop} {s0 s : State} (h : Kept s0 s) :
    Kept s0 (setLoop s l x0) := by
  unfold setLoop
  with_reducible repeat' first
    | exact h
    | refine State.putB_kept ?_
    | refine relock_kept ?_
    | refine Kept.ite ?_ ?_
    | assumption
    | (intro hx; clear_value x)
    | (intro x; refine Kept.cut (s := s0) (x := x) ?_ ?_)
    | (intro x; refine Kept.cut (s := s0) (x := x.1) ?_ ?_)
    | (intro x; clear_value x)
    | lift_lets -underBinder
    | split
    | (refine Kept.upd ?_; first | assumption | refine State.putB_kept ?_ | refine relock_kept ?_ | refine Kept.ite ?_ ?_)

theorem setActive_kept {l : Nat} {c : Nat} {s0 s : State} (h : Kept s0 s) :
    Kept s0 (setActive s l c) := by
  unfold setActive
  with_reducible repeat' first
    | exact h
    | refine State.put_kept ?_
    | refine Kept.ite ?_ ?_
    | split

theorem phaseStep_kept {q : Nat} {s0 s : State} (h : Kept s0 s) :
    Kept s0 (phaseStep s q) := by
  unfold phaseStep
  with_reducible repeat' first
    | exact h
    | refine State.each_kept ?_ (fun x a hx => ?_)
    | refine setLink_kept ?_
    | refine Kept.ite ?_ ?_
    | assumption
    | split

theorem retake_kept {l : Nat} {s0 s : State} (h : Kept s0 s) :
    Kept s0 (retake s l) := by
  unfold retake
  with_reducible repeat' first
    | exact h
    | refine State.each_kept ?_ (fun x a hx => ?_)
    | refine event_kept ?_
    | refine relock_kept ?_
    | refine setLoop_kept ?_
    | refine setActive_kept ?_
    | refine phaseStep_kept ?_
    | refine Kept.ite ?_ ?_
    | assumption
    | (intro hx; clear_value x)
    | (intro x; refine Kept.cut (s := s0) (x := x) ?_ ?_)
    | (intro x; refine Kept.cut (s := s0) (x := x.1) ?_ ?_)
    | (intro x; clear_value x)
    | lift_lets -underBinder
    | split
    | refine Kept.of_fst (by assumption) ?_
    | (unfold x; split)

theorem loseReference_kept {l : Nat} {lost : Option Nat} {s0 s : State} (h : Kept s0 s) :
    Kept s0 (loseReference s l lost) := by
  unfold loseReference
  with_reducible repeat' first
    | exact h
    | refine relock_kept ?_
    | refine setLoop_kept ?_
    | refine retake_kept ?_
    | assumption
    | (intro hx; clear_value x)
    | (intro x; refine Kept.cut (s := s0) (x := x) ?_ ?_)
    | (intro x; refine Kept.cut (s := s0) (x := x.1) ?_ ?_)
    | (intro x; clear_value x)
    | lift_lets -underBinder
    | (refine Kept.upd ?_; first | assumption | refine relock_kept ?_ | refine setLoop_kept ?_ | refine retake_kept ?_)

theorem hardwareSwitch_kept {n : Nat} {src : Nat} {ready : Bool} {s0 s : State} (h : Kept s0 s) :
    Kept s0 (hardwareSwitch s n src ready) := by
  unfold hardwareSwitch
  with_reducible repeat' first
    | exact h
    | refine State.put_kept ?_
    | refine Kept.ite ?_ ?_
    | split
    | (refine Kept.upd ?_; first | assumption | refine State.put_kept ?_ | refine Kept.ite ?_ ?_)

theorem releasePending_kept {s0 s : State} (h : Kept s0 s) :
    Kept s0 (releasePending s) := by
  unfold releasePending
  with_reducible repeat' first
    | exact h
    | refine State.each_kept ?_ (fun x a hx => ?_)
    | refine hardwareSwitch_kept ?_
    | refine Kept.ite ?_ ?_
    | assumption
    | (intro hx; clear_value x)
    | (intro x; refine Kept.cut (s := s0) (x := x) ?_ ?_)
    | (intro x; refine Kept.cut (s := s0) (x := x.1) ?_ ?_)
    | (intro x; clear_value x)
    | lift_lets -underBinder
    | split

theorem bootClock_kept {s0 s : State} (h : Kept s0 s) :
    Kept s0 (bootClock s) := by
  unfold bootClock
  with_reducible repeat' first
    | exact h
    | refine State.put_kept ?_
    | refine hardwareSwitch_kept ?_
    | refine Kept.ite ?_ ?_
    | assumption
    | (intro hx; clear_value x)
    | (intro x; refine Kept.cut (s := s0) (x := x) ?_ ?_)
    | (intro x; refine Kept.cut (s := s0) (x := x.1) ?_ ?_)
    | (intro x; clear_value x)
    | lift_lets -underBinder
    | split
    | refine Kept.of_fst (by assumption) ?_
    | (unfold x; split)

theorem followBackstop_kept {s0 s : State} (h : Kept s0 s) :
    Kept s0 (followBackstop s) := by
  unfold followBackstop
  with_reducible repeat' first
    | exact h
    | refine State.put_kept ?_
    | refine hardwareSwitch_kept ?_
    | refine Kept.ite ?_ ?_
    | assumption
    | (intro hx; clear_value x)
    | (intro x; refine Kept.cut (s := s0) (x := x) ?_ ?_)
    | (intro x; refine Kept.cut (s := s0) (x := x.1) ?_ ?_)
    | (intro x; clear_value x)
    | lift_lets -underBinder
    | split

theorem tripInput_kept {q : Nat} {s0 s : State} (h : Kept s0 s) :
    Kept s0 (tripInput s q) := by
  unfold tripInput
  with_reducible repeat' first
    | exact h
    | refine State.inc_kept ?_
    | refine State.setFlag_kept ?_
    | refine State.each_kept ?_ (fun x a hx => ?_)
    | refine event_kept ?_
    | refine loseReference_kept ?_
    | refine followBackstop_kept ?_
    | refine Kept.ite ?_ ?_
    | assumption
    | (intro hx; clear_value x)
    | (intro x; refine Kept.cut (s := s0) (x := x) ?_ ?_)
    | (intro x; refine Kept.cut (s := s0) (x := x.1) ?_ ?_)
    | (intro x; clear_value x)
    | lift_lets -underBinder
    | split

theorem execRefclkLoss_ends {input : Fin 4} {s0 s : State} (h : Kept s0 s) :
    Ends s0 (execRefclkLoss input s) := by
  unfold execRefclkLoss
  refine Ends.next ?_
  with_reducible repeat' first
    | exact h
    | refine tripInput_kept ?_

theorem execRefclkFrequencyTrip_ends {input : Fin 4} {s0 s : State} (h : Kept s0 s) :
    Ends s0 (execRefclkFrequencyTrip input s) := by
  unfold execRefclkFrequencyTrip
  refine Ends.next ?_
  with_reducible repeat' first
    | exact h
    | refine tripInput_kept ?_
    | refine Kept.ite ?_ ?_
    | split

theorem execRefclkValid_ends {input : Fin 4} {s0 s : State} (h : Kept s0 s) :
    Ends s0 (execRefclkValid input s) := by
  unfold execRefclkValid
  refine Ends.next ?_
  with_reducible repeat' first
    | exact h
    | refine State.setFlag_kept ?_
    | refine followBackstop_kept ?_
    | refine Kept.ite ?_ ?_
    | split

theorem retakeAll_kept {s0 s : State} (h : Kept s0 s) :
    Kept s0 (retakeAll s) := by
  unfold retakeAll
  with_reducible repeat' first
    | exact h
    | refine State.each_kept ?_ (fun x a hx => ?_)
    | refine retake_kept ?_
    | refine Kept.ite ?_ ?_
    | assumption
    | split

theorem execRefclkReady_ends {input : Fin 4} {s0 s : State} (h : Kept s0 s) :
    Ends s0 (execRefclkReady input s) := by
  unfold execRefclkReady
  refine Ends.next ?_
  with_reducible repeat' first
    | exact h
    | refine State.setFlag_kept ?_
    | refine retakeAll_kept ?_
    | refine Kept.ite ?_ ?_
    | split

theorem execPllRelock_ends {loop : Fin 11} {s0 s : State} (h : Kept s0 s) :
    Ends s0 (execPllRelock loop s) := by
  unfold execPllRelock
  refine Ends.next ?_
  with_reducible repeat' first
    | exact h
    | refine relock_kept ?_
    | refine setLoop_kept ?_
    | refine releasePending_kept ?_
    | refine bootClock_kept ?_
    | refine Kept.ite ?_ ?_
    | split

theorem coastLoop_kept {l : Nat} {s0 s : State} (h : Kept s0 s) :
    Kept s0 (coastLoop s l) := by
  unfold coastLoop
  with_reducible repeat' first
    | exact h
    | refine State.each_kept ?_ (fun x a hx => ?_)
    | refine report_kept ?_
    | refine quadToDetect_kept ?_
    | refine setLoop_kept ?_
    | refine Kept.ite ?_ ?_
    | assumption
    | (intro hx; clear_value x)
    | (intro x; refine Kept.cut (s := s0) (x := x) ?_ ?_)
    | (intro x; refine Kept.cut (s := s0) (x := x.1) ?_ ?_)
    | (intro x; clear_value x)
    | lift_lets -underBinder
    | split

theorem execPllCoast_ends {loop : Fin 11} {s0 s : State} (h : Kept s0 s) :
    Ends s0 (execPllCoast loop s) := by
  unfold execPllCoast
  refine Ends.next ?_
  with_reducible repeat' first
    | exact h
    | refine relock_kept ?_
    | refine coastLoop_kept ?_
    | refine Kept.ite ?_ ?_
    | assumption
    | (intro hx; clear_value x)
    | (intro x; refine Kept.cut (s := s0) (x := x) ?_ ?_)
    | (intro x; refine Kept.cut (s := s0) (x := x.1) ?_ ?_)
    | (intro x; clear_value x)
    | lift_lets -underBinder
    | split

theorem execCoastEscalation_ends {loop : Fin 11} {s0 s : State} (h : Kept s0 s) :
    Ends s0 (execCoastEscalation loop s) := by
  unfold execCoastEscalation
  refine Ends.next ?_
  with_reducible repeat' first
    | exact h
    | refine event_kept ?_
    | refine setLoop_kept ?_
    | refine Kept.ite ?_ ?_
    | assumption
    | (intro hx; clear_value x)
    | (intro x; refine Kept.cut (s := s0) (x := x) ?_ ?_)
    | (intro x; refine Kept.cut (s := s0) (x := x.1) ?_ ?_)
    | (intro x; clear_value x)
    | lift_lets -underBinder
    | split
    | (refine Kept.upd ?_; first | assumption | refine event_kept ?_ | refine setLoop_kept ?_ | refine Kept.ite ?_ ?_)

theorem execPllLockLost_ends {loop : Fin 11} {s0 s : State} (h : Kept s0 s) :
    Ends s0 (execPllLockLost loop s) := by
  unfold execPllLockLost
  refine Ends.next ?_
  with_reducible repeat' first
    | exact h
    | refine event_kept ?_
    | refine relock_kept ?_
    | refine setLoop_kept ?_
    | refine loseReference_kept ?_
    | refine Kept.ite ?_ ?_
    | assumption
    | (intro hx; clear_value x)
    | (intro x; refine Kept.cut (s := s0) (x := x) ?_ ?_)
    | (intro x; refine Kept.cut (s := s0) (x := x.1) ?_ ?_)
    | (intro x; clear_value x)
    | lift_lets -underBinder
    | split

theorem execOscLockComplete_ends {trim : BitVec 8} {s0 s : State} (h : Kept s0 s) :
    Ends s0 (execOscLockComplete trim s) := by
  unfold execOscLockComplete
  refine Ends.next ?_
  with_reducible repeat' first
    | exact h
    | refine State.put_kept ?_
    | refine releasePending_kept ?_
    | refine followBackstop_kept ?_
    | refine retakeAll_kept ?_
    | refine Kept.ite ?_ ?_
    | assumption
    | (intro hx; clear_value x)
    | (intro x; refine Kept.cut (s := s0) (x := x) ?_ ?_)
    | (intro x; refine Kept.cut (s := s0) (x := x.1) ?_ ?_)
    | (intro x; clear_value x)
    | lift_lets -underBinder
    | split
    | (refine Kept.upd ?_; first | assumption | refine State.put_kept ?_ | refine releasePending_kept ?_ | refine followBackstop_kept ?_ | refine retakeAll_kept ?_ | refine Kept.ite ?_ ?_)

theorem execOscOutOfRange_ends {s0 s : State} (h : Kept s0 s) :
    Ends s0 (execOscOutOfRange s) := by
  unfold execOscOutOfRange
  refine Ends.next ?_
  with_reducible repeat' first
    | exact h
    | refine State.put_kept ?_
    | refine event_kept ?_
    | refine Kept.ite ?_ ?_
    | split
    | (refine Kept.upd ?_; first | assumption | refine State.put_kept ?_ | refine event_kept ?_ | refine Kept.ite ?_ ?_)

theorem writeOsc_kept {v : BitVec 64} {s0 s : State} (h : Kept s0 s) :
    Kept s0 (writeOsc s v) := by
  unfold writeOsc
  with_reducible repeat' first
    | exact h
    | refine Kept.ite ?_ ?_
    | split
    | (refine Kept.upd ?_; first | assumption | refine Kept.ite ?_ ?_)

theorem execOscRelock_ends {value : BitVec 64} {s0 s : State} (h : Kept s0 s) :
    Ends s0 (execOscRelock value s) := by
  unfold execOscRelock
  refine Ends.next ?_
  with_reducible repeat' first
    | exact h
    | refine writeOsc_kept ?_

theorem writeDomain_kept {n : Nat} {v : BitVec 64} {s0 s : State} (h : Kept s0 s) :
    Kept s0 (writeDomain s n v) := by
  unfold writeDomain
  with_reducible repeat' first
    | exact h
    | refine State.put_kept ?_
    | refine event_kept ?_
    | refine notice_kept ?_
    | refine Kept.ite ?_ ?_
    | assumption
    | (intro hx; clear_value x)
    | (intro x; refine Kept.cut (s := s0) (x := x) ?_ ?_)
    | (intro x; refine Kept.cut (s := s0) (x := x.1) ?_ ?_)
    | (intro x; clear_value x)
    | lift_lets -underBinder
    | split
    | (refine Kept.upd ?_; first | assumption | refine State.put_kept ?_ | refine event_kept ?_ | refine notice_kept ?_ | refine Kept.ite ?_ ?_)

theorem execDomainSwitchRequest_ends {domain : Fin 32} {value : BitVec 64} {s0 s : State} (h : Kept s0 s) :
    Ends s0 (execDomainSwitchRequest domain value s) := by
  unfold execDomainSwitchRequest
  refine Ends.next ?_
  with_reducible repeat' first
    | exact h
    | refine writeDomain_kept ?_
    | refine Kept.ite ?_ ?_
    | split

theorem execDomainSwitchComplete_ends {domain : Fin 32} {s0 s : State} (h : Kept s0 s) :
    Ends s0 (execDomainSwitchComplete domain s) := by
  unfold execDomainSwitchComplete
  refine Ends.next ?_
  with_reducible repeat' first
    | exact h
    | refine State.put_kept ?_
    | refine Kept.ite ?_ ?_
    | assumption
    | (intro hx; clear_value x)
    | (intro x; refine Kept.cut (s := s0) (x := x) ?_ ?_)
    | (intro x; refine Kept.cut (s := s0) (x := x.1) ?_ ?_)
    | (intro x; clear_value x)
    | lift_lets -underBinder
    | split
    | refine Kept.of_fst (by assumption) ?_
    | (unfold x; split)
    | (refine Kept.upd ?_; first | assumption | refine State.put_kept ?_ | refine Kept.ite ?_ ?_)

theorem gateOn_kept {k n : Nat} {s0 s : State} (h : Kept s0 s) : Kept s0 (gateOn k s n) := by
  induction k generalizing s n with
  | zero => exact h
  | succ k ih =>
    unfold gateOn
    split
    · exact h
    · refine State.put_kept (State.put_kept (Kept.ite h (ih h)))

theorem writeGate_kept {n : Nat} {v : BitVec 64} {s0 s : State} (h : Kept s0 s) :
    Kept s0 (writeGate s n v) := by
  unfold writeGate
  with_reducible repeat' first
    | exact h
    | refine State.put_kept ?_
    | refine event_kept ?_
    | refine gateOn_kept ?_
    | refine Kept.ite ?_ ?_
    | assumption
    | (intro hx; clear_value x)
    | (intro x; refine Kept.cut (s := s0) (x := x) ?_ ?_)
    | (intro x; refine Kept.cut (s := s0) (x := x.1) ?_ ?_)
    | (intro x; clear_value x)
    | lift_lets -underBinder
    | split

theorem execGateWrite_ends {gate : Fin 4096} {value : BitVec 64} {s0 s : State} (h : Kept s0 s) :
    Ends s0 (execGateWrite gate value s) := by
  unfold execGateWrite
  refine Ends.next ?_
  with_reducible repeat' first
    | exact h
    | refine writeGate_kept ?_

theorem writeClkOut_kept {o : Nat} {v : BitVec 64} {s0 s : State} (h : Kept s0 s) :
    Kept s0 (writeClkOut s o v) := by
  unfold writeClkOut
  with_reducible repeat' first
    | exact h
    | refine State.put_kept ?_
    | refine event_kept ?_
    | refine notice_kept ?_
    | refine Kept.ite ?_ ?_
    | assumption
    | (intro hx; clear_value x)
    | (intro x; refine Kept.cut (s := s0) (x := x) ?_ ?_)
    | (intro x; refine Kept.cut (s := s0) (x := x.1) ?_ ?_)
    | (intro x; clear_value x)
    | lift_lets -underBinder
    | split

theorem execClkOutWrite_ends {out : Fin 2} {value : BitVec 64} {s0 s : State} (h : Kept s0 s) :
    Ends s0 (execClkOutWrite out value s) := by
  unfold execClkOutWrite
  refine Ends.next ?_
  with_reducible repeat' first
    | exact h
    | refine writeClkOut_kept ?_

theorem writeNibPll_kept {k : Nat} {v : BitVec 64} {s0 s : State} (h : Kept s0 s) :
    Kept s0 (writeNibPll s k v) := by
  unfold writeNibPll
  with_reducible repeat' first
    | exact h
    | refine State.put_kept ?_
    | refine Kept.ite ?_ ?_
    | split

theorem execNibPllWrite_ends {pll : Fin 2} {value : BitVec 64} {s0 s : State} (h : Kept s0 s) :
    Ends s0 (execNibPllWrite pll value s) := by
  unfold execNibPllWrite
  refine Ends.next ?_
  with_reducible repeat' first
    | exact h
    | refine writeNibPll_kept ?_

theorem execCrossingOverrun_ends {s0 s : State} (h : Kept s0 s) :
    Ends s0 (execCrossingOverrun s) := by
  unfold execCrossingOverrun
  refine Ends.next ?_
  with_reducible repeat' first
    | exact h
    | refine event_kept ?_
    | refine Kept.ite ?_ ?_
    | split

end Sys2Proof.Machine
end

