-- ==== Sys2Proof/Laws/KeptHeat.lean ====
section
/-! SUPPORT. What every step keeps, through the functions of Heat. -/

set_option linter.all false
set_option maxRecDepth 8000

namespace Sys2Proof.Machine

theorem tellHeat_kept {kind : Nat} {index : Nat} {value : Int} {s0 s : State} (h : Kept s0 s) :
    Kept s0 (tellHeat s kind index value) := by
  unfold tellHeat
  with_reducible repeat' first
    | exact h
    | refine postEvent_kept ?_

theorem showCluster_kept {c : Nat} {s0 s : State} (h : Kept s0 s) :
    Kept s0 (showCluster s c) := by
  unfold showCluster
  with_reducible repeat' first
    | exact h
    | refine State.put_kept ?_
    | refine State.putB_kept ?_
    | refine Kept.ite ?_ ?_
    | assumption
    | (intro hx; clear_value x)
    | (intro x; refine Kept.cut (s := s0) (x := x) ?_ ?_)
    | (intro x; refine Kept.cut (s := s0) (x := x.1) ?_ ?_)
    | (intro x; clear_value x)
    | lift_lets -underBinder
    | split

theorem driveClock_kept {c : Nat} {s0 s : State} (h : Kept s0 s) :
    Kept s0 (driveClock s c) := by
  unfold driveClock
  with_reducible repeat' first
    | exact h
    | refine State.put_kept ?_
    | refine hardwareSwitch_kept ?_
    | refine showCluster_kept ?_
    | refine Kept.ite ?_ ?_
    | assumption
    | (intro hx; clear_value x)
    | (intro x; refine Kept.cut (s := s0) (x := x) ?_ ?_)
    | (intro x; refine Kept.cut (s := s0) (x := x.1) ?_ ?_)
    | (intro x; clear_value x)
    | lift_lets -underBinder
    | split

theorem setClusterStep_kept {c : Nat} {n : Nat} {s0 s : State} (h : Kept s0 s) :
    Kept s0 (setClusterStep s c n) := by
  unfold setClusterStep
  with_reducible repeat' first
    | exact h
    | refine State.put_kept ?_
    | refine tellHeat_kept ?_
    | refine showCluster_kept ?_
    | refine Kept.ite ?_ ?_
    | split

theorem setTowerStep_kept {t : Nat} {n : Nat} {s0 s : State} (h : Kept s0 s) :
    Kept s0 (setTowerStep s t n) := by
  unfold setTowerStep
  with_reducible repeat' first
    | exact h
    | refine State.put_kept ?_
    | refine tellHeat_kept ?_
    | refine Kept.ite ?_ ?_
    | split

theorem noteStep_kept {unit : Nat} {step : Nat} {s0 s : State} (h : Kept s0 s) :
    Kept s0 (noteStep s unit step) := by
  unfold noteStep
  with_reducible repeat' first
    | exact h
    | refine eventOnce_kept ?_
    | refine Kept.ite ?_ ?_
    | split

theorem showBoost_kept {c : Nat} {s0 s : State} (h : Kept s0 s) :
    Kept s0 (showBoost s c) := by
  unfold showBoost
  with_reducible repeat' first
    | exact h
    | refine State.put_kept ?_
    | assumption
    | (intro hx; clear_value x)
    | (intro x; refine Kept.cut (s := s0) (x := x) ?_ ?_)
    | (intro x; refine Kept.cut (s := s0) (x := x.1) ?_ ?_)
    | (intro x; clear_value x)
    | lift_lets -underBinder
    | split
    | refine Kept.of_fst (by assumption) ?_

theorem endPeak_kept {c : Nat} {why : Nat} {s0 s : State} (h : Kept s0 s) :
    Kept s0 (endPeak s c why) := by
  unfold endPeak
  with_reducible repeat' first
    | exact h
    | refine State.put_kept ?_
    | refine State.setFlag_kept ?_
    | refine event_kept ?_
    | refine eventOnce_kept ?_
    | refine tellHeat_kept ?_
    | refine driveClock_kept ?_
    | refine Kept.ite ?_ ?_
    | assumption
    | (intro hx; clear_value x)
    | (intro x; refine Kept.cut (s := s0) (x := x) ?_ ?_)
    | (intro x; refine Kept.cut (s := s0) (x := x.1) ?_ ?_)
    | (intro x; clear_value x)
    | lift_lets -underBinder
    | split

theorem rearm_kept {c : Nat} {s0 s : State} (h : Kept s0 s) :
    Kept s0 (rearm s c) := by
  unfold rearm
  with_reducible repeat' first
    | exact h
    | refine State.put_kept ?_
    | refine Kept.ite ?_ ?_
    | assumption
    | (intro hx; clear_value x)
    | (intro x; refine Kept.cut (s := s0) (x := x) ?_ ?_)
    | (intro x; refine Kept.cut (s := s0) (x := x.1) ?_ ?_)
    | (intro x; clear_value x)
    | lift_lets -underBinder
    | split
    | (refine Kept.upd ?_; first | assumption | refine State.put_kept ?_ | refine Kept.ite ?_ ?_)

theorem noteFast_kept {c : Nat} {s0 s : State} (h : Kept s0 s) :
    Kept s0 (noteFast s c) := by
  unfold noteFast
  with_reducible repeat' first
    | exact h
    | refine State.setFlag_kept ?_
    | refine Kept.ite ?_ ?_
    | assumption
    | (intro hx; clear_value x)
    | (intro x; refine Kept.cut (s := s0) (x := x) ?_ ?_)
    | (intro x; refine Kept.cut (s := s0) (x := x.1) ?_ ?_)
    | (intro x; clear_value x)
    | lift_lets -underBinder
    | split

theorem judgePeak_kept {c : Nat} {s0 s : State} (h : Kept s0 s) :
    Kept s0 (judgePeak s c) := by
  unfold judgePeak
  with_reducible repeat' first
    | exact h
    | refine State.put_kept ?_
    | refine State.setFlag_kept ?_
    | refine driveClock_kept ?_
    | refine endPeak_kept ?_
    | refine rearm_kept ?_
    | refine noteFast_kept ?_
    | refine Kept.ite ?_ ?_
    | assumption
    | (intro hx; clear_value x)
    | (intro x; refine Kept.cut (s := s0) (x := x) ?_ ?_)
    | (intro x; refine Kept.cut (s := s0) (x := x.1) ?_ ?_)
    | (intro x; clear_value x)
    | lift_lets -underBinder
    | split
    | refine Kept.of_fst (by assumption) ?_
    | (unfold x; split)

theorem writePeak_kept {v : BitVec 64} {s0 s : State} (h : Kept s0 s) :
    Kept s0 (writePeak s v) := by
  unfold writePeak
  with_reducible repeat' first
    | exact h
    | refine State.put_kept ?_
    | refine State.each_kept ?_ (fun x a hx => ?_)
    | refine tellHeat_kept ?_
    | refine endPeak_kept ?_
    | refine Kept.ite ?_ ?_
    | assumption
    | (intro hx; clear_value x)
    | (intro x; refine Kept.cut (s := s0) (x := x) ?_ ?_)
    | (intro x; refine Kept.cut (s := s0) (x := x.1) ?_ ?_)
    | (intro x; clear_value x)
    | lift_lets -underBinder
    | split

theorem execPeakGrantWrite_ends {value : BitVec 64} {s0 s : State} (h : Kept s0 s) :
    Ends s0 (execPeakGrantWrite value s) := by
  unfold execPeakGrantWrite
  refine Ends.next ?_
  with_reducible repeat' first
    | exact h
    | refine writePeak_kept ?_

theorem thermalRubric_kept {s0 s : State} (h : Kept s0 s) :
    Kept s0 (thermalRubric s) := by
  unfold thermalRubric
  with_reducible repeat' first
    | exact h
    | refine writePeak_kept ?_
    | refine Kept.ite ?_ ?_
    | refine foldl_kept ?_ fun x a hx => ?_
    | refine foldl_kept_fst ?_ fun x a hx => ?_
    | assumption
    | (intro hx; clear_value x)
    | (intro x; refine Kept.cut (s := s0) (x := x) ?_ ?_)
    | (intro x; refine Kept.cut (s := s0) (x := x.1) ?_ ?_)
    | (intro x; clear_value x)
    | lift_lets -underBinder
    | split
    | (refine Kept.upd ?_; first | assumption | refine writePeak_kept ?_ | refine Kept.ite ?_ ?_)

theorem writeLimits_kept {v : BitVec 64} {s0 s : State} (h : Kept s0 s) :
    Kept s0 (writeLimits s v) := by
  unfold writeLimits
  with_reducible repeat' first
    | exact h
    | refine State.put_kept ?_
    | refine State.each_kept ?_ (fun x a hx => ?_)
    | refine notice_kept ?_
    | refine Kept.ite ?_ ?_
    | assumption
    | (intro hx; clear_value x)
    | (intro x; refine Kept.cut (s := s0) (x := x) ?_ ?_)
    | (intro x; refine Kept.cut (s := s0) (x := x.1) ?_ ?_)
    | (intro x; clear_value x)
    | lift_lets -underBinder
    | split
    | refine Kept.of_fst (by assumption) ?_

theorem execThmLimitsWrite_ends {value : BitVec 64} {s0 s : State} (h : Kept s0 s) :
    Ends s0 (execThmLimitsWrite value s) := by
  unfold execThmLimitsWrite
  refine Ends.next ?_
  with_reducible repeat' first
    | exact h
    | refine writeLimits_kept ?_

theorem readSensor_kept {i : Nat} {s0 s : State} (h : Kept s0 s) :
    Kept s0 (readSensor s i).1 := by
  unfold readSensor
  with_reducible repeat' first
    | exact h
    | refine State.put_kept ?_
    | assumption
    | (intro hx; clear_value x)
    | (intro x; refine Kept.cut (s := s0) (x := x) ?_ ?_)
    | (intro x; refine Kept.cut (s := s0) (x := x.1) ?_ ?_)
    | (intro x; clear_value x)
    | lift_lets -underBinder

theorem execThmSensorRead_ends {sensor : Fin 370} {s0 s : State} (h : Kept s0 s) :
    Ends s0 (execThmSensorRead sensor s) := by
  unfold execThmSensorRead
  refine Ends.next ?_
  with_reducible repeat' first
    | exact h
    | refine State.send_kept ?_
    | refine readSensor_kept ?_
    | assumption
    | (intro hx; clear_value x)
    | (intro x; refine Kept.cut (s := s0) (x := x) ?_ ?_)
    | (intro x; refine Kept.cut (s := s0) (x := x.1) ?_ ?_)
    | (intro x; clear_value x)
    | lift_lets -underBinder
    | split
    | refine Kept.of_fst (by assumption) ?_

theorem showClass_kept {s0 s : State} (h : Kept s0 s) :
    Kept s0 (showClass s) := by
  unfold showClass
  with_reducible repeat' first
    | exact h
    | refine State.put_kept ?_

theorem suspect_kept {c : Nat} {s0 s : State} (h : Kept s0 s) :
    Kept s0 (suspect s c) := by
  unfold suspect
  with_reducible repeat' first
    | exact h
    | refine State.put_kept ?_
    | refine event_kept ?_
    | refine tellHeat_kept ?_
    | refine Kept.ite ?_ ?_
    | split

theorem faultSensor_kept {i : Nat} {s0 s : State} (h : Kept s0 s) :
    Kept s0 (faultSensor s i) := by
  unfold faultSensor
  with_reducible repeat' first
    | exact h
    | refine State.put_kept ?_
    | refine event_kept ?_
    | refine tellHeat_kept ?_
    | refine suspect_kept ?_
    | refine Kept.ite ?_ ?_
    | assumption
    | (intro hx; clear_value x)
    | (intro x; refine Kept.cut (s := s0) (x := x) ?_ ?_)
    | (intro x; refine Kept.cut (s := s0) (x := x.1) ?_ ?_)
    | (intro x; clear_value x)
    | lift_lets -underBinder
    | split

theorem takeSample_kept {i : Nat} {v : BitVec 12} {equal : Bool} {s0 s : State} (h : Kept s0 s) :
    Kept s0 (takeSample s i v equal) := by
  unfold takeSample
  with_reducible repeat' first
    | exact h
    | refine State.put_kept ?_
    | refine faultSensor_kept ?_
    | refine Kept.ite ?_ ?_
    | assumption
    | (intro hx; clear_value x)
    | (intro x; refine Kept.cut (s := s0) (x := x) ?_ ?_)
    | (intro x; refine Kept.cut (s := s0) (x := x.1) ?_ ?_)
    | (intro x; clear_value x)
    | lift_lets -underBinder
    | split

theorem showTower_kept {t : Nat} {s0 s : State} (h : Kept s0 s) :
    Kept s0 (showTower s t) := by
  unfold showTower
  with_reducible repeat' first
    | exact h
    | refine State.put_kept ?_
    | refine foldl_kept ?_ fun x a hx => ?_
    | refine foldl_kept_fst ?_ fun x a hx => ?_
    | assumption
    | (intro hx; clear_value x)
    | (intro x; refine Kept.cut (s := s0) (x := x) ?_ ?_)
    | (intro x; refine Kept.cut (s := s0) (x := x.1) ?_ ?_)
    | (intro x; clear_value x)
    | lift_lets -underBinder

theorem setHot_kept {t : Nat} {l : Nat} {s0 s : State} (h : Kept s0 s) :
    Kept s0 (setHot s t l) := by
  unfold setHot
  with_reducible repeat' first
    | exact h
    | refine State.setFlag_kept ?_
    | refine tellHeat_kept ?_
    | refine Kept.ite ?_ ?_
    | split

theorem judgeLayers_kept {t : Nat} {s0 s : State} (h : Kept s0 s) :
    Kept s0 (judgeLayers s t) := by
  unfold judgeLayers
  with_reducible repeat' first
    | exact h
    | refine State.put_kept ?_
    | refine State.each_kept ?_ (fun x a hx => ?_)
    | refine setHot_kept ?_
    | refine Kept.ite ?_ ?_
    | assumption
    | (intro hx; clear_value x)
    | (intro x; refine Kept.cut (s := s0) (x := x) ?_ ?_)
    | (intro x; refine Kept.cut (s := s0) (x := x.1) ?_ ?_)
    | (intro x; clear_value x)
    | lift_lets -underBinder
    | split
    | (refine Kept.upd ?_; first | assumption | refine State.put_kept ?_ | refine State.each_kept ?_ (fun x a hx => ?_) | refine setHot_kept ?_ | refine Kept.ite ?_ ?_)

theorem countBelow_kept {u : Nat} {low : Bool} {s0 s : State} (h : Kept s0 s) :
    Kept s0 (countBelow s u low) := by
  unfold countBelow
  with_reducible repeat' first
    | exact h
    | refine State.put_kept ?_
    | refine Kept.ite ?_ ?_
    | split
    | (refine Kept.upd ?_; first | assumption | refine State.put_kept ?_ | refine Kept.ite ?_ ?_)

theorem judgeThrottle_kept {t : Nat} {s0 s : State} (h : Kept s0 s) :
    Kept s0 (judgeThrottle s t) := by
  unfold judgeThrottle
  with_reducible repeat' first
    | exact h
    | refine State.each_kept ?_ (fun x a hx => ?_)
    | refine setClusterStep_kept ?_
    | refine setTowerStep_kept ?_
    | refine countBelow_kept ?_
    | refine Kept.ite ?_ ?_
    | assumption
    | (intro hx; clear_value x)
    | (intro x; refine Kept.cut (s := s0) (x := x) ?_ ?_)
    | (intro x; refine Kept.cut (s := s0) (x := x.1) ?_ ?_)
    | (intro x; clear_value x)
    | lift_lets -underBinder
    | split

theorem judgeRise_kept {u : Nat} {s0 s : State} (h : Kept s0 s) :
    Kept s0 (judgeRise s u) := by
  unfold judgeRise
  with_reducible repeat' first
    | exact h
    | refine State.put_kept ?_
    | refine Kept.ite ?_ ?_
    | assumption
    | (intro hx; clear_value x)
    | (intro x; refine Kept.cut (s := s0) (x := x) ?_ ?_)
    | (intro x; refine Kept.cut (s := s0) (x := x.1) ?_ ?_)
    | (intro x; clear_value x)
    | lift_lets -underBinder
    | split
    | (refine Kept.upd ?_; first | assumption | refine State.put_kept ?_ | refine Kept.ite ?_ ?_ | (refine Kept.upd ?_; first | assumption | refine State.put_kept ?_))

theorem judgeModel_kept {c : Nat} {s0 s : State} (h : Kept s0 s) :
    Kept s0 (judgeModel s c) := by
  unfold judgeModel
  with_reducible repeat' first
    | exact h
    | refine State.put_kept ?_
    | refine suspect_kept ?_
    | refine Kept.ite ?_ ?_
    | assumption
    | (intro hx; clear_value x)
    | (intro x; refine Kept.cut (s := s0) (x := x) ?_ ?_)
    | (intro x; refine Kept.cut (s := s0) (x := x.1) ?_ ?_)
    | (intro x; clear_value x)
    | lift_lets -underBinder
    | split
    | (refine Kept.upd ?_; first | assumption | refine State.put_kept ?_ | refine suspect_kept ?_ | refine Kept.ite ?_ ?_)

theorem judgeInkwell_kept {s0 s : State} (h : Kept s0 s) :
    Kept s0 (judgeInkwell s) := by
  unfold judgeInkwell
  with_reducible repeat' first
    | exact h
    | refine showClass_kept ?_
    | refine Kept.ite ?_ ?_
    | assumption
    | (intro hx; clear_value x)
    | (intro x; refine Kept.cut (s := s0) (x := x) ?_ ?_)
    | (intro x; refine Kept.cut (s := s0) (x := x.1) ?_ ?_)
    | (intro x; clear_value x)
    | lift_lets -underBinder
    | split
    | (refine Kept.upd ?_; first | assumption | refine showClass_kept ?_ | refine Kept.ite ?_ ?_)

theorem judgeFast_kept {power : Nat} {s0 s : State} (h : Kept s0 s) :
    Kept s0 (judgeFast s power) := by
  unfold judgeFast
  with_reducible repeat' first
    | exact h
    | refine State.put_kept ?_
    | refine State.each_kept ?_ (fun x a hx => ?_)
    | refine event_kept ?_
    | refine tellHeat_kept ?_
    | refine showCluster_kept ?_
    | refine Kept.ite ?_ ?_
    | assumption
    | (intro hx; clear_value x)
    | (intro x; refine Kept.cut (s := s0) (x := x) ?_ ?_)
    | (intro x; refine Kept.cut (s := s0) (x := x.1) ?_ ?_)
    | (intro x; clear_value x)
    | lift_lets -underBinder
    | split
    | (refine Kept.upd ?_; first | assumption | refine State.put_kept ?_ | refine State.each_kept ?_ (fun x a hx => ?_) | refine event_kept ?_ | refine tellHeat_kept ?_ | refine showCluster_kept ?_ | refine Kept.ite ?_ ?_)

theorem judgeTrip_kept {s0 s : State} (h : Kept s0 s) :
    Kept s0 (judgeTrip s) := by
  unfold judgeTrip
  with_reducible repeat' first
    | exact h
    | refine toStandby_kept ?_
    | assumption
    | (intro hx; clear_value x)
    | (intro x; refine Kept.cut (s := s0) (x := x) ?_ ?_)
    | (intro x; refine Kept.cut (s := s0) (x := x.1) ?_ ?_)
    | (intro x; clear_value x)
    | lift_lets -underBinder
    | split
    | refine Kept.of_fst (by assumption) ?_
    | (unfold x; split)
    | (refine Kept.upd ?_; first | assumption | refine toStandby_kept ?_)

theorem countUse_kept {c : Nat} {s0 s : State} (h : Kept s0 s) :
    Kept s0 (countUse s c) := by
  unfold countUse
  with_reducible repeat' first
    | exact h
    | refine Kept.ite ?_ ?_
    | assumption
    | (intro hx; clear_value x)
    | (intro x; refine Kept.cut (s := s0) (x := x) ?_ ?_)
    | (intro x; refine Kept.cut (s := s0) (x := x.1) ?_ ?_)
    | (intro x; clear_value x)
    | lift_lets -underBinder
    | split
    | refine Kept.of_fst (by assumption) ?_
    | (refine Kept.upd ?_; first | assumption | refine Kept.ite ?_ ?_)

theorem judgeChannels_kept {t : Nat} {s0 s : State} (h : Kept s0 s) :
    Kept s0 (judgeChannels s t) := by
  unfold judgeChannels
  with_reducible repeat' first
    | exact h
    | refine event_kept ?_
    | refine Kept.ite ?_ ?_
    | assumption
    | (intro hx; clear_value x)
    | (intro x; refine Kept.cut (s := s0) (x := x) ?_ ?_)
    | (intro x; refine Kept.cut (s := s0) (x := x.1) ?_ ?_)
    | (intro x; clear_value x)
    | lift_lets -underBinder
    | split
    | (refine Kept.upd ?_; first | assumption | refine event_kept ?_ | refine Kept.ite ?_ ?_)

theorem noteDie_kept {i : Nat} {s0 s : State} (h : Kept s0 s) :
    Kept s0 (noteDie s i) := by
  unfold noteDie
  with_reducible repeat' first
    | exact h
    | refine Kept.ite ?_ ?_
    | assumption
    | (intro hx; clear_value x)
    | (intro x; refine Kept.cut (s := s0) (x := x) ?_ ?_)
    | (intro x; refine Kept.cut (s := s0) (x := x.1) ?_ ?_)
    | (intro x; clear_value x)
    | lift_lets -underBinder
    | split
    | (refine Kept.upd ?_; first | assumption | refine Kept.ite ?_ ?_)

theorem showHot_kept {s0 s : State} (h : Kept s0 s) :
    Kept s0 (showHot s) := by
  unfold showHot
  with_reducible repeat' first
    | exact h
    | refine State.put_kept ?_
    | refine State.each_kept ?_ (fun x a hx => ?_)
    | refine Kept.ite ?_ ?_
    | assumption
    | (intro hx; clear_value x)
    | (intro x; refine Kept.cut (s := s0) (x := x) ?_ ?_)
    | (intro x; refine Kept.cut (s := s0) (x := x.1) ?_ ?_)
    | (intro x; clear_value x)
    | lift_lets -underBinder
    | split

theorem thermalEdge_kept {samples : List (Nat × BitVec 12 × Bool)} {milliwatts : List Nat} {power : Nat} {s0 s : State} (h : Kept s0 s) :
    Kept s0 (thermalEdge s samples milliwatts power) := by
  unfold thermalEdge
  with_reducible repeat' first
    | exact h
    | refine State.put_kept ?_
    | refine State.each_kept ?_ (fun x a hx => ?_)
    | refine noteStep_kept ?_
    | refine judgePeak_kept ?_
    | refine thermalRubric_kept ?_
    | refine takeSample_kept ?_
    | refine showTower_kept ?_
    | refine judgeLayers_kept ?_
    | refine judgeThrottle_kept ?_
    | refine judgeRise_kept ?_
    | refine judgeModel_kept ?_
    | refine judgeInkwell_kept ?_
    | refine judgeFast_kept ?_
    | refine judgeTrip_kept ?_
    | refine countUse_kept ?_
    | refine judgeChannels_kept ?_
    | refine noteDie_kept ?_
    | refine showHot_kept ?_
    | refine foldl_kept ?_ fun x a hx => ?_
    | refine foldl_kept_fst ?_ fun x a hx => ?_
    | assumption
    | (intro hx; clear_value x)
    | (intro x; refine Kept.cut (s := s0) (x := x) ?_ ?_)
    | (intro x; refine Kept.cut (s := s0) (x := x.1) ?_ ?_)
    | (intro x; clear_value x)
    | lift_lets -underBinder

theorem execStepDecay_ends {unit : Fin 20} {s0 s : State} (h : Kept s0 s) :
    Ends s0 (execStepDecay unit s) := by
  unfold execStepDecay
  refine Ends.next ?_
  with_reducible repeat' first
    | exact h
    | refine setClusterStep_kept ?_
    | refine setTowerStep_kept ?_
    | refine countBelow_kept ?_
    | refine Kept.ite ?_ ?_
    | assumption
    | (intro hx; clear_value x)
    | (intro x; refine Kept.cut (s := s0) (x := x) ?_ ?_)
    | (intro x; refine Kept.cut (s := s0) (x := x.1) ?_ ?_)
    | (intro x; clear_value x)
    | lift_lets -underBinder
    | split

theorem execLayerCool_ends {tower : Fin 4} {layer : Fin 17} {s0 s : State} (h : Kept s0 s) :
    Ends s0 (execLayerCool tower layer s) := by
  unfold execLayerCool
  refine Ends.next ?_
  with_reducible repeat' first
    | exact h
    | refine State.setFlag_kept ?_
    | refine tellHeat_kept ?_
    | refine Kept.ite ?_ ?_
    | split

theorem execFastLimiterRelease_ends {s0 s : State} (h : Kept s0 s) :
    Ends s0 (execFastLimiterRelease s) := by
  unfold execFastLimiterRelease
  refine Ends.next ?_
  with_reducible repeat' first
    | exact h
    | refine State.put_kept ?_
    | refine State.each_kept ?_ (fun x a hx => ?_)
    | refine tellHeat_kept ?_
    | refine showCluster_kept ?_
    | refine Kept.ite ?_ ?_
    | assumption
    | (intro hx; clear_value x)
    | (intro x; refine Kept.cut (s := s0) (x := x) ?_ ?_)
    | (intro x; refine Kept.cut (s := s0) (x := x.1) ?_ ?_)
    | (intro x; clear_value x)
    | lift_lets -underBinder
    | split

end Sys2Proof.Machine
end

