-- ==== Sys2Proof/Laws/KeptPowerRows.lean ====
section
/-! SUPPORT. What every step keeps, through the functions of PowerRows. -/

set_option linter.all false
set_option maxRecDepth 8000

namespace Sys2Proof.Machine

theorem setPower_kept {p : Power} {s0 s : State} (h : Kept s0 s) :
    Kept s0 (setPower s p) := by
  unfold setPower
  with_reducible repeat' first
    | exact h
    | (refine Kept.upd ?_; first | assumption)

theorem setCol_kept {c : Colophon} {s0 s : State} (h : Kept s0 s) :
    Kept s0 (setCol s c) := by
  unfold setCol
  with_reducible repeat' first
    | exact h
    | (refine Kept.upd ?_; first | assumption)

theorem coresOff_kept {c : Nat} {s0 s : State} (h : Kept s0 s) :
    Kept s0 (coresOff s c) := by
  unfold coresOff
  with_reducible repeat' first
    | exact h
    | refine State.put_kept ?_
    | refine State.each_kept ?_ (fun x a hx => ?_)
    | refine modCore_kept ?_
    | refine requeueItems_kept ?_
    | refine driveClock_kept ?_
    | refine Kept.ite ?_ ?_
    | assumption
    | (intro hx; clear_value x)
    | (intro x; refine Kept.cut (s := s0) (x := x) ?_ ?_)
    | (intro x; refine Kept.cut (s := s0) (x := x.1) ?_ ?_)
    | (intro x; clear_value x)
    | lift_lets -underBinder
    | split

theorem coresOn_kept {c : Nat} {s0 s : State} (h : Kept s0 s) :
    Kept s0 (coresOn s c) := by
  unfold coresOn
  with_reducible repeat' first
    | exact h
    | refine State.put_kept ?_
    | refine State.each_kept ?_ (fun x a hx => ?_)
    | refine driveClock_kept ?_
    | refine Kept.ite ?_ ?_
    | assumption
    | (intro hx; clear_value x)
    | (intro x; refine Kept.cut (s := s0) (x := x) ?_ ?_)
    | (intro x; refine Kept.cut (s := s0) (x := x.1) ?_ ?_)
    | (intro x; clear_value x)
    | lift_lets -underBinder
    | split

theorem domainRisen_kept {n : Nat} {s0 s : State} (h : Kept s0 s) :
    Kept s0 (domainRisen s n) := by
  unfold domainRisen
  with_reducible repeat' first
    | exact h
    | refine State.put_kept ?_
    | refine coresOn_kept ?_
    | refine Kept.ite ?_ ?_
    | assumption
    | (intro hx; clear_value x)
    | (intro x; refine Kept.cut (s := s0) (x := x) ?_ ?_)
    | (intro x; refine Kept.cut (s := s0) (x := x.1) ?_ ?_)
    | (intro x; clear_value x)
    | lift_lets -underBinder
    | split

theorem domainDropped_kept {n : Nat} {s0 s : State} (h : Kept s0 s) :
    Kept s0 (domainDropped s n) := by
  unfold domainDropped
  with_reducible repeat' first
    | exact h
    | refine State.put_kept ?_
    | refine State.each_kept ?_ (fun x a hx => ?_)
    | refine portDown_kept ?_
    | refine coresOff_kept ?_
    | refine Kept.ite ?_ ?_
    | assumption
    | (intro hx; clear_value x)
    | (intro x; refine Kept.cut (s := s0) (x := x) ?_ ?_)
    | (intro x; refine Kept.cut (s := s0) (x := x.1) ?_ ?_)
    | (intro x; clear_value x)
    | lift_lets -underBinder
    | split

theorem writeVote_kept {k : Nat} {n : Nat} {v : BitVec 64} {s0 s : State} (h : Kept s0 s) :
    Kept s0 (writeVote s k n v) := by
  unfold writeVote
  with_reducible repeat' first
    | exact h
    | refine notice_kept ?_
    | refine vote_kept ?_
    | split
    | refine Kept.of_fst (by assumption) ?_

theorem execDomainVote_ends {scribe : Fin 8} {domain : Fin 38} {s0 s : State} (h : Kept s0 s) :
    Ends s0 (execDomainVote scribe domain s) := by
  unfold execDomainVote
  refine Ends.next ?_
  with_reducible repeat' first
    | exact h
    | refine vote_kept ?_
    | refine Kept.ite ?_ ?_
    | split

theorem execDomainUnvote_ends {scribe : Fin 8} {domain : Fin 38} {s0 s : State} (h : Kept s0 s) :
    Ends s0 (execDomainUnvote scribe domain s) := by
  unfold execDomainUnvote
  refine Ends.next ?_
  with_reducible repeat' first
    | exact h
    | refine vote_kept ?_
    | refine Kept.ite ?_ ?_
    | split

theorem execDomainRiseComplete_ends {domain : Fin 38} {s0 s : State} (h : Kept s0 s) :
    Ends s0 (execDomainRiseComplete domain s) := by
  unfold execDomainRiseComplete
  refine Ends.next ?_
  with_reducible repeat' first
    | exact h
    | refine pumpDomains_kept ?_
    | refine domainRisen_kept ?_
    | refine Kept.ite ?_ ?_
    | split

theorem execDomainDropComplete_ends {domain : Fin 38} {s0 s : State} (h : Kept s0 s) :
    Ends s0 (execDomainDropComplete domain s) := by
  unfold execDomainDropComplete
  refine Ends.next ?_
  with_reducible repeat' first
    | exact h
    | refine pumpDomains_kept ?_
    | refine domainDropped_kept ?_
    | refine Kept.ite ?_ ?_
    | split

theorem settleDomains_kept {s0 s : State} (h : Kept s0 s) :
    Kept s0 (settleDomains s) := by
  unfold settleDomains
  with_reducible repeat' first
    | exact h
    | refine State.each_kept ?_ (fun x a hx => ?_)
    | refine domainRisen_kept ?_
    | refine domainDropped_kept ?_
    | refine Kept.ite ?_ ?_
    | assumption
    | split

theorem leaveFor_kept {target : Nat} {cause : Nat} {s0 s : State} (h : Kept s0 s) :
    Kept s0 (leaveFor s target cause) := by
  unfold leaveFor
  with_reducible repeat' first
    | exact h
    | refine State.each_kept ?_ (fun x a hx => ?_)
    | refine requeueItems_kept ?_
    | refine beginTransition_kept ?_
    | refine Kept.ite ?_ ?_
    | assumption
    | (intro hx; clear_value x)
    | (intro x; refine Kept.cut (s := s0) (x := x) ?_ ?_)
    | (intro x; refine Kept.cut (s := s0) (x := x.1) ?_ ?_)
    | (intro x; clear_value x)
    | lift_lets -underBinder
    | split

theorem requestState_kept {target : Nat} {cause : Nat} {s0 s : State} (h : Kept s0 s) :
    Kept s0 (requestState s target cause) := by
  unfold requestState
  with_reducible repeat' first
    | exact h
    | refine State.put_kept ?_
    | refine event_kept ?_
    | refine setPower_kept ?_
    | refine leaveFor_kept ?_
    | refine Kept.ite ?_ ?_
    | split
    | (refine Kept.upd ?_; first | assumption | refine State.put_kept ?_ | refine event_kept ?_ | refine setPower_kept ?_ | refine leaveFor_kept ?_ | refine Kept.ite ?_ ?_)

theorem writeRequest_kept {v : BitVec 64} {s0 s : State} (h : Kept s0 s) :
    Kept s0 (writeRequest s v) := by
  unfold writeRequest
  with_reducible repeat' first
    | exact h
    | refine notice_kept ?_
    | refine requestState_kept ?_
    | refine Kept.ite ?_ ?_
    | assumption
    | (intro hx; clear_value x)
    | (intro x; refine Kept.cut (s := s0) (x := x) ?_ ?_)
    | (intro x; refine Kept.cut (s := s0) (x := x.1) ?_ ?_)
    | (intro x; clear_value x)
    | lift_lets -underBinder
    | split

theorem execPwrRequest_ends {value : BitVec 64} {s0 s : State} (h : Kept s0 s) :
    Ends s0 (execPwrRequest value s) := by
  unfold execPwrRequest
  refine Ends.next ?_
  with_reducible repeat' first
    | exact h
    | refine writeRequest_kept ?_

theorem shutdownLow_kept {s0 s : State} (h : Kept s0 s) :
    Kept s0 (shutdownLow s) := by
  unfold shutdownLow
  with_reducible repeat' first
    | exact h
    | refine State.put_kept ?_
    | refine setPower_kept ?_
    | refine leaveFor_kept ?_
    | refine Kept.ite ?_ ?_
    | assumption
    | (intro hx; clear_value x)
    | (intro x; refine Kept.cut (s := s0) (x := x) ?_ ?_)
    | (intro x; refine Kept.cut (s := s0) (x := x.1) ?_ ?_)
    | (intro x; clear_value x)
    | lift_lets -underBinder
    | split
    | (refine Kept.upd ?_; first | assumption | refine State.put_kept ?_ | refine setPower_kept ?_ | refine leaveFor_kept ?_ | refine Kept.ite ?_ ?_)

theorem shutdownHigh_kept {s0 s : State} (h : Kept s0 s) :
    Kept s0 (shutdownHigh s) := by
  unfold shutdownHigh
  with_reducible repeat' first
    | exact h
    | refine State.put_kept ?_
    | refine leaveFor_kept ?_
    | refine Kept.ite ?_ ?_
    | assumption
    | (intro hx; clear_value x)
    | (intro x; refine Kept.cut (s := s0) (x := x) ?_ ?_)
    | (intro x; refine Kept.cut (s := s0) (x := x.1) ?_ ?_)
    | (intro x; clear_value x)
    | lift_lets -underBinder
    | split

theorem takeShutdown_kept {s0 s : State} (h : Kept s0 s) :
    Kept s0 (takeShutdown s) := by
  unfold takeShutdown
  with_reducible repeat' first
    | exact h
    | refine setPower_kept ?_
    | refine shutdownLow_kept ?_
    | refine shutdownHigh_kept ?_
    | refine Kept.ite ?_ ?_
    | assumption
    | (intro hx; clear_value x)
    | (intro x; refine Kept.cut (s := s0) (x := x) ?_ ?_)
    | (intro x; refine Kept.cut (s := s0) (x := x.1) ?_ ?_)
    | (intro x; clear_value x)
    | lift_lets -underBinder
    | split
    | (refine Kept.upd ?_; first | assumption | refine setPower_kept ?_ | refine shutdownLow_kept ?_ | refine shutdownHigh_kept ?_ | refine Kept.ite ?_ ?_)

theorem execShutdownNFall_ends {s0 s : State} (h : Kept s0 s) :
    Ends s0 (execShutdownNFall s) := by
  unfold execShutdownNFall
  refine Ends.next ?_
  with_reducible repeat' first
    | exact h
    | refine takeShutdown_kept ?_
    | (refine Kept.upd ?_; first | assumption | refine takeShutdown_kept ?_)

theorem execShutdownNRise_ends {s0 s : State} (h : Kept s0 s) :
    Ends s0 (execShutdownNRise s) := by
  unfold execShutdownNRise
  refine Ends.next ?_
  with_reducible repeat' first
    | exact h
    | refine takeShutdown_kept ?_
    | (refine Kept.upd ?_; first | assumption | refine takeShutdown_kept ?_)

theorem execWakeN_ends {s0 s : State} (h : Kept s0 s) :
    Ends s0 (execWakeN s) := by
  unfold execWakeN
  refine Ends.next ?_
  with_reducible repeat' first
    | exact h
    | refine wake_kept ?_
    | refine setPower_kept ?_
    | refine Kept.ite ?_ ?_
    | split
    | (refine Kept.upd ?_; first | assumption | refine wake_kept ?_ | refine setPower_kept ?_ | refine Kept.ite ?_ ?_)

theorem execDrainTimeout_ends {s0 s : State} (h : Kept s0 s) :
    Ends s0 (execDrainTimeout s) := by
  unfold execDrainTimeout
  refine Ends.next ?_
  with_reducible repeat' first
    | exact h
    | refine State.each_kept ?_ (fun x a hx => ?_)
    | refine event_kept ?_
    | refine endCore_kept ?_
    | refine setPower_kept ?_
    | refine Kept.ite ?_ ?_
    | assumption
    | (intro hx; clear_value x)
    | (intro x; refine Kept.cut (s := s0) (x := x) ?_ ?_)
    | (intro x; refine Kept.cut (s := s0) (x := x.1) ?_ ?_)
    | (intro x; clear_value x)
    | lift_lets -underBinder
    | split
    | (refine Kept.upd ?_; first | assumption | refine State.each_kept ?_ (fun x a hx => ?_) | refine event_kept ?_ | refine endCore_kept ?_ | refine setPower_kept ?_ | refine Kept.ite ?_ ?_)

theorem abortMoves_kept {s0 s : State} (h : Kept s0 s) :
    Kept s0 (abortMoves s) := by
  unfold abortMoves
  with_reducible repeat' first
    | exact h
    | refine State.each_kept ?_ (fun x a hx => ?_)
    | refine abortMove_kept ?_
    | refine setPower_kept ?_
    | refine Kept.ite ?_ ?_
    | assumption
    | (intro hx; clear_value x)
    | (intro x; refine Kept.cut (s := s0) (x := x) ?_ ?_)
    | (intro x; refine Kept.cut (s := s0) (x := x.1) ?_ ?_)
    | (intro x; clear_value x)
    | lift_lets -underBinder
    | split
    | (refine Kept.upd ?_; first | assumption | refine State.each_kept ?_ (fun x a hx => ?_) | refine abortMove_kept ?_ | refine setPower_kept ?_ | refine Kept.ite ?_ ?_)

theorem reissueMoves_kept {s0 s : State} (h : Kept s0 s) :
    Kept s0 (reissueMoves s) := by
  unfold reissueMoves
  with_reducible repeat' first
    | exact h
    | refine State.each_kept ?_ (fun x a hx => ?_)
    | refine reissueMove_kept ?_
    | refine setPower_kept ?_
    | refine Kept.ite ?_ ?_
    | assumption
    | split
    | refine Kept.of_fst (by assumption) ?_
    | (refine Kept.upd ?_; first | assumption | refine State.each_kept ?_ (fun x a hx => ?_) | refine reissueMove_kept ?_ | refine setPower_kept ?_ | refine Kept.ite ?_ ?_)

theorem prepareQuiet_kept {s0 s : State} (h : Kept s0 s) :
    Kept s0 (prepareQuiet s) := by
  unfold prepareQuiet
  with_reducible repeat' first
    | exact h
    | refine State.each_kept ?_ (fun x a hx => ?_)
    | refine flushTree_kept ?_
    | refine setCore_kept ?_
    | refine setFabric_kept ?_
    | refine showFilter_kept ?_
    | refine enter_kept ?_
    | refine portDown_kept ?_
    | assumption
    | (intro hx; clear_value x)
    | (intro x; refine Kept.cut (s := s0) (x := x) ?_ ?_)
    | (intro x; refine Kept.cut (s := s0) (x := x.1) ?_ ?_)
    | (intro x; clear_value x)
    | lift_lets -underBinder
    | split
    | refine Kept.of_fst (by assumption) ?_
    | (refine Kept.upd ?_; first | assumption | refine State.each_kept ?_ (fun x a hx => ?_) | refine flushTree_kept ?_ | refine setCore_kept ?_ | refine setFabric_kept ?_ | refine showFilter_kept ?_ | refine enter_kept ?_ | refine portDown_kept ?_ | (refine Kept.upd ?_; first | assumption | refine State.each_kept ?_ (fun x a hx => ?_) | refine flushTree_kept ?_ | refine setCore_kept ?_ | refine setFabric_kept ?_ | refine showFilter_kept ?_ | refine enter_kept ?_ | refine portDown_kept ?_))

theorem restartAll_kept {s0 s : State} (h : Kept s0 s) :
    Kept s0 (restartAll s) := by
  unfold restartAll
  with_reducible repeat' first
    | exact h
    | refine State.each_kept ?_ (fun x a hx => ?_)
    | refine startRubric_kept ?_
    | refine tellMoved_kept ?_
    | assumption
    | (intro hx; clear_value x)
    | (intro x; refine Kept.cut (s := s0) (x := x) ?_ ?_)
    | (intro x; refine Kept.cut (s := s0) (x := x.1) ?_ ?_)
    | (intro x; clear_value x)
    | lift_lets -underBinder
    | split
    | refine Kept.of_fst (by assumption) ?_
    | (unfold x; split)

theorem holdState_kept {s0 s : State} (h : Kept s0 s) :
    Kept s0 (holdState s) := by
  unfold holdState
  with_reducible repeat' first
    | exact h
    | refine State.put_kept ?_
    | refine pumpDomains_kept ?_
    | refine towersSleep_kept ?_
    | refine towersWake_kept ?_
    | refine serveWake_kept ?_
    | refine setPower_kept ?_
    | refine settleDomains_kept ?_
    | refine leaveFor_kept ?_
    | refine requestState_kept ?_
    | refine abortMoves_kept ?_
    | refine reissueMoves_kept ?_
    | refine prepareQuiet_kept ?_
    | refine restartAll_kept ?_
    | refine Kept.ite ?_ ?_
    | assumption
    | (intro hx; clear_value x)
    | (intro x; refine Kept.cut (s := s0) (x := x) ?_ ?_)
    | (intro x; refine Kept.cut (s := s0) (x := x.1) ?_ ?_)
    | (intro x; clear_value x)
    | lift_lets -underBinder
    | split
    | refine Kept.of_fst (by assumption) ?_
    | (unfold x; split)
    | (refine Kept.upd ?_; first | assumption | refine State.put_kept ?_ | refine pumpDomains_kept ?_ | refine towersSleep_kept ?_ | refine towersWake_kept ?_ | refine serveWake_kept ?_ | refine setPower_kept ?_ | refine settleDomains_kept ?_ | refine leaveFor_kept ?_ | refine requestState_kept ?_ | refine abortMoves_kept ?_ | refine reissueMoves_kept ?_ | refine prepareQuiet_kept ?_ | refine restartAll_kept ?_ | refine Kept.ite ?_ ?_)

theorem execStateEntryComplete_ends {s0 s : State} (h : Kept s0 s) :
    Ends s0 (execStateEntryComplete s) := by
  unfold execStateEntryComplete
  refine Ends.next ?_
  with_reducible repeat' first
    | exact h
    | refine holdState_kept ?_
    | refine Kept.ite ?_ ?_
    | split

theorem execCappedIdleExpiry_ends {s0 s : State} (h : Kept s0 s) :
    Ends s0 (execCappedIdleExpiry s) := by
  unfold execCappedIdleExpiry
  refine Ends.next ?_
  with_reducible repeat' first
    | exact h
    | refine towersSleep_kept ?_
    | refine Kept.ite ?_ ?_
    | split

theorem execLimiterWindow_ends {s0 s : State} (h : Kept s0 s) :
    Ends s0 (execLimiterWindow s) := by
  unfold execLimiterWindow
  refine Ends.next ?_
  with_reducible repeat' first
    | exact h
    | refine State.put_kept ?_
    | refine State.each_kept ?_ (fun x a hx => ?_)
    | refine event_kept ?_
    | refine eventOnce_kept ?_
    | refine showCluster_kept ?_
    | refine setPower_kept ?_
    | refine Kept.ite ?_ ?_
    | assumption
    | (intro hx; clear_value x)
    | (intro x; refine Kept.cut (s := s0) (x := x) ?_ ?_)
    | (intro x; refine Kept.cut (s := s0) (x := x.1) ?_ ?_)
    | (intro x; clear_value x)
    | lift_lets -underBinder
    | split
    | (refine Kept.upd ?_; first | assumption | refine State.put_kept ?_ | refine State.each_kept ?_ (fun x a hx => ?_) | refine event_kept ?_ | refine eventOnce_kept ?_ | refine showCluster_kept ?_ | refine setPower_kept ?_ | refine Kept.ite ?_ ?_)

theorem tickRtc_kept {n : Nat} {s0 s : State} (h : Kept s0 s) :
    Kept s0 (tickRtc s n) := by
  unfold tickRtc
  with_reducible repeat' first
    | exact h
    | refine setCol_kept ?_
    | refine Kept.ite ?_ ?_
    | split
    | (refine Kept.upd ?_; first | assumption | refine setCol_kept ?_ | refine Kept.ite ?_ ?_)

theorem raiseRail_kept {s0 s : State} (h : Kept s0 s) :
    Kept s0 (raiseRail s) := by
  unfold raiseRail
  with_reducible repeat' first
    | exact h
    | (refine Kept.upd ?_; first | assumption)

theorem execVinOn_ends {rtc : Option (BitVec 64)} {s0 s : State} (h : Kept s0 s) :
    Ends s0 (execVinOn rtc s) := by
  unfold execVinOn
  refine Ends.next ?_
  with_reducible repeat' first
    | exact h
    | refine standbyPins_kept ?_
    | refine setPower_kept ?_
    | refine setCol_kept ?_
    | refine tickRtc_kept ?_
    | refine Kept.ite ?_ ?_
    | assumption
    | (intro hx; clear_value x)
    | (intro x; refine Kept.cut (s := s0) (x := x) ?_ ?_)
    | (intro x; refine Kept.cut (s := s0) (x := x.1) ?_ ?_)
    | (intro x; clear_value x)
    | lift_lets -underBinder
    | split
    | refine Kept.of_fst (by assumption) ?_
    | (unfold x; split)
    | (refine Kept.upd ?_; first | assumption | refine standbyPins_kept ?_ | refine setPower_kept ?_ | refine setCol_kept ?_ | refine tickRtc_kept ?_ | refine Kept.ite ?_ ?_ | (refine Kept.upd ?_; first | assumption | refine standbyPins_kept ?_ | refine setPower_kept ?_ | refine setCol_kept ?_ | refine tickRtc_kept ?_))

theorem execVinOff_ends {s0 s : State} (h : Kept s0 s) :
    Ends s0 (execVinOff s) := by
  unfold execVinOff
  refine Ends.next ?_
  with_reducible repeat' first
    | exact h
    | refine mainDiesLost_kept ?_
    | assumption
    | (intro hx; clear_value x)
    | (intro x; refine Kept.cut (s := s0) (x := x) ?_ ?_)
    | (intro x; refine Kept.cut (s := s0) (x := x.1) ?_ ?_)
    | (intro x; clear_value x)
    | lift_lets -underBinder
    | split
    | (refine Kept.upd ?_; first | assumption | refine mainDiesLost_kept ?_)

theorem execVinFault_ends {s0 s : State} (h : Kept s0 s) :
    Ends s0 (execVinFault s) := by
  unfold execVinFault
  refine Ends.next ?_
  with_reducible repeat' first
    | exact h
    | refine event_kept ?_
    | refine toStandby_kept ?_
    | refine Kept.ite ?_ ?_
    | split

theorem execInkPhaseLost_ends {phase : Fin 8} {s0 s : State} (h : Kept s0 s) :
    Ends s0 (execInkPhaseLost phase s) := by
  unfold execInkPhaseLost
  refine Ends.next ?_
  with_reducible repeat' first
    | exact h
    | refine State.put_kept ?_
    | refine event_kept ?_
    | refine showClass_kept ?_
    | refine setPower_kept ?_
    | refine Kept.ite ?_ ?_
    | assumption
    | (intro hx; clear_value x)
    | (intro x; refine Kept.cut (s := s0) (x := x) ?_ ?_)
    | (intro x; refine Kept.cut (s := s0) (x := x.1) ?_ ?_)
    | (intro x; clear_value x)
    | lift_lets -underBinder
    | split
    | (refine Kept.upd ?_; first | assumption | refine State.put_kept ?_ | refine event_kept ?_ | refine showClass_kept ?_ | refine setPower_kept ?_ | refine Kept.ite ?_ ?_)

theorem execInkRailFault_ends {s0 s : State} (h : Kept s0 s) :
    Ends s0 (execInkRailFault s) := by
  unfold execInkRailFault
  refine Ends.next ?_
  with_reducible repeat' first
    | exact h
    | refine event_kept ?_
    | refine toStandby_kept ?_
    | refine Kept.ite ?_ ?_
    | split

theorem execResetAssert_ends {s0 s : State} (h : Kept s0 s) :
    Ends s0 (execResetAssert s) := by
  unfold execResetAssert
  refine Ends.next ?_
  with_reducible repeat' first
    | exact h
    | refine toStandby_kept ?_
    | refine Kept.ite ?_ ?_
    | assumption
    | (intro hx; clear_value x)
    | (intro x; refine Kept.cut (s := s0) (x := x) ?_ ?_)
    | (intro x; refine Kept.cut (s := s0) (x := x.1) ?_ ?_)
    | (intro x; clear_value x)
    | lift_lets -underBinder
    | split
    | (refine Kept.upd ?_; first | assumption | refine toStandby_kept ?_ | refine Kept.ite ?_ ?_)

theorem execInkRailRaise_ends {rtc : BitVec 32} {s0 s : State} (h : Kept s0 s) :
    Ends s0 (execInkRailRaise rtc s) := by
  unfold execInkRailRaise
  refine Ends.next ?_
  with_reducible repeat' first
    | exact h
    | refine tickRtc_kept ?_
    | refine raiseRail_kept ?_
    | refine Kept.ite ?_ ?_
    | split
    | (refine Kept.upd ?_; first | assumption | refine tickRtc_kept ?_ | refine raiseRail_kept ?_ | refine Kept.ite ?_ ?_)

theorem execInkwellCycleRestart_ends {s0 s : State} (h : Kept s0 s) :
    Ends s0 (execInkwellCycleRestart s) := by
  unfold execInkwellCycleRestart
  refine Ends.next ?_
  with_reducible repeat' first
    | exact h
    | refine setPower_kept ?_
    | refine raiseRail_kept ?_
    | refine Kept.ite ?_ ?_
    | assumption
    | (intro hx; clear_value x)
    | (intro x; refine Kept.cut (s := s0) (x := x) ?_ ?_)
    | (intro x; refine Kept.cut (s := s0) (x := x.1) ?_ ?_)
    | (intro x; clear_value x)
    | lift_lets -underBinder
    | split
    | (refine Kept.upd ?_; first | assumption | refine setPower_kept ?_ | refine raiseRail_kept ?_ | refine Kept.ite ?_ ?_)

theorem execThermtripRestartCheck_ends {readings : List (Fin 370 × BitVec 12)} {s0 s : State} (h : Kept s0 s) :
    Ends s0 (execThermtripRestartCheck readings s) := by
  unfold execThermtripRestartCheck
  refine Ends.next ?_
  with_reducible repeat' first
    | exact h
    | refine standbyPins_kept ?_
    | refine setCol_kept ?_
    | refine raiseRail_kept ?_
    | refine Kept.ite ?_ ?_
    | assumption
    | (intro hx; clear_value x)
    | (intro x; refine Kept.cut (s := s0) (x := x) ?_ ?_)
    | (intro x; refine Kept.cut (s := s0) (x := x.1) ?_ ?_)
    | (intro x; clear_value x)
    | lift_lets -underBinder
    | split
    | refine Kept.of_fst (by assumption) ?_
    | (refine Kept.upd ?_; first | assumption | refine standbyPins_kept ?_ | refine setCol_kept ?_ | refine raiseRail_kept ?_ | refine Kept.ite ?_ ?_)

end Sys2Proof.Machine
end

