-- ==== Sys2Proof/Laws/KeptColophon.lean ====
section
/-! SUPPORT. What every step keeps, through the functions of Colophon. -/

set_option linter.all false
set_option maxRecDepth 8000

namespace Sys2Proof.Machine

theorem inkEvent_kept {type : Nat} {source : Nat} {detail : Nat} {s0 s : State} (h : Kept s0 s) :
    Kept s0 (inkEvent s type source detail) := by
  unfold inkEvent
  with_reducible repeat' first
    | exact h
    | refine event_kept ?_
    | refine setPower_kept ?_
    | refine Kept.ite ?_ ?_
    | split
    | (refine Kept.upd ?_; first | assumption | refine event_kept ?_ | refine setPower_kept ?_ | refine Kept.ite ?_ ?_)

theorem showColophon_kept {s0 s : State} (h : Kept s0 s) :
    Kept s0 (showColophon s) := by
  unfold showColophon
  with_reducible repeat' first
    | exact h
    | refine State.setWord_kept ?_
    | refine State.put_kept ?_
    | refine State.putB_kept ?_
    | refine State.each_kept ?_ (fun x a hx => ?_)
    | refine showBoost_kept ?_
    | assumption
    | (intro hx; clear_value x)
    | (intro x; refine Kept.cut (s := s0) (x := x) ?_ ?_)
    | (intro x; refine Kept.cut (s := s0) (x := x.1) ?_ ?_)
    | (intro x; clear_value x)
    | lift_lets -underBinder
    | split

theorem writeCheckpoint_kept {s0 s : State} (h : Kept s0 s) :
    Kept s0 (writeCheckpoint s) := by
  unfold writeCheckpoint
  with_reducible repeat' first
    | exact h
    | refine State.timed_kept ?_
    | refine ring_kept ?_
    | refine setCol_kept ?_
    | refine showColophon_kept ?_
    | refine Kept.ite ?_ ?_
    | assumption
    | (intro hx; clear_value x)
    | (intro x; refine Kept.cut (s := s0) (x := x) ?_ ?_)
    | (intro x; refine Kept.cut (s := s0) (x := x.1) ?_ ?_)
    | (intro x; clear_value x)
    | lift_lets -underBinder
    | split

theorem trimRing_kept {k : Nat} {s0 s : State} (h : Kept s0 s) : Kept s0 (trimRing k s) := by
  induction k generalizing s with
  | zero => exact h
  | succ k ih =>
    unfold trimRing
    split
    · exact h
    · split
      · exact h
      · exact ih (setCol_kept (Kept.ite (writeCheckpoint_kept h) h))

theorem addBoost_kept {c : Nat} {p : Nat} {k : Nat} {s0 s : State} (h : Kept s0 s) :
    Kept s0 (addBoost s c p k) := by
  unfold addBoost
  with_reducible repeat' first
    | exact h
    | refine setCol_kept ?_
    | assumption
    | (intro hx; clear_value x)
    | (intro x; refine Kept.cut (s := s0) (x := x) ?_ ?_)
    | (intro x; refine Kept.cut (s := s0) (x := x.1) ?_ ?_)
    | (intro x; clear_value x)
    | lift_lets -underBinder
    | split
    | refine Kept.of_fst (by assumption) ?_
    | (refine Kept.upd ?_; first | assumption | refine setCol_kept ?_)

theorem commit_kept {b : ColBody} {s0 s : State} (h : Kept s0 s) :
    Kept s0 (commit s b) := by
  unfold commit
  with_reducible repeat' first
    | exact h
    | refine setCol_kept ?_
    | refine showColophon_kept ?_
    | refine trimRing_kept ?_
    | refine addBoost_kept ?_
    | refine Kept.ite ?_ ?_
    | refine Kept.ite_fst ?_ ?_
    | refine foldl_kept ?_ fun x a hx => ?_
    | refine foldl_kept_fst ?_ fun x a hx => ?_
    | assumption
    | (intro hx; clear_value x)
    | (intro x; refine Kept.cut (s := s0) (x := x) ?_ ?_)
    | (intro x; refine Kept.cut (s := s0) (x := x.1) ?_ ?_)
    | (intro x; clear_value x)
    | lift_lets -underBinder
    | split
    | refine Kept.of_fst (by assumption) ?_
    | (unfold x; split)
    | (refine Kept.upd ?_; first | assumption | refine setCol_kept ?_ | refine showColophon_kept ?_ | refine trimRing_kept ?_ | refine addBoost_kept ?_ | refine Kept.ite ?_ ?_)

theorem execColophonCommit_ends {failed : Bool} {s0 s : State} (h : Kept s0 s) :
    Ends s0 (execColophonCommit failed s) := by
  unfold execColophonCommit
  refine Ends.next ?_
  with_reducible repeat' first
    | exact h
    | refine eventOnce_kept ?_
    | refine setCol_kept ?_
    | refine inkEvent_kept ?_
    | refine showColophon_kept ?_
    | refine commit_kept ?_
    | refine Kept.ite ?_ ?_
    | assumption
    | (intro hx; clear_value x)
    | (intro x; refine Kept.cut (s := s0) (x := x) ?_ ?_)
    | (intro x; refine Kept.cut (s := s0) (x := x.1) ?_ ?_)
    | (intro x; clear_value x)
    | lift_lets -underBinder
    | split
    | refine Kept.of_fst (by assumption) ?_
    | (unfold x; split)
    | (refine Kept.upd ?_; first | assumption | refine eventOnce_kept ?_ | refine setCol_kept ?_ | refine inkEvent_kept ?_ | refine showColophon_kept ?_ | refine commit_kept ?_ | refine Kept.ite ?_ ?_ | (refine Kept.upd ?_; first | assumption | refine eventOnce_kept ?_ | refine setCol_kept ?_ | refine inkEvent_kept ?_ | refine showColophon_kept ?_ | refine commit_kept ?_))

theorem execMinuteSummary_ends {s0 s : State} (h : Kept s0 s) :
    Ends s0 (execMinuteSummary s) := by
  unfold execMinuteSummary
  refine Ends.next ?_
  with_reducible repeat' first
    | exact h
    | refine ring_kept ?_
    | refine setCol_kept ?_
    | refine showColophon_kept ?_
    | refine addBoost_kept ?_
    | refine Kept.ite ?_ ?_
    | refine foldl_kept ?_ fun x a hx => ?_
    | refine foldl_kept_fst ?_ fun x a hx => ?_
    | assumption
    | (intro hx; clear_value x)
    | (intro x; refine Kept.cut (s := s0) (x := x) ?_ ?_)
    | (intro x; refine Kept.cut (s := s0) (x := x.1) ?_ ?_)
    | (intro x; clear_value x)
    | lift_lets -underBinder
    | split
    | refine Kept.of_fst (by assumption) ?_

theorem execCheckpointWrite_ends {lost : Bool} {s0 s : State} (h : Kept s0 s) :
    Ends s0 (execCheckpointWrite lost s) := by
  unfold execCheckpointWrite
  refine Ends.next ?_
  with_reducible repeat' first
    | exact h
    | refine setCol_kept ?_
    | refine writeCheckpoint_kept ?_
    | refine Kept.ite ?_ ?_
    | split
    | (refine Kept.upd ?_; first | assumption | refine setCol_kept ?_ | refine writeCheckpoint_kept ?_ | refine Kept.ite ?_ ?_)

theorem writeColCtrl_kept {v : BitVec 64} {s0 s : State} (h : Kept s0 s) :
    Kept s0 (writeColCtrl s v) := by
  unfold writeColCtrl
  with_reducible repeat' first
    | exact h
    | refine State.put_kept ?_
    | refine notice_kept ?_
    | refine setCol_kept ?_
    | refine Kept.ite ?_ ?_
    | assumption
    | (intro hx; clear_value x)
    | (intro x; refine Kept.cut (s := s0) (x := x) ?_ ?_)
    | (intro x; refine Kept.cut (s := s0) (x := x.1) ?_ ?_)
    | (intro x; clear_value x)
    | lift_lets -underBinder
    | split
    | (refine Kept.upd ?_; first | assumption | refine State.put_kept ?_ | refine notice_kept ?_ | refine setCol_kept ?_ | refine Kept.ite ?_ ?_)

theorem execColophonFlush_ends {value : BitVec 64} {s0 s : State} (h : Kept s0 s) :
    Ends s0 (execColophonFlush value s) := by
  unfold execColophonFlush
  refine Ends.next ?_
  with_reducible repeat' first
    | exact h
    | refine writeColCtrl_kept ?_

theorem setRtc_kept {now : Nat} {source : Nat} {s0 s : State} (h : Kept s0 s) :
    Kept s0 (setRtc s now source) := by
  unfold setRtc
  with_reducible repeat' first
    | exact h
    | refine toColophon_kept ?_
    | refine setCol_kept ?_
    | refine showColophon_kept ?_
    | refine Kept.ite ?_ ?_
    | assumption
    | (intro hx; clear_value x)
    | (intro x; refine Kept.cut (s := s0) (x := x) ?_ ?_)
    | (intro x; refine Kept.cut (s := s0) (x := x.1) ?_ ?_)
    | (intro x; clear_value x)
    | lift_lets -underBinder
    | split
    | (refine Kept.upd ?_; first | assumption | refine toColophon_kept ?_ | refine setCol_kept ?_ | refine showColophon_kept ?_ | refine Kept.ite ?_ ?_)

theorem setCalendar_kept {v : BitVec 64} {source : Nat} {s0 s : State} (h : Kept s0 s) :
    Kept s0 (setCalendar s v source) := by
  unfold setCalendar
  with_reducible repeat' first
    | exact h
    | refine event_kept ?_
    | refine setRtc_kept ?_
    | refine Kept.ite ?_ ?_
    | split

theorem execCalendarSet_ends {management : Bool} {value : BitVec 64} {s0 s : State} (h : Kept s0 s) :
    Ends s0 (execCalendarSet management value s) := by
  unfold execCalendarSet
  refine Ends.next ?_
  with_reducible repeat' first
    | exact h
    | refine setCalendar_kept ?_
    | refine Kept.ite ?_ ?_
    | split

theorem calendarEdge_kept {s0 s : State} (h : Kept s0 s) :
    Kept s0 (calendarEdge s) := by
  unfold calendarEdge
  with_reducible repeat' first
    | exact h
    | refine State.setWord_kept ?_
    | refine setCol_kept ?_
    | refine setRtc_kept ?_
    | refine Kept.ite ?_ ?_
    | assumption
    | (intro hx; clear_value x)
    | (intro x; refine Kept.cut (s := s0) (x := x) ?_ ?_)
    | (intro x; refine Kept.cut (s := s0) (x := x.1) ?_ ?_)
    | (intro x; clear_value x)
    | lift_lets -underBinder
    | split
    | refine Kept.of_fst (by assumption) ?_
    | (unfold x; split)
    | (refine Kept.upd ?_; first | assumption | refine State.setWord_kept ?_ | refine setCol_kept ?_ | refine setRtc_kept ?_ | refine Kept.ite ?_ ?_)

theorem execVioOverload_ends {s0 s : State} (h : Kept s0 s) :
    Ends s0 (execVioOverload s) := by
  unfold execVioOverload
  refine Ends.next ?_
  with_reducible repeat' first
    | exact h
    | refine setPower_kept ?_
    | refine inkEvent_kept ?_
    | refine Kept.ite ?_ ?_
    | split
    | (refine Kept.upd ?_; first | assumption | refine setPower_kept ?_ | refine inkEvent_kept ?_ | refine Kept.ite ?_ ?_)

theorem execVioRetry_ends {s0 s : State} (h : Kept s0 s) :
    Ends s0 (execVioRetry s) := by
  unfold execVioRetry
  refine Ends.next ?_
  with_reducible repeat' first
    | exact h
    | refine setPower_kept ?_
    | (refine Kept.upd ?_; first | assumption | refine setPower_kept ?_)

theorem execCrystalFailure_ends {s0 s : State} (h : Kept s0 s) :
    Ends s0 (execCrystalFailure s) := by
  unfold execCrystalFailure
  refine Ends.next ?_
  with_reducible repeat' first
    | exact h
    | refine setCol_kept ?_
    | refine inkEvent_kept ?_
    | refine showColophon_kept ?_
    | refine Kept.ite ?_ ?_
    | split
    | (refine Kept.upd ?_; first | assumption | refine setCol_kept ?_ | refine inkEvent_kept ?_ | refine showColophon_kept ?_ | refine Kept.ite ?_ ?_)

theorem execMgmtBusStuck_ends {s0 s : State} (h : Kept s0 s) :
    Ends s0 (execMgmtBusStuck s) := by
  unfold execMgmtBusStuck
  refine Ends.next ?_
  with_reducible repeat' first
    | exact h

end Sys2Proof.Machine
end

