-- ==== Sys2Proof/Laws/KeptCoreMemory.lean ====
section
/-! SUPPORT. What every step keeps, through the functions of CoreMemory. -/

set_option linter.all false
set_option maxRecDepth 8000

namespace Sys2Proof.Machine

theorem checked_kept {k : Nat} {causes : List Nat} {access : Nat} {ea : BitVec 64} {go : State} {s0 s : State} (h_go : Kept s0 go) (h : Kept s0 s) :
    Kept s0 (checked s k causes access ea go) := by
  unfold checked
  with_reducible repeat' first
    | exact h
    | refine State.drew_kept ?_
    | refine fault_kept ?_
    | exact h_go
    | refine Kept.ite ?_ ?_
    | split
    | refine Kept.of_fst (by assumption) ?_

theorem launch_kept {k : Nat} {len : Nat} {ea : BitVec 64} {kind : Await} {s0 s : State} (h : Kept s0 s) :
    Kept s0 (launch s k len ea kind).1 := by
  unfold launch
  with_reducible repeat' first
    | exact h
    | refine setCore_kept ?_
    | refine advance_kept ?_
    | assumption
    | (intro hx; clear_value x)
    | (intro x; refine Kept.cut (s := s0) (x := x) ?_ ?_)
    | (intro x; refine Kept.cut (s := s0) (x := x.1) ?_ ?_)
    | (intro x; clear_value x)
    | lift_lets -underBinder
    | split
    | refine Kept.of_fst (by assumption) ?_
    | (unfold x; split)
    | (refine Kept.upd ?_; first | assumption | refine setCore_kept ?_ | refine advance_kept ?_)

theorem answerNow_kept {k : Nat} {slot : Nat} {r : Reply} {s0 s : State} (h : Kept s0 s) :
    Kept s0 (answerNow s k slot r) := by
  unfold answerNow
  with_reducible repeat' first
    | exact h
    | refine respond_kept ?_

theorem deviceRead_kept {k : Nat} {len : Nat} {ea : BitVec 64} {kind : Await} {s0 s : State} (h : Kept s0 s) :
    Kept s0 (deviceRead s k len ea kind) := by
  unfold deviceRead
  with_reducible repeat' first
    | exact h
    | refine submit_kept ?_
    | refine coreClassify_kept ?_
    | refine launch_kept ?_
    | refine answerNow_kept ?_
    | refine Kept.ite ?_ ?_
    | refine Kept.ite_fst ?_ ?_
    | assumption
    | (intro hx; clear_value x)
    | (intro x; refine Kept.cut (s := s0) (x := x) ?_ ?_)
    | (intro x; refine Kept.cut (s := s0) (x := x.1) ?_ ?_)
    | (intro x; clear_value x)
    | lift_lets -underBinder
    | split
    | refine Kept.of_fst (by assumption) ?_
    | (unfold x; split)

theorem putWork_kept {at' : Nat} {l : List (BitVec 8)} {s0 s : State} (h : Kept s0 s) :
    Kept s0 (putWork s at' l) := by
  unfold putWork
  with_reducible repeat' first
    | exact h
    | (refine Kept.upd ?_; first | assumption)

theorem load_kept {r : CoreRun} {len : Nat} {d : Fin 32} {a : Fin 32} {offset : BitVec 64} {size : Nat} {sign : Bool} {s0 s : State} (h : Kept s0 s) :
    Kept s0 (load s r len d a offset size sign) := by
  unfold load
  with_reducible repeat' first
    | exact h
    | refine chargeNow_kept ?_
    | refine eccFault_kept ?_
    | refine eccCorrected_kept ?_
    | refine issue_kept (fun x a0 hx => ?_) ?_
    | refine advance_kept ?_
    | refine checked_kept ?_ ?_
    | refine launch_kept ?_
    | refine answerNow_kept ?_
    | refine deviceRead_kept ?_
    | refine Kept.ite ?_ ?_
    | refine Kept.ite_fst ?_ ?_
    | assumption
    | (intro hx; clear_value x)
    | (intro x; refine Kept.cut (s := s0) (x := x) ?_ ?_)
    | (intro x; refine Kept.cut (s := s0) (x := x.1) ?_ ?_)
    | (intro x; clear_value x)
    | lift_lets -underBinder
    | split
    | refine Kept.of_fst (by assumption) ?_

theorem execLd_ends {run : CoreRun} {d : Fin 32} {a : Fin 32} {imm : BitVec 5} {s0 s : State} (h : Kept s0 s) :
    Ends s0 (execLd run d a imm s) := by
  unfold execLd
  refine Ends.next ?_
  with_reducible repeat' first
    | exact h
    | refine load_kept ?_

theorem execLdx_ends {run : CoreRun} {d : Fin 32} {a : Fin 32} {size : Fin 4} {sign : Bool} {offset : BitVec 17} {s0 s : State} (h : Kept s0 s) :
    Ends s0 (execLdx run d a size sign offset s) := by
  unfold execLdx
  refine Ends.next ?_
  with_reducible repeat' first
    | exact h
    | refine load_kept ?_
    | (refine Kept.upd ?_; first | assumption | refine load_kept ?_)

theorem deviceWrite_kept {k : Nat} {len : Nat} {ea : BitVec 64} {data : BitVec 512} {mask : BitVec 64} {access : Nat} {merge : ReadRun} {s0 s : State} (h : Kept s0 s) :
    Kept s0 (deviceWrite s k len ea data mask access merge) := by
  unfold deviceWrite
  with_reducible repeat' first
    | exact h
    | refine submit_kept ?_
    | refine coreClassify_kept ?_
    | refine fault_kept ?_
    | refine launch_kept ?_
    | refine answerNow_kept ?_
    | refine Kept.ite ?_ ?_
    | refine Kept.ite_fst ?_ ?_
    | assumption
    | (intro hx; clear_value x)
    | (intro x; refine Kept.cut (s := s0) (x := x) ?_ ?_)
    | (intro x; refine Kept.cut (s := s0) (x := x.1) ?_ ?_)
    | (intro x; clear_value x)
    | lift_lets -underBinder
    | split
    | refine Kept.of_fst (by assumption) ?_
    | (unfold x; split)

theorem store_kept {r : CoreRun} {len : Nat} {d : Fin 32} {a : Fin 32} {offset : BitVec 64} {size : Nat} {merge : ReadRun} {s0 s : State} (h : Kept s0 s) :
    Kept s0 (store s r len d a offset size merge) := by
  unfold store
  with_reducible repeat' first
    | exact h
    | refine chargeNow_kept ?_
    | refine issue_kept (fun x a0 hx => ?_) ?_
    | refine advance_kept ?_
    | refine checked_kept ?_ ?_
    | refine launch_kept ?_
    | refine answerNow_kept ?_
    | refine putWork_kept ?_
    | refine deviceWrite_kept ?_
    | refine Kept.ite ?_ ?_
    | refine Kept.ite_fst ?_ ?_
    | assumption
    | (intro hx; clear_value x)
    | (intro x; refine Kept.cut (s := s0) (x := x) ?_ ?_)
    | (intro x; refine Kept.cut (s := s0) (x := x.1) ?_ ?_)
    | (intro x; clear_value x)
    | lift_lets -underBinder
    | split
    | refine Kept.of_fst (by assumption) ?_
    | (refine Kept.upd ?_; first | assumption | refine chargeNow_kept ?_ | refine issue_kept (fun x a0 hx => ?_) ?_ | refine advance_kept ?_ | refine checked_kept ?_ ?_ | refine launch_kept ?_ | refine answerNow_kept ?_ | refine putWork_kept ?_ | refine deviceWrite_kept ?_ | refine Kept.ite ?_ ?_)

theorem execSt_ends {run : CoreRun} {d : Fin 32} {a : Fin 32} {imm : BitVec 5} {merge : ReadRun} {s0 s : State} (h : Kept s0 s) :
    Ends s0 (execSt run d a imm merge s) := by
  unfold execSt
  refine Ends.next ?_
  with_reducible repeat' first
    | exact h
    | refine store_kept ?_

theorem execStx_ends {run : CoreRun} {d : Fin 32} {a : Fin 32} {size : Fin 4} {sign : Bool} {offset : BitVec 17} {merge : ReadRun} {s0 s : State} (h : Kept s0 s) :
    Ends s0 (execStx run d a size sign offset merge s) := by
  unfold execStx
  refine Ends.next ?_
  with_reducible repeat' first
    | exact h
    | refine store_kept ?_
    | (refine Kept.upd ?_; first | assumption | refine store_kept ?_)

theorem atomic_kept {r : CoreRun} {op : Nat} {d : Fin 32} {a : Fin 32} {b : Fin 32} {c' : Fin 32} {size : Fin 4} {order : Fin 4} {merge : ReadRun} {s0 s : State} (h : Kept s0 s) :
    Kept s0 (atomic s r op d a b c' size order merge) := by
  unfold atomic
  with_reducible repeat' first
    | exact h
    | refine chargeNow_kept ?_
    | refine submit_kept ?_
    | refine place_kept ?_
    | refine coreClassify_kept ?_
    | refine eccFault_kept ?_
    | refine eccCorrected_kept ?_
    | refine issue_kept (fun x a0 hx => ?_) ?_
    | refine advance_kept ?_
    | refine compare_kept ?_
    | refine checked_kept ?_ ?_
    | refine launch_kept ?_
    | refine answerNow_kept ?_
    | refine putWork_kept ?_
    | refine Kept.ite ?_ ?_
    | refine Kept.ite_fst ?_ ?_
    | assumption
    | (intro hx; clear_value x)
    | (intro x; refine Kept.cut (s := s0) (x := x) ?_ ?_)
    | (intro x; refine Kept.cut (s := s0) (x := x.1) ?_ ?_)
    | (intro x; clear_value x)
    | lift_lets -underBinder
    | split
    | refine Kept.of_fst (by assumption) ?_
    | (unfold x; split)
    | (refine Kept.upd ?_; first | assumption | refine chargeNow_kept ?_ | refine submit_kept ?_ | refine place_kept ?_ | refine coreClassify_kept ?_ | refine eccFault_kept ?_ | refine eccCorrected_kept ?_ | refine issue_kept (fun x a0 hx => ?_) ?_ | refine advance_kept ?_ | refine compare_kept ?_ | refine checked_kept ?_ ?_ | refine launch_kept ?_ | refine answerNow_kept ?_ | refine putWork_kept ?_ | refine Kept.ite ?_ ?_)

theorem execAtomSwap_ends {run : CoreRun} {d : Fin 32} {a : Fin 32} {b : Fin 32} {size : Fin 4} {order : Fin 4} {merge : ReadRun} {s0 s : State} (h : Kept s0 s) :
    Ends s0 (execAtomSwap run d a b size order merge s) := by
  unfold execAtomSwap
  refine Ends.next ?_
  with_reducible repeat' first
    | exact h
    | refine atomic_kept ?_

theorem execAtomAdd_ends {run : CoreRun} {d : Fin 32} {a : Fin 32} {b : Fin 32} {size : Fin 4} {order : Fin 4} {merge : ReadRun} {s0 s : State} (h : Kept s0 s) :
    Ends s0 (execAtomAdd run d a b size order merge s) := by
  unfold execAtomAdd
  refine Ends.next ?_
  with_reducible repeat' first
    | exact h
    | refine atomic_kept ?_

theorem execAtomAnd_ends {run : CoreRun} {d : Fin 32} {a : Fin 32} {b : Fin 32} {size : Fin 4} {order : Fin 4} {merge : ReadRun} {s0 s : State} (h : Kept s0 s) :
    Ends s0 (execAtomAnd run d a b size order merge s) := by
  unfold execAtomAnd
  refine Ends.next ?_
  with_reducible repeat' first
    | exact h
    | refine atomic_kept ?_

theorem execAtomOr_ends {run : CoreRun} {d : Fin 32} {a : Fin 32} {b : Fin 32} {size : Fin 4} {order : Fin 4} {merge : ReadRun} {s0 s : State} (h : Kept s0 s) :
    Ends s0 (execAtomOr run d a b size order merge s) := by
  unfold execAtomOr
  refine Ends.next ?_
  with_reducible repeat' first
    | exact h
    | refine atomic_kept ?_

theorem execAtomXor_ends {run : CoreRun} {d : Fin 32} {a : Fin 32} {b : Fin 32} {size : Fin 4} {order : Fin 4} {merge : ReadRun} {s0 s : State} (h : Kept s0 s) :
    Ends s0 (execAtomXor run d a b size order merge s) := by
  unfold execAtomXor
  refine Ends.next ?_
  with_reducible repeat' first
    | exact h
    | refine atomic_kept ?_

theorem execAtomMin_ends {run : CoreRun} {d : Fin 32} {a : Fin 32} {b : Fin 32} {size : Fin 4} {order : Fin 4} {merge : ReadRun} {s0 s : State} (h : Kept s0 s) :
    Ends s0 (execAtomMin run d a b size order merge s) := by
  unfold execAtomMin
  refine Ends.next ?_
  with_reducible repeat' first
    | exact h
    | refine atomic_kept ?_

theorem execAtomMax_ends {run : CoreRun} {d : Fin 32} {a : Fin 32} {b : Fin 32} {size : Fin 4} {order : Fin 4} {merge : ReadRun} {s0 s : State} (h : Kept s0 s) :
    Ends s0 (execAtomMax run d a b size order merge s) := by
  unfold execAtomMax
  refine Ends.next ?_
  with_reducible repeat' first
    | exact h
    | refine atomic_kept ?_

theorem execAtomMinu_ends {run : CoreRun} {d : Fin 32} {a : Fin 32} {b : Fin 32} {size : Fin 4} {order : Fin 4} {merge : ReadRun} {s0 s : State} (h : Kept s0 s) :
    Ends s0 (execAtomMinu run d a b size order merge s) := by
  unfold execAtomMinu
  refine Ends.next ?_
  with_reducible repeat' first
    | exact h
    | refine atomic_kept ?_

theorem execAtomMaxu_ends {run : CoreRun} {d : Fin 32} {a : Fin 32} {b : Fin 32} {size : Fin 4} {order : Fin 4} {merge : ReadRun} {s0 s : State} (h : Kept s0 s) :
    Ends s0 (execAtomMaxu run d a b size order merge s) := by
  unfold execAtomMaxu
  refine Ends.next ?_
  with_reducible repeat' first
    | exact h
    | refine atomic_kept ?_

theorem execAtomCas_ends {run : CoreRun} {d : Fin 32} {a : Fin 32} {b : Fin 32} {c : Fin 32} {size : Fin 4} {order : Fin 4} {merge : ReadRun} {s0 s : State} (h : Kept s0 s) :
    Ends s0 (execAtomCas run d a b c size order merge s) := by
  unfold execAtomCas
  refine Ends.next ?_
  with_reducible repeat' first
    | exact h
    | refine atomic_kept ?_

theorem settle_kept {k : Nat} {s0 s : State} (h : Kept s0 s) :
    Kept s0 (settle s k) := by
  unfold settle
  with_reducible repeat' first
    | exact h
    | refine modCore_kept ?_
    | refine endCore_kept ?_
    | refine advance_kept ?_
    | refine Kept.ite ?_ ?_
    | assumption
    | (intro hx; clear_value x)
    | (intro x; refine Kept.cut (s := s0) (x := x) ?_ ?_)
    | (intro x; refine Kept.cut (s := s0) (x := x.1) ?_ ?_)
    | (intro x; clear_value x)
    | lift_lets -underBinder
    | split
    | refine Kept.of_fst (by assumption) ?_
    | (unfold x; split)
    | (refine Kept.upd ?_; first | assumption | refine modCore_kept ?_ | refine endCore_kept ?_ | refine advance_kept ?_ | refine Kept.ite ?_ ?_)

theorem deliver_kept {k : Nat} {a : CoreAccess} {line : BitVec 512} {s0 s : State} (h : Kept s0 s) :
    Kept s0 (deliver s k a line) := by
  unfold deliver
  with_reducible repeat' first
    | exact h
    | refine modCore_kept ?_
    | refine load_kept ?_
    | refine atomic_kept ?_
    | assumption
    | (intro hx; clear_value x)
    | (intro x; refine Kept.cut (s := s0) (x := x) ?_ ?_)
    | (intro x; refine Kept.cut (s := s0) (x := x.1) ?_ ?_)
    | (intro x; clear_value x)
    | lift_lets -underBinder
    | split
    | refine Kept.of_fst (by assumption) ?_
    | (unfold x; split)

theorem execDeviceLoadReturn_ends {core : Fin 264} {s0 s : State} (h : Kept s0 s) :
    Ends s0 (execDeviceLoadReturn core s) := by
  unfold execDeviceLoadReturn
  refine Ends.next ?_
  with_reducible repeat' first
    | exact h
    | refine dropAccess_kept ?_
    | refine settle_kept ?_
    | refine deliver_kept ?_
    | split
    | refine Kept.of_fst (by assumption) ?_

theorem execDeviceStorePerformed_ends {core : Fin 264} {s0 s : State} (h : Kept s0 s) :
    Ends s0 (execDeviceStorePerformed core s) := by
  unfold execDeviceStorePerformed
  refine Ends.next ?_
  with_reducible repeat' first
    | exact h
    | refine dropAccess_kept ?_
    | refine settle_kept ?_
    | split
    | refine Kept.of_fst (by assumption) ?_

theorem execImpreciseFault_ends {core : Fin 264} {s0 s : State} (h : Kept s0 s) :
    Ends s0 (execImpreciseFault core s) := by
  unfold execImpreciseFault
  refine Ends.next ?_
  with_reducible repeat' first
    | exact h
    | refine modCore_kept ?_
    | refine dropAccess_kept ?_
    | refine endCore_kept ?_
    | refine raiseTrap_kept ?_
    | refine settle_kept ?_
    | refine Kept.ite ?_ ?_
    | assumption
    | (intro hx; clear_value x)
    | (intro x; refine Kept.cut (s := s0) (x := x) ?_ ?_)
    | (intro x; refine Kept.cut (s := s0) (x := x.1) ?_ ?_)
    | (intro x; clear_value x)
    | lift_lets -underBinder
    | split
    | refine Kept.of_fst (by assumption) ?_
    | (unfold x; split)
    | (refine Kept.upd ?_; first | assumption | refine modCore_kept ?_ | refine dropAccess_kept ?_ | refine endCore_kept ?_ | refine raiseTrap_kept ?_ | refine settle_kept ?_ | refine Kept.ite ?_ ?_)

end Sys2Proof.Machine
end

