-- ==== Sys2Proof/Laws/KeptFloat.lean ====
section
/-! SUPPORT. What every step keeps, through the functions of Float. -/

set_option linter.all false
set_option maxRecDepth 8000

namespace Sys2Proof.Machine


end Sys2Proof.Machine
end

