-- ==== Sys2Proof/Laws/KeptVector.lean ====
section
/-! SUPPORT. What every step keeps, through the functions of Vector. -/

set_option linter.all false
set_option maxRecDepth 8000

namespace Sys2Proof.Machine

theorem drewLanes_kept {s0 s : State} (h : Kept s0 s) :
    Kept s0 (drewLanes s) := by
  unfold drewLanes
  with_reducible repeat' first
    | exact h
    | (refine Kept.upd ?_; first | assumption)
    | (refine Kept.draw ?_; assumption)

theorem vector_kept {r : CoreRun} {len : Nat} {d : Fin 16} {readsV : List Nat} {ok : Bool} {g : State → CoreState → BitVec 512} {s0 s : State} (h : Kept s0 s) :
    Kept s0 (vector s r len d readsV ok g) := by
  unfold vector
  with_reducible repeat' first
    | exact h
    | refine fault_kept ?_
    | refine issue_kept (fun x a0 hx => ?_) ?_
    | refine advance_kept ?_
    | refine drewLanes_kept ?_
    | refine Kept.ite ?_ ?_
    | assumption
    | split

theorem execVfmaF32_ends {run : CoreRun} {d : Fin 16} {a : Fin 16} {b : Fin 16} {s0 s : State} (h : Kept s0 s) :
    Ends s0 (execVfmaF32 run d a b s) := by
  unfold execVfmaF32
  refine Ends.next ?_
  with_reducible repeat' first
    | exact h
    | refine vector_kept ?_
    | assumption

theorem execVdotBf16_ends {run : CoreRun} {d : Fin 16} {a : Fin 16} {b : Fin 16} {s0 s : State} (h : Kept s0 s) :
    Ends s0 (execVdotBf16 run d a b s) := by
  unfold execVdotBf16
  refine Ends.next ?_
  with_reducible repeat' first
    | exact h
    | refine vector_kept ?_
    | assumption

theorem execVdotFp16_ends {run : CoreRun} {d : Fin 16} {a : Fin 16} {b : Fin 16} {s0 s : State} (h : Kept s0 s) :
    Ends s0 (execVdotFp16 run d a b s) := by
  unfold execVdotFp16
  refine Ends.next ?_
  with_reducible repeat' first
    | exact h
    | refine vector_kept ?_
    | assumption

theorem execVdotI8_ends {run : CoreRun} {d : Fin 16} {a : Fin 16} {b : Fin 16} {s0 s : State} (h : Kept s0 s) :
    Ends s0 (execVdotI8 run d a b s) := by
  unfold execVdotI8
  refine Ends.next ?_
  with_reducible repeat' first
    | exact h
    | refine vector_kept ?_
    | assumption

theorem execVaddF32_ends {run : CoreRun} {d : Fin 16} {a : Fin 16} {b : Fin 16} {s0 s : State} (h : Kept s0 s) :
    Ends s0 (execVaddF32 run d a b s) := by
  unfold execVaddF32
  refine Ends.next ?_
  with_reducible repeat' first
    | exact h
    | refine vector_kept ?_
    | assumption

theorem execVmulF32_ends {run : CoreRun} {d : Fin 16} {a : Fin 16} {b : Fin 16} {s0 s : State} (h : Kept s0 s) :
    Ends s0 (execVmulF32 run d a b s) := by
  unfold execVmulF32
  refine Ends.next ?_
  with_reducible repeat' first
    | exact h
    | refine vector_kept ?_
    | assumption

theorem execVaddI32_ends {run : CoreRun} {d : Fin 16} {a : Fin 16} {b : Fin 16} {s0 s : State} (h : Kept s0 s) :
    Ends s0 (execVaddI32 run d a b s) := by
  unfold execVaddI32
  refine Ends.next ?_
  with_reducible repeat' first
    | exact h
    | refine vector_kept ?_
    | assumption

theorem execVxor_ends {run : CoreRun} {d : Fin 16} {a : Fin 16} {b : Fin 16} {s0 s : State} (h : Kept s0 s) :
    Ends s0 (execVxor run d a b s) := by
  unfold execVxor
  refine Ends.next ?_
  with_reducible repeat' first
    | exact h
    | refine vector_kept ?_
    | assumption

theorem vop_kept {r : CoreRun} {type : Fin 8} {d : Fin 16} {guard : Fin 8} {neg : Bool} {readsV : List Nat} {ok : VType → Bool} {g : State → CoreState → VType → BitVec 512} {s0 s : State} (h : Kept s0 s) :
    Kept s0 (vop s r type d guard neg readsV ok g) := by
  unfold vop
  with_reducible repeat' first
    | exact h
    | refine issue_kept (fun x a0 hx => ?_) ?_
    | refine advance_kept ?_
    | refine vector_kept ?_
    | refine Kept.ite ?_ ?_
    | assumption
    | split
    | refine Kept.of_fst (by assumption) ?_

theorem vopLanes_kept {r : CoreRun} {op : Nat} {type : Fin 8} {d : Fin 16} {a : Fin 16} {b : Fin 16} {guard : Fin 8} {neg : Bool} {s0 s : State} (h : Kept s0 s) :
    Kept s0 (vopLanes s r op type d a b guard neg) := by
  unfold vopLanes
  with_reducible repeat' first
    | exact h
    | refine vop_kept ?_
    | refine Kept.ite ?_ ?_
    | assumption
    | split

theorem vopBits_kept {r : CoreRun} {type : Fin 8} {d : Fin 16} {a : Fin 16} {b : Fin 16} {guard : Fin 8} {neg : Bool} {f : BitVec 512 → BitVec 512 → BitVec 512} {s0 s : State} (h : Kept s0 s) :
    Kept s0 (vopBits s r type d a b guard neg f) := by
  unfold vopBits
  with_reducible repeat' first
    | exact h
    | refine vop_kept ?_
    | assumption
    | split
    | refine Kept.of_fst (by assumption) ?_

theorem execVopAdd_ends {run : CoreRun} {type : Fin 8} {d : Fin 16} {a : Fin 16} {b : Fin 16} {guard : Fin 8} {neg : Bool} {s0 s : State} (h : Kept s0 s) :
    Ends s0 (execVopAdd run type d a b guard neg s) := by
  unfold execVopAdd
  refine Ends.next ?_
  with_reducible repeat' first
    | exact h
    | refine vopLanes_kept ?_

theorem execVopSub_ends {run : CoreRun} {type : Fin 8} {d : Fin 16} {a : Fin 16} {b : Fin 16} {guard : Fin 8} {neg : Bool} {s0 s : State} (h : Kept s0 s) :
    Ends s0 (execVopSub run type d a b guard neg s) := by
  unfold execVopSub
  refine Ends.next ?_
  with_reducible repeat' first
    | exact h
    | refine vopLanes_kept ?_

theorem execVopMul_ends {run : CoreRun} {type : Fin 8} {d : Fin 16} {a : Fin 16} {b : Fin 16} {guard : Fin 8} {neg : Bool} {s0 s : State} (h : Kept s0 s) :
    Ends s0 (execVopMul run type d a b guard neg s) := by
  unfold execVopMul
  refine Ends.next ?_
  with_reducible repeat' first
    | exact h
    | refine vopLanes_kept ?_

theorem execVopFma_ends {run : CoreRun} {type : Fin 8} {d : Fin 16} {a : Fin 16} {b : Fin 16} {guard : Fin 8} {neg : Bool} {s0 s : State} (h : Kept s0 s) :
    Ends s0 (execVopFma run type d a b guard neg s) := by
  unfold execVopFma
  refine Ends.next ?_
  with_reducible repeat' first
    | exact h
    | refine vopLanes_kept ?_

theorem execVopMin_ends {run : CoreRun} {type : Fin 8} {d : Fin 16} {a : Fin 16} {b : Fin 16} {guard : Fin 8} {neg : Bool} {s0 s : State} (h : Kept s0 s) :
    Ends s0 (execVopMin run type d a b guard neg s) := by
  unfold execVopMin
  refine Ends.next ?_
  with_reducible repeat' first
    | exact h
    | refine vopLanes_kept ?_

theorem execVopMax_ends {run : CoreRun} {type : Fin 8} {d : Fin 16} {a : Fin 16} {b : Fin 16} {guard : Fin 8} {neg : Bool} {s0 s : State} (h : Kept s0 s) :
    Ends s0 (execVopMax run type d a b guard neg s) := by
  unfold execVopMax
  refine Ends.next ?_
  with_reducible repeat' first
    | exact h
    | refine vopLanes_kept ?_

theorem execVopAnd_ends {run : CoreRun} {type : Fin 8} {d : Fin 16} {a : Fin 16} {b : Fin 16} {guard : Fin 8} {neg : Bool} {s0 s : State} (h : Kept s0 s) :
    Ends s0 (execVopAnd run type d a b guard neg s) := by
  unfold execVopAnd
  refine Ends.next ?_
  with_reducible repeat' first
    | exact h
    | refine vopBits_kept ?_

theorem execVopOr_ends {run : CoreRun} {type : Fin 8} {d : Fin 16} {a : Fin 16} {b : Fin 16} {guard : Fin 8} {neg : Bool} {s0 s : State} (h : Kept s0 s) :
    Ends s0 (execVopOr run type d a b guard neg s) := by
  unfold execVopOr
  refine Ends.next ?_
  with_reducible repeat' first
    | exact h
    | refine vopBits_kept ?_

theorem execVopXor_ends {run : CoreRun} {type : Fin 8} {d : Fin 16} {a : Fin 16} {b : Fin 16} {guard : Fin 8} {neg : Bool} {s0 s : State} (h : Kept s0 s) :
    Ends s0 (execVopXor run type d a b guard neg s) := by
  unfold execVopXor
  refine Ends.next ?_
  with_reducible repeat' first
    | exact h
    | refine vopBits_kept ?_

theorem execVopCvt_ends {run : CoreRun} {type : Fin 8} {d : Fin 16} {a : Fin 16} {b : Fin 16} {guard : Fin 8} {neg : Bool} {s0 s : State} (h : Kept s0 s) :
    Ends s0 (execVopCvt run type d a b guard neg s) := by
  unfold execVopCvt
  refine Ends.next ?_
  with_reducible repeat' first
    | exact h
    | refine vop_kept ?_
    | refine Kept.ite ?_ ?_
    | assumption
    | (intro hx; clear_value x)
    | (intro x; refine Kept.cut (s := s0) (x := x) ?_ ?_)
    | (intro x; refine Kept.cut (s := s0) (x := x.1) ?_ ?_)
    | (intro x; clear_value x)
    | lift_lets -underBinder
    | split
    | refine Kept.of_fst (by assumption) ?_
    | (unfold x; split)

theorem execVopDot_ends {run : CoreRun} {type : Fin 8} {d : Fin 16} {a : Fin 16} {b : Fin 16} {guard : Fin 8} {neg : Bool} {s0 s : State} (h : Kept s0 s) :
    Ends s0 (execVopDot run type d a b guard neg s) := by
  unfold execVopDot
  refine Ends.next ?_
  with_reducible repeat' first
    | exact h
    | refine vop_kept ?_
    | assumption

theorem execVsplat_ends {run : CoreRun} {type : Fin 8} {d : Fin 16} {a : Fin 32} {s0 s : State} (h : Kept s0 s) :
    Ends s0 (execVsplat run type d a s) := by
  unfold execVsplat
  refine Ends.next ?_
  with_reducible repeat' first
    | exact h
    | refine fault_kept ?_
    | refine issue_kept (fun x a0 hx => ?_) ?_
    | refine advance_kept ?_
    | refine vector_kept ?_
    | assumption
    | split
    | refine Kept.of_fst (by assumption) ?_

theorem execVext_ends {run : CoreRun} {type : Fin 8} {d : Fin 32} {a : Fin 16} {lane : Fin 64} {s0 s : State} (h : Kept s0 s) :
    Ends s0 (execVext run type d a lane s) := by
  unfold execVext
  refine Ends.next ?_
  with_reducible repeat' first
    | exact h
    | refine fault_kept ?_
    | refine issue_kept (fun x a0 hx => ?_) ?_
    | refine advance_kept ?_
    | refine vector_kept ?_
    | refine Kept.ite ?_ ?_
    | assumption
    | (intro hx; clear_value x)
    | (intro x; refine Kept.cut (s := s0) (x := x) ?_ ?_)
    | (intro x; refine Kept.cut (s := s0) (x := x.1) ?_ ?_)
    | (intro x; clear_value x)
    | lift_lets -underBinder
    | split
    | refine Kept.of_fst (by assumption) ?_
    | (unfold x; split)

theorem execVins_ends {run : CoreRun} {type : Fin 8} {d : Fin 16} {a : Fin 32} {lane : Fin 64} {s0 s : State} (h : Kept s0 s) :
    Ends s0 (execVins run type d a lane s) := by
  unfold execVins
  refine Ends.next ?_
  with_reducible repeat' first
    | exact h
    | refine fault_kept ?_
    | refine issue_kept (fun x a0 hx => ?_) ?_
    | refine advance_kept ?_
    | refine vector_kept ?_
    | refine Kept.ite ?_ ?_
    | assumption
    | (intro hx; clear_value x)
    | (intro x; refine Kept.cut (s := s0) (x := x) ?_ ?_)
    | (intro x; refine Kept.cut (s := s0) (x := x.1) ?_ ?_)
    | (intro x; clear_value x)
    | lift_lets -underBinder
    | split
    | refine Kept.of_fst (by assumption) ?_
    | (unfold x; split)

theorem execVrsum_ends {run : CoreRun} {type : Fin 8} {d : Fin 32} {a : Fin 16} {s0 s : State} (h : Kept s0 s) :
    Ends s0 (execVrsum run type d a s) := by
  unfold execVrsum
  refine Ends.next ?_
  with_reducible repeat' first
    | exact h
    | refine fault_kept ?_
    | refine issue_kept (fun x a0 hx => ?_) ?_
    | refine advance_kept ?_
    | refine drewLanes_kept ?_
    | refine vector_kept ?_
    | refine Kept.ite ?_ ?_
    | refine foldl_kept ?_ fun x a hx => ?_
    | refine foldl_kept_fst ?_ fun x a hx => ?_
    | assumption
    | (intro hx; clear_value x)
    | (intro x; refine Kept.cut (s := s0) (x := x) ?_ ?_)
    | (intro x; refine Kept.cut (s := s0) (x := x.1) ?_ ?_)
    | (intro x; clear_value x)
    | lift_lets -underBinder
    | split
    | refine Kept.of_fst (by assumption) ?_
    | (unfold x; split)

theorem execVlds_ends {run : CoreRun} {v : Fin 16} {a : Fin 32} {imm : BitVec 16} {s0 s : State} (h : Kept s0 s) :
    Ends s0 (execVlds run v a imm s) := by
  unfold execVlds
  refine Ends.next ?_
  with_reducible repeat' first
    | exact h
    | refine eccFault_kept ?_
    | refine eccCorrected_kept ?_
    | refine issue_kept (fun x a0 hx => ?_) ?_
    | refine advance_kept ?_
    | refine checked_kept ?_ ?_
    | refine vector_kept ?_
    | refine Kept.ite ?_ ?_
    | assumption
    | (intro hx; clear_value x)
    | (intro x; refine Kept.cut (s := s0) (x := x) ?_ ?_)
    | (intro x; refine Kept.cut (s := s0) (x := x.1) ?_ ?_)
    | (intro x; clear_value x)
    | lift_lets -underBinder
    | split

theorem execVsts_ends {run : CoreRun} {v : Fin 16} {a : Fin 32} {imm : BitVec 16} {s0 s : State} (h : Kept s0 s) :
    Ends s0 (execVsts run v a imm s) := by
  unfold execVsts
  refine Ends.next ?_
  with_reducible repeat' first
    | exact h
    | refine issue_kept (fun x a0 hx => ?_) ?_
    | refine advance_kept ?_
    | refine checked_kept ?_ ?_
    | refine vector_kept ?_
    | assumption
    | (intro hx; clear_value x)
    | (intro x; refine Kept.cut (s := s0) (x := x) ?_ ?_)
    | (intro x; refine Kept.cut (s := s0) (x := x.1) ?_ ?_)
    | (intro x; clear_value x)
    | lift_lets -underBinder
    | (refine Kept.upd ?_; first | assumption | refine issue_kept (fun x a0 hx => ?_) ?_ | refine advance_kept ?_ | refine checked_kept ?_ ?_ | refine vector_kept ?_)

theorem execVldl_ends {run : CoreRun} {v : Fin 16} {a : Fin 32} {op : Fin 4} {imm : BitVec 16} {s0 s : State} (h : Kept s0 s) :
    Ends s0 (execVldl run v a op imm s) := by
  unfold execVldl
  refine Ends.next ?_
  with_reducible repeat' first
    | exact h
    | refine issue_kept (fun x a0 hx => ?_) ?_
    | refine checked_kept ?_ ?_
    | refine deviceRead_kept ?_
    | refine vector_kept ?_
    | refine Kept.ite ?_ ?_
    | assumption
    | (intro hx; clear_value x)
    | (intro x; refine Kept.cut (s := s0) (x := x) ?_ ?_)
    | (intro x; refine Kept.cut (s := s0) (x := x.1) ?_ ?_)
    | (intro x; clear_value x)
    | lift_lets -underBinder
    | split
    | refine Kept.of_fst (by assumption) ?_

theorem execVstl_ends {run : CoreRun} {v : Fin 16} {a : Fin 32} {op : Fin 4} {imm : BitVec 16} {s0 s : State} (h : Kept s0 s) :
    Ends s0 (execVstl run v a op imm s) := by
  unfold execVstl
  refine Ends.next ?_
  with_reducible repeat' first
    | exact h
    | refine issue_kept (fun x a0 hx => ?_) ?_
    | refine checked_kept ?_ ?_
    | refine deviceWrite_kept ?_
    | refine vector_kept ?_
    | refine Kept.ite ?_ ?_
    | assumption
    | (intro hx; clear_value x)
    | (intro x; refine Kept.cut (s := s0) (x := x) ?_ ?_)
    | (intro x; refine Kept.cut (s := s0) (x := x.1) ?_ ?_)
    | (intro x; clear_value x)
    | lift_lets -underBinder
    | split
    | refine Kept.of_fst (by assumption) ?_

end Sys2Proof.Machine
end

