-- ==== Sys2Proof/Laws/KeptDevice.lean ====
section
/-! SUPPORT. What every step keeps, through the functions of Device. -/

set_option linter.all false
set_option maxRecDepth 8000

namespace Sys2Proof.Machine

theorem modRubric_kept {k : Nat} {f : Rubric → Rubric} {s0 s : State} (h : Kept s0 s) :
    Kept s0 (modRubric s k f) := by
  unfold modRubric
  with_reducible repeat' first
    | exact h
    | refine setRubric_kept ?_
    | split
    | refine Kept.of_fst (by assumption) ?_

theorem grantFault_kept {k : Nat} {access : Nat} {addr : Nat} {s0 s : State} (h : Kept s0 s) :
    Kept s0 (grantFault s k access addr) := by
  unfold grantFault
  with_reducible repeat' first
    | exact h
    | refine openEvent_kept ?_
    | refine fault_kept ?_
    | refine Kept.ite ?_ ?_
    | split

theorem execRtRead_ends {run : CoreRun} {d : Fin 32} {s0 s : State} (h : Kept s0 s) :
    Ends s0 (execRtRead run d s) := by
  unfold execRtRead
  refine Ends.next ?_
  with_reducible repeat' first
    | exact h
    | refine State.timed_kept ?_
    | refine issue_kept (fun x a0 hx => ?_) ?_
    | refine advance_kept ?_
    | assumption

theorem block_kept {k : Nat} {w : CoreWait} {s0 s : State} (h : Kept s0 s) :
    Kept s0 (block s k w) := by
  unfold block
  with_reducible repeat' first
    | exact h
    | refine State.put_kept ?_
    | refine modCore_kept ?_
    | refine modRubric_kept ?_
    | refine Kept.ite ?_ ?_
    | assumption
    | (intro hx; clear_value x)
    | (intro x; refine Kept.cut (s := s0) (x := x) ?_ ?_)
    | (intro x; refine Kept.cut (s := s0) (x := x.1) ?_ ?_)
    | (intro x; clear_value x)
    | lift_lets -underBinder
    | split
    | (refine Kept.upd ?_; first | assumption | refine State.put_kept ?_ | refine modCore_kept ?_ | refine modRubric_kept ?_ | refine Kept.ite ?_ ?_)

theorem unblock_kept {k : Nat} {s0 s : State} (h : Kept s0 s) :
    Kept s0 (unblock s k) := by
  unfold unblock
  with_reducible repeat' first
    | exact h
    | refine State.put_kept ?_
    | refine modCore_kept ?_
    | refine modRubric_kept ?_
    | refine Kept.ite ?_ ?_
    | assumption
    | (intro hx; clear_value x)
    | (intro x; refine Kept.cut (s := s0) (x := x) ?_ ?_)
    | (intro x; refine Kept.cut (s := s0) (x := x.1) ?_ ?_)
    | (intro x; clear_value x)
    | lift_lets -underBinder
    | split
    | (refine Kept.upd ?_; first | assumption | refine State.put_kept ?_ | refine modCore_kept ?_ | refine modRubric_kept ?_ | refine Kept.ite ?_ ?_)

theorem execRtWaitl_ends {run : CoreRun} {a : Fin 32} {s0 s : State} (h : Kept s0 s) :
    Ends s0 (execRtWaitl run a s) := by
  unfold execRtWaitl
  refine Ends.next ?_
  with_reducible repeat' first
    | exact h
    | refine issue_kept (fun x a0 hx => ?_) ?_
    | refine advance_kept ?_
    | refine block_kept ?_
    | refine Kept.ite ?_ ?_
    | assumption
    | (intro hx; clear_value x)
    | (intro x; refine Kept.cut (s := s0) (x := x) ?_ ?_)
    | (intro x; refine Kept.cut (s := s0) (x := x.1) ?_ ?_)
    | (intro x; clear_value x)
    | lift_lets -underBinder
    | split

theorem execRtWaitt_ends {run : CoreRun} {a : Fin 32} {tick : Fin 1024} {s0 s : State} (h : Kept s0 s) :
    Ends s0 (execRtWaitt run a tick s) := by
  unfold execRtWaitt
  refine Ends.next ?_
  with_reducible repeat' first
    | exact h
    | refine State.passed_kept ?_
    | refine issue_kept (fun x a0 hx => ?_) ?_
    | refine advance_kept ?_
    | refine block_kept ?_
    | refine Kept.ite ?_ ?_
    | assumption
    | (intro hx; clear_value x)
    | (intro x; refine Kept.cut (s := s0) (x := x) ?_ ?_)
    | (intro x; refine Kept.cut (s := s0) (x := x.1) ?_ ?_)
    | (intro x; clear_value x)
    | lift_lets -underBinder
    | split

theorem execRtArm_ends {run : CoreRun} {d : Fin 32} {a : Fin 32} {s0 s : State} (h : Kept s0 s) :
    Ends s0 (execRtArm run d a s) := by
  unfold execRtArm
  refine Ends.next ?_
  with_reducible repeat' first
    | exact h
    | refine writeEventCtrl_kept ?_
    | refine writeEventTime_kept ?_
    | refine fault_kept ?_
    | refine issue_kept (fun x a0 hx => ?_) ?_
    | refine advance_kept ?_
    | refine Kept.ite ?_ ?_
    | assumption
    | (intro hx; clear_value x)
    | (intro x; refine Kept.cut (s := s0) (x := x) ?_ ?_)
    | (intro x; refine Kept.cut (s := s0) (x := x.1) ?_ ?_)
    | (intro x; clear_value x)
    | lift_lets -underBinder
    | split

theorem execRtDisarm_ends {run : CoreRun} {d : Fin 32} {s0 s : State} (h : Kept s0 s) :
    Ends s0 (execRtDisarm run d s) := by
  unfold execRtDisarm
  refine Ends.next ?_
  with_reducible repeat' first
    | exact h
    | refine writeEventCtrl_kept ?_
    | refine fault_kept ?_
    | refine issue_kept (fun x a0 hx => ?_) ?_
    | refine advance_kept ?_
    | refine Kept.ite ?_ ?_
    | assumption
    | (intro hx; clear_value x)
    | (intro x; refine Kept.cut (s := s0) (x := x) ?_ ?_)
    | (intro x; refine Kept.cut (s := s0) (x := x.1) ?_ ?_)
    | (intro x; clear_value x)
    | lift_lets -underBinder
    | split

theorem takeEvent_kept {k : Nat} {mask v : BitVec 64} {s0 s t : State} (h : Kept s0 s)
    (e : takeEvent s k mask = some (t, v)) : Kept s0 t := by
  unfold takeEvent at e
  split at e
  · cases e
  · split at e
    · cases e
      exact modRubric_kept h
    · split at e
      · cases e
        exact modRubric_kept h
      · cases e

theorem execEvtWait_ends {run : CoreRun} {d : Fin 32} {a : Fin 32} {s0 s : State} (h : Kept s0 s) :
    Ends s0 (execEvtWait run d a s) := by
  unfold execEvtWait
  refine Ends.next ?_
  with_reducible repeat' first
    | exact h
    | refine event_kept ?_
    | refine issue_kept (fun x a0 hx => ?_) ?_
    | refine advance_kept ?_
    | refine block_kept ?_
    | refine takeEvent_kept ?_ (by assumption)
    | assumption
    | split
    | refine Kept.of_fst (by assumption) ?_

theorem execEvtPoll_ends {run : CoreRun} {d : Fin 32} {a : Fin 32} {s0 s : State} (h : Kept s0 s) :
    Ends s0 (execEvtPoll run d a s) := by
  unfold execEvtPoll
  refine Ends.next ?_
  with_reducible repeat' first
    | exact h
    | refine issue_kept (fun x a0 hx => ?_) ?_
    | refine advance_kept ?_
    | refine takeEvent_kept ?_ (by assumption)
    | assumption
    | split
    | refine Kept.of_fst (by assumption) ?_

theorem execWaitResume_ends {core : Fin 264} {tick : Fin 1024} {s0 s : State} (h : Kept s0 s) :
    Ends s0 (execWaitResume core tick s) := by
  unfold execWaitResume
  refine Ends.next ?_
  with_reducible repeat' first
    | exact h
    | refine State.passed_kept ?_
    | refine event_kept ?_
    | refine setReg_kept ?_
    | refine unblock_kept ?_
    | refine takeEvent_kept ?_ (by assumption)
    | refine Kept.ite ?_ ?_
    | refine Kept.ite_fst ?_ ?_
    | assumption
    | (intro hx; clear_value x)
    | (intro x; refine Kept.cut (s := s0) (x := x) ?_ ?_)
    | (intro x; refine Kept.cut (s := s0) (x := x.1) ?_ ?_)
    | (intro x; clear_value x)
    | lift_lets -underBinder
    | split
    | refine Kept.of_fst (by assumption) ?_
    | (unfold x; split)

theorem execEvtBeat_ends {run : CoreRun} {s0 s : State} (h : Kept s0 s) :
    Ends s0 (execEvtBeat run s) := by
  unfold execEvtBeat
  refine Ends.next ?_
  with_reducible repeat' first
    | exact h
    | refine issue_kept (fun x a0 hx => ?_) ?_
    | refine advance_kept ?_
    | refine modRubric_kept ?_
    | assumption
    | (refine Kept.upd ?_; first | assumption | refine issue_kept (fun x a0 hx => ?_) ?_ | refine advance_kept ?_ | refine modRubric_kept ?_)

theorem post_kept {k : Nat} {dest : Nat} {body : List (BitVec 8)} {s0 s : State} (h : Kept s0 s) :
    Kept s0 (post s k dest body).1 := by
  unfold post
  with_reducible repeat' first
    | exact h
    | refine asyncPost_kept ?_
    | refine toInbox_kept ?_
    | refine replyTo_kept ?_
    | refine Kept.ite ?_ ?_
    | refine Kept.ite_fst ?_ ?_
    | assumption
    | (intro hx; clear_value x)
    | (intro x; refine Kept.cut (s := s0) (x := x) ?_ ?_)
    | (intro x; refine Kept.cut (s := s0) (x := x.1) ?_ ?_)
    | (intro x; clear_value x)
    | lift_lets -underBinder
    | split
    | refine Kept.of_fst (by assumption) ?_
    | (unfold x; split)
    | (refine Kept.upd ?_; first | assumption | refine asyncPost_kept ?_ | refine toInbox_kept ?_ | refine replyTo_kept ?_ | refine Kept.ite ?_ ?_)

theorem execEvtPost_ends {run : CoreRun} {d : Fin 32} {a : Fin 32} {s0 s : State} (h : Kept s0 s) :
    Ends s0 (execEvtPost run d a s) := by
  unfold execEvtPost
  refine Ends.next ?_
  with_reducible repeat' first
    | exact h
    | refine eccFault_kept ?_
    | refine eccCorrected_kept ?_
    | refine issue_kept (fun x a0 hx => ?_) ?_
    | refine advance_kept ?_
    | refine checked_kept ?_ ?_
    | refine post_kept ?_
    | refine Kept.ite ?_ ?_
    | refine Kept.ite_fst ?_ ?_
    | assumption
    | (intro hx; clear_value x)
    | (intro x; refine Kept.cut (s := s0) (x := x) ?_ ?_)
    | (intro x; refine Kept.cut (s := s0) (x := x.1) ?_ ?_)
    | (intro x; clear_value x)
    | lift_lets -underBinder
    | split
    | refine Kept.of_fst (by assumption) ?_

theorem execEvtRecv_ends {run : CoreRun} {d : Fin 32} {a : Fin 32} {s0 s : State} (h : Kept s0 s) :
    Ends s0 (execEvtRecv run d a s) := by
  unfold execEvtRecv
  refine Ends.next ?_
  with_reducible repeat' first
    | exact h
    | refine issue_kept (fun x a0 hx => ?_) ?_
    | refine advance_kept ?_
    | refine checked_kept ?_ ?_
    | refine modRubric_kept ?_
    | assumption
    | (intro hx; clear_value x)
    | (intro x; refine Kept.cut (s := s0) (x := x) ?_ ?_)
    | (intro x; refine Kept.cut (s := s0) (x := x.1) ?_ ?_)
    | (intro x; clear_value x)
    | lift_lets -underBinder
    | split
    | refine Kept.of_fst (by assumption) ?_
    | (unfold x; split)
    | (refine Kept.upd ?_; first | assumption | refine issue_kept (fun x a0 hx => ?_) ?_ | refine advance_kept ?_ | refine checked_kept ?_ ?_ | refine modRubric_kept ?_)

theorem primitive_kept {r : CoreRun} {len : Nat} {grant : Nat} {reads : List Nat} {d : Fin 32} {g : State → CoreState → State × BitVec 64} {s0 s : State} (h_g : ∀ x a0, Kept s0 x → Kept s0 (g x a0).1) (h : Kept s0 s) :
    Kept s0 (primitive s r len grant reads d g) := by
  unfold primitive
  with_reducible repeat' first
    | exact h
    | refine h_g _ _ ?_
    | refine issue_kept (fun x a0 hx => ?_) ?_
    | refine advance_kept ?_
    | refine grantFault_kept ?_
    | refine Kept.ite ?_ ?_
    | refine Kept.ite_fst ?_ ?_
    | assumption
    | (intro hx; clear_value x)
    | (intro x; refine Kept.cut (s := s0) (x := x) ?_ ?_)
    | (intro x; refine Kept.cut (s := s0) (x := x.1) ?_ ?_)
    | (intro x; clear_value x)
    | lift_lets -underBinder
    | split
    | refine Kept.of_fst (by assumption) ?_

theorem execPlPin_ends {run : CoreRun} {d : Fin 32} {a : Fin 32} {s0 s : State} (h : Kept s0 s) :
    Ends s0 (execPlPin run d a s) := by
  unfold execPlPin
  refine Ends.next ?_
  with_reducible repeat' first
    | exact h
    | refine pinLooked_kept ?_
    | refine primitive_kept (fun x a0 hx => ?_) ?_
    | assumption
    | (intro hx; clear_value x)
    | (intro x; refine Kept.cut (s := s0) (x := x) ?_ ?_)
    | (intro x; refine Kept.cut (s := s0) (x := x.1) ?_ ?_)
    | (intro x; clear_value x)
    | lift_lets -underBinder

theorem execPlUnpin_ends {run : CoreRun} {d : Fin 32} {a : Fin 32} {s0 s : State} (h : Kept s0 s) :
    Ends s0 (execPlUnpin run d a s) := by
  unfold execPlUnpin
  refine Ends.next ?_
  with_reducible repeat' first
    | exact h
    | refine pinLooked_kept ?_
    | refine primitive_kept (fun x a0 hx => ?_) ?_
    | assumption
    | (intro hx; clear_value x)
    | (intro x; refine Kept.cut (s := s0) (x := x) ?_ ?_)
    | (intro x; refine Kept.cut (s := s0) (x := x.1) ?_ ?_)
    | (intro x; clear_value x)
    | lift_lets -underBinder

theorem execPlHeat_ends {run : CoreRun} {d : Fin 32} {a : Fin 32} {s0 s : State} (h : Kept s0 s) :
    Ends s0 (execPlHeat run d a s) := by
  unfold execPlHeat
  refine Ends.next ?_
  with_reducible repeat' first
    | exact h
    | refine readHeat_kept ?_
    | refine primitive_kept (fun x a0 hx => ?_) ?_
    | assumption
    | (intro hx; clear_value x)
    | (intro x; refine Kept.cut (s := s0) (x := x) ?_ ?_)
    | (intro x; refine Kept.cut (s := s0) (x := x.1) ?_ ?_)
    | (intro x; clear_value x)
    | lift_lets -underBinder

theorem execPlMove_ends {run : CoreRun} {d : Fin 32} {a : Fin 32} {b : Fin 32} {cause : Fin 8} {kind : MoveKind} {s0 s : State} (h : Kept s0 s) :
    Ends s0 (execPlMove run d a b cause kind s) := by
  unfold execPlMove
  refine Ends.next ?_
  with_reducible repeat' first
    | exact h
    | refine moveLooked_kept ?_
    | refine moveQuire_kept ?_
    | refine primitive_kept (fun x a0 hx => ?_) ?_
    | assumption
    | (intro hx; clear_value x)
    | (intro x; refine Kept.cut (s := s0) (x := x) ?_ ?_)
    | (intro x; refine Kept.cut (s := s0) (x := x.1) ?_ ?_)
    | (intro x; clear_value x)
    | lift_lets -underBinder
    | split
    | refine Kept.of_fst (by assumption) ?_
    | (unfold x; split)
    | (refine Kept.upd ?_; first | assumption | refine moveLooked_kept ?_ | refine moveQuire_kept ?_ | refine primitive_kept (fun x a0 hx => ?_) ?_)

theorem execPlResolve_ends {run : CoreRun} {d : Fin 32} {c' : Fin 32} {a : Fin 32} {s0 s : State} (h : Kept s0 s) :
    Ends s0 (execPlResolve run d c' a s) := by
  unfold execPlResolve
  refine Ends.next ?_
  with_reducible repeat' first
    | exact h
    | refine State.drew_kept ?_
    | refine resolveLeaf_kept ?_
    | refine issue_kept (fun x a0 hx => ?_) ?_
    | refine advance_kept ?_
    | refine grantFault_kept ?_
    | refine Kept.ite ?_ ?_
    | refine Kept.ite_fst ?_ ?_
    | assumption
    | (intro hx; clear_value x)
    | (intro x; refine Kept.cut (s := s0) (x := x) ?_ ?_)
    | (intro x; refine Kept.cut (s := s0) (x := x.1) ?_ ?_)
    | (intro x; clear_value x)
    | lift_lets -underBinder
    | split
    | refine Kept.of_fst (by assumption) ?_

theorem execAcctSvc_ends {run : CoreRun} {d : Fin 32} {a : Fin 32} {s0 s : State} (h : Kept s0 s) :
    Ends s0 (execAcctSvc run d a s) := by
  unfold execAcctSvc
  refine Ends.next ?_
  with_reducible repeat' first
    | exact h
    | refine issue_kept (fun x a0 hx => ?_) ?_
    | refine advance_kept ?_
    | assumption
    | (intro hx; clear_value x)
    | (intro x; refine Kept.cut (s := s0) (x := x) ?_ ?_)
    | (intro x; refine Kept.cut (s := s0) (x := x.1) ?_ ?_)
    | (intro x; clear_value x)
    | lift_lets -underBinder

theorem admitDone_kept {k : Nat} {d : Fin 32} {st : Nat} {s0 s : State} (h : Kept s0 s) :
    Kept s0 (admitDone s k d st) := by
  unfold admitDone
  with_reducible repeat' first
    | exact h
    | refine advance_kept ?_
    | assumption
    | (intro hx; clear_value x)
    | (intro x; refine Kept.cut (s := s0) (x := x) ?_ ?_)
    | (intro x; refine Kept.cut (s := s0) (x := x.1) ?_ ?_)
    | (intro x; clear_value x)
    | lift_lets -underBinder

theorem execAcctAdmit_ends {run : CoreRun} {d : Fin 32} {a : Fin 32} {b : Fin 32} {cool : Bool} {s0 s : State} (h : Kept s0 s) :
    Ends s0 (execAcctAdmit run d a b cool s) := by
  unfold execAcctAdmit
  refine Ends.next ?_
  with_reducible repeat' first
    | exact h
    | refine admitStatus_kept ?_
    | refine admitAccount_kept ?_
    | refine eccFault_kept ?_
    | refine eccCorrected_kept ?_
    | refine issue_kept (fun x a0 hx => ?_) ?_
    | refine checked_kept ?_ ?_
    | refine grantFault_kept ?_
    | refine admitDone_kept ?_
    | refine Kept.ite ?_ ?_
    | refine Kept.ite_fst ?_ ?_
    | assumption
    | (intro hx; clear_value x)
    | (intro x; refine Kept.cut (s := s0) (x := x) ?_ ?_)
    | (intro x; refine Kept.cut (s := s0) (x := x.1) ?_ ?_)
    | (intro x; clear_value x)
    | lift_lets -underBinder
    | split
    | refine Kept.of_fst (by assumption) ?_

theorem execAcctAdjust_ends {run : CoreRun} {d : Fin 32} {a : Fin 32} {b : Fin 32} {sel : Fin 4} {s0 s : State} (h : Kept s0 s) :
    Ends s0 (execAcctAdjust run d a b sel s) := by
  unfold execAcctAdjust
  refine Ends.next ?_
  with_reducible repeat' first
    | exact h
    | refine adjust_kept ?_
    | refine primitive_kept (fun x a0 hx => ?_) ?_
    | refine Kept.ite ?_ ?_
    | refine Kept.ite_fst ?_ ?_
    | assumption
    | (intro hx; clear_value x)
    | (intro x; refine Kept.cut (s := s0) (x := x) ?_ ?_)
    | (intro x; refine Kept.cut (s := s0) (x := x.1) ?_ ?_)
    | (intro x; clear_value x)
    | lift_lets -underBinder
    | split
    | refine Kept.of_fst (by assumption) ?_
    | (unfold x; split)

theorem cohCheck_kept {k : Nat} {ea : Nat} {n : Nat} {s0 s : State} (h : Kept s0 s) :
    Kept s0 (cohCheck s k ea n).1 := by
  unfold cohCheck
  with_reducible repeat' first
    | exact h
    | refine coreClassify_kept ?_
    | refine Kept.ite ?_ ?_
    | refine Kept.ite_fst ?_ ?_
    | assumption
    | (intro hx; clear_value x)
    | (intro x; refine Kept.cut (s := s0) (x := x) ?_ ?_)
    | (intro x; refine Kept.cut (s := s0) (x := x.1) ?_ ?_)
    | (intro x; clear_value x)
    | lift_lets -underBinder
    | split
    | refine Kept.of_fst (by assumption) ?_
    | (unfold x; split)

theorem cohSnoop_kept {k : Nat} {d : Nat} {line : Nat} {n : Nat} {inv : Bool} {s0 s : State} (h : Kept s0 s) :
    Kept s0 (cohSnoop s k d line n inv) := by
  unfold cohSnoop
  with_reducible repeat' first
    | exact h
    | refine modCore_kept ?_
    | refine setReg_kept ?_
    | refine sendSnoops_kept ?_
    | refine addSnoop_kept ?_
    | refine clearHolders_kept ?_
    | refine Kept.ite ?_ ?_
    | refine Kept.ite_fst ?_ ?_
    | refine foldl_kept ?_ fun x a hx => ?_
    | refine foldl_kept_fst ?_ fun x a hx => ?_
    | assumption
    | (intro hx; clear_value x)
    | (intro x; refine Kept.cut (s := s0) (x := x) ?_ ?_)
    | (intro x; refine Kept.cut (s := s0) (x := x.1) ?_ ?_)
    | (intro x; clear_value x)
    | lift_lets -underBinder
    | split
    | refine Kept.of_fst (by assumption) ?_
    | (refine Kept.upd ?_; first | assumption | refine modCore_kept ?_ | refine setReg_kept ?_ | refine sendSnoops_kept ?_ | refine addSnoop_kept ?_ | refine clearHolders_kept ?_ | refine Kept.ite ?_ ?_)

theorem coherence_kept {r : CoreRun} {len : Nat} {d : Fin 32} {ea : BitVec 64} {n : Nat} {inv : Bool} {s0 s : State} (h : Kept s0 s) :
    Kept s0 (coherence s r len d ea n inv) := by
  unfold coherence
  with_reducible repeat' first
    | exact h
    | refine advance_kept ?_
    | refine checked_kept ?_ ?_
    | refine cohCheck_kept ?_
    | refine cohSnoop_kept ?_
    | refine Kept.ite ?_ ?_
    | refine Kept.ite_fst ?_ ?_
    | assumption
    | (intro hx; clear_value x)
    | (intro x; refine Kept.cut (s := s0) (x := x) ?_ ?_)
    | (intro x; refine Kept.cut (s := s0) (x := x.1) ?_ ?_)
    | (intro x; clear_value x)
    | lift_lets -underBinder
    | split
    | refine Kept.of_fst (by assumption) ?_

theorem execCohInv_ends {run : CoreRun} {d : Fin 32} {a : Fin 32} {s0 s : State} (h : Kept s0 s) :
    Ends s0 (execCohInv run d a s) := by
  unfold execCohInv
  refine Ends.next ?_
  with_reducible repeat' first
    | exact h
    | refine issue_kept (fun x a0 hx => ?_) ?_
    | refine coherence_kept ?_
    | assumption

theorem execCohData_ends {run : CoreRun} {d : Fin 32} {a : Fin 32} {s0 s : State} (h : Kept s0 s) :
    Ends s0 (execCohData run d a s) := by
  unfold execCohData
  refine Ends.next ?_
  with_reducible repeat' first
    | exact h
    | refine issue_kept (fun x a0 hx => ?_) ?_
    | refine coherence_kept ?_
    | assumption

theorem execCohInvr_ends {run : CoreRun} {d : Fin 32} {a : Fin 32} {b : Fin 32} {s0 s : State} (h : Kept s0 s) :
    Ends s0 (execCohInvr run d a b s) := by
  unfold execCohInvr
  refine Ends.next ?_
  with_reducible repeat' first
    | exact h
    | refine fault_kept ?_
    | refine issue_kept (fun x a0 hx => ?_) ?_
    | refine coherence_kept ?_
    | refine Kept.ite ?_ ?_
    | assumption
    | (intro hx; clear_value x)
    | (intro x; refine Kept.cut (s := s0) (x := x) ?_ ?_)
    | (intro x; refine Kept.cut (s := s0) (x := x.1) ?_ ?_)
    | (intro x; clear_value x)
    | lift_lets -underBinder
    | split

theorem execCohQry_ends {run : CoreRun} {d : Fin 32} {a : Fin 32} {s0 s : State} (h : Kept s0 s) :
    Ends s0 (execCohQry run d a s) := by
  unfold execCohQry
  refine Ends.next ?_
  with_reducible repeat' first
    | exact h
    | refine issue_kept (fun x a0 hx => ?_) ?_
    | refine advance_kept ?_
    | refine checked_kept ?_ ?_
    | refine cohCheck_kept ?_
    | refine Kept.ite ?_ ?_
    | refine Kept.ite_fst ?_ ?_
    | refine foldl_kept ?_ fun x a hx => ?_
    | refine foldl_kept_fst ?_ fun x a hx => ?_
    | assumption
    | (intro hx; clear_value x)
    | (intro x; refine Kept.cut (s := s0) (x := x) ?_ ?_)
    | (intro x; refine Kept.cut (s := s0) (x := x.1) ?_ ?_)
    | (intro x; clear_value x)
    | lift_lets -underBinder
    | split
    | refine Kept.of_fst (by assumption) ?_
    | (unfold x; split)
    | (refine Kept.upd ?_; first | assumption | refine issue_kept (fun x a0 hx => ?_) ?_ | refine advance_kept ?_ | refine checked_kept ?_ ?_ | refine cohCheck_kept ?_ | refine Kept.ite ?_ ?_)

end Sys2Proof.Machine
end

