-- ==== Sys2Proof/Laws/KeptDesk.lean ====
section
/-! SUPPORT. What every step keeps, through the functions of Desk. -/

set_option linter.all false
set_option maxRecDepth 8000

namespace Sys2Proof.Machine

theorem regWrite_kept {r : Reg} {i : Nat} {j : Nat} {a : Nat} {w : BitVec 64} {s0 s : State} (h : Kept s0 s) :
    Kept s0 (regWrite s r i j a w) := by
  unfold regWrite
  with_reducible repeat' first
    | exact h
    | refine State.setWord_kept ?_
    | refine notice_kept ?_
    | refine Kept.ite ?_ ?_
    | refine foldl_kept ?_ fun x a hx => ?_
    | refine foldl_kept_fst ?_ fun x a hx => ?_
    | assumption
    | (intro hx; clear_value x)
    | (intro x; refine Kept.cut (s := s0) (x := x) ?_ ?_)
    | (intro x; refine Kept.cut (s := s0) (x := x.1) ?_ ?_)
    | (intro x; clear_value x)
    | lift_lets -underBinder
    | split
    | refine Kept.of_fst (by assumption) ?_

theorem deskWrite_kept {writer : Option (Fin 8)} {a : Nat} {w : BitVec 64} {pump : Bool} {s0 s : State} (h : Kept s0 s) :
    Kept s0 (deskWrite s writer a w pump) := by
  unfold deskWrite
  with_reducible repeat' first
    | exact h
    | refine State.put_kept ?_
    | refine driveAlert_kept ?_
    | refine notice_kept ?_
    | refine writeSeverity_kept ?_
    | refine injectEvent_kept ?_
    | refine clearLatch_kept ?_
    | refine clearAlert_kept ?_
    | refine pump_kept ?_
    | refine requestCal_kept ?_
    | refine writeSched_kept ?_
    | refine poolWritten_kept ?_
    | refine writeSpread_kept ?_
    | refine writeProgCmd_kept ?_
    | refine writeFusRead_kept ?_
    | refine writeLockSet_kept ?_
    | refine writeRulSource_kept ?_
    | refine clearRulCounts_kept ?_
    | refine writeEventCtrl_kept ?_
    | refine writeEventTime_kept ?_
    | refine writeEventAddr_kept ?_
    | refine writeMargin_kept ?_
    | refine writeLanCtrl_kept ?_
    | refine writeQuad_kept ?_
    | refine writePair_kept ?_
    | refine writeDoze_kept ?_
    | refine writePortCtrl_kept ?_
    | refine writeLd_kept ?_
    | refine writeRegion_kept ?_
    | refine writeExtentCmd_kept ?_
    | refine writeResealCmd_kept ?_
    | refine boxPut_kept ?_
    | refine writeMbxComplete_kept ?_
    | refine writeNibCore_kept ?_
    | refine writePairCfg_kept ?_
    | refine writePairBase_kept ?_
    | refine writeOsc_kept ?_
    | refine writeDomain_kept ?_
    | refine writeGate_kept ?_
    | refine writeClkOut_kept ?_
    | refine writeNibPll_kept ?_
    | refine writePeak_kept ?_
    | refine writeLimits_kept ?_
    | refine showClass_kept ?_
    | refine writeVote_kept ?_
    | refine writeRequest_kept ?_
    | refine writeColCtrl_kept ?_
    | refine setCalendar_kept ?_
    | refine regWrite_kept ?_
    | refine Kept.ite ?_ ?_
    | assumption
    | (intro hx; clear_value x)
    | (intro x; refine Kept.cut (s := s0) (x := x) ?_ ?_)
    | (intro x; refine Kept.cut (s := s0) (x := x.1) ?_ ?_)
    | (intro x; clear_value x)
    | lift_lets -underBinder
    | split
    | refine Kept.of_fst (by assumption) ?_
    | (unfold x; split)
    | (refine Kept.upd ?_; first | assumption | refine State.put_kept ?_ | refine driveAlert_kept ?_ | refine notice_kept ?_ | refine writeSeverity_kept ?_ | refine injectEvent_kept ?_ | refine clearLatch_kept ?_ | refine clearAlert_kept ?_ | refine pump_kept ?_ | refine requestCal_kept ?_ | refine writeSched_kept ?_ | refine poolWritten_kept ?_ | refine writeSpread_kept ?_ | refine writeProgCmd_kept ?_ | refine writeFusRead_kept ?_ | refine writeLockSet_kept ?_ | refine writeRulSource_kept ?_ | refine clearRulCounts_kept ?_ | refine writeEventCtrl_kept ?_ | refine writeEventTime_kept ?_ | refine writeEventAddr_kept ?_ | refine writeMargin_kept ?_ | refine writeLanCtrl_kept ?_ | refine writeQuad_kept ?_ | refine writePair_kept ?_ | refine writeDoze_kept ?_ | refine writePortCtrl_kept ?_ | refine writeLd_kept ?_ | refine writeRegion_kept ?_ | refine writeExtentCmd_kept ?_ | refine writeResealCmd_kept ?_ | refine boxPut_kept ?_ | refine writeMbxComplete_kept ?_ | refine writeNibCore_kept ?_ | refine writePairCfg_kept ?_ | refine writePairBase_kept ?_ | refine writeOsc_kept ?_ | refine writeDomain_kept ?_ | refine writeGate_kept ?_ | refine writeClkOut_kept ?_ | refine writeNibPll_kept ?_ | refine writePeak_kept ?_ | refine writeLimits_kept ?_ | refine showClass_kept ?_ | refine writeVote_kept ?_ | refine writeRequest_kept ?_ | refine writeColCtrl_kept ?_ | refine setCalendar_kept ?_ | refine regWrite_kept ?_ | refine Kept.ite ?_ ?_)

theorem deskRead_kept {a : Nat} {s0 s : State} (h : Kept s0 s) :
    Kept s0 (deskRead s a).1 := by
  unfold deskRead
  with_reducible repeat' first
    | exact h
    | refine State.put_kept ?_
    | refine State.timed_kept ?_
    | refine event_kept ?_
    | refine readPool_kept ?_
    | refine readSensor_kept ?_
    | refine Kept.ite ?_ ?_
    | refine Kept.ite_fst ?_ ?_
    | assumption
    | (intro hx; clear_value x)
    | (intro x; refine Kept.cut (s := s0) (x := x) ?_ ?_)
    | (intro x; refine Kept.cut (s := s0) (x := x.1) ?_ ?_)
    | (intro x; clear_value x)
    | lift_lets -underBinder
    | split
    | refine Kept.of_fst (by assumption) ?_
    | (unfold x; split)

theorem slotActs_kept {slot : Nat} {pump : Bool} {s0 s : State} (h : Kept s0 s) :
    Kept s0 (slotActs s slot pump) := by
  unfold slotActs
  with_reducible repeat' first
    | exact h
    | refine pump_kept ?_
    | refine fireSlot_kept ?_
    | refine deskWrite_kept ?_
    | refine Kept.ite ?_ ?_
    | assumption
    | (intro hx; clear_value x)
    | (intro x; refine Kept.cut (s := s0) (x := x) ?_ ?_)
    | (intro x; refine Kept.cut (s := s0) (x := x.1) ?_ ?_)
    | (intro x; clear_value x)
    | lift_lets -underBinder
    | split

theorem settleSlots_kept {pump : Bool} {s0 s : State} (h : Kept s0 s) :
    Kept s0 (settleSlots s pump) := by
  unfold settleSlots
  with_reducible repeat' first
    | exact h
    | refine State.each_kept ?_ (fun x a hx => ?_)
    | refine pump_kept ?_
    | refine slotActs_kept ?_
    | refine Kept.ite ?_ ?_
    | assumption
    | split

theorem deskLoad_kept {r : CoreRun} {len : Nat} {d : Fin 32} {a : Fin 32} {offset : BitVec 64} {s0 s : State} (h : Kept s0 s) :
    Kept s0 (deskLoad s r len d a offset) := by
  unfold deskLoad
  with_reducible repeat' first
    | exact h
    | refine issue_kept (fun x a0 hx => ?_) ?_
    | refine advance_kept ?_
    | refine checked_kept ?_ ?_
    | refine grantFault_kept ?_
    | refine deskRead_kept ?_
    | refine Kept.ite ?_ ?_
    | refine Kept.ite_fst ?_ ?_
    | assumption
    | (intro hx; clear_value x)
    | (intro x; refine Kept.cut (s := s0) (x := x) ?_ ?_)
    | (intro x; refine Kept.cut (s := s0) (x := x.1) ?_ ?_)
    | (intro x; clear_value x)
    | lift_lets -underBinder
    | split
    | refine Kept.of_fst (by assumption) ?_

theorem deskStore_kept {r : CoreRun} {len : Nat} {d : Fin 32} {a : Fin 32} {offset : BitVec 64} {pump : Bool} {s0 s : State} (h : Kept s0 s) :
    Kept s0 (deskStore s r len d a offset pump) := by
  unfold deskStore
  with_reducible repeat' first
    | exact h
    | refine pump_kept ?_
    | refine issue_kept (fun x a0 hx => ?_) ?_
    | refine advance_kept ?_
    | refine checked_kept ?_ ?_
    | refine grantFault_kept ?_
    | refine deskWrite_kept ?_
    | refine settleSlots_kept ?_
    | refine Kept.ite ?_ ?_
    | assumption
    | (intro hx; clear_value x)
    | (intro x; refine Kept.cut (s := s0) (x := x) ?_ ?_)
    | (intro x; refine Kept.cut (s := s0) (x := x.1) ?_ ?_)
    | (intro x; clear_value x)
    | lift_lets -underBinder
    | split

theorem execDrd_ends {run : CoreRun} {d : Fin 32} {a : Fin 32} {o : Fin 16} {s0 s : State} (h : Kept s0 s) :
    Ends s0 (execDrd run d a o s) := by
  unfold execDrd
  refine Ends.next ?_
  with_reducible repeat' first
    | exact h
    | refine deskLoad_kept ?_

theorem execDwr_ends {run : CoreRun} {d : Fin 32} {a : Fin 32} {o : Fin 16} {pump : Bool} {s0 s : State} (h : Kept s0 s) :
    Ends s0 (execDwr run d a o pump s) := by
  unfold execDwr
  refine Ends.next ?_
  with_reducible repeat' first
    | exact h
    | refine pump_kept ?_
    | refine deskStore_kept ?_

theorem execDrdL_ends {run : CoreRun} {d : Fin 32} {a : Fin 32} {offset : BitVec 19} {s0 s : State} (h : Kept s0 s) :
    Ends s0 (execDrdL run d a offset s) := by
  unfold execDrdL
  refine Ends.next ?_
  with_reducible repeat' first
    | exact h
    | refine deskLoad_kept ?_
    | (refine Kept.upd ?_; first | assumption | refine deskLoad_kept ?_)

theorem execDwrL_ends {run : CoreRun} {d : Fin 32} {a : Fin 32} {offset : BitVec 19} {pump : Bool} {s0 s : State} (h : Kept s0 s) :
    Ends s0 (execDwrL run d a offset pump s) := by
  unfold execDwrL
  refine Ends.next ?_
  with_reducible repeat' first
    | exact h
    | refine pump_kept ?_
    | refine deskStore_kept ?_
    | (refine Kept.upd ?_; first | assumption | refine pump_kept ?_ | refine deskStore_kept ?_)

theorem execRulEventFire_ends {slot : Fin 64} {pump : Bool} {s0 s : State} (h : Kept s0 s) :
    Ends s0 (execRulEventFire slot pump s) := by
  unfold execRulEventFire
  refine Ends.next ?_
  with_reducible repeat' first
    | exact h
    | refine pump_kept ?_
    | refine slotActs_kept ?_
    | refine Kept.ite ?_ ?_
    | split

theorem execJtagDeskAccess_ends {addr : BitVec 24} {write : Option (BitVec 64)} {pump : Bool} {s0 s : State} (h : Kept s0 s) :
    Ends s0 (execJtagDeskAccess addr write pump s) := by
  unfold execJtagDeskAccess
  refine Ends.next ?_
  with_reducible repeat' first
    | exact h
    | refine State.send_kept ?_
    | refine deskRefused_kept ?_
    | refine pump_kept ?_
    | refine deskWrite_kept ?_
    | refine deskRead_kept ?_
    | refine Kept.ite ?_ ?_
    | refine Kept.ite_fst ?_ ?_
    | assumption
    | (intro hx; clear_value x)
    | (intro x; refine Kept.cut (s := s0) (x := x) ?_ ?_)
    | (intro x; refine Kept.cut (s := s0) (x := x.1) ?_ ?_)
    | (intro x; clear_value x)
    | lift_lets -underBinder
    | split
    | refine Kept.of_fst (by assumption) ?_
    | (unfold x; split)

theorem execRegisterWrite_ends {scribe : Fin 8} {addr : BitVec 24} {value : BitVec 64} {pump : Bool} {s0 s : State} (h : Kept s0 s) :
    Ends s0 (execRegisterWrite scribe addr value pump s) := by
  unfold execRegisterWrite
  refine Ends.next ?_
  with_reducible repeat' first
    | exact h
    | refine pump_kept ?_
    | refine deskWrite_kept ?_
    | refine settleSlots_kept ?_
    | refine Kept.ite ?_ ?_
    | split

end Sys2Proof.Machine
end

