-- ==== Sys2Proof/Laws/KeptBoot.lean ====
section
/-! SUPPORT. What every step keeps, through the functions of Boot. -/

set_option linter.all false
set_option maxRecDepth 8000

namespace Sys2Proof.Machine

theorem setBoot_kept {b : Boot} {s0 s : State} (h : Kept s0 s) :
    Kept s0 (setBoot s b) := by
  unfold setBoot
  with_reducible repeat' first
    | exact h
    | (refine Kept.upd ?_; first | assumption)

theorem captureStraps_kept {b : BootInput} {s0 s : State} (h : Kept s0 s) :
    Kept s0 (captureStraps s b) := by
  unfold captureStraps
  with_reducible repeat' first
    | exact h
    | refine event_kept ?_
    | refine setBoot_kept ?_
    | refine Kept.ite ?_ ?_
    | assumption
    | (intro hx; clear_value x)
    | (intro x; refine Kept.cut (s := s0) (x := x) ?_ ?_)
    | (intro x; refine Kept.cut (s := s0) (x := x.1) ?_ ?_)
    | (intro x; clear_value x)
    | lift_lets -underBinder
    | split
    | (refine Kept.upd ?_; first | assumption | refine event_kept ?_ | refine setBoot_kept ?_ | refine Kept.ite ?_ ?_)

theorem overrideStrap_kept {g : Nat} {s0 s : State} (h : Kept s0 s) :
    Kept s0 (overrideStrap s g) := by
  unfold overrideStrap
  with_reducible repeat' first
    | exact h
    | refine event_kept ?_
    | refine setBoot_kept ?_
    | refine Kept.ite ?_ ?_
    | assumption
    | (intro hx; clear_value x)
    | (intro x; refine Kept.cut (s := s0) (x := x) ?_ ?_)
    | (intro x; refine Kept.cut (s := s0) (x := x.1) ?_ ?_)
    | (intro x; clear_value x)
    | lift_lets -underBinder
    | split
    | refine Kept.of_fst (by assumption) ?_
    | (refine Kept.upd ?_; first | assumption | refine event_kept ?_ | refine setBoot_kept ?_ | refine Kept.ite ?_ ?_)

theorem applyStraps_kept {s0 s : State} (h : Kept s0 s) :
    Kept s0 (applyStraps s) := by
  unfold applyStraps
  with_reducible repeat' first
    | exact h
    | refine State.put_kept ?_
    | refine State.each_kept ?_ (fun x a hx => ?_)
    | refine runPair_kept ?_
    | refine showClass_kept ?_
    | assumption
    | (intro hx; clear_value x)
    | (intro x; refine Kept.cut (s := s0) (x := x) ?_ ?_)
    | (intro x; refine Kept.cut (s := s0) (x := x.1) ?_ ?_)
    | (intro x; clear_value x)
    | lift_lets -underBinder
    | split
    | (refine Kept.upd ?_; first | assumption | refine State.put_kept ?_ | refine State.each_kept ?_ (fun x a hx => ?_) | refine runPair_kept ?_ | refine showClass_kept ?_)

theorem loadShadow_kept {b : BootInput} {w : Nat} {s0 : State} {x : State × List (Nat × Nat × Nat)} (h : Kept s0 x.1) :
    Kept s0 (loadShadow b x w).1 := by
  obtain ⟨s, l⟩ := x
  replace h : Kept s0 s := h
  simp only [loadShadow]
  split
  · exact State.setWord_kept h
  · have k (c : Bool) : Kept s0 (if (bootReading s b w).corrected then fuseEvent (setShadow s w c (bootReading s b w)) 0 w
        else setShadow s w c (bootReading s b w)) := Kept.ite (fuseEvent_kept (setShadow_kept h)) (setShadow_kept h)
    exact Kept.ite_fst (k _) (toColophon_kept (fuseEvent_kept (k _)))

theorem loadShadows_kept {b : BootInput} {s0 s : State} (h : Kept s0 s) :
    Kept s0 (loadShadows s b) := by
  unfold loadShadows
  with_reducible repeat' first
    | exact h
    | refine event_kept ?_
    | refine setCol_kept ?_
    | refine loadShadow_kept ?_
    | refine Kept.ite ?_ ?_
    | refine Kept.ite_fst ?_ ?_
    | refine foldl_kept ?_ fun x a hx => ?_
    | refine foldl_kept_fst ?_ fun x a hx => ?_
    | assumption
    | (intro hx; clear_value x)
    | (intro x; refine Kept.cut (s := s0) (x := x) ?_ ?_)
    | (intro x; refine Kept.cut (s := s0) (x := x.1) ?_ ?_)
    | (intro x; clear_value x)
    | lift_lets -underBinder
    | split
    | refine Kept.of_fst (by assumption) ?_
    | (unfold x; split)
    | (refine Kept.upd ?_; first | assumption | refine event_kept ?_ | refine setCol_kept ?_ | refine loadShadow_kept ?_ | refine Kept.ite ?_ ?_)

theorem fuseState_kept {listed : Bool} {s0 s : State} (h : Kept s0 s) :
    Kept s0 (fuseState s listed) := by
  unfold fuseState
  with_reducible repeat' first
    | exact h
    | refine State.put_kept ?_
    | refine State.putB_kept ?_
    | refine State.each_kept ?_ (fun x a hx => ?_)
    | refine showRegion_kept ?_
    | refine showCounts_kept ?_
    | refine fuseEvent_kept ?_
    | refine Kept.ite ?_ ?_
    | assumption
    | (intro hx; clear_value x)
    | (intro x; refine Kept.cut (s := s0) (x := x) ?_ ?_)
    | (intro x; refine Kept.cut (s := s0) (x := x.1) ?_ ?_)
    | (intro x; clear_value x)
    | lift_lets -underBinder
    | split

theorem applyRepairs_kept {s0 s : State} (h : Kept s0 s) :
    Kept s0 (applyRepairs s) := by
  unfold applyRepairs
  with_reducible repeat' first
    | exact h
    | refine State.setWord_kept ?_
    | refine State.each_kept ?_ (fun x a hx => ?_)
    | refine modChan_kept ?_
    | refine Kept.ite ?_ ?_
    | assumption
    | (intro hx; clear_value x)
    | (intro x; refine Kept.cut (s := s0) (x := x) ?_ ?_)
    | (intro x; refine Kept.cut (s := s0) (x := x.1) ?_ ?_)
    | (intro x; clear_value x)
    | lift_lets -underBinder
    | split
    | refine Kept.of_fst (by assumption) ?_
    | (refine Kept.upd ?_; first | assumption | refine State.setWord_kept ?_ | refine State.each_kept ?_ (fun x a hx => ?_) | refine modChan_kept ?_ | refine Kept.ite ?_ ?_ | (refine Kept.upd ?_; first | assumption | refine State.setWord_kept ?_ | refine State.each_kept ?_ (fun x a hx => ?_) | refine modChan_kept ?_))

theorem replayColophon_kept {b : BootInput} {s0 s : State} (h : Kept s0 s) :
    Kept s0 (replayColophon s b) := by
  unfold replayColophon
  with_reducible repeat' first
    | exact h
    | refine State.put_kept ?_
    | refine event_kept ?_
    | refine setCol_kept ?_
    | refine showColophon_kept ?_
    | refine writeCheckpoint_kept ?_
    | refine Kept.ite ?_ ?_
    | refine foldl_kept ?_ fun x a hx => ?_
    | refine foldl_kept_fst ?_ fun x a hx => ?_
    | assumption
    | (intro hx; clear_value x)
    | (intro x; refine Kept.cut (s := s0) (x := x) ?_ ?_)
    | (intro x; refine Kept.cut (s := s0) (x := x.1) ?_ ?_)
    | (intro x; clear_value x)
    | lift_lets -underBinder
    | split
    | refine Kept.of_fst (by assumption) ?_
    | (unfold x; split)
    | (refine Kept.upd ?_; first | assumption | refine State.put_kept ?_ | refine event_kept ?_ | refine setCol_kept ?_ | refine showColophon_kept ?_ | refine writeCheckpoint_kept ?_ | refine Kept.ite ?_ ?_)

theorem dropSet_kept {u : Nat} {p : Nat} {s0 s : State} (h : Kept s0 s) :
    Kept s0 (dropSet s u p) := by
  unfold dropSet
  with_reducible repeat' first
    | exact h
    | refine event_kept ?_
    | refine setCal_kept ?_
    | refine Kept.ite ?_ ?_
    | assumption
    | (intro hx; clear_value x)
    | (intro x; refine Kept.cut (s := s0) (x := x) ?_ ?_)
    | (intro x; refine Kept.cut (s := s0) (x := x.1) ?_ ?_)
    | (intro x; clear_value x)
    | lift_lets -underBinder
    | split
    | (refine Kept.upd ?_; first | assumption | refine event_kept ?_ | refine setCal_kept ?_ | refine Kept.ite ?_ ?_)

theorem drawKeys_kept {s0 s : State} (h : Kept s0 s) :
    Kept s0 (drawKeys s) := by
  unfold drawKeys
  with_reducible repeat' first
    | exact h
    | refine State.setWord_kept ?_
    | assumption
    | (intro hx; clear_value x)
    | (intro x; refine Kept.cut (s := s0) (x := x) ?_ ?_)
    | (intro x; refine Kept.cut (s := s0) (x := x.1) ?_ ?_)
    | (intro x; clear_value x)
    | lift_lets -underBinder
    | (refine Kept.upd ?_; first | assumption | refine State.setWord_kept ?_)
    | (refine Kept.draw ?_; assumption)

theorem release_kept {b : BootInput} {s0 s : State} (h : Kept s0 s) :
    Kept s0 (release s b) := by
  unfold release
  with_reducible repeat' first
    | exact h
    | refine State.put_kept ?_
    | refine State.putB_kept ?_
    | refine State.drew_kept ?_
    | refine State.each_kept ?_ (fun x a hx => ?_)
    | refine event_kept ?_
    | refine pumpDomains_kept ?_
    | refine mainDiesLost_kept ?_
    | refine standbyPins_kept ?_
    | refine holdHeader_kept ?_
    | refine bootClock_kept ?_
    | refine setPower_kept ?_
    | refine setBoot_kept ?_
    | refine captureStraps_kept ?_
    | refine overrideStrap_kept ?_
    | refine applyStraps_kept ?_
    | refine loadShadows_kept ?_
    | refine fuseState_kept ?_
    | refine applyRepairs_kept ?_
    | refine replayColophon_kept ?_
    | refine dropSet_kept ?_
    | refine drawKeys_kept ?_
    | refine Kept.ite ?_ ?_
    | assumption
    | (intro hx; clear_value x)
    | (intro x; refine Kept.cut (s := s0) (x := x) ?_ ?_)
    | (intro x; refine Kept.cut (s := s0) (x := x.1) ?_ ?_)
    | (intro x; clear_value x)
    | lift_lets -underBinder
    | split
    | refine Kept.of_fst (by assumption) ?_
    | (refine Kept.upd ?_; first | assumption | refine State.put_kept ?_ | refine State.putB_kept ?_ | refine State.drew_kept ?_ | refine State.each_kept ?_ (fun x a hx => ?_) | refine event_kept ?_ | refine pumpDomains_kept ?_ | refine mainDiesLost_kept ?_ | refine standbyPins_kept ?_ | refine holdHeader_kept ?_ | refine bootClock_kept ?_ | refine setPower_kept ?_ | refine setBoot_kept ?_ | refine captureStraps_kept ?_ | refine overrideStrap_kept ?_ | refine applyStraps_kept ?_ | refine loadShadows_kept ?_ | refine fuseState_kept ?_ | refine applyRepairs_kept ?_ | refine replayColophon_kept ?_ | refine dropSet_kept ?_ | refine drawKeys_kept ?_ | refine Kept.ite ?_ ?_ | (refine Kept.upd ?_; first | assumption | refine State.put_kept ?_ | refine State.putB_kept ?_ | refine State.drew_kept ?_ | refine State.each_kept ?_ (fun x a hx => ?_) | refine event_kept ?_ | refine pumpDomains_kept ?_ | refine mainDiesLost_kept ?_ | refine standbyPins_kept ?_ | refine holdHeader_kept ?_ | refine bootClock_kept ?_ | refine setPower_kept ?_ | refine setBoot_kept ?_ | refine captureStraps_kept ?_ | refine overrideStrap_kept ?_ | refine applyStraps_kept ?_ | refine loadShadows_kept ?_ | refine fuseState_kept ?_ | refine applyRepairs_kept ?_ | refine replayColophon_kept ?_ | refine dropSet_kept ?_ | refine drawKeys_kept ?_))

theorem execResetRelease_ends {boot : BootInput} {s0 s : State} (h : Kept s0 s) :
    Ends s0 (execResetRelease boot s) := by
  unfold execResetRelease
  refine Ends.next ?_
  with_reducible repeat' first
    | exact h
    | refine release_kept ?_
    | refine Kept.ite ?_ ?_
    | split

theorem noSlotLeft_kept {s0 s : State} (h : Kept s0 s) :
    Kept s0 (noSlotLeft s) := by
  unfold noSlotLeft
  with_reducible repeat' first
    | exact h
    | refine event_kept ?_
    | refine setBoot_kept ?_
    | refine Kept.ite ?_ ?_
    | assumption
    | (intro hx; clear_value x)
    | (intro x; refine Kept.cut (s := s0) (x := x) ?_ ?_)
    | (intro x; refine Kept.cut (s := s0) (x := x.1) ?_ ?_)
    | (intro x; clear_value x)
    | lift_lets -underBinder
    | split
    | (refine Kept.upd ?_; first | assumption | refine event_kept ?_ | refine setBoot_kept ?_ | refine Kept.ite ?_ ?_)

theorem nextSlot_kept {s0 s : State} (h : Kept s0 s) :
    Kept s0 (nextSlot s) := by
  unfold nextSlot
  with_reducible repeat' first
    | exact h
    | refine setBoot_kept ?_
    | refine noSlotLeft_kept ?_
    | split
    | refine Kept.of_fst (by assumption) ?_
    | (refine Kept.upd ?_; first | assumption | refine setBoot_kept ?_ | refine noSlotLeft_kept ?_)

theorem applyProfile_kept {p : List (BitVec 8)} {s0 s : State} (h : Kept s0 s) :
    Kept s0 (applyProfile s p) := by
  unfold applyProfile
  with_reducible repeat' first
    | exact h
    | refine State.each_kept ?_ (fun x a hx => ?_)
    | refine deskWrite_kept ?_
    | refine Kept.ite ?_ ?_
    | assumption
    | (intro hx; clear_value x)
    | (intro x; refine Kept.cut (s := s0) (x := x) ?_ ?_)
    | (intro x; refine Kept.cut (s := s0) (x := x.1) ?_ ?_)
    | (intro x; clear_value x)
    | lift_lets -underBinder
    | split

theorem runSlot_kept {l : List (BitVec 8)} {slot : Nat} {s0 s : State} (h : Kept s0 s) :
    Kept s0 (runSlot s l slot) := by
  unfold runSlot
  with_reducible repeat' first
    | exact h
    | refine State.put_kept ?_
    | refine State.each_kept ?_ (fun x a hx => ?_)
    | refine syncLoader_kept ?_
    | refine showRest_kept ?_
    | refine setBoot_kept ?_
    | refine applyProfile_kept ?_
    | refine Kept.ite ?_ ?_
    | refine foldl_kept ?_ fun x a hx => ?_
    | refine foldl_kept_fst ?_ fun x a hx => ?_
    | assumption
    | (intro hx; clear_value x)
    | (intro x; refine Kept.cut (s := s0) (x := x) ?_ ?_)
    | (intro x; refine Kept.cut (s := s0) (x := x.1) ?_ ?_)
    | (intro x; clear_value x)
    | lift_lets -underBinder
    | split
    | refine Kept.of_fst (by assumption) ?_
    | (unfold x; split)
    | (refine Kept.upd ?_; first | assumption | refine State.put_kept ?_ | refine State.each_kept ?_ (fun x a hx => ?_) | refine syncLoader_kept ?_ | refine showRest_kept ?_ | refine setBoot_kept ?_ | refine applyProfile_kept ?_ | refine Kept.ite ?_ ?_ | (refine Kept.upd ?_; first | assumption | refine State.put_kept ?_ | refine State.each_kept ?_ (fun x a hx => ?_) | refine syncLoader_kept ?_ | refine showRest_kept ?_ | refine setBoot_kept ?_ | refine applyProfile_kept ?_))

theorem trySlot_kept {read : Option (List (BitVec 8))} {slot : Nat} {reread : Bool} {s0 s : State} (h : Kept s0 s) :
    Kept s0 (trySlot s read slot reread).1 := by
  unfold trySlot
  with_reducible repeat' first
    | exact h
    | refine event_kept ?_
    | refine runSlot_kept ?_
    | refine Kept.ite ?_ ?_
    | refine Kept.ite_fst ?_ ?_
    | assumption
    | (intro hx; clear_value x)
    | (intro x; refine Kept.cut (s := s0) (x := x) ?_ ?_)
    | (intro x; refine Kept.cut (s := s0) (x := x.1) ?_ ?_)
    | (intro x; clear_value x)
    | lift_lets -underBinder
    | split
    | refine Kept.of_fst (by assumption) ?_
    | (unfold x; split)

theorem execSlotCheckComplete_ends {slot : Option (List (BitVec 8))} {reread : Bool} {s0 s : State} (h : Kept s0 s) :
    Ends s0 (execSlotCheckComplete slot reread s) := by
  unfold execSlotCheckComplete
  refine Ends.next ?_
  with_reducible repeat' first
    | exact h
    | refine setBoot_kept ?_
    | refine nextSlot_kept ?_
    | refine trySlot_kept ?_
    | refine Kept.ite ?_ ?_
    | refine Kept.ite_fst ?_ ?_
    | assumption
    | (intro hx; clear_value x)
    | (intro x; refine Kept.cut (s := s0) (x := x) ?_ ?_)
    | (intro x; refine Kept.cut (s := s0) (x := x.1) ?_ ?_)
    | (intro x; clear_value x)
    | lift_lets -underBinder
    | split
    | refine Kept.of_fst (by assumption) ?_
    | (unfold x; split)
    | (refine Kept.upd ?_; first | assumption | refine setBoot_kept ?_ | refine nextSlot_kept ?_ | refine trySlot_kept ?_ | refine Kept.ite ?_ ?_)

theorem runPackage_kept {bytes : List (BitVec 8)} {s0 s : State} (h : Kept s0 s) :
    Kept s0 (runPackage s bytes) := by
  unfold runPackage
  with_reducible repeat' first
    | exact h
    | refine event_kept ?_
    | refine trySlot_kept ?_
    | refine Kept.ite ?_ ?_
    | refine Kept.ite_fst ?_ ?_
    | assumption
    | (intro hx; clear_value x)
    | (intro x; refine Kept.cut (s := s0) (x := x) ?_ ?_)
    | (intro x; refine Kept.cut (s := s0) (x := x.1) ?_ ?_)
    | (intro x; clear_value x)
    | lift_lets -underBinder
    | split
    | refine Kept.of_fst (by assumption) ?_

theorem execRecoveryPackageReceived_ends {bytes : List (BitVec 8)} {s0 s : State} (h : Kept s0 s) :
    Ends s0 (execRecoveryPackageReceived bytes s) := by
  unfold execRecoveryPackageReceived
  refine Ends.next ?_
  with_reducible repeat' first
    | exact h
    | refine runPackage_kept ?_

theorem repairRows_kept {g : Nat} {s0 s : State} (h : Kept s0 s) :
    Kept s0 (repairRows s g) := by
  unfold repairRows
  with_reducible repeat' first
    | exact h
    | refine State.each_kept ?_ (fun x a hx => ?_)
    | refine event_kept ?_
    | refine modChan_kept ?_
    | refine recordRepair_kept ?_
    | refine reportRow_kept ?_
    | refine showPending_kept ?_
    | refine Kept.ite ?_ ?_
    | assumption
    | (intro hx; clear_value x)
    | (intro x; refine Kept.cut (s := s0) (x := x) ?_ ?_)
    | (intro x; refine Kept.cut (s := s0) (x := x.1) ?_ ?_)
    | (intro x; clear_value x)
    | lift_lets -underBinder
    | split

theorem applyRemap_kept {g : Nat} {s0 s : State} (h : Kept s0 s) :
    Kept s0 (applyRemap s g) := by
  unfold applyRemap
  with_reducible repeat' first
    | exact h
    | refine modChan_kept ?_
    | refine Kept.ite ?_ ?_
    | assumption
    | (intro hx; clear_value x)
    | (intro x; refine Kept.cut (s := s0) (x := x) ?_ ?_)
    | (intro x; refine Kept.cut (s := s0) (x := x.1) ?_ ?_)
    | (intro x; clear_value x)
    | lift_lets -underBinder
    | split
    | (refine Kept.upd ?_; first | assumption | refine modChan_kept ?_ | refine Kept.ite ?_ ?_)

theorem bootCal_kept {g : Nat} {temp : Int} {values : List (Nat × Int)} {limits : Bool} {drift : Nat} {s0 s : State} (h : Kept s0 s) :
    Kept s0 (bootCal s g temp values limits drift) := by
  unfold bootCal
  with_reducible repeat' first
    | exact h
    | refine State.put_kept ?_
    | refine rejectResult_kept ?_
    | refine acceptResult_kept ?_
    | refine Kept.ite ?_ ?_
    | refine foldl_kept ?_ fun x a hx => ?_
    | refine foldl_kept_fst ?_ fun x a hx => ?_
    | assumption
    | (intro hx; clear_value x)
    | (intro x; refine Kept.cut (s := s0) (x := x) ?_ ?_)
    | (intro x; refine Kept.cut (s := s0) (x := x.1) ?_ ?_)
    | (intro x; clear_value x)
    | lift_lets -underBinder
    | split

theorem interpolate_kept {u : Nat} {s0 s : State} (h : Kept s0 s) :
    Kept s0 (interpolate s u) := by
  unfold interpolate
  with_reducible repeat' first
    | exact h
    | refine State.put_kept ?_
    | refine setCal_kept ?_
    | refine Kept.ite ?_ ?_
    | refine foldl_kept ?_ fun x a hx => ?_
    | refine foldl_kept_fst ?_ fun x a hx => ?_
    | assumption
    | (intro hx; clear_value x)
    | (intro x; refine Kept.cut (s := s0) (x := x) ?_ ?_)
    | (intro x; refine Kept.cut (s := s0) (x := x.1) ?_ ?_)
    | (intro x; clear_value x)
    | lift_lets -underBinder
    | split
    | (refine Kept.upd ?_; first | assumption | refine State.put_kept ?_ | refine setCal_kept ?_ | refine Kept.ite ?_ ?_)

theorem blankMedia_kept {s0 s : State} (h : Kept s0 s) : Kept s0 (blankMedia s) :=
  ⟨h.variant, h.pending, h.free, h.out, h.desk, fun _ => rfl⟩

theorem bootEvacuation_kept {g : Nat} {s0 s : State} (h : Kept s0 s) :
    Kept s0 (bootEvacuation s g) := by
  unfold bootEvacuation
  with_reducible repeat' first
    | exact h
    | refine orderEvacuation_kept ?_
    | split
    | refine Kept.of_fst (by assumption) ?_

theorem bootReserve_kept {s0 s : State} (h : Kept s0 s) :
    Kept s0 (bootReserve s) := by
  unfold bootReserve
  with_reducible repeat' first
    | exact h
    | refine State.each_kept ?_ (fun x a hx => ?_)
    | refine replaceQuires_kept ?_
    | refine orderEvacuation_kept ?_
    | refine finishEvacuations_kept ?_
    | refine bootEvacuation_kept ?_
    | refine Kept.ite ?_ ?_
    | assumption
    | (intro hx; clear_value x)
    | (intro x; refine Kept.cut (s := s0) (x := x) ?_ ?_)
    | (intro x; refine Kept.cut (s := s0) (x := x.1) ?_ ?_)
    | (intro x; clear_value x)
    | lift_lets -underBinder
    | split

theorem trainTowers_kept {f : TrainingInput} {s0 s : State} (h : Kept s0 s) :
    Kept s0 (trainTowers s f) := by
  unfold trainTowers
  with_reducible repeat' first
    | exact h
    | refine State.put_kept ?_
    | refine State.each_kept ?_ (fun x a hx => ?_)
    | refine declareData_kept ?_
    | refine declareCa_kept ?_
    | refine spareTestFails_kept ?_
    | refine dieStops_kept ?_
    | refine setBoot_kept ?_
    | refine repairRows_kept ?_
    | refine applyRemap_kept ?_
    | refine bootCal_kept ?_
    | refine interpolate_kept ?_
    | refine blankMedia_kept ?_
    | refine bootReserve_kept ?_
    | refine Kept.ite ?_ ?_
    | refine Kept.ite_fst ?_ ?_
    | assumption
    | (intro hx; clear_value x)
    | (intro x; refine Kept.cut (s := s0) (x := x) ?_ ?_)
    | (intro x; refine Kept.cut (s := s0) (x := x.1) ?_ ?_)
    | (intro x; clear_value x)
    | lift_lets -underBinder
    | split
    | (refine Kept.upd ?_; first | assumption | refine State.put_kept ?_ | refine State.each_kept ?_ (fun x a hx => ?_) | refine declareData_kept ?_ | refine declareCa_kept ?_ | refine spareTestFails_kept ?_ | refine dieStops_kept ?_ | refine setBoot_kept ?_ | refine repairRows_kept ?_ | refine applyRemap_kept ?_ | refine bootCal_kept ?_ | refine interpolate_kept ?_ | refine blankMedia_kept ?_ | refine bootReserve_kept ?_ | refine Kept.ite ?_ ?_)

theorem execTowerTrainingComplete_ends {found : TrainingInput} {s0 s : State} (h : Kept s0 s) :
    Ends s0 (execTowerTrainingComplete found s) := by
  unfold execTowerTrainingComplete
  refine Ends.next ?_
  with_reducible repeat' first
    | exact h
    | refine setBoot_kept ?_
    | refine noSlotLeft_kept ?_
    | refine trainTowers_kept ?_
    | refine Kept.ite ?_ ?_
    | assumption
    | (intro hx; clear_value x)
    | (intro x; refine Kept.cut (s := s0) (x := x) ?_ ?_)
    | (intro x; refine Kept.cut (s := s0) (x := x.1) ?_ ?_)
    | (intro x; clear_value x)
    | lift_lets -underBinder
    | split
    | (refine Kept.upd ?_; first | assumption | refine setBoot_kept ?_ | refine noSlotLeft_kept ?_ | refine trainTowers_kept ?_ | refine Kept.ite ?_ ?_)

theorem putBack_kept {a : Nat} {s0 s : State} (h : Kept s0 s) :
    Kept s0 (putBack s a) := by
  unfold putBack
  with_reducible repeat' first
    | exact h
    | refine State.setWord_kept ?_

theorem undoProfile_kept {s0 s : State} (h : Kept s0 s) :
    Kept s0 (undoProfile s) := by
  unfold undoProfile
  with_reducible repeat' first
    | exact h
    | refine State.put_kept ?_
    | refine State.each_kept ?_ (fun x a hx => ?_)
    | refine writePortCtrl_kept ?_
    | refine putBack_kept ?_
    | refine Kept.ite ?_ ?_
    | assumption
    | (intro hx; clear_value x)
    | (intro x; refine Kept.cut (s := s0) (x := x) ?_ ?_)
    | (intro x; refine Kept.cut (s := s0) (x := x.1) ?_ ?_)
    | (intro x; clear_value x)
    | lift_lets -underBinder
    | split

theorem resetScribes_kept {s0 s : State} (h : Kept s0 s) :
    Kept s0 (resetScribes s) := by
  unfold resetScribes
  with_reducible repeat' first
    | exact h
    | refine State.setWord_kept ?_
    | refine State.each_kept ?_ (fun x a hx => ?_)
    | refine setCore_kept ?_
    | refine setBoot_kept ?_
    | refine undoProfile_kept ?_
    | assumption
    | (intro hx; clear_value x)
    | (intro x; refine Kept.cut (s := s0) (x := x) ?_ ?_)
    | (intro x; refine Kept.cut (s := s0) (x := x.1) ?_ ?_)
    | (intro x; clear_value x)
    | lift_lets -underBinder
    | (refine Kept.upd ?_; first | assumption | refine State.setWord_kept ?_ | refine State.each_kept ?_ (fun x a hx => ?_) | refine setCore_kept ?_ | refine setBoot_kept ?_ | refine undoProfile_kept ?_)

theorem execBaseRubricsStart_ends {changed : List (Fin 6)} {s0 s : State} (h : Kept s0 s) :
    Ends s0 (execBaseRubricsStart changed s) := by
  unfold execBaseRubricsStart
  refine Ends.next ?_
  with_reducible repeat' first
    | exact h
    | refine State.each_kept ?_ (fun x a hx => ?_)
    | refine event_kept ?_
    | refine loadBase_kept ?_
    | refine setBoot_kept ?_
    | refine nextSlot_kept ?_
    | refine resetScribes_kept ?_
    | refine Kept.ite ?_ ?_
    | assumption
    | (intro hx; clear_value x)
    | (intro x; refine Kept.cut (s := s0) (x := x) ?_ ?_)
    | (intro x; refine Kept.cut (s := s0) (x := x.1) ?_ ?_)
    | (intro x; clear_value x)
    | lift_lets -underBinder
    | split
    | refine Kept.of_fst (by assumption) ?_
    | (unfold x; split)
    | (refine Kept.upd ?_; first | assumption | refine State.each_kept ?_ (fun x a hx => ?_) | refine event_kept ?_ | refine loadBase_kept ?_ | refine setBoot_kept ?_ | refine nextSlot_kept ?_ | refine resetScribes_kept ?_ | refine Kept.ite ?_ ?_)

theorem execMemoryActive_ends {ms : BitVec 32} {s0 s : State} (h : Kept s0 s) :
    Ends s0 (execMemoryActive ms s) := by
  unfold execMemoryActive
  refine Ends.next ?_
  with_reducible repeat' first
    | exact h
    | refine event_kept ?_
    | refine setPower_kept ?_
    | refine leaveFor_kept ?_
    | refine setBoot_kept ?_
    | refine Kept.ite ?_ ?_
    | assumption
    | (intro hx; clear_value x)
    | (intro x; refine Kept.cut (s := s0) (x := x) ?_ ?_)
    | (intro x; refine Kept.cut (s := s0) (x := x.1) ?_ ?_)
    | (intro x; clear_value x)
    | lift_lets -underBinder
    | split
    | refine Kept.of_fst (by assumption) ?_
    | (unfold x; split)
    | (refine Kept.upd ?_; first | assumption | refine event_kept ?_ | refine setPower_kept ?_ | refine leaveFor_kept ?_ | refine setBoot_kept ?_ | refine Kept.ite ?_ ?_)

end Sys2Proof.Machine
end

