-- ==== Sys2Proof/Laws/KeptManagement.lean ====
section
/-! SUPPORT. What every step keeps, through the functions of Management. -/

set_option linter.all false
set_option maxRecDepth 8000

namespace Sys2Proof.Machine

theorem setMgmt_kept {m : Mgmt} {s0 s : State} (h : Kept s0 s) :
    Kept s0 (setMgmt s m) := by
  unfold setMgmt
  with_reducible repeat' first
    | exact h
    | (refine Kept.upd ?_; first | assumption)

theorem takeMessage_kept {e : Envelope} {control : Bool} {f : State → State} {s0 s : State} (h_f : ∀ x , Kept s0 x → Kept s0 (f x )) (h : Kept s0 s) :
    Kept s0 (takeMessage s e control f) := by
  unfold takeMessage
  with_reducible repeat' first
    | exact h
    | refine h_f _ ?_
    | refine inkEvent_kept ?_
    | refine Kept.ite ?_ ?_
    | split

theorem accept_kept {e : Envelope} {control : Bool} {both : Bool} {f : State → State} {s0 s : State} (h_f : ∀ x , Kept s0 x → Kept s0 (f x )) (h : Kept s0 s) :
    Kept s0 (accept s e control both f) := by
  unfold accept
  with_reducible repeat' first
    | exact h
    | refine h_f _ ?_
    | refine notice_kept ?_
    | refine takeMessage_kept (fun x  hx => ?_) ?_
    | refine Kept.ite ?_ ?_
    | assumption
    | (intro hx; clear_value x)
    | (intro x; refine Kept.cut (s := s0) (x := x) ?_ ?_)
    | (intro x; refine Kept.cut (s := s0) (x := x.1) ?_ ?_)
    | (intro x; clear_value x)
    | lift_lets -underBinder
    | split
    | refine Kept.of_fst (by assumption) ?_
    | refine Kept.of_snd (by assumption) ?_
    | (unfold x; split)

theorem control_kept {e : Envelope} {f : State → State} {s0 s : State} (h_f : ∀ x , Kept s0 x → Kept s0 (f x )) (h : Kept s0 s) :
    Kept s0 (control s e f) := by
  unfold control
  with_reducible repeat' first
    | exact h
    | refine h_f _ ?_
    | refine accept_kept (fun x  hx => ?_) ?_
    | refine Kept.ite ?_ ?_
    | assumption
    | (intro hx; clear_value x)
    | (intro x; refine Kept.cut (s := s0) (x := x) ?_ ?_)
    | (intro x; refine Kept.cut (s := s0) (x := x.1) ?_ ?_)
    | (intro x; clear_value x)
    | lift_lets -underBinder
    | split
    | refine Kept.of_fst (by assumption) ?_
    | refine Kept.of_snd (by assumption) ?_
    | (unfold x; split)

theorem execSetEndpointId_ends {env : Envelope} {eid : BitVec 8} {s0 s : State} (h : Kept s0 s) :
    Ends s0 (execSetEndpointId env eid s) := by
  unfold execSetEndpointId
  refine Ends.next ?_
  with_reducible repeat' first
    | exact h
    | refine State.send_kept ?_
    | refine setMgmt_kept ?_
    | refine control_kept (fun x  hx => ?_) ?_
    | refine Kept.ite ?_ ?_
    | assumption
    | split
    | (refine Kept.upd ?_; first | assumption | refine State.send_kept ?_ | refine setMgmt_kept ?_ | refine control_kept (fun x  hx => ?_) ?_ | refine Kept.ite ?_ ?_)

theorem execGetEndpointId_ends {env : Envelope} {s0 s : State} (h : Kept s0 s) :
    Ends s0 (execGetEndpointId env s) := by
  unfold execGetEndpointId
  refine Ends.next ?_
  with_reducible repeat' first
    | exact h
    | refine State.send_kept ?_
    | refine control_kept (fun x  hx => ?_) ?_
    | assumption

theorem execGetEndpointUuid_ends {env : Envelope} {s0 s : State} (h : Kept s0 s) :
    Ends s0 (execGetEndpointUuid env s) := by
  unfold execGetEndpointUuid
  refine Ends.next ?_
  with_reducible repeat' first
    | exact h
    | refine State.send_kept ?_
    | refine control_kept (fun x  hx => ?_) ?_
    | assumption

theorem execGetMctpVersionSupport_ends {env : Envelope} {type : BitVec 8} {s0 s : State} (h : Kept s0 s) :
    Ends s0 (execGetMctpVersionSupport env type s) := by
  unfold execGetMctpVersionSupport
  refine Ends.next ?_
  with_reducible repeat' first
    | exact h
    | refine State.drew_kept ?_
    | refine State.send_kept ?_
    | refine control_kept (fun x  hx => ?_) ?_
    | refine Kept.ite ?_ ?_
    | assumption
    | split

theorem execGetMessageTypeSupport_ends {env : Envelope} {s0 s : State} (h : Kept s0 s) :
    Ends s0 (execGetMessageTypeSupport env s) := by
  unfold execGetMessageTypeSupport
  refine Ends.next ?_
  with_reducible repeat' first
    | exact h
    | refine State.send_kept ?_
    | refine control_kept (fun x  hx => ?_) ?_
    | assumption

theorem execGetVendorDefinedMessageSupport_ends {env : Envelope} {s0 s : State} (h : Kept s0 s) :
    Ends s0 (execGetVendorDefinedMessageSupport env s) := by
  unfold execGetVendorDefinedMessageSupport
  refine Ends.next ?_
  with_reducible repeat' first
    | exact h
    | refine State.drew_kept ?_
    | refine State.send_kept ?_
    | refine control_kept (fun x  hx => ?_) ?_
    | assumption

theorem execSetdasa_ends {static : BitVec 7} {dynamic : BitVec 7} {s0 s : State} (h : Kept s0 s) :
    Ends s0 (execSetdasa static dynamic s) := by
  unfold execSetdasa
  refine Ends.next ?_
  with_reducible repeat' first
    | exact h
    | refine setMgmt_kept ?_
    | refine Kept.ite ?_ ?_
    | split
    | (refine Kept.upd ?_; first | assumption | refine setMgmt_kept ?_ | refine Kept.ite ?_ ?_)

theorem execEntdaa_ends {assigned : BitVec 7} {s0 s : State} (h : Kept s0 s) :
    Ends s0 (execEntdaa assigned s) := by
  unfold execEntdaa
  refine Ends.next ?_
  with_reducible repeat' first
    | exact h
    | refine State.send_kept ?_
    | refine setMgmt_kept ?_
    | refine Kept.ite ?_ ?_
    | split
    | (refine Kept.upd ?_; first | assumption | refine State.send_kept ?_ | refine setMgmt_kept ?_ | refine Kept.ite ?_ ?_)

theorem vendorAnswer_kept {name : String} {cmd : Nat} {tag : BitVec 16} {status : Nat} {data : List Nat} {s0 s : State} (h : Kept s0 s) :
    Kept s0 (vendorAnswer s name cmd tag status data) := by
  unfold vendorAnswer
  with_reducible repeat' first
    | exact h
    | refine State.send_kept ?_

theorem vendorCommand_kept {e : Envelope} {f : State → State} {s0 s : State} (h_f : ∀ x , Kept s0 x → Kept s0 (f x )) (h : Kept s0 s) :
    Kept s0 (vendorCommand s e f) := by
  unfold vendorCommand
  with_reducible repeat' first
    | exact h
    | refine h_f _ ?_
    | refine accept_kept (fun x  hx => ?_) ?_
    | refine Kept.ite ?_ ?_
    | assumption
    | (intro hx; clear_value x)
    | (intro x; refine Kept.cut (s := s0) (x := x) ?_ ?_)
    | (intro x; refine Kept.cut (s := s0) (x := x.1) ?_ ?_)
    | (intro x; clear_value x)
    | lift_lets -underBinder
    | split
    | refine Kept.of_fst (by assumption) ?_
    | refine Kept.of_snd (by assumption) ?_
    | (unfold x; split)

theorem rubricCommand_kept {e : Envelope} {name : String} {cmd : Nat} {tag : BitVec 16} {f : State → State} {s0 s : State} (h_f : ∀ x , Kept s0 x → Kept s0 (f x )) (h : Kept s0 s) :
    Kept s0 (rubricCommand s e name cmd tag f) := by
  unfold rubricCommand
  with_reducible repeat' first
    | exact h
    | refine h_f _ ?_
    | refine vendorAnswer_kept ?_
    | refine vendorCommand_kept (fun x  hx => ?_) ?_
    | refine Kept.ite ?_ ?_
    | assumption
    | split

theorem execColophonRead_ends {env : Envelope} {tag : BitVec 16} {area : BitVec 8} {start : BitVec 32} {most : BitVec 16} {s0 s : State} (h : Kept s0 s) :
    Ends s0 (execColophonRead env tag area start most s) := by
  unfold execColophonRead
  refine Ends.next ?_
  with_reducible repeat' first
    | exact h
    | refine State.drew_kept ?_
    | refine vendorAnswer_kept ?_
    | refine vendorCommand_kept (fun x  hx => ?_) ?_
    | refine Kept.ite ?_ ?_
    | assumption
    | (intro hx; clear_value x)
    | (intro x; refine Kept.cut (s := s0) (x := x) ?_ ?_)
    | (intro x; refine Kept.cut (s := s0) (x := x.1) ?_ ?_)
    | (intro x; clear_value x)
    | lift_lets -underBinder
    | split
    | refine Kept.of_fst (by assumption) ?_

theorem execPower_ends {env : Envelope} {tag : BitVec 16} {target : BitVec 8} {s0 s : State} (h : Kept s0 s) :
    Ends s0 (execPower env tag target s) := by
  unfold execPower
  refine Ends.next ?_
  with_reducible repeat' first
    | exact h
    | refine event_kept ?_
    | refine requestState_kept ?_
    | refine setMgmt_kept ?_
    | refine vendorAnswer_kept ?_
    | refine vendorCommand_kept (fun x  hx => ?_) ?_
    | refine Kept.ite ?_ ?_
    | assumption
    | (intro hx; clear_value x)
    | (intro x; refine Kept.cut (s := s0) (x := x) ?_ ?_)
    | (intro x; refine Kept.cut (s := s0) (x := x.1) ?_ ?_)
    | (intro x; clear_value x)
    | lift_lets -underBinder
    | split
    | refine Kept.of_fst (by assumption) ?_
    | (unfold x; split)
    | (refine Kept.upd ?_; first | assumption | refine event_kept ?_ | refine requestState_kept ?_ | refine setMgmt_kept ?_ | refine vendorAnswer_kept ?_ | refine vendorCommand_kept (fun x  hx => ?_) ?_ | refine Kept.ite ?_ ?_)

theorem execInkwellArm_ends {env : Envelope} {tag : BitVec 16} {s0 s : State} (h : Kept s0 s) :
    Ends s0 (execInkwellArm env tag s) := by
  unfold execInkwellArm
  refine Ends.next ?_
  with_reducible repeat' first
    | exact h
    | refine State.drew_kept ?_
    | refine setMgmt_kept ?_
    | refine vendorAnswer_kept ?_
    | refine vendorCommand_kept (fun x  hx => ?_) ?_
    | assumption
    | (intro hx; clear_value x)
    | (intro x; refine Kept.cut (s := s0) (x := x) ?_ ?_)
    | (intro x; refine Kept.cut (s := s0) (x := x.1) ?_ ?_)
    | (intro x; clear_value x)
    | lift_lets -underBinder
    | (refine Kept.upd ?_; first | assumption | refine State.drew_kept ?_ | refine setMgmt_kept ?_ | refine vendorAnswer_kept ?_ | refine vendorCommand_kept (fun x  hx => ?_) ?_)

theorem inkwellCycle_kept {s0 s : State} (h : Kept s0 s) :
    Kept s0 (inkwellCycle s) := by
  unfold inkwellCycle
  with_reducible repeat' first
    | exact h
    | refine toStandby_kept ?_
    | refine setPower_kept ?_
    | refine setCol_kept ?_
    | assumption
    | (intro hx; clear_value x)
    | (intro x; refine Kept.cut (s := s0) (x := x) ?_ ?_)
    | (intro x; refine Kept.cut (s := s0) (x := x.1) ?_ ?_)
    | (intro x; clear_value x)
    | lift_lets -underBinder
    | (refine Kept.upd ?_; first | assumption | refine toStandby_kept ?_ | refine setPower_kept ?_ | refine setCol_kept ?_)

theorem execInkwellCycle_ends {env : Envelope} {tag : BitVec 16} {nonce : BitVec 32} {inTime : Bool} {s0 s : State} (h : Kept s0 s) :
    Ends s0 (execInkwellCycle env tag nonce inTime s) := by
  unfold execInkwellCycle
  refine Ends.next ?_
  with_reducible repeat' first
    | exact h
    | refine State.drew_kept ?_
    | refine inkEvent_kept ?_
    | refine setMgmt_kept ?_
    | refine vendorAnswer_kept ?_
    | refine vendorCommand_kept (fun x  hx => ?_) ?_
    | refine inkwellCycle_kept ?_
    | refine Kept.ite ?_ ?_
    | assumption
    | split
    | (refine Kept.upd ?_; first | assumption | refine State.drew_kept ?_ | refine inkEvent_kept ?_ | refine setMgmt_kept ?_ | refine vendorAnswer_kept ?_ | refine vendorCommand_kept (fun x  hx => ?_) ?_ | refine inkwellCycle_kept ?_ | refine Kept.ite ?_ ?_)

theorem execOwnerChallenge_ends {env : Envelope} {tag : BitVec 16} {slot : BitVec 8} {s0 s : State} (h : Kept s0 s) :
    Ends s0 (execOwnerChallenge env tag slot s) := by
  unfold execOwnerChallenge
  refine Ends.next ?_
  with_reducible repeat' first
    | exact h
    | refine State.drew_kept ?_
    | refine setMgmt_kept ?_
    | refine vendorAnswer_kept ?_
    | refine rubricCommand_kept (fun x  hx => ?_) ?_
    | refine Kept.ite ?_ ?_
    | assumption
    | (intro hx; clear_value x)
    | (intro x; refine Kept.cut (s := s0) (x := x) ?_ ?_)
    | (intro x; refine Kept.cut (s := s0) (x := x.1) ?_ ?_)
    | (intro x; clear_value x)
    | lift_lets -underBinder
    | split
    | (refine Kept.upd ?_; first | assumption | refine State.drew_kept ?_ | refine setMgmt_kept ?_ | refine vendorAnswer_kept ?_ | refine rubricCommand_kept (fun x  hx => ?_) ?_ | refine Kept.ite ?_ ?_)

theorem programAll_kept {p : Programmer} {pump : Bool} {l : List (Nat × Nat)} {runs : List WordRun} {s0 s : State} (h : Kept s0 s) :
    Kept s0 (programAll p pump s l runs).1 := by
  induction l generalizing s runs with
  | nil => exact h
  | cons x l ih =>
    unfold programAll
    have h1 : Kept s0 (programWord s p x.1 x.2 pump).1 := programWord_kept h
    refine Kept.ite_fst h1 ?_
    refine Kept.ite_fst (ih (programmed_kept h1)) (programmed_kept h1)

theorem execOwnerProvision_ends {env : Envelope} {tag : BitVec 16} {slot : BitVec 8} {hash : BitVec 256} {signature : List (BitVec 8)} {pump : Bool} {runs : List WordRun} {s0 s : State} (h : Kept s0 s) :
    Ends s0 (execOwnerProvision env tag slot hash signature pump runs s) := by
  unfold execOwnerProvision
  refine Ends.next ?_
  with_reducible repeat' first
    | exact h
    | refine event_kept ?_
    | refine pump_kept ?_
    | refine setMgmt_kept ?_
    | refine vendorAnswer_kept ?_
    | refine rubricCommand_kept (fun x  hx => ?_) ?_
    | refine programAll_kept ?_
    | refine Kept.ite ?_ ?_
    | refine Kept.ite_fst ?_ ?_
    | assumption
    | (intro hx; clear_value x)
    | (intro x; refine Kept.cut (s := s0) (x := x) ?_ ?_)
    | (intro x; refine Kept.cut (s := s0) (x := x.1) ?_ ?_)
    | (intro x; clear_value x)
    | lift_lets -underBinder
    | split
    | refine Kept.of_fst (by assumption) ?_
    | (refine Kept.upd ?_; first | assumption | refine event_kept ?_ | refine pump_kept ?_ | refine setMgmt_kept ?_ | refine vendorAnswer_kept ?_ | refine rubricCommand_kept (fun x  hx => ?_) ?_ | refine programAll_kept ?_ | refine Kept.ite ?_ ?_)

theorem execRollbackRaise_ends {env : Envelope} {tag : BitVec 16} {version : BitVec 16} {slotA : Option (List (BitVec 8))} {slotB : Option (List (BitVec 8))} {pump : Bool} {runs : List WordRun} {s0 s : State} (h : Kept s0 s) :
    Ends s0 (execRollbackRaise env tag version slotA slotB pump runs s) := by
  unfold execRollbackRaise
  refine Ends.next ?_
  with_reducible repeat' first
    | exact h
    | refine event_kept ?_
    | refine pump_kept ?_
    | refine vendorAnswer_kept ?_
    | refine rubricCommand_kept (fun x  hx => ?_) ?_
    | refine programAll_kept ?_
    | refine Kept.ite ?_ ?_
    | refine Kept.ite_fst ?_ ?_
    | assumption
    | (intro hx; clear_value x)
    | (intro x; refine Kept.cut (s := s0) (x := x) ?_ ?_)
    | (intro x; refine Kept.cut (s := s0) (x := x.1) ?_ ?_)
    | (intro x; clear_value x)
    | lift_lets -underBinder
    | split
    | refine Kept.of_fst (by assumption) ?_
    | (unfold x; split)

end Sys2Proof.Machine
end

