-- ==== Sys2Proof/Laws/KeptFmApi.lean ====
section
/-! SUPPORT. What every step keeps, through the functions of FmApi. -/

set_option linter.all false
set_option maxRecDepth 8000

namespace Sys2Proof.Machine

theorem fmApi_kept {e : Envelope} {f : State → State} {s0 s : State} (h_f : ∀ x , Kept s0 x → Kept s0 (f x )) (h : Kept s0 s) :
    Kept s0 (fmApi s e f) := by
  unfold fmApi
  with_reducible repeat' first
    | exact h
    | refine h_f _ ?_
    | refine State.send_kept ?_
    | refine accept_kept (fun x  hx => ?_) ?_
    | refine Kept.ite ?_ ?_
    | assumption
    | split

theorem fmPort_kept {e : Envelope} {p : Nat} {f : State → State} {s0 s : State} (h_f : ∀ x , Kept s0 x → Kept s0 (f x )) (h : Kept s0 s) :
    Kept s0 (fmPort s e p f) := by
  unfold fmPort
  with_reducible repeat' first
    | exact h
    | refine h_f _ ?_
    | refine State.send_kept ?_
    | refine fmApi_kept (fun x  hx => ?_) ?_
    | refine Kept.ite ?_ ?_
    | assumption
    | split

theorem execIdentify_ends {env : Envelope} {s0 s : State} (h : Kept s0 s) :
    Ends s0 (execIdentify env s) := by
  unfold execIdentify
  refine Ends.next ?_
  with_reducible repeat' first
    | exact h
    | refine State.drew_kept ?_
    | refine State.send_kept ?_
    | refine fmApi_kept (fun x  hx => ?_) ?_
    | assumption

theorem execBackgroundOperationStatus_ends {env : Envelope} {s0 s : State} (h : Kept s0 s) :
    Ends s0 (execBackgroundOperationStatus env s) := by
  unfold execBackgroundOperationStatus
  refine Ends.next ?_
  with_reducible repeat' first
    | exact h
    | refine State.send_kept ?_
    | refine fmApi_kept (fun x  hx => ?_) ?_
    | assumption

theorem execGetLdInfo_ends {env : Envelope} {port : Fin 64} {s0 s : State} (h : Kept s0 s) :
    Ends s0 (execGetLdInfo env port s) := by
  unfold execGetLdInfo
  refine Ends.next ?_
  with_reducible repeat' first
    | exact h
    | refine State.send_kept ?_
    | refine fmPort_kept (fun x  hx => ?_) ?_
    | assumption
    | (intro hx; clear_value x)
    | (intro x; refine Kept.cut (s := s0) (x := x) ?_ ?_)
    | (intro x; refine Kept.cut (s := s0) (x := x.1) ?_ ?_)
    | (intro x; clear_value x)
    | lift_lets -underBinder

theorem execGetLdAllocations_ends {env : Envelope} {port : Fin 64} {s0 s : State} (h : Kept s0 s) :
    Ends s0 (execGetLdAllocations env port s) := by
  unfold execGetLdAllocations
  refine Ends.next ?_
  with_reducible repeat' first
    | exact h
    | refine State.send_kept ?_
    | refine fmPort_kept (fun x  hx => ?_) ?_
    | assumption
    | split
    | refine Kept.of_fst (by assumption) ?_

theorem execGetDcdInfo_ends {env : Envelope} {s0 s : State} (h : Kept s0 s) :
    Ends s0 (execGetDcdInfo env s) := by
  unfold execGetDcdInfo
  refine Ends.next ?_
  with_reducible repeat' first
    | exact h
    | refine State.send_kept ?_
    | refine fmApi_kept (fun x  hx => ?_) ?_
    | assumption

theorem execGetHostDcRegionConfiguration_ends {env : Envelope} {port : Fin 64} {ld : Fin 16} {s0 s : State} (h : Kept s0 s) :
    Ends s0 (execGetHostDcRegionConfiguration env port ld s) := by
  unfold execGetHostDcRegionConfiguration
  refine Ends.next ?_
  with_reducible repeat' first
    | exact h
    | refine State.send_kept ?_
    | refine fmPort_kept (fun x  hx => ?_) ?_
    | assumption

theorem execSetDcRegionConfiguration_ends {env : Envelope} {port : Fin 64} {ld : Fin 16} {region : Fin 8} {value : BitVec 64} {s0 s : State} (h : Kept s0 s) :
    Ends s0 (execSetDcRegionConfiguration env port ld region value s) := by
  unfold execSetDcRegionConfiguration
  refine Ends.next ?_
  with_reducible repeat' first
    | exact h
    | refine State.send_kept ?_
    | refine writeRegion_kept ?_
    | refine fmPort_kept (fun x  hx => ?_) ?_
    | refine Kept.ite ?_ ?_
    | assumption
    | split

theorem execGetDcRegionExtentLists_ends {env : Envelope} {port : Fin 64} {ld : Fin 16} {s0 s : State} (h : Kept s0 s) :
    Ends s0 (execGetDcRegionExtentLists env port ld s) := by
  unfold execGetDcRegionExtentLists
  refine Ends.next ?_
  with_reducible repeat' first
    | exact h
    | refine State.send_kept ?_
    | refine fmPort_kept (fun x  hx => ?_) ?_
    | assumption
    | split
    | refine Kept.of_fst (by assumption) ?_

theorem fmExtent_kept {name : String} {r : State × Nat} {s0 s : State} (h : Kept s0 s) (hr : Kept s0 r.1) :
    Kept s0 (fmExtent s name r) := by
  unfold fmExtent
  split
  · exact State.send_kept h
  · split
    · exact State.send_kept (extentStatus_kept hr)
    · split <;> exact State.send_kept (extentStatus_kept hr)

theorem execInitiateDynamicCapacityAdd_ends {env : Envelope} {value : BitVec 64} {s0 s : State} (h : Kept s0 s) :
    Ends s0 (execInitiateDynamicCapacityAdd env value s) := by
  unfold execInitiateDynamicCapacityAdd
  refine Ends.next ?_
  with_reducible repeat' first
    | exact h
    | refine addExtent_kept ?_
    | refine fmApi_kept (fun x  hx => ?_) ?_
    | refine fmExtent_kept ?_ ?_
    | assumption

theorem execInitiateDynamicCapacityRelease_ends {env : Envelope} {value : BitVec 64} {s0 s : State} (h : Kept s0 s) :
    Ends s0 (execInitiateDynamicCapacityRelease env value s) := by
  unfold execInitiateDynamicCapacityRelease
  refine Ends.next ?_
  with_reducible repeat' first
    | exact h
    | refine askRelease_kept ?_
    | refine fmApi_kept (fun x  hx => ?_) ?_
    | refine fmExtent_kept ?_ ?_
    | assumption

end Sys2Proof.Machine
end

