-- ==== Sys2Proof/Laws/KeptPldm.lean ====
section
/-! SUPPORT. What every step keeps, through the functions of Pldm. -/

set_option linter.all false
set_option maxRecDepth 8000

namespace Sys2Proof.Machine

theorem updateSensors_kept {s0 s : State} (h : Kept s0 s) :
    Kept s0 (updateSensors s) := by
  unfold updateSensors
  with_reducible repeat' first
    | exact h
    | refine State.send_kept ?_
    | refine State.each_kept ?_ (fun x a hx => ?_)
    | refine setMgmt_kept ?_
    | refine Kept.ite ?_ ?_
    | assumption
    | (intro hx; clear_value x)
    | (intro x; refine Kept.cut (s := s0) (x := x) ?_ ?_)
    | (intro x; refine Kept.cut (s := s0) (x := x.1) ?_ ?_)
    | (intro x; clear_value x)
    | lift_lets -underBinder
    | split
    | (refine Kept.upd ?_; first | assumption | refine State.send_kept ?_ | refine State.each_kept ?_ (fun x a hx => ?_) | refine setMgmt_kept ?_ | refine Kept.ite ?_ ?_)

theorem pldmTwo_kept {e : Envelope} {f : State → State} {s0 s : State} (h_f : ∀ x , Kept s0 x → Kept s0 (f x )) (h : Kept s0 s) :
    Kept s0 (pldmTwo s e f) := by
  unfold pldmTwo
  with_reducible repeat' first
    | exact h
    | refine h_f _ ?_
    | refine accept_kept (fun x  hx => ?_) ?_
    | refine Kept.ite ?_ ?_
    | assumption
    | (intro hx; clear_value x)
    | (intro x; refine Kept.cut (s := s0) (x := x) ?_ ?_)
    | (intro x; refine Kept.cut (s := s0) (x := x.1) ?_ ?_)
    | (intro x; clear_value x)
    | lift_lets -underBinder
    | split
    | refine Kept.of_fst (by assumption) ?_
    | refine Kept.of_snd (by assumption) ?_
    | (unfold x; split)

theorem execGetPdrRepositoryInfo_ends {env : Envelope} {s0 s : State} (h : Kept s0 s) :
    Ends s0 (execGetPdrRepositoryInfo env s) := by
  unfold execGetPdrRepositoryInfo
  refine Ends.next ?_
  with_reducible repeat' first
    | exact h
    | refine State.drew_kept ?_
    | refine State.send_kept ?_
    | refine pldmTwo_kept (fun x  hx => ?_) ?_
    | assumption

theorem execGetPdr_ends {env : Envelope} {handle : BitVec 32} {s0 s : State} (h : Kept s0 s) :
    Ends s0 (execGetPdr env handle s) := by
  unfold execGetPdr
  refine Ends.next ?_
  with_reducible repeat' first
    | exact h
    | refine State.drew_kept ?_
    | refine State.send_kept ?_
    | refine pldmTwo_kept (fun x  hx => ?_) ?_
    | assumption

theorem execGetSensorReading_ends {env : Envelope} {sensor : BitVec 16} {sample : BitVec 16} {s0 s : State} (h : Kept s0 s) :
    Ends s0 (execGetSensorReading env sensor sample s) := by
  unfold execGetSensorReading
  refine Ends.next ?_
  with_reducible repeat' first
    | exact h
    | refine State.send_kept ?_
    | refine pldmTwo_kept (fun x  hx => ?_) ?_
    | refine Kept.ite ?_ ?_
    | assumption
    | (intro hx; clear_value x)
    | (intro x; refine Kept.cut (s := s0) (x := x) ?_ ?_)
    | (intro x; refine Kept.cut (s := s0) (x := x.1) ?_ ?_)
    | (intro x; clear_value x)
    | lift_lets -underBinder
    | split

theorem execGetStateSensorReadings_ends {env : Envelope} {sensor : BitVec 16} {s0 s : State} (h : Kept s0 s) :
    Ends s0 (execGetStateSensorReadings env sensor s) := by
  unfold execGetStateSensorReadings
  refine Ends.next ?_
  with_reducible repeat' first
    | exact h
    | refine State.send_kept ?_
    | refine pldmTwo_kept (fun x  hx => ?_) ?_
    | refine Kept.ite ?_ ?_
    | assumption
    | (intro hx; clear_value x)
    | (intro x; refine Kept.cut (s := s0) (x := x) ?_ ?_)
    | (intro x; refine Kept.cut (s := s0) (x := x.1) ?_ ?_)
    | (intro x; clear_value x)
    | lift_lets -underBinder
    | split

theorem execSetEventReceiver_ends {env : Envelope} {receiver : Option (BitVec 8)} {s0 s : State} (h : Kept s0 s) :
    Ends s0 (execSetEventReceiver env receiver s) := by
  unfold execSetEventReceiver
  refine Ends.next ?_
  with_reducible repeat' first
    | exact h
    | refine State.send_kept ?_
    | refine setMgmt_kept ?_
    | refine pldmTwo_kept (fun x  hx => ?_) ?_
    | assumption
    | (refine Kept.upd ?_; first | assumption | refine State.send_kept ?_ | refine setMgmt_kept ?_ | refine pldmTwo_kept (fun x  hx => ?_) ?_)

theorem execPollForPlatformEventMessage_ends {env : Envelope} {s0 s : State} (h : Kept s0 s) :
    Ends s0 (execPollForPlatformEventMessage env s) := by
  unfold execPollForPlatformEventMessage
  refine Ends.next ?_
  with_reducible repeat' first
    | exact h
    | refine State.send_kept ?_
    | refine setMgmt_kept ?_
    | refine pldmTwo_kept (fun x  hx => ?_) ?_
    | assumption
    | split
    | refine Kept.of_fst (by assumption) ?_
    | (refine Kept.upd ?_; first | assumption | refine State.send_kept ?_ | refine setMgmt_kept ?_ | refine pldmTwo_kept (fun x  hx => ?_) ?_)

theorem pldmFive_kept {e : Envelope} {f : State → State} {s0 s : State} (h_f : ∀ x , Kept s0 x → Kept s0 (f x )) (h : Kept s0 s) :
    Kept s0 (pldmFive s e f) := by
  unfold pldmFive
  with_reducible repeat' first
    | exact h
    | refine h_f _ ?_
    | refine State.send_kept ?_
    | refine accept_kept (fun x  hx => ?_) ?_
    | refine Kept.ite ?_ ?_
    | assumption
    | split

theorem inUpdate_kept {e : Envelope} {f : State → Update → State} {s0 s : State} (h_f : ∀ x a0, Kept s0 x → Kept s0 (f x a0)) (h : Kept s0 s) :
    Kept s0 (inUpdate s e f) := by
  unfold inUpdate
  with_reducible repeat' first
    | exact h
    | refine h_f _ _ ?_
    | refine State.send_kept ?_
    | refine pldmFive_kept (fun x  hx => ?_) ?_
    | assumption
    | split
    | refine Kept.of_fst (by assumption) ?_

theorem setUpdate_kept {u : Option Update} {s0 s : State} (h : Kept s0 s) :
    Kept s0 (setUpdate s u) := by
  unfold setUpdate
  with_reducible repeat' first
    | exact h
    | refine setMgmt_kept ?_
    | (refine Kept.upd ?_; first | assumption | refine setMgmt_kept ?_)

theorem outOfState_kept {s0 s : State} (h : Kept s0 s) :
    Kept s0 (outOfState s) := by
  unfold outOfState
  with_reducible repeat' first
    | exact h
    | refine State.send_kept ?_

theorem execQueryDeviceIdentifiers_ends {env : Envelope} {s0 s : State} (h : Kept s0 s) :
    Ends s0 (execQueryDeviceIdentifiers env s) := by
  unfold execQueryDeviceIdentifiers
  refine Ends.next ?_
  with_reducible repeat' first
    | exact h
    | refine State.drew_kept ?_
    | refine State.send_kept ?_
    | refine pldmFive_kept (fun x  hx => ?_) ?_
    | assumption

theorem execGetFirmwareParameters_ends {env : Envelope} {s0 s : State} (h : Kept s0 s) :
    Ends s0 (execGetFirmwareParameters env s) := by
  unfold execGetFirmwareParameters
  refine Ends.next ?_
  with_reducible repeat' first
    | exact h
    | refine State.drew_kept ?_
    | refine State.send_kept ?_
    | refine pldmFive_kept (fun x  hx => ?_) ?_
    | refine Kept.ite ?_ ?_
    | assumption
    | split

theorem execRequestUpdate_ends {env : Envelope} {s0 s : State} (h : Kept s0 s) :
    Ends s0 (execRequestUpdate env s) := by
  unfold execRequestUpdate
  refine Ends.next ?_
  with_reducible repeat' first
    | exact h
    | refine State.send_kept ?_
    | refine pldmFive_kept (fun x  hx => ?_) ?_
    | refine setUpdate_kept ?_
    | refine Kept.ite ?_ ?_
    | assumption
    | split

theorem execPassComponentTable_ends {env : Envelope} {component : BitVec 16} {other : Option (List (BitVec 8))} {s0 s : State} (h : Kept s0 s) :
    Ends s0 (execPassComponentTable env component other s) := by
  unfold execPassComponentTable
  refine Ends.next ?_
  with_reducible repeat' first
    | exact h
    | refine State.send_kept ?_
    | refine inUpdate_kept (fun x a0 hx => ?_) ?_
    | refine setUpdate_kept ?_
    | refine outOfState_kept ?_
    | refine Kept.ite ?_ ?_
    | assumption
    | (intro hx; clear_value x)
    | (intro x; refine Kept.cut (s := s0) (x := x) ?_ ?_)
    | (intro x; refine Kept.cut (s := s0) (x := x.1) ?_ ?_)
    | (intro x; clear_value x)
    | lift_lets -underBinder
    | split
    | (refine Kept.upd ?_; first | assumption | refine State.send_kept ?_ | refine inUpdate_kept (fun x a0 hx => ?_) ?_ | refine setUpdate_kept ?_ | refine outOfState_kept ?_ | refine Kept.ite ?_ ?_)

theorem requestPiece_kept {u : Update} {s0 s : State} (h : Kept s0 s) :
    Kept s0 (requestPiece s u) := by
  unfold requestPiece
  with_reducible repeat' first
    | exact h
    | refine State.send_kept ?_
    | refine Kept.ite ?_ ?_
    | split

theorem execUpdateComponent_ends {env : Envelope} {component : BitVec 16} {length : BitVec 32} {s0 s : State} (h : Kept s0 s) :
    Ends s0 (execUpdateComponent env component length s) := by
  unfold execUpdateComponent
  refine Ends.next ?_
  with_reducible repeat' first
    | exact h
    | refine State.send_kept ?_
    | refine inUpdate_kept (fun x a0 hx => ?_) ?_
    | refine setUpdate_kept ?_
    | refine outOfState_kept ?_
    | refine requestPiece_kept ?_
    | refine Kept.ite ?_ ?_
    | assumption
    | (intro hx; clear_value x)
    | (intro x; refine Kept.cut (s := s0) (x := x) ?_ ?_)
    | (intro x; refine Kept.cut (s := s0) (x := x.1) ?_ ?_)
    | (intro x; clear_value x)
    | lift_lets -underBinder
    | split
    | (refine Kept.upd ?_; first | assumption | refine State.send_kept ?_ | refine inUpdate_kept (fun x a0 hx => ?_) ?_ | refine setUpdate_kept ?_ | refine outOfState_kept ?_ | refine requestPiece_kept ?_ | refine Kept.ite ?_ ?_)

theorem execFirmwareDataResponse_ends {env : Envelope} {bytes : List (BitVec 8)} {s0 s : State} (h : Kept s0 s) :
    Ends s0 (execFirmwareDataResponse env bytes s) := by
  unfold execFirmwareDataResponse
  refine Ends.next ?_
  with_reducible repeat' first
    | exact h
    | refine State.send_kept ?_
    | refine inUpdate_kept (fun x a0 hx => ?_) ?_
    | refine setUpdate_kept ?_
    | refine requestPiece_kept ?_
    | refine Kept.ite ?_ ?_
    | assumption
    | (intro hx; clear_value x)
    | (intro x; refine Kept.cut (s := s0) (x := x) ?_ ?_)
    | (intro x; refine Kept.cut (s := s0) (x := x.1) ?_ ?_)
    | (intro x; clear_value x)
    | lift_lets -underBinder
    | split
    | (refine Kept.upd ?_; first | assumption | refine State.send_kept ?_ | refine inUpdate_kept (fun x a0 hx => ?_) ?_ | refine setUpdate_kept ?_ | refine requestPiece_kept ?_ | refine Kept.ite ?_ ?_)

theorem execTransferComplete_ends {slot : Option (List (BitVec 8))} {s0 s : State} (h : Kept s0 s) :
    Ends s0 (execTransferComplete slot s) := by
  unfold execTransferComplete
  refine Ends.next ?_
  with_reducible repeat' first
    | exact h
    | refine State.send_kept ?_
    | refine event_kept ?_
    | refine setUpdate_kept ?_
    | refine Kept.ite ?_ ?_
    | assumption
    | (intro hx; clear_value x)
    | (intro x; refine Kept.cut (s := s0) (x := x) ?_ ?_)
    | (intro x; refine Kept.cut (s := s0) (x := x.1) ?_ ?_)
    | (intro x; clear_value x)
    | lift_lets -underBinder
    | split
    | refine Kept.of_fst (by assumption) ?_
    | (unfold x; split)
    | (refine Kept.upd ?_; first | assumption | refine State.send_kept ?_ | refine event_kept ?_ | refine setUpdate_kept ?_ | refine Kept.ite ?_ ?_)

theorem execActivateFirmware_ends {env : Envelope} {s0 s : State} (h : Kept s0 s) :
    Ends s0 (execActivateFirmware env s) := by
  unfold execActivateFirmware
  refine Ends.next ?_
  with_reducible repeat' first
    | exact h
    | refine State.send_kept ?_
    | refine runPackage_kept ?_
    | refine inUpdate_kept (fun x a0 hx => ?_) ?_
    | refine setUpdate_kept ?_
    | refine outOfState_kept ?_
    | refine Kept.ite ?_ ?_
    | assumption
    | (intro hx; clear_value x)
    | (intro x; refine Kept.cut (s := s0) (x := x) ?_ ?_)
    | (intro x; refine Kept.cut (s := s0) (x := x.1) ?_ ?_)
    | (intro x; clear_value x)
    | lift_lets -underBinder
    | split

theorem execGetStatus_ends {env : Envelope} {s0 s : State} (h : Kept s0 s) :
    Ends s0 (execGetStatus env s) := by
  unfold execGetStatus
  refine Ends.next ?_
  with_reducible repeat' first
    | exact h
    | refine State.send_kept ?_
    | refine pldmFive_kept (fun x  hx => ?_) ?_
    | assumption

theorem execCancelUpdateComponent_ends {env : Envelope} {s0 s : State} (h : Kept s0 s) :
    Ends s0 (execCancelUpdateComponent env s) := by
  unfold execCancelUpdateComponent
  refine Ends.next ?_
  with_reducible repeat' first
    | exact h
    | refine State.send_kept ?_
    | refine inUpdate_kept (fun x a0 hx => ?_) ?_
    | refine setUpdate_kept ?_
    | refine outOfState_kept ?_
    | refine Kept.ite ?_ ?_
    | assumption
    | split
    | (refine Kept.upd ?_; first | assumption | refine State.send_kept ?_ | refine inUpdate_kept (fun x a0 hx => ?_) ?_ | refine setUpdate_kept ?_ | refine outOfState_kept ?_ | refine Kept.ite ?_ ?_)

theorem execCancelUpdate_ends {env : Envelope} {s0 s : State} (h : Kept s0 s) :
    Ends s0 (execCancelUpdate env s) := by
  unfold execCancelUpdate
  refine Ends.next ?_
  with_reducible repeat' first
    | exact h
    | refine State.send_kept ?_
    | refine inUpdate_kept (fun x a0 hx => ?_) ?_
    | refine setUpdate_kept ?_
    | assumption

end Sys2Proof.Machine
end

