-- ==== Sys2Proof/Laws/KeptLineEdge.lean ====
section
/-! SUPPORT. What every step keeps, through the functions of LineEdge. -/

set_option linter.all false
set_option maxRecDepth 8000

namespace Sys2Proof.Machine

theorem supplyLine_kept {e : EdgeInput} {s0 s : State} (h : Kept s0 s) :
    Kept s0 (supplyLine s e) := by
  unfold supplyLine
  with_reducible repeat' first
    | exact h
    | refine State.put_kept ?_
    | refine setPower_kept ?_
    | refine setCol_kept ?_
    | refine tickRtc_kept ?_
    | assumption
    | (intro hx; clear_value x)
    | (intro x; refine Kept.cut (s := s0) (x := x) ?_ ?_)
    | (intro x; refine Kept.cut (s := s0) (x := x.1) ?_ ?_)
    | (intro x; clear_value x)
    | lift_lets -underBinder
    | (refine Kept.upd ?_; first | assumption | refine State.put_kept ?_ | refine setPower_kept ?_ | refine setCol_kept ?_ | refine tickRtc_kept ?_)

theorem bufferLine_kept {s0 s : State} (h : Kept s0 s) :
    Kept s0 (bufferLine s) := by
  unfold bufferLine
  with_reducible repeat' first
    | exact h
    | refine State.put_kept ?_
    | refine State.inc_kept ?_
    | refine State.each_kept ?_ (fun x a hx => ?_)
    | refine setFabric_kept ?_
    | refine drainReserve_kept ?_
    | assumption
    | (intro hx; clear_value x)
    | (intro x; refine Kept.cut (s := s0) (x := x) ?_ ?_)
    | (intro x; refine Kept.cut (s := s0) (x := x.1) ?_ ?_)
    | (intro x; clear_value x)
    | lift_lets -underBinder
    | (refine Kept.upd ?_; first | assumption | refine State.put_kept ?_ | refine State.inc_kept ?_ | refine State.each_kept ?_ (fun x a hx => ?_) | refine setFabric_kept ?_ | refine drainReserve_kept ?_)

theorem fuseLine_kept {e : EdgeInput} {s0 s : State} (h : Kept s0 s) :
    Kept s0 (fuseLine s e) := by
  unfold fuseLine
  with_reducible repeat' first
    | exact h
    | refine pump_kept ?_
    | refine programmed_kept ?_
    | refine Kept.ite ?_ ?_
    | refine Kept.ite_fst ?_ ?_
    | split

theorem countedLine_kept {e : EdgeInput} {s0 s : State} (h : Kept s0 s) :
    Kept s0 (countedLine s e) := by
  unfold countedLine
  with_reducible repeat' first
    | exact h
    | refine State.each_kept ?_ (fun x a hx => ?_)
    | refine dieStops_kept ?_
    | refine copyStep_kept ?_
    | refine countFlits_kept ?_
    | refine thermalEdge_kept ?_
    | refine takeShutdown_kept ?_
    | refine supplyLine_kept ?_
    | refine bufferLine_kept ?_
    | refine fuseLine_kept ?_
    | refine Kept.ite ?_ ?_
    | assumption
    | (intro hx; clear_value x)
    | (intro x; refine Kept.cut (s := s0) (x := x) ?_ ?_)
    | (intro x; refine Kept.cut (s := s0) (x := x.1) ?_ ?_)
    | (intro x; clear_value x)
    | lift_lets -underBinder
    | split
    | refine Kept.of_fst (by assumption) ?_

theorem folioLine_kept {s0 s : State} (h : Kept s0 s) :
    Kept s0 (folioLine s) := by
  unfold folioLine
  with_reducible repeat' first
    | exact h
    | refine channelFolio_kept ?_
    | refine laneFolio_kept ?_
    | refine updateSensors_kept ?_

theorem freeDue_kept {s0 s : State} (h : Kept s0 s) :
    Kept s0 (freeDue s) := by
  unfold freeDue
  with_reducible repeat' first
    | exact h
    | refine Kept.ite ?_ ?_
    | refine foldl_kept ?_ fun x a hx => ?_
    | refine foldl_kept_fst ?_ fun x a hx => ?_
    | split
    | (refine Kept.upd ?_; first | assumption | refine Kept.ite ?_ ?_)

theorem execLineEdge_ends {edge : EdgeInput} {s0 s : State} (h : Kept s0 s) :
    Ends s0 (execLineEdge edge s) := by
  unfold execLineEdge
  refine Ends.next ?_
  with_reducible repeat' first
    | exact h
    | refine accountEdge_kept ?_
    | refine ruleEdge_kept ?_
    | refine calendarEdge_kept ?_
    | refine countedLine_kept ?_
    | refine folioLine_kept ?_
    | refine freeDue_kept ?_
    | refine Kept.ite ?_ ?_
    | assumption
    | (intro hx; clear_value x)
    | (intro x; refine Kept.cut (s := s0) (x := x) ?_ ?_)
    | (intro x; refine Kept.cut (s := s0) (x := x.1) ?_ ?_)
    | (intro x; clear_value x)
    | lift_lets -underBinder
    | split

theorem execJump_ends {elapsed : Fin 1024} {edge : EdgeInput} {s0 s : State} (h : Kept s0 s) :
    Ends s0 (execJump elapsed edge s) := by
  unfold execJump
  refine Ends.next ?_
  with_reducible repeat' first
    | exact h
    | refine State.each_kept ?_ (fun x a hx => ?_)
    | refine jumpWindow_kept ?_
    | refine sampleUrgency_kept ?_
    | refine releaseHeld_kept ?_
    | refine announceAll_kept ?_
    | refine startPtm_kept ?_
    | refine pulseOut_kept ?_
    | refine trimOsc_kept ?_
    | refine ruleJump_kept ?_
    | refine calendarEdge_kept ?_
    | refine countedLine_kept ?_
    | refine folioLine_kept ?_
    | refine freeDue_kept ?_
    | refine Kept.ite ?_ ?_
    | assumption
    | (intro hx; clear_value x)
    | (intro x; refine Kept.cut (s := s0) (x := x) ?_ ?_)
    | (intro x; refine Kept.cut (s := s0) (x := x.1) ?_ ?_)
    | (intro x; clear_value x)
    | lift_lets -underBinder
    | split

end Sys2Proof.Machine
end

