-- ==== Sys2Proof/Laws/KeptSpdm.lean ====
section
/-! SUPPORT. What every step keeps, through the functions of Spdm. -/

set_option linter.all false
set_option maxRecDepth 8000

namespace Sys2Proof.Machine

theorem setConn_kept {e : Envelope} {c : SpdmConn} {s0 s : State} (h : Kept s0 s) :
    Kept s0 (setConn s e c) := by
  unfold setConn
  with_reducible repeat' first
    | exact h
    | refine setMgmt_kept ?_
    | (refine Kept.upd ?_; first | assumption | refine setMgmt_kept ?_)

theorem spdm_kept {e : Envelope} {f : State → State} {s0 s : State} (h_f : ∀ x , Kept s0 x → Kept s0 (f x )) (h : Kept s0 s) :
    Kept s0 (spdm s e f) := by
  unfold spdm
  with_reducible repeat' first
    | exact h
    | refine h_f _ ?_
    | refine State.send_kept ?_
    | refine accept_kept (fun x  hx => ?_) ?_
    | refine Kept.ite ?_ ?_
    | assumption
    | split

theorem negotiated_kept {e : Envelope} {f : State → State} {s0 s : State} (h_f : ∀ x , Kept s0 x → Kept s0 (f x )) (h : Kept s0 s) :
    Kept s0 (negotiated s e f) := by
  unfold negotiated
  with_reducible repeat' first
    | exact h
    | refine h_f _ ?_
    | refine spdmError_kept ?_
    | refine spdm_kept (fun x  hx => ?_) ?_
    | refine Kept.ite ?_ ?_
    | assumption
    | split

theorem execGetVersion_ends {env : Envelope} {s0 s : State} (h : Kept s0 s) :
    Ends s0 (execGetVersion env s) := by
  unfold execGetVersion
  refine Ends.next ?_
  with_reducible repeat' first
    | exact h
    | refine State.send_kept ?_
    | refine setConn_kept ?_
    | refine spdm_kept (fun x  hx => ?_) ?_
    | assumption

theorem execGetCapabilities_ends {env : Envelope} {s0 s : State} (h : Kept s0 s) :
    Ends s0 (execGetCapabilities env s) := by
  unfold execGetCapabilities
  refine Ends.next ?_
  with_reducible repeat' first
    | exact h
    | refine State.send_kept ?_
    | refine spdmError_kept ?_
    | refine setConn_kept ?_
    | refine spdm_kept (fun x  hx => ?_) ?_
    | refine Kept.ite ?_ ?_
    | assumption
    | split
    | (refine Kept.upd ?_; first | assumption | refine State.send_kept ?_ | refine spdmError_kept ?_ | refine setConn_kept ?_ | refine spdm_kept (fun x  hx => ?_) ?_ | refine Kept.ite ?_ ?_)

theorem execNegotiateAlgorithms_ends {env : Envelope} {common : Bool} {s0 s : State} (h : Kept s0 s) :
    Ends s0 (execNegotiateAlgorithms env common s) := by
  unfold execNegotiateAlgorithms
  refine Ends.next ?_
  with_reducible repeat' first
    | exact h
    | refine State.send_kept ?_
    | refine spdmError_kept ?_
    | refine setConn_kept ?_
    | refine spdm_kept (fun x  hx => ?_) ?_
    | refine Kept.ite ?_ ?_
    | assumption
    | split
    | (refine Kept.upd ?_; first | assumption | refine State.send_kept ?_ | refine spdmError_kept ?_ | refine setConn_kept ?_ | refine spdm_kept (fun x  hx => ?_) ?_ | refine Kept.ite ?_ ?_)

theorem execGetDigests_ends {env : Envelope} {s0 s : State} (h : Kept s0 s) :
    Ends s0 (execGetDigests env s) := by
  unfold execGetDigests
  refine Ends.next ?_
  with_reducible repeat' first
    | exact h
    | refine State.send_kept ?_
    | refine spdmError_kept ?_
    | refine negotiated_kept (fun x  hx => ?_) ?_
    | refine Kept.ite ?_ ?_
    | assumption
    | split

theorem execGetCertificate_ends {env : Envelope} {slot : Fin 16} {offset : BitVec 16} {length : BitVec 16} {s0 s : State} (h : Kept s0 s) :
    Ends s0 (execGetCertificate env slot offset length s) := by
  unfold execGetCertificate
  refine Ends.next ?_
  with_reducible repeat' first
    | exact h
    | refine State.send_kept ?_
    | refine spdmError_kept ?_
    | refine negotiated_kept (fun x  hx => ?_) ?_
    | refine Kept.ite ?_ ?_
    | assumption
    | (intro hx; clear_value x)
    | (intro x; refine Kept.cut (s := s0) (x := x) ?_ ?_)
    | (intro x; refine Kept.cut (s := s0) (x := x.1) ?_ ?_)
    | (intro x; clear_value x)
    | lift_lets -underBinder
    | split

theorem execChallenge_ends {env : Envelope} {slot : Fin 16} {s0 s : State} (h : Kept s0 s) :
    Ends s0 (execChallenge env slot s) := by
  unfold execChallenge
  refine Ends.next ?_
  with_reducible repeat' first
    | exact h
    | refine State.drew_kept ?_
    | refine State.send_kept ?_
    | refine spdmError_kept ?_
    | refine negotiated_kept (fun x  hx => ?_) ?_
    | refine Kept.ite ?_ ?_
    | assumption
    | split

theorem execGetMeasurements_ends {env : Envelope} {index : BitVec 8} {sign : Bool} {s0 s : State} (h : Kept s0 s) :
    Ends s0 (execGetMeasurements env index sign s) := by
  unfold execGetMeasurements
  refine Ends.next ?_
  with_reducible repeat' first
    | exact h
    | refine State.drew_kept ?_
    | refine State.send_kept ?_
    | refine spdmError_kept ?_
    | refine negotiated_kept (fun x  hx => ?_) ?_
    | refine Kept.ite ?_ ?_
    | assumption
    | (intro hx; clear_value x)
    | (intro x; refine Kept.cut (s := s0) (x := x) ?_ ?_)
    | (intro x; refine Kept.cut (s := s0) (x := x.1) ?_ ?_)
    | (intro x; clear_value x)
    | lift_lets -underBinder
    | split

theorem setSession_kept {id : Nat} {x0 : Session} {s0 s : State} (h : Kept s0 s) :
    Kept s0 (setSession s id x0) := by
  unfold setSession
  with_reducible repeat' first
    | exact h
    | refine setMgmt_kept ?_
    | (refine Kept.upd ?_; first | assumption | refine setMgmt_kept ?_)

theorem endSession_kept {id : Nat} {s0 s : State} (h : Kept s0 s) :
    Kept s0 (endSession s id) := by
  unfold endSession
  with_reducible repeat' first
    | exact h
    | refine setMgmt_kept ?_
    | (refine Kept.upd ?_; first | assumption | refine setMgmt_kept ?_)

theorem inSession_kept {e : Envelope} {id : Nat} {f : State → Session → State} {s0 s : State} (h_f : ∀ x a0, Kept s0 x → Kept s0 (f x a0)) (h : Kept s0 s) :
    Kept s0 (inSession s e id f) := by
  unfold inSession
  with_reducible repeat' first
    | exact h
    | refine h_f _ _ ?_
    | refine spdmError_kept ?_
    | refine spdm_kept (fun x  hx => ?_) ?_
    | assumption
    | split
    | refine Kept.of_fst (by assumption) ?_

theorem execKeyExchange_ends {env : Envelope} {session : BitVec 32} {s0 s : State} (h : Kept s0 s) :
    Ends s0 (execKeyExchange env session s) := by
  unfold execKeyExchange
  refine Ends.next ?_
  with_reducible repeat' first
    | exact h
    | refine State.drew_kept ?_
    | refine State.send_kept ?_
    | refine spdmError_kept ?_
    | refine negotiated_kept (fun x  hx => ?_) ?_
    | refine setSession_kept ?_
    | refine Kept.ite ?_ ?_
    | refine Kept.ite_fst ?_ ?_
    | assumption
    | split

theorem execFinish_ends {env : Envelope} {session : BitVec 32} {verified : Bool} {s0 s : State} (h : Kept s0 s) :
    Ends s0 (execFinish env session verified s) := by
  unfold execFinish
  refine Ends.next ?_
  with_reducible repeat' first
    | exact h
    | refine State.send_kept ?_
    | refine spdmError_kept ?_
    | refine setSession_kept ?_
    | refine endSession_kept ?_
    | refine inSession_kept (fun x a0 hx => ?_) ?_
    | refine Kept.ite ?_ ?_
    | assumption
    | split
    | (refine Kept.upd ?_; first | assumption | refine State.send_kept ?_ | refine spdmError_kept ?_ | refine setSession_kept ?_ | refine endSession_kept ?_ | refine inSession_kept (fun x a0 hx => ?_) ?_ | refine Kept.ite ?_ ?_)

theorem execGetEncapsulatedRequest_ends {env : Envelope} {session : BitVec 32} {s0 s : State} (h : Kept s0 s) :
    Ends s0 (execGetEncapsulatedRequest env session s) := by
  unfold execGetEncapsulatedRequest
  refine Ends.next ?_
  with_reducible repeat' first
    | exact h
    | refine State.send_kept ?_
    | refine spdmError_kept ?_
    | refine inSession_kept (fun x a0 hx => ?_) ?_
    | refine Kept.ite ?_ ?_
    | assumption
    | split

theorem execDeliverEncapsulatedResponse_ends {env : Envelope} {session : BitVec 32} {leaf : BitVec 256} {root : BitVec 256} {valid : Bool} {s0 s : State} (h : Kept s0 s) :
    Ends s0 (execDeliverEncapsulatedResponse env session leaf root valid s) := by
  unfold execDeliverEncapsulatedResponse
  refine Ends.next ?_
  with_reducible repeat' first
    | exact h
    | refine State.send_kept ?_
    | refine spdmError_kept ?_
    | refine setSession_kept ?_
    | refine inSession_kept (fun x a0 hx => ?_) ?_
    | refine Kept.ite ?_ ?_
    | assumption
    | split
    | (refine Kept.upd ?_; first | assumption | refine State.send_kept ?_ | refine spdmError_kept ?_ | refine setSession_kept ?_ | refine inSession_kept (fun x a0 hx => ?_) ?_ | refine Kept.ite ?_ ?_)

theorem execHeartbeat_ends {env : Envelope} {session : BitVec 32} {s0 s : State} (h : Kept s0 s) :
    Ends s0 (execHeartbeat env session s) := by
  unfold execHeartbeat
  refine Ends.next ?_
  with_reducible repeat' first
    | exact h
    | refine State.send_kept ?_
    | refine spdmError_kept ?_
    | refine inSession_kept (fun x a0 hx => ?_) ?_
    | refine Kept.ite ?_ ?_
    | assumption
    | split

theorem execKeyUpdate_ends {env : Envelope} {session : BitVec 32} {s0 s : State} (h : Kept s0 s) :
    Ends s0 (execKeyUpdate env session s) := by
  unfold execKeyUpdate
  refine Ends.next ?_
  with_reducible repeat' first
    | exact h
    | refine State.send_kept ?_
    | refine spdmError_kept ?_
    | refine inSession_kept (fun x a0 hx => ?_) ?_
    | refine Kept.ite ?_ ?_
    | assumption
    | split

theorem execEndSession_ends {env : Envelope} {session : BitVec 32} {s0 s : State} (h : Kept s0 s) :
    Ends s0 (execEndSession env session s) := by
  unfold execEndSession
  refine Ends.next ?_
  with_reducible repeat' first
    | exact h
    | refine State.send_kept ?_
    | refine spdmError_kept ?_
    | refine endSession_kept ?_
    | refine inSession_kept (fun x a0 hx => ?_) ?_
    | refine Kept.ite ?_ ?_
    | assumption
    | split

theorem chunk_kept {e : Envelope} {name : String} {handle : Nat} {seq : Nat} {last : Bool} {s0 s : State} (h : Kept s0 s) :
    Kept s0 (chunk s e name handle seq last) := by
  unfold chunk
  with_reducible repeat' first
    | exact h
    | refine State.send_kept ?_
    | refine spdmError_kept ?_
    | refine setConn_kept ?_
    | refine spdm_kept (fun x  hx => ?_) ?_
    | refine Kept.ite ?_ ?_
    | assumption
    | (intro hx; clear_value x)
    | (intro x; refine Kept.cut (s := s0) (x := x) ?_ ?_)
    | (intro x; refine Kept.cut (s := s0) (x := x.1) ?_ ?_)
    | (intro x; clear_value x)
    | lift_lets -underBinder
    | split
    | refine Kept.of_fst (by assumption) ?_
    | (unfold x; split)
    | (refine Kept.upd ?_; first | assumption | refine State.send_kept ?_ | refine spdmError_kept ?_ | refine setConn_kept ?_ | refine spdm_kept (fun x  hx => ?_) ?_ | refine Kept.ite ?_ ?_)

theorem execChunkSend_ends {env : Envelope} {handle : BitVec 8} {seq : BitVec 16} {last : Bool} {s0 s : State} (h : Kept s0 s) :
    Ends s0 (execChunkSend env handle seq last s) := by
  unfold execChunkSend
  refine Ends.next ?_
  with_reducible repeat' first
    | exact h
    | refine chunk_kept ?_

theorem execChunkGet_ends {env : Envelope} {handle : BitVec 8} {seq : BitVec 16} {last : Bool} {s0 s : State} (h : Kept s0 s) :
    Ends s0 (execChunkGet env handle seq last s) := by
  unfold execChunkGet
  refine Ends.next ?_
  with_reducible repeat' first
    | exact h
    | refine chunk_kept ?_

end Sys2Proof.Machine
end

