-- ==== Sys2Proof/WellFormed.lean ====
section
/-! DEFINITION. Well-formed commands: what the type of an operand does not already say about a command that a sender, or
the world outside the node, can form. A command that is not well formed is never sent; `exec` is total all the same, and
no statement needs the premise unless it says so. -/

namespace Sys2Proof

/-- Whether no element of a list of operands stands twice. -/
def distinct {α : Type} [DecidableEq α] : List α → Bool
  | [] => true
  | a :: l => !l.contains a && distinct l

/-- A symbol of a line is wrong once (R133). -/
def ReadRun.wf (r : ReadRun) : Bool := distinct r.errors && distinct r.again

/-- A word that reads blank shows no data and no flag: all 39 bits read 0 at every margin (R477, R483). -/
def FuseReading.wf (r : FuseReading) : Bool :=
  !r.blank || (r.data == 0#32 && !r.corrected && !r.uncorrectable && !r.marginal)

/-- The flits FEC corrected and those it could not are flits received, and a lane is listed once (R249). -/
def FlitRun.wf (r : FlitRun) : Bool :=
  decide (r.corrected + r.uncorrectable ≤ r.flits) && distinct (r.lanes.map (·.1))
  && r.lanes.all fun (_, n, _) => decide (n ≤ r.flits)

/-- A line of a rank is read once in a spare copy, and each read is one (R135). -/
def CopyRun.wf (c : CopyRun) : Bool := distinct (c.reads.map fun x => (x.1, x.2.1)) && c.reads.all fun x => x.2.2.wf

/-- A sensor and a sub-link give one value a line, there are 16 nib clusters, the program pump's read-back is a reading, and a
channel's copy goes on once (R441, R448, R249, R486, R135). -/
def EdgeInput.wf (e : EdgeInput) : Bool :=
  distinct (e.samples.map (·.1)) && decide (e.milliwatts.length ≤ 16) && e.flits.all FlitRun.wf
  && distinct (e.flits.map fun r => (r.port, r.sub))
  && e.reading.wf && distinct (e.copies.map (·.chan)) && e.copies.all CopyRun.wf && distinct e.dies

/-- A fuse word and a sensor are read once, and the calendar sets that fail their check are told apart (R548). -/
def BootInput.wf (b : BootInput) : Bool :=
  distinct (b.readings.map (·.1)) && b.readings.all (·.2.wf) && distinct (b.sensors.map (·.1)) && distinct b.badSets

/-- An access to a lent leaf carries its key index and line state as stored (R164, R165), and a copy of a line is asked for
by a host alone. -/
def LinkReq.wf (r : LinkReq) : Bool := r.lent.isNone || (r.tee.isNone && r.cached == 0)

/-- Whether a sender, or the world outside the node, can form the command. -/
def Instr.wf : Instr → Bool
  | .lineEdge edge => edge.wf
  | .jump _ edge => edge.wf
  | .m2sReq req => req.wf
  | .m2sRwd req _ _ _ run => req.wf && run.wf
  | .commandPick _ _ busy => distinct busy
  | .readDataReturn _ run => run.wf
  | .rereadComplete _ run => run.wf
  | .mapCacheMissFill map => map.wf
  | .heatSweep map => map.wf
  | .mapSwitch run => run.map.wf
  | .spareCopyComplete _ reads => distinct (reads.map fun x => (x.1, x.2.1)) && reads.all fun x => x.2.2.wf
  | .retrainingPause _ low steps spare => distinct low && distinct (steps.map (·.1)) && spare.reads.all ReadRun.wf
  | .moveCopyComplete _ reads home => distinct (reads.map (·.1)) && (reads.all fun x => x.2.wf) && (home.isEmpty || home.length == 64)
  | .keyQuery _ ask => decide (ask.command ≠ 1 ∧ ask.command ≠ 2)
  | .recall _ _ slots => distinct slots
  | .equalizationPhaseEnd _ _ tried => distinct (tried.presets.map (·.1)) && decide (0 < tried.presets.length) && decide (tried.steps.length ≤ 24)
  | .pairForward _ _ _ _ _ errors _ => distinct errors.corrected
  | .marginStepComplete _ _ samples errors => decide (errors ≤ samples)
  | .addDcResponse _ _ quires => distinct quires
  | .releaseDynamicCapacity _ _ quires => distinct quires
  | .fuseProgramComplete _ reading => reading.wf
  | .fuseReadComplete reading => reading.wf
  | .resetRelease boot => boot.wf
  | .thermtripRestartCheck readings => distinct (readings.map (·.1))
  | .calHoldComplete _ _ values _ _ => distinct (values.map (·.1))
  | .towerTrainingComplete found => distinct found.spares && distinct found.tsvs && distinct (found.cals.map (·.1)) && distinct found.dies
  | .baseRubricsStart changed => distinct changed
  | .ownerProvision _ _ _ _ signature _ runs => signature.length == 2420 && runs.all (·.reading.wf)
  | .rollbackRaise _ _ _ _ _ _ runs => runs.all (·.reading.wf)
  | .st _ _ _ _ merge => merge.wf
  | .stx _ _ _ _ _ _ merge => merge.wf
  | .atomSwap _ _ _ _ _ _ merge => merge.wf
  | .atomAdd _ _ _ _ _ _ merge => merge.wf
  | .atomAnd _ _ _ _ _ _ merge => merge.wf
  | .atomOr _ _ _ _ _ _ merge => merge.wf
  | .atomXor _ _ _ _ _ _ merge => merge.wf
  | .atomMin _ _ _ _ _ _ merge => merge.wf
  | .atomMax _ _ _ _ _ _ merge => merge.wf
  | .atomMinu _ _ _ _ _ _ merge => merge.wf
  | .atomMaxu _ _ _ _ _ _ merge => merge.wf
  | .atomCas _ _ _ _ _ _ _ merge => merge.wf
  | .plPin run _ _ => run.map.wf
  | .plUnpin run _ _ => run.map.wf
  | .plHeat run _ _ => run.map.wf
  | .plMove run _ _ _ _ _ => run.map.wf
  | .plResolve run _ _ _ => run.map.wf
  | .itemFetch _ _ fetch => fetch.read.wf
  | .itemStart start => start.reads.all ReadRun.wf
  | .mailboxAreaWrite _ offset bytes => !bytes.isEmpty && decide (offset.toNat + bytes.length ≤ 65536)
  | _ => true

end Sys2Proof
end

