-- ==== Sys2Proof/Tests/Slice0.lean ====
section
/-! SUPPORT. Tests: for every statement states and operands that meet its hypotheses, a command that is not well formed for
each check of WellFormed, and values of the worked examples of the spec. -/

namespace Sys2Proof.Tests

open Sys2Proof.Machine

set_option Elab.async false

/-- The state after reset with register fields set: what the witnesses start from. -/
def node (l : List (Fld × Nat)) : State := l.foldl (fun s x => s.put x.1 x.2) State.reset

/-- The node with its rails up. -/
def live (l : List (Fld × Nat)) : State := { node l with power := { State.reset.power with rails := .up } }

/-! ### The statements of chapters 0 and 2 -/

theorem witness_EveryStepKeepsTheCanonicalForms :
    (node [(RUL_SOURCE_NONREVERTIVE, 1)]).deskWf = true ∧ Memory.wf (node [(RUL_SOURCE_NONREVERTIVE, 1)]).media = true ∧
    step (node [(RUL_SOURCE_NONREVERTIVE, 1)]) = .next (node [(RUL_SOURCE_NONREVERTIVE, 1)]) :=
  ⟨by decide +kernel, by decide +kernel, rfl⟩

theorem witness_StepRunsTheFrontCommand :
    ({ State.reset with pending := [.decisionEpoch, .chnPoolRead 255] } : State).pending = .decisionEpoch :: [.chnPoolRead 255] ∧
    State.reset.pending = [] := by decide +kernel

theorem witness_MemoryReadsBackWhatWasStored :
    (∀ q ∈ physWrite State.reset (locOfBank 255 15 1599), (physRead State.reset (locOfBank 255 15 1598)).addr 63 ≠ q.addr 63) ∧
    Memory.wf State.reset.media = true := by decide +kernel

theorem witness_AbsentUnitsReadZeroAndDropWrites :
    locate (PRT_PORT_CTRL_ROLE 63).addr = some (.PRT_PORT_CTRL, 63, 0) ∧ absentUnit .v2096 .PRT_PORT_CTRL 63 0 = true ∧
    absentUnit .v2096 .PRT_PORT_CTRL 32 0 = true ∧ absentUnit .v2096 .PRT_PORT_CTRL 31 0 = false := by decide +kernel

theorem witness_RegisterFieldsFollowTheirAccessCodes :
    (∃ f ∈ Reg.fields .RUL_SOURCE, f.acc = .rw) ∧ (∃ r : Reg, ∃ f ∈ r.fields, f.acc = .w1c) ∧ (∃ r : Reg, ∃ f ∈ r.fields, f.acc = .rwl) ∧
    ∃ r : Reg, ∃ f ∈ r.fields, f.acc = .wo :=
  ⟨by decide, ⟨.RUL_EVENT_FIRED, by decide⟩, ⟨.PWR_CLASS, by decide⟩, ⟨.RUL_ERRORS, by decide⟩⟩

/-- The node with the flywheel running and the Pin source's reception at a position. -/
def pinAt (l : List (Fld × Nat)) (pos : Option Nat) (bits : BitVec 128) : State :=
  { node l with ruling := { State.reset.ruling with running := true, pin := { State.reset.ruling.pin with pos := pos, bits := bits } } }

theorem witness_PinReceptionFollowsThePulses :
    ((pinAt [] (some 1022) 0).get RUL_STATUS_STATE ≠ 1 ∧ pulseClass 400 false = some 1 ∧ pulseClass 100 false = some 0) ∧
    (pulseClass 600 false = some 2 ∧ (pinAt [] (some 1023) 0).ruling.pin.pos = some 1023) ∧
    (pulseClass 0 false = none ∧ (pinAt [] (some 1022) 0).ruling.pin.pos ≠ none ∧ (pinAt [] (some 1022) 0).ruling.pin.pos ≠ some 1023) ∧
    ((pinAt [(RUL_STATUS_STATE, 1)] none 0).get RUL_STATUS_STATE = 1 ∧ (pinAt [(RUL_STATUS_STATE, 1)] none 0).ruling.running = true ∧
      256 < (257 - pinCompTicks (pinAt [(RUL_STATUS_STATE, 1)] none 0)).natAbs ∧
      (256 - pinCompTicks (pinAt [(RUL_STATUS_STATE, 1)] none 0)).natAbs ≤ 256) ∧
    (headerOk 1 = false ∧ (pinAt [] (some 128) 1).ruling.pin.pos = some 128 ∧ (pinAt [] (some 128) 1).ruling.pin.bits = 1) ∧
    (headerOk (ownHeader State.reset) = true ∧ (pinAt [] (some 128) (ownHeader State.reset)).ruling.pin.last = none ∧
      headerOk 0x000000F4240006955B90000071009517 = true ∧
      headersAgree 0x000000F423F006955B90000071009517 0x000000F4240006955B90000071009517 = true) := by decide +kernel

/-- A Peer link of port 3 that is up, with the ruling running. -/
def peered (r : PeerRul) : State :=
  { live [(PRT_PORT_CTRL_ROLE 3, 1), (linkStateF 3 0, 3), (LAN_PORT_STATUS_LINK_UP_0 3, 1), (RUL_LINK_OUT_ENABLE, 1), (RUL_PEER_FORWARD_ALL, 8)] with
    ruling := { State.reset.ruling with running := true, line := 1024, peers := [(3, r)] } }

theorem witness_RulingMessagesMoveTheirSources_peer :
    peerUp (peered {}) 3 = true ∧ (peered {}).ruling.running = true ∧
    ((1#256).toNat % 256 = 1 ∧ headerOk (payloadHeader 1) = false) ∧
    ((rulingPayload 1 3 0 (ownHeader State.reset) 0).toNat % 256 = 1 ∧
      headerOk (payloadHeader (rulingPayload 1 3 0 (ownHeader State.reset) 0)) = true ∧ (peerOf (peered {}) 3).last = none ∧
      (peerOf (peered { last := some (ownHeader State.reset) }) 3).last = some (ownHeader State.reset)) ∧
    (announcesOn (peered {}) 3 = true ∧ (2#256).toNat % 256 = 2) ∧
    ((3#256).toNat % 256 = 3 ∧ (peerOf (peered { asked := some (payloadSeq 3) }) 3).asked = some (payloadSeq 3) ∧
      (payloadT1 3).toNat + 256 ≤ 1048576 ∧
      (payloadT1 (rulingPayload 3 0 0 0x100000 0)).toNat = 1048576) := by decide +kernel

/-- The Host source waits to be taken back while Local is in use. -/
def revertible : State :=
  { live [(RUL_STATUS_STATE, 3), (RUL_STATUS_ACTIVE_SOURCE, 3), (RUL_STATUS_JUMP_PENDING, 1)] with
    ruling := { State.reset.ruling with
      running := true
      orderPending := some 4
      edges := 5
      quals := [(2, { qualified := true, folios := 255, used := true, lost := true })] } }

theorem witness_LineEdgeJumpAndSourceOrder :
    (revertible.ruling.running = true ∧
      ((sourceOrder revertible).takeWhile (· != revertible.get RUL_STATUS_ACTIVE_SOURCE)).contains 2 = true ∧
      revertible.get RUL_STATUS_STATE = 3 ∧ (qual revertible 2).qualified = true ∧ (qual revertible 2).used = true ∧
      (qual revertible 2).lost = true) ∧ (strapLocked State.reset 2 = false ∧ strapLocked State.reset 2 ≠ true) ∧
    (revertible.ruling.orderPending = some 4 ∧ revertible.ruling.line % 1024 = 0 ∧ 4 < revertible.ruling.edges) ∧
    (State.reset.get RUL_STATUS_JUMP_PENDING = 0 ∧ revertible.get RUL_STATUS_JUMP_PENDING = 1) ∧
    (revertible.power.rails = .up ∧ State.reset.ruling.running = false) := by decide +kernel

/-- Slot 63 armed and due, one-shot or periodic. -/
def slotted (periodic : Nat) : State :=
  { node [(RUL_EVENT_CTRL_ARMED 63, 1), (RUL_EVENT_CTRL_PERIODIC 63, periodic), (RUL_EVENT_TIME_ALL 63, 1)] with
    ruling := { State.reset.ruling with running := true, gen := 1, edges := 1 } }

theorem witness_RuledEventSlotsArmAndFire :
    slotDue (slotted 0) 63 = true ∧ slotDue (slotted 1) 63 = true ∧ (∀ m : Fin 63, slotDue (slotted 1) m = false) ∧
    (∀ m : Fin 63, slotDue (slotted 0) m = false) ∧
    (slotted 0).get (RUL_EVENT_CTRL_WRITE 63) = 0 ∧ (slotted 0).get (RUL_EVENT_CTRL_WAKE 63) = 0 ∧
    (slotted 0).ruling.line ≤ (slotted 0).get (RUL_EVENT_TIME_ALL 63) / 1024 ∧ (slotted 1).get (RUL_EVENT_CTRL_PERIODIC 63) = 1 ∧
    (slotted 0).get (RUL_EVENT_CTRL_PERIODIC 63) = 0 ∧ armChecks true false 0 0 = false ∧ armChecks true false 1 0 = true ∧
    (node []).get (RUL_EVENT_CTRL_ARMED 63) = 0 ∧ (slotted 0).get (RUL_EVENT_CTRL_ARMED 63) = 1 := by decide +kernel

/-! ### The statements of chapters 4 to 7 -/

/-- A read waiting for row 1598 of bank 271 of a channel. -/
def someRead : Req :=
  { access := { origin := .link 1 0 0 5 0, dpa := 63 * 64, key := 0, account := 4092 }, bank := 271, row := 1598, line := 63
    cls := .loose, level := 4 }

/-- A line buffered for that place. -/
def someLine : WLine := { bank := 271, row := 1598, line := 63, dpa := 63 * 64, content := {}, account := 4092 }

/-- Channel 255 with the fields given. -/
def onChan (c : Chan) : State := { live [] with chans := [(255, c)] }

/-- What a pick sees of channel 255. -/
def picked (c : Chan) : State := batch (fillPools (holdPooled (onChan c) 255) 255) 255 0

theorem witness_ChannelServesItsRequests_picks :
    (inService (onChan { pool := [someRead] }) 255 = true ∧ (chan (onChan { pool := [someRead] }) 255).discarded = [] ∧
      (chan (picked { pool := [someRead] }) 255).writeMode = false ∧
      choose (picked {}) 255 (readCands (picked {}) 255) 0 [] = none) ∧
    ((choose (picked { pool := [someRead] }) 255 (readCands (picked { pool := [someRead] }) 255) 0 []).isSome = true ∧
      (choose (picked { pool := [someRead] }) 255 (readCands (picked { pool := [someRead] }) 255) 0 []).map (·.bank) = some 271 ∧
      Tab.find (chan (picked { pool := [someRead] }) 255).openRow 271 ≠ some 1598 ∧
      Tab.find (chan (picked { pool := [someRead], openRow := [(271, 1598)] }) 255).openRow 271 = some 1598 ∧
      (choose (picked { pool := [someRead], openRow := [(271, 1598)] }) 255
        (readCands (picked { pool := [someRead], openRow := [(271, 1598)] }) 255) 0 []).map (fun x => (x.bank, x.row, x.idx)) = some (271, 1598, 0) ∧
      (chan (picked { pool := [someRead], openRow := [(271, 1598)] }) 255).pool[0]? = some someRead) ∧
    ((chan (picked { writes := [someLine], writeMode := true }) 255).writeMode = true ∧
      (choose (picked { writes := [someLine], writeMode := true }) 255
        (writeCands (picked { writes := [someLine], writeMode := true }) 255) 0 []).map (fun x => (x.bank, x.row, x.idx)) = some (271, 1598, 0) ∧
      (chan (picked { writes := [someLine], writeMode := true }) 255).writes[0]? = some someLine) ∧
    (chan (onChan { discarded := [ChanCmd.activate 271 1598] }) 255).discarded = ChanCmd.activate 271 1598 :: [] := by decide +kernel

theorem witness_ChannelServesItsRequests_returns :
    ((chan (onChan { issued := [⟨someRead, {}⟩] }) 255).issued = [⟨someRead, {}⟩] ∧
      decodes (onChan {}) 255 [] = true ∧ someRead.access.origin.lends = false ∧
      openLine (countDecode (onChan {}) 255 (physRead (onChan {}) (locOfBank 255 271 1598)).bankIndex 1598 []) (63 * 64) 0 {} = .data 0) ∧
    (readBack (onChan {}) 255 ⟨someRead, {}⟩ { errors := [0, 1, 39] }).2.isSome = true ∧
    ((chan (onChan { reread := [⟨someRead, {}⟩] }) 255).reread = [⟨someRead, {}⟩] ∧ (readBack (onChan {}) 255 ⟨someRead, {}⟩ {}).2 = none ∧
      decodes (readBack (onChan {}) 255 ⟨someRead, {}⟩ { errors := [0, 1, 39] }).1 255 [0, 1, 39] = false) := by decide +kernel

theorem witness_ChannelClosesAndRefreshesRows :
    (refreshable (onChan {}) 255 271 = true ∧ refreshDue { onChan {} with ruling := { running := true, gen := 4095 } } 255 271 = true
      ∧ refreshable { onChan {} with ruling := { running := true, gen := 4095 } } 255 271 = true ∧
      (∀ a : Fin 271, refreshLeft { onChan { refreshed := (List.range 271).map fun b => (b, 4095) } with
        ruling := { running := true, gen := 4095 } } 255 a = false)) ∧
    (chan (onChan {}) 255).backstopGen ≠ (onChan {}).ruling.gen + 1 ∧
    nextTargeted (chan (onChan { targeted := [(271, 1607)] }) 255) = some (271, 1607) ∧
    (chan (refreshBelow (onChan { targeted := [(271, 1607)] }) 255 271) 255).targetedGen ≠ (onChan { targeted := [(271, 1607)] }).ruling.gen + 1 := by
  decide +kernel

theorem witness_ChannelPausesRepairsAndRegisters_pauses :
    (255 < State.reset.variant.channels ∧ slotCounter (node [(CHN_PAUSE_INTERVAL_PHASE 255, 0)]) =
      (node [(CHN_PAUSE_INTERVAL_PHASE 255, 0)]).get (CHN_PAUSE_INTERVAL_PHASE 255) ∧ (chan (onChan {}) 255).paused = none ∧
      (chan (onChan {}) 255).pausedGen ≠ (onChan {}).ruling.gen + 1 ∧ (chan (onChan {}) 255).wokeGen ≠ (onChan {}).ruling.gen + 1 ∧
      (chan (onChan {}) 255).selfRefresh = false ∧ (onChan {}).get (CHN_REPAIR_STATE_STATE 255) ≠ 5) ∧
    (chan (onChan { paused := some none }) 255).paused = some none ∧
    (chan (onChan { paused := some (some { fails := true, reads := [] }) }) 255).paused = some (some { fails := true, reads := [] }) ∧
    (300 ≤ (onChan {}).get (CHN_PAUSE_INTERVAL_LENGTH_NS 255) ∧ 245 ≤ (onChan {}).get (CHN_PAUSE_INTERVAL_LENGTH_NS 255)) ∧
    (node [(CHN_PAUSE_INTERVAL_LENGTH_NS 255, 244)]).get (CHN_PAUSE_INTERVAL_LENGTH_NS 255) < 245 ∧
    (onChan {}).get (CHN_REPAIR_STATE_SPARE_STATE 255) = 0 ∧ (node [(CHN_REPAIR_STATE_SPARE_STATE 255, 1)]).get (CHN_REPAIR_STATE_SPARE_STATE 255) = 1 := by
  decide +kernel

theorem witness_ChannelPausesRepairsAndRegisters_repairs :
    (chan (onChan { caRepair := true }) 255).caRepair = true ∧ ((chan (onChan { alerts := [(14, 15)] }) 255).alerts = [(14, 15)]) ∧
    (caWires (onChan {}) 255).contains 11 = true ∧ (caWires (onChan {}) 255).contains 14 = false ∧
    (State.reset.flag { CHN_CA_TSV_FAILED_STROBE_COPY 255 with width := 14 } 13 = false ∧
      signalLost (recordRepair ((node [(CHN_CA_TSV_FAILED_ALERT_COPY 255, 1)]).setFlag { CHN_CA_TSV_FAILED_STROBE_COPY 255 with width := 14 } 13) 255 2 13) 255
        = true ∧ (node [(CHN_CA_TSV_FAILED_ALERT_COPY 255, 1)]).flag { CHN_CA_TSV_FAILED_STROBE_COPY 255 with width := 14 } 13 = false) ∧
    3 < State.reset.variant.towers ∧ absentUnit State.reset.variant .CHN_POOL 255 0 = false ∧ absentUnit .v2096 .CHN_POOL 255 0 = true ∧
    (64 < bitsOf (65 * 2 ^ 48) 48 8 ∧ 1 ≤ bitsOf 0x0010402018000032 48 8 ∧ bitsOf 0x0010402018000032 48 8 ≤ 64 ∧ 8 ≤ bitsOf 0x0010402008000032 40 8 ∧
      bitsOf 0x0010402008000032 24 8 + 16 < bitsOf 0x0010402008000032 32 8 ∧ 50 ≤ bitsOf 0x0010402008000032 0 16 ∧
      bitsOf 0x0010402008000032 0 16 ≤ 1000) := by decide +kernel

/-- A move of leaf 7 or of reserve quire 7 to channel 1 in move slot 63, and what the ruling has counted. -/
def moving (m : Move) (gen : Nat) : State :=
  { live [] with
    ruling := { State.reset.ruling with running := true, gen := gen }
    ductus := { State.reset.ductus with moves := [(63, m)], map := [(7, { moving := true })], cache := [(cacheSet 0, [0])] } }

/-- The move with a stage. -/
def someMove (stage : MoveStage) (quire : Bool) : Move :=
  { leaf := 7, quire := quire, cause := 1, dest := .local { chan := 1 }, source := {}, stage := stage, stageGen := 4 }

theorem witness_MovesGoThroughTheirStages_copies :
    (Tab.find (moving (someMove .copying true) 4).ductus.moves 63 = some (someMove .copying true) ∧
      copyCarried (moving (someMove .copying true) 4) (someMove .copying true) = true ∧ overCeiling (moving (someMove .copying true) 4) 4095 = false) ∧
    (Tab.find (moving (someMove .copying false) 4).ductus.moves 63 = some (someMove .copying false) ∧
      copyCarried (moving (someMove .copying false) 4) (someMove .copying false) = true ∧
      (someMove .copying false).ofLeaf = true ∧ (someMove .copying false).dest = .local { chan := 1 } ∧
      copyPoisoned (moving (someMove .copying false) 4) (someMove .copying false) = false ∧
      freshLeaf (moving (someMove .copying false) 4) 7 = false) := by decide +kernel

theorem witness_MovesGoThroughTheirStages_switches :
    (Tab.find (moving (someMove .armed false) 5).ductus.moves 63 = some (someMove .armed false) ∧
      (someMove .armed false).stageGen < (moving (someMove .armed false) 5).ruling.gen ∧
      (lookupBlock (moving (someMove .armed false) 5) 7 {}).2 = true ∧
      (leafEntry (lookupBlock (moving (someMove .armed false) 5) 7 {}).1 7).isSome = true) ∧
    (lookupBlock { moving (someMove .armed false) 5 with ductus := { State.reset.ductus with
      moves := [(63, someMove .armed false)], map := [(7, { moving := true })] } } 7
        { errors := [0, 1, 2], again := [0, 1, 2] }).2 = false ∧
    ((someMove .armed true).quire = true ∧ (someMove .armed true).dest = .local { chan := 1 }) ∧
    (Tab.find (moving (someMove .switched false) 5).ductus.moves 63 = some (someMove .switched false) ∧
      leafEntry (moving (someMove .switched false) 5) 7 = some { moving := true }) ∧
    (Tab.find (moving (someMove .done false) 5).ductus.moves 63 = some (someMove .done false) ∧
      (moving (someMove .done false) 5).ruling.gen ≠ (someMove .done false).stageGen) ∧
    rowBusy (moving (someMove .done false) 4) (someMove .done false).source = false := by decide +kernel

theorem witness_DuctusSweepsDecidesAndRecalls :
    (({ State.reset with ductus := { State.reset.ductus with missWait := [(9, .read someRead.access)] } } : State).ductus.missWait
      = (9, .read someRead.access) :: []) ∧ ((mapPlace State.reset 0).isSome = true) ∧
    (overCeiling State.reset 4095 = false ∧ overCeiling { node [(ACC_CFG_CLASS 4095, 2), (ACC_RATE_CEILING 4095, 1)] with
      accounts := { State.reset.accounts with acct := [(4095, { counted := 64 })] } } 4095 = true) ∧
    (live []).ruling.line % 1024 = 0 ∧ ({ live [] with ruling := { line := 1023 } } : State).ruling.line % 1024 ≠ 0 ∧
    baseRuns (takeEffect (takeLoad (freezeHeat (live [])))) 1 = false ∧
    baseRuns { node [(MBX_SCRIBE_HANDLE 7, 5), (MBX_SCRIBE_STATE 7, 1)] with rubrics := [(5, { handle := 5, role := 1, base := true })] } 1 = true ∧
    ((node [(PRT_PORT_CTRL_ROLE 63, 1)]).get (PRT_PORT_CTRL_ROLE 63) = 1 ∧ (node [(PRT_PORT_CTRL_ROLE 63, 1)]).fatal = false) ∧
    State.reset.variant ≠ .v2096 ∧ normalChan State.reset 255 = true ∧
    normalChan (node [(CHN_REPAIR_STATE_STATE 255, 1)]) (64 * 3 + 63) = false := by decide +kernel

/-- Account 4091, firm, owned by logical device 0 of sub-link 0 of port 0, with the regulator's state of it. -/
def account (x : Acct) : State :=
  { node [(ACC_CFG_CLASS 4091, 2)] with accounts := { State.reset.accounts with acct := [(4091, x)] } }

/-- An accepted record of account 4091, due on line 64. -/
def accepted (line : Nat) : State :=
  { node [(ACC_CFG_CLASS 4091, 2)] with
    ruling := { line := line }
    accounts := { State.reset.accounts with admitted := some ([(0x8000000000000FFB, 1)], true, 64) } }

theorem witness_AccountsTurnWindowsAndReportMisses :
    State.reset.accounts.admitted = none ∧
    ((accepted 63).accounts.admitted = some ([(0x8000000000000FFB, 1)], true, 64) ∧ (accepted 63).ruling.line < 64 ∧
      (accepted 64).ruling.line % 64 = 0 ∧ 64 ≤ (accepted 64).ruling.line ∧ bitsOf 0x8000000000000FFB 62 2 ≠ 0 ∧
      bitsOf 0x8000000000000FFB 0 12 = 4091 ∧ acctClass (accepted 64) 4091 ≠ 0) ∧
    ((acct (account { grace := some (64, 0, false), lines := 2 }) 4091).grace = some (64, 0, false) ∧
      2 ≤ (acct (account { grace := some (64, 0, false), lines := 2 }) 4091).lines ∧
      0 + (acct (account { grace := some (64, 0, false), lines := 2 }) 4091).counted < 64 ∧
      64 ≤ 0 + (acct (account { grace := some (64, 0, false), lines := 2, counted := 64 }) 4091).counted) ∧
    ((configured (account {})).find? (fun a => (account {}).get (ACC_CFG_OWNER a) == 0) = some 4091 ∧
      (configured (account {})).find? (fun a => (account {}).get (ACC_CFG_OWNER a) == 256 * 63 + 64 * 3 + 15) = none) := by decide +kernel

/-- A DEPLOYED node with an established session and entry 1023 of the key table in a state. -/
def keyed (st : Nat) : State :=
  { live [(FUS_STATUS_LIFECYCLE, 2), (SEL_KEY_ATTR_STATE 1023, st)] with
    mgmt := { State.reset.mgmt with sessions := [(9, { established := true, mutAuth := true })] } }

theorem witness_KeyTableLoadsClearsAndAnswers :
    (sessionOf (keyed 0) 9 = some { established := true, mutAuth := true } ∧ lifecycle (keyed 0) = 2) ∧ keyState (keyed 0) 1023 = 0 ∧
    keyState (keyed 1) 1023 = 1 ∧ keyState (keyed 2) 1023 = 2 ∧ (keyed 0).sealing.reseal = none ∧
    (sessionOf (keyed 1) 9).isSome = true ∧ (sessionOf (keyed 2) 9).isSome = true ∧
    lifecycle (keyed 1) = 2 ∧ lifecycle (keyed 2) = 2 ∧ sessionOf (keyed 0) 10 = none := by decide +kernel

theorem witness_TspCommandsActOnTheirDevice :
    tspTo (live [(PRT_PORT_CTRL_ROLE 31, 0), (linkStateF 31 3, 3), (PRT_LD_VALID 31 15, 1), (PRT_LD_SUB_LINK 31 15, 3)]) 31 3 15 = true ∧
    (live []).sealing.reseal = none := by decide +kernel

/-- A port whose IDE key messages its own session carries. -/
def ideNode (ks : List (Nat × BitVec 256)) : State :=
  { live [(FUS_STATUS_LIFECYCLE, 2), (PRT_PORT_CTRL_ROLE 31, 0)] with
    mgmt := { State.reset.mgmt with sessions := [(9, { port := some 31, established := true, mutAuth := true })] }
    sealing := { State.reset.sealing with ide := [(62, ⟨ks⟩), (63, ⟨ks⟩)] } }

theorem witness_ResealsAndLinkIde :
    ((0#64).getLsbD 0 = false ∧ (1#64).getLsbD 0 = true ∧ bitsOf 1 48 10 = 0) ∧
    (bitsOf 0x0001800000070001 48 10 = 1 ∧ bitsOf 0x0001800000070001 45 3 = 4 ∧ bitsOf 0x0001800000070001 16 27 = 7) ∧
    (({ live [] with sealing := { State.reset.sealing with reseal := some ⟨1, 4, 7⟩ } } : State).sealing.reseal ≠ none) ∧
    (State.reset.sealing.reseal = none ∧ State.reset.fabric.adding = none ∧ keyState (node [(SEL_KEY_ATTR_STATE 1, 1)]) 1 ≠ 0 ∧
      leavesUnder (node [(SEL_KEY_ATTR_STATE 1, 1)]) 4 7 = []) ∧
    (({ live [] with sealing := { State.reset.sealing with reseal := some ⟨1, 4, 7⟩ } } : State).sealing.reseal = some ⟨1, 4, 7⟩ ∧
      (live []).fabric.snoops = []) ∧
    (sessionOf (ideNode []) 9 = some { port := some 31, established := true, mutAuth := true } ∧
      ideSession (ideNode []) { port := some 31, established := true, mutAuth := true } 31 = true ∧
      ((Tab.at (ideNode [(1, 5)]).sealing.ide (2 * 31 + 1) {}).keys.any fun k => k.1 == 1) = true ∧
      ((Tab.at (ideNode [(1, 5)]).sealing.ide (2 * 31 + 0) {}).keys.any fun k => k.1 == 1) = true) := by decide +kernel

/-- A reseal of key index 1 under node 7 of level 4 with the response as written. -/
def responded (auth : BitVec 48) : State :=
  { live [(SEL_KEY_ATTR_STATE 1, 1)] with sealing := { State.reset.sealing with auth := auth } }

theorem witness_ResealsAndLinkIde_auth :
    (resealAuth (responded (resealAuth (responded 0) 1 4 7)) 1 4 7 = (responded (resealAuth (responded 0) 1 4 7)).sealing.auth) ∧
    (resealAuth (responded (resealAuth (responded 0) 1 4 7 + 1)) 1 4 7 ≠ (responded (resealAuth (responded 0) 1 4 7 + 1)).sealing.auth) :=
  ⟨rfl, fun h => absurd ((BitVec.add_right_eq_self (x := resealAuth (responded 0) 1 4 7)).mp h.symm) (by decide)⟩

theorem witness_StoredLinesOpenToTheirPlaintext :
    keyLevel State.reset 0 = 0 ∧ (0 : Nat) < 1023 ∧ keyLevel (node [(SEL_KEY_ATTR_LEVEL 1023, 3)]) 1023 = 3 ∧
    leafLost (node [(SEL_KEY_ATTR_LEVEL 1023, 3)]) 7 = false ∧ keyState State.reset 1023 = 0 ∧
    keyState (node [(SEL_KEY_ATTR_STATE 1023, 1)]) 1023 ≠ 0 := by decide +kernel

/-! ### The statements of chapters 8 and 9 -/

/-- Port 63 in a role, with sub-link 0 in a link state and other fields set. -/
def portAt (role st : Nat) (l : List (Fld × Nat)) : State :=
  live ([(PRT_PORT_CTRL_ROLE 63, role), (linkStateF 63 0, st), (linkWidthF 63 0, 5), (linkActiveF 63 0, 5), (LAN_PORT_CTRL_HOLD_DETECT 63, 0)] ++ l)

theorem witness_LinksTrainFailAndRecover :
    (terminated (portAt 0 0 []) 63 = true ∧ terminationsOn (portAt 0 0 []) 63 = true ∧ subExists (portAt 0 0 []) 63 0 = true ∧
      linkUp (portAt 0 0 []) 63 0 = false ∧ 5 ≤ fullWidth (portAt 0 0 []) 63 ∧ 5 ≤ (portAt 0 0 []).get (LAN_PORT_CTRL_MAX_RATE 63) ∧
      laneSet (portAt 0 0 []) 63 0 5 = some false ∧ laneSet (portAt 0 0 [(LAN_LANES_LANE_FAILED 63, 1), (LAN_PORT_CTRL_LANE_REVERSE_ALLOW 63, 1)]) 63 0 4 = some true) ∧
    (terminated (portAt 1 3 []) 63 = true ∧ laneInUse (portAt 1 3 [(LAN_LANES_LANE_ACTIVE 63, 65535)]) 63 15 = true) ∧
    (laneFailed (portAt 1 3 []) 63 15 = false ∧
      selectWidth (event (countPort ((portAt 1 3 []).setFlag (LAN_LANES_LANE_FAILED 63) 15) 63 0 0 1 0) 0x80 319 15) 63 0 ≠ none ∧
      terminated (event (countPort ((portAt 1 3 []).setFlag (LAN_LANES_LANE_FAILED 63) 15) 63 0 0 1 0) 0x80 319 15) 63 = true ∧
      selectWidth (event (countPort ((portAt 1 3 [(LAN_LANES_LANE_FAILED 63, 32767)]).setFlag (LAN_LANES_LANE_FAILED 63) 15) 63 0 0 1 0) 0x80 319 15) 63 0 = none ∧
      terminated (event (countPort ((portAt 2 3 []).setFlag (LAN_LANES_LANE_FAILED 63) 15) 63 0 0 1 0) 0x80 319 15) 63 = false) ∧
    ((portAt 1 4 []).get (linkStateF 63 0) = 4 ∧ terminated (portAt 1 4 []) 63 = true ∧ terminated (portAt 2 4 []) 63 = false ∧
      (noteUnlocked (portAt 1 4 []) 63 0 false []).get (linkStateF 63 0) = 4 ∧
      (noteUnlocked (portAt 1 4 []) 63 0 false []).get (LAN_LANES_LANE_FAILED 63) = (portAt 1 4 []).get (LAN_LANES_LANE_FAILED 63)) := by
  decide +kernel

theorem witness_LaneSettingsAndBifurcation :
    absentUnit State.reset.variant .LAN_LANE_EQ 63 15 = false ∧ absentUnit State.reset.variant .LAN_LANE_MARGIN 63 15 = false ∧
    absentUnit State.reset.variant .LAN_PORT_CTRL 63 0 = false ∧ absentUnit State.reset.variant .LAN_QUAD 3 0 = false ∧
    (equalizes (portAt 0 1 []) 63 15 5 = true ∧ equalizes (portAt 0 3 []) 63 15 5 = false ∧
      bestEye [(15, ⟨1, 5, true⟩), (0, ⟨2, 4, false⟩), (7, ⟨3, 3, false⟩)] = some (0, ⟨2, 4, false⟩) ∧ bestEye [(15, ⟨1, 5, true⟩)] = none) ∧
    terminated (portAt 0 0 []) 63 = true ∧
    (bitsOf 0 10 6 = 0 ∧ bitsOf 0xFFFE 3 7 = 127 ∧ 64 < bitsOf 0xFFFE 3 7) ∧
    (bitsOf 0xFD03 10 6 = 63 ∧ bitsOf 0xFD03 3 7 = 32 ∧ bitsOf 0xFD03 1 1 = 1) ∧ (bitsOf 0x500000 20 4 = 5 ∧ bitsOf 0x500000 18 2 ≠ 3) ∧
    ((2#64).toNat % 4 ≠ State.reset.get (LAN_QUAD_BIFURCATION 3) ∧ strapLocked State.reset 0 = false ∧
      (∀ k : Fin 8, pairEnabled State.reset (8 * 3 + k) = false) ∧
      strapLocked { State.reset with boot := { State.reset.boot with locks := 1 } } 0 = true ∧
      (((List.range 8).map (8 * 3 + ·)).any fun k => pairEnabled (portAt 2 3 [(LAN_PAIR_ENABLE 31, 1)]) k && (List.range 4).any fun j =>
        (portAt 2 3 [(LAN_PAIR_ENABLE 31, 1)]).get (linkStateF (2 * k) j) != 0 || (portAt 2 3 [(LAN_PAIR_ENABLE 31, 1)]).get (linkStateF (2 * k + 1) j) != 0) = true) := by
  decide +kernel

theorem witness_ThroughPairsBondAndForward :
    absentUnit State.reset.variant .LAN_PAIR 31 0 = false ∧
    (pairEnabled (portAt 2 2 [(LAN_PAIR_ENABLE 31, 1), (LAN_PAIR_READY 31, 1)]) 31 = true ∧
      (portAt 2 2 [(LAN_PAIR_ENABLE 31, 1), (LAN_PAIR_READY 31, 1)]).on (LAN_PAIR_READY 31) = true ∧
      subExists (portAt 2 2 [(LAN_PAIR_ENABLE 31, 1), (LAN_PAIR_READY 31, 1)]) 62 0 = true ∧
      subExists (portAt 2 2 [(LAN_PAIR_ENABLE 31, 1), (LAN_PAIR_READY 31, 1)]) 63 0 = true ∧
      62 ∉ (portAt 2 2 [(LAN_PAIR_ENABLE 31, 1), (LAN_PAIR_READY 31, 1)]).lanes.pairIdle ∧
      63 ∉ (portAt 2 2 [(LAN_PAIR_ENABLE 31, 1), (LAN_PAIR_READY 31, 1)]).lanes.pairIdle) ∧
    pairEnabled State.reset 31 = false := by decide +kernel

theorem witness_LinksEnterAndLeaveLowPower :
    (terminated (portAt 0 3 [(linkActiveF 63 0, 4)]) 63 = true ∧ (portAt 0 3 [(linkActiveF 63 0, 4)]).get (linkStateF 63 0) = 3 ∧
      (portAt 0 3 [(linkActiveF 63 0, 4)]).get (linkActiveF 63 0) < (portAt 0 3 [(linkActiveF 63 0, 4)]).get (linkWidthF 63 0)) ∧
    absentUnit State.reset.variant .LAN_DOZE 63 0 = false ∧
    (63 ∈ ({ live [] with lanes := { State.reset.lanes with attempts := [63] } } : State).lanes.attempts) := by decide +kernel

theorem witness_PortsRoutesAndPlainIo :
    absentUnit State.reset.variant .PRT_PORT_CTRL 63 0 = false ∧ (bitsOf (25 * 2 ^ 24) 24 8 = 25 ∧ bitsOf (24 * 2 ^ 24) 24 8 = 24) ∧
    absentUnit State.reset.variant .PRT_LD 63 15 = false ∧ holdsExtent State.reset (16 * 63 + 15) = false ∧
    (holdsExtent { portAt 0 3 [(PRT_LD_VALID 63 15, 1)] with fabric := { State.reset.fabric with holders := [(5, [1023])] } } (16 * 63 + 15) = true ∧
      (portAt 0 3 [(PRT_LD_VALID 63 15, 1)]).on (PRT_LD_VALID 63 15) = true) ∧
    (absentUnit State.reset.variant .PRT_DC_REGION (16 * 63 + 15) 7 = false ∧ State.reset.get (PRT_DC_USE_HELD (16 * 63 + 15) 7) = 0 ∧
      State.reset.get (PRT_DC_USE_PENDING (16 * 63 + 15) 7) = 0 ∧ State.reset.fabric.adding = none ∧
      (node [(PRT_DC_USE_HELD (16 * 63 + 15) 7, 1)]).get (PRT_DC_USE_HELD (16 * 63 + 15) 7) ≠ 0) ∧
    (linkUp (portAt 1 3 [(PRT_ROUTE_VALID 4095, 1), (PRT_ROUTE_PORT 4095, 252)]) 63 0 = true ∧
      (portAt 1 3 [(PRT_ROUTE_VALID 4095, 1), (PRT_ROUTE_PORT 4095, 252)]).get (PRT_PORT_CTRL_ROLE 63) = 1 ∧
      4095 ≠ (portAt 1 3 [(PRT_ROUTE_VALID 4095, 1), (PRT_ROUTE_PORT 4095, 252)]).get PRT_CTRL_PBR_ID ∧
      (portAt 1 3 [(PRT_ROUTE_VALID 4095, 1), (PRT_ROUTE_PORT 4095, 252)]).fatal = false ∧
      routeOf (portAt 1 3 [(PRT_ROUTE_VALID 4095, 1), (PRT_ROUTE_PORT 4095, 252)]) 4095 = some (63, 0) ∧
      routeOf (portAt 1 3 []) 4095 = none) ∧
    (linkUp (portAt 0 3 [(BLT_STATUS_FATAL, 1)]) 63 0 = true ∧ (linkActivity (portAt 0 3 [(BLT_STATUS_FATAL, 1)])).fatal = true) ∧
    (bitsOf (25 * 2 ^ 24) 24 8 = 25 ∧ State.reset.boot.ready = false ∧ ({ portAt 0 3 [(PRT_LD_VALID 63 15, 1)] with boot := { State.reset.boot with ready := true } } : State).boot.ready = true ∧
      ldOn (linkActivity { portAt 0 3 [(PRT_LD_VALID 63 15, 1)] with boot := { State.reset.boot with ready := true } }) 63 0 15 = true ∧
      (linkActivity { portAt 0 3 [(PRT_LD_VALID 63 15, 1)] with boot := { State.reset.boot with ready := true } }).fatal = false) := by decide +kernel

/-- The quire of the highest number that a command can name. -/
def lastQuire : Fin 262144 := ⟨262143, by decide⟩

/-- An extent of quire 262143 for logical device 15 of port 63. -/
def someExtent : Extent := { port := 63, ld := 15, region := 7, first := 262143, count := 1 }

/-- The port with the extent being added, or offered, or its quire held. -/
def adding (role : Nat) (a : Option Extent) (o : List Extent) (h : Tab (List Nat)) : State :=
  { portAt role 3 [(PRT_LD_VALID 63 15, 1)] with fabric := { State.reset.fabric with adding := a, offered := o, holders := h } }

/-- A node of the smallest variant whose channels are all in a state: Retired, it is short of its free pool. -/
def retiredNode (st line : Nat) (r : Option (Nat × Nat)) : State :=
  { (List.range 128).foldl (fun s g => s.put (CHN_REPAIR_STATE_STATE g) st) { State.reset with variant := .v2096 } with
    ruling := { line := line }
    fabric := { State.reset.fabric with release := r, wanted := if st = 5 then 800 else 0 } }

theorem witness_DynamicCapacityMovesByQuires :
    ((adding 0 (some someExtent) [] []).fabric.adding.isSome || (adding 0 (some someExtent) [] []).sealing.reseal.isSome) = true ∧
    (((adding 0 none [] []).fabric.adding.isSome || (adding 0 none [] []).sealing.reseal.isSome) = false ∧
      (adding 0 none [] []).on (PRT_DC_REGION_VALID 1023 7) = false) ∧
    ((adding 0 (some someExtent) [] []).fabric.adding = some someExtent ∧ someExtent.placed = true ∧ someExtent.fresh = [] ∧
      (({ adding 1 (some someExtent) [] [] with fabric := { (adding 1 (some someExtent) [] []).fabric with adding := none } } : State).put
        PRT_EXTENT_STATUS_LEFT 0).get (PRT_PORT_CTRL_ROLE 63) = 1 ∧
      (({ adding 0 (some someExtent) [] [] with fabric := { (adding 0 (some someExtent) [] []).fabric with adding := none } } : State).put
        PRT_EXTENT_STATUS_LEFT 0).get (PRT_PORT_CTRL_ROLE 63) ≠ 1) ∧
    ((adding 0 none [] []).fabric.offered.find? (fun e => e.port == 63 && e.ld == 15) = none ∧
      (adding 0 none [someExtent] []).fabric.offered.find? (fun e => e.port == 63 && e.ld == 15) = some someExtent ∧
      lastQuire.val ∈ someExtent.quires ∧ (∀ q ∈ someExtent.quires, q ∈ [lastQuire].map Fin.val)) ∧
    (adding 0 none [] []).fabric.adding = none ∧
    16 * 63 + 15 ∉ quireHolders (adding 0 none [] []) lastQuire ∧
    16 * 63 + 15 ∈ quireHolders (adding 0 none [] [(262143, [1023])]) lastQuire := by decide +kernel

theorem witness_DynamicCapacityMovesByQuires_short :
    shortQuires (retiredNode 5 262143 (some (1, 0))) ≠ 0 ∧ (retiredNode 5 262143 (some (1, 0))).fabric.release = some (1, 0) ∧
    (retiredNode 5 262143 (some (1, 0))).folio < 0 + 256 ∧ 0 + 256 ≤ (retiredNode 5 262144 (some (1, 0))).folio ∧
    shortQuires (retiredNode 4 0 none) = 0 := by decide +kernel

/-- A host request at logical device 15 of port 63. -/
def someReq (lent : Option LentLine) : LinkReq :=
  { port := 63, sub := 0, ld := 15, pbr := 0, tag := 7, dpa := 4096, tee := none, cached := 1, isDefined := true, lent := lent }

/-- The port with lent-out accesses and snoops outstanding, and a COARSE quire. -/
def asking (l : Tab (Work × LentStep)) (sn : List Snoop) (c : List Nat) (line : Nat) (f : List (Fld × Nat)) : State :=
  { portAt 0 3 f with fabric := { State.reset.fabric with lentOut := l, snoops := sn, coarse := c, sweepLine := line } }

/-- A write that snoops wait for. -/
def someWrite : Write := { origin := .link 63 0 15 7 0, dpa := 4096, key := 0, account := 4092, data := 1, mask := 1 }

theorem witness_RequestsAndSnoopsOfThePorts_requests :
    (canArrive (portAt 0 3 []) 63 0 = true ∧ senderCredit (portAt 0 3 []) 63 0 false = true ∧ senderCredit (portAt 0 3 []) 63 0 true = true ∧
      (portAt 0 3 []).fatal = false ∧ (someReq none).lent = none) ∧
    (canArrive (portAt 0 3 [(BLT_STATUS_FATAL, 1)]) 63 0 = true ∧ senderCredit (portAt 0 3 [(BLT_STATUS_FATAL, 1)]) 63 0 false = true ∧
      senderCredit (portAt 0 3 [(BLT_STATUS_FATAL, 1)]) 63 0 true = true ∧ (portAt 0 3 [(BLT_STATUS_FATAL, 1)]).fatal = true) ∧
    (someReq (some ⟨0, 0, 0, 0⟩)).lent = some ⟨0, 0, 0, 0⟩ ∧
    ((portAt 0 3 []).fabric.reserve = [] ∧ (takePlace (portAt 0 3 []) (.write someWrite)).isSome = true ∧
      takePlace (portAt 0 3 [(PRT_BUFFER_ACCOUNT_RESERVED, 524287)]) (.write someWrite) = none) := by decide +kernel

theorem witness_RequestsAndSnoopsOfThePorts_answers :
    Tab.find (asking [(9, (.read someRead.access, .plain))] [] [] 0 []).fabric.lentOut 9 = some (.read someRead.access, .plain) ∧
    Tab.find (asking [(9, (.write someWrite, .plain))] [] [] 0 []).fabric.lentOut 9 = some (.write someWrite, .plain) ∧
    Tab.find (asking [(9, (.write someWrite, .again))] [] [] 0 []).fabric.lentOut 9 = some (.write someWrite, .again) ∧
    (asking [] [] [] 0 []).fatal = false ∧
    ((asking [] [⟨64, [1023], .write someWrite, 0⟩] [] 0 []).fabric.snoops.find? fun x => x.line == 4096 % 2 ^ 42 / 64 && x.waiting.contains (16 * 63 + 15))
      = some ⟨64, [1023], .write someWrite, 0⟩ ∧ (Snoop.mk 64 [1023] (.write someWrite) 0).why = .write someWrite ∧
    (State.reset.fabric.coarse = [] ∧ (asking [] [] [8] 0 [(PRT_CTRL_COARSE_SWEEP, 0)]).on PRT_CTRL_COARSE_SWEEP = false ∧
      (asking [] [] [8] 32768 [(PRT_CTRL_COARSE_SWEEP, 1)]).on PRT_CTRL_COARSE_SWEEP = true ∧
      32768 ≤ (asking [] [] [8] 32768 [(PRT_CTRL_COARSE_SWEEP, 1)]).fabric.sweepLine ∧
      (asking [] [] [8] 32767 [(PRT_CTRL_COARSE_SWEEP, 1)]).fabric.sweepLine < 32768 ∧
      (asking [] [] [8] 32767 [(PRT_CTRL_COARSE_SWEEP, 1)]).on PRT_CTRL_COARSE_SWEEP = true) := by decide +kernel

theorem witness_MemoryDeviceCommandsAnswerOnce :
    ldAlive (portAt 0 3 [(PRT_LD_VALID 63 15, 1)]) 63 15 = true ∧ ldAlive (portAt 0 3 []) 63 15 = false ∧
    (∃ x ∈ ([5] : List Nat), ∀ r ∈ Tab.at (portAt 0 3 []).blotter.cxlLogs (8 * (16 * 63 + 15) + 3) [], r.seq ≠ x) := by decide +kernel

/-! ### The statements of chapters 10 and 11 -/

/-- The node with a core that runs a program of 100 syllables, and an event handler. -/
def coreAt (k : Nat) (c : CoreState) : State := { live [] with cores := [(k, c)] }

/-- A program of 100 syllables with a handler. -/
def program : CoreState := { running := true, code := 100, tvec := 64 }

theorem witness_IntegerFormsWriteTheirResult : Ready (coreAt 263 program) { core := 263 } 1 ∧ Ready (coreAt 0 program) { core := 0 } 2 := by
  decide +kernel

theorem witness_AluxFunctionsRunUnderTheirGuard :
    Ready (coreAt 263 program) { core := 263 } 2 ∧ (Machine.core (coreAt 263 program) 263).guard 0 false = true ∧
    (Machine.core (coreAt 263 program) 263).guard 0 true = false ∧ (Machine.core (coreAt 263 program) 263).enable = true ∧
    (Machine.core (coreAt 263 program) 263).tvec ≠ 0 := by decide +kernel

theorem witness_ComparesAndBranchesFollowTheirRules :
    Ready (coreAt 263 { program with pc := 99 }) { core := 263 } 1 ∧ Ready (coreAt 263 { program with pc := 98 }) { core := 263 } 2 := by
  decide +kernel

theorem witness_TrapsSaveAndReturnRestores :
    Ready (coreAt 7 program) { core := 7 } 1 ∧ ({ core := 7 } : CoreRun).data = .clean ∧ (Machine.core (coreAt 7 program) 7).enable = true ∧ (Machine.core (coreAt 7 program) 7).tvec ≠ 0 ∧
    Ready (coreAt 8 { program with enable := false }) { core := 8 } 1 ∧ (Machine.core (coreAt 8 { program with enable := false }) 8).enable = false := by
  decide +kernel

theorem witness_LocalMemoryAccessesReadAndWriteBytes :
    (Ready (coreAt 8 { program with regs := [(1, 262136)] }) { core := 8 } 1 ∧ ((Machine.core (coreAt 8 { program with regs := [(1, 262136)] }) 8).w 1).toNat = 262136 ∧
      262136 % 8 = 0 ∧ 262136 + 8 ≤ 2 ^ 18) ∧
    Ready (coreAt 8 { program with regs := [(1, 262143)] }) { core := 8 } 2 ∧
    (((Machine.core (coreAt 8 { program with regs := [(1, 262140)] }) 8).w 1).toNat % 4 = 0 ∧ 262140 + 4 ≤ 2 ^ 18) ∧
    (((Machine.core (coreAt 8 { program with regs := [(1, 262080)] }) 8).w 1).toNat % 64 = 0 ∧ 262080 + 64 ≤ 2 ^ 18) ∧
    ((Machine.core (coreAt 8 program) 8).enable = true ∧ (Machine.core (coreAt 8 program) 8).tvec ≠ 0) := by decide +kernel

/-- A nib core that runs a work item of one operand of two lines at 4,096. -/
def worker (c : CoreState) : State :=
  { coreAt 8 { c with item := some 3 } with
    queues := { State.reset.queues with items := [(3, { pair := 0, order := 0, kernel := 0, operands := [{ addr := 4096, lines := 2 }] })] } }

/-- A Scribe with a rubric that holds the whole of a grant and a unit of working memory. -/
def scribed (k : Nat) (c : CoreState) (r : Rubric) (l : List (Fld × Nat)) : State :=
  { node ([(MBX_SCRIBE_HANDLE k, 5), (MBX_SCRIBE_STATE k, 1), (MBX_SCRIBE_ROLE k, r.role)] ++ l) with
    power := { State.reset.power with rails := .up }, rubrics := [(5, r)], cores := [(k, c)] }

/-- An access that core 8 has outstanding, and its answer. -/
def awaiting (kind : Await) (r : Reply) : State :=
  { coreAt 8 { program with outstanding := [⟨2, 40, 2 ^ 63, kind⟩] } with
    fabric := { State.reset.fabric with replies := [(512 * 2 + 8, r)] } }

theorem witness_OutstandingAccessesDeliverAndFault :
    (Ready (scribed 7 { program with regs := [(1, 2 ^ 62 + 2097144)] } { units := 1 } []) { core := 7 } 1 ∧ (2 ^ 62 + 2097144) / 2 ^ 62 = 1 ∧
      2097144 + 8 ≤ workSize (scribed 7 { program with regs := [(1, 2 ^ 62 + 2097144)] } { units := 1 } []) 7) ∧
    (Ready (worker { program with regs := [(1, 2 ^ 63 + 4216)] }) { core := 8 } 1 ∧ (2 ^ 63 + 4216) / 2 ^ 62 = 2 ∧ bitsOf (2 ^ 63 + 4216) 52 10 = 0 ∧
      inOperands (worker { program with regs := [(1, 2 ^ 63 + 4216)] }) 8 (2 ^ 63 + 4216) 8 = true) ∧
    (Ready (worker { program with regs := [(1, 64)] }) { core := 8 } 2 ∧ (((Machine.core (worker { program with regs := [(1, 64)] }) 8).item.bind
      (itemAt (worker { program with regs := [(1, 64)] }))).bind fun x => x.operands[0]?) = some { addr := 4096, lines := 2 }) ∧
    (answered (awaiting (.load (some 1) 8 false) (.data 5)) 8 false).isSome = true ∧ answered (awaiting .store .done) 8 false = none ∧
    (answered (awaiting .store .done) 8 true).isSome = true ∧ answered (awaiting (.load (some 1) 8 false) (.data 5)) 8 true = none ∧
    ((Machine.core (awaiting .store .done) 8).outstanding ≠ [] ∧ (Machine.core (coreAt 8 { program with wait := some .fence }) 8).wait = some .fence ∧
      (Machine.core (coreAt 8 { program with wait := some .itemEnd }) 8).wait = some .itemEnd ∧ (Machine.core (coreAt 8 program) 8).outstanding = []) ∧
    (failedAccess (awaiting (.load (some 1) 8 false) .poison) 8 = some (⟨2, 40, 2 ^ 63, .load (some 1) 8 false⟩, 0x09) ∧
      (Machine.core (awaiting (.load (some 1) 8 false) .poison) 8).wait = none ∧ (Machine.core (awaiting (.load (some 1) 8 false) .poison) 8).running = true ∧
      (Machine.core (dropAccess (awaiting (.load (some 1) 8 false) .poison) 8 2) 8).enable = true ∧
      (Machine.core (dropAccess (awaiting (.load (some 1) 8 false) .poison) 8 2) 8).tvec ≠ 0 ∧
      (Machine.core (awaiting (.load (some 1) 8 false) .poison) 8).pc ≠ completionAddress) := by decide +kernel

theorem witness_PredicatesAndGuardsFollowTheirRule : (7 : Fin 8) ≠ 0 ∧ (6 : Fin 8) ≠ 7 := by decide

theorem witness_DivisionNeverFaults :
    Ready (coreAt 263 { program with regs := [(1, BitVec.intMin 64), (2, -1)] }) { core := 263 } 2 ∧
    (Machine.core (coreAt 263 { program with regs := [(1, BitVec.intMin 64), (2, -1)] }) 263).w 3 = 0 ∧
    (Machine.core (coreAt 263 { program with regs := [(1, BitVec.intMin 64), (2, -1)] }) 263).w 1 = BitVec.intMin 64 ∧
    (Machine.core (coreAt 263 { program with regs := [(1, BitVec.intMin 64), (2, -1)] }) 263).w 2 = -1 ∧
    (∃ res : BitVec 64 → Host.Outcome State Fault Refusal, ∀ v, res v = .next (advance State.reset 263 2 fun z => z.setW 4 v)) :=
  ⟨by decide +kernel, by decide +kernel, by decide +kernel, by decide +kernel, fun v => .next (advance State.reset 263 2 fun z => z.setW 4 v), fun _ => rfl⟩

theorem witness_HostBarReadsZeroAndDropsWrites :
    linkUp (portAt 0 3 [(PRT_LD_VALID 63 15, 1)]) 63 0 = true ∧ (portAt 0 3 [(PRT_LD_VALID 63 15, 1)]).get (PRT_PORT_CTRL_ROLE 63) = 0 ∧
    (linkActivity (portAt 0 3 [(PRT_LD_VALID 63 15, 1)])).fatal = false ∧
    ldOn (linkActivity (portAt 0 3 [(PRT_LD_VALID 63 15, 1)])) 63 0 15 = true := by decide +kernel

theorem witness_DeskAccessesFollowGrantAndRange :
    (Ready (scribed 7 { program with regs := [(1, (DCT_CTRL_MAP_READY).addr)] } { readGrant := 0xFFFF, writeGrant := 0xFFFF } []) { core := 7 } 1 ∧
      DCT_CTRL_MAP_READY.addr < 2 ^ 24 ∧ DCT_CTRL_MAP_READY.addr % 8 = 0 ∧ deskBlock DCT_CTRL_MAP_READY.addr = some 10 ∧
      readGranted (scribed 7 program { readGrant := 0xFFFF, writeGrant := 0xFFFF } []) 7 10 = true ∧
      writeGranted (scribed 7 program { readGrant := 0xFFFF, writeGrant := 0xFFFF } []) 7 10 = true ∧
      readGranted (scribed 7 program {} []) 7 10 = false ∧ writeGranted (scribed 7 program {} []) 7 10 = false) ∧
    deskBlock 0xFFFFF8 = none ∧ locate 0xFFFFF8 = none ∧ (live []).power.rails = .up ∧
    (live [(FUS_STATUS_DEBUG_OPEN, 0)]).on FUS_STATUS_DEBUG_OPEN = false ∧ (live [(FUS_STATUS_DEBUG_OPEN, 1)]).on FUS_STATUS_DEBUG_OPEN = true ∧
    ((Reg.fields .CHN_SCHED).any fun f => outOfRange (fieldLocked State.reset .CHN_SCHED 255 0) (0 &&& presentBits .v4384 .CHN_SCHED) f) = true ∧
    ((Reg.fields .RUL_LINK).any fun f => outOfRange (fieldLocked State.reset .RUL_LINK 0 0) (0 &&& presentBits .v4384 .RUL_LINK) f) = false ∧
    relationBroken State.reset .RUL_LINK (0 &&& presentBits .v4384 .RUL_LINK) = false ∧
    (∀ n : Fin 64, slotDue (live []) n = false) := by decide +kernel

theorem witness_RuledTimeAndEventsOfACore :
    Ready (scribed 7 program { slots := 2 ^ 63 } []) { core := 7 } 1 ∧ slotGranted (scribed 7 program { slots := 2 ^ 63 } []) 7 63 = true ∧
    slotGranted (scribed 7 program {} []) 7 0 = false ∧
    (takeEvent (scribed 7 program { events := [3] } []) 7 8).isSome = true ∧ takeEvent (scribed 7 program { events := [3] } []) 7 16 = none ∧
    (((Machine.core (coreAt 7 { program with regs := [(1, 262080)] }) 7).w 1).toNat % 8 = 0 ∧ 262080 + 64 ≤ 2 ^ 18) ∧
    ((rubricAt (scribed 7 program {} []) 7).bind fun r => r.inbox.head?) = none ∧
    ((rubricAt (scribed 7 program { inbox := [⟨1, 2, 3⟩] } []) 7).bind fun r => r.inbox.head?) = some ⟨1, 2, 3⟩ ∧
    (Machine.core (coreAt 263 { program with wait := some (.line 9) }) 263).wait = some (.line 9) ∧
    (Machine.core (coreAt 263 { program with wait := some (.time 9) }) 263).wait = some (.time 9) ∧
    ((Machine.core (scribed 7 { program with wait := some (.event 1 8) } { events := [3] } []) 7).wait = some (.event 1 8) ∧
      (takeEvent (scribed 7 { program with wait := some (.event 1 8) } { events := [3] } []) 7 8).isSome = true ∧
      takeEvent (scribed 7 { program with wait := some (.event 1 16) } { events := [3] } []) 7 16 = none) ∧
    (Machine.core (coreAt 263 program) 263).wait = none := by decide +kernel

theorem witness_PlacementAccountAndCoherencePrimitives :
    Ready (scribed 7 program { writeGrant := 0x0C00 } []) { core := 7 } 2 ∧ writeGranted (scribed 7 program { writeGrant := 0x0C00 } []) 7 10 = true ∧
    writeGranted (scribed 7 program { writeGrant := 0x0C00 } []) 7 11 = true ∧ writeGranted (scribed 7 program { writeGrant := 0x0800 } []) 7 10 = false ∧
    moveDestination (2 ^ 62 + 255) = some (.onChannel 255) ∧
    (0 < 4096 ∧ (16 : Nat) * 16 + 16 * 4096 ≤ 2 ^ 18 ∧ 256 % 16 = 0) ∧ (4095 < 4096 ∧ (0xFFFFFF : Nat) < 2 ^ (ACC_RATE_CEILING 4095).width) := by decide +kernel

/-- A leaf that LD 0 of port 0 holds with its key index unloaded, and core 7 that asks about its line. -/
def cohering : State :=
  { scribed 7 { program with regs := [(1, 2 ^ 63)] } {} [] with ductus := { State.reset.ductus with map := [(0, {})] } }

theorem witness_PlacementAccountAndCoherencePrimitives_coherence :
    Ready cohering { core := 7 } 2 ∧ (cohCheck cohering 7 (2 ^ 63) 1).2 = [] ∧ 0 ∉ (cohCheck cohering 7 (2 ^ 63) 1).1.fabric.coarse ∧
    (2 ^ 63) % 64 = 0 ∧ (2 ^ 63) % 2 ^ 21 + 64 ≤ 2 ^ 21 ∧ (64 : Nat) % 64 = 0 ∧
    leafEntry cohering 0 = some {} ∧ leafEntry cohering 1 = none ∧ (lookupBlock cohering 0 {}).2 = true ∧
    (lookupBlock cohering 0 { errors := List.range 5 |>.map (Fin.ofNat 40), again := List.range 5 |>.map (Fin.ofNat 40) }).2 = false := by decide +kernel

/-- The scribed node at a line, with what its Scribes are about to do. -/
def rubricNode (line : Nat) (r : Rubric) (t h : List (Nat × Nat)) (l : List (Fld × Nat)) : State :=
  { scribed 7 program r ([(MBX_CTRL_HEARTBEAT, 1)] ++ l) with
    ruling := { line := line, gen := 2048 }, scribes := { State.reset.scribes with takeover := t, handover := h } }

theorem witness_RubricsRestartMoveAndHandOver :
    (rubricNode 1023 {} [] [] []).lineInFolio ≠ 0 ∧
    ((rubricNode 0 { handle := 5 } [] [] []).lineInFolio = 0 ∧ (rubricNode 0 { handle := 5 } [] [] []).on MBX_CTRL_HEARTBEAT = true ∧
      (rubricNode 0 { handle := 5 } [] [] []).fatal = false ∧ rubricAt (rubricNode 0 { handle := 5 } [] [] []) 7 = some { handle := 5 } ∧
      (rubricNode 0 { handle := 5 } [] [] []).get (MBX_SCRIBE_STATE 7) = 1 ∧ (0 : Nat) + 1024 ≤ (rubricNode 0 { handle := 5 } [] [] []).ruling.gen ∧
      (∀ j : Fin 7, rubricAt (rubricNode 0 { handle := 5 } [] [] []) j = none)) ∧
    (Tab.find (rubricNode 0 {} [] [] []).rubrics 5 = some {} ∧ scribeOf (rubricNode 0 {} [] [] []) 5 = some 7 ∧
      3 ≤ (recentRestarts (rubricNode 0 {} [] [] []) { restarts := [0, 0, 0] }).length ∧
      (recentRestarts (rubricNode 0 {} [] [] []) { restarts := [0, 0] }).length < 3) ∧
    (node [(MBX_SCRIBE_STATE 7, 3)]).get (MBX_SCRIBE_STATE 7) = 3 ∧ (rubricNode 0 {} [] [] []).get (MBX_SCRIBE_STATE 7) ≠ 3 ∧
    (Tab.find (live []).rubrics ((live []).get (MBX_SCRIBE_HANDLE 7)) = none ∧ freeScribe (rubricNode 0 {} [] [] []) = some 6 ∧
      freeScribe (node ((List.range 8).map fun k => (MBX_SCRIBE_STATE k, 1))) = none) ∧
    ((rubricNode 0 {} [(5, 7)] [] []).scribes.takeover = [(5, 7)] ∧ (rubricNode 0 {} [] [(5, 7)] []).scribes.handover = [(5, 7)] ∧
      (∀ x ∈ (rubricNode 0 {} [] [(5, 7)] []).rubrics, x.1 ≠ 5 → x.2.role ≠ ({} : Rubric).role)) := by decide +kernel

/-- A rubric of a role on Scribe 7, under the handle 5, as the base rubric. -/
def baseOf (role : Nat) : Rubric := { handle := 5, role := role, base := true }

/-- Mailbox 4095 with a command under way. -/
def boxed (op : Nat) (p : List (BitVec 8)) (x : LoadSession) : State :=
  { live [(MBX_SCRIBE_HANDLE 7, 5), (MBX_SCRIBE_STATE 7, 1), (MBX_SCRIBE_ROLE 7, 6), (MBX_SCRIBE_HANDLE 6, 6), (MBX_SCRIBE_STATE 6, 1),
      (MBX_SCRIBE_ROLE 6, 4)] with
    rubrics := [(5, { baseOf 6 with base := true }), (6, { baseOf 4 with handle := 6 })]
    scribes := { State.reset.scribes with
      loader := some 0, sessions := [(9, x)]
      boxes := [(4095, { mem := putBytes (putBytes (putBytes [] 4 [1]) 8 (leBytes 2 op ++ [0, 0] ++ leBytes 4 p.length)) 0x1000 p, since := some 0 })] } }

theorem witness_MailboxCommandsAreServedOnce_reached :
    (boxReached (portAt 0 3 [(PRT_LD_VALID 63 15, 1)]) (64 * 63 + 15) = true ∧ boxReached State.reset 4095 = false) ∧
    (0x1000 + 0xF000 ≤ 0x10000 ∧ 8 + 8 ≤ 16 ∧ leNat [31, 0, 0, 0] < 32) ∧ (box (boxed 1 [] ⟨false, 0, [], 0⟩) 4095).since = some 0 ∧
    Serving (boxed 1 [] ⟨false, 0, [], 0⟩) 4095 1 ∧ loaderReady (boxed 1 [] ⟨false, 0, [], 0⟩) = true ∧
    doorbell State.reset 4095 = false := by decide +kernel

theorem witness_MailboxCommandsAreServedOnce_loads :
    (Serving (boxed 0x11 [0x94, 0x0F, 0, 0, 0, 0, 0, 0] ⟨false, 0, [], 0⟩) 4095 0x11 ∧
      3988 ≤ field (payload (boxed 0x11 [0x94, 0x0F, 0, 0, 0, 0, 0, 0] ⟨false, 0, [], 0⟩) 4095) 0 4 ∧
      field (payload (boxed 0x11 [0x94, 0x0F, 0, 0, 0, 0, 0, 0] ⟨false, 0, [], 0⟩) 4095) 4 4 = 0 ∧
      8 ≤ (payload (boxed 0x11 [0x94, 0x0F, 0, 0, 0, 0, 0, 0] ⟨false, 0, [], 0⟩) 4095).length) ∧
    (Serving (boxed 0x12 [9, 0, 0, 0, 0, 0, 0, 0, 7] ⟨false, 1, [], 0⟩) 4095 0x12 ∧
      (Tab.find (boxed 0x12 [9, 0, 0, 0, 0, 0, 0, 0, 7] ⟨false, 1, [], 0⟩).scribes.sessions
        (field (payload (boxed 0x12 [9, 0, 0, 0, 0, 0, 0, 0, 7] ⟨false, 1, [], 0⟩) 4095) 0 2)) = some ⟨false, 1, [], 0⟩ ∧
      field (payload (boxed 0x12 [9, 0, 0, 0, 0, 0, 0, 0, 7] ⟨false, 1, [], 0⟩) 4095) 4 4 +
        ((payload (boxed 0x12 [9, 0, 0, 0, 0, 0, 0, 0, 7] ⟨false, 1, [], 0⟩) 4095).drop 8).length ≤ 1) ∧
    (Serving (boxed 0x13 [9, 0] ⟨false, 0, [], 0⟩) 4095 0x13 ∧
      (Tab.find (boxed 0x13 [9, 0] ⟨false, 0, [], 0⟩).scribes.sessions (field (payload (boxed 0x13 [9, 0] ⟨false, 0, [], 0⟩) 4095) 0 2)) =
        some ⟨false, 0, [], 0⟩ ∧
      judgeRubric (closeSession (boxed 0x13 [9, 0] ⟨false, 0, [], 0⟩) 9) (bytesAt [] 0 0) = .inl 2) ∧
    (Serving (boxed 0x14 [5, 0] ⟨false, 0, [], 0⟩) 4095 0x14 ∧
      (Tab.find (boxed 0x14 [5, 0] ⟨false, 0, [], 0⟩).rubrics (field (payload (boxed 0x14 [5, 0] ⟨false, 0, [], 0⟩) 4095) 0 2)).isSome = true) ∧
    (Serving (boxed 0x20 [5, 0, 0, 0] ⟨false, 0, [], 0⟩) 4095 0x20 ∧ runningRubric (boxed 0x20 [5, 0, 0, 0] ⟨false, 0, [], 0⟩) 5 = true ∧
      (toInbox (boxed 0x20 [5, 0, 0, 0] ⟨false, 0, [], 0⟩).drew 5 ⟨1, 2, 3⟩).2 = true ∧ runningRubric (boxed 0x20 [8, 0, 0, 0] ⟨false, 0, [], 0⟩) 8 = false) ∧
    (Serving (boxed 0x70 [0, 0, 0, 0, 0, 0, 0, 0] ⟨false, 0, [], 0⟩) 4095 0x70 ∧
      (managementReady (boxed 0x70 [0, 0, 0, 0, 0, 0, 0, 0] ⟨false, 0, [], 0⟩) && baseRuns (boxed 0x70 [0, 0, 0, 0, 0, 0, 0, 0] ⟨false, 0, [], 0⟩) 4) = true) := by
  decide +kernel

theorem witness_LoaderAndManagementRubricServeTheirCommands :
    (Serving (boxed 0x13 [9, 0] ⟨false, 0, [], 0⟩) 4095 0x13 ∧ loaderReady (boxed 0x13 [9, 0] ⟨false, 0, [], 0⟩) = true ∧
      Tab.find (boxed 0x13 [9, 0] ⟨false, 0, [], 0⟩).scribes.sessions (field (payload (boxed 0x13 [9, 0] ⟨false, 0, [], 0⟩) 4095) 0 2) =
        some ⟨false, 0, [], 0⟩) ∧
    Serving (boxed 0x10 [] ⟨false, 0, [], 0⟩) 4095 0x10 ∧
    (Serving (boxed 0x15 [6, 0] ⟨false, 0, [], 0⟩) 4095 0x15 ∧ field (payload (boxed 0x15 [6, 0] ⟨false, 0, [], 0⟩) 4095) 0 2 = 6 ∧
      roleScribe (boxed 0x15 [6, 0] ⟨false, 0, [], 0⟩) 6 = some 7 ∧ roleScribe (boxed 0x15 [1, 0] ⟨false, 0, [], 0⟩) 1 = none ∧
      freeScribe (boxed 0x15 [1, 0] ⟨false, 0, [], 0⟩) = some 5 ∧
      Tab.find ({ boxed 0x15 [6, 0] ⟨false, 0, [], 0⟩ with
        scribes := { (boxed 0x15 [6, 0] ⟨false, 0, [], 0⟩).scribes with firmware := [(1, baseOf 1), (6, baseOf 6)] } } : State).scribes.firmware 6
          = some (baseOf 6)) ∧
    (Serving (boxed 0x50 (List.replicate 8 0) ⟨false, 0, [], 0⟩) 4095 0x50 ∧ managementReady (boxed 0x50 (List.replicate 8 0) ⟨false, 0, [], 0⟩) = true ∧
      field (payload (boxed 0x50 (List.replicate 8 0) ⟨false, 0, [], 0⟩) 4095) 6 2 = 0 ∧
      8 ≤ (payload (boxed 0x50 (List.replicate 8 0) ⟨false, 0, [], 0⟩) 4095).length ∧
      (boxed 0x50 (List.replicate 8 0) ⟨false, 0, [], 0⟩).blotter.badRecords = []) ∧
    (Serving (boxed 0x71 (List.replicate 14 0) ⟨false, 0, [], 0⟩) 4095 0x71 ∧
      (managementReady (boxed 0x71 (List.replicate 14 0) ⟨false, 0, [], 0⟩) && baseRuns (boxed 0x71 (List.replicate 14 0) ⟨false, 0, [], 0⟩) 4) = true ∧
      14 ≤ (payload (boxed 0x71 (List.replicate 14 0) ⟨false, 0, [], 0⟩) 4095).length) := by decide +kernel

/-- Mailbox 4095 served by the base rubrics of the roles 6, 1 and 2. -/
def boxedFor (role op : Nat) (p : List (BitVec 8)) : State :=
  { boxed op p ⟨false, 0, [], 0⟩ with rubrics := [(5, baseOf 6), (6, { baseOf role with handle := 6 })] }

theorem witness_LoaderAndManagementRubricServeTheirCommands_leaves :
    (Serving (boxedFor 2 0x80 (1 :: List.replicate 19 0)) 4095 0x80 ∧
      (managementReady (boxedFor 2 0x80 (1 :: List.replicate 19 0)) && baseRuns (boxedFor 2 0x80 (1 :: List.replicate 19 0)) 2) = true ∧
      field (payload (boxedFor 2 0x80 (1 :: List.replicate 19 0)) 4095) 0 2 = 1 ∧ field (payload (boxedFor 2 0x80 (1 :: List.replicate 19 0)) 4095) 2 1 < 2 ∧
      4 + 16 * 1 ≤ (payload (boxedFor 2 0x80 (1 :: List.replicate 19 0)) 4095).length) ∧
    (Serving (boxedFor 1 0x60 (List.replicate 16 0)) 4095 0x60 ∧
      (managementReady (boxedFor 1 0x60 (List.replicate 16 0)) && baseRuns (boxedFor 1 0x60 (List.replicate 16 0)) 1) = true ∧
      field (payload (boxedFor 1 0x60 (List.replicate 16 0)) 4095) 12 1 = 0 ∧ field (payload (boxedFor 1 0x60 (List.replicate 16 0)) 4095) 13 3 = 0 ∧
      13 ≤ (payload (boxedFor 1 0x60 (List.replicate 16 0)) 4095).length) := by decide +kernel

/-! ### The statements of chapters 12 and 13 -/

theorem witness_VectorFormsWriteTheirLanes :
    Ready (coreAt 263 program) { core := 263 } 2 ∧ vtype 4 = some (.int 8) ∧ vtype 3 = some (.int 32) ∧ vtype 2 = some (.fp fp16) ∧
    (Machine.core (coreAt 263 program) 263).guard 0 false = true ∧ (Machine.core (coreAt 263 program) 263).guard 7 false = false ∧
    ((.int 8 : VType).width < 32 ∧ 63 < (.int 8 : VType).lanes ∧ 31 < (.fp fp16 : VType).lanes) ∧
    (Ready (coreAt 7 program) { core := 7 } 1 ∧ (Machine.core (coreAt 7 program) 7).enable = true ∧ (Machine.core (coreAt 7 program) 7).tvec ≠ 0) :=
  ⟨by decide +kernel, rfl, rfl, rfl, by decide +kernel, by decide +kernel, by decide +kernel, by decide +kernel⟩

/-- Mailbox 4095 with a kernel command under way, a library and a queue pair. -/
def boxedQueue (op : Nat) (b : List (BitVec 8)) (ks : Tab Kernel) (ps : Tab Pair) (l : List (Fld × Nat)) : State :=
  let s := boxed op b ⟨true, 1, [], 0⟩
  { l.foldl (fun s x => s.put x.1 x.2) s with queues := { s.queues with kernels := ks, pairs := ps } }

/-- An enabled pair of sixteen entries each way for logical device 15 of port 63. -/
def somePair : Pair := { cfg := 0x800000003F0F4400 }

theorem witness_KernelsPairsAndParkedCores_kernels :
    (Serving (boxedQueue 0x40 [0x94, 0x0F, 0, 0, 0, 0, 0, 0] [] [] []) 4095 0x40 ∧ libraryReady (boxedQueue 0x40 [0x94, 0x0F, 0, 0, 0, 0, 0, 0] [] [] []) = true ∧
      3988 ≤ field (payload (boxedQueue 0x40 [0x94, 0x0F, 0, 0, 0, 0, 0, 0] [] [] []) 4095) 0 4 ∧
      8 ≤ (payload (boxedQueue 0x40 [0x94, 0x0F, 0, 0, 0, 0, 0, 0] [] [] []) 4095).length) ∧
    (Serving (boxedQueue 0x41 [9, 0, 0, 0, 0, 0, 0, 0, 7] [] [] []) 4095 0x41 ∧ libraryReady (boxedQueue 0x41 [9, 0, 0, 0, 0, 0, 0, 0, 7] [] [] []) = true ∧
      Tab.find (boxedQueue 0x41 [9, 0, 0, 0, 0, 0, 0, 0, 7] [] [] []).scribes.sessions
        (field (payload (boxedQueue 0x41 [9, 0, 0, 0, 0, 0, 0, 0, 7] [] [] []) 4095) 0 2) = some ⟨true, 1, [], 0⟩) ∧
    (Serving (boxedQueue 0x42 [9, 0] [] [] []) 4095 0x42 ∧ libraryReady (boxedQueue 0x42 [9, 0] [] [] []) = true) ∧
    (Serving (boxedQueue 0x43 [255, 15] [] [] []) 4095 0x43 ∧ managementReady (boxedQueue 0x43 [255, 15] [] [] []) = true ∧
      field (payload (boxedQueue 0x43 [255, 15] [] [] []) 4095) 0 2 = 4095 ∧ (boxedQueue 0x43 [255, 15] [] [] []).on (NIB_KERNEL_LOC_VALID 4095) = false ∧
      (boxedQueue 0x43 [255, 15] [] [] [(NIB_KERNEL_LOC_VALID 4095, 1)]).on (NIB_KERNEL_LOC_VALID 4095) = true ∧
      (Tab.at (boxedQueue 0x43 [255, 15] [] [] [(NIB_KERNEL_LOC_VALID 4095, 1)]).queues.kernels 4095 {}).removing = none) ∧
    Serving (boxedQueue 0x44 [0, 0] [] [] []) 4095 0x44 ∧
    ((boxedQueue 0x44 [] [(7, { removing := some 4095 })] [] []).queues.kernels = [(7, { removing := some 4095 })] ∧
      (∀ x ∈ (boxedQueue 0x44 [] [(7, { removing := some 4095 })] [] []).queues.items, x.2.kernel ≠ 7)) := by decide +kernel

/-- The payload of a queue creation for pair 16383. -/
def createBytes : List (BitVec 8) := leBytes 2 16383 ++ leBytes 2 0 ++ leBytes 2 0x3F0F ++ [12, 4] ++ leBytes 8 4096 ++ leBytes 8 8192 ++ List.replicate 8 0

theorem witness_KernelsPairsAndParkedCores_pairs :
    (Serving (boxedQueue 0x48 createBytes [] [] [(QUE_GROUP_VALID 0, 1)]) 4095 0x48 ∧
      payload (boxedQueue 0x48 createBytes [] [] [(QUE_GROUP_VALID 0, 1)]) 4095 = createBytes ∧ field createBytes 0 2 = 16383 ∧ field createBytes 2 2 < 1024 ∧
      field createBytes 6 1 < 16 ∧ field createBytes 7 1 < 16 ∧ field createBytes 24 1 < 8 ∧ field createBytes 25 1 = 0 ∧ field createBytes 26 2 < 4096 ∧
      field createBytes 28 4 = 0 ∧ field createBytes 8 8 % 4096 = 0 ∧ field createBytes 16 8 % 4096 = 0 ∧ pairOwnerOk (field createBytes 4 2) = true ∧
      pairCfgOk (boxedQueue 0x48 createBytes [] [] [(QUE_GROUP_VALID 0, 1)]) (createWord createBytes) = true) ∧
    (Serving (boxedQueue 0x49 [255, 63] [] [] []) 4095 0x49 ∧ field (payload (boxedQueue 0x49 [255, 63] [] [] []) 4095) 0 2 = 16383 ∧
      (pair (boxedQueue 0x49 [255, 63] [] [] []) 16383).enabled = false ∧
      (pair (boxedQueue 0x49 [255, 63] [] [(16383, somePair)] []) 16383).enabled = true ∧
      (pair (boxedQueue 0x49 [255, 63] [] [(16383, somePair)] []) 16383).deleting = false) ∧
    (Serving (boxedQueue 0x4A [255, 3, 0, 0, 1, 0, 0, 0] [] [] []) 4095 0x4A ∧
      field (payload (boxedQueue 0x4A [255, 3, 0, 0, 1, 0, 0, 0] [] [] []) 4095) 0 2 = 1023 ∧
      field (payload (boxedQueue 0x4A [255, 3, 0, 0, 1, 0, 0, 0] [] [] []) 4095) 5 3 = 0) ∧
    (pairCfgOk (node [(QUE_GROUP_VALID 0, 1)]) 0x000000003F0FCC00 = true ∧ pairOwnerOk (bitsOf 0x000000003F0FCC00 16 16) = true ∧
      (pair (node [(QUE_GROUP_VALID 0, 1)]) (State.reset.get QUE_SELECT_PAIR)).enabled = false) ∧
    absentUnit State.reset.variant .NIB_CORE 255 0 = false := by decide +kernel

/-- The port with a queue pair of its device, in Writing. -/
def queued (p : Pair) (items : Tab Item) (l : List (Fld × Nat)) : State :=
  { portAt 0 3 ([(PRT_LD_VALID 63 15, 1), (PWR_STATE_STATE, stWriting)] ++ l) with
    queues := { State.reset.queues with pairs := [(16383, p)], items := items }
    fabric := { State.reset.fabric with busMaster := [0x3F0F] }
    cores := [(263, { queue := [3] })] }

/-- A fetched item. -/
def someItem : Item := { pair := 16383, order := 0, kernel := 1 }

theorem witness_WorkItemsAreFetchedPlacedRunAndEnded_doorbells :
    (linkUp (queued somePair [] []) 63 0 = true ∧ ldOn (queued somePair [] []) 63 0 15 = true ∧ (queued somePair [] []).fatal = false ∧
      (queued somePair [] []).get (PRT_PORT_CTRL_ROLE 63) = 0 ∧ (pairsOf (linkActivity (queued somePair [] [])) 63 0 15)[0]? = some 16383 ∧
      (pairsOf (linkActivity (queued somePair [] [])) 63 0 15)[1]? = none ∧ (pair (linkActivity (queued somePair [] [])) 16383).enabled = true ∧
      (pair (linkActivity (queued somePair [] [])) 16383).sqSize ≤ 16 ∧ 15 < (pair (linkActivity (queued somePair [] [])) 16383).sqSize ∧
      15 < (pair (linkActivity (queued somePair [] [])) 16383).cqSize ∧
      (pair (linkActivity (queued { somePair with cfg := 0x000000003F0F4400 } [] [])) 16383).enabled = false ∧
      (pairsOf (linkActivity (queued { somePair with cfg := 0x000000003F0F4400 } [] [])) 63 0 15)[0]? = some 16383) ∧
    ((pair (queued { somePair with cfg := 0xC00000003F0F4400, sqTail := 1 } [] []) 16383).enabled = true ∧
      (pair (queued { somePair with cfg := 0xC00000003F0F4400, sqTail := 1 } [] []) 16383).sqHead ≠
        (pair (queued { somePair with cfg := 0xC00000003F0F4400, sqTail := 1 } [] []) 16383).sqTail ∧
      (pair (queued { somePair with cfg := 0xC00000003F0F4400, sqTail := 1 } [] []) 16383).inFlight +
        (pair (queued { somePair with cfg := 0xC00000003F0F4400, sqTail := 1 } [] []) 16383).used <
        (pair (queued { somePair with cfg := 0xC00000003F0F4400, sqTail := 1 } [] []) 16383).cqSize ∧
      (queued somePair [] []).fatal = false ∧ somePair.error = false ∧ somePair.deleting = false ∧
      (fetchEntry (queued { somePair with cfg := 0xC00000003F0F4400, sqTail := 1 } [] []) 16383 0 false {}).2 = none ∧
      (fetchEntry (queued { somePair with cfg := 0xC00000003F0F4400, sqTail := 1 } [] []) 16383 5 true {}).2 = some 5) ∧
    (itemRefusal (queued somePair [] []) (itemOf 16383 0 0 0) = some 8 ∧
      itemRefusal (queued somePair [] [(NIB_KERNEL_LOC_VALID 1, 1)]) (itemOf 16383 0 0 1) = none) := by decide +kernel

theorem witness_WorkItemsAreFetchedPlacedRunAndEnded_items :
    ((queued somePair [(3, someItem)] []).queues.items = [(3, someItem)] ∧ someItem.place = .waiting ∧ someItem.parts = 0 ∧ someItem.retry = false) ∧
    ({ someItem with retry := true, since := some 0 } : Item).since = some 0 ∧
    ((itemAt (placeItem (queued somePair [(3, { someItem with retry := true })] [(PWR_STATE_STATE, stCapped)]) 3 { someItem with retry := true }) 3).isSome = true) ∧
    (migrated (queued somePair [(3, { someItem with place := .migrating 263 })] []) 3 = true ∧
      (dispatching (queued somePair [] [(PWR_DOMAIN_STATUS (clusterDomain 15), 2), (NIB_CORE_STATE 255, 1)]) &&
        coreFits (queued somePair [] [(PWR_DOMAIN_STATUS (clusterDomain 15), 2), (NIB_CORE_STATE 255, 1)]) someItem 255 &&
        clusterUp (queued somePair [] [(PWR_DOMAIN_STATUS (clusterDomain 15), 2), (NIB_CORE_STATE 255, 1)]) 15) = true ∧
      (Machine.core (queued somePair [] []) (8 + 255)).queue.length < 64 ∧
      (askMoves (queued somePair [(3, someItem)] []) 3 255 []).2 = [] ∧ (askMoves (queued somePair [(3, someItem)] []) 3 255 [0]).2 = []) ∧
    (dispatching (queued somePair [(3, someItem)] [(NIB_CORE_STATE 255, 1)]) = true ∧ (queued somePair [(3, someItem)] [(NIB_CORE_STATE 255, 1)]).get (NIB_CORE_STATE 255) = 1 ∧
      (queued somePair [(3, someItem)] [(NIB_CORE_STATE 255, 1)]).on (NIB_CORE_PARK 255) = false ∧
      nextOf (queued somePair [(3, someItem)] []) 263 = some (3, someItem) ∧ nextOf (queued somePair [] []) 263 = none) ∧
    ((Machine.core (worker { program with pc := BitVec.allOnes 64 }) 8).item = some 3 ∧ (Machine.core (worker { program with pc := BitVec.allOnes 64 }) 8).running = true ∧
      failedAccess (worker { program with pc := BitVec.allOnes 64 }) 8 = none ∧
      (failedAccess { worker { program with pc := BitVec.allOnes 64, outstanding := [⟨2, 40, 2 ^ 63, .store⟩] } with
        fabric := { State.reset.fabric with replies := [(512 * 2 + 8, .failed)] } } 8).isSome = true ∧
      ((Machine.core (worker program) 8).item.bind (itemAt (worker program))).isSome = true) := by decide +kernel

/-- A clock unit in which input 3 is valid and the root uses it. -/
def clocked (l : List (Fld × Nat)) (x : Clocks) : State := { live ([(CLK_REF_STATUS_VALID, 15), (CLK_ROOT_ACTIVE, 3)] ++ l) with clocks := x }

theorem witness_ClocksFollowTheirSources :
    (inputPresent (clocked [] {}) 3 = true ∧ (clocked [] {}).flag CLK_REF_STATUS_VALID 3 = true ∧
      (node [(CLK_REF_STATUS_VALID, 7)]).flag CLK_REF_STATUS_VALID 3 = false ∧ (node [(CLK_OSC_READY, 1)]).on CLK_OSC_READY = true ∧
      (node [(CLK_OSC_READY, 0)]).on CLK_OSC_READY = false) ∧
    (loopRuns (clocked [] {}) 8 = true ∧ loopRuns (clocked [(CLK_CTRL_MODE, 1)] {}) 10 = true ∧
      (loopOf (clocked [] { loops := [(8, { coast := true })] }) 8).coast = true ∧ (loopOf (clocked [] { loops := [(8, { coast := true })] }) 8).escalated = false ∧
      (loopOf (clocked [] { loops := [(8, { holding := true })] }) 8).holding = true ∧ (loopOf (clocked [] { loops := [(8, { holding := true })] }) 8).relock = false ∧
      (loopOf (clocked [] { loops := [(8, { holding := true })] }) 8).coast = false ∧ (loopOf (clocked [] { loops := [(8, { relock := true })] }) 8).relock = true ∧
      (loopOf (clocked [] {}) 8).holding = false) ∧
    ((clocked [] { oscLock := true }).clocks.oscLock = true ∧ (clocked [] {}).clocks.oscLock = false) ∧
    ((15#64).toNat % 16 ≠ State.reset.get (CLK_DOMAIN_SOURCE 31) ∧ domainAllows State.reset 31 15 = false) ∧
    ((3#64).toNat % 16 ≠ (clocked [(CLK_DOMAIN_SOURCE 31, 0)] {}).get (CLK_DOMAIN_SOURCE 31) ∧
      domainAllows (clocked [(CLK_DOMAIN_SOURCE 31, 0)] {}) 31 3 = true ∧
      domainReady (clocked [(CLK_DOMAIN_SOURCE 31, 0), (CLK_ROOT_READY, 0)] {}) 31 3 = false ∧
      domainReady (clocked [(CLK_DOMAIN_SOURCE 31, 0), (CLK_ROOT_READY, 1)] {}) 31 3 = true) ∧ Tab.at (clocked [] { switches := [(31, [1])] }).clocks.switches 31 [] = [1] ∧
    Tab.at (clocked [] {}).clocks.switches 31 [] = [] ∧ ((1#64).getLsbD 0 = true ∧ (0#64).getLsbD 0 = false) ∧
    ((node [(CLK_GATE_ON 4095, 0)]).on (CLK_GATE_ON 4095) = false ∧ (node [(CLK_GATE_ON 4095, 1)]).on (CLK_GATE_ON 4095) = true) ∧
    ((7#64).toNat % 8 ≠ State.reset.get (CLK_OUT_SOURCE 1)) := by decide +kernel

/-! ### The statements of chapters 14 to 19 -/

/-- The node with its power fields. -/
def powered (l : List (Fld × Nat)) (x : Power) : State := { node l with power := x }

theorem witness_DomainsAndPowerStatesMove_requests :
    (domainPresent State.reset 37 = true ∧ domainPresent { State.reset with variant := .v2096 } 15 = false ∧
      domainPresent { State.reset with variant := .v2096 } 36 = true) ∧
    ((7#64).toNat % 8 ≠ stQuiet ∧ (7#64).toNat % 8 ≠ stCapped ∧ (7#64).toNat % 8 ≠ stWriting) ∧
    ((4#64).toNat % 8 = stWriting ∧ (node [(PWR_STATE_STATE, 3), (PWR_STATE_SHUTDOWN, 1)]).colophon.fatalShadow = false ∧
      powerState (node [(PWR_STATE_STATE, 3), (PWR_STATE_SHUTDOWN, 1)]) ≠ 0 ∧
      (node [(PWR_STATE_STATE, 3), (PWR_STATE_SHUTDOWN, 1)]).on PWR_STATE_SHUTDOWN = true) ∧
    ((3#64).toNat % 8 = stCapped ∧ powerState (node [(PWR_STATE_STATE, 4), (PWR_STATE_IN_TRANSITION, 1)]) ≠ 0 ∧
      (node [(PWR_STATE_STATE, 4), (PWR_STATE_IN_TRANSITION, 1)]).on PWR_STATE_IN_TRANSITION = true ∧
      (powered [(PWR_STATE_STATE, 4), (PWR_STATE_IN_TRANSITION, 1)] { entryLine := 5 }).power.entryLine ≠
        (powered [(PWR_STATE_STATE, 4), (PWR_STATE_IN_TRANSITION, 1)] { entryLine := 5 }).ruling.gen) ∧
    (powerState (node [(PWR_STATE_STATE, 4), (PWR_STATE_IN_TRANSITION, 0)]) = stWriting ∧
      (node [(PWR_STATE_STATE, 4), (PWR_STATE_IN_TRANSITION, 0)]).on PWR_STATE_IN_TRANSITION = false ∧
      powerState (node [(PWR_STATE_STATE, 2), (PWR_STATE_IN_TRANSITION, 0)]) = stQuiet ∧
      powerState (node [(PWR_STATE_STATE, 3), (PWR_STATE_IN_TRANSITION, 0)]) = stCapped) := by decide +kernel

theorem witness_DomainsAndPowerStatesMove_entries :
    ((({ node [(PWR_STATE_STATE, 4)] with boot := { State.reset.boot with active := true } } : State).boot.active = true ∧
        powerState (({ node [(PWR_STATE_STATE, 4)] with boot := { State.reset.boot with active := true } } : State).put PWR_STATE_SHUTDOWN 1) = stWriting ∧
        (node [(PWR_STATE_STATE, 4)]).on PWR_STATE_IN_TRANSITION = false) ∧
      (powerState (powered [(PWR_STATE_STATE, 3), (PWR_STATE_SHUTDOWN, 0)] { capByPin := true }) = stCapped ∧
        (powered [(PWR_STATE_STATE, 3), (PWR_STATE_SHUTDOWN, 0)] { capByPin := true }).power.capByPin = true)) ∧
    (recentChange State.reset State.reset.power.shutdownGen = false ∧ recentChange State.reset (some 0) = true ∧
      recentChange { State.reset with ruling := { State.reset.ruling with gen := 64 } } (some 0) = false ∧
      State.reset.power.wakeGen = none) ∧
    ({ State.reset with colophon := { State.reset.colophon with fatalShadow := true } } : State).colophon.fatalShadow = true ∧
    (powerState (node [(PWR_STATE_STATE, 4), (PWR_STATE_IN_TRANSITION, 1), (PWR_STATE_TARGET, 3), (PWR_CTRL_DRAIN_LINES, 0)]) = stWriting ∧
      (node [(PWR_STATE_STATE, 4), (PWR_STATE_IN_TRANSITION, 1), (PWR_STATE_TARGET, 3), (PWR_CTRL_DRAIN_LINES, 0)]).get PWR_STATE_TARGET ≠ stWriting ∧
      (node [(PWR_CTRL_DRAIN_LINES, 0)]).power.drained = false ∧
      (node [(PWR_CTRL_DRAIN_LINES, 0)]).power.entryLine + (node [(PWR_CTRL_DRAIN_LINES, 0)]).get PWR_CTRL_DRAIN_LINES ≤ (node []).ruling.gen) ∧
    (drainedNow (node [(PWR_STATE_STATE, 4), (PWR_STATE_IN_TRANSITION, 1), (PWR_STATE_TARGET, 3)]) = true ∧
      drainedNow { node [(PWR_STATE_STATE, 4), (PWR_STATE_IN_TRANSITION, 1), (PWR_STATE_TARGET, 3)] with
        fuses := { program := some (405, 1) } } = false ∧
      (node [(PWR_STATE_STATE, 3), (PWR_STATE_IN_TRANSITION, 1), (PWR_STATE_TARGET, 4)]).get PWR_STATE_TARGET = stWriting) := by decide +kernel

theorem witness_DomainsAndPowerStatesMove_limiter :
    (State.reset.ruling.line % 64 = 0 ∧
      powerCap (powered [(PWR_CLASS_IN_FORCE, 3)] { windowSum := 64 * 8001, windowLines := 64 }) * 64 < 64 * 8001 ∧
      ((powered [(PWR_CLASS_IN_FORCE, 3), (PWR_CLASS_LIMIT_STEP, 23)] { windowSum := 64 * 8001, windowLines := 64 }).put PWR_INK_POWER 8001).get
        PWR_CLASS_LIMIT_STEP < 24) ∧
    (64 * 8000 ≤ powerCap (powered [(PWR_CLASS_IN_FORCE, 3)] { windowSum := 64 * 8000, windowLines := 64 }) * 64 ∧
      ¬ 100 * (64 * 8000) < 95 * (powerCap (powered [(PWR_CLASS_IN_FORCE, 3)] {}) * 64)) ∧
    (100 * (64 * 7599) < 95 * (powerCap (powered [(PWR_CLASS_IN_FORCE, 3)] { limUnder := 63 }) * 64) ∧
      (powered [(PWR_CLASS_IN_FORCE, 3)] { limUnder := 63 }).power.limUnder + 1 = 64) := by decide +kernel

theorem witness_SupplyEventsMoveTheRails :
    (powered [] { rails := .off }).power.rails = .off ∧ State.reset.power.rails = .up ∧ (powered [] { rails := .standby }).power.rails ≠ .up ∧
    (State.reset.power.phasesLost.getLsbD 7 = false ∧ 6 ≤ popCount 8 (0x1F ||| (1#8 <<< 7)).toNat ∧ ¬ 6 ≤ popCount 8 (0x0F ||| (1#8 <<< 7)).toNat) ∧
    (powered [] { rails := .standby, cycling := true }).power.cycling = true ∧
    (({ powered [] { rails := .standby } with colophon := { State.reset.colophon with restartLock := true, lockCycled := true } } : State).colophon.restartLock = true ∧
      ({ powered [] { rails := .standby } with colophon := { State.reset.colophon with restartLock := true, lockCycled := true } } : State).colophon.lockCycled = true ∧
      (powered [] { rails := .standby }).power.cycling = false) ∧
    (absentSensor .v4384 368 = false ∧ restartLimit 368 ≤ signed 12 400) ∧
    (signed 12 399 < restartLimit 368 ∧ signed 12 319 < restartLimit 367 ∧ signed 12 359 < restartLimit 95) := by decide +kernel

/-- The node with its heat. -/
def heated (l : List (Fld × Nat)) (x : Thermal) : State := { node l with thermal := x }

theorem witness_HeatStepsLimitsAndPeakGrants :
    (Tab.at (heated [] { below := [(19, 63)] }).thermal.below 19 0 < 64 ∧ 64 ≤ Tab.at (heated [] { below := [(19, 64)] }).thermal.below 19 0) ∧
    ((heated [(THM_TOWER_HOT 3, 65536)] { cool := [(112, 127)] }).flag (THM_TOWER_HOT 3) 16 = true ∧
      Tab.at (heated [(THM_TOWER_HOT 3, 65536)] { cool := [(112, 127)] }).thermal.cool (32 * 3 + 16) 0 < 128 ∧
      128 ≤ Tab.at (heated [(THM_TOWER_HOT 3, 65536)] { cool := [(112, 128)] }).thermal.cool (32 * 3 + 16) 0 ∧
      State.reset.flag (THM_TOWER_HOT 3) 16 = false) ∧
    (State.reset.on THM_CTRL_FAST_ACTIVE = false ∧ (heated [(THM_CTRL_FAST_ACTIVE, 1)] { fastUnder := 63 }).thermal.fastUnder < 64 ∧
      (heated [(THM_CTRL_FAST_ACTIVE, 1)] { fastUnder := 64 }).on THM_CTRL_FAST_ACTIVE = true ∧
      64 ≤ (heated [(THM_CTRL_FAST_ACTIVE, 1)] { fastUnder := 64 }).thermal.fastUnder) ∧
    ((bit (bitsOf (0x80000000#64).toNat 16 16) 15 = true ∧ bit (State.reset.get THM_PEAK_GRANT) 15 = false) ∧
      failing State.reset 15 = some 1 ∧ (failing (node [(PWR_DOMAIN_STATUS 35, 2), (PWR_CLASS_LIMIT_STEP, 1)]) 15).isSome = true ∧
      bit ((node [(THM_PEAK_GRANT, 0x8000)]).get THM_PEAK_GRANT) 15 = true) ∧
    ((∃ x ∈ limitFields, bitsOf (0#64).toNat x.1.lo x.1.width < x.2.1 ∨ x.2.2 < bitsOf (0#64).toNat x.1.lo x.1.width) ∧
      ∀ x ∈ limitFields, x.2.1 ≤ bitsOf ((State.reset.word (THM_LIMITS_RISE_LIMIT).addr)).toNat x.1.lo x.1.width ∧
        bitsOf ((State.reset.word (THM_LIMITS_RISE_LIMIT).addr)).toNat x.1.lo x.1.width ≤ x.2.2) ∧
    (State.reset.get (THM_CLUSTER_STEP 15) = 0 ∧ State.reset.get (THM_CLUSTER_STEP 15) ≠ 24 ∧
      (node [(THM_CLUSTER_STEP 15, 1)]).get (THM_CLUSTER_STEP 15) ≠ 0) := by decide +kernel

/-- The node with calibration units. -/
def calibrated (l : List (Fld × Nat)) (x : Tab CalUnit) : State := { node l with cal := x }

theorem witness_CalibrationEvaluatesHoldsAndFlushes :
    (State.reset.lineInFolio = 0 ∧ (peered {}).lineInFolio = 0 ∧
      ({ State.reset with ruling := { State.reset.ruling with line := 1023 } } : State).lineInFolio ≠ 0) ∧
    ((calUnit (calibrated [] [(259, { holdGen := some 1 })]) 259).holdGen ≠ none ∧ (calUnit State.reset 259).holdGen = none ∧
      (node [(COL_CAL_CTRL_APPLY_ENABLE, 0)]).on COL_CAL_CTRL_APPLY_ENABLE = false ∧
      (node [(COL_CAL_CTRL_APPLY_ENABLE, 1)]).on COL_CAL_CTRL_APPLY_ENABLE = true ∧
      (unitValues 259).foldl (fun t v => Tab.put t v (baseValue (calUnit (calibrated [] [(259, { base := [(0, 1)] })]) 259) v
        (drivingTemp (calibrated [] [(259, { base := [(0, 1)] })]) 259 v)) 0) [] ≠ (calUnit (calibrated [] [(259, { base := [(0, 1)] })]) 259).base) ∧
    ((calUnit State.reset 259).shadow = none ∧ (calUnit (calibrated [] [(259, { shadow := some [] })]) 259).shadow = some []) ∧
    ((calUnit (calibrated [] [(259, { shadow := some [], loadFolio := some 0 })]) 259).loadFolio = some State.reset.folio) ∧
    (({ scribed 6 {} (baseOf 5) [(MBX_SCRIBE_HANDLE 6, 5), (MBX_SCRIBE_STATE 6, 1), (MBX_SCRIBE_ROLE 6, 5), (COL_CAL_CTRL_FULL_ENABLE, 1)] with
          variant := .v4192 } : State).on COL_CAL_CTRL_FULL_ENABLE = true ∧
      baseRuns { scribed 6 {} (baseOf 5) [(COL_CAL_CTRL_FULL_ENABLE, 1)] with variant := .v4192 } 5 = true ∧
      baseRuns State.reset 5 = false) ∧
    ((255#64).getLsbD 8 = false ∧ (511#64).getLsbD 8 = true ∧ (511#64).toNat % 256 = 255 ∧ State.reset.variant = .v4384 ∧
      ({ State.reset with variant := .v2096 } : State).variant.channels ≤ 128 ∧
      ({ node [(COL_CAL_CTRL_FULL_ENABLE, 1)] with variant := .v4192 } : State).on COL_CAL_CTRL_FULL_ENABLE = true ∧
      255 < ({ node [(COL_CAL_CTRL_FULL_ENABLE, 1)] with variant := .v4192 } : State).variant.channels) ∧
    ((calUnit (calibrated [] [(255, { requested := true })]) 255).requested = true ∧ usableChan State.reset 255 = true ∧
      ({ calibrated [] [(255, { requested := true })] with ruling := { State.reset.ruling with gen := 64 + 49 } } : State).ruling.gen % 64 = 16 * (255 / 64) + 1 ∧
      (∀ h : Fin 255, (calUnit (calibrated [] [(255, { requested := true })]) h).requested = false) ∧
      (∀ y ∈ (calibrated [] [(255, { requested := true })]).cal, y.1 < 256 → y.1 / 64 = 255 / 64 → y.2.heldFolio ≠ some State.reset.folio)) ∧
    (withinSteps {} [] = true ∧ withinSteps { base := [(0, 17)] } [] = false) ∧
    ((calUnit (calibrated [] [(255, { rejections := 1 })]) 255).rejections = 1) ∧
    ((calUnit (calibrated [] [(259, { field := some (0, []) })]) 259).field ≠ (calUnit (calibrated [] [(259, { field := some (0, []) })]) 259).stored ∧
      (calUnit (calibrated [] [(259, { field := some (0, []) })]) 259).storedAt = none ∧
      (calUnit State.reset 259).field = (calUnit State.reset 259).stored ∧
      (calibrated [] [(259, { field := some (0, []), storedAt := some 1 })]).colophon.life.seconds < 1 + 600) := by decide +kernel

/-- The node with a fuse program or read under way. -/
def fused (l : List (Fld × Nat)) (x : Fuses) : State := { node l with fuses := x }

theorem witness_FusesProgramReadAndLock :
    ((1023#64).getLsbD 16 = false ∧ (0x103FF#64).getLsbD 16 = true ∧ fusWriter State.reset none = true ∧
      fusWriter State.reset (some 7) = false) ∧
    (programRefusal State.reset .jtag 1023 0 true = some 4 ∧ programRefusal (node [(FUS_REGION_PROG_LOCK 13, 1)]) .jtag 1021 1 true = some 5 ∧
      programRefusal (fused [] { program := some (405, 1) }) .jtag 1023 1 true = some 3 ∧
      programRefusal State.reset .jtag 403 1 true = some 8 ∧
      programRefusal (node ((PWR_INK_VIN, 5400) :: (List.range 96).map fun i => (THM_SENSOR_TEMP i, 100))) .jtag 402 1 true = none) ∧
    ((fused [] { program := some (405, 1) }).fuses.program = some (405, 1#32) ∧ State.reset.fuses.program = none ∧
      regionOf 1021 = some 13 ∧ (node [(FUS_REGION_PROG_LOCK 13, 1)]).on (FUS_REGION_PROG_LOCK 13) = true) ∧
    ((fused [] { reading := some 1023 }).fuses.reading = some 1023 ∧ State.reset.fuses.reading = none) := by decide +kernel

/-- The node with a Blotter's own state. -/
def blotted (l : List (Fld × Nat)) (x : Blotter) (line : Nat) : State :=
  { node l with blotter := x, ruling := { State.reset.ruling with line := line } }

theorem witness_BlotterReportsLatchesAndAlerts :
    (defaultSeverity 0x120 < 5 ∧ ¬ defaultSeverity 383 < 5 ∧ absentUnit .v4384 .BLT_SOURCE 0 0 = false) ∧
    ((node [(BLT_SOURCE_WIRE_FAULT 0, 1)]).on (BLT_SOURCE_WIRE_FAULT 0) = true ∧ State.reset.on (BLT_SOURCE_WIRE_FAULT 0) = false) ∧
    ((∃ t : Fin 384, defaultSeverity t = 4) ∧ (7#64).toNat % 8 > 4 ∧ defaultSeverity 0x120 ≠ 4 ∧ (4#64).toNat % 8 ≤ 4 ∧ (3#64).toNat % 8 < 4) ∧
    ((node [(FUS_STATUS_DEBUG_OPEN, 0)]).on FUS_STATUS_DEBUG_OPEN = false ∧ (node [(FUS_STATUS_DEBUG_OPEN, 1)]).on FUS_STATUS_DEBUG_OPEN = true) ∧
    (Tab.find State.reset.blotter.latchFolio 607 = none ∧ Tab.find (blotted [] { latchFolio := [(607, 3)] } 4096).blotter.latchFolio 607 = some 3 ∧
      (blotted [(BLT_CTRL_REARM_FOLIOS, 1)] { latchFolio := [(607, 3)] } 4096).get BLT_CTRL_REARM_FOLIOS ≠ 0 ∧
      (blotted [] {} 4096).lineInFolio = 0 ∧
      3 + (blotted [(BLT_CTRL_REARM_FOLIOS, 1)] { latchFolio := [(607, 3)] } 4096).get BLT_CTRL_REARM_FOLIOS ≤ (blotted [] {} 4096).folio) := by
  decide +kernel

/-- The node with its Colophon. -/
def kept (l : List (Fld × Nat)) (x : Colophon) : State := { node l with colophon := x }

theorem witness_ColophonKeepsRecordsAndTheCalendar :
    (State.reset.colophon.waiting = [] ∧ State.reset.power.rails ≠ .off ∧
      (kept [] { waiting := [.marker 1 2] }).colophon.waiting = [.marker 1 2] ∧
      (kept [] { waiting := [.blotter 7 { } ] }).colophon.waiting = [.blotter 7 { }] ∧
      (kept [] { waiting := [.blotter 7 { } ] }).colophon.fatalShadow = false) ∧
    ((kept [(COL_CTRL_EVENT_RATE, 1)] { blotterMinute := 1 }).get COL_CTRL_EVENT_RATE ≤ (kept [] { blotterMinute := 1 }).colophon.blotterMinute ∧
      (kept [] {}).colophon.blotterMinute < (kept [(COL_CTRL_EVENT_RATE, 1)] {}).get COL_CTRL_EVENT_RATE) ∧
    (powered [] { rails := .standby }).power.rails ≠ .up ∧
    (State.reset.colophon.checkpointDue = false ∧ (kept [] { checkpointDue := true }).colophon.checkpointDue = true) ∧
    ((0#64).toNat % 32 = 0 ∧ 16 < (17#64).toNat % 32 ∧ 0 < (16#64).toNat % 32 ∧ (16#64).toNat % 32 ≤ 16) ∧
    ((pinAt [(RUL_STATUS_QUALITY, 0)] none 0).ruling.running = true ∧ (pinAt [(RUL_STATUS_QUALITY, 0)] none 0).get RUL_STATUS_QUALITY = 0 ∧
      (pinAt [(RUL_STATUS_QUALITY, 1)] none 0).get RUL_STATUS_QUALITY ≠ 0) := by decide +kernel

/-! ### The statements of chapters 21 and 22 -/

/-- The node at a stage of its boot. -/
def booting (l : List (Fld × Nat)) (x : Boot) : State := { node l with boot := x }

theorem witness_BootGoesThroughItsSteps :
    (State.reset.boot.stage ≠ .checking ∧ (booting [] { stage := .checking }).boot.order = [] ∧
      (booting [] { stage := .checking, order := [1, 0] }).boot.stage = .checking ∧
      (booting [] { stage := .checking, order := [1, 0] }).boot.order = 1 :: [0] ∧
      checkSlot (booting [] { stage := .checking, order := [0] }) none = some (1, 0xFF)) ∧
    ((booting [] { order := [1] }).boot.order ≠ [] ∧ (booting [] {}).boot.order = [] ∧ (booting [] {}).boot.trained = false ∧
      (booting [] { trained := true }).boot.trained = true) ∧
    ((List.replicate 32 0xFF#8).take 32).all (· == 0xFF#8) = true ∧
    ((booting [] { stage := .training }).boot.stage = .training ∧ (booting [] { stage := .starting }).boot.stage = .starting) ∧
    (({ booting [(MBX_SCRIBE_HANDLE 0, 1), (MBX_SCRIBE_STATE 0, 1), (MBX_SCRIBE_HANDLE 1, 2), (MBX_SCRIBE_STATE 1, 1)] { stage := .activating } with
        rubrics := [(1, { handle := 1, role := 1, base := true }), (2, { handle := 2, role := 2, base := true })]
        ruling := { gen := 1 } } : State).boot.stage = .activating ∧
      baseRuns { booting [(MBX_SCRIBE_HANDLE 0, 1), (MBX_SCRIBE_STATE 0, 1), (MBX_SCRIBE_HANDLE 1, 2), (MBX_SCRIBE_STATE 1, 1)] { stage := .activating } with
        rubrics := [(1, { handle := 1, role := 1, base := true }), (2, { handle := 2, role := 2, base := true })] } 1 = true ∧
      baseRuns { booting [(MBX_SCRIBE_HANDLE 0, 1), (MBX_SCRIBE_STATE 0, 1), (MBX_SCRIBE_HANDLE 1, 2), (MBX_SCRIBE_STATE 1, 1)] { stage := .activating } with
        rubrics := [(1, { handle := 1, role := 1, base := true }), (2, { handle := 2, role := 2, base := true })] } 2 = true ∧
      (Tab.find [(1, { handle := 1, role := 1, base := true }), (2, ({ handle := 2, role := 2, base := true } : Rubric))] 2).isSome = true ∧
      ({ handle := 2, role := 2, base := true } : Rubric).started < 1 ∧ BitVec.toNat 2500#32 ≤ 2500) ∧
    (booting [] { stage := .recovery }).boot.stage = .recovery := by decide +kernel

/-- The node in Writing with its management rubric on Scribe 7. -/
def managed (l : List (Fld × Nat)) (x : Mgmt) : State :=
  { node ([(MBX_SCRIBE_HANDLE 7, 5), (MBX_SCRIBE_STATE 7, 1), (MBX_SCRIBE_ROLE 7, 6), (PWR_STATE_STATE, 4)] ++ l) with
    rubrics := [(5, baseOf 6)], mgmt := x }

/-- A Host port 63 whose link is up, with the management rubric. -/
def managedPort (x : Mgmt) : State :=
  { portAt 0 3 [(MBX_SCRIBE_HANDLE 7, 5), (MBX_SCRIBE_STATE 7, 1), (MBX_SCRIBE_ROLE 7, 6), (PWR_STATE_STATE, 4)] with
    rubrics := [(5, baseOf 6)], mgmt := x }

/-- A message over MGMT0 arrives. -/
theorem reached_mgmt0 {s : State} {e : Envelope} {c b : Bool}
    (h : s.power.rails ≠ .off ∧ e.size ≤ 4096 ∧ addressed s e c = true ∧ e.vdm = none) : Reached s e c b :=
  ⟨h.1, h.2.1, h.2.2.1, .inl h.2.2.2⟩

theorem witness_MessagesReachTheResponder :
    Reached State.reset {} true true ∧ Reached (managed [] { eid := [(0, 8)] }) { eid := 8, size := 4096 } false false ∧
    Reached (powered [] { rails := .standby }) {} true false ∧
    Reached { powered [] { rails := .standby } with mgmt := { eid := [(0, 8)] } } { eid := 8 } false false ∧
    Reached { booting [] { stage := .recovery } with mgmt := { eid := [(0, 8)] } } { eid := 8, size := 1024 } false false ∧
    Reached { booting [] { stage := .recovery } with mgmt := { eid := [(0, 8)] } } { eid := 8, size := 1025 } false false ∧
    Reached { State.reset with mgmt := { eid := [(0, 8)] } } { eid := 8 } false true ∧
    Reached (managed [] { eid := [(0, 8)], spdm := [(0, ⟨true, true, true, some (3, 1)⟩)] }) { eid := 8 } false true ∧
    Reached (managedPort { eid := [(1, 9)] }) { vdm := some (63, 0, 0, 1), eid := 9 } false true :=
  ⟨reached_mgmt0 (by decide +kernel), reached_mgmt0 (by decide +kernel), reached_mgmt0 (by decide +kernel),
    reached_mgmt0 (by decide +kernel), reached_mgmt0 (by decide +kernel), reached_mgmt0 (by decide +kernel),
    reached_mgmt0 (by decide +kernel), reached_mgmt0 (by decide +kernel),
    by decide +kernel, by decide, by decide +kernel, .inr ⟨rfl, by decide +kernel, by decide +kernel, 63, rfl, by decide +kernel, by decide +kernel⟩⟩

theorem witness_ManagementCommandsAreServed :
    ((BitVec.toNat 7#8 < 8 ∧ BitVec.toNat 255#8 = 255 ∧ 8 ≤ BitVec.toNat 8#8 ∧ BitVec.toNat 254#8 ≠ 255)) ∧
    (linkUp (managedPort { eid := [(1, 9)] }) 63 0 = true ∧ (managedPort { eid := [(1, 9)] }).get (PRT_PORT_CTRL_ROLE 63) = 0 ∧
      addressed (managedPort { eid := [(1, 9)] }) { vdm := some (63, 0, 0, 1), eid := 9 } true = true) ∧
    4096 < ({ size := 4097 } : Envelope).size ∧
    (strap (booting [] { straps := BitVec.ofNat 15 (2 ^ 12) }) 6 = 1 ∧ BitVec.toNat 100#7 = 100 + strap (booting [] { straps := BitVec.ofNat 15 (2 ^ 12) }) 3 ∧
      State.reset.mgmt.address = none) ∧
    (5 < BitVec.toNat 6#8 ∧ BitVec.toNat 63#16 < 64 ∧ 64 ≤ BitVec.toNat 64#16 ∧ BitVec.toNat 4032#16 ≤ 4032) ∧
    ((managed [] { eid := [(0, 8)], armed := some 3 }).mgmt.armed = some 3) ∧
    (rubricServes State.reset = false ∧
      rubricServes (managed [] { eid := [(0, 8)] }) = true ∧ BitVec.toNat 3#8 < 4 ∧ (List.replicate 2420 (0 : BitVec 8)).length = 2420) ∧
    (BitVec.toNat 256#16 ≤ 256 ∧ 256 < BitVec.toNat 257#16 ∧ (managed [] { eid := [(0, 8)], update := some {} }).mgmt.update ≠ none) := by decide +kernel

/-- A managed node with an update under way. -/
def updating (u : Update) : State := managed [] { eid := [(0, 8)], update := some u }

theorem witness_PldmSensorsAndUpdatesAreServed :
    (0 ∉ numericSensors ∧ 36 ∈ numericSensors ∧
      sensorPresent { State.reset with variant := .v2096 } 36 = false ∧ sensorPresent State.reset 36 = true ∧
      (managed [] { eid := [(0, 8)], events := [(6, 1)] }).mgmt.events = [(6, 1)] ∧ rubricServes State.reset = false) ∧
    (({ State.reset with mgmt := { eid := [(0, 8)] } } : State).boot.stage ≠ .recovery ∧
      ({ booting [] { stage := .recovery } with mgmt := { eid := [(0, 8)] } } : State).boot.stage = .recovery) ∧
    ((updating {}).mgmt.update = some {} ∧ rubricServes (updating {}) = true ∧
      ({} : Update).stage = .learning ∧ ({ stage := .ready, component := 2 } : Update).component = (BitVec.toNat 2#16) ∧
      0 < BitVec.toNat 67108864#32 ∧ BitVec.toNat 67108864#32 ≤ 67108864 ∧
      ({ stage := .downloading, length := 1025, received := 1024 } : Update).received < 1025 ∧
      [7#8].length = min 1024 (1025 - 1024) ∧ [7#8, 8#8].length ≠ min 1024 (1025 - 1024) ∧
      ({ stage := .downloading, length := 1025, received := 1025 } : Update).length ≤ 1025 ∧
      ({ stage := .verified, component := 3 } : Update).stage = .verified) ∧
    ((updating { stage := .downloading, length := 1, received := 1 }).power.rails = .up ∧
      (updating { stage := .downloading, length := 1, received := 1 }).fatal = false ∧
      (managed [] {}).mgmt.update = none) := by decide +kernel

theorem witness_SpdmResponderServesItsMessages :
    (rubricServes { State.reset with mgmt := { eid := [(0, 8)] } } = false) ∧
    (rubricServes (managed [] { eid := [(0, 8)], spdm := [(0, ⟨true, true, true, some (3, 1)⟩)] }) = true ∧
      (conn (managed [] { eid := [(0, 8)], spdm := [(0, ⟨true, true, true, some (3, 1)⟩)] }) {}).algs = true ∧
      (conn (managed [] { eid := [(0, 8)] }) {}).algs = false) ∧
    (hasIdentity (managed [(FUS_STATUS_Q_CAUSE, 4)] {}) = false ∧ hasIdentity (managed [(FUS_STATUS_Q_CAUSE, 0)] {}) = true) ∧
    (16 < BitVec.toNat 17#8 ∧ (17#8 : BitVec 8) ≠ 255 ∧ 0 < BitVec.toNat 16#8 ∧ BitVec.toNat 16#8 ≤ 16) ∧
    (sessionHere (managed [] {}) {} 5 = none ∧ sessionHere (managed [] { sessions := [(5, {})] }) {} 5 = some {} ∧
      ({} : Session).established = false ∧ sessionHere (managed [] { sessions := [(5, { established := true })] }) {} 5 = some { established := true }) := by
  decide +kernel

theorem witness_FmApiServesCapacityCommands :
    rubricServes State.reset = false ∧
    rubricServes (managed [] { eid := [(0, 8)] }) = true ∧
    (({ State.reset with variant := .v2096 } : State).variant.ports ≤ 32 ∧ (63 : Nat) < State.reset.variant.ports ∧
      State.reset.get (PRT_PORT_CTRL_ROLE 63) = 0 ∧ (node [(PRT_PORT_CTRL_ROLE 63, 1)]).get (PRT_PORT_CTRL_ROLE 63) ≠ 0) ∧
    (regionRefused State.reset 63 15 7 (BitVec.allOnes 64) = false ∧
      regionRefused (node [(PRT_DC_USE_HELD (16 * 63 + 15) 7, 1)]) 63 15 7 (BitVec.allOnes 64) = true) ∧
    ((addExtent State.reset (extentOf 0)).2 = 4 ∧ (askRelease State.reset (extentOf 0)).2 = 4) := by decide +kernel

/-! ### Commands that no sender can form are not well formed -/

/-- A sensor gives one sample a line. -/
theorem test_wf_line_samples : (Instr.lineEdge { samples := [(3, 0, true), (3, 1, true)] }).wf = false := by decide
/-- There are sixteen clusters. -/
theorem test_wf_line_clusters : (Instr.lineEdge { milliwatts := List.replicate 17 0 }).wf = false := by decide
/-- Corrected and uncorrectable flits are among the received ones, for a lane as well, and a lane stands once. -/
theorem test_wf_line_flits : (Instr.lineEdge { flits := [⟨3, 0, 1, 1, 1, 0, []⟩] }).wf = false ∧
    (Instr.lineEdge { flits := [⟨3, 0, 2, 1, 1, 0, [(1, 3, 3)]⟩] }).wf = false ∧
    (Instr.lineEdge { flits := [⟨3, 0, 2, 1, 1, 0, [(1, 1, 1), (1, 1, 1)]⟩] }).wf = false := by decide
/-- A sub-link stands once, in a jump as well; the pump's read-back is a reading; a copy goes on once, and a die stands once. -/
theorem test_wf_line_links : (Instr.jump 0 { flits := [⟨3, 0, 2, 0, 0, 0, []⟩, ⟨3, 0, 2, 0, 0, 0, []⟩] }).wf = false ∧
    (Instr.lineEdge { reading := { blank := true, marginal := true } }).wf = false ∧
    (Instr.lineEdge { copies := [⟨1, 0, []⟩, ⟨1, 0, []⟩] }).wf = false ∧
    (Instr.lineEdge { copies := [⟨1, 0, [(0, 0, {}), (0, 0, {})]⟩] }).wf = false ∧
    (Instr.lineEdge { dies := [(0, 16), (0, 16)] }).wf = false := by decide
/-- A lent leaf's access has no TEE intent and asks for no copy. -/
theorem test_wf_request : (Instr.m2sReq ⟨3, 0, 0, 0, 0, 0, some 1, 0, true, some ⟨0, 0, 0, 0⟩, false, 0⟩).wf = false ∧
    (Instr.m2sReq ⟨3, 0, 0, 0, 0, 0, none, 1, true, some ⟨0, 0, 0, 0⟩, false, 0⟩).wf = false := by decide
/-- A symbol is wrong once in each reading. -/
theorem test_wf_read_run : (Instr.readDataReturn 0 { errors := [1, 1] }).wf = false ∧ (Instr.rereadComplete 0 { again := [39, 39] }).wf = false ∧
    (Instr.m2sRwd ⟨3, 0, 0, 0, 0, 0, none, 0, true, none, false, 0⟩ 0 0 false { errors := [1, 1] }).wf = false ∧
    (Instr.mapCacheMissFill { errors := [1, 1] }).wf = false ∧ (Instr.heatSweep { again := [1, 1] }).wf = false ∧
    (Instr.plPin { core := 0, map := { errors := [1, 1] } } 0 0).wf = false ∧ (Instr.st { core := 0 } 0 0 0 { errors := [1, 1] }).wf = false ∧
    (Instr.itemStart { core := 0, reads := [{}, { errors := [1, 1] }] }).wf = false := by decide
/-- The same of every other access that merges or looks a map block up. -/
theorem test_wf_core_reads : [Instr.stx { core := 8 } 0 0 0 false 0 { errors := [1, 1] },
    .atomSwap { core := 8 } 0 0 0 0 0 { errors := [1, 1] }, .atomAdd { core := 8 } 0 0 0 0 0 { errors := [1, 1] },
    .atomAnd { core := 8 } 0 0 0 0 0 { errors := [1, 1] }, .atomOr { core := 8 } 0 0 0 0 0 { errors := [1, 1] },
    .atomXor { core := 8 } 0 0 0 0 0 { errors := [1, 1] }, .atomMin { core := 8 } 0 0 0 0 0 { errors := [1, 1] },
    .atomMax { core := 8 } 0 0 0 0 0 { errors := [1, 1] }, .atomMinu { core := 8 } 0 0 0 0 0 { errors := [1, 1] },
    .atomMaxu { core := 8 } 0 0 0 0 0 { errors := [1, 1] }, .atomCas { core := 8 } 0 0 0 0 0 0 { errors := [1, 1] },
    .plUnpin { core := 0, map := { errors := [1, 1] } } 0 0, .plHeat { core := 0, map := { errors := [1, 1] } } 0 0,
    .plMove { core := 0, map := { errors := [1, 1] } } 0 0 0 1 .quire, .plResolve { core := 0, map := { errors := [1, 1] } } 0 0 0,
    .itemFetch 0 0 { ok := true, read := { errors := [1, 1] } }, .mapSwitch { slot := 0, map := { errors := [1, 1] } }].all
    (fun i => !i.wf) = true := by decide
/-- Lists of units have no repeats. -/
theorem test_wf_channel_lists : (Instr.commandPick 0 ⟨0, 0⟩ [1, 1]).wf = false ∧ (Instr.spareCopyComplete 0 [(1, 1, {}), (1, 1, {})]).wf = false ∧
    (Instr.retrainingPause 0 [1, 1] [] { fails := false }).wf = false ∧ (Instr.retrainingPause 0 [] [(1, true), (1, false)] { fails := false }).wf = false := by decide
/-- A copied leaf has 64 lines; slots and lines stand once. -/
theorem test_wf_move_lists : (Instr.moveCopyComplete 0 [(1, {}), (1, {})] []).wf = false ∧ (Instr.moveCopyComplete 0 [] [⟨0, 0, 0, 0⟩]).wf = false ∧
    (Instr.recall 3 0 [7, 7]).wf = false := by decide
/-- Link measurements and extents: a phase tries presets first, at most 24 coefficient steps after them. -/
theorem test_wf_link_lists : (Instr.equalizationPhaseEnd 3 ⟨0, 4⟩ { presets := [] }).wf = false ∧
    (Instr.equalizationPhaseEnd 3 ⟨0, 4⟩ { presets := [(1, ⟨0, 0, false⟩), (1, ⟨0, 1, false⟩)] }).wf = false ∧
    (Instr.equalizationPhaseEnd 3 ⟨0, 4⟩ { presets := [(1, ⟨0, 0, false⟩)], steps := List.replicate 25 (0, ⟨0, 0, false⟩) }).wf = false ∧
    (Instr.pairForward 0 true 0 0 0 { corrected := [1, 1] } false).wf = false ∧
    (Instr.marginStepComplete 3 0 4 5).wf = false ∧ (Instr.addDcResponse 3 0 [7, 7]).wf = false ∧
    (Instr.releaseDynamicCapacity 3 0 [7, 7]).wf = false := by decide
/-- LOAD and CLEAR of a key are rows of their own, not commands of KEY_QUERY. -/
theorem test_wf_key_query : (Instr.keyQuery 0 ⟨1, 0⟩).wf = false ∧ (Instr.keyQuery 0 ⟨2, 0⟩).wf = false := by decide
/-- A blank word shows no data and no flag. -/
theorem test_wf_fuse_readings : (Instr.fuseReadComplete { data := 1 }).wf = false ∧
    (Instr.fuseProgramComplete none { corrected := true }).wf = false ∧
    (Instr.rollbackRaise {} 0 1 none none true [{ reading := { data := 1 } }]).wf = false := by decide
/-- Boot readings, sensors, calibration results, spares and images stand once. -/
theorem test_wf_boot_lists : (Instr.resetRelease { straps1 := 0, straps2 := 0, straps3 := 0, readings := [(5, {}), (5, {})] }).wf = false ∧
    (Instr.resetRelease { straps1 := 0, straps2 := 0, straps3 := 0, readings := [(5, { data := 1 })] }).wf = false ∧
    (Instr.resetRelease { straps1 := 0, straps2 := 0, straps3 := 0, sensors := [(5, 0), (5, 1)] }).wf = false ∧
    (Instr.resetRelease { straps1 := 0, straps2 := 0, straps3 := 0, badSets := [(5, 0), (5, 0)] }).wf = false ∧
    (Instr.thermtripRestartCheck [(1, 0), (1, 0)]).wf = false ∧ (Instr.calHoldComplete 0 0 [(1, 0), (1, 1)] true 0).wf = false ∧
    (Instr.towerTrainingComplete { spares := [1, 1] }).wf = false ∧ (Instr.towerTrainingComplete { dies := [(0, 1), (0, 1)] }).wf = false ∧
    (Instr.baseRubricsStart [1, 1]).wf = false := by decide
/-- An ML-DSA-44 signature has 2,420 bytes, and a write of a mailbox stays inside its 64 KiB. -/
theorem test_wf_messages : (Instr.ownerProvision {} 0 0 0 [1] true []).wf = false ∧ (Instr.mailboxAreaWrite 3 0 []).wf = false ∧
    (Instr.mailboxAreaWrite 3 65535 [1, 2]).wf = false ∧ (Instr.mailboxAreaWrite 3 65534 [1, 2]).wf = true := by decide

/-! ### Worked examples of the spec -/

/-- 02_ruling.md, decoding a folio header: the CRC matches, and the fields are folio 1,000,000, its UTC seconds and epoch 7. -/
theorem test_folio_header : headerOk 0x000000F4240006955B90000071009517 = true ∧ hdrFolio 0x000000F4240006955B90000071009517 = 1000000 ∧
    hdrUtc 0x000000F4240006955B90000071009517 = 1767225600 ∧ hdrEpoch 0x000000F4240006955B90000071009517 = 7 := by decide +kernel
/-- The same header with one bit wrong fails its CRC. -/
theorem test_folio_header_bad : headerOk 0x000000F4240006955B90000071009516 = false := by decide +kernel

/-- 03_glyphs_towers_vertical_channels.md, a channel losing six data TSVs: after the fifth, position 39 is unmapped and one
unknown error is correctable; with four lost, two are. -/
theorem test_tsv_losses :
    erasures { node [(CHN_DATA_TSV_FAILED_FAILED 145, 2 ^ 12 + 2 ^ 30 + 2 ^ 41 + 2 ^ 7 + 2 ^ 22)] with
      chans := [(145, { applied := 2 ^ 12 + 2 ^ 30 + 2 ^ 41 + 2 ^ 7 + 2 ^ 22 })] } 145 = [39] ∧
    decodes { node [(CHN_DATA_TSV_FAILED_FAILED 145, 2 ^ 12 + 2 ^ 30 + 2 ^ 41 + 2 ^ 7 + 2 ^ 22)] with
      chans := [(145, { applied := 2 ^ 12 + 2 ^ 30 + 2 ^ 41 + 2 ^ 7 + 2 ^ 22 })] } 145 [3, 4] = false ∧
    decodes { node [(CHN_DATA_TSV_FAILED_FAILED 145, 2 ^ 12 + 2 ^ 30 + 2 ^ 41 + 2 ^ 7)] with
      chans := [(145, { applied := 2 ^ 12 + 2 ^ 30 + 2 ^ 41 + 2 ^ 7 })] } 145 [3, 4] = true := by decide +kernel
/-- The first failed TSV, D30 of a channel that had lost D12: position 29 is an erasure until the next pause shifts it. -/
theorem test_tsv_shift :
    physTsv (2 ^ 12) 29 = some 30 ∧ physTsv (2 ^ 12 + 2 ^ 30) 29 = some 31 ∧ physTsv (2 ^ 12 + 2 ^ 30 + 2 ^ 41 + 2 ^ 7) 39 = some 43 := by decide +kernel

/-- 04_channel_controllers.md, tower T1 across one folio: with s = 2,064, banks 34, 35 and 36 of channel 96 are due, and no
neighbour; it is the channel's pause line. -/
theorem test_refresh_line_16 :
    ((List.range 40).filter fun b => refreshDue { State.reset with ruling := { gen := 2064 } } 96 b) = [34, 35, 36] ∧
    slotCounter { State.reset with ruling := { gen := 2064 } } = State.reset.get (CHN_PAUSE_INTERVAL_PHASE 96) := by decide +kernel
/-- A hot rank's banks are due twice in 128 lines: those of rank 5 have positions 37 to 44 there. -/
theorem test_refresh_hot_rank :
    refreshPos State.reset 80 = 37 ∧ refreshPos State.reset 95 = 44 ∧
    refreshDue { node [(CHN_REFRESH_HOT_RANKS 96, 32)] with ruling := { gen := 2048 + 101 } } 96 80 = true ∧
    refreshDue { State.reset with ruling := { gen := 2048 + 101 } } 96 80 = false := by decide +kernel

/-- 05_ductus_placement.md, moving a hot leaf: its entry before and during the move, and after the switch. -/
theorem test_leaf_entry :
    entryWord (some { heat := 0xC8, lastSampler := 0x82, loc := ⟨200, 12, 1, 2, 733⟩ }) = 0x40C800082C8632DD ∧
    entryWord (some { heat := 0xC8, lastSampler := 0x82, loc := ⟨200, 12, 1, 2, 733⟩, moving := true }) = 0x48C800082C8632DD ∧
    entryWord (some { heat := 0xC8, lastSampler := 0x82, loc := ⟨40, 3, 2, 0, 1021⟩, moving := true }) = 0x48C800082281C3FD := by
  decide +kernel
/-- Splitting a work item: operand 0 of 24 KiB from 0x4000_0800 lies on seven leaves, half of the first and of the last. -/
theorem test_operand_pieces : pieces { addr := 0x40000800, lines := 384 } =
    [(262144, 32), (262145, 64), (262146, 64), (262147, 64), (262148, 64), (262149, 64), (262150, 32)] := by decide +kernel

/-- 06_accounts_guarantees.md, admission: rate and share of account 10 (2,700,032 bytes in 8 lines over 16 channels). -/
theorem test_account_share :
    (⟨10, 1, 8, 3000, 1, 0, 0, 0, 42188⟩ : Terms).rate = 337504 ∧
    (⟨10, 1, 8, 3000, 1, 0, 0, 0, 42188⟩ : Terms).share ((List.range 16).map (64 + ·)) (List.range 256) 64 = 21094 ∧
    (⟨12, 2, 8, 0, 0, 0, 0, 0, 10000⟩ : Terms).share [] (List.range 256) 64 = 313 := by decide +kernel
/-- A channel lost: account 11, of the lowest standing, is lowered to 899 and the firm account to 0. -/
theorem test_standing_rule :
    (11, 899) ∈ retained [(10, true, 3000, 22501), (11, true, 2000, 1524), (12, false, 0, 313)] 23400 ∧
    (10, 22501) ∈ retained [(10, true, 3000, 22501), (11, true, 2000, 1524), (12, false, 0, 313)] 23400 ∧
    (12, 0) ∈ retained [(10, true, 3000, 22501), (11, true, 2000, 1524), (12, false, 0, 313)] 23400 := by decide +kernel
/-- Account 11's EFFECTIVE becomes 906,048 bytes; on the narrowed link of 08_lanes_through_paths.md, 880,000. -/
theorem test_effective_guarantee :
    64 * effectiveOf (node [(ACC_RATE_GUARANTEE 11, 24000)]) [⟨0, 23400, [(10, true, 3000, 22501), (11, true, 2000, 1524), (12, false, 0, 313)]⟩] 11 (1, 1) = 906048 ∧
    64 * effectiveOf (node [(ACC_RATE_GUARANTEE 11, 24000)]) [⟨0, 55000, [(11, true, 2000, 96000)]⟩] 11 (1, 1) = 880000 := by decide +kernel

/-- 11_bexorn_device_rubrics.md, the records of accounts 20 and 21. -/
theorem test_account_records :
    (termsOf 20 0x5DDC010080060014 0x0000009C40007D00).cls = 1 ∧ (termsOf 20 0x5DDC010080060014 0x0000009C40007D00).win = 8 ∧
    (termsOf 20 0x5DDC010080060014 0x0000009C40007D00).standing = 3000 ∧ (termsOf 20 0x5DDC010080060014 0x0000009C40007D00).slot = 4 ∧
    (termsOf 20 0x5DDC010080060014 0x0000009C40007D00).guarantee = 32000 ∧ (termsOf 20 0x5DDC010080060014 0x0000009C40007D00).ceiling = 40000 ∧
    (termsOf 21 0xA000002C08000015 0x0000FFFFFF003A98).urg = 11 ∧ (termsOf 21 0xA000002C08000015 0x0000FFFFFF003A98).owner = 0x0800 := by
  decide +kernel

/-- 16_calibration.md, TSV D20: +6 at 45 °C and +10 at 70 °C give 8 at 60.25 °C; with +9 at 61.0 °C, 66.0 °C gives 10. -/
theorem test_calibration_values :
    baseValue { sets := [(2, [(20, 6)]), (3, [(20, 10)])] } 20 241 = 8 ∧
    baseValue { sets := [(2, [(20, 6)]), (3, [(20, 10)])], field := some (244, [(20, 9)]) } 20 264 = 10 := by decide +kernel

/-- 21_bring_up_boot.md, slot A rolled back: the DETAIL of the refusal. -/
theorem test_rollback_detail : refusalDetail 6 0 0xFF = 0x0600FF0000000000 := by decide

/-- Step 4 of the summing loop of 10_bexorn_machine.md: w2 counts down by one. -/
theorem test_addi_counts_down : ∃ t, exec (.addi { core := 7 } 2 2 0x1F) (coreAt 7 { program with regs := [(2, 5)], pc := 4 }) = .next t ∧
    (Machine.core t 7).w 2 = 4 ∧ (Machine.core t 7).pc = 5 := by
  refine ⟨_, rfl, ?_, ?_⟩ <;> decide +kernel

/-- R153 places leaf 40 of quire 2,048 on channel 200, and, in 18_blotter_faults.md, leaf 105 of quire 8,217 on channel 70. -/
theorem test_leaf_home : (placeLeaf State.reset 2048 40).map (·.chan) = some 200 ∧ (placeLeaf State.reset 8217 105).map (·.chan) = some 70 := by
  decide +kernel

end Sys2Proof.Tests
end

section
/-! What a write makes of a register, field by field (R11, R12, Table 0-5). -/

namespace Sys2Proof.Machine

/-! ### Bits of numbers -/

theorem bit_eq_testBit (n i : Nat) : bit n i = n.testBit i := by
  rw [bit, Nat.testBit_eq_decide_div_mod_eq]

theorem testBit_bitsOf (n lo w i : Nat) : (bitsOf n lo w).testBit i = (decide (i < w) && n.testBit (lo + i)) := by
  rw [bitsOf, Nat.testBit_mod_two_pow, Nat.testBit_div_two_pow, Nat.add_comm]

theorem bitsOf_lt (n lo w : Nat) : bitsOf n lo w < 2 ^ w := Nat.mod_lt _ (Nat.two_pow_pos w)

/-- Clearing the bits that two numbers share. -/
theorem testBit_sub_and (a b i : Nat) : (a - (a &&& b)).testBit i = (a.testBit i && !b.testBit i) := by
  induction i generalizing a b with
  | zero =>
    have hle : a &&& b ≤ a := Nat.and_le_left
    have hb : (a &&& b) % 2 = a % 2 * (b % 2) := by
      rw [Nat.and_mod_two_pow (n := 1)]
      rcases Nat.mod_two_eq_zero_or_one a with ha | ha <;> rcases Nat.mod_two_eq_zero_or_one b with hb | hb <;> simp [ha, hb]
    rw [Nat.testBit_zero, Nat.testBit_zero, Nat.testBit_zero, Bool.eq_iff_iff]
    simp only [Bool.and_eq_true, Bool.not_eq_true', decide_eq_true_eq, decide_eq_false_iff_not]
    generalize a &&& b = c at hle hb
    rcases Nat.mod_two_eq_zero_or_one a with ha | ha <;> rcases Nat.mod_two_eq_zero_or_one b with hb' | hb' <;>
      rw [ha, hb'] at hb <;> omega
  | succ i ih =>
    have hle : a &&& b ≤ a := Nat.and_le_left
    have hd : (a &&& b) / 2 = a / 2 &&& b / 2 := Nat.and_div_two
    have hm : (a &&& b) % 2 ≤ a % 2 := by
      rw [Nat.and_mod_two_pow (n := 1)]
      exact Nat.and_le_left
    have : (a - (a &&& b)) / 2 = a / 2 - (a / 2 &&& b / 2) := by omega
    simp only [Nat.testBit_succ, this, ih]

/-- A field's value is decided by the bits it covers. -/
theorem bitsOf_congr {x y : BitVec 64} {lo w : Nat} (h : ∀ i, lo ≤ i → i < lo + w → x.getLsbD i = y.getLsbD i) :
    bitsOf x.toNat lo w = bitsOf y.toNat lo w := by
  apply Nat.eq_of_testBit_eq
  intro i
  rw [testBit_bitsOf, testBit_bitsOf]
  by_cases hi : i < w
  · simpa [hi, BitVec.testBit_toNat] using h (lo + i) (by omega) (by omega)
  · simp [hi]

theorem bitsOf_putField (x : BitVec 64) {lo w v : Nat} (h : lo + w ≤ 64) (hv : v < 2 ^ w) :
    bitsOf (putField x lo w v).toNat lo w = v := by
  apply Nat.eq_of_testBit_eq
  intro i
  rw [testBit_bitsOf, BitVec.testBit_toNat]
  by_cases hi : i < w
  · rw [putField_getLsbD _ _ _ _ _ (by omega), if_pos (by omega)]
    simp [hi]
  · have : v.testBit i = false := Nat.testBit_lt_two_pow (hv.trans_le (Nat.pow_le_pow_right (by decide) (by omega)))
    simp [hi, this]

theorem putField_getLsbD_outside (x : BitVec 64) {lo w v i : Nat} (hi : i < 64) (h : i < lo ∨ lo + w ≤ i) :
    (putField x lo w v).getLsbD i = x.getLsbD i := by
  rw [putField_getLsbD _ _ _ _ _ hi, if_neg (by omega)]

/-! ### One field -/

/-- What a field holds after a write, by its access code (Table 0-5). -/
def fieldAfter (locked : Bool) (f : FieldSpec) (old written : Nat) : Nat :=
  match f.acc with
  | .ro | .wo => old
  | .w1c => old - (old &&& written)
  | .rw => if f.enc < written then old else written
  | .rwl => if locked = true ∨ f.enc < written then old else written

/-- Whether a field owes a Notice of the write (R12). -/
def NoticeOwed (locked : Bool) (f : FieldSpec) (old written : Nat) : Prop :=
  (f.acc = .rw ∧ f.enc < written) ∨ (f.acc = .rwl ∧ written ≠ old ∧ (locked = true ∨ f.enc < written))

/-- Two fields share no bit. -/
abbrev FieldSpec.Apart (f g : FieldSpec) : Prop := f.lo + f.width ≤ g.lo ∨ g.lo + g.width ≤ f.lo

theorem mergeField_getLsbD_outside (locked : Bool) (n : Nat) (acc : BitVec 64 × Bool) (f : FieldSpec) {i : Nat} (hi : i < 64)
    (h : i < f.lo ∨ f.lo + f.width ≤ i) : (mergeField locked n acc f).1.getLsbD i = acc.1.getLsbD i := by
  cases hf : f.acc <;> simp only [mergeField, hf]
  case w1c => exact putField_getLsbD_outside _ hi h
  case rw => split <;> simp [putField_getLsbD_outside _ hi h]
  case rwl =>
    split
    · rfl
    · split <;> simp [putField_getLsbD_outside _ hi h]

theorem mergeField_bitsOf_apart (locked : Bool) (n : Nat) (acc : BitVec 64 × Bool) {f g : FieldSpec} (h : f.Apart g)
    (hg : g.lo + g.width ≤ 64) :
    bitsOf (mergeField locked n acc f).1.toNat g.lo g.width = bitsOf acc.1.toNat g.lo g.width := by
  refine bitsOf_congr fun i h1 h2 => mergeField_getLsbD_outside locked n acc f (by omega) ?_
  rcases h with h | h
  · exact .inr (by omega)
  · exact .inl (by omega)

theorem mergeField_bitsOf (locked : Bool) (n : Nat) (acc : BitVec 64 × Bool) {f : FieldSpec} (h : f.lo + f.width ≤ 64) :
    bitsOf (mergeField locked n acc f).1.toNat f.lo f.width =
      fieldAfter locked f (bitsOf acc.1.toNat f.lo f.width) (bitsOf n f.lo f.width) := by
  have hput := fun v hv => bitsOf_putField acc.1 (v := v) h hv
  have ho := bitsOf_lt acc.1.toNat f.lo f.width
  have hn := bitsOf_lt n f.lo f.width
  cases hf : f.acc <;> simp only [mergeField, fieldAfter, hf]
  case w1c => exact hput _ (by omega)
  case rw => split <;> simp [hput _ hn]
  case rwl =>
    split
    · next he => simp [he]
    · by_cases hl : locked = true ∨ f.enc < bitsOf n f.lo f.width
      · rw [if_pos (by simpa using hl), if_pos hl]
      · rw [if_neg (by simpa using hl), if_neg hl, hput _ hn]

theorem mergeField_owes_iff (locked : Bool) (n : Nat) (acc : BitVec 64 × Bool) (f : FieldSpec) :
    (mergeField locked n acc f).2 = true ↔
      acc.2 = true ∨ NoticeOwed locked f (bitsOf acc.1.toNat f.lo f.width) (bitsOf n f.lo f.width) := by
  cases hf : f.acc <;> simp only [mergeField, NoticeOwed, hf] <;> simp
  case rw => split <;> simp [*]
  case rwl =>
    split
    · simp [*]
    · by_cases hl : locked = true ∨ f.enc < bitsOf n f.lo f.width <;> simp [*]

/-! ### A register's fields in turn -/

theorem foldl_mergeField_getLsbD_outside (locked : Bool) (n : Nat) (l : List FieldSpec) (acc : BitVec 64 × Bool) {i : Nat}
    (hi : i < 64) (h : ∀ f ∈ l, i < f.lo ∨ f.lo + f.width ≤ i) :
    (l.foldl (mergeField locked n) acc).1.getLsbD i = acc.1.getLsbD i := by
  induction l generalizing acc with
  | nil => rfl
  | cons f r ih =>
    rw [List.foldl_cons, ih _ fun g hg => h g (List.mem_cons_of_mem _ hg)]
    exact mergeField_getLsbD_outside locked n acc f hi (h f List.mem_cons_self)

theorem foldl_mergeField_bitsOf (locked : Bool) (n : Nat) (l : List FieldSpec) (acc : BitVec 64 × Bool)
    (hl : l.Pairwise FieldSpec.Apart) (hw : ∀ f ∈ l, f.lo + f.width ≤ 64) :
    ∀ f ∈ l, bitsOf (l.foldl (mergeField locked n) acc).1.toNat f.lo f.width =
      fieldAfter locked f (bitsOf acc.1.toNat f.lo f.width) (bitsOf n f.lo f.width) := by
  induction l generalizing acc with
  | nil => simp
  | cons g r ih =>
    obtain ⟨hg, hr⟩ := List.pairwise_cons.1 hl
    intro f hf
    rw [List.foldl_cons]
    rcases List.mem_cons.1 hf with rfl | hf'
    · rw [← mergeField_bitsOf locked n acc (hw f hf)]
      refine bitsOf_congr fun i h1 h2 => foldl_mergeField_getLsbD_outside locked n r _ ?_ fun k hk => ?_
      · have := hw f hf
        omega
      · rcases hg k hk with h | h
        · exact .inl (by omega)
        · exact .inr (by omega)
    · rw [ih _ hr (fun k hk => hw k (List.mem_cons_of_mem _ hk)) f hf', mergeField_bitsOf_apart locked n acc (hg f hf') (hw f hf)]

theorem foldl_mergeField_owes_iff (locked : Bool) (n : Nat) (l : List FieldSpec) (acc : BitVec 64 × Bool)
    (hl : l.Pairwise FieldSpec.Apart) (hw : ∀ f ∈ l, f.lo + f.width ≤ 64) :
    (l.foldl (mergeField locked n) acc).2 = true ↔ acc.2 = true ∨
      ∃ f ∈ l, NoticeOwed locked f (bitsOf acc.1.toNat f.lo f.width) (bitsOf n f.lo f.width) := by
  induction l generalizing acc with
  | nil => simp
  | cons g r ih =>
    obtain ⟨hg, hr⟩ := List.pairwise_cons.1 hl
    have hw' := fun k hk => hw k (List.mem_cons_of_mem g hk)
    have hsame : ∀ f ∈ r, bitsOf (mergeField locked n acc g).1.toNat f.lo f.width = bitsOf acc.1.toNat f.lo f.width :=
      fun f hf => mergeField_bitsOf_apart locked n acc (hg f hf) (hw' f hf)
    rw [List.foldl_cons, ih _ hr hw', mergeField_owes_iff, or_assoc, List.exists_mem_cons_iff]
    refine or_congr_right (or_congr_right (exists_congr fun f => and_congr_right fun hf => ?_))
    rw [hsame f hf]

/-- The fields of every register of the desk are apart and lie in its 64 bits (the register tables of chapters 2 to 19). -/
theorem Reg.fields_apart (r : Reg) : r.fields.Pairwise FieldSpec.Apart ∧ ∀ f ∈ r.fields, f.lo + f.width ≤ 64 := by
  cases r <;> decide

/-- Settles O1: each field by `fieldAfter`, since the fields of a register share no bit. -/
theorem registerFieldsFollowTheirAccessCodes : Obligations.RegisterFieldsFollowTheirAccessCodes := by
  rintro r locked n w x rfl
  obtain ⟨hap, hin⟩ := r.fields_apart
  refine ⟨?_, fun i hi h => foldl_mergeField_getLsbD_outside locked n r.fields (w, false) hi h, ?_⟩
  · rintro f hf old written new rfl rfl rfl
    rw [foldl_mergeField_bitsOf locked n r.fields (w, false) hap hin f hf]
    refine ⟨?_, fun ha => by simp [fieldAfter, ha], fun ha i => ?_, fun ha => by simp [fieldAfter, ha]⟩
    · rintro (ha | ha) <;> simp [fieldAfter, ha]
    · simp [fieldAfter, ha, bit_eq_testBit, testBit_sub_and]
  · simpa [NoticeOwed] using foldl_mergeField_owes_iff locked n r.fields (w, false) hap hin

end Sys2Proof.Machine
end

section
/-! Memory reads back what was stored: media lines (R135, R144) and the bytes of a core's memory (R6). -/

namespace Sys2Proof.Machine

/-! ### Bytes of a core's memory -/

theorem at_foldl_putBytes (m : Tab (BitVec 8)) (a : Nat) (l : List (BitVec 8)) (k b : Nat) :
    Tab.at ((l.zipIdx k).foldl (fun m (x, i) => Tab.put m (a + i) x 0) m) b 0 =
      if a + k ≤ b ∧ b < a + k + l.length then l.getD (b - (a + k)) 0 else Tab.at m b 0 := by
  induction l generalizing m k with
  | nil => rw [if_neg (by simp)]; rfl
  | cons x r ih =>
    rw [List.zipIdx_cons, List.foldl_cons, ih]
    by_cases hb : b = a + k
    · subst hb
      simp
    · simp only [Tab.at_put_ne _ _ _ _ hb, List.length_cons]
      by_cases h : a + (k + 1) ≤ b ∧ b < a + (k + 1) + r.length
      · obtain ⟨j, rfl⟩ : ∃ j, b = a + k + (j + 1) := ⟨b - (a + k) - 1, by omega⟩
        rw [if_pos h, if_pos (by omega), show a + k + (j + 1) - (a + (k + 1)) = j by omega,
          show a + k + (j + 1) - (a + k) = j + 1 by omega, List.getD_cons_succ]
      · rw [if_neg h, if_neg (by omega)]

/-- What a byte holds after bytes have been written from `a` on. -/
theorem at_putBytes (m : Tab (BitVec 8)) (a : Nat) (l : List (BitVec 8)) (b : Nat) :
    Tab.at (putBytes m a l) b 0 = if a ≤ b ∧ b < a + l.length then l.getD (b - a) 0 else Tab.at m b 0 :=
  at_foldl_putBytes m a l 0 b

theorem at_putBytes_outside (m : Tab (BitVec 8)) (a : Nat) (l : List (BitVec 8)) {b : Nat} (h : b < a ∨ a + l.length ≤ b) :
    Tab.at (putBytes m a l) b 0 = Tab.at m b 0 := by
  rw [at_putBytes, if_neg (by omega)]

theorem bytesAt_putBytes (m : Tab (BitVec 8)) (a : Nat) (l : List (BitVec 8)) : bytesAt (putBytes m a l) a l.length = l := by
  apply List.ext_getElem
  · simp [bytesAt]
  · intro i h1 h2
    simp only [bytesAt, List.getElem_map, List.getElem_range]
    rw [at_putBytes, if_pos (by omega), Nat.add_sub_cancel_left, List.getD_eq_getElem _ _ h2]

/-! ### Media lines -/

/-- What a place holds after a line has been stored at several. -/
theorem lineAt_each_setLine (l : List Loc) (s : State) (i : Nat) (m : MediaLine) (p : Loc) (j : Nat) :
    lineAt (s.each l fun s q => setLine s q i m) p j = if ∃ q ∈ l, p.addr j = q.addr i then m else lineAt s p j := by
  induction l generalizing s with
  | nil => simp
  | cons q r ih =>
    simp only [State.each_cons, ih, List.exists_mem_cons_iff]
    by_cases hr : ∃ k ∈ r, p.addr j = k.addr i
    · rw [if_pos hr, if_pos (.inr hr)]
    · by_cases hq : p.addr j = q.addr i
      · rw [if_neg hr, if_pos (.inl hq), lineAt, setLine, hq, Tab.at_put_self]
        rfl
      · rw [if_neg hr, if_neg (by simp [hq, hr]), lineAt, setLine, Tab.at_put_ne _ _ _ _ hq]
        rfl

theorem each_setLine_with_media (l : List Loc) (s : State) (i : Nat) (m : MediaLine) :
    { (s.each l fun s q => setLine s q i m) with media := s.media } = s := by
  induction l generalizing s with
  | nil => rfl
  | cons q r ih => exact congrArg (fun t : State => { t with media := s.media }) (ih (setLine s q i m))

theorem storeLine_with_media (s : State) (l : Loc) (i : Nat) (m : MediaLine) :
    { storeLine s l i m with media := s.media } = s := each_setLine_with_media _ s i m

/-- Which place serves a location is decided by the registers and the channels, not by the media. -/
theorem physRead_storeLine (s : State) (l : Loc) (i : Nat) (m : MediaLine) (k : Loc) :
    physRead (storeLine s l i m) k = physRead s k :=
  calc physRead (storeLine s l i m) k
    _ = physRead { storeLine s l i m with media := s.media } k := rfl
    _ = physRead s k := by rw [storeLine_with_media]

/-- A write reaches the place that serves reads, also while a spare copy stands at the row (R135). -/
theorem physRead_mem_physWrite (s : State) (l : Loc) : physRead s l ∈ physWrite s l := by
  unfold physRead physWrite
  cases substituted s l
  case false => simp
  case true =>
    cases copyAt s l.chan with
    | none => simp
    | some p =>
      simp only [Bool.not_true, Bool.false_eq_true, if_false]
      by_cases hlt : copyPos l.bankIndex l.row < p
      · simp [hlt]
      · by_cases heq : copyPos l.bankIndex l.row = p <;> simp [hlt, heq]

theorem loadLine_storeLine (s : State) (l : Loc) (i : Nat) (m : MediaLine) (k : Loc) (j : Nat) :
    loadLine (storeLine s l i m) k j =
      if ∃ q ∈ physWrite s l, (physRead s k).addr j = q.addr i then m else loadLine s k j := by
  rw [loadLine, physRead_storeLine]
  exact lineAt_each_setLine (physWrite s l) s i m (physRead s k) j

/-- Settles O2: a store reaches the place that serves the location, and only the places of `physWrite`. -/
theorem memoryReadsBackWhatWasStored : Obligations.MemoryReadsBackWhatWasStored := by
  refine ⟨fun s l i m => ⟨?_, fun k j h => ?_, storeLine_with_media s l i m, (storeLine_kept (.refl s)).media⟩,
    fun m a l => ⟨bytesAt_putBytes m a l, fun b h => at_putBytes_outside m a l h⟩⟩
  · rw [loadLine_storeLine, if_pos ⟨_, physRead_mem_physWrite s l, rfl⟩]
  · rw [loadLine_storeLine, if_neg (by simpa using h)]

end Sys2Proof.Machine
end

section
/-! Every command completes and keeps what no command changes (R2, log entries 1 and 3). -/

namespace Sys2Proof.Machine

/-- Every row of the opcode table ends in a state that keeps what every step keeps: one arm of the dispatch, one lemma. -/
theorem exec_ends (i : Instr) (s : State) : Ends s (exec i s) :=
  have h : Kept s s := .refl s
  match i with
  | .lineEdge .. => execLineEdge_ends h
  | .rulePulse .. => execRulePulse_ends h
  | .folioHeader => execFolioHeader_ends h
  | .announce .. => execAnnounce_ends h
  | .syncRequest .. => execSyncRequest_ends h
  | .syncResponse .. => execSyncResponse_ends h
  | .ptmDialogComplete .. => execPtmDialogComplete_ends h
  | .jump .. => execJump_ends h
  | .sourceRevert .. => execSourceRevert_ends h
  | .rulSourceWrite .. => execRulSourceWrite_ends h
  | .sourceOrderApply => execSourceOrderApply_ends h
  | .rulEventFire .. => execRulEventFire_ends h
  | .rulEventCtrlWrite .. => execRulEventCtrlWrite_ends h
  | .rulEventTimeWrite .. => execRulEventTimeWrite_ends h
  | .rulEventAddrWrite .. => execRulEventAddrWrite_ends h
  | .rulClearCounts => execRulClearCounts_ends h
  | .m2sReq .. => execM2sReq_ends h
  | .m2sRwd .. => execM2sRwd_ends h
  | .commandPick .. => execCommandPick_ends h
  | .readDataReturn .. => execReadDataReturn_ends h
  | .mapCacheMissFill .. => execMapCacheMissFill_ends h
  | .rereadComplete .. => execRereadComplete_ends h
  | .spareCopyComplete .. => execSpareCopyComplete_ends h
  | .rowIdleClose .. => execRowIdleClose_ends h
  | .refreshDue .. => execRefreshDue_ends h
  | .backstopExpiry .. => execBackstopExpiry_ends h
  | .targetedRefresh .. => execTargetedRefresh_ends h
  | .retrainingPause .. => execRetrainingPause_ends h
  | .pauseComplete .. => execPauseComplete_ends h
  | .pauseLengthLimit .. => execPauseLengthLimit_ends h
  | .repairPause .. => execRepairPause_ends h
  | .parityAlert .. => execParityAlert_ends h
  | .signalCopyFailed .. => execSignalCopyFailed_ends h
  | .towerSupplyFault .. => execTowerSupplyFault_ends h
  | .chnSchedWrite .. => execChnSchedWrite_ends h
  | .chnPoolRead .. => execChnPoolRead_ends h
  | .heatSweep .. => execHeatSweep_ends h
  | .decisionEpoch => execDecisionEpoch_ends h
  | .moveCopyComplete .. => execMoveCopyComplete_ends h
  | .mapSwitch .. => execMapSwitch_ends h
  | .movingClear .. => execMovingClear_ends h
  | .sourceSlotFree .. => execSourceSlotFree_ends h
  | .recall .. => execRecall_ends h
  | .recallTimeout => execRecallTimeout_ends h
  | .workPlace => execWorkPlace_ends h
  | .premigrateRelease => execPremigrateRelease_ends h
  | .dctSpreadSetWrite .. => execDctSpreadSetWrite_ends h
  | .accountWindowEnd .. => execAccountWindowEnd_ends h
  | .missCheck .. => execMissCheck_ends h
  | .shortfallEvaluation => execShortfallEvaluation_ends h
  | .admitTakeEffect => execAdmitTakeEffect_ends h
  | .urgencyMessage .. => execUrgencyMessage_ends h
  | .keyLoad .. => execKeyLoad_ends h
  | .keyClear .. => execKeyClear_ends h
  | .keyQuery .. => execKeyQuery_ends h
  | .keyClearComplete .. => execKeyClearComplete_ends h
  | .tspGetVersion .. => execTspGetVersion_ends h
  | .tspSetTargetConfig .. => execTspSetTargetConfig_ends h
  | .tspLockTargetConfig .. => execTspLockTargetConfig_ends h
  | .tspSetKey .. => execTspSetKey_ends h
  | .tspClearKey .. => execTspClearKey_ends h
  | .tspSetTeState .. => execTspSetTeState_ends h
  | .resealStart .. => execResealStart_ends h
  | .resealComplete => execResealComplete_ends h
  | .ideKmMessage .. => execIdeKmMessage_ends h
  | .ideIntegrityFailure .. => execIdeIntegrityFailure_ends h
  | .linkTrainingComplete .. => execLinkTrainingComplete_ends h
  | .lockLoss .. => execLockLoss_ends h
  | .lockTimeout .. => execLockTimeout_ends h
  | .recoveryComplete .. => execRecoveryComplete_ends h
  | .linkDown .. => execLinkDown_ends h
  | .equalizationRequest .. => execEqualizationRequest_ends h
  | .equalizationPhaseEnd .. => execEqualizationPhaseEnd_ends h
  | .marginStart .. => execMarginStart_ends h
  | .marginStepComplete .. => execMarginStepComplete_ends h
  | .portRetrain .. => execPortRetrain_ends h
  | .bifurcationWrite .. => execBifurcationWrite_ends h
  | .pairEnableWrite .. => execPairEnableWrite_ends h
  | .pairForward .. => execPairForward_ends h
  | .pairReady .. => execPairReady_ends h
  | .pairReadyTimeout .. => execPairReadyTimeout_ends h
  | .l0pNarrow .. => execL0pNarrow_ends h
  | .l0pWiden .. => execL0pWiden_ends h
  | .aspmL1Entry .. => execAspmL1Entry_ends h
  | .aspmL1Exit .. => execAspmL1Exit_ends h
  | .dozeEnableMessage .. => execDozeEnableMessage_ends h
  | .lanDozeWrite .. => execLanDozeWrite_ends h
  | .halfDozeEntry .. => execHalfDozeEntry_ends h
  | .halfDozeWake .. => execHalfDozeWake_ends h
  | .electricalIdleExit .. => execElectricalIdleExit_ends h
  | .falseWake .. => execFalseWake_ends h
  | .backoffEnd .. => execBackoffEnd_ends h
  | .roleWrite .. => execRoleWrite_ends h
  | .prtLdWrite .. => execPrtLdWrite_ends h
  | .dcRegionWrite .. => execDcRegionWrite_ends h
  | .extentAdd .. => execExtentAdd_ends h
  | .extentBlankComplete => execExtentBlankComplete_ends h
  | .addDcResponse .. => execAddDcResponse_ends h
  | .releaseRequest .. => execReleaseRequest_ends h
  | .releaseDynamicCapacity .. => execReleaseDynamicCapacity_ends h
  | .releaseRetry => execReleaseRetry_ends h
  | .birsp .. => execBirsp_ends h
  | .biTimeout => execBiTimeout_ends h
  | .coarseSweep => execCoarseSweep_ends h
  | .pbrTransit .. => execPbrTransit_ends h
  | .barAccess .. => execBarAccess_ends h
  | .configRequest .. => execConfigRequest_ends h
  | .viralReceived .. => execViralReceived_ends h
  | .identifyMemoryDevice .. => execIdentifyMemoryDevice_ends h
  | .getSupportedLogs .. => execGetSupportedLogs_ends h
  | .getLog .. => execGetLog_ends h
  | .cxlGetEventRecords .. => execCxlGetEventRecords_ends h
  | .cxlClearEventRecords .. => execCxlClearEventRecords_ends h
  | .getDcConfiguration .. => execGetDcConfiguration_ends h
  | .getDcExtentList .. => execGetDcExtentList_ends h
  | .add .. => execAdd_ends h
  | .sub .. => execSub_ends h
  | .and .. => execAnd_ends h
  | .or .. => execOr_ends h
  | .xor .. => execXor_ends h
  | .shl .. => execShl_ends h
  | .shr .. => execShr_ends h
  | .sar .. => execSar_ends h
  | .mul .. => execMul_ends h
  | .addi .. => execAddi_ends h
  | .shli .. => execShli_ends h
  | .shri .. => execShri_ends h
  | .sari .. => execSari_ends h
  | .li .. => execLi_ends h
  | .cmp .. => execCmp_ends h
  | .cmpi .. => execCmpi_ends h
  | .cmpl .. => execCmpl_ends h
  | .plog .. => execPlog_ends h
  | .movc .. => execMovc_ends h
  | .addl .. => execAddl_ends h
  | .andl .. => execAndl_ends h
  | .orl .. => execOrl_ends h
  | .xorl .. => execXorl_ends h
  | .lis .. => execLis_ends h
  | .aluxAdd .. => execAluxAdd_ends h
  | .aluxSub .. => execAluxSub_ends h
  | .aluxAnd .. => execAluxAnd_ends h
  | .aluxOr .. => execAluxOr_ends h
  | .aluxXor .. => execAluxXor_ends h
  | .aluxAndn .. => execAluxAndn_ends h
  | .aluxShl .. => execAluxShl_ends h
  | .aluxShr .. => execAluxShr_ends h
  | .aluxSar .. => execAluxSar_ends h
  | .aluxMul .. => execAluxMul_ends h
  | .aluxMulh .. => execAluxMulh_ends h
  | .aluxMulhu .. => execAluxMulhu_ends h
  | .aluxDiv .. => execAluxDiv_ends h
  | .aluxDivu .. => execAluxDivu_ends h
  | .aluxRem .. => execAluxRem_ends h
  | .aluxRemu .. => execAluxRemu_ends h
  | .aluxMin .. => execAluxMin_ends h
  | .aluxMax .. => execAluxMax_ends h
  | .aluxMinu .. => execAluxMinu_ends h
  | .aluxMaxu .. => execAluxMaxu_ends h
  | .aluxClz .. => execAluxClz_ends h
  | .aluxCtz .. => execAluxCtz_ends h
  | .aluxPopc .. => execAluxPopc_ends h
  | .aluxBswap .. => execAluxBswap_ends h
  | .aluxSext32 .. => execAluxSext32_ends h
  | .aluxZext32 .. => execAluxZext32_ends h
  | .br .. => execBr_ends h
  | .brl .. => execBrl_ends h
  | .jal .. => execJal_ends h
  | .jall .. => execJall_ends h
  | .jalr .. => execJalr_ends h
  | .ld .. => execLd_ends h
  | .st .. => execSt_ends h
  | .ldx .. => execLdx_ends h
  | .stx .. => execStx_ends h
  | .deviceLoadReturn .. => execDeviceLoadReturn_ends h
  | .atomSwap .. => execAtomSwap_ends h
  | .atomAdd .. => execAtomAdd_ends h
  | .atomAnd .. => execAtomAnd_ends h
  | .atomOr .. => execAtomOr_ends h
  | .atomXor .. => execAtomXor_ends h
  | .atomMin .. => execAtomMin_ends h
  | .atomMax .. => execAtomMax_ends h
  | .atomMinu .. => execAtomMinu_ends h
  | .atomMaxu .. => execAtomMaxu_ends h
  | .atomCas .. => execAtomCas_ends h
  | .nop .. => execNop_ends h
  | .fence .. => execFence_ends h
  | .trap .. => execTrap_ends h
  | .impreciseFault .. => execImpreciseFault_ends h
  | .rett .. => execRett_ends h
  | .rdcs .. => execRdcs_ends h
  | .wrcs .. => execWrcs_ends h
  | .fault .. => execFault_ends h
  | .vfmaF32 .. => execVfmaF32_ends h
  | .vdotBf16 .. => execVdotBf16_ends h
  | .vdotFp16 .. => execVdotFp16_ends h
  | .vdotI8 .. => execVdotI8_ends h
  | .vaddF32 .. => execVaddF32_ends h
  | .vmulF32 .. => execVmulF32_ends h
  | .vaddI32 .. => execVaddI32_ends h
  | .vxor .. => execVxor_ends h
  | .vopAdd .. => execVopAdd_ends h
  | .vopSub .. => execVopSub_ends h
  | .vopMul .. => execVopMul_ends h
  | .vopFma .. => execVopFma_ends h
  | .vopMin .. => execVopMin_ends h
  | .vopMax .. => execVopMax_ends h
  | .vopAnd .. => execVopAnd_ends h
  | .vopOr .. => execVopOr_ends h
  | .vopXor .. => execVopXor_ends h
  | .vopCvt .. => execVopCvt_ends h
  | .vopDot .. => execVopDot_ends h
  | .vsplat .. => execVsplat_ends h
  | .vext .. => execVext_ends h
  | .vins .. => execVins_ends h
  | .vrsum .. => execVrsum_ends h
  | .vlds .. => execVlds_ends h
  | .vsts .. => execVsts_ends h
  | .vldl .. => execVldl_ends h
  | .vstl .. => execVstl_ends h
  | .drd .. => execDrd_ends h
  | .dwr .. => execDwr_ends h
  | .drdL .. => execDrdL_ends h
  | .dwrL .. => execDwrL_ends h
  | .rtRead .. => execRtRead_ends h
  | .rtWaitl .. => execRtWaitl_ends h
  | .rtWaitt .. => execRtWaitt_ends h
  | .waitResume .. => execWaitResume_ends h
  | .rtArm .. => execRtArm_ends h
  | .rtDisarm .. => execRtDisarm_ends h
  | .evtWait .. => execEvtWait_ends h
  | .evtPoll .. => execEvtPoll_ends h
  | .evtPost .. => execEvtPost_ends h
  | .evtRecv .. => execEvtRecv_ends h
  | .evtBeat .. => execEvtBeat_ends h
  | .plPin .. => execPlPin_ends h
  | .plUnpin .. => execPlUnpin_ends h
  | .plHeat .. => execPlHeat_ends h
  | .plMove .. => execPlMove_ends h
  | .plResolve .. => execPlResolve_ends h
  | .acctSvc .. => execAcctSvc_ends h
  | .acctAdmit .. => execAcctAdmit_ends h
  | .acctAdjust .. => execAcctAdjust_ends h
  | .cohInv .. => execCohInv_ends h
  | .cohData .. => execCohData_ends h
  | .cohInvr .. => execCohInvr_ends h
  | .cohQry .. => execCohQry_ends h
  | .heartbeatCheck => execHeartbeatCheck_ends h
  | .scribeFault .. => execScribeFault_ends h
  | .takeoverCopyComplete => execTakeoverCopyComplete_ends h
  | .rubricHandover => execRubricHandover_ends h
  | .loadSessionExpiry => execLoadSessionExpiry_ends h
  | .mailboxDoorbell .. => execMailboxDoorbell_ends h
  | .mailboxTimeout .. => execMailboxTimeout_ends h
  | .mbxComplete .. => execMbxComplete_ends h
  | .getInfo .. => execGetInfo_ends h
  | .rubricList .. => execRubricList_ends h
  | .rubricLoadBegin .. => execRubricLoadBegin_ends h
  | .rubricLoadChunk .. => execRubricLoadChunk_ends h
  | .rubricLoadCommit .. => execRubricLoadCommit_ends h
  | .rubricStop .. => execRubricStop_ends h
  | .rubricRestoreBase .. => execRubricRestoreBase_ends h
  | .rubricMessage .. => execRubricMessage_ends h
  | .getEventRecords .. => execGetEventRecords_ends h
  | .pinRange .. => execPinRange_ends h
  | .resealGetChallenge .. => execResealGetChallenge_ends h
  | .resealSubmit .. => execResealSubmit_ends h
  | .accountRequest .. => execAccountRequest_ends h
  | .kernelLoadBegin .. => execKernelLoadBegin_ends h
  | .kernelLoadChunk .. => execKernelLoadChunk_ends h
  | .kernelLoadCommit .. => execKernelLoadCommit_ends h
  | .kernelRemove .. => execKernelRemove_ends h
  | .kernelRemoveComplete => execKernelRemoveComplete_ends h
  | .kernelList .. => execKernelList_ends h
  | .queueCreate .. => execQueueCreate_ends h
  | .queueDelete .. => execQueueDelete_ends h
  | .groupSet .. => execGroupSet_ends h
  | .sqDoorbell .. => execSqDoorbell_ends h
  | .cqDoorbell .. => execCqDoorbell_ends h
  | .itemFetch .. => execItemFetch_ends h
  | .placementRetry => execPlacementRetry_ends h
  | .deferLimitExpiry => execDeferLimitExpiry_ends h
  | .clusterVoteRelease => execClusterVoteRelease_ends h
  | .itemStart .. => execItemStart_ends h
  | .deadlineDrop => execDeadlineDrop_ends h
  | .itemEnd .. => execItemEnd_ends h
  | .runLimitExpiry .. => execRunLimitExpiry_ends h
  | .quePairCfgWrite .. => execQuePairCfgWrite_ends h
  | .quePairSqWrite .. => execQuePairSqWrite_ends h
  | .quePairCqWrite .. => execQuePairCqWrite_ends h
  | .nibCoreParkWrite .. => execNibCoreParkWrite_ends h
  | .coreParked .. => execCoreParked_ends h
  | .refclkLoss .. => execRefclkLoss_ends h
  | .refclkFrequencyTrip .. => execRefclkFrequencyTrip_ends h
  | .refclkValid .. => execRefclkValid_ends h
  | .refclkReady .. => execRefclkReady_ends h
  | .pllRelock .. => execPllRelock_ends h
  | .pllCoast .. => execPllCoast_ends h
  | .coastEscalation .. => execCoastEscalation_ends h
  | .pllLockLost .. => execPllLockLost_ends h
  | .oscLockComplete .. => execOscLockComplete_ends h
  | .oscOutOfRange => execOscOutOfRange_ends h
  | .oscRelock .. => execOscRelock_ends h
  | .domainSwitchRequest .. => execDomainSwitchRequest_ends h
  | .domainSwitchComplete .. => execDomainSwitchComplete_ends h
  | .gateWrite .. => execGateWrite_ends h
  | .clkOutWrite .. => execClkOutWrite_ends h
  | .nibPllWrite .. => execNibPllWrite_ends h
  | .crossingOverrun => execCrossingOverrun_ends h
  | .vinOn .. => execVinOn_ends h
  | .vinOff => execVinOff_ends h
  | .vinFault => execVinFault_ends h
  | .inkPhaseLost .. => execInkPhaseLost_ends h
  | .inkRailFault => execInkRailFault_ends h
  | .domainVote .. => execDomainVote_ends h
  | .domainUnvote .. => execDomainUnvote_ends h
  | .domainRiseComplete .. => execDomainRiseComplete_ends h
  | .domainDropComplete .. => execDomainDropComplete_ends h
  | .pwrRequest .. => execPwrRequest_ends h
  | .shutdownNFall => execShutdownNFall_ends h
  | .shutdownNRise => execShutdownNRise_ends h
  | .wakeN => execWakeN_ends h
  | .drainTimeout => execDrainTimeout_ends h
  | .stateEntryComplete => execStateEntryComplete_ends h
  | .cappedIdleExpiry => execCappedIdleExpiry_ends h
  | .limiterWindow => execLimiterWindow_ends h
  | .resetAssert => execResetAssert_ends h
  | .resetRelease .. => execResetRelease_ends h
  | .inkwellCycleRestart => execInkwellCycleRestart_ends h
  | .thermtripRestartCheck .. => execThermtripRestartCheck_ends h
  | .stepDecay .. => execStepDecay_ends h
  | .layerCool .. => execLayerCool_ends h
  | .fastLimiterRelease => execFastLimiterRelease_ends h
  | .peakGrantWrite .. => execPeakGrantWrite_ends h
  | .thmLimitsWrite .. => execThmLimitsWrite_ends h
  | .thmSensorRead .. => execThmSensorRead_ends h
  | .calFolioEvaluate => execCalFolioEvaluate_ends h
  | .laneSetSwap .. => execLaneSetSwap_ends h
  | .calHoldStart .. => execCalHoldStart_ends h
  | .calHoldComplete .. => execCalHoldComplete_ends h
  | .calRequest .. => execCalRequest_ends h
  | .calRecordFlush .. => execCalRecordFlush_ends h
  | .fuseProgram .. => execFuseProgram_ends h
  | .fuseProgramComplete .. => execFuseProgramComplete_ends h
  | .fuseRead .. => execFuseRead_ends h
  | .fuseReadComplete .. => execFuseReadComplete_ends h
  | .fuseLockSet .. => execFuseLockSet_ends h
  | .blotterReport .. => execBlotterReport_ends h
  | .wireFault .. => execWireFault_ends h
  | .severityWrite .. => execSeverityWrite_ends h
  | .eventInject .. => execEventInject_ends h
  | .latchClear .. => execLatchClear_ends h
  | .latchRearm .. => execLatchRearm_ends h
  | .alertClear .. => execAlertClear_ends h
  | .colophonCommit .. => execColophonCommit_ends h
  | .minuteSummary => execMinuteSummary_ends h
  | .checkpointWrite .. => execCheckpointWrite_ends h
  | .colophonFlush .. => execColophonFlush_ends h
  | .calendarSet .. => execCalendarSet_ends h
  | .vioOverload => execVioOverload_ends h
  | .vioRetry => execVioRetry_ends h
  | .crystalFailure => execCrystalFailure_ends h
  | .mgmtBusStuck => execMgmtBusStuck_ends h
  | .slotCheckComplete .. => execSlotCheckComplete_ends h
  | .towerTrainingComplete .. => execTowerTrainingComplete_ends h
  | .baseRubricsStart .. => execBaseRubricsStart_ends h
  | .memoryActive .. => execMemoryActive_ends h
  | .recoveryPackageReceived .. => execRecoveryPackageReceived_ends h
  | .setEndpointId .. => execSetEndpointId_ends h
  | .getEndpointId .. => execGetEndpointId_ends h
  | .getEndpointUuid .. => execGetEndpointUuid_ends h
  | .getMctpVersionSupport .. => execGetMctpVersionSupport_ends h
  | .getMessageTypeSupport .. => execGetMessageTypeSupport_ends h
  | .getVendorDefinedMessageSupport .. => execGetVendorDefinedMessageSupport_ends h
  | .setdasa .. => execSetdasa_ends h
  | .entdaa .. => execEntdaa_ends h
  | .colophonRead .. => execColophonRead_ends h
  | .power .. => execPower_ends h
  | .inkwellArm .. => execInkwellArm_ends h
  | .inkwellCycle .. => execInkwellCycle_ends h
  | .ownerChallenge .. => execOwnerChallenge_ends h
  | .ownerProvision .. => execOwnerProvision_ends h
  | .rollbackRaise .. => execRollbackRaise_ends h
  | .getPdrRepositoryInfo .. => execGetPdrRepositoryInfo_ends h
  | .getPdr .. => execGetPdr_ends h
  | .getSensorReading .. => execGetSensorReading_ends h
  | .getStateSensorReadings .. => execGetStateSensorReadings_ends h
  | .setEventReceiver .. => execSetEventReceiver_ends h
  | .pollForPlatformEventMessage .. => execPollForPlatformEventMessage_ends h
  | .queryDeviceIdentifiers .. => execQueryDeviceIdentifiers_ends h
  | .getFirmwareParameters .. => execGetFirmwareParameters_ends h
  | .requestUpdate .. => execRequestUpdate_ends h
  | .passComponentTable .. => execPassComponentTable_ends h
  | .updateComponent .. => execUpdateComponent_ends h
  | .firmwareDataResponse .. => execFirmwareDataResponse_ends h
  | .transferComplete .. => execTransferComplete_ends h
  | .activateFirmware .. => execActivateFirmware_ends h
  | .getStatus .. => execGetStatus_ends h
  | .cancelUpdateComponent .. => execCancelUpdateComponent_ends h
  | .cancelUpdate .. => execCancelUpdate_ends h
  | .getVersion .. => execGetVersion_ends h
  | .getCapabilities .. => execGetCapabilities_ends h
  | .negotiateAlgorithms .. => execNegotiateAlgorithms_ends h
  | .getDigests .. => execGetDigests_ends h
  | .getCertificate .. => execGetCertificate_ends h
  | .challenge .. => execChallenge_ends h
  | .getMeasurements .. => execGetMeasurements_ends h
  | .keyExchange .. => execKeyExchange_ends h
  | .finish .. => execFinish_ends h
  | .getEncapsulatedRequest .. => execGetEncapsulatedRequest_ends h
  | .deliverEncapsulatedResponse .. => execDeliverEncapsulatedResponse_ends h
  | .heartbeat .. => execHeartbeat_ends h
  | .keyUpdate .. => execKeyUpdate_ends h
  | .endSession .. => execEndSession_ends h
  | .chunkSend .. => execChunkSend_ends h
  | .chunkGet .. => execChunkGet_ends h
  | .identify .. => execIdentify_ends h
  | .backgroundOperationStatus .. => execBackgroundOperationStatus_ends h
  | .getLdInfo .. => execGetLdInfo_ends h
  | .getLdAllocations .. => execGetLdAllocations_ends h
  | .getDcdInfo .. => execGetDcdInfo_ends h
  | .getHostDcRegionConfiguration .. => execGetHostDcRegionConfiguration_ends h
  | .setDcRegionConfiguration .. => execSetDcRegionConfiguration_ends h
  | .getDcRegionExtentLists .. => execGetDcRegionExtentLists_ends h
  | .initiateDynamicCapacityAdd .. => execInitiateDynamicCapacityAdd_ends h
  | .initiateDynamicCapacityRelease .. => execInitiateDynamicCapacityRelease_ends h
  | .jtagDeskAccess .. => execJtagDeskAccess_ends h
  | .registerWrite .. => execRegisterWrite_ends h
  | .inkRailRaise .. => execInkRailRaise_ends h
  | .s2mResponse .. => execS2mResponse_ends h
  | .deviceStorePerformed .. => execDeviceStorePerformed_ends h
  | .mailboxAreaWrite .. => execMailboxAreaWrite_ends h
  | .lockRegained .. => execLockRegained_ends h
  | .recoveryEntry .. => execRecoveryEntry_ends h
  | .linkTrainingFailed .. => execLinkTrainingFailed_ends h

/-- Settles O6, from what every command keeps. -/
theorem everyCommandCompletesAndTakesNothingBack : Obligations.EveryCommandCompletesAndTakesNothingBack := by
  intro i s
  obtain ⟨t, he, hk⟩ := exec_ends i s
  exact ⟨t, he, hk.variant, hk.pending, hk.out, hk.free⟩

end Sys2Proof.Machine
end

section
/-! The node after reset (R11), and units that a variant lacks (R3). -/

namespace Sys2Proof.Machine

/-! ### Reset -/

theorem core_reset (k : Nat) : core State.reset k = {} := rfl

theorem fatal_reset : State.reset.fatal = false := by decide +kernel

theorem doorbell_reset (n : Nat) : doorbell State.reset n = false := by
  have hmem : Tab.at (box State.reset n).mem 4 0#8 = 0#8 := rfl
  simp [doorbell, boxByte, hmem]

theorem w_start (n : Nat) : CoreState.w {} n = 0 := ite_self 0

theorem p_start (n : Fin 8) : CoreState.p {} n = decide (n = 0) := by
  decide +revert

/-- Settles O4: every part of the reset state lists nothing, so it reads what an unlisted key reads. -/
theorem resetIsCanonicalAndReadsResetValues : Obligations.ResetIsCanonicalAndReadsResetValues :=
  ⟨rfl, rfl, rfl, rfl, fun _ => rfl, fun _ _ => rfl, fun k n => (congrArg (CoreState.w · n) (core_reset k)).trans (w_start n),
    fun k n => (congrArg (CoreState.p · n) (core_reset k)).trans (p_start n), fatal_reset, doorbell_reset⟩

/-! ### Absent units -/

theorem deskRead_absent {s : State} {r : Reg} {i j a : Nat} (hl : locate a = some (r, i, j))
    (hu : absentUnit s.variant r i j = true) : deskRead s a = (s, 0) := by
  simp only [deskRead, hl, hu, if_true]

theorem deskWrite_absent {s : State} {r : Reg} {i j a : Nat} (hl : locate a = some (r, i, j))
    (hu : absentUnit s.variant r i j = true) (k : Option (Fin 8)) (w : BitVec 64) (pump : Bool) : deskWrite s k a w pump = s := by
  simp only [deskWrite, hl, hu, if_true]

/-- Only the V2096 lacks units other than the sensors of absent layers. -/
theorem absentUnit_of_ne_v2096 {v : Variant} (hv : v ≠ .v2096) {r : Reg} (hr : r ≠ .THM_SENSOR) (i j : Nat) :
    absentUnit v r i j = false := by
  cases v with
  | v4384 => simp [absentUnit, hr]
  | v4192 => simp [absentUnit, hr]
  | v2096 => exact absurd rfl hv

/-- Settles O7, from the two lemmas on desk accesses and the table of absent units. -/
theorem absentUnitsReadZeroAndDropWrites : Obligations.AbsentUnitsReadZeroAndDropWrites := by
  refine ⟨fun s r i j a hl hu => ⟨deskRead_absent hl hu, deskWrite_absent hl hu⟩, fun p h => ?_, fun g h => ?_, fun c h => ?_,
    fun t h => ?_, fun r i j hr => ⟨absentUnit_of_ne_v2096 (by decide) hr i j, absentUnit_of_ne_v2096 (by decide) hr i j⟩⟩
  all_goals simp [absentUnit, h]

end Sys2Proof.Machine
end

section
/-! Loads, stores and atomics in the local space (R311, R333 to R336, R374). -/

namespace Sys2Proof.Machine

/-! ### Addresses -/

/-- Below 2^62 an address lies in the local space, and has the faults of that space alone. -/
theorem addressCauses_eq_localCauses (s : State) (k : Nat) {ea : Nat} (size align : Nat) (h : ea < 2 ^ 62) :
    addressCauses s k ea size align = localCauses ea size align := by
  rw [addressCauses, localCauses, Nat.div_eq_of_lt h]
  rfl

/-- A naturally aligned address inside the 256 KiB has no fault. -/
theorem localCauses_inside {ea size : Nat} (ha : ea % size = 0) (hl : ea + size ≤ 2 ^ 18) : localCauses ea size size = [] := by
  have hin : ¬ localSize < ea + size := by simp only [localSize]; omega
  simp [localCauses, ha, hin]

theorem localCauses_misaligned {ea size : Nat} (ha : ea % size ≠ 0) (hl : ea + size ≤ 2 ^ 18) :
    localCauses ea size size = [3] := by
  have hin : ¬ localSize < ea + size := by simp only [localSize]; omega
  simp [localCauses, ha, hin]

theorem localCauses_beyond {ea size : Nat} (ha : ea % size = 0) (hl : 2 ^ 18 < ea + size) : localCauses ea size size = [5] := by
  have hout : localSize < ea + size := by simp only [localSize]; omega
  simp [localCauses, ha, hout]

theorem addressCauses_inside (s : State) (k : Nat) {ea size : Nat} (ha : ea % size = 0) (hl : ea + size ≤ 2 ^ 18) :
    addressCauses s k ea size size = [] := by
  rw [addressCauses_eq_localCauses s k size size (by omega), localCauses_inside ha hl]

theorem eccCorrected_clean (s : State) (k : Nat) : eccCorrected s k .clean = s := rfl

/-- An encoding that is not reserved leaves the run as it is. -/
theorem reserved_or_false (r : CoreRun) {b : Bool} (h : b = false) : { r with reserved := r.reserved || b } = r := by
  rw [h, Bool.or_false]

/-! ### The shared operations -/

section
variable {s : State} {r : CoreRun} {a : Fin 32} {ea : BitVec 64}

theorem load_local {len size : Nat} {d : Fin 32} {offset : BitVec 64} {sign : Bool} (h : Ready s r len) (hd : r.data = .clean)
    (he : ea = (core s r.core).w a + offset) (ha : ea.toNat % size = 0) (hl : ea.toNat + size ≤ 2 ^ 18) :
    load s r len d a offset size sign =
      advance s r.core len fun z => z.setW d (extend (numAt (core s r.core).mem ea.toNat size) size sign) := by
  subst he
  have hspace : ((core s r.core).w a + offset).toNat / 2 ^ 62 = 0 := by omega
  rw [load, issue_ready s r _ _ h (by simp) (by simp)]
  simp only [addressCauses_inside s r.core ha hl, checked, hspace, hd, eccCorrected_clean, if_true, reduceCtorEq, if_false]

theorem store_local {len size : Nat} {d : Fin 32} {offset : BitVec 64} {m : ReadRun} (h : Ready s r len)
    (he : ea = (core s r.core).w a + offset) (ha : ea.toNat % size = 0) (hl : ea.toNat + size ≤ 2 ^ 18) :
    store s r len d a offset size m = advance s r.core len fun z =>
      { z with mem := putBytes z.mem ea.toNat (leBytes size ((core s r.core).w d).toNat) } := by
  subst he
  have hspace : ((core s r.core).w a + offset).toNat / 2 ^ 62 = 0 := by omega
  rw [store, issue_ready s r _ _ h (by simp) (by simp)]
  simp only [addressCauses_inside s r.core ha hl, checked, hspace, if_true]

theorem atomic_local {op : Nat} {d b c : Fin 32} {k q : Fin 4} {m : ReadRun} {n old : Nat} {x : AtomOp} (h : Ready s r 2)
    (hd : r.data = .clean) (hk : 2 ≤ k.val) (hn : n = 2 ^ k.val) (ha : ((core s r.core).w a).toNat % n = 0)
    (hl : ((core s r.core).w a).toNat + n ≤ 2 ^ 18) (ho : old = numAt (core s r.core).mem ((core s r.core).w a).toNat n)
    (hx : x = { op := op, size := n, offset := ((core s r.core).w a).toNat % 64, operand := (core s r.core).w b,
                compare := (core s r.core).w c }) :
    atomic s r op d a b c k q m = advance s r.core 2 fun z => CoreState.setW
      { z with mem := putBytes z.mem ((core s r.core).w a).toNat (leBytes n (atomResult x old)) } d (BitVec.ofNat 64 old) := by
  subst hn ho hx
  have hspace : ((core s r.core).w a).toNat / 2 ^ 62 = 0 := by omega
  rw [atomic, reserved_or_false r (decide_eq_false (by omega)), issue_ready s r _ _ h (by simp) (by simp)]
  simp only [addressCauses_inside s r.core ha hl, checked, hspace, hd, eccCorrected_clean, if_true, reduceCtorEq, if_false]

theorem ldx_local {d : Fin 32} {k : Fin 4} {sign : Bool} {o : BitVec 17} (h : Ready s r 2) (hd : r.data = .clean)
    (hr : (sign && k == 3) = false) (he : ea = (core s r.core).w a + o.signExtend 64) (ha : ea.toNat % 2 ^ k.val = 0)
    (hl : ea.toNat + 2 ^ k.val ≤ 2 ^ 18) :
    exec (.ldx r d a k sign o) s = .next (advance s r.core 2 fun z =>
      z.setW d (extend (numAt (core s r.core).mem ea.toNat (2 ^ k.val)) (2 ^ k.val) sign)) := by
  show execLdx r d a k sign o s = _
  rw [execLdx, reserved_or_false r hr, load_local (offset := sext o) h hd he ha hl]

theorem stx_local {d : Fin 32} {k : Fin 4} {o : BitVec 17} {m : ReadRun} (h : Ready s r 2)
    (he : ea = (core s r.core).w a + o.signExtend 64) (ha : ea.toNat % 2 ^ k.val = 0) (hl : ea.toNat + 2 ^ k.val ≤ 2 ^ 18) :
    exec (.stx r d a k false o m) s = .next (advance s r.core 2 fun z =>
      { z with mem := putBytes z.mem ea.toNat (leBytes (2 ^ k.val) ((core s r.core).w d).toNat) }) := by
  show execStx r d a k false o m s = _
  rw [execStx, reserved_or_false r rfl, store_local (offset := sext o) h he ha hl]

theorem vlds_local {v : Fin 16} {i : BitVec 16} (h : Ready s r 2) (hd : r.data = .clean) (hk : 8 ≤ r.core.val)
    (he : ea = (core s r.core).w a + i.signExtend 64 * 64) (ha : ea.toNat % 64 = 0) (hl : ea.toNat + 64 ≤ 2 ^ 18) :
    exec (.vlds r v a i) s =
      .next (advance s r.core 2 fun z => z.setV v (BitVec.ofNat 512 (numAt (core s r.core).mem ea.toNat 64))) := by
  subst he
  show execVlds r v a i s = _
  rw [execVlds, issue_ready s r _ _ h (by simp) fun _ => hk]
  simp only [sext, localCauses_inside ha hl, checked, hd, eccCorrected_clean, reduceCtorEq, if_false]

theorem vsts_local {v : Fin 16} {i : BitVec 16} (h : Ready s r 2) (hk : 8 ≤ r.core.val)
    (he : ea = (core s r.core).w a + i.signExtend 64 * 64) (ha : ea.toNat % 64 = 0) (hl : ea.toNat + 64 ≤ 2 ^ 18) :
    exec (.vsts r v a i) s = .next (advance s r.core 2 fun z =>
      { z with mem := putBytes z.mem ea.toNat (leBytes 64 ((core s r.core).v v).toNat) }) := by
  subst he
  show execVsts r v a i s = _
  rw [execVsts, issue_ready s r _ _ h (by simp) fun _ => hk]
  simp only [sext, localCauses_inside ha hl, checked]

/-- A load at an address of the local space that one cause refuses is that fault, saved with the access and the address. -/
theorem load_refused {len size n : Nat} {d : Fin 32} {offset : BitVec 64} {sign : Bool} (h : Ready s r len)
    (hen : (core s r.core).enable = true) (ht : (core s r.core).tvec ≠ 0) (he : ea = (core s r.core).w a + offset)
    (hs : ea.toNat < 2 ^ 62) (hc : localCauses ea.toNat size size = [n]) (hn : n ≠ 0x0D) :
    load s r len d a offset size sign = setCore s r.core { core s r.core with
      epc := (core s r.core).pc
      cause := Trap.word { cause := n, access := 2, faddr := ea, epc := (core s r.core).pc }
      faddr := ea
      enable := false
      pc := (core s r.core).tvec } := by
  subst he
  obtain ⟨-, -, hout, -⟩ := id h
  rw [load, issue_ready s r _ _ h (by simp) (by simp), ← fault_handled s r.core n 2 _ hout hen ht hn]
  simp only [addressCauses_eq_localCauses s r.core size size hs, hc, checked]

end

/-! ### The obligation -/

/-- Settles O34, from one lemma for each shared operation in the local space. -/
theorem localMemoryAccessesReadAndWriteBytes : Obligations.LocalMemoryAccessesReadAndWriteBytes := by
  rintro s r c d a b e rfl hd
  refine ⟨fun m i ea h he ha hl => ⟨congrArg _ (load_local h hd he ha hl), congrArg _ (store_local h he ha hl)⟩,
    fun m o k n ea h hn he ha hl => ?_, fun m k q n old x h hk hn ha hl ho hx => ?_,
    fun v i ea h hk he ha hl => ⟨vlds_local h hd hk he ha hl, vsts_local h hk he ha hl⟩, fun i ea n h hen ht he hs hc => ?_⟩
  · subst hn
    exact ⟨ldx_local h hd rfl he ha hl, fun hk => ldx_local h hd (by simpa using hk) he ha hl, stx_local h he ha hl⟩
  · have hop (op : Nat) (c' : Fin 32) (hc : (if op = 9 then (core s r.core).w e else 0) = (core s r.core).w c') :=
      atomic_local (d := d) (q := q) (m := m) h hd hk hn ha hl ho (hc ▸ hx op)
    simp only [List.forall_mem_cons]
    exact ⟨congrArg _ (hop 0 0 rfl), congrArg _ (hop 1 0 rfl), congrArg _ (hop 2 0 rfl), congrArg _ (hop 3 0 rfl),
      congrArg _ (hop 4 0 rfl), congrArg _ (hop 5 0 rfl), congrArg _ (hop 6 0 rfl), congrArg _ (hop 7 0 rfl),
      congrArg _ (hop 8 0 rfl), congrArg _ (hop 9 e rfl), List.forall_mem_nil _⟩
  · obtain ⟨hm, hl, rfl⟩ | ⟨hm, hl, rfl⟩ := hc
    · exact congrArg _ (load_refused h hen ht he hs (localCauses_misaligned hm hl) (by decide))
    · exact congrArg _ (load_refused h hen ht he hs (localCauses_beyond hm hl) (by decide))

end Sys2Proof.Machine
end

section
/-! Desk accesses of a Scribe, over JTAG and by a register write (R11, R12, R66, R341, R491). -/

namespace Sys2Proof.Machine

/-! ### The desk instructions -/

theorem deskCauses_nil {a : BitVec 64} (hs : a.toNat < 2 ^ 24) (ha : a.toNat % 8 = 0) : deskCauses a = [] := by
  rw [deskCauses, if_neg (by omega), if_neg (by omega)]
  rfl

section
variable {s : State} {r : CoreRun} {n x : Nat} {d a : Fin 32} {offset ea : BitVec 64}

/-- A ready Scribe's desk read at an aligned address of the desk: the violation without the grant, else the register's value. -/
theorem deskLoad_ready (hk : r.core.val < 8) (h : Ready s r n) (he : ea = (core s r.core).w a + offset) (hx : x = ea.toNat)
    (hs : x < 2 ^ 24) (ha : x % 8 = 0) :
    deskLoad s r n d a offset = if (deskBlock x).any (fun b => !readGranted s r.core b) then grantFault s r.core 7 x
      else advance (deskRead s x).1 r.core n fun z => z.setW d (deskRead s x).2 := by
  subst he hx
  rw [deskLoad, issue_ready s r _ _ h (fun _ => hk) (by simp)]
  simp only [deskCauses_nil hs ha, checked]

theorem deskStore_ready {pump : Bool} (hk : r.core.val < 8) (h : Ready s r n) (he : ea = (core s r.core).w a + offset)
    (hx : x = ea.toNat) (hs : x < 2 ^ 24) (ha : x % 8 = 0) :
    deskStore s r n d a offset pump = if (deskBlock x).any (fun b => !writeGranted s r.core b) then grantFault s r.core 8 x
      else deskWrite (settleSlots (advance s r.core n) pump) (some (Fin.ofNat 8 r.core.val)) x ((core s r.core).w d) pump := by
  subst he hx
  rw [deskStore, issue_ready s r _ _ h (fun _ => hk) (by simp)]
  simp only [deskCauses_nil hs ha, checked]

end

/-- A desk block is outside every grant, granted, or refused. -/
theorem any_not_granted_eq_false {o : Option Nat} {g : Nat → Bool} (h : o = none ∨ ∃ b, o = some b ∧ g b = true) :
    o.any (fun b => !g b) = false := by
  obtain rfl | ⟨b, rfl, hb⟩ := h
  · rfl
  · simp [hb]

theorem any_not_granted_eq_true {o : Option Nat} {g : Nat → Bool} {b : Nat} (h : o = some b) (hb : g b = false) :
    o.any (fun b => !g b) = true := by
  simp [h, hb]

/-! ### JTAG and the register write -/

section
variable {s : State} (hup : s.power.rails = .up)
include hup

theorem jtagDeskAccess_closed (hd : s.on FUS_STATUS_DEBUG_OPEN = false) (x : BitVec 24) (w : Option (BitVec 64)) (p : Bool) :
    exec (.jtagDeskAccess x w p) s = .next (deskRefused s 0x800B (if w.isSome = true then 8 else 7) x.toNat) := by
  show execJtagDeskAccess x w p s = _
  rw [execJtagDeskAccess.eq_def, if_neg (not_not.2 hup), hd]
  rfl

theorem jtagDeskAccess_read (hd : s.on FUS_STATUS_DEBUG_OPEN = true) (x : BitVec 24) (p : Bool) :
    exec (.jtagDeskAccess x none p) s = .next ((deskRead s x.toNat).1.send (.jtagRead (deskRead s x.toNat).2)) := by
  show execJtagDeskAccess x none p s = _
  rw [execJtagDeskAccess, if_neg (not_not.2 hup), hd]
  rfl

theorem jtagDeskAccess_write (hd : s.on FUS_STATUS_DEBUG_OPEN = true) (x : BitVec 24) (v : BitVec 64) (p : Bool) :
    exec (.jtagDeskAccess x (some v) p) s = .next (deskWrite s none x.toNat v p) := by
  show execJtagDeskAccess x (some v) p s = _
  rw [execJtagDeskAccess, if_neg (not_not.2 hup), hd]
  rfl

theorem registerWrite_up (k : Fin 8) (x : BitVec 24) (v : BitVec 64) (p : Bool) :
    exec (.registerWrite k x v p) s = .next (deskWrite (settleSlots s p) (some k) x.toNat v p) := by
  show execRegisterWrite k x v p s = _
  rw [execRegisterWrite, if_neg (not_not.2 hup)]

end

/-! ### Slots, reserved addresses and plain registers -/

theorem each_eq_self {α : Type} {s : State} {l : List α} {f : State → α → State} (h : ∀ x ∈ l, f s x = s) : s.each l f = s := by
  induction l with
  | nil => rfl
  | cons x r ih => rw [State.each_cons, h x List.mem_cons_self, ih fun y hy => h y (List.mem_cons_of_mem _ hy)]

theorem settleSlots_of_none_due {s : State} (p : Bool) (h : ∀ n : Nat, n < 64 → slotDue s n = false) : settleSlots s p = s :=
  each_eq_self fun n hn => by rw [h n (List.mem_range.1 hn)]; rfl

theorem deskRead_unlisted (s : State) {a : Nat} (h : locate a = none) : deskRead s a = (s, 0) := by
  simp only [deskRead, h]

theorem deskWrite_unlisted (s : State) {a : Nat} (h : locate a = none) (wr : Option (Fin 8)) (w : BitVec 64) (p : Bool) :
    deskWrite s wr a w p = notice s 443 := by
  simp only [deskWrite, h]

theorem regWrite_outOfRange (s : State) (r : Reg) (i j a : Nat) (w : BitVec 64)
    (h : (r.fields.any fun f => outOfRange (fieldLocked s r i j) (w.toNat &&& presentBits s.variant r) f) = true) :
    regWrite s r i j a w = notice s (regSource r i) := by
  rw [regWrite, h]
  rfl

theorem regWrite_inRange (s : State) (r : Reg) (i j a : Nat) (w : BitVec 64) {x : BitVec 64 × Bool}
    (h : (r.fields.any fun f => outOfRange (fieldLocked s r i j) (w.toNat &&& presentBits s.variant r) f) = false)
    (hr : relationBroken s r (w.toNat &&& presentBits s.variant r) = false)
    (hx : x = r.fields.foldl (mergeField (fieldLocked s r i j) (w.toNat &&& presentBits s.variant r)) (s.word a, false)) :
    regWrite s r i j a w = if x.2 = true then notice (s.setWord a x.1) (regSource r i) else s.setWord a x.1 := by
  rw [regWrite, h, hr, hx]
  rfl

/-! ### The obligation -/

/-- Settles O39, from one lemma for each kind of access. -/
theorem deskAccessesFollowGrantAndRange : Obligations.DeskAccessesFollowGrantAndRange := by
  refine ⟨?_, ?_, ?_, fun s p h => settleSlots_of_none_due p h,
    fun s wr a w p h => ⟨deskRead_unlisted s h, deskWrite_unlisted s h wr w p⟩,
    fun s r i j a w => ⟨regWrite_outOfRange s r i j a w, fun h hr x hx => regWrite_inRange s r i j a w h hr hx⟩⟩
  · rintro s r c d a n x i ea v rfl hk h hx hs ha rfl hi
    have hexec : exec i s = .next (if (deskBlock x).any (fun b => !readGranted s r.core b) then grantFault s r.core 7 x
        else advance (deskRead s x).1 r.core n fun z => z.setW d (deskRead s x).2) := by
      obtain ⟨o, rfl, rfl, he⟩ | ⟨o, rfl, ho, rfl, he⟩ := hi
      · exact congrArg _ (deskLoad_ready hk h he hx hs ha)
      · show execDrdL r d a o s = _
        rw [execDrdL, reserved_or_false r (by simp [ho]), deskLoad_ready hk h he hx hs ha]
    exact ⟨fun hb => by rw [hexec, any_not_granted_eq_false hb]; rfl,
      fun b hb hg => by rw [hexec, any_not_granted_eq_true hb hg]; rfl⟩
  · rintro s r c d a n x i ea pump rfl hk h hx hs ha hi
    have hexec : exec i s = .next (if (deskBlock x).any (fun b => !writeGranted s r.core b) then grantFault s r.core 8 x
        else deskWrite (settleSlots (advance s r.core n) pump) (some (Fin.ofNat 8 r.core.val)) x ((core s r.core).w d) pump) := by
      obtain ⟨o, rfl, rfl, he⟩ | ⟨o, rfl, ho, rfl, he⟩ := hi
      · exact congrArg _ (deskStore_ready hk h he hx hs ha)
      · show execDwrL r d a o pump s = _
        rw [execDwrL, reserved_or_false r (by simp [ho]), deskStore_ready hk h he hx hs ha]
    exact ⟨fun hb => by rw [hexec, any_not_granted_eq_false hb]; rfl,
      fun b hb hg => by rw [hexec, any_not_granted_eq_true hb hg]; rfl⟩
  · exact fun s x w v p hup => ⟨fun hd => jtagDeskAccess_closed hup hd x w p,
      fun hd => ⟨jtagDeskAccess_read hup hd x p, jtagDeskAccess_write hup hd x v p⟩,
      fun k => registerWrite_up hup k x v p⟩

end Sys2Proof.Machine
end

section
/-! Pauses, repair and the registers of a channel (R86, R89 to R92, R97, R126, R127, R134, R140, R141). -/

namespace Sys2Proof.Machine

/-- The other copy of a signal has failed: wires 8 and 9 carry one signal, and wires 10 and 11 another. -/
theorem twin_failed_iff (s : State) (all : Fld) (w : Fin 14) :
    ((w.val == 8 && s.flag all 9) || (w.val == 9 && s.flag all 8) || (w.val == 10 && s.flag all 11)
      || (w.val == 11 && s.flag all 10)) = true ↔ 8 ≤ w.val ∧ w.val < 12 ∧ s.flag all (w.val / 2 * 4 + 1 - w.val) = true := by
  fin_cases w <;> simp

section
variable {s : State} {g : Fin 256} {x : SpareTest} (hp : (chan s g).paused = some (some x))
  (hlen : s.get (CHN_PAUSE_INTERVAL_LENGTH_NS g) < 245)
include hp hlen

/-- In a pause limited to less than 245 ns the test is abandoned when the limit is reached (R127). -/
theorem pauseLengthLimit_short : exec (.pauseLengthLimit g) s = .next (abandonTest s g) := by
  show execPauseLengthLimit g s = _
  simp only [execPauseLengthLimit, hp, hlen, if_true]

/-- The same when the pause is reported to end within its limit. -/
theorem pauseComplete_short {n : Fin 512} (hn : n.val ≤ s.get (CHN_PAUSE_INTERVAL_LENGTH_NS g)) :
    exec (.pauseComplete g n) s = .next (abandonTest s g) := by
  show execPauseComplete g n s = _
  simp only [execPauseComplete, hp]
  rw [if_neg (by omega), if_pos (by simp [hlen])]

end

theorem chnSchedWrite_present {s : State} {g : Fin 256} {v : BitVec 64} (hg : g.val < s.variant.channels) :
    exec (.chnSchedWrite g v) s = .next (writeSched s g v) := by
  show execChnSchedWrite g v s = _
  rw [execChnSchedWrite, if_neg (by omega)]

/-- Settles O14, row by row: under its hypotheses a row's guards are decided, and what is left is the state the clause names. -/
theorem channelPausesRepairsAndRegisters : Obligations.ChannelPausesRepairsAndRegisters := by
  refine ⟨?_, ?_, ?_, ?_, ?_, ?_, ?_, ?_, ?_, ?_⟩
  -- RETRAINING_PAUSE
  · rintro s t g low steps fails reads hg hslot hp hgen hwoke hself hstate rfl
    show execRetrainingPause g low steps ⟨fails, reads⟩ s = _
    simp [execRetrainingPause, hg, hslot, hp, hgen, hwoke, hself, hstate]
  -- PAUSE_COMPLETE
  · rintro s u g n t hp hn ht rfl
    have hlong : ¬ s.get (CHN_PAUSE_INTERVAL_LENGTH_NS g) < n.val := by omega
    have hfits : (t.isSome && decide (s.get (CHN_PAUSE_INTERVAL_LENGTH_NS g) < 245)) = false := by
      obtain rfl | h := ht
      · rfl
      · simp [h]
    refine ⟨?_, ?_, ?_⟩
    · rintro rfl
      show execPauseComplete g n s = _
      simp [execPauseComplete, hp, hlong]
    · rintro x rfl h0
      show execPauseComplete g n s = _
      simp only [execPauseComplete, hp, hlong, hfits, h0, if_true, if_false, Bool.false_eq_true]
    · rintro x rfl h1
      show execPauseComplete g n s = _
      simp only [execPauseComplete, hp, hlong, hfits, h1, if_true, if_false, Bool.false_eq_true, one_ne_zero]
  -- PAUSE_LENGTH_LIMIT
  · rintro s t g n x hp hlen rfl
    exact ⟨pauseLengthLimit_short hp hlen, pauseComplete_short hp hlen⟩
  -- REPAIR_PAUSE
  · rintro s u v g d hc rfl rfl
    show execRepairPause g d s = _
    rcases d with _ | t
    · cases hf : (chan s g).commandFailure <;> simp [execRepairPause, hc, hf]
    · simp [execRepairPause, hc]
  -- PARITY_ALERT
  · rintro s u g r re lost n again hn hagain hu
    refine ⟨by subst hn hagain hu; rfl, fun t v hv => ?_⟩
    have hexec : exec (.parityAlert g r (some t) ⟨re, lost⟩) s = .next (if !(caWires u g).contains t.val then u else
        if 16 < Tab.at (chan v g).alerts t 0 then declareCa v g t else v) := by
      subst hn hagain hu hv
      rfl
    rw [hexec]
    cases (caWires u g).contains t.val <;> rfl
  -- SIGNAL_COPY_FAILED
  · rintro s u g w hg hf rfl
    show execSignalCopyFailed g w s = _
    have hgo : ¬ (s.flag { CHN_CA_TSV_FAILED_STROBE_COPY g with width := 14 } w = true ∨ s.variant.channels ≤ g.val) := by
      rw [hf]
      simp only [Bool.false_eq_true, false_or]
      omega
    simp only [execSignalCopyFailed, if_neg hgo, Bool.or_eq_true (signalLost _ _), twin_failed_iff]
  -- TOWER_SUPPLY_FAULT
  · intro s t ht
    show execTowerSupplyFault t s = _
    rw [execTowerSupplyFault, if_neg (by omega)]
  -- CHN_SCHED_WRITE
  · intro s g v hg
    rw [chnSchedWrite_present hg]
    refine ⟨fun h => ?_, fun h1 h2 h3 h4 h5 h6 => ?_⟩
    · rw [writeSched, if_pos h]
    · rw [writeSched, if_neg (by omega)]
  -- CHN_POOL_READ of an absent channel
  · intro s g h
    show execChnPoolRead g s = _
    rw [execChnPoolRead, if_pos h]
  -- CHN_POOL_READ
  · intro s g h
    show execChnPoolRead g s = _
    rw [execChnPoolRead, if_neg (by simp [h])]
    rfl

end Sys2Proof.Machine
end

section
/-! Accesses to the node function's BARs (R30). -/

namespace Sys2Proof.Machine

/-- An LD that answers serves a host's access to its BARs: the access is recorded, and a read gets zeros (R30). -/
theorem barAccess_answered {s t : State} {p : Fin 64} {k : Fin 4} {d : Fin 16} (x : BitVec 64) (write : Bool)
    (hup : linkUp s p k = true) (hrole : s.get (PRT_PORT_CTRL_ROLE p) = 0) (ht : t = linkActivity s)
    (hfatal : t.fatal = false) (hld : ldOn t p k d = true) :
    exec (.barAccess p k d write x) s = .next (
      if write then barRefused t p k d write x.toNat else (barRefused t p k d write x.toNat).send (.ioData p k d 0)) := by
  subst ht
  show execBarAccess p k d write x s = _
  rw [execBarAccess, if_neg (by simp [hup, hrole])]
  simp only [hfatal, hld, Bool.false_eq_true, if_false, Bool.not_true]

/-- Settles O38: DETAIL is the address of the access. -/
theorem hostBarReadsZeroAndDropsWrites : Obligations.HostBarReadsZeroAndDropsWrites := by
  intro s p k d x hup hrole hfatal hld
  exact ⟨x.toNat, barAccess_answered x true hup hrole rfl hfatal hld, barAccess_answered x false hup hrole rfl hfatal hld⟩

end Sys2Proof.Machine
end

section
/-! The course of a move (R26, R96, R150, R151, R157 to R162, R218). -/

namespace Sys2Proof.Machine

/-! ### What a move carries -/

theorem Move.quire_eq_false {m : Move} (h : m.ofLeaf = true) : m.quire = false := by
  rw [Move.ofLeaf, Bool.and_eq_true, Bool.not_eq_true'] at h
  exact h.1

theorem Move.ofLeaf_eq_false {m : Move} (h : m.quire = true) : m.ofLeaf = false := by simp [Move.ofLeaf, h]

theorem Move.size_of_quire {m : Move} (h : m.quire = true) : m.size = 32768 := if_pos h

theorem Move.size_of_leaf {m : Move} (h : m.ofLeaf = true) : m.size = 64 := by simp [Move.size, quire_eq_false h]

/-- Nothing inks a reserve quire's lines (R159). -/
theorem Move.skips_of_quire {m : Move} (h : m.quire = true) (i : Nat) : m.skips i = false := by simp [Move.skips, h]

theorem Move.skips_of_leaf {m : Move} (h : m.ofLeaf = true) (i : Nat) : m.skips i = m.inked.getLsbD i := by
  simp [Move.skips, quire_eq_false h]

/-! ### The copy -/

/-- Where no read is reported and the source can be read, every line decodes. -/
theorem copyReads_nil {s : State} {m : Move} (h : copyPoisoned s m = false) : copyReads s m [] = (s, []) := by
  simp [copyReads, h]

/-- A leaf's copy to a channel stores its lines one after the other, as they stood at its source when it began. -/
theorem copyLeaf_local {s : State} {m : Move} {d : Loc} (home : List StoredLine) (hm : m.ofLeaf = true)
    (hd : m.dest = .local d) :
    copyLeaf s m home [] = ((List.range 64).filter fun i => !m.inked.getLsbD i).foldl
      (fun t i => storeLine t d i (copySource s m home i)) s := by
  simp [copyLeaf, State.each, copyLine, hd, List.foldl_map, Move.skips_of_leaf hm]

section
variable {s : State} {k : Fin 64} {m : Move} (hk : Tab.find s.ductus.moves k = some m)
include hk

/-- A copy whose turn it is, of what has no counter line to be copied first, is made and counted, and its switch armed. -/
theorem moveCopyComplete_carried {t u : State} {reads : List (Fin 32768 × ReadRun)} {lost : List Nat}
    (home : List StoredLine) (hstage : m.stage = .copying) (hturn : copyCarried s m = true) (hroom : overCeiling s 4095 = false)
    (hr : copyReads s m (reads.map fun x => (x.1.val, x.2)) = (t, lost))
    (hcopy : (if m.quire then copyQuire (t.each lost fun s i => copyLost s m i) m lost
      else copyLeaf (t.each lost fun s i => copyLost s m i) m home lost) = u)
    (hfresh : (m.ofLeaf && freshLeaf u m.leaf) = false) {v : State}
    (hv : v = chargeNow u 4095 (64 * m.size + 64 * ((List.range m.size).filter fun i => !m.skips i).length)) :
    exec (.moveCopyComplete k reads home) s = .next { v with ductus := { v.ductus with
      moves := Tab.set v.ductus.moves k { m with
        stage := .armed, stageGen := v.ruling.gen, hotLines := if m.ofLeaf then writeHot s m home else 0 } } } := by
  subst hv
  show execMoveCopyComplete k reads home s = _
  simp only [execMoveCopyComplete, hk, hstage, hturn, hroom, hr, hcopy, hfresh]
  rfl

theorem mapSwitch_armed {t u : State} (map : ReadRun) (hstage : m.stage = .armed) (hgen : m.stageGen < s.ruling.gen)
    (hl : (if m.ofLeaf then lookupBlock s m.leaf map else (s, true)) = (t, true))
    (hu : u = ((switchMove t m).incW DCT_MOVE_STATUS_COMPLETED).put DCT_MOVE_STATUS_WRITE_HOT_LINES m.hotLines) :
    exec (.mapSwitch ⟨k, map⟩) s = .next { u with ductus := { u.ductus with
      moves := Tab.set u.ductus.moves k { m with stage := .switched, stageGen := u.ruling.gen } } } := by
  subst hu
  show execMapSwitch ⟨k, map⟩ s = _
  simp only [execMapSwitch, hk, hl]
  rw [if_neg (by simp [hstage, hgen])]

/-- A switch whose map block cannot be decoded is not made (R150). -/
theorem mapSwitch_lost {t : State} (map : ReadRun) (hstage : m.stage = .armed) (hgen : m.stageGen < s.ruling.gen)
    (hm : m.ofLeaf = true) (hl : lookupBlock s m.leaf map = (t, false)) : exec (.mapSwitch ⟨k, map⟩) s = .next t := by
  show execMapSwitch ⟨k, map⟩ s = _
  simp only [execMapSwitch, hk, hm, hl, if_true]
  rw [if_neg (by simp [hstage, hgen])]

theorem movingClear_switched {e : Leaf} (hstage : m.stage = .switched) (hgen : m.stageGen < s.ruling.gen)
    (hm : m.ofLeaf = true) (he : leafEntry s m.leaf = some e) :
    exec (.movingClear k) s = .next (moveEnded (showMoves (setLeaf { s with ductus := { s.ductus with
      moves := Tab.set s.ductus.moves k { m with stage := .done, stageGen := s.ruling.gen } } } m.leaf
        { e with moving := false })) k m.leaf false) := by
  have he' : leafEntry { s with ductus := { s.ductus with
      moves := Tab.set s.ductus.moves k { m with stage := .done, stageGen := s.ruling.gen } } } m.leaf = some e := he
  show execMovingClear k s = _
  simp only [execMovingClear, hk]
  rw [if_neg (by simp [hstage, hgen])]
  simp only [hm, he', Bool.not_true, Bool.false_eq_true, if_false]

theorem sourceSlotFree_done (hstage : m.stage = .done) (hfree : rowBusy s m.source = false ∨ s.ruling.gen ≠ m.stageGen)
    {u : State} (hu : u = s.each (emptied s m) freeSlot) :
    exec (.sourceSlotFree k) s = .next (pumpRecalls (endRecalls (finishEvacuations (pump
      (closeCounters { u with ductus := { u.ductus with moves := Tab.del u.ductus.moves k } }))))) := by
  subst hu
  show execSourceSlotFree k s = _
  simp only [execSourceSlotFree, hk]
  rw [if_neg]
  rintro (h | ⟨hbusy, hgen⟩)
  · exact h hstage
  · obtain h | h := hfree
    · simp [h] at hbusy
    · exact h hgen

/-! ### A move in another stage -/

theorem moveCopyComplete_otherStage (reads : List (Fin 32768 × ReadRun)) (home : List StoredLine) (h : m.stage ≠ .copying) :
    exec (.moveCopyComplete k reads home) s = .next s := by
  show execMoveCopyComplete k reads home s = _
  simp only [execMoveCopyComplete, hk]
  rw [if_pos (by simp [h])]

theorem mapSwitch_otherStage (map : ReadRun) (h : m.stage ≠ .armed ∨ s.ruling.gen ≤ m.stageGen) :
    exec (.mapSwitch ⟨k, map⟩) s = .next s := by
  show execMapSwitch ⟨k, map⟩ s = _
  simp only [execMapSwitch, hk]
  rw [if_pos h]

theorem movingClear_otherStage (h : m.stage ≠ .switched ∨ s.ruling.gen ≤ m.stageGen) : exec (.movingClear k) s = .next s := by
  show execMovingClear k s = _
  simp only [execMovingClear, hk]
  rw [if_pos h]

theorem sourceSlotFree_otherStage (h : m.stage ≠ .done) : exec (.sourceSlotFree k) s = .next s := by
  show execSourceSlotFree k s = _
  simp only [execSourceSlotFree, hk]
  rw [if_pos (.inl h)]

end

/-! ### The switch -/

/-- Besides the leaf's entry a switch writes counters of the desk, the counter line and the deferred list. -/
theorem leafEntry_switchLeaf (s : State) (m : Move) (e : Leaf) :
    leafEntry (switchLeaf s m e) m.leaf = some (switched e m.dest) := by
  have hmap : (switchLeaf s m e).ductus.map = Tab.set s.ductus.map m.leaf (switched e m.dest) := by
    unfold switchLeaf
    dsimp only
    split <;> split <;> rfl
  rw [leafEntry, hmap, Tab.find_set_self]

theorem switchMove_leaf {s : State} {m : Move} {e : Leaf} (hm : m.ofLeaf = true) (he : leafEntry s m.leaf = some e) :
    switchMove s m = switchLeaf s m e := by
  simp only [switchMove, hm, he, if_true]

theorem switchMove_quire {s : State} {m : Move} {d : Loc} (hm : m.quire = true) (hd : m.dest = .local d) :
    switchMove s m = { s with ductus := { s.ductus with reserve := Tab.set s.ductus.reserve m.leaf (some d.chan) } } := by
  simp only [switchMove, Move.ofLeaf_eq_false hm, hd, hm, if_true, if_false, Bool.false_eq_true]

/-- Settles O15, stage by stage. -/
theorem movesGoThroughTheirStages : Obligations.MovesGoThroughTheirStages := by
  refine ⟨?_, ?_, ?_, ?_, ?_, ?_, ?_⟩
  -- MOVE_COPY_COMPLETE of a reserve quire: no line is inked, and there is no counter line
  · intro s t u k m reads home lost hk hstage hturn hroom hr hm hu
    have hleaf := Move.ofLeaf_eq_false hm
    have hv : u = chargeNow (copyQuire (t.each lost fun s i => copyLost s m i) m lost) 4095
        (64 * m.size + 64 * ((List.range m.size).filter fun i => !m.skips i).length) := by
      simp [hu, Move.size_of_quire hm, Move.skips_of_quire hm]
    rw [moveCopyComplete_carried hk home hstage hturn hroom hr (if_pos hm) (by simp [hleaf]) hv, hleaf]
    rfl
  -- MOVE_COPY_COMPLETE of a leaf
  · intro s u k m d home hk hstage hturn hroom hm hd hread _ hu hfresh
    have hq := Move.quire_eq_false hm
    have hv : u = chargeNow (((List.range 64).filter fun i => !m.inked.getLsbD i).foldl
        (fun t i => storeLine t d i (copySource s m home i)) s) 4095
        (64 * m.size + 64 * ((List.range m.size).filter fun i => !m.skips i).length) := by
      simp [hu, Move.size_of_leaf hm, Move.skips_of_leaf hm]
    rw [moveCopyComplete_carried hk (reads := []) home hstage hturn hroom (copyReads_nil hread)
      ((if_neg (by simp [hq])).trans (copyLeaf_local home hm hd)) (by simp [hfresh]) hv, hm]
    rfl
  -- MAP_SWITCH of a leaf
  · intro s t u k m e map hk hstage hgen hm
    refine ⟨mapSwitch_lost hk map hstage hgen hm, fun hl he hu => ⟨?_, leafEntry_switchLeaf t m e⟩⟩
    rw [← switchMove_leaf hm he] at hu
    exact mapSwitch_armed hk map hstage hgen ((if_pos hm).trans hl) hu
  -- MAP_SWITCH of a reserve quire
  · intro s u k m d map hk hstage hgen hm hd hu
    rw [← switchMove_quire hm hd] at hu
    exact mapSwitch_armed hk map hstage hgen (if_neg (by simp [Move.ofLeaf_eq_false hm])) hu
  -- MOVING_CLEAR
  · rintro s u k m e hk hstage hgen hm he rfl
    exact movingClear_switched hk hstage hgen hm he
  -- SOURCE_SLOT_FREE
  · exact fun s u k m hk hstage hfree hu => sourceSlotFree_done hk hstage hfree hu
  -- another stage
  · exact fun s k m reads home map hk => ⟨moveCopyComplete_otherStage hk reads home, mapSwitch_otherStage hk map,
      movingClear_otherStage hk, sourceSlotFree_otherStage hk⟩

end Sys2Proof.Machine
end

section
/-! Memory requests and snoops of the ports (R19 to R22, R107, R165, R283 to R288, R294, R295, R297). -/

namespace Sys2Proof.Machine

/-! ### Requests -/

section
variable {s : State} {r : LinkReq} (harrive : canArrive s r.port r.sub = true)
include harrive

section
variable (hcredit : senderCredit s r.port r.sub false = true)
include hcredit

/-- In the Fatal state a read is answered poison (R297). -/
theorem m2sReq_fatal (hf : s.fatal = true) :
    exec (.m2sReq r) s = .next (respond s (reqOrigin r) (originAccount s (reqOrigin r)) .poison) := by
  show execM2sReq r s = _
  rw [execM2sReq, if_neg (by simp [harrive, hcredit]), if_pos hf]

theorem m2sReq_lentIn (hf : s.fatal = false) {l : LentLine} (hl : r.lent = some l) :
    exec (.m2sReq r) s = .next (readLentIn (linkActivity s) r l) := by
  show execM2sReq r s = _
  rw [execM2sReq, if_neg (by simp [harrive, hcredit]), if_neg (by simp [hf]), hl]

theorem m2sReq_classified (hf : s.fatal = false) (hl : r.lent = none) {u : State} {x : Option MemRead}
    (hx : classify (linkActivity s) r 1 = (u, x)) : exec (.m2sReq r) s = .next (match (generalizing := false) x with
      | none => u
      | some a =>
        receive (if obtainsCopy u r = true then allocFilter u r.port (a.dpa / 64) (r.cached == 2) else u) (.read a)) := by
  show execM2sReq r s = _
  rw [execM2sReq, if_neg (by simp [harrive, hcredit]), if_neg (by simp [hf]), hl]
  cases x <;> simp only [hx]

end

section
variable (hcredit : senderCredit s r.port r.sub true = true) (data : BitVec 512) (mask : BitVec 64) (poison : Bool) (run : ReadRun)
include hcredit

/-- In the Fatal state a write is dropped with its completion (R297). -/
theorem m2sRwd_fatal (hf : s.fatal = true) :
    exec (.m2sRwd r data mask poison run) s = .next (respond s (reqOrigin r) (originAccount s (reqOrigin r)) .done) := by
  show execM2sRwd r data mask poison run s = _
  rw [execM2sRwd, if_neg (by simp [harrive, hcredit]), if_pos hf]

theorem m2sRwd_lentIn (hf : s.fatal = false) {l : LentLine} (hl : r.lent = some l) :
    exec (.m2sRwd r data mask poison run) s = .next (writeLentIn (linkActivity s) r l data) := by
  show execM2sRwd r data mask poison run s = _
  rw [execM2sRwd, if_neg (by simp [harrive, hcredit]), if_neg (by simp [hf]), hl]

theorem m2sRwd_classified (hf : s.fatal = false) (hl : r.lent = none) {u : State} {x : Option MemRead}
    (hx : classify (linkActivity s) r (if mask = BitVec.allOnes 64 then 2 else 3) = (u, x)) :
    exec (.m2sRwd r data mask poison run) s = .next (match (generalizing := false) x with
      | none => u
      | some a => receive (if obtainsCopy u r = true then allocFilter u r.port (a.dpa / 64) (r.cached == 2) else u)
          (.write { origin := a.origin, dpa := a.dpa, key := a.key, account := a.account, data := data, mask := mask
                    poison := poison, run := run })) := by
  show execM2sRwd r data mask poison run s = _
  rw [execM2sRwd, if_neg (by simp [harrive, hcredit]), if_neg (by simp [hf]), hl]
  cases x <;> simp only [hx]

end

end

/-- A message that no other of its port and virtual queue waits in front of takes a free cell, or stays in the reserve (R294). -/
theorem place_first {s : State} {w : Work}
    (h : ∀ x ∈ s.fabric.reserve, ¬ (x.port = w.port ∧ virtualQueue s x = virtualQueue s w)) :
    place s w = match takePlace s w with
      | some r => enter s (w.takes r)
      | none => withhold s w := by
  exact if_neg (by simpa using h)

/-! ### Answers for lent-out leaves -/

section
variable {s u : State} {tag : Nat} {step : LentStep} (hf : s.fatal = false)
  (hu : u = { s with fabric := { s.fabric with lentOut := Tab.del s.fabric.lentOut tag } })
include hf hu

/-- Poison answers a read that got no line. -/
theorem s2mResponse_read_none {a : MemRead} (h : Tab.find s.fabric.lentOut tag = some (.read a, step)) :
    exec (.s2mResponse tag none) s = .next (drainReserve (endRead u a .poison)) := by
  subst hu
  show execS2mResponse tag none s = _
  simp only [execS2mResponse, hf, h]
  rfl

theorem s2mResponse_read_some {a : MemRead} (h : Tab.find s.fabric.lentOut tag = some (.read a, step)) (l : StoredLine)
    {o : Opened} (ho : o = openLine u a.dpa a.key (StoredLine.media l)) :
    exec (.s2mResponse tag (some l)) s = .next (drainReserve (endRead (opened (countBad u o) a o 1).1 a
      (opened (countBad u o) a o 1).2)) := by
  subst ho hu
  show execS2mResponse tag (some l) s = _
  simp only [execS2mResponse, hf, h]
  rfl

/-- A write that was not a merge is done, whatever comes with its answer. -/
theorem s2mResponse_write_plain {x : Write} (h : Tab.find s.fabric.lentOut tag = some (.write x, .plain)) (l : Option StoredLine) :
    exec (.s2mResponse tag l) s = .next (drainReserve (respond (leave u x.account 64) x.origin x.account .done)) := by
  subst hu
  show execS2mResponse tag l s = _
  cases l <;> (simp only [execS2mResponse, hf, h]; rfl)

theorem s2mResponse_merge_none {x : Write} (h : Tab.find s.fabric.lentOut tag = some (.write x, step)) (hs : step ≠ .plain) :
    exec (.s2mResponse tag none) s = .next (drainReserve (lentNext (endWrite u x .failed) x.dpa)) := by
  subst hu
  show execS2mResponse tag none s = _
  simp only [execS2mResponse, hf, h, hs, Bool.false_eq_true, if_false, Option.map_none]
  rfl

theorem s2mResponse_merge_some {x : Write} (h : Tab.find s.fabric.lentOut tag = some (.write x, step)) (hs : step ≠ .plain)
    (l : StoredLine) : exec (.s2mResponse tag (some l)) s =
      .next (drainReserve (lentNext (mergeCame u x (step == .again) (StoredLine.media l)) x.dpa)) := by
  subst hu
  show execS2mResponse tag (some l) s = _
  simp only [execS2mResponse, hf, h, hs, Bool.false_eq_true, if_false, Option.map_some]
  rfl

end

/-! ### Snoops -/

theorem birsp_found {s : State} {p : Fin 64} {d : Fin 16} {dpa : BitVec 52} {x : Option Snoop}
    (hx : x = s.fabric.snoops.find? fun x => x.line == dpa.toNat % 2 ^ 42 / 64 && x.waiting.contains (16 * p.val + d.val)) :
    exec (.birsp p d dpa) s = .next (match (generalizing := false) x with
      | none => notice s (320 + p)
      | some x => drainReserve (answerSnoops s (16 * p + d) fun y => y == x)) := by
  subst hx
  rfl

/-- A write whose holder is silent ends at the timeout, with its event, and those parked behind it go on (R288). -/
theorem biTimeout_write {s u : State} {x : Snoop} {w : Write} (hw : x.why = .write w)
    (hu : u = report (x.waiting.foldl (fun t ld => t.inc (PRT_PORT_ERRORS_BI_TIMEOUTS (ld / 16))) s)
      { type := 0x91, source := 432, master := some (originMaster w.origin), pbr := originPbr w.origin
        access := if w.full then 2 else 3, dpa := some w.dpa, detail := BitVec.ofNat 64 (x.waiting.headD 0) }) :
    biTimeout s x = unpark (endWrite { u with fabric := { u.fabric with
      snoops := u.fabric.snoops.filter (· != x) } } w .timeout) x.line := by
  subst hu
  simp only [biTimeout, hw]
  rfl

theorem coarseSweep_idle {s : State} (h : s.fabric.coarse = []) : exec .coarseSweep s = .next s := by
  show execCoarseSweep s = _
  simp only [execCoarseSweep, h]

section
variable {s : State} {q : Nat} {l : List Nat} (hq : s.fabric.coarse = q :: l)
include hq

theorem coarseSweep_off (h : s.on PRT_CTRL_COARSE_SWEEP = false) : exec .coarseSweep s = .next s := by
  show execCoarseSweep s = _
  simp only [execCoarseSweep, hq, h, Bool.not_false, if_true]

theorem coarseSweep_swept (hon : s.on PRT_CTRL_COARSE_SWEEP = true) (h : 32768 ≤ s.fabric.sweepLine) :
    exec .coarseSweep s = .next (endCoarse s q) := by
  show execCoarseSweep s = _
  simp only [execCoarseSweep, hq, hon, h, Bool.not_true, Bool.false_eq_true, if_true, if_false]

/-- The sweep snoops the next line of its quire, and notes the snoops that a device is to answer (R285). -/
theorem coarseSweep_line (hon : s.on PRT_CTRL_COARSE_SWEEP = true) (h : s.fabric.sweepLine < 32768) {n : Nat} {u v : State} {up : List Nat}
    (hn : n = q * 32768 + s.fabric.sweepLine) (hu : sendSnoops s n 0 (holdersOf s n) = (u, up))
    (hv : v = if up = [] then u else addSnoop u n up (.coarse q)) :
    exec .coarseSweep s = .next (endCoarse (setFabric v { v.fabric with sweepLine := v.fabric.sweepLine + 1 }) q) := by
  subst hn hv
  show execCoarseSweep s = _
  simp only [execCoarseSweep, hq, hon, hu, Nat.not_le.mpr h, Bool.not_true, Bool.false_eq_true, if_false, List.isEmpty_iff]

end

/-- Settles O28, message by message. -/
theorem requestsAndSnoopsOfThePorts : Obligations.RequestsAndSnoopsOfThePorts := by
  refine ⟨?_, ?_, ?_, ?_, ?_, ?_, ?_, ?_, ?_⟩
  -- M2S_REQ
  · exact fun s r harrive hcredit hl hf u x hx => m2sReq_classified harrive hcredit hf hl hx
  -- M2S_RWD
  · exact fun s r d m poi run harrive hcredit hl hf u x hx => m2sRwd_classified harrive hcredit d m poi run hf hl hx
  -- requests in the Fatal state, and of lent-in lines
  · intro s r d m poi run harrive hreq hrwd
    exact ⟨fun hf => ⟨m2sReq_fatal harrive hreq hf, m2sRwd_fatal harrive hrwd d m poi run hf⟩,
      fun hf l hl => ⟨m2sReq_lentIn harrive hreq hf hl, m2sRwd_lentIn harrive hrwd d m poi run hf hl⟩⟩
  -- the cell a request takes
  · intro s w hfirst
    rw [place_first hfirst]
    exact ⟨fun r hr => by rw [hr], fun hr => by rw [hr]⟩
  -- S2M_RESPONSE
  · intro s u tag w step hf h hu
    refine ⟨?_, ?_, ?_, ?_⟩
    · rintro a rfl
      exact s2mResponse_read_none hf hu h
    · rintro a l o rfl ho
      exact s2mResponse_read_some hf hu h l ho
    · rintro x rfl rfl l
      exact s2mResponse_write_plain hf hu h l
    · rintro x rfl hs
      exact ⟨s2mResponse_merge_none hf hu h hs, s2mResponse_merge_some hf hu h hs⟩
  -- BIRSP
  · exact fun s p d dpa x hx => birsp_found hx
  -- BI_TIMEOUT
  · exact fun s => rfl
  · exact fun s x w hw u hu => biTimeout_write hw hu
  -- COARSE_SWEEP
  · intro s
    refine ⟨coarseSweep_idle, fun q l hq => ⟨coarseSweep_off hq, coarseSweep_swept hq, ?_⟩⟩
    exact fun hon hlt n u up hn hu => coarseSweep_line hq hon hlt hn hu rfl

end Sys2Proof.Machine
end

section
/-! The count of lines and of generated lines is the line edge's and the jump's alone (R38, R41, R62): what else the ruling does on a
line, with the events it reports, leaves both as they are. -/

namespace Sys2Proof.Machine

/-- The line of ruled time and the generated lines, the two bases on which lines are counted (R41). -/
def lineClock (s : State) : Nat × Nat := (s.ruling.line, s.ruling.gen)

theorem State.each_invariant {α β : Type} (g : State → β) (s : State) (l : List α) {f : State → α → State}
    (h : ∀ t a, g (f t a) = g t) : g (s.each l f) = g s := by
  induction l generalizing s with
  | nil => rfl
  | cons a r ih => exact (ih (f s a)).trans (h s a)

/-! ### The state's operations -/

section
variable (s : State)

@[simp] theorem lineClock_ite (c : Prop) [Decidable c] (t : State) :
    lineClock (if c then s else t) = if c then lineClock s else lineClock t := apply_ite _ _ _ _
@[simp] theorem lineClock_put (f : Fld) (v : Nat) : lineClock (s.put f v) = lineClock s := rfl
@[simp] theorem lineClock_putB (f : Fld) (b : Bool) : lineClock (s.putB f b) = lineClock s := rfl
@[simp] theorem lineClock_inc (f : Fld) (k : Nat) : lineClock (s.inc f k) = lineClock s := rfl
@[simp] theorem lineClock_setFlag (f : Fld) (i : Nat) (b : Bool) : lineClock (s.setFlag f i b) = lineClock s := rfl
@[simp] theorem lineClock_send (o : Output) : lineClock (s.send o) = lineClock s := rfl
@[simp] theorem lineClock_drew : lineClock s.drew = lineClock s := rfl
@[simp] theorem lineClock_timed : lineClock s.timed = lineClock s := rfl
@[simp] theorem lineClock_with_blotter (x : Blotter) : lineClock { s with blotter := x } = lineClock s := rfl
@[simp] theorem lineClock_with_rubrics (x : Tab Rubric) : lineClock { s with rubrics := x } = lineClock s := rfl

theorem lineClock_with_ruling {r : Ruling} (hl : r.line = s.ruling.line) (hg : r.gen = s.ruling.gen) :
    lineClock { s with ruling := r } = lineClock s := Prod.ext hl hg

/-! ### Events -/

@[simp] theorem lineClock_queueEvent (k : Nat) (d : BitVec 64) : lineClock (queueEvent s k d) = lineClock s := by
  dsimp only [queueEvent]
  split
  · rfl
  · split
    · rfl
    · split <;> rfl

@[simp] theorem lineClock_toCxlLogs (r : Record) : lineClock (toCxlLogs s r) = lineClock s := by
  unfold toCxlLogs
  split
  · rfl
  · exact State.each_invariant lineClock s _ fun t x => by simp

@[simp] theorem lineClock_driveAlert : lineClock (driveAlert s) = lineClock s := rfl
@[simp] theorem lineClock_countMinute (c : Nat) : lineClock (countMinute s c) = lineClock s := rfl
@[simp] theorem lineClock_toColophon (b : ColBody) : lineClock (toColophon s b) = lineClock s := rfl

@[simp] theorem lineClock_sendViral : lineClock (sendViral s) = lineClock s :=
  State.each_invariant lineClock s _ fun t p => by
    have hk (u : State) (l : List Nat) (up : List Bool) :
        lineClock (u.each l fun v k => if up.getD k false then v.send (.viral p k) else v) = lineClock u :=
      State.each_invariant lineClock u l fun v k => by simp
    simp only [lineClock_ite, lineClock_put, hk, ite_self]

@[simp] theorem lineClock_haltCluster (c : Nat) : lineClock (haltCluster s c) = lineClock s :=
  State.each_invariant lineClock _ _ fun t g => by simp

@[simp] theorem lineClock_haltAll : lineClock (haltAll s) = lineClock s := by
  rw [haltAll, State.each_invariant lineClock _ _ lineClock_haltCluster,
    State.each_invariant lineClock _ _ fun t g => by simp]
  rfl

@[simp] theorem lineClock_fatalSequence (r : Record) (l : List Record) : lineClock (fatalSequence s r l) = lineClock s := by
  have hl (t : State) (l : List Record) : lineClock (l.foldl (fun u q => toColophon u (.blotter u.stamp q)) t) = lineClock t :=
    State.each_invariant lineClock t l fun _ _ => rfl
  rw [fatalSequence, lineClock_toColophon, lineClock_timed, hl, lineClock_haltAll, lineClock_sendViral]
  rfl

@[simp] theorem lineClock_actOn (r : Record) (l : List Record) : lineClock (actOn s r l) = lineClock s := by
  simp [actOn]

@[simp] theorem lineClock_record (e : Event) (sev : Nat) (cap : Bool) : lineClock (record s e sev cap) = lineClock s := by
  simp [record]

@[simp] theorem lineClock_latch (e : Event) (sev : Nat) : lineClock (latch s e sev) = lineClock s := rfl
@[simp] theorem lineClock_absorb (src : Nat) : lineClock (absorb s src) = lineClock s := rfl

@[simp] theorem lineClock_reportOne (e : Event) : lineClock (reportOne s e) = lineClock s := by
  simp [reportOne, recordOwn]

@[simp] theorem lineClock_drainOverflow : lineClock (drainOverflow s) = lineClock s := by
  unfold drainOverflow
  split
  · rfl
  · exact State.each_invariant lineClock _ _ fun t k => lineClock_reportOne t _

@[simp] theorem lineClock_event (type source detail : Nat) : lineClock (event s type source detail) = lineClock s := by
  simp [event, report]

/-! ### The sources -/

@[simp] theorem lineClock_setQual (c : Nat) (q : SourceQual) : lineClock (setQual s c q) = lineClock s := rfl
@[simp] theorem lineClock_setPin (p : PinRul) : lineClock (setPin s p) = lineClock s := rfl
@[simp] theorem lineClock_setPeer (p : Nat) (r : PeerRul) : lineClock (setPeer s p r) = lineClock s := rfl

@[simp] theorem lineClock_showPeriod : lineClock (showPeriod s) = lineClock s := by simp [showPeriod]

@[simp] theorem lineClock_judge (o : Offer) : lineClock (judge s o) = lineClock s := by
  unfold judge
  simp only [lineClock_ite, lineClock_put, lineClock_showPeriod]
  exact ite_self _

@[simp] theorem lineClock_takeUp (c : Nat) : lineClock (takeUp s c) = lineClock s := by simp [takeUp]

@[simp] theorem lineClock_consider : lineClock (consider s) = lineClock s := by
  unfold consider
  split
  · rfl
  · dsimp only
    split
    · exact lineClock_takeUp s _
    · rfl

@[simp] theorem lineClock_qualify (c : Nat) : lineClock (qualify s c) = lineClock s := by simp [qualify]

@[simp] theorem lineClock_forget (c : Nat) : lineClock (forget s c) = lineClock s := by
  unfold forget
  split
  · rfl
  · split <;> rfl

@[simp] theorem lineClock_loseSource (c : Nat) : lineClock (loseSource s c) = lineClock s := by
  unfold loseSource
  split
  · rfl
  · extract_lets q inUse mean forgotten lost period t u v r holding next other chosen
    have hforgotten : lineClock forgotten = lineClock s := lineClock_forget s c
    have hv : lineClock v = lineClock forgotten := by
      simp only [v, u, t, lost, lineClock_put, lineClock_setQual]
    clear_value forgotten v
    have hchosen : lineClock chosen = lineClock v := (lineClock_put _ _ _).trans (lineClock_with_ruling v rfl rfl)
    clear_value other chosen
    split
    · rw [lineClock_ite, lineClock_setQual, hforgotten, ite_self]
    · cases other with
      | some x => rw [lineClock_takeUp, lineClock_event, hchosen, hv, hforgotten]
      | none => rw [lineClock_ite, lineClock_event, lineClock_event, lineClock_takeUp, hchosen, hv, hforgotten, ite_self]

@[simp] theorem lineClock_violation : lineClock (violation s) = lineClock s := by simp [violation]

@[simp] theorem lineClock_choosePeer : lineClock (choosePeer s) = lineClock s := by
  dsimp only [choosePeer]
  split
  · rfl
  · split
    · simp only [lineClock_with_ruling, lineClock_loseSource]
    · simp only [lineClock_ite, lineClock_takeUp, lineClock_qualify, lineClock_with_ruling, ite_self]

/-! ### The line -/

@[simp] theorem lineClock_missingLine : lineClock (missingLine s) = lineClock s := by simp [missingLine]

@[simp] theorem lineClock_slewStep : lineClock (slewStep s) = lineClock s := by simp [slewStep]

@[simp] theorem lineClock_trimOsc (x : BitVec 8) : lineClock (trimOsc s x) = lineClock s := by simp [trimOsc]

@[simp] theorem lineClock_announceAll : lineClock (announceAll s) = lineClock s :=
  State.each_invariant lineClock s.drew _ fun t _ => lineClock_send t _

@[simp] theorem lineClock_holdHeader : lineClock (holdHeader s) = lineClock s :=
  lineClock_with_ruling s rfl rfl

@[simp] theorem lineClock_ruleFolio : lineClock (ruleFolio s) = lineClock s := by
  simp only [ruleFolio, lineClock_announceAll, lineClock_holdHeader, lineClock_ite, lineClock_event, lineClock_put,
    lineClock_with_ruling, lineClock_choosePeer, ite_self]

@[simp] theorem lineClock_startPtm : lineClock (startPtm s) = lineClock s := by simp [startPtm]

@[simp] theorem lineClock_pulseOut : lineClock (pulseOut s) = lineClock s := by simp [pulseOut]

@[simp] theorem lineClock_ruleSends : lineClock (ruleSends s) = lineClock s := by
  rw [ruleSends, lineClock_pulseOut, lineClock_startPtm, lineClock_ite, State.each_invariant lineClock s _ fun t x => by simp, ite_self]

end

/-- The ruling's part of a line edge counts one line on both bases. -/
theorem lineClock_ruleEdge (localPs : Nat) (trim : BitVec 8) (s : State) :
    lineClock (ruleEdge localPs trim s) = ((lineClock s).1 + 1, (lineClock s).2 + 1) := by
  simp only [ruleEdge, lineClock_ruleSends, lineClock_ite, lineClock_ruleFolio, lineClock_trimOsc, lineClock_put, lineClock_slewStep, ite_self]
  rw [← lineClock_missingLine s]
  rfl

end Sys2Proof.Machine
end

section
/-! The line edge, the jump and the source order (R38, R41, R57, R60, R62, R71). -/

namespace Sys2Proof.Machine

/-- A one-bit field is set or clear. -/
theorem State.on_eq_true_iff (s : State) {f : Fld} (hf : f.width = 1) : s.on f = true ↔ s.get f = 1 := by
  have h := State.get_lt s f
  rw [hf] at h
  rw [State.on, bne_iff_ne]
  omega

/-! ### The source order -/

theorem sourceRevert_higher {s : State} {c : Fin 4} (hrun : s.ruling.running = true)
    (hhigher : ((sourceOrder s).takeWhile (· != s.get RUL_STATUS_ACTIVE_SOURCE)).contains c.val = true)
    (hstate : s.get RUL_STATUS_STATE = 1 ∨ s.get RUL_STATUS_STATE = 3) (hqual : (qual s c).qualified = true)
    (hused : (qual s c).used = true) (hlost : (qual s c).lost = true) :
    exec (.sourceRevert c) s = .next (
      if s.ruling.nonrevertive = false ∧ s.ruling.holdoff ≤ (qual s c).folios then takeUp s c else s) := by
  have hst : (s.get RUL_STATUS_STATE == 1 || s.get RUL_STATUS_STATE == 3) = true := by simpa using hstate
  show execSourceRevert c s = _
  simp only [execSourceRevert, hrun, hhigher, hst, hqual, hused, hlost, Bool.and_eq_true, Bool.not_eq_true', decide_eq_true_eq, true_and]

theorem rulSourceWrite_fields {s t u : State} (v : BitVec 64)
    (ht : t = (s.put RUL_SOURCE_NONREVERTIVE (bitsOf v.toNat 16 1)).put RUL_SOURCE_REVERT_HOLDOFF (bitsOf v.toNat 8 8))
    (hu : u = if strapLocked s 2 = true ∧ bitsOf v.toNat 0 8 ≠ s.get RUL_SOURCE_ORDER then notice t 433
      else t.put RUL_SOURCE_ORDER (bitsOf v.toNat 0 8)) :
    exec (.rulSourceWrite v) s = .next { u with ruling := { u.ruling with orderPending := some u.ruling.edges } } := by
  subst ht hu
  show Host.Outcome.next (writeRulSource s v) = _
  simp only [writeRulSource, Bool.and_eq_true, bne_iff_ne]

theorem sourceOrderApply_pending {s : State} {n : Nat} (h : s.ruling.orderPending = some n) :
    exec .sourceOrderApply s = .next (
      if s.ruling.line % 1024 = 0 ∧ n < s.ruling.edges then
        consider { s with ruling := { s.ruling with
          order := s.get RUL_SOURCE_ORDER, nonrevertive := s.on RUL_SOURCE_NONREVERTIVE
          holdoff := s.get RUL_SOURCE_REVERT_HOLDOFF, orderPending := none } }
      else s) := by
  show execSourceOrderApply s = _
  simp only [execSourceOrderApply, h]
  rfl

/-! ### The jump -/

theorem jump_idle {s : State} (e : Fin 1024) (x : EdgeInput) (h : s.get RUL_STATUS_JUMP_PENDING = 0) :
    exec (.jump e x) s = .next s := by
  show execJump e x s = _
  rw [execJump, if_pos (by simp [State.on, h])]

/-- The state at a jump with ruled time, its count bases and RUL_STATUS set from the source's offer, before its event is
reported (R62). -/
def jumped (s : State) (elapsed : Nat) (o : Offer) : State :=
  let a := s.get RUL_STATUS_ACTIVE_SOURCE
  let r := s.ruling
  let s := { s with ruling := { r with
    line := o.next * 1024, gen := if 512 ≤ elapsed then r.gen + 1 else r.gen, edges := r.edges + 1, tick := 0, utc := o.utc, hop := o.hop
    pin := if a = srcPin then { r.pin with counted := true, countedNext := false } else r.pin } }
  let s := ((s.put RUL_STATUS_EPOCH_ID o.epoch).put RUL_STATUS_JUMP_PENDING 0).put RUL_STATUS_SLEWING 0
  (((s.put RUL_STATUS_STATE 1).put RUL_STATUS_QUALITY o.quality).put RUL_STATUS_OFFSET 0).put RUL_ERRORS_JUMPED 1

theorem ruleJump_eq_jumped (s : State) (elapsed : Nat) :
    ruleJump s elapsed = holdHeader (showPeriod (event (jumped s elapsed (offer s (s.get RUL_STATUS_ACTIVE_SOURCE))) 0x23 433)) := rfl

theorem jumped_ruling (s : State) (elapsed : Nat) (o : Offer) :
    (jumped s elapsed o).ruling.line = o.next * 1024 ∧ (jumped s elapsed o).ruling.utc = o.utc ∧
    (jumped s elapsed o).ruling.hop = o.hop ∧ (jumped s elapsed o).ruling.tick = 0 ∧
    (jumped s elapsed o).ruling.edges = s.ruling.edges + 1 ∧
    (jumped s elapsed o).ruling.gen = if 512 ≤ elapsed then s.ruling.gen + 1 else s.ruling.gen :=
  ⟨rfl, rfl, rfl, rfl, rfl, rfl⟩

theorem jumped_status (s : State) (elapsed : Nat) (o : Offer) :
    (jumped s elapsed o).get RUL_STATUS_JUMP_PENDING = 0 ∧ (jumped s elapsed o).get RUL_STATUS_SLEWING = 0 ∧
    (jumped s elapsed o).get RUL_STATUS_STATE = 1 ∧ (jumped s elapsed o).get RUL_STATUS_OFFSET = 0 ∧
    (jumped s elapsed o).get RUL_STATUS_QUALITY = o.quality % 16 ∧ (jumped s elapsed o).get RUL_STATUS_EPOCH_ID = o.epoch % 65536 := by
  simp (disch := decide) only [jumped, State.get_put, State.get_put_bits, State.get_put_addr]
  exact ⟨rfl, rfl, rfl, rfl, rfl, rfl⟩

theorem jump_pending {s : State} {e : Fin 1024} {x : EdgeInput} (hup : s.power.rails = .up) (hrun : s.ruling.running = true)
    (hjump : s.get RUL_STATUS_JUMP_PENDING = 1) {j u : State}
    (hj : j = trimOsc (ruleJump s e) x.trim)
    (hu : u = freeDue (folioLine (calendarEdge (pulseOut (announceAll (j.each (accounts j) fun s a =>
      releaseHeld (jumpWindow s (decide (512 ≤ e.val)) a) a)))))) :
    exec (.jump e x) s = .next (if 512 ≤ e.val then countedLine (sampleUrgency (startPtm u) x.urgency) x else u) := by
  subst hj hu
  show execJump e x s = _
  rw [execJump, if_neg (by simp [State.on, hup, hrun, hjump])]
  simp only [decide_eq_true_eq]

/-! ### The line edge -/

theorem lineEdge_stopped {s : State} (x : EdgeInput) (h : s.power.rails ≠ .up ∨ s.ruling.running = false) :
    exec (.lineEdge x) s = .next s := by
  show execLineEdge x s = _
  rw [execLineEdge, if_pos (by simpa using h)]

theorem lineEdge_running {s : State} (x : EdgeInput) (hup : s.power.rails = .up) (hrun : s.ruling.running = true) {u : State}
    (hu : u = calendarEdge (accountEdge (ruleEdge x.localPs.toNat x.trim s) x.urgency)) :
    exec (.lineEdge x) s = .next (countedLine (freeDue (if u.lineInFolio = 0 then folioLine u else u)) x) := by
  subst hu
  show execLineEdge x s = _
  rw [execLineEdge, if_neg (by simp [hup, hrun])]

/-- Settles O10, command by command. -/
theorem lineEdgeJumpAndSourceOrder : Obligations.LineEdgeJumpAndSourceOrder := by
  refine ⟨?_, ?_, ?_, ?_, ?_, ?_, ?_, ?_⟩
  -- SOURCE_REVERT
  · exact fun s c hrun hhigher hstate hqual hused hlost => sourceRevert_higher hrun hhigher hstate hqual hused hlost
  -- RUL_SOURCE_WRITE
  · exact fun s v t ht u hu => rulSourceWrite_fields v ht hu
  -- SOURCE_ORDER_APPLY
  · exact fun s n h => sourceOrderApply_pending h
  -- RUL_CLEAR_COUNTS
  · exact fun s => rfl
  -- JUMP
  · exact fun s e x h => jump_idle e x h
  · rintro s e x hup hrun hjump o rfl
    refine ⟨jumped s e (offer s (s.get RUL_STATUS_ACTIVE_SOURCE)), jumped_ruling s e _, jumped_status s e _, ?_⟩
    rintro j u hj rfl
    exact jump_pending hup hrun hjump (ruleJump_eq_jumped s e ▸ hj) rfl
  -- LINE_EDGE
  · exact fun s x h => lineEdge_stopped x h
  · intro s x hup hrun
    have hclock := lineClock_ruleEdge x.localPs.toNat x.trim s
    exact ⟨_, _, congrArg Prod.fst hclock, congrArg Prod.snd hclock, rfl, lineEdge_running x hup hrun rfl⟩

end Sys2Proof.Machine
end

section
/-! The ruled-event table (R65 to R67, Table 2-19). -/

namespace Sys2Proof.Machine

/-! ### Writes of a slot's registers -/

section
variable {s u t : State} {n : Fin 64} {v : BitVec 64} {ok : Bool}
  (hok : ok = armChecks (bit v.toNat 2) (bit v.toNat 3) (s.get (RUL_EVENT_TIME_ALL n)) (s.get (RUL_EVENT_ADDR_ADDR n)))
include hok

theorem rulEventCtrlWrite_failing_armed (henable : bit v.toNat 0 = true) (hfails : ok = false)
    (harmed : s.get (RUL_EVENT_CTRL_ARMED n) = 1) : exec (.rulEventCtrlWrite n v) s = .next (notice s 433) := by
  have hon : s.on (RUL_EVENT_CTRL_ARMED n) = true := (s.on_eq_true_iff rfl).2 harmed
  show Host.Outcome.next (writeEventCtrl s n v) = _
  rw [writeEventCtrl, ← hok, if_pos (by simp [henable, hfails, hon])]

variable (hu : u = ((((s.put (RUL_EVENT_CTRL_WAKE n) (bitsOf v.toNat 8 8)).putB (RUL_EVENT_CTRL_WRITE n) (bit v.toNat 3)).putB
    (RUL_EVENT_CTRL_PERIODIC n) (bit v.toNat 2)).putB (RUL_EVENT_CTRL_ENABLE n) (bit v.toNat 0 && ok)).putB (RUL_EVENT_CTRL_ARMED n)
    (bit v.toNat 0 && ok))
  (ht : t = noteArm (if bit v.toNat 2 then u.put (RUL_EVENT_TIME_ALL n) (u.get (RUL_EVENT_TIME_ALL n) % 2 ^ 48) else u) n)
include hu ht

/-- A write that does not leave an armed slot as it was sets the slot's fields, with a Notice where it asks to arm a slot that fails
the arm checks. -/
theorem writeEventCtrl_taken (h : (s.on (RUL_EVENT_CTRL_ARMED n) && bit v.toNat 0 && !ok) = false) :
    writeEventCtrl s n v = if (bit v.toNat 0 && !ok) = true then notice t 433 else t := by
  subst hu ht
  rw [writeEventCtrl, ← hok, if_neg (by simp [h])]

theorem rulEventCtrlWrite_taken (h : bit v.toNat 0 = false ∨ ok = true) : exec (.rulEventCtrlWrite n v) s = .next t := by
  have hask : (bit v.toNat 0 && !ok) = false := by
    rw [Bool.and_eq_false_iff, Bool.not_eq_false']
    exact h
  show Host.Outcome.next (writeEventCtrl s n v) = _
  rw [writeEventCtrl_taken hok hu ht (by rw [Bool.and_assoc, hask, Bool.and_false]), hask, if_neg Bool.false_ne_true]

theorem rulEventCtrlWrite_failing_disarmed (henable : bit v.toNat 0 = true) (hfails : ok = false)
    (harmed : s.get (RUL_EVENT_CTRL_ARMED n) = 0) : exec (.rulEventCtrlWrite n v) s = .next (notice t 433) := by
  have hon : s.on (RUL_EVENT_CTRL_ARMED n) = false := by simp [State.on, harmed]
  show Host.Outcome.next (writeEventCtrl s n v) = _
  rw [writeEventCtrl_taken hok hu ht (by simp [hon]), if_pos (by simp [henable, hfails])]

end

theorem rulEventTimeWrite_eq (s : State) (n : Fin 64) (v : BitVec 64) :
    exec (.rulEventTimeWrite n v) s = .next (
      if s.get (RUL_EVENT_CTRL_ARMED n) = 1 ∧ armChecks (s.on (RUL_EVENT_CTRL_PERIODIC n)) (s.on (RUL_EVENT_CTRL_WRITE n)) v.toNat
        (s.get (RUL_EVENT_ADDR_ADDR n)) = false then notice s 433
      else noteArm (s.put (RUL_EVENT_TIME_ALL n) (if s.get (RUL_EVENT_CTRL_PERIODIC n) = 1 then v.toNat % 2 ^ 48 else v.toNat)) n) := by
  show Host.Outcome.next (writeEventTime s n v) = _
  simp only [writeEventTime, Bool.and_eq_true, Bool.not_eq_true', s.on_eq_true_iff (f := RUL_EVENT_CTRL_ARMED n) rfl,
    s.on_eq_true_iff (f := RUL_EVENT_CTRL_PERIODIC n) rfl]

theorem rulEventAddrWrite_eq (s : State) (n : Fin 64) (v : BitVec 64) :
    exec (.rulEventAddrWrite n v) s = .next (
      if s.get (RUL_EVENT_CTRL_ARMED n) = 1 ∧ armChecks (s.on (RUL_EVENT_CTRL_PERIODIC n)) (s.on (RUL_EVENT_CTRL_WRITE n))
        (s.get (RUL_EVENT_TIME_ALL n)) (v.toNat % 2 ^ 24) = false then notice s 433
      else noteArm (s.put (RUL_EVENT_ADDR_ADDR n) v.toNat) n) := by
  have haddr : bitsOf v.toNat 0 24 = v.toNat % 2 ^ 24 := by simp [bitsOf]
  show Host.Outcome.next (writeEventAddr s n v) = _
  simp only [writeEventAddr, haddr, Bool.and_eq_true, Bool.not_eq_true', s.on_eq_true_iff (f := RUL_EVENT_CTRL_ARMED n) rfl]

/-! ### Firing -/

theorem rulEventFire_due {s : State} {n : Fin 64} {pump : Bool} (hdue : slotDue s n = true)
    (hfirst : ∀ m : Nat, m < n.val → slotDue s m = false) : exec (.rulEventFire n pump) s = .next (
      if s.get (RUL_EVENT_CTRL_WRITE n) = 1 then
        deskWrite (fireSlot s n) (slotWriter s n) (s.get (RUL_EVENT_ADDR_ADDR n)) (s.word (RUL_EVENT_DATA_ALL n).addr) pump
      else fireSlot s n) := by
  have hlower : (List.range n.val).any (slotDue s) = false := by simpa using hfirst
  show execRulEventFire n pump s = _
  rw [execRulEventFire, if_neg (by simp [hdue, hlower])]
  simp only [slotActs, s.on_eq_true_iff (f := RUL_EVENT_CTRL_WRITE n) rfl]

/-- A periodic slot stays armed and is never late (R65). -/
theorem fireSlot_periodic {s u : State} {n : Fin 64}
    (hu : u = { s with ruling := { s.ruling with firedEdge := Tab.set s.ruling.firedEdge n s.ruling.edges } })
    (h : s.get (RUL_EVENT_CTRL_PERIODIC n) = 1) :
    fireSlot s n = (u.setFlag RUL_EVENT_FIRED_ALL n).each (List.range 8) (fun s k =>
      if bit (u.get (RUL_EVENT_CTRL_WAKE n)) k then postEvent s k (descriptor 1 n) else s) := by
  subst hu
  have hon : s.on (RUL_EVENT_CTRL_PERIODIC n) = true := (s.on_eq_true_iff rfl).2 h
  simp only [fireSlot, hon, Bool.not_true, Bool.false_and, Bool.false_eq_true, if_false]
  rfl

/-- A one-shot slot that fires in time and wakes no rubric is disarmed (R65, R67). -/
theorem fireSlot_oneShot {s : State} {n : Fin 64} (hperiodic : s.get (RUL_EVENT_CTRL_PERIODIC n) = 0)
    (hwake : s.get (RUL_EVENT_CTRL_WAKE n) = 0) (htime : s.ruling.line ≤ s.get (RUL_EVENT_TIME_ALL n) / 1024) :
    fireSlot s n = ({ s with ruling := { s.ruling with
      firedEdge := Tab.set s.ruling.firedEdge n s.ruling.edges } }.setFlag RUL_EVENT_FIRED_ALL n).put (RUL_EVENT_CTRL_ARMED n) 0 := by
  have hon : s.on (RUL_EVENT_CTRL_PERIODIC n) = false := by simp [State.on, hperiodic]
  have hlate : decide (s.get (RUL_EVENT_TIME_ALL n) / 1024 < s.ruling.line) = false := decide_eq_false (Nat.not_lt.2 htime)
  simp only [fireSlot, hon, hlate, hwake, Bool.not_false, Bool.and_false, Bool.false_eq_true, if_true, if_false]
  exact each_eq_self fun k _ => if_neg (by simp [bit])

/-- Settles O11, command by command. -/
theorem ruledEventSlotsArmAndFire : Obligations.RuledEventSlotsArmAndFire := by
  refine ⟨?_, ?_, ?_, ?_, ?_⟩
  -- RUL_EVENT_CTRL_WRITE
  · intro s n v ok hok u t hu ht
    exact ⟨rulEventCtrlWrite_taken hok hu ht, rulEventCtrlWrite_failing_disarmed hok hu ht, rulEventCtrlWrite_failing_armed hok⟩
  -- RUL_EVENT_TIME_WRITE
  · exact rulEventTimeWrite_eq
  -- RUL_EVENT_ADDR_WRITE
  · exact rulEventAddrWrite_eq
  -- RUL_EVENT_FIRE
  · intro s n pump hdue hfirst u t hu hperiodic ht
    rw [rulEventFire_due hdue hfirst, fireSlot_periodic hu hperiodic, ← ht]
  · intro s n pump hdue hfirst hperiodic hwrite hwake htime
    rw [rulEventFire_due hdue hfirst, if_neg (by simp [hwrite]), fireSlot_oneShot hperiodic hwake htime]

end Sys2Proof.Machine
end

section
/-! Reception on RULE_P/N (R38, R44 to R46, R48, R49, R58). -/

namespace Sys2Proof.Machine

/-! ### The receiver after a counted edge -/

/-- A header's bit moves the position by one line and is kept on lines 1 to 128 (R44, R45). -/
theorem PinRul.edge_bit {p : PinRul} {c k : Nat} (hc : c < 2) (hpos : p.pos = some k) (hk : k < 1023) (d : Int) :
    p.edge (some c) d = { p with
      pos := some (k + 1)
      bits := if k + 1 ≤ 128 then (p.bits <<< 1) ||| (if c = 1 then 1 else 0) else p.bits
      missing := 0
      counted := p.counted || decide (0 ≤ d)
      countedNext := p.countedNext || decide (d < 0)
      offset := -d } := by
  have hmark : (some c == some 2) = false := by simp; omega
  have hmark' : some c ≠ some 2 := by simp; omega
  simp [PinRul.edge, hmark, hmark', hpos, hk.ne]

/-- A folio mark 1,024 lines after the last begins a folio, and counts towards qualification unless more than 16 lines between were
violations (R45, R46, R58). -/
theorem PinRul.edge_mark {p : PinRul} (hpos : p.pos = some 1023) (d : Int) :
    p.edge (some 2) d = { p with
      pos := some 0
      mark := true
      marks := if p.mark = true ∧ p.violations ≤ 16 then p.marks + 1 else 0
      violations := 0
      missing := 0
      folio := p.folio + 1
      counted := p.counted || decide (0 ≤ d)
      countedNext := p.countedNext || decide (d < 0)
      offset := -d } := by
  simp [PinRul.edge, hpos]

/-- An edge of no class, a folio mark on a line other than 0, or none on line 0 (R46). -/
def PinRul.misplaced (p : PinRul) (c : Option Nat) : Prop :=
  c = none ∨ (c = some 2 ∧ p.pos ≠ none ∧ p.pos ≠ some 1023) ∨ (c ≠ some 2 ∧ p.pos = some 1023)

theorem PinRul.misplaced_iff (p : PinRul) (c : Option Nat) :
    p.misplaced c ↔ (c.isNone || (c == some 2 && p.pos.isSome && !decide (p.pos = some 1023)) ||
      (c != some 2 && decide (p.pos = some 1023))) = true := by
  simp [PinRul.misplaced, or_assoc, and_assoc, Option.isSome_iff_ne_none]

/-! ### RULE_PULSE -/

section
variable {s t : State} {off d : Int} {w per n : Nat} {alt : Bool} (hrun : s.ruling.running = true) (hd : d = off - pinCompTicks s)
include hrun hd

theorem rulePulse_far (hlocked : s.get RUL_STATUS_STATE = 1) (hfar : 256 < d.natAbs) :
    exec (.rulePulse off w per alt) s = .next (violation s) := by
  subst hd
  show execRulePulse off w per alt s = _
  rw [execRulePulse, if_neg (by simp [hrun])]
  exact congrArg _ (if_pos ⟨hlocked, hfar⟩)

variable (hnear : s.get RUL_STATUS_STATE ≠ 1 ∨ d.natAbs ≤ 256) (hn : n = s.ruling.pin.missing + 1)
  (ht : t = { s with ruling := { s.ruling with
    periods := (List.replicate n (per / n) ++ s.ruling.periods).take 1024, pin := s.ruling.pin.edge (pulseClass w alt) d } })
include hnear hn ht

theorem rulePulse_near : ∃ bad : Bool, (bad = true ↔ s.ruling.pin.misplaced (pulseClass w alt)) ∧
    exec (.rulePulse off w per alt) s = .next (checkPin (
      if bad then violation (if s.get RUL_STATUS_ACTIVE_SOURCE = 0 then showPeriod t else t)
      else if s.get RUL_STATUS_ACTIVE_SOURCE = 0 then showPeriod t else t)) := by
  subst hd hn ht
  refine ⟨_, (PinRul.misplaced_iff _ _).symm, ?_⟩
  have hfar : ¬(s.get RUL_STATUS_STATE = 1 ∧ 256 < (off - pinCompTicks s).natAbs) := by
    rw [not_and_or, Nat.not_lt]
    exact hnear
  show execRulePulse off w per alt s = _
  rw [execRulePulse, if_neg (by simp [hrun])]
  exact congrArg _ (if_neg hfar)

theorem rulePulse_placed (h : ¬s.ruling.pin.misplaced (pulseClass w alt)) : exec (.rulePulse off w per alt) s =
    .next (checkPin (if s.get RUL_STATUS_ACTIVE_SOURCE = 0 then showPeriod t else t)) := by
  obtain ⟨bad, hbad, hexec⟩ := rulePulse_near hrun hd hnear hn ht
  rw [hexec, if_neg (hbad.not.2 h)]

theorem rulePulse_misplaced (h : s.ruling.pin.misplaced (pulseClass w alt)) : exec (.rulePulse off w per alt) s =
    .next (checkPin (violation (if s.get RUL_STATUS_ACTIVE_SOURCE = 0 then showPeriod t else t))) := by
  obtain ⟨bad, hbad, hexec⟩ := rulePulse_near hrun hd hnear hn ht
  rw [hexec, if_pos (hbad.2 h)]

end

/-! ### FOLIO_HEADER -/

@[simp] theorem get_setPin (s : State) (p : PinRul) (f : Fld) : (setPin s p).get f = s.get f := rfl

/-- Keeping a header writes RUL_HEADER alone. -/
theorem get_keepHeader (s : State) (h : BitVec 128) {f : Fld} (hlo : f.addr ≠ 0x38) (hhi : f.addr ≠ 0x40) :
    (keepHeader s h).get f = s.get f := by
  rw [keepHeader, State.get_setWord_ne _ _ _ hhi, State.get_setWord_ne _ _ _ hlo]

section
variable {s : State} (hrun : s.ruling.running = true) (hpos : s.ruling.pin.pos = some 128)
include hrun hpos

theorem folioHeader_failing (hcrc : headerOk s.ruling.pin.bits = false) :
    exec .folioHeader s = .next (event (s.inc RUL_ERRORS_CRC_FAILS) 0x20 433) := by
  show execFolioHeader s = _
  simp [execFolioHeader, hrun, hpos, hcrc, headerFails]

variable (hcrc : headerOk s.ruling.pin.bits = true) {t : State}
  (ht : t = keepHeader (setPin s { s.ruling.pin with last := some s.ruling.pin.bits }) s.ruling.pin.bits)
include hcrc ht

theorem folioHeader_disagreeing (h : ∀ a, s.ruling.pin.last = some a → headersAgree a s.ruling.pin.bits = false) :
    exec .folioHeader s = .next t := by
  subst ht
  show execFolioHeader s = _
  rw [execFolioHeader, if_neg (by simp [hrun, hpos])]
  cases hl : s.ruling.pin.last with
  | none => simp [hcrc]
  | some a => simp [hcrc, h a hl]

theorem folioHeader_agreeing {a : BitVec 128} (hl : s.ruling.pin.last = some a) (h : headersAgree a s.ruling.pin.bits = true) {u : State}
    (hu : u = setPin t { t.ruling.pin with acted := some s.ruling.pin.bits, folio := hdrFolio s.ruling.pin.bits }) :
    exec .folioHeader s = .next (
      if s.get RUL_STATUS_ACTIVE_SOURCE = 0 ∧ s.get RUL_STATUS_STATE = 1 then judge u (offer u 0) else checkPin u) := by
  have hactive : u.get RUL_STATUS_ACTIVE_SOURCE = s.get RUL_STATUS_ACTIVE_SOURCE := by
    rw [hu, get_setPin, ht, get_keepHeader _ _ (by decide) (by decide), get_setPin]
  have hstate : u.get RUL_STATUS_STATE = s.get RUL_STATUS_STATE := by
    rw [hu, get_setPin, ht, get_keepHeader _ _ (by decide) (by decide), get_setPin]
  rw [← hactive, ← hstate]
  subst hu ht
  show execFolioHeader s = _
  rw [execFolioHeader, if_neg (by simp [hrun, hpos])]
  simp only [hcrc, hl, h, Bool.not_true, Bool.false_eq_true, if_false]
  rfl

end

/-- Settles O8, pulse by pulse. -/
theorem pinReceptionFollowsThePulses : Obligations.PinReceptionFollowsThePulses := by
  refine ⟨?_, ?_, ?_, ?_, ?_, ?_⟩
  -- an edge of symbol class 0 or 1
  · intro s off w per alt c k hrun hclass hc hpos hk d hd hnear n hn t ht
    have hplaced : ¬s.ruling.pin.misplaced (pulseClass w alt) := by
      simp [PinRul.misplaced, hclass, hpos, hc.ne, hk.ne]
    rw [← PinRul.edge_bit hc hpos hk, ← hclass] at ht
    exact rulePulse_placed hrun hd hnear hn ht hplaced
  -- a folio mark on line 0
  · intro s off w per alt hrun hclass hpos d hd hnear n hn t ht
    have hplaced : ¬s.ruling.pin.misplaced (pulseClass w alt) := by simp [PinRul.misplaced, hclass, hpos]
    rw [← PinRul.edge_mark hpos, ← hclass] at ht
    exact rulePulse_placed hrun hd hnear hn ht hplaced
  -- an edge out of its place
  · exact fun s off w per alt hrun h d hd hnear n hn t ht => rulePulse_misplaced hrun hd hnear hn ht h
  -- an edge far from its predicted edge
  · exact fun s off w per alt hrun hlocked hfar => rulePulse_far hrun rfl hlocked hfar
  -- a header that fails its CRC
  · exact fun s hrun hpos hcrc => folioHeader_failing hrun hpos hcrc
  -- a valid header
  · exact fun s t hrun hpos hcrc ht => ⟨folioHeader_disagreeing hrun hpos hcrc ht,
      fun a hl h u hu => folioHeader_agreeing hrun hpos hcrc ht hl h hu⟩

end Sys2Proof.Machine
end

section
/-! The ruling messages of the node's links (R48, R49, R51 to R54, R58). -/

namespace Sys2Proof.Machine

/-! ### Payloads (Table 2-6) -/

theorem payloadSubtype_eq (p : BitVec 256) : payloadSubtype p = p.toNat % 256 := by
  simp [payloadSubtype, BitVec.extractLsb'_toNat]

theorem payloadHop_eq (p : BitVec 256) : payloadHop p = p.toNat / 256 % 256 := by
  rw [payloadHop, BitVec.extractLsb'_toNat, Nat.shiftRight_eq_div_pow]

/-! ### ANNOUNCE -/

@[simp] theorem get_setPeer (s : State) (p : Nat) (r : PeerRul) (f : Fld) : (setPeer s p r).get f = s.get f := rfl

section
variable {s : State} {port : Fin 64} {p : BitVec 256} (l : List Nat) (hrun : s.ruling.running = true) (hup : peerUp s port = true)
  (hsub : p.toNat % 256 = 1)
include hrun hup hsub

theorem announce_failing (hcrc : headerOk (payloadHeader p) = false) : exec (.announce port p l) s =
    .next (choosePeer (event ((setPeer s port ((peerOf s port).beginFolio l)).inc RUL_ERRORS_CRC_FAILS) 0x20 433)) := by
  show execAnnounce port p l s = _
  rw [execAnnounce, if_neg (by simp [hrun, hup, payloadSubtype_eq, hsub])]
  simp only [hcrc, Bool.not_false, if_true, headerFails]

variable {h : BitVec 128} (hh : h = payloadHeader p) (hcrc : headerOk h = true) {r q x : PeerRul} (hr : r = peerOf s port)
  (hq : q = r.beginFolio l) {agree : Bool} (hagree : agree = true ↔ ∃ a, r.last = some a ∧ headersAgree a h = true)
include hh hcrc hr hq hagree

theorem announce_valid {hop : Nat} (hhop : hop = p.toNat / 256 % 256)
    (hx : x = { q with
      last := some h, hop := hop, agreed := if agree then r.agreed + 1 else 0, qualified := q.qualified && decide (hop ≤ 14)
      acted := if agree then some h else r.acted, folio := if agree then hdrFolio h else r.folio + 1 })
    {t : State} (ht : t = keepHeader (setPeer s port x) h) :
    exec (.announce port p l) s = .next (choosePeer (
      if s.ruling.peer = some port.val ∧ s.get RUL_STATUS_ACTIVE_SOURCE = 1 ∧ s.get RUL_STATUS_STATE = 1 ∧ x.qualified = true
      then judge t (offer t 1) else t)) := by
  have hpeer : t.ruling.peer = s.ruling.peer := by
    rw [ht]
    rfl
  have hactive : t.get RUL_STATUS_ACTIVE_SOURCE = s.get RUL_STATUS_ACTIVE_SOURCE := by
    rw [ht, get_keepHeader _ _ (by decide) (by decide), get_setPeer]
  have hstate : t.get RUL_STATUS_STATE = s.get RUL_STATUS_STATE := by
    rw [ht, get_keepHeader _ _ (by decide) (by decide), get_setPeer]
  rw [← hpeer, ← hactive, ← hstate]
  show execAnnounce port p l s = _
  rw [execAnnounce, if_neg (by simp [hrun, hup, payloadSubtype_eq, hsub])]
  subst hh hr hq
  refine congrArg _ ?_
  extract_lets h r began agreed hop' announced s' inUse
  rw [if_neg (by simpa [h] using hcrc)]
  have hagreed : agreed = agree := by
    rw [Bool.eq_iff_iff, hagree]
    simp only [agreed, r]
    cases (peerOf s port).last <;> simp [h]
  have hhop' : hop' = hop := (payloadHop_eq p).trans hhop.symm
  clear_value agreed hop'
  subst hagreed hhop'
  have hannounced : announced.qualified = x.qualified := by rw [hx]
  have hs : s' = t := by
    rw [ht, hx]
    cases agreed <;> rfl
  clear_value s' announced
  subst hs
  simp only [inUse, hannounced, and_assoc]
  rfl

end

/-! ### SYNC_REQUEST -/

theorem syncRequest_answered {s t : State} {port : Fin 64} {x y : BitVec 128} {p : BitVec 256} {a b : Fin 1024} (hp : p = y ++ x)
    (hrun : s.ruling.running = true) (hon : announcesOn s port = true) (hsub : p.toNat % 256 = 2) (ht : t = (s.passed a).passed b) :
    exec (.syncRequest port x y a b) s = .next { t with out := s.out ++ [.ruling port (rulingPayload 3 0 (payloadSeq p)
      (BitVec.ofNat 64 (s.ruling.line * 1024 + (s.passed a).ruling.tick) ++ payloadT1 p)
      (BitVec.ofNat 64 (s.ruling.line * 1024 + t.ruling.tick)))] } := by
  subst hp ht
  show execSyncRequest port x y a b s = _
  rw [execSyncRequest, if_pos (by simp [hrun, hon, payloadSubtype_eq, hsub])]
  rfl

/-! ### SYNC_RESPONSE -/

section
variable {s : State} {port : Fin 64} {x : BitVec 128} {y z : BitVec 64} {p : BitVec 256} {k : Fin 1024} (hp : p = z ++ (y ++ x))
  (hrun : s.ruling.running = true) (hup : peerUp s port = true) (hsub : p.toNat % 256 = 3) {r : PeerRul} (hr : r = peerOf s port)
  (hasked : r.asked = some (payloadSeq p)) {t4 t1 t2 t3 : Nat} (ht4 : t4 = s.ruling.line * 1024 + (s.passed k).ruling.tick)
  (ht1 : t1 = (payloadT1 p).toNat)
include hp hrun hup hsub hr hasked ht4 ht1

theorem syncResponse_late (h : t4 < t1 ∨ t1 + 256 ≤ t4) :
    exec (.syncResponse port x y z k) s = .next (setPeer (s.passed k) port { r with asked := none }) := by
  subst hp hr ht4 ht1
  show execSyncResponse port x y z k s = _
  rw [execSyncResponse, if_neg (by simp [hrun, hup, payloadSubtype_eq, hsub, hasked])]
  refine congrArg _ (if_pos ?_)
  simp only [State.passed] at h ⊢
  omega

theorem syncResponse_valid (ht2 : t2 = y.toNat) (ht3 : t3 = z.toNat) (h1 : t1 ≤ t4) (h2 : t4 < t1 + 256) :
    exec (.syncResponse port x y z k) s = .next (choosePeer (setPeer (s.passed k) port { r with
      asked := none, valid := r.valid + 1, sum := r.sum + (((t2 : Int) - t1) + ((t3 : Int) - t4)) / 2
      qualified := r.qualified || (decide (1 ≤ r.agreed) && decide (4 ≤ r.valid + 1) && decide (r.hop ≤ 14) && periodOk r.periods) })) := by
  subst hp hr ht4 ht1 ht2 ht3
  show execSyncResponse port x y z k s = _
  rw [execSyncResponse, if_neg (by simp [hrun, hup, payloadSubtype_eq, hsub, hasked])]
  refine congrArg _ (if_neg ?_)
  simp only [State.passed] at h1 h2 ⊢
  omega

end

/-! ### PTM_DIALOG_COMPLETE -/

theorem ptmDialog_succeeded {s t : State} {m : BitVec 64} {k : Fin 1024} (hrun : s.ruling.running = true)
    (ht : t = { s.passed k with ruling := { (s.passed k).ruling with
      ptmOk := s.ruling.ptmOk + 1, ptmBad := 0, ptmFolio := m.toNat / 1000 / 1024
      ptmOffset := ((m.toNat * 1024 / 1000 : Nat) : Int) - (s.ruling.line * 1024 + (s.passed k).ruling.tick : Nat) } }) :
    exec (.ptmDialogComplete true m k) s = .next (
      if s.get RUL_STATUS_ACTIVE_SOURCE = 2 ∧ s.get RUL_STATUS_STATE = 1 then judge t (offer t 2)
      else if 3 ≤ s.ruling.ptmOk then qualify t 2 else t) := by
  subst ht
  show execPtmDialogComplete true m k s = _
  rw [execPtmDialogComplete, if_neg (by simp [hrun]), if_pos rfl]
  simp only [Nat.succ_le_succ_iff]
  rfl

theorem ptmDialog_failed {s t : State} (m : BitVec 64) (k : Fin 1024) (hrun : s.ruling.running = true)
    (ht : t = { s with ruling := { s.ruling with ptmOk := 0, ptmBad := s.ruling.ptmBad + 1 } }) :
    exec (.ptmDialogComplete false m k) s = .next (if 3 ≤ s.ruling.ptmBad then loseSource t 2 else t) := by
  subst ht
  show execPtmDialogComplete false m k s = _
  rw [execPtmDialogComplete, if_neg (by simp [hrun]), if_neg Bool.false_ne_true]
  simp only [Nat.succ_le_succ_iff]
  rfl

/-- Settles O9, message by message. -/
theorem rulingMessagesMoveTheirSources : Obligations.RulingMessagesMoveTheirSources := by
  refine ⟨?_, ?_, ?_, ?_, ?_⟩
  -- ANNOUNCE
  · intro s port p l hrun hup hsub r q hr hq h hh
    refine ⟨fun hcrc => ?_, fun hcrc hop hhop agree hagree x hx t ht => ?_⟩
    · subst hq hr hh
      exact announce_failing l hrun hup hsub hcrc
    · exact announce_valid l hrun hup hsub hh hcrc hr hq hagree hhop hx ht
  -- SYNC_REQUEST
  · exact fun s port x y p a b hp hrun hon hsub t ht => syncRequest_answered hp hrun hon hsub ht
  -- SYNC_RESPONSE
  · intro s port x y z p k hp hrun hup hsub r hr hasked t4 t1 t2 t3 ht4 ht1 ht2 ht3
    exact ⟨syncResponse_late hp hrun hup hsub hr hasked ht4 ht1, syncResponse_valid hp hrun hup hsub hr hasked ht4 ht1 ht2 ht3⟩
  -- PTM_DIALOG_COMPLETE
  · exact fun s m k hrun t ht => ptmDialog_succeeded hrun ht
  · exact fun s m k hrun t ht => ptmDialog_failed m k hrun ht

end Sys2Proof.Machine
end

section
/-! Requests at a channel controller (R78, R86, R107, R109 to R113, R133, R135). -/

namespace Sys2Proof.Machine

@[simp] theorem chan_modChan (s : State) (g : Nat) (f : Chan → Chan) : chan (modChan s g f) g = f (chan s g) :=
  Tab.at_set_self _ _ _ _

/-! ### The command slot -/

/-- The candidates of the write batch: of the buffered writes to one line the oldest alone (R107). -/
def firstWrites (s : State) (g : Nat) : List Cand :=
  (writeCands s g).filter fun y => !(((chan s g).writes.take y.idx).any fun v => match (chan s g).writes[y.idx]? with
    | some w => v.bank == w.bank && v.row == w.row && v.line == w.line | none => false)

section
variable {s : State} {g aged agedW : Nat} {busy : List Nat} {x : Cand}

theorem serveSlot_reads_idle (hmode : (chan s g).writeMode = false) (hx : choose s g (readCands s g) aged busy = none) :
    serveSlot s g aged agedW busy = s := by
  simp only [serveSlot, hmode, hx, Bool.false_eq_true, if_false]

theorem serveSlot_reads (hmode : (chan s g).writeMode = false) (hx : choose s g (readCands s g) aged busy = some x) :
    serveSlot s g aged agedW busy = issueRead s g x := by
  simp only [serveSlot, hmode, hx, Bool.false_eq_true, if_false]

theorem serveSlot_writes (hmode : (chan s g).writeMode = true) (hx : choose s g (firstWrites s g) agedW busy = some x) :
    serveSlot s g aged agedW busy = issueWrite s g x := by
  rw [serveSlot, if_pos hmode]
  show (match choose s g (firstWrites s g) agedW busy with | some x => issueWrite s g x | none => s) = _
  rw [hx]

theorem issueRead_closed (h : Tab.find (chan s g).openRow x.bank ≠ some x.row) : issueRead s g x = activate s g x.bank x.row :=
  if_pos h

theorem issueRead_open {r : Req} (h : Tab.find (chan s g).openRow x.bank = some x.row) (hr : (chan s g).pool[x.idx]? = some r) :
    issueRead s g x = fillPools (modChan (readArray (column s g x r.access.account) g r) g
      fun c => { c with pool := c.pool.eraseIdx x.idx }) g := by
  rw [issueRead, if_neg (not_not_intro h), hr]

theorem issueWrite_closed (h : Tab.find (chan s g).openRow x.bank ≠ some x.row) : issueWrite s g x = activate s g x.bank x.row :=
  if_pos h

theorem issueWrite_open {w : WLine} (h : Tab.find (chan s g).openRow x.bank = some x.row)
    (hw : (chan s g).writes[x.idx]? = some w) :
    issueWrite s g x = fillWrites (modChan (writeArray (column s g x w.account) g w) g
      fun c => { c with writes := c.writes.eraseIdx x.idx }) g := by
  rw [issueWrite, if_neg (not_not_intro h), hw]

end

section
variable {s : State} {g : Fin 256} (aged agedW : Nat) (busy : List (Fin 272)) (hin : inService s g = true)
include hin

theorem commandPick_discarded {x : ChanCmd} {rest : List ChanCmd} (hd : (chan s g).discarded = x :: rest) :
    exec (.commandPick g ⟨aged, agedW⟩ busy) s = .next (reissueCmd (modChan s g fun c => { c with discarded := rest }) g x) := by
  show execCommandPick g ⟨aged, agedW⟩ busy s = _
  simp only [execCommandPick, hin, hd, Bool.not_true, Bool.false_eq_true, if_false]

theorem commandPick_slot (hd : (chan s g).discarded = []) : exec (.commandPick g ⟨aged, agedW⟩ busy) s =
    .next (drainReserve (serveSlot (batch (fillPools (holdPooled s g) g) g aged) g aged agedW (busy.map Fin.val))) := by
  show execCommandPick g ⟨aged, agedW⟩ busy s = _
  simp only [execCommandPick, hin, hd, Bool.not_true, Bool.false_eq_true, if_false]

end

/-! ### The array -/

theorem issued_readArray (s : State) (g : Nat) (r : Req) :
    (chan (readArray s g r) g).issued = (chan s g).issued ++ [⟨r, loadLine s (locOfBank g r.bank r.row) r.line⟩] := by
  simp only [readArray, chan_modChan, noteCmd]

theorem media_writeArray (s : State) (g : Nat) (w : WLine) :
    (writeArray s g w).media = (storeLine s (locOfBank g w.bank w.row) w.line w.content).media := rfl

/-! ### Returning reads -/

section
variable {s u t : State} {g : Fin 256} {i : Issued} {rest : List Issued} {run : ReadRun} {o : Opened}

/-- A burst that decodes, of a line without a counter and not for a lending node, is answered with what it opens to (R78). -/
theorem readBack_data {d : BitVec 512} (hdec : decodes u g [] = true) (hfresh : i.content.fresh = false)
    (hlends : i.req.access.origin.lends = false)
    (hopen : openLine (countDecode u g (physRead u (locOfBank g i.req.bank i.req.row)).bankIndex i.req.row [])
      i.req.access.dpa i.req.access.key i.content = .data d) :
    readBack u g i {} = (respond (countDecode u g (physRead u (locOfBank g i.req.bank i.req.row)).bankIndex i.req.row [])
      i.req.access.origin i.req.access.account (.data d), none) := by
  simp only [readBack, hdec, hfresh, hlends, treeMet, hopen, Opened.bad, opened, Bool.not_true, Bool.false_eq_true, if_true, if_false]

theorem readDataReturn_answered (hi : (chan s g).issued = i :: rest) (hu : u = modChan s g fun c => { c with issued := rest })
    (hb : readBack u g i run = (t, none)) : exec (.readDataReturn g run) s = .next t := by
  subst hu
  show execReadDataReturn g run s = _
  simp only [execReadDataReturn, hi, hb]

theorem readDataReturn_held (hi : (chan s g).issued = i :: rest) (hu : u = modChan s g fun c => { c with issued := rest })
    (hb : readBack u g i run = (t, some o)) :
    exec (.readDataReturn g run) s = .next (modChan t g fun c => { c with reread := c.reread ++ [i] }) := by
  subst hu
  show execReadDataReturn g run s = _
  simp only [execReadDataReturn, hi, hb]

theorem rereadComplete_clean (hi : (chan s g).reread = i :: rest) (hu : u = modChan s g fun c => { c with reread := rest })
    (hb : readBack u g i run = (t, none)) : exec (.rereadComplete g run) s = .next (transient t g) := by
  subst hu
  show execRereadComplete g run s = _
  simp only [execRereadComplete, hi, hb]

/-- A re-read that does not decode either is answered with poison, and its rank has failed (R133). -/
theorem rereadComplete_undecodable (hi : (chan s g).reread = i :: rest) (hu : u = modChan s g fun c => { c with reread := rest })
    (hb : readBack u g i run = (t, some o)) (hdec : decodes t g run.errors = false) (hlends : i.req.access.origin.lends = false) :
    exec (.rereadComplete g run) s = .next (failLine
      (respond (noteLost t (locOfBank g i.req.bank i.req.row) i.req.line) i.req.access.origin i.req.access.account .poison)
      i.req.access.origin i.req.access.dpa 1 (locOfBank g i.req.bank i.req.row)) := by
  subst hu
  show execRereadComplete g run s = _
  simp only [execRereadComplete, hi, hb, hdec, hlends, Bool.false_eq_true, if_false]

end

/-! ### The spare copy -/

theorem spareCopyComplete_eq (s : State) (g : Fin 256) (reads : List (Fin 25600 × Fin 64 × ReadRun)) :
    exec (.spareCopyComplete g reads) s = .next (
      if s.get (CHN_ERROR_COPY_ACTIVE g) = 0 ∨ overCeiling s 4095 = true then s else
        (((advanceCopy s g 25600 (reads.map fun y => (y.1.val, y.2.1.val, y.2.2))).put (CHN_ERROR_COPY_ACTIVE g) 0).put
          (CHN_ERROR_COPY_BANK g) 0).put (CHN_ERROR_COPY_ROW g) 0) := by
  show execSpareCopyComplete g reads s = _
  simp only [execSpareCopyComplete, Bool.or_eq_true, Bool.not_eq_true', State.on, bne_eq_false_iff_eq]

/-- Settles O12, command by command. -/
theorem channelServesItsRequests : Obligations.ChannelServesItsRequests := by
  refine ⟨?_, ?_, ?_, ?_, ?_, ?_, spareCopyComplete_eq⟩
  -- COMMAND_PICK of a channel with nothing to issue again
  · intro s u g aged agedW busy hin hd hu
    rw [commandPick_slot aged agedW busy hin hd, ← hu]
    refine ⟨fun hmode hx => ?_, fun x hmode hx => ?_, fun x hmode hx => ?_⟩
    · rw [serveSlot_reads_idle hmode hx]
    · rw [serveSlot_reads hmode hx]
      exact ⟨fun hrow => by rw [issueRead_closed hrow], fun r hrow hr => by rw [issueRead_open hrow hr]⟩
    · rw [serveSlot_writes hmode hx]
      exact ⟨fun hrow => by rw [issueWrite_closed hrow], fun w hrow hw => by rw [issueWrite_open hrow hw]⟩
  -- COMMAND_PICK of a channel with a discarded command
  · exact fun s g aged agedW busy x rest hin hd => commandPick_discarded aged agedW busy hin hd
  · exact fun s g r w => ⟨issued_readArray s g r, media_writeArray s g w⟩
  -- READ_DATA_RETURN
  · exact fun s u g i rest d hi hu hdec hfresh hlends hopen =>
      readDataReturn_answered hi hu (readBack_data hdec hfresh hlends hopen)
  · exact fun s u t g i rest o run hi hu hb => readDataReturn_held hi hu hb
  -- REREAD_COMPLETE
  · intro s u t g i rest run hi hu
    refine ⟨fun hb => rereadComplete_clean hi hu hb, fun o v hb hdec hlends hv => ?_⟩
    subst hv
    exact rereadComplete_undecodable hi hu hb hdec hlends

end Sys2Proof.Machine
end

section
/-! The kernel library, queue pairs and parked cores (R100, R376 to R378, R394 to R396). -/

namespace Sys2Proof.Machine

/-! ### Loads -/

section
variable {s : State} {n : Fin 4096}

theorem kernelLoadBegin_opened {x : State × Nat} (h : Serving s n 0x40) (hr : libraryReady s = true)
    (hzero : field (payload s n) 4 4 = 0) (hlen : 3988 ≤ field (payload s n) 0 4) (hp : 8 ≤ (payload s n).length)
    (hroom : s.scribes.sessions.length < 65536) (hx : x = openSession s true (field (payload s n) 0 4)) :
    exec (.kernelLoadBegin n) s = .next (finish x.1 n 0 0 (leBytes 2 x.2)) := by
  have hbegin : loadBegin true s (payload s n) = (x.1, { resp := leBytes 2 x.2 }) := by
    subst hx
    rw [loadBegin, if_neg (by simp [hzero]; omega), if_neg (by omega)]
  show execKernelLoadBegin n s = _
  rw [execKernelLoadBegin, serve_serving s n _ _ _ h hr, hbegin]

theorem kernelLoadChunk_stored {x : LoadSession} (h : Serving s n 0x41) (hr : libraryReady s = true)
    (hx : Tab.find s.scribes.sessions (field (payload s n) 0 2) = some x) (hk : x.kernel = true) (hp : 8 ≤ (payload s n).length)
    (hzero : field (payload s n) 2 2 = 0) (hfits : field (payload s n) 4 4 + ((payload s n).drop 8).length ≤ x.length) :
    exec (.kernelLoadChunk n) s = .next (finish { s with scribes := { s.scribes with
      sessions := Tab.set s.scribes.sessions (field (payload s n) 0 2)
        { x with bytes := putBytes x.bytes (field (payload s n) 4 4) ((payload s n).drop 8) } } } n 0 0 []) := by
  have hchunk : loadChunk true s (payload s n) = ({ s with scribes := { s.scribes with
      sessions := Tab.set s.scribes.sessions (field (payload s n) 0 2)
        { x with bytes := putBytes x.bytes (field (payload s n) 4 4) ((payload s n).drop 8) } } }, {}) := by
    have hsession : (some x).filter (fun y => y.kernel == true) = some x := by simp [hk]
    simp only [loadChunk, hx, hsession]
    rw [if_neg (by simp only [Bool.or_eq_true, decide_eq_true_eq]; omega)]
  show execKernelLoadChunk n s = _
  rw [execKernelLoadChunk, serve_serving s n _ _ _ h hr, hchunk]

/-- A commit of an open session ends it, and an image that passes every check enters the library (R356, R376, R377). -/
theorem kernelLoadCommit_judged {x : LoadSession} {l : List (BitVec 8)} {c : State} {k : Nat} (h : Serving s n 0x42)
    (hr : libraryReady s = true) (hx : Tab.find s.scribes.sessions (field (payload s n) 0 2) = some x) (hkernel : x.kernel = true)
    (hc : c = closeSession s (field (payload s n) 0 2)) (hl : l = bytesAt x.bytes 0 x.length) (hk : k = field l 0xC 2) :
    exec (.kernelLoadCommit n) s = .next (
      if kernelLayoutOk l = false then finish c n 2 0 []
      else match verifyImage c l (bit (field l 0xE 2) 0) false (field l 0x24 4) with
      | .inl e => finish (if e = 5 ∨ e = 6 ∨ e = 4 then event c 0xB4 440 e else c) n e 0 []
      | .inr g => if c.on (NIB_KERNEL_LOC_VALID k) = true then finish c n 10 0 []
        else match libraryRoom c (kernelOf l g).size with
        | none => finish c n 7 0 []
        | some o => finish (registerKernel c k o l (kernelOf l g)) n 0 0 (leBytes 2 k)) := by
  have hsession : (some x).filter (fun y => y.kernel) = some x := by simp [hkernel]
  show execKernelLoadCommit n s = _
  rw [execKernelLoadCommit, serve_serving s n _ _ _ h hr]
  simp only [kernelCommit, hx, hsession, ← hc, ← hl, ← hk]
  cases hlayout : kernelLayoutOk l with
  | false => rfl
  | true =>
    cases hsigner : verifyImage c l (bit (field l 0xE 2) 0) false (field l 0x24 4) with
    | inl e => rfl
    | inr g =>
      cases hloaded : c.on (NIB_KERNEL_LOC_VALID k) with
      | true => rfl
      | false => cases hroom : libraryRoom c (kernelOf l g).size <;> simp only [hroom] <;> rfl

/-! ### Removal and the list -/

theorem kernelRemove_unknown {k : Nat} (h : Serving s n 0x43) (hr : managementReady s = true) (hk : k = field (payload s n) 0 2)
    (hpos : 0 < k) (hlt : k < 4096) (hvalid : s.on (NIB_KERNEL_LOC_VALID k) = false) :
    exec (.kernelRemove n) s = .next (finish s n 8 0 []) := by
  show execKernelRemove n s = _
  rw [execKernelRemove, serveLong_serving s n _ _ _ h hr, ← hk, if_neg (by omega), if_pos (by simp [hvalid])]
  rfl

/-- A removal sets HOLD and goes on under the queue engine's token (R378). -/
theorem kernelRemove_held {k : Nat} {u : State} (h : Serving s n 0x43) (hr : managementReady s = true)
    (hk : k = field (payload s n) 0 2) (hpos : 0 < k) (hlt : k < 4096) (hvalid : s.on (NIB_KERNEL_LOC_VALID k) = true)
    (hidle : (Tab.at s.queues.kernels k {}).removing = none) (hu : u = s.put (NIB_KERNEL_LOC_HOLD k) 1) :
    exec (.kernelRemove n) s = .next (inProgress { u with queues := { u.queues with
      kernels := Tab.set u.queues.kernels k { Tab.at s.queues.kernels k {} with removing := some n.val } } } n (0x20000 + k)) := by
  subst hu
  show execKernelRemove n s = _
  rw [execKernelRemove, serveLong_serving s n _ _ _ h hr, ← hk, if_neg (by omega), if_neg (by simp [hvalid])]
  simp only [hidle, Option.isSome_none, Bool.false_eq_true, if_false]

theorem kernelList_listed {ks : List (Nat × Kernel)} (h : Serving s n 0x44) (hr : managementReady s = true)
    (hks : ks = (s.queues.kernels.filter fun (k, _) =>
      decide (field (payload s n) 0 2 ≤ k) && s.on (NIB_KERNEL_LOC_VALID k)).take 1279) :
    exec (.kernelList n) s = .next (finish s n 0 0 (leBytes 2 ks.length ++ leBytes 2 0 ++ ks.flatMap fun x => leBytes 2 x.1
      ++ leBytes 2 x.2.flags ++ leBytes 4 x.2.version ++ leBytes 8 0 ++ (List.range 32).map fun i => x.2.name.getD i 0)) := by
  subst hks
  show execKernelList n s = _
  rw [execKernelList, serve_serving s n _ _ _ h hr]

/-! ### Pairs and groups, by mailbox -/

theorem queueCreate_wellFormed {k : Nat} (h : Serving s n 0x48) (hr : managementReady s = true) (hk : k = field (payload s n) 0 2)
    (hpair : k < 16384) (hgroup : field (payload s n) 2 2 < 1024) (hsq : field (payload s n) 6 1 < 16)
    (hcq : field (payload s n) 7 1 < 16) (hflags : field (payload s n) 24 1 < 8) (hzero : field (payload s n) 25 1 = 0)
    (hcore : field (payload s n) 26 2 < 4096) (hzero' : field (payload s n) 28 4 = 0) (hsqBase : field (payload s n) 8 8 % 4096 = 0)
    (hcqBase : field (payload s n) 16 8 % 4096 = 0) (hcfg : pairCfgOk s (createWord (payload s n)) = true)
    (howner : pairOwnerOk (field (payload s n) 4 2) = true) :
    exec (.queueCreate n) s = .next (if (pair s k).enabled = true then finish s n 10 0 [] else finish
      (createPair s k (createWord (payload s n)) (BitVec.ofNat 64 (field (payload s n) 8 8))
        (BitVec.ofNat 64 (field (payload s n) 16 8))) n 0 0 []) := by
  show execQueueCreate n s = _
  rw [execQueueCreate, serve_serving s n _ _ _ h hr]
  simp only [← hk, hpair.not_ge, hgroup.not_ge, hsq.not_ge, hcq.not_ge, hflags.not_ge, hzero, hcore.not_ge, hzero', hsqBase, hcqBase,
    hcfg, howner, decide_false, bne_self_eq_false, Bool.not_true, Bool.or_false, Bool.false_eq_true, if_false]
  split <;> rfl

theorem queueDelete_disabled {k : Nat} (h : Serving s n 0x49) (hr : managementReady s = true) (hk : k = field (payload s n) 0 2)
    (hlt : k < 16384) (hoff : (pair s k).enabled = false) : exec (.queueDelete n) s = .next (finish s n 8 0 []) := by
  show execQueueDelete n s = _
  rw [execQueueDelete, serveLong_serving s n _ _ _ h hr, ← hk, if_neg (by omega), if_pos (by simp [hoff])]
  rfl

theorem queueDelete_enabled {k : Nat} (h : Serving s n 0x49) (hr : managementReady s = true) (hk : k = field (payload s n) 0 2)
    (hlt : k < 16384) (hon : (pair s k).enabled = true) (hidle : (pair s k).deleting = false) :
    exec (.queueDelete n) s = .next (deletePair (inProgress s n (0x10000 + k)) k (some n.val)) := by
  show execQueueDelete n s = _
  rw [execQueueDelete, serveLong_serving s n _ _ _ h hr, ← hk, if_neg (by omega), if_neg (by simp [hon]), if_neg (by simp [hidle])]

theorem groupSet_wellFormed {g : Nat} (h : Serving s n 0x4A) (hr : managementReady s = true) (hg : g = field (payload s n) 0 2)
    (hlt : g < 1024) (hvalid : field (payload s n) 4 1 < 2) (hzero : field (payload s n) 5 3 = 0) :
    exec (.groupSet n) s = .next (finish ((s.put (QUE_GROUP_VALID g) (field (payload s n) 4 1)).put
      (QUE_GROUP_RUN_LIMIT_LINES g) (field (payload s n) 2 2)) n 0 0 []) := by
  show execGroupSet n s = _
  rw [execGroupSet, serve_serving s n _ _ _ h hr, ← hg, if_neg (by omega)]

end

/-- The removal of the one kernel that no item names ends: its entry is invalid and its cores reload it (R378). -/
theorem kernelRemoveComplete_due {s u v : State} {k m : Nat} {q : Kernel} (hk : s.queues.kernels = [(k, q)])
    (hitems : ∀ x ∈ s.queues.items, x.2.kernel ≠ k) (hu : u = s.setWord (NIB_KERNEL_LOC_VALID k).addr 0)
    (hv : v = { u with
      queues := { u.queues with kernels := Tab.del u.queues.kernels k }
      cores := u.cores.map fun (c, x) => (c, if 8 ≤ c ∧ u.get (NIB_CORE_KERNEL (c - 8)) = k then { x with stale := true } else x) })
    (hm : q.removing = some m) :
    exec .kernelRemoveComplete s = .next (if (box v m).token = some (0x20000 + k) then finish v m 0 0 [] else v) := by
  subst hu hv
  have hdue : s.queues.kernels.filter (fun (k, q) => q.removing.isSome && s.queues.items.all fun (_, x) => x.kernel != k)
      = [(k, q)] := by
    rw [hk]
    refine List.filter_cons_of_pos ?_
    simpa [hm] using fun i x hx => hitems (i, x) hx
  show execKernelRemoveComplete s = _
  simp only [execKernelRemoveComplete, hdue, State.each_cons, State.each_nil, hm]
  rfl

/-! ### The pair registers (R396) -/

section
variable {s : State} {k : Nat} {p : Pair} (v : BitVec 64) (hk : k = s.get QUE_SELECT_PAIR) (hp : p = pair s k)
include hk hp

/-- Of an enabled pair only ENABLE can be cleared, which deletes it. -/
theorem quePairCfgWrite_enabled {w : BitVec 64} (hw : w = v &&& 0xFFFFFFC0FFFFFF00#64) (hon : p.enabled = true)
    (hidle : p.deleting = false) : exec (.quePairCfgWrite v) s = .next
      (if w = p.cfg &&& 0x7FFFFFFFFFFFFFFF#64 then deletePair s k none else notice s 430) := by
  subst hk hp hw
  show Host.Outcome.next (writePairCfg s v) = _
  simp only [writePairCfg, hon, hidle, bne_iff_ne, ne_eq, ite_not, Bool.false_eq_true, if_true, if_false]

theorem quePairCfgWrite_disabled {w : BitVec 64} (hw : w = v &&& 0xFFFFFFC0FFFFFF00#64) (hoff : p.enabled = false)
    (hcfg : pairCfgOk s w = true) (howner : pairOwnerOk (bitsOf w.toNat 16 16) = true) : exec (.quePairCfgWrite v) s = .next
      (if w.getLsbD 63 = true then createPair s k w p.sq p.cq else setPair s k { p with cfg := w }) := by
  subst hk hp hw
  show Host.Outcome.next (writePairCfg s v) = _
  simp only [writePairCfg, hoff, hcfg, howner, Bool.not_true, Bool.or_false, Bool.false_eq_true, if_false]

theorem quePairSqWrite_eq : exec (.quePairSqWrite v) s = .next (if p.enabled = true then notice s 430 else
    setPair s k { p with sq := v &&& 0xFFFFFFFFFFFFF000#64 }) := by
  subst hk hp
  rfl

theorem quePairCqWrite_eq : exec (.quePairCqWrite v) s = .next (if p.enabled = true then notice s 430 else
    setPair s k { p with cq := v &&& 0xFFFFFFFFFFFFF000#64 }) := by
  subst hk hp
  rfl

end

/-! ### Parking (R100) -/

theorem nibCoreParkWrite_present {s u : State} {g : Fin 256} (v : BitVec 64) (hg : absentUnit s.variant .NIB_CORE g 0 = false)
    (hu : u = s.putB (NIB_CORE_PARK g) (v.getLsbD 60)) : exec (.nibCoreParkWrite g v) s = .next (
      if v.getLsbD 60 = false ∧ u.get (NIB_CORE_STATE g) = 4 then
        (u.put (NIB_CORE_STATE g) 1).setFlag (NIB_CLUSTER_PARKED (g / 16)) (g % 16) false else u) := by
  subst hu
  show execNibCoreParkWrite g v s = _
  simp only [execNibCoreParkWrite, writeNibCore, hg, Bool.false_eq_true, if_false]
  rw [← ite_not]
  simp only [Bool.or_eq_true, decide_eq_true_eq, ne_eq, not_or, not_not, Bool.not_eq_true]

theorem coreParked_eq (s : State) (g : Fin 256) : exec (.coreParked g) s = .next (
    if s.get (NIB_CORE_STATE g) = 1 ∧ (s.on (NIB_CORE_PARK g) = true ∨ s.get (CHN_REPAIR_STATE_STATE g) = 5 ∧ baseRuns s 1 = true)
    then requeueItems ((s.put (NIB_CORE_STATE g) 4).setFlag (NIB_CLUSTER_PARKED (g / 16)) (g % 16)) (8 + g) else s) := by
  show execCoreParked g s = _
  rw [execCoreParked, ← ite_not]
  simp only [Bool.or_eq_true, Bool.and_eq_true, Bool.not_eq_true', Bool.not_eq_false, decide_eq_true_eq, beq_iff_eq, ne_eq, not_or,
    not_not]

/-- Settles O46, command by command. -/
theorem kernelsPairsAndParkedCores : Obligations.KernelsPairsAndParkedCores := by
  refine ⟨?_, ?_, ?_, ?_⟩
  -- the mailbox commands
  · rintro s n p rfl
    refine ⟨fun h hr hzero hlen hp hroom x hx => kernelLoadBegin_opened h hr hzero hlen hp hroom hx,
      fun x h hr hx hk hp hzero hfits => kernelLoadChunk_stored h hr hx hk hp hzero hfits,
      fun x l c k h hr hx hkernel hc hl hk => kernelLoadCommit_judged h hr hx hkernel hc hl hk,
      fun k h hr hk hpos hlt => ⟨kernelRemove_unknown h hr hk hpos hlt,
        fun hvalid hidle u hu => kernelRemove_held h hr hk hpos hlt hvalid hidle hu⟩,
      fun ks h hr hks => kernelList_listed h hr hks,
      fun k => queueCreate_wellFormed,
      fun k h hr hk hlt => ⟨queueDelete_disabled h hr hk hlt, queueDelete_enabled h hr hk hlt⟩,
      fun g => groupSet_wellFormed⟩
  -- KERNEL_REMOVE_COMPLETE
  · exact fun s u k q hk _ hitems hu v hv m hm => kernelRemoveComplete_due hk hitems hu hv hm
  -- the QUE_PAIR registers
  · exact fun s k p v w hk hp hw => ⟨quePairCfgWrite_enabled v hk hp hw, quePairCfgWrite_disabled v hk hp hw,
      quePairSqWrite_eq v hk hp, quePairCqWrite_eq v hk hp⟩
  -- NIB_CORE_PARK_WRITE and CORE_PARKED
  · exact fun s g v hg => ⟨fun u hu => nibCoreParkWrite_present v hg hu, coreParked_eq s g⟩

end Sys2Proof.Machine
end

section
/-! Rows, refresh and targeted refresh at a channel controller (R109, R112, R118, R120, R123 to R125). -/

namespace Sys2Proof.Machine

theorem modChan_congr {s : State} {g : Nat} {f f' : Chan → Chan} (h : f (chan s g) = f' (chan s g)) :
    modChan s g f = modChan s g f' :=
  congrArg (setChan s g) h

/-! ### A refresh of a bank -/

/-- What a refresh does to its channel: the bank's row closes, the line is noted, the bank's row pointer and the sketches go on; a full
pass changes only where the pointer and the sketches go (R118, R122). -/
theorem chan_refreshBank (s : State) (g b : Nat) : ∃ p cur prev, chan (refreshBank s g b) g = { chan s g with
    openRow := Tab.del (chan s g).openRow b, hits := Tab.del (chan s g).hits b
    refreshed := Tab.set (chan s g).refreshed b s.ruling.gen, rowPtr := Tab.set (chan s g).rowPtr b p
    sketch := cur, sketchPrev := prev } := by
  rw [refreshBank, chan_modChan]
  by_cases hwrap : 1608 ≤ Tab.at (chan s g).rowPtr b 0 + 8
  · exact ⟨0, _, _, if_pos hwrap⟩
  · exact ⟨_, _, _, if_neg hwrap⟩

@[simp] theorem refreshBank_ruling (s : State) (g b : Nat) : (refreshBank s g b).ruling = s.ruling := rfl

theorem openRow_refreshBank (s : State) (g b : Nat) : (chan (refreshBank s g b) g).openRow = Tab.del (chan s g).openRow b := by
  obtain ⟨p, cur, prev, h⟩ := chan_refreshBank s g b
  rw [h]

theorem find_refreshed_refreshBank (s : State) (g b : Nat) :
    Tab.find (chan (refreshBank s g b) g).refreshed b = some s.ruling.gen := by
  obtain ⟨p, cur, prev, h⟩ := chan_refreshBank s g b
  rw [h, Tab.find_set_self]

theorem rowPtr_refreshBank_ne (s : State) (g : Nat) {b b' : Nat} (hne : b' ≠ b) :
    Tab.at (chan (refreshBank s g b) g).rowPtr b' 0 = Tab.at (chan s g).rowPtr b' 0 := by
  obtain ⟨p, cur, prev, h⟩ := chan_refreshBank s g b
  rw [h, Tab.at_set_ne _ _ _ hne]

theorem backstopLines_refreshBank (s : State) (g b : Nat) :
    (chan (refreshBank s g b) g).backstopLines = (chan s g).backstopLines := by
  obtain ⟨p, cur, prev, h⟩ := chan_refreshBank s g b
  rw [h]

/-! ### Ruled refreshes -/

/-- A bank due in the current line still needs its refresh unless it has had one in that line (R118). -/
theorem refreshLeft_due {s : State} {g b : Nat} (hok : refreshable s g b = true) (hdue : refreshDue s g b = true) :
    refreshLeft s g b = true ↔ Tab.find (chan s g).refreshed b ≠ some s.ruling.gen := by
  rw [refreshLeft, hok, hdue, Bool.true_and, Bool.and_true, bne_iff_ne]

theorem refreshBelow_of_none_left {s : State} {g b : Nat} (h : ∀ a : Nat, a < b → refreshLeft s g a = false) :
    refreshBelow s g b = s :=
  each_eq_self fun a ha => by rw [h a (List.mem_range.1 ha)]; rfl

section
variable {s u : State} {g : Fin 256} {b : Fin 272}

theorem refreshDue_due (hok : refreshable s g b = true) (hdue : refreshDue s g b = true)
    (hbelow : ∀ a : Nat, a < b.val → refreshLeft s g a = false) : exec (.refreshDue g b) s = .next (
      if Tab.find (chan s g).refreshed b = some s.ruling.gen then s else refreshBank s g b) := by
  show execRefreshDue g b s = _
  simp only [execRefreshDue, refreshBelow_of_none_left hbelow, refreshLeft_due hok hdue, ne_eq, ite_not]

/-! ### Backstop refreshes -/

/-- The channel's first backstop refresh of a line adds that line to the folio's count (R120, Table 4-5). -/
theorem backstopExpiry_first (hok : refreshable s g b = true) (hfirst : (chan s g).backstopGen ≠ s.ruling.gen + 1)
    (hu : u = eventOnce ((((modChan (refreshBank s g b) g fun c => { c with
      backstopGen := s.ruling.gen + 1, backstopLines := (chan s g).backstopLines + 1 }).inc (CHN_REFRESH_BACKSTOP_COUNT g)).put
        (CHN_REFRESH_BACKSTOP_SEEN g) 1).put (CHN_REFRESH_LAST_BACKSTOP_RANK g) (b / 16)) 0x44 g g (b / 16)) :
    exec (.backstopExpiry g b) s = .next (if (chan u g).backstopLines = 1024 then event u 0x45 g else u) := by
  have hagain : ((chan s g).backstopGen == s.ruling.gen + 1) = false := beq_false_of_ne hfirst
  have hlines : (modChan (refreshBank s g b) g fun c => { c with
      backstopGen := s.ruling.gen + 1, backstopLines := (chan s g).backstopLines + 1 }) =
      modChan (refreshBank s g b) g fun c => { c with backstopGen := s.ruling.gen + 1, backstopLines := c.backstopLines + 1 } :=
    modChan_congr (by rw [backstopLines_refreshBank])
  subst hu
  rw [hlines]
  show execBackstopExpiry g b s = _
  simp only [execBackstopExpiry, hok, hagain, refreshBank_ruling, Bool.not_true, Bool.not_false, Bool.false_eq_true, and_true, if_false]

end

/-! ### Row closing and targeted refresh -/

theorem rowIdleClose_eq (s : State) (g : Fin 256) (b : Fin 272) : exec (.rowIdleClose g b) s = .next (
    if (readCands s g ++ writeCands s g).any (fun x => x.bank == b.val) = true then s
    else modChan s g fun c => { c with openRow := Tab.del c.openRow b, hits := Tab.del c.hits b }) := rfl

/-- The first targeted refresh of a line is within the budget of R125. -/
theorem targetedRefresh_first {s u : State} {g : Fin 256} {b r : Nat} {rest : List (Nat × Nat)}
    (hnext : nextTargeted (chan s g) = some (b, r)) (hu : u = refreshBelow s g b)
    (hrest : rest = (chan u g).targeted.filter (· != (b, r))) (hfirst : (chan u g).targetedGen ≠ u.ruling.gen + 1) :
    exec (.targetedRefresh g) s = .next (((setChan u g (recordMitigation { chan u g with
      targeted := rest, targetedGen := u.ruling.gen + 1, openRow := Tab.del (chan u g).openRow b
      hits := Tab.del (chan u g).hits b, stopped := (chan u g).stopped && decide (8 ≤ rest.length) } b r)).inc
        (CHN_HAMMER_ISSUED g)).put (CHN_HAMMER_PENDING g) rest.length) := by
  subst hu hrest
  show execTargetedRefresh g s = _
  simp only [execTargetedRefresh, hnext, beq_false_of_ne hfirst, Bool.false_eq_true, if_false]

/-- Settles O13, command by command. -/
theorem channelClosesAndRefreshesRows : Obligations.ChannelClosesAndRefreshesRows := by
  refine ⟨rowIdleClose_eq, ?_, ?_, ?_, ?_⟩
  -- REFRESH_DUE
  · exact fun s g b hok hdue hbelow => refreshDue_due hok hdue hbelow
  -- BACKSTOP_EXPIRY
  · exact fun s u g b hok hfirst hu => backstopExpiry_first hok hfirst hu
  -- TARGETED_REFRESH
  · exact fun s u g b r rest hnext hu hrest hfirst => targetedRefresh_first hnext hu hrest hfirst
  -- a refresh of a bank
  · exact fun s g b => ⟨openRow_refreshBank s g b, find_refreshed_refreshBank s g b, fun b' hne => rowPtr_refreshBank_ne s g hne⟩

end Sys2Proof.Machine
end

section
/-! The Ductus's own commands: map blocks, the heat sweep, the decision epoch, recalls and spread sets (R145, R149, R150, R152, R155,
R156, R166, R180). -/

namespace Sys2Proof.Machine

/-! ### Map blocks -/

theorem readMap_of_place {s : State} {b : Nat} {l : Loc} {i : Nat} (run : ReadRun) (h : mapPlace s b = some (l, i)) :
    readMap s b run =
      (if readOk s l.chan run then readSeen s l i run (some (internalMaster 8)) none
        else event (readSeen s l i run (some (internalMaster 8)) none) 0x52 429 b, readOk s l.chan run) := by
  simp only [readMap, h]
  rfl

theorem mapCacheMissFill_eq {s t u : State} {b : Nat} {w : Work} {rest : List (Nat × Work)} {run : ReadRun} {ok : Bool}
    (hwait : s.ductus.missWait = (b, w) :: rest)
    (hu : u = { s with ductus := { s.ductus with missWait := s.ductus.missWait.filter fun x => x.1 != b } })
    (hread : readMap u b run = (t, ok)) :
    exec (.mapCacheMissFill run) s = .next (
      if ok then ((s.ductus.missWait.filter fun x => x.1 == b).map (·.2)).foldl
        (fun t w => proceed (heatSample t w.origin (leafOf w.dpa) (match w with | .write _ => true | .read _ => false)) w) (installBlock t b)
      else ((s.ductus.missWait.filter fun x => x.1 == b).map (·.2)).foldl
        (fun t w => match w with | .read a => endRead t a .poison | .write w => endWrite t w .failed) t) := by
  subst hu
  show execMapCacheMissFill run s = _
  unfold execMapCacheMissFill
  rw [hwait] at hread ⊢
  simp only [hread]
  cases ok <;> rfl

theorem decisionEpoch_at_folio {s u : State} (h : s.ruling.line % 1024 = 0) (hu : u = takeEffect (takeLoad (freezeHeat s))) :
    exec .decisionEpoch s = .next (if baseRuns u 1 then
      lendCold (heatMoves (thermalRelief (restoreStripes u) s.ductus.hot) s.ductus.hot) s.ductus.cold else u) := by
  subst hu
  show execDecisionEpoch s = _
  have hline : s.lineInFolio = 0 := h
  simp only [execDecisionEpoch, hline]
  cases baseRuns (takeEffect (takeLoad (freezeHeat s))) 1 <;> rfl

theorem decisionEpoch_in_folio {s : State} (h : s.ruling.line % 1024 ≠ 0) : exec .decisionEpoch s = .next s := by
  show Host.Outcome.next (if s.ruling.line % 1024 ≠ 0 then s else _) = _
  rw [if_pos h]

theorem recall_eq {s : State} {p : Fin 64} (q : BitVec 12) (l : List (BitVec 28)) {mine : List Nat}
    (hrole : s.get (PRT_PORT_CTRL_ROLE p) = 1) (hfatal : s.fatal = false)
    (hmine : mine = ((l.map BitVec.toNat).filter fun x => s.ductus.map.any fun k =>
      k.2.remote && k.2.port == p.val && k.2.pbr == q.toNat && k.2.slot == x)) :
    exec (.recall p q l) s = .next (if mine.isEmpty then s else pumpRecalls { s with ductus := { s.ductus with
      recalls := s.ductus.recalls ++ [{ port := p, pbr := q.toNat, slots := mine, folio := s.folio }] } }) := by
  subst hmine
  show execRecall p q l s = _
  simp only [execRecall, hrole, hfatal, ne_eq, not_true_eq_false, false_or, Bool.false_eq_true]

theorem recallTimeout_eq (s : State) : exec .recallTimeout s = .next (
    (s.ductus.recalls.filter fun r => !r.late && decide (r.folio + 256 ≤ s.folio)).foldl (fun t r => event t 0x54 429 r.port)
    { s with ductus := { s.ductus with
        recalls := s.ductus.recalls.map fun r =>
          if !r.late && decide (r.folio + 256 ≤ s.folio) then { r with late := true } else r } }) := rfl

theorem heatSweep_at_ceiling {s : State} (run : ReadRun) (h : overCeiling s 4095 = true) :
    exec (.heatSweep run) s = .next s := by
  show Host.Outcome.next (if overCeiling s 4095 = true then s else _) = _
  rw [if_pos h]

theorem heatSweep_below_ceiling {s t u : State} {run : ReadRun} {ok : Bool} (h : overCeiling s 4095 = false)
    (hu : u = { s with ductus := { s.ductus with sweep := (s.ductus.sweep + 1) % (s.variant.leaves / 8) } })
    (hread : (if mapHit u (8 * s.ductus.sweep) then (u, true) else readMap u s.ductus.sweep run) = (t, ok)) :
    exec (.heatSweep run) s = .next (
      if ok then chargeNow ((t.ductus.map.filter fun x => x.1 / 8 == s.ductus.sweep).foldl (fun t x => sweepEntry t x.1 x.2) t) 4095 128
      else t) := by
  subst hu
  show execHeatSweep run s = _
  simp only [execHeatSweep, h, hread, Bool.false_eq_true, if_false]
  cases ok <;> rfl

theorem leafEntry_sweepEntry (s : State) (k : Nat) (e : Leaf) :
    leafEntry (sweepEntry s k e) k = some { e with heat := e.heat / 2, lastSampler := 0xFF } :=
  Tab.find_set_self _ k _

/-! ### Spread sets -/

theorem absentUnit_spreadSet {v : Variant} (h : v ≠ .v2096) (i j : Nat) : absentUnit v .DCT_SPREAD_SET i j = false := by
  cases v with
  | v2096 => exact absurd rfl h
  | _ => rfl

/-- A write of a spread-set word in terms of the named channels that are not Normal (R155). -/
theorem dctSpreadSetWrite_eq {s : State} {n : Fin 512} {w : Fin 4} {v : BitVec 64} {bad : List Nat} (hv : s.variant ≠ .v2096)
    (hbad : ((List.range 64).filter fun b => v.getLsbD b && !normalChan s (64 * w + b)) = bad) {t : State}
    (ht : t = s.setWord (DCT_SPREAD_SET_ALL n w).addr (BitVec.ofNat 64 (bad.foldl (fun x b => clearBit x b) v.toNat))) :
    exec (.dctSpreadSetWrite n w v) s = .next (if bad.isEmpty then t else notice t 429) := by
  subst ht
  show execDctSpreadSetWrite n w v s = _
  simp only [execDctSpreadSetWrite, writeSpread, absentUnit_spreadSet hv, hbad, Bool.false_eq_true, if_false]

theorem dctSpreadSetWrite_normal {s : State} (n : Fin 512) {w : Fin 4} {v : BitVec 64} (hv : s.variant ≠ .v2096)
    (h : ∀ b : Nat, b < 64 → v.getLsbD b = true → normalChan s (64 * w + b) = true) :
    exec (.dctSpreadSetWrite n w v) s = .next (s.setWord (DCT_SPREAD_SET_ALL n w).addr v) := by
  have hbad : ((List.range 64).filter fun b => v.getLsbD b && !normalChan s (64 * w + b)) = [] := by
    rw [List.filter_eq_nil_iff]
    intro b hb
    cases hbit : v.getLsbD b
    · simp
    · simp [h b (List.mem_range.1 hb) hbit]
  simpa using dctSpreadSetWrite_eq hv hbad rfl

theorem filter_range_beq {n b : Nat} (h : b < n) : (List.range n).filter (· == b) = [b] := by
  rw [List.filter_beq, List.count_eq_one_of_mem List.nodup_range (List.mem_range.2 h)]
  rfl

theorem clearBit_two_pow (b : Nat) : clearBit (2 ^ b) b = 0 := by
  simp [clearBit, bit, Nat.div_self (Nat.two_pow_pos b)]

theorem dctSpreadSetWrite_one_bad {s : State} (n : Fin 512) {w : Fin 4} {b : Nat} (hv : s.variant ≠ .v2096) (hb : b < 64)
    (h : normalChan s (64 * w + b) = false) :
    exec (.dctSpreadSetWrite n w (1#64 <<< b)) s = .next (notice (s.setWord (DCT_SPREAD_SET_ALL n w).addr 0) 429) := by
  have hbad : ((List.range 64).filter fun i => (1#64 <<< b).getLsbD i && !normalChan s (64 * w + i)) = [b] := by
    rw [← filter_range_beq hb]
    refine List.filter_congr fun i _ => ?_
    rw [← BitVec.twoPow_eq, BitVec.getLsbD_twoPow]
    by_cases hib : i = b
    · simp [hib, hb, h]
    · simp [hib, Ne.symm hib]
  have hcleared : [b].foldl (fun x i => clearBit x i) (1#64 <<< b).toNat = 0 := by
    rw [← BitVec.twoPow_eq, BitVec.toNat_twoPow_of_lt hb]
    exact clearBit_two_pow b
  rw [dctSpreadSetWrite_eq hv hbad rfl, hcleared]
  rfl

/-- Settles O16, command by command. -/
theorem ductusSweepsDecidesAndRecalls : Obligations.DuctusSweepsDecidesAndRecalls := by
  refine ⟨?_, ?_, ?_, fun _ run h => heatSweep_at_ceiling run h, leafEntry_sweepEntry, fun _ h => decisionEpoch_in_folio h, ?_, ?_,
    recallTimeout_eq, ?_⟩
  -- MAP_CACHE_MISS_FILL
  · exact fun s t u b w rest run ok hwait hu hread => mapCacheMissFill_eq hwait hu hread
  -- a read of a map block
  · intro s u b l i run h hu
    subst hu
    exact readMap_of_place run h
  -- HEAT_SWEEP
  · exact fun s t u run ok h hu hread => heatSweep_below_ceiling h hu hread
  -- DECISION_EPOCH
  · intro s u h hu
    have hepoch := decisionEpoch_at_folio h hu
    exact ⟨fun hb => by simpa [hb] using hepoch, fun hb => by simpa [hb] using hepoch⟩
  -- RECALL
  · exact fun s p q l mine hrole hfatal hmine => recall_eq q l hrole hfatal hmine
  -- DCT_SPREAD_SET_WRITE
  · intro s n w v hv
    refine ⟨dctSpreadSetWrite_normal n hv, ?_⟩
    rintro b hb rfl h
    exact dctSpreadSetWrite_one_bad n hv hb h

end Sys2Proof.Machine
end

section
/-! An account's adjust (R185): a second one builds on the images of the first, which waits for the account's next window. -/

namespace Sys2Proof.Machine

/-- A primitive of a ready Scribe whose rubric holds the grant writes its one register. -/
theorem primitive_granted {s : State} {r : CoreRun} {len grant : Nat} (reads : List Nat) (d : Fin 32)
    (g : State → CoreState → State × BitVec 64) (hk : r.core.val < 8) (h : Ready s r len) (hg : writeGranted s r.core grant = true) :
    primitive s r len grant reads d g =
      advance (g s (core s r.core)).1 r.core len fun z => z.setW d (g s (core s r.core)).2 := by
  rw [primitive, issue_ready s r _ _ h (fun _ => hk) (by simp), hg]
  rfl

/-- What an adjust of the ceiling proposes: the images that the account has from its next window on, with that ceiling. -/
theorem acctAdjust_ceiling {s : State} {r : CoreRun} {c : CoreState} {n : Nat} (d : Fin 32) {a b : Fin 32} {p : State × Nat}
    (hk : r.core.val < 8) (h : Ready s r 2) (hg : writeGranted s r.core 11 = true) (hc : c = core s r.core) (hn : n = (c.w a).toNat)
    (hn4096 : n < 4096) (hb : (c.w b).toNat < 2 ^ (ACC_RATE_CEILING n).width)
    (hp : p = adjust s n (nextImages s n).1
      (putField (nextImages s n).2 (ACC_RATE_CEILING n).lo (ACC_RATE_CEILING n).width (c.w b).toNat)) :
    exec (.acctAdjust r d a b 0) s = .next (advance p.1 r.core 2 fun z => z.setW d (statusWord p.2 0)) := by
  subst hp hn hc
  have hinRange : ¬ (4096 ≤ ((core s r.core).w a).toNat ∨
      2 ^ (ACC_RATE_CEILING ((core s r.core).w a).toNat).width ≤ ((core s r.core).w b).toNat) := by omega
  show execAcctAdjust r d a b 0 s = _
  rw [execAcctAdjust, primitive_granted (grant := grantAcc) _ d _ hk h hg]
  simp only [hinRange, if_false, if_true]

@[simp] theorem advance_accounts (s : State) (k len : Nat) (f : CoreState → CoreState) : (advance s k len f).accounts = s.accounts := rfl

/-- A Scribe 7 whose rubric holds the accounts' write grant, and a LOOSE account 0 whose new standing waits for its next window. -/
def standingWaits : State :=
  { (State.reset.put (MBX_SCRIBE_HANDLE 7) 5).setWord (ACC_CFG_CLASS 0).addr 0xD000000000000000#64 with
    rubrics := [(5, { writeGrant := 0x0800 })]
    cores := [(7, { running := true, code := 2 })]
    accounts := { State.reset.accounts with acct := [(0, { adjust := some (0xD000800000000000#64, 0) })] } }

theorem standingWaits_ready : Ready standingWaits { core := 7 } 2 ∧ writeGranted standingWaits 7 11 = true := by decide +kernel

/-- The state after an adjust of account 0's ceiling, to the value of the core's w0, over the images `x`. -/
def ceilingAdjusted (x : BitVec 64 × BitVec 64) : State :=
  (adjust standingWaits 0 x.1 (putField x.2 (ACC_RATE_CEILING 0).lo (ACC_RATE_CEILING 0).width
    ((core standingWaits 7).w (0 : Fin 32)).toNat)).1

/-- Over the account's next images the waiting standing stays; over its registers it is lost. -/
theorem adjust_ceilingAdjusted :
    (acct (ceilingAdjusted (nextImages standingWaits 0)) 0).adjust = some (0xD000800000000000#64, 0) ∧
    (acct (ceilingAdjusted (standingWaits.word (ACC_CFG_CLASS 0).addr, standingWaits.word (ACC_RATE_CEILING 0).addr)) 0).adjust =
      some (0xD000000000000000#64, 0) := by decide +kernel

/-- Refutes O41: while an adjust of the standing waits for the account's next window, an adjust of the ceiling proposes the waiting standing,
not the one that ACC_CFG still shows. -/
theorem not_placementAccountAndCoherencePrimitives : ¬ Obligations.PlacementAccountAndCoherencePrimitives := by
  intro h
  obtain ⟨-, -, -, -, -, haccounts, -⟩ := h standingWaits { core := 7 } (core standingWaits 7) 1 1 0 0 {} rfl rfl
  obtain ⟨hready, hgrant⟩ := standingWaits_ready
  have hn : 0 = ((core standingWaits 7).w (0 : Fin 32)).toNat := by decide +kernel
  have hb : ((core standingWaits 7).w (0 : Fin 32)).toNat < 2 ^ (ACC_RATE_CEILING 0).width := by
    rw [← hn]
    decide
  have hclaimed := (haccounts (by decide) hready hgrant rfl).2 0 _ _ _ hn (by decide) rfl rfl rfl hb
  have hactual := acctAdjust_ceiling (r := { core := 7 }) (n := 0) 1 (by decide) hready hgrant rfl hn (by decide) hb rfl
  have hafter := congrArg State.accounts (Host.Outcome.next.inj (hactual.symm.trans hclaimed))
  rw [advance_accounts, advance_accounts] at hafter
  have hsame : (ceilingAdjusted (nextImages standingWaits 0)).accounts =
      (ceilingAdjusted (standingWaits.word (ACC_CFG_CLASS 0).addr, standingWaits.word (ACC_RATE_CEILING 0).addr)).accounts := hafter
  obtain ⟨hkept, hlost⟩ := adjust_ceilingAdjusted
  simp only [acct, hsame] at hkept hlost
  exact absurd (hkept.symm.trans hlost) (by decide)

end Sys2Proof.Machine
end

section
/-! The mailbox commands of the loader and the management rubric (R163, R183, R228, R346, R351, R356, R357, R359, R511). -/

namespace Sys2Proof.Machine

section
variable {s : State} {n : Fin 4096} {p : List (BitVec 8)}

/-! ### The loader -/

/-- A commit of an open session ends it, and an image that the loader accepts becomes a rubric (R356, R357). -/
theorem rubricLoadCommit_judged {x : LoadSession} {c : State} {h : Nat} {u : Rubric → State} (hs : Serving s n 0x13)
    (hr : loaderReady s = true) (hp : p = payload s n) (hx : Tab.find s.scribes.sessions (field p 0 2) = some x)
    (hkernel : x.kernel = false) (hc : c = closeSession s (field p 0 2)) (hh : h = nextHandle c)
    (hu : ∀ r, u r = { setRubric c h { r with handle := h } with scribes := { c.scribes with
      nextHandle := if h = 0xFFFF then 0x100 else h + 1 } }) :
    exec (.rubricLoadCommit n) s = .next (match judgeRubric c (bytesAt x.bytes 0 x.length) with
      | .inl e => finish (if e = 5 ∨ e = 6 ∨ e = 4 then event c 0xB4 440 e else c) n e 0 []
      | .inr (r, k) =>
        if r.role = 0 then finish (startRubric (u r) k h) n 0 0 (leBytes 2 h ++ leBytes 1 k ++ leBytes 1 0 ++ leBytes 4 (c.folio % 2 ^ 32))
        else finish (syncLoader { u r with scribes := { (u r).scribes with handover := (u r).scribes.handover ++ [(h, k)] } }) n 0 0
          (leBytes 2 h ++ leBytes 1 k ++ leBytes 1 0 ++ leBytes 4 ((c.folio + 1) % 2 ^ 32))) := by
  have hsession : (some x).filter (fun y => !y.kernel) = some x := by simp [hkernel]
  show execRubricLoadCommit n s = _
  rw [execRubricLoadCommit, serve_serving s n _ _ _ hs hr, ← hp]
  simp only [loadCommit, hx, hsession, ← hc]
  cases hjudged : judgeRubric c (bytesAt x.bytes 0 x.length) with
  | inl e => rfl
  | inr y =>
    obtain ⟨r, k⟩ := y
    simp only [hu, ← hh]
    by_cases hrole : r.role = 0 <;> simp only [hrole, if_true, if_false] <;> rfl

theorem rubricList_listed {ks : List Nat} (hs : Serving s n 0x10) (hr : loaderReady s = true)
    (hks : ks = (List.range 8).filter (fun k => s.get (MBX_SCRIBE_HANDLE k) != 0)) :
    exec (.rubricList n) s = .next (finish s n 0 0 (leBytes 2 ks.length ++ leBytes 2 0 ++ ks.flatMap fun k =>
      leBytes 2 (s.get (MBX_SCRIBE_HANDLE k)) ++ leBytes 2 ((rubricAt s k).getD {}).role ++ leBytes 1 k
        ++ leBytes 1 (s.get (MBX_SCRIBE_STATE k)) ++ leBytes 1 (s.get (MBX_SCRIBE_RESTARTS k)) ++ leBytes 1 0
        ++ leBytes 4 ((rubricAt s k).getD {}).version ++ leBytes 4 0
        ++ (List.range 32).map fun i => ((rubricAt s k).getD {}).name.getD i 0)) := by
  subst hks
  show execRubricList n s = _
  rw [execRubricList, serve_serving s n _ _ _ hs hr]

/-- The base rubric of a role takes the Scribe of its role's rubric, or a free one (R359). -/
theorem rubricRestoreBase_known {r : Rubric} (hs : Serving s n 0x15) (hr : loaderReady s = true) (hp : p = payload s n)
    (hrole : field p 0 2 ≠ 0) (hbase : Tab.find s.scribes.firmware (field p 0 2) = some r) :
    exec (.rubricRestoreBase n) s = .next (match roleScribe s (field p 0 2), freeScribe s with
      | some k, _ => finish (loadBase (dropRubric s (s.get (MBX_SCRIBE_HANDLE k))) (field p 0 2) k) n 0 0 (leBytes 2 r.handle)
      | none, some k => finish (loadBase s (field p 0 2) k) n 0 0 (leBytes 2 r.handle)
      | none, none => finish s n 7 0 []) := by
  show execRubricRestoreBase n s = _
  rw [execRubricRestoreBase, serve_serving s n _ _ _ hs hr, ← hp]
  simp only [hrole, hbase, if_false]
  cases roleScribe s (field p 0 2) with
  | some k => rfl
  | none => cases freeScribe s <;> rfl

/-! ### The management rubric -/

/-- The records of the log that concern the asking device are given from a sequence number on, when none is bad (R511). -/
theorem getEventRecords_given {rs : List Record} (hs : Serving s n 0x50) (hr : managementReady s = true) (hp : p = payload s n)
    (hlen : 8 ≤ p.length) (hzero : field p 6 2 = 0) (hgood : s.blotter.badRecords = [])
    (hrs : rs = (s.blotter.log.filter fun r => decide (field p 0 4 ≤ r.seq)
      && concerns s r (boxPort n) (boxLd n)).take (min (field p 4 2) 956)) :
    exec (.getEventRecords n) s = .next (finish s n 0 0 (leBytes 2 rs.length ++ leBytes 2 0 ++ rs.flatMap (recordBytes s))) := by
  have hnone : ∀ l : List Record, (l.filter fun r => s.blotter.badRecords.contains r.seq) = [] := by simp [hgood]
  show execGetEventRecords n s = _
  rw [execGetEventRecords, serve_serving s n _ _ _ hs hr, ← hp, if_neg (by simp [hzero]; omega)]
  simp only [← hrs, hnone]
  rfl

/-- A well-formed submission writes the answer to the challenge and starts the reseal (R228). -/
theorem resealSubmit_wellFormed {u : State} (hs : Serving s n 0x71) (hr : (managementReady s && baseRuns s 4) = true)
    (hp : p = payload s n) (hlen : 14 ≤ p.length) (hzero : field p 3 1 = 0) (hpos : 0 < field p 0 2) (hkey : field p 0 2 < 1024)
    (hlevel : field p 2 1 ≤ 4) (hnode : field p 4 4 < 2 ^ 27)
    (hu : u = writeResealCmd { s with sealing := { s.sealing with auth := BitVec.ofNat 48 (field p 8 6) } } (resealWord p)) :
    exec (.resealSubmit n) s = .next (if u.get SEL_RESEAL_STATUS_STATUS = 1 ∨ u.get SEL_RESEAL_STATUS_STATUS = 2
      then finish u n 0 0 (leBytes 2 (u.get SEL_RESEAL_STATUS_STATUS))
      else finish u n 11 (u.get SEL_RESEAL_STATUS_STATUS) (leBytes 2 (u.get SEL_RESEAL_STATUS_STATUS))) := by
  have hstarted : writeResealCmd (setSeal s { s.sealing with auth := BitVec.ofNat 48 (field p 8 6) }) (resealWord p) = u := hu.symm
  show execResealSubmit n s = _
  rw [execResealSubmit, serve_serving s n _ _ _ hs hr, ← hp, if_neg (by simp [loadable]; omega)]
  simp only [hstarted, ← Bool.decide_or]
  by_cases hok : u.get SEL_RESEAL_STATUS_STATUS = 1 ∨ u.get SEL_RESEAL_STATUS_STATUS = 2
  · simp only [hok, decide_true, if_true]
    rfl
  · simp only [hok, decide_false, if_false]
    rfl

/-- A well-formed request is admitted under the hot assumption (R183, log entry 30). -/
theorem accountRequest_wellFormed {k : Nat} {x : State × Nat} (hs : Serving s n 0x80) (hr : (managementReady s && baseRuns s 2) = true)
    (hp : p = payload s n) (hk : k = field p 0 2) (hpos : 0 < k) (hle : k ≤ 4096) (hflags : field p 2 1 < 2) (hzero : field p 3 1 = 0)
    (hlen : 4 + 16 * k ≤ p.length) (hx : x = admitAccount s (admitRecords (p.drop 4) k) false) :
    exec (.accountRequest n) s = .next (finish x.1 n (if x.2 = 0 then 0 else 11) x.2
      (leBytes 8 (x.1.word ACC_ADMIT_STATUS_STATUS.addr).toNat)) := by
  subst hx
  show execAccountRequest n s = _
  rw [execAccountRequest, serve_serving s n _ _ _ hs hr, ← hp, ← hk, if_neg (by simp [hzero]; omega)]
  rfl

/-- The unpin form of PIN_RANGE releases the pinned leaves of the range in quires that the asking device holds (R163). -/
theorem pinRange_unpins {ls : List Nat} {x : State × Nat} (hs : Serving s n 0x60) (hr : (managementReady s && baseRuns s 1) = true)
    (hp : p = payload s n) (hlen : 13 ≤ p.length) (hunpin : field p 12 1 = 0) (hzero : field p 13 3 = 0)
    (hls : ls = (s.ductus.map.filter fun (k, e) =>
      decide (leafOf (field p 0 8 % 2 ^ 42) ≤ k) && decide (k < leafOf (field p 0 8 % 2 ^ 42) + field p 8 4)
        && (quireHolders s (k / 512)).contains (16 * boxPort n + boxLd n) && !e.remote && e.pinned).map (·.1))
    (hx : x = ls.foldl (fun (x : State × Nat) k => ((pinLeaf x.1 k false).1, x.2 + b2n ((pinLeaf x.1 k false).2 == stOk))) (s, 0)) :
    exec (.pinRange n) s = .next (finish x.1 n 0 0 (leBytes 4 x.2)) := by
  have hpin : (field p 12 1 == 1) = false := by simp [hunpin]
  subst hx hls
  show execPinRange n s = _
  rw [execPinRange, serve_serving s n _ _ _ hs hr, ← hp, if_neg (by simp [hzero, hunpin]; omega)]
  simp only [hpin, Bool.bne_false, Bool.false_eq_true, if_false]

end

/-- Settles O44, command by command. -/
theorem loaderAndManagementRubricServeTheirCommands : Obligations.LoaderAndManagementRubricServeTheirCommands := by
  refine fun s n p hp => ⟨?_, ?_, ?_, ?_, ?_, ?_, ?_⟩
  -- RUBRIC_LOAD_COMMIT
  · exact fun x c h u hs hr hx hkernel hc hh hu => rubricLoadCommit_judged hs hr hp hx hkernel hc hh hu
  -- RUBRIC_LIST
  · exact fun ks hs hr hks => rubricList_listed hs hr hks
  -- RUBRIC_RESTORE_BASE
  · rintro role k r hs hr rfl hrole hbase
    have hrestored := rubricRestoreBase_known hs hr hp hrole hbase
    exact ⟨fun hheld => by rw [hrestored, hheld], fun hnone hfree => by rw [hrestored, hnone, hfree]⟩
  -- GET_EVENT_RECORDS
  · exact fun rs hs hr hlen hzero hgood hrs => getEventRecords_given hs hr hp hlen hzero hgood hrs
  -- RESEAL_SUBMIT
  · exact fun u hs hr hlen hzero hpos hkey hlevel hnode hu => resealSubmit_wellFormed hs hr hp hlen hzero hpos hkey hlevel hnode hu
  -- ACCOUNT_REQUEST
  · exact fun k x hs hr hk hpos hle hflags hzero hlen hx => accountRequest_wellFormed hs hr hp hk hpos hle hflags hzero hlen hx
  -- PIN_RANGE
  · exact fun ls x hs hr hlen hunpin hzero hls hx => pinRange_unpins hs hr hp hlen hunpin hzero hls hx

end Sys2Proof.Machine
end

section
/-! Work items: doorbells, fetches, placing, running and ending (R168 to R172, R380 to R390). -/

namespace Sys2Proof.Machine

/-! ### Doorbells -/

section
variable {s u : State} {p : Fin 64} {k : Fin 4} {d : Fin 16} {i : Fin 16384} {v : BitVec 32} {n : Nat} {q : Pair}

/-- A doorbell of a logical device that its host reaches, by whether it names a pair and what the pair admits (R380). -/
theorem ring_reached {off : Nat} {size : Pair → Nat} {f : Pair → Nat → Pair} (hlink : linkUp s p k = true)
    (hrole : s.get (PRT_PORT_CTRL_ROLE p) = 0) (hld : ldOn s p k d = true) (hfatal : s.fatal = false) (hu : u = linkActivity s) :
    ring s p k d i off v size f = match (pairsOf u p k d)[i.val]? with
      | none => barRefused u p k d true (64 * i + off)
      | some n => if (pair u n).enabled = false then notice u 430
        else if size (pair u n) ≤ v.toNat then pairError (notice u 430) n
        else setPair u n (f (pair u n) v.toNat) := by
  rw [ring, if_neg (by simp [hlink, hrole, hld, hfatal])]
  simp only [← hu, doorbellPair]
  cases (pairsOf u p k d)[i.val]? with
  | none => rfl
  | some n => cases hen : (pair u n).enabled <;> simp only [hen] <;> rfl

theorem sqDoorbell_reached (hlink : linkUp s p k = true) (hrole : s.get (PRT_PORT_CTRL_ROLE p) = 0) (hld : ldOn s p k d = true)
    (hfatal : s.fatal = false) (hu : u = linkActivity s) (hn : (pairsOf u p k d)[i.val]? = some n) (hq : q = pair u n) :
    exec (.sqDoorbell p k d i v) s = .next (if q.enabled = false then notice u 430
      else if q.sqSize ≤ v.toNat then pairError (notice u 430) n else setPair u n { q with sqTail := v.toNat }) := by
  subst hq
  show execSqDoorbell p k d i v s = _
  rw [execSqDoorbell, ring_reached hlink hrole hld hfatal hu, hn]

theorem cqDoorbell_reached (hlink : linkUp s p k = true) (hrole : s.get (PRT_PORT_CTRL_ROLE p) = 0) (hld : ldOn s p k d = true)
    (hfatal : s.fatal = false) (hu : u = linkActivity s) (hn : (pairsOf u p k d)[i.val]? = some n) (hq : q = pair u n) :
    exec (.cqDoorbell p k d i v) s = .next (if q.enabled = false then notice u 430
      else if q.cqSize ≤ v.toNat then pairError (notice u 430) n
      else setPair u n { q with cqHead := v.toNat, used := q.used - (v.toNat + q.cqSize - q.cqHead) % q.cqSize }) := by
  subst hq
  show execCqDoorbell p k d i v s = _
  rw [execCqDoorbell, ring_reached hlink hrole hld hfatal hu, hn]

/-- A doorbell beyond the device's pairs is refused as an access to the BAR. -/
theorem doorbells_unpaired (hlink : linkUp s p k = true) (hrole : s.get (PRT_PORT_CTRL_ROLE p) = 0) (hld : ldOn s p k d = true)
    (hfatal : s.fatal = false) (hu : u = linkActivity s) (hn : (pairsOf u p k d)[i.val]? = none) :
    exec (.sqDoorbell p k d i v) s = .next (barRefused u p k d true (64 * i)) ∧
    exec (.cqDoorbell p k d i v) s = .next (barRefused u p k d true (64 * i + 4)) := by
  show execSqDoorbell p k d i v s = _ ∧ execCqDoorbell p k d i v s = _
  rw [execSqDoorbell, execCqDoorbell, ring_reached hlink hrole hld hfatal hu, ring_reached hlink hrole hld hfatal hu, hn]
  exact ⟨rfl, rfl⟩

end

/-! ### Fetching -/

/-- No entry of a pair is fetched now: the node or the pair is out of service, its SQ is empty or its CQ full, or the group's account
stands at its ceiling (R180, R381, R382). -/
def fetchHeld (s : State) (n : Nat) (p : Pair) : Bool :=
  s.fatal || !p.enabled || p.error || p.deleting || p.sqHead == p.sqTail || decide (p.cqSize ≤ p.inFlight + p.used)
    || (!p.cfg.getLsbD 62 && overCeiling s (originAccount s (.queue n)))

theorem fetchHeld_eq_false {s : State} {n : Nat} {p : Pair} (hfatal : s.fatal = false) (hen : p.enabled = true) (herr : p.error = false)
    (hdel : p.deleting = false) (hentry : p.sqHead ≠ p.sqTail) (hroom : p.inFlight + p.used < p.cqSize)
    (hceiling : p.cfg.getLsbD 62 = true ∨ overCeiling s (originAccount s (.queue n)) = false) : fetchHeld s n p = false := by
  rcases hceiling with h | h <;> simp [fetchHeld, hfatal, hen, herr, hdel, hentry, hroom, h]

section
variable {s u : State} {n : Fin 16384} {b : BitVec 512} {ok : Bool} {run : ReadRun} {p : Pair}

theorem itemFetch_unreadable (hp : p = pair s n) (hheld : fetchHeld s n p = false) (hfetch : fetchEntry s n b ok run = (u, none)) :
    exec (.itemFetch n b ⟨ok, run⟩) s = .next (pairError u n) := by
  rw [fetchHeld] at hheld
  show execItemFetch n b ⟨ok, run⟩ s = _
  simp only [execItemFetch, ← hp, hheld, hfetch, Bool.false_eq_true, if_false]

/-- An entry that was read becomes an item in flight, which a refusal ends at once (R381, R384). -/
theorem itemFetch_read {v : BitVec 512} {i : Nat} {x : Item} {y : State} (hp : p = pair s n) (hheld : fetchHeld s n p = false)
    (hfetch : fetchEntry s n b ok run = (u, some v)) (hi : i = u.queues.nextItem) (hx : x = itemOf n i ((p.sqHead + 1) % p.sqSize) v)
    {w : State} (hw : w = setPair u n { p with sqHead := (p.sqHead + 1) % p.sqSize, inFlight := p.inFlight + 1 })
    (hy : y = setItem { w with queues := { w.queues with nextItem := i + 1 } } i x) :
    exec (.itemFetch n b ⟨ok, run⟩) s = .next (match itemRefusal y x with | some st => endItem y i { status := st } | none => y) := by
  rw [fetchHeld] at hheld
  show execItemFetch n b ⟨ok, run⟩ s = _
  cases hrefusal : itemRefusal y x <;>
    simp only [execItemFetch, ← hp, hheld, hfetch, ← hi, ← hx, ← hw, ← hy, hrefusal, Bool.false_eq_true, if_false]

end

/-! ### Placing -/

section
variable {s : State} {i : Nat} {x : Item}

theorem workPlace_oldest (hfatal : s.fatal = false) : exec .workPlace s = .next (
    match s.queues.items.find? (fun (_, x) => x.place == .waiting && !x.retry && x.parts == 0 && mayPlace s x) with
    | some (i, x) => placeWaiting s i x
    | none => s) := by
  show execWorkPlace s = _
  simp only [execWorkPlace, hfatal, Bool.false_eq_true, if_false] <;> rfl

/-- An item that waits with no place is placed again; one that got a place, or has none to wait for, needs no more. -/
theorem placementRetry_placed {u : State} {y : Item} (hfatal : s.fatal = false) (hitems : s.queues.items = [(i, x)])
    (hparts : x.parts = 0) (hretry : x.retry = true) (hu : u = placeItem s i x) (hy : itemAt u i = some y)
    (hend : y.retry = false ∨ y.since = none) : exec .placementRetry s = .next u := by
  subst hu
  show execPlacementRetry s = _
  rcases hend with h | h <;> simp [execPlacementRetry, hfatal, hitems, hretry, hparts, State.each, hy, h]

theorem placementRetry_none (hfatal : s.fatal = false) (hitems : s.queues.items = [(i, x)]) (hretry : x.retry = false) :
    exec .placementRetry s = .next s := by
  show execPlacementRetry s = _
  simp [execPlacementRetry, hfatal, hitems, hretry, State.each]

theorem deferLimitExpiry_none (hfatal : s.fatal = false) (hitems : s.queues.items = [(i, x)]) (hretry : x.retry = false) :
    exec .deferLimitExpiry s = .next s := by
  show execDeferLimitExpiry s = _
  cases hsince : x.since <;> simp [execDeferLimitExpiry, hfatal, hitems, hretry, hsince, State.each]

theorem deferLimitExpiry_waiting {f : Nat} (hfatal : s.fatal = false) (hitems : s.queues.items = [(i, x)]) (hretry : x.retry = true)
    (hsince : x.since = some f) : exec .deferLimitExpiry s = .next
      (if f + s.get QUE_CTRL_DEFER_LIMIT ≤ s.folio then endItem s i { status := csNoCore } else s) := by
  show execDeferLimitExpiry s = _
  by_cases hlimit : f + s.get QUE_CTRL_DEFER_LIMIT ≤ s.folio <;>
    simp [execDeferLimitExpiry, hfatal, hitems, hretry, hsince, State.each, hlimit]

theorem deadlineDrop_waiting (hfatal : s.fatal = false) (hitems : s.queues.items = [(i, x)]) (hplace : x.place = .waiting) :
    exec .deadlineDrop s = .next (if dropDue s x = true then endItem s i { status := csDeadline } else s) := by
  show execDeadlineDrop s = _
  cases hdue : dropDue s x <;> simp [execDeadlineDrop, hfatal, hitems, hdue, State.each, abandon, hplace]

theorem premigrateRelease_waiting (hfatal : s.fatal = false) (hitems : s.queues.items = [(i, x)]) (hplace : x.place = .waiting) :
    exec .premigrateRelease s = .next s := by
  show execPremigrateRelease s = _
  simp [execPremigrateRelease, hfatal, hitems, hplace, State.each]

theorem premigrateRelease_migrated {g : Nat} (hfatal : s.fatal = false) (hitems : s.queues.items = [(i, x)])
    (hplace : x.place = .migrating (8 + g)) (hmoved : migrated s i = true) :
    exec .premigrateRelease s = .next (releaseItem s i x g) := by
  show execPremigrateRelease s = _
  simp [execPremigrateRelease, hfatal, hitems, hplace, hmoved, State.each]

/-! ### Releases -/

theorem releaseItem_unmoved {u : State} {g : Nat} {l : List Nat} (hask : askMoves s i g x.toMove = (u, l))
    (h : l ≠ [] ∨ migrated u i = false) : releaseItem s i x g = setItem u i { x with toMove := l } := by
  have hwait : (!l.isEmpty || !migrated u i) = true := by rcases h with h | h <;> simp [h]
  simp only [releaseItem, hask, hwait, if_true]

theorem releaseItem_moved {u : State} {g : Nat} (hask : askMoves s i g x.toMove = (u, [])) (hmoved : migrated u i = true)
    (hcore : (dispatching u && coreFits u x g && clusterUp u (g / 16)) = true) :
    releaseItem s i x g = if 64 ≤ (core u (8 + g)).queue.length then setItem u i { x with toMove := [], place := .waiting, retry := true }
      else enqueue u i { x with toMove := [] } g := by
  have hfits : (dispatching u && coreFits u { x with toMove := [] } g && clusterUp u (g / 16)) = true := hcore
  simp only [releaseItem, hask, hmoved, hfits, List.isEmpty_nil, Bool.not_true, Bool.or_false, Bool.false_eq_true, if_false]

end

theorem clusterVoteRelease_eq (s : State) : exec .clusterVoteRelease s = .next ((List.range s.variant.clusters).foldl (fun t c =>
    if t.flag (PWR_DOMAIN_VOTES (clusterDomain c)) 3 = true ∧ clusterBusy t c = false
        ∧ Tab.at t.queues.idle c 0 + t.get NIB_CTRL_IDLE_HOLD_FOLIOS ≤ t.folio then
      vote { t with queues := { t.queues with idle := Tab.del t.queues.idle c } } (clusterDomain c) 3 false else t) s) := by
  show execClusterVoteRelease s = _
  unfold execClusterVoteRelease State.each
  congr 2
  funext t c
  cases t.flag (PWR_DOMAIN_VOTES (clusterDomain c)) 3 <;> cases clusterBusy t c <;> simp

/-! ### Running -/

section
variable {s : State} {g : Fin 256} {k : Nat} {c : CoreState}

theorem itemStart_idle {reads : List ReadRun} (hk : k = 8 + g.val) (hdisp : dispatching s = true)
    (hidle : s.get (NIB_CORE_STATE g) = 1) (hpark : s.on (NIB_CORE_PARK g) = false) :
    exec (.itemStart ⟨g, reads⟩) s = .next (match nextOf s k with
      | none => s
      | some (i, x) => if dropDue s x = true then abandon s i x csDeadline else startItem (unqueue s k i) k i x reads) := by
  subst hk
  show execItemStart ⟨g, reads⟩ s = _
  rw [execItemStart, if_neg (by simp [hdisp, hidle, hpark])] <;> rfl

/-- A core at the completion address fences before its item ends (R390). -/
theorem itemEnd_reached {i : Nat} (hk : k = 8 + g.val) (hc : c = core s k) (hrun : c.running = true) (hitem : c.item = some i)
    (hpc : c.pc = BitVec.allOnes 64) :
    exec (.itemEnd g) s = .next (match failedAccess s k with
      | some (a, cause) => endCore s k csFault cause a.addr.toNat
      | none => if c.outstanding = [] then endCore s k csSuccess 0 (c.w 1).toNat else setCore s k { c with wait := some .itemEnd }) := by
  subst hk
  have hreached : (!c.running || c.item.isNone || c.pc != completionAddress) = false := by simp [hrun, hitem, hpc, completionAddress]
  show execItemEnd g s = _
  simp only [execItemEnd, ← hc, hreached, modCore, List.isEmpty_iff, Bool.false_eq_true, if_false] <;> rfl

/-- An item past its group's limit is stopped; its stores are waited for (R390). -/
theorem runLimitExpiry_running {x : Item} {lim : Nat} (hk : k = 8 + g.val) (hc : c = core s k)
    (hitem : c.item.bind (itemAt s) = some x) (hlim : lim = s.get (QUE_GROUP_RUN_LIMIT_LINES (pair s x.pair).group)) :
    exec (.runLimitExpiry g) s = .next (
      if lim = 0 ∨ s.ruling.gen < c.itemLine + lim ∨ c.wait = some .stopped then s
      else if c.outstanding.filterMap CoreAccess.store? = [] then endCore s k csTimeout 0 (c.w 1).toNat
      else setCore s k { c with outstanding := c.outstanding.filterMap CoreAccess.store?, wait := some .stopped }) := by
  subst hk
  show execRunLimitExpiry g s = _
  simp only [execRunLimitExpiry, ← hc, hitem, ← hlim, modCore, List.isEmpty_iff]

end

/-- Settles O47, command by command. -/
theorem workItemsAreFetchedPlacedRunAndEnded : Obligations.WorkItemsAreFetchedPlacedRunAndEnded := by
  refine ⟨?_, ?_, ?_, ?_, clusterVoteRelease_eq, ?_⟩
  -- SQ_DOORBELL and CQ_DOORBELL
  · intro s u p k d i v hlink hrole hld hfatal hu
    refine ⟨doorbells_unpaired hlink hrole hld hfatal hu, fun n q hn hq => ?_⟩
    have hsq := sqDoorbell_reached (v := v) hlink hrole hld hfatal hu hn hq
    have hcq := cqDoorbell_reached (v := v) hlink hrole hld hfatal hu hn hq
    refine ⟨fun hen => ?_, fun hen hv => ?_, fun hen hv => ?_, fun hen hv => ?_⟩
    · rw [hsq, if_pos hen]
    · rw [hsq, if_neg (by simp [hen]), if_pos hv]
    · rw [hsq, if_neg (by simp [hen]), if_neg (by omega)]
    · rw [hcq, if_neg (by simp [hen]), if_neg (by omega)]
  -- ITEM_FETCH
  · intro s u n b ok run p e hp hfatal hen herr hdel hentry hroom hceiling hfetch
    have hheld := fetchHeld_eq_false hfatal hen herr hdel hentry hroom hceiling
    refine ⟨?_, ?_⟩
    · rintro rfl
      exact itemFetch_unreadable hp hheld hfetch
    · rintro v h i x w rfl rfl hi hx hw y hy
      have hread := itemFetch_read hp hheld hfetch hi hx hw hy
      exact ⟨fun hvalid => by rw [hread, hvalid], fun st hrefused => by rw [hread, hrefused]⟩
  -- WORK_PLACE, PLACEMENT_RETRY, DEFER_LIMIT_EXPIRY, DEADLINE_DROP and PREMIGRATE_RELEASE
  · intro s hfatal
    refine ⟨fun o ho => ho ▸ workPlace_oldest hfatal, fun i x hitems hplace hparts => ⟨?_, ?_, ?_, ?_, ?_⟩, ?_⟩
    · exact fun hretry f hsince => deferLimitExpiry_waiting hfatal hitems hretry hsince
    · exact fun hretry => ⟨placementRetry_none hfatal hitems hretry, deferLimitExpiry_none hfatal hitems hretry⟩
    · exact fun hretry y u hu hy hend => placementRetry_placed hfatal hitems hparts hretry hu hy hend
    · exact deadlineDrop_waiting hfatal hitems hplace
    · exact premigrateRelease_waiting hfatal hitems hplace
    · exact fun i x g hitems hplace hmoved => premigrateRelease_migrated hfatal hitems hplace hmoved
  -- a pre-migrated item's release
  · intro s u i g x l hask
    refine ⟨fun h => releaseItem_unmoved hask h, ?_⟩
    rintro rfl hmoved hcore
    exact releaseItem_moved hask hmoved hcore
  -- ITEM_START, ITEM_END and RUN_LIMIT_EXPIRY
  · intro s g k reads hk
    refine ⟨fun hdisp hidle hpark => ?_, fun c i hc hrun hitem hpc => ?_, ?_⟩
    · have hstart := itemStart_idle (reads := reads) hk hdisp hidle hpark
      exact ⟨fun hnone => by rw [hstart, hnone], fun i x hnext => by rw [hstart, hnext]⟩
    · have hend := itemEnd_reached hk hc hrun hitem hpc
      exact ⟨fun hclean => by rw [hend, hclean], fun a cause hfailed => by rw [hend, hfailed]⟩
    · rintro c x q lim hc hitem rfl hlim
      have hexpiry := runLimitExpiry_running hk hc hitem hlim
      refine ⟨fun h => ?_, ?_⟩
      · rw [hexpiry, if_pos (by tauto)]
      · rintro hpos hdue hwait l rfl
        rw [hexpiry, if_neg (by simp [hpos, hwait, hdue])]

end Sys2Proof.Machine
end

section
/-! The accounts' own commands: an admission takes effect, windows turn, misses are judged, the shortfall is evaluated, urgency is
heard (R180, R183, R184, R188, R189, R194, R196). -/

namespace Sys2Proof.Machine

/-! ### Admission takes effect -/

theorem admitTakeEffect_none {s : State} (h : s.accounts.admitted = none) : exec .admitTakeEffect s = .next s := by
  show Host.Outcome.next (applyAdmitted s) = _
  rw [applyAdmitted, h]

section
variable {s : State} {l : List (BitVec 64 × BitVec 64)} {cool : Bool} {due : Nat}

/-- An accepted admission in terms of its due line (R183, R184). -/
theorem admitTakeEffect_accepted (h : s.accounts.admitted = some (l, cool, due)) :
    exec .admitTakeEffect s = .next (if s.ruling.line < due ∨ s.ruling.line % 64 ≠ 0 then s else
      (List.range 8).foldl (fun t k => postEvent t k (descriptor 7 t.ruling.line))
        (reserveCells ((l.foldl (fun t x => applyTerms t x.1 x.2) { s with accounts := { s.accounts with admitted := none } }).putB
          ACC_CTRL_ASSUME_COOL cool))) := by
  show Host.Outcome.next (applyAdmitted s) = _
  rw [applyAdmitted, h]
  rfl

theorem admitTakeEffect_waiting (h : s.accounts.admitted = some (l, cool, due)) (hwaits : s.ruling.line < due ∨ s.ruling.line % 64 ≠ 0) :
    exec .admitTakeEffect s = .next s := by
  rw [admitTakeEffect_accepted h, if_pos hwaits]

theorem admitTakeEffect_due (h : s.accounts.admitted = some (l, cool, due)) (hdue : due ≤ s.ruling.line) (hline : s.ruling.line % 64 = 0) :
    exec .admitTakeEffect s = .next ((List.range 8).foldl (fun t k => postEvent t k (descriptor 7 t.ruling.line))
      (reserveCells ((l.foldl (fun t x => applyTerms t x.1 x.2) { s with accounts := { s.accounts with admitted := none } }).putB
        ACC_CTRL_ASSUME_COOL cool))) := by
  rw [admitTakeEffect_accepted h, if_neg (by omega)]

end

/-- The record of an account that stays: its terms and EFFECTIVE at once, and the spread set unless the account was hard (R181, R184). -/
theorem applyTerms_configured {s u v : State} {c r : BitVec 64} {a : Nat} (hclass : bitsOf c.toNat 62 2 ≠ 0) (ha : a = bitsOf c.toNat 0 12)
    (hu : u = (setTerms s a c r).put (ACC_SERVICE_EFFECTIVE a) (bitsOf r.toNat 0 24))
    (hv : v = if acctClass s a = 0 then modAcct u a fun x => { x with lines := 1 } else u) :
    applyTerms s c r = if isHard s a then v else
      { v with accounts := { v.accounts with counting := Tab.set v.accounts.counting a (spreadSet v (bitsOf c.toNat 38 9)) } } := by
  subst hv hu ha
  exact if_neg hclass

/-! ### Windows and misses -/

theorem accountWindowEnd_eq (s : State) (a : Fin 4096) :
    exec (.accountWindowEnd a) s = .next (if windowDue s a = true then releaseHeld (turnWindow s a) a else s) := rfl

/-- At the end of the grace line, the window that waits is judged by the bytes counted in it and on that line (R188, R62, R196). -/
theorem missCheck_judged {s u v : State} {a : Fin 4096} {e c : Nat} {jumped : Bool} (hgrace : (acct s a).grace = some (e, c, jumped))
    (hlines : 2 ≤ (acct s a).lines) (hu : u = modAcct s a fun x => { x with grace := none })
    (hv : v = eventOnce (((u.inc (ACC_SERVICE_MISSES a)).put (ACC_SERVICE_MISSED a) 1).setFlag (ACC_MISS_ALL (a / 64)) (a % 64)) 0x62 431 a a) :
    exec (.missCheck a) s = .next (if e ≤ c + (acct s a).counted then u else if jumped then v else
      missMsix (postEvent v (v.get ACC_CTRL_RUBRIC_SCRIBE) (descriptor 3 a)) a) := by
  subst hv hu
  show Host.Outcome.next (missCheck s a) = _
  rw [missCheck, if_neg (by omega), judgeMiss]
  simp only [hgrace]

/-! ### Shortfall -/

theorem shortfallEvaluation_off_line {s : State} (h : s.ruling.line % 4 ≠ 0) : exec .shortfallEvaluation s = .next s := by
  show Host.Outcome.next (if s.ruling.line % 4 ≠ 0 then s else _) = _
  rw [if_pos h]

theorem shortfallEvaluation_on_line {s t : State} (h : s.ruling.line % 4 = 0)
    (ht : t = fillWaiting (evaluate s (fun a => stripedOver s a (spreadSet s (s.get (ACC_CFG_SPREAD a)))) (stripeDelivers s))) :
    exec .shortfallEvaluation s = .next (if baseRuns t 2 = true then
      ((configured t).filter fun a => t.on (ACC_SERVICE_REDUCED a) && !s.on (ACC_SERVICE_REDUCED a)).foldl reducedRubric t else t) := by
  show execShortfallEvaluation s = _
  rw [execShortfallEvaluation, if_neg (by simp [h])]
  simp only [← ht]
  cases baseRuns t 2 <;> rfl

/-! ### Urgency -/

/-- OWNER's places for port, sub-link and logical device (Table 6-13). -/
theorem linkOwner_eq (p k d : Nat) : linkOwner p k d = 256 * p + 64 * k + d := by
  rw [linkOwner, Nat.mul_comm p, Nat.mul_comm k]

section
variable {s : State} {p : Fin 64} {k : Fin 4} {d : Fin 16}

theorem urgencyMessage_bound {a : Nat} (u : Fin 4)
    (h : (configured s).find? (fun a => s.get (ACC_CFG_OWNER a) == 256 * p.val + 64 * k.val + d.val) = some a) :
    exec (.urgencyMessage p k d u) s = .next
      { s with accounts := { s.accounts with urgMessage := Tab.set s.accounts.urgMessage a u } } := by
  show execUrgencyMessage p k d u s = _
  rw [execUrgencyMessage, linkOwner_eq, h]

theorem urgencyMessage_unbound (u : Fin 4)
    (h : (configured s).find? (fun a => s.get (ACC_CFG_OWNER a) == 256 * p.val + 64 * k.val + d.val) = none) :
    exec (.urgencyMessage p k d u) s = .next (event s 0x64 431 (256 * p.val + 64 * k.val + d.val)) := by
  show execUrgencyMessage p k d u s = _
  rw [execUrgencyMessage, linkOwner_eq, h]

end

/-- Settles O17, command by command. -/
theorem accountsTurnWindowsAndReportMisses : Obligations.AccountsTurnWindowsAndReportMisses := by
  refine ⟨fun s h => admitTakeEffect_none h, fun s l cool due h hwaits => admitTakeEffect_waiting h hwaits, ?_,
    fun s u v c r a hclass ha hu hv => applyTerms_configured hclass ha hu hv, accountWindowEnd_eq, ?_,
    fun s h => shortfallEvaluation_off_line h, fun s t h ht => shortfallEvaluation_on_line h ht, ?_⟩
  -- ADMIT_TAKE_EFFECT
  · rintro s u l cool due h hdue hline rfl
    exact admitTakeEffect_due h hdue hline
  -- MISS_CHECK
  · intro s u a e c j hgrace hlines hu
    refine ⟨fun hmet => ?_, fun hmissed v hv => ?_⟩
    · rw [missCheck_judged hgrace hlines hu rfl, if_pos hmet]
    · rw [missCheck_judged hgrace hlines hu hv, if_neg (by omega)]
  -- URGENCY_MESSAGE
  · exact fun s p k d u => ⟨fun a h => urgencyMessage_bound u h, urgencyMessage_unbound u⟩

end Sys2Proof.Machine
end

section
/-! Seal's lines, TSP commands, reseals and link IDE (R205 to R212, R228 to R233). -/

namespace Sys2Proof.Machine

/-! ### Opening a line -/

theorem keyLevel_lt (s : State) (k : Nat) : keyLevel s k < 4 := State.get_lt s (SEL_KEY_ATTR_LEVEL k)

section
variable {s : State} {dpa key : Nat} {m : MediaLine}

theorem openLine_poisoned (h : m.poison = true) : openLine s dpa key m = .poison := by
  rw [openLine, if_pos h]

theorem openLine_blank : openLine s dpa key {} = .data 0 := by
  rw [openLine, if_neg (by simp), if_pos (by simp)]

/-- A line stored under another index than the request's: the stored index's entry decides (R212). -/
theorem openLine_other (hpoison : m.poison = false) (hstored : m.key ≠ 0) (hother : m.key ≠ key) :
    openLine s dpa key m = if keyState s m.key = 0 then .orphaned else .violation := by
  rw [openLine, if_neg (by simp [hpoison]), if_neg (fun h => hstored h.2.2.1), if_pos hother]

end

/-! ### A stored line opens -/

section
variable (s : State) (dpa key heat : Nat) (plain : BitVec 512)

@[simp] theorem closeLine_poison : (closeLine s dpa key heat plain).poison = false := rfl
@[simp] theorem closeLine_key : (closeLine s dpa key heat plain).key = key := rfl
@[simp] theorem closeLine_fresh : (closeLine s dpa key heat plain).fresh = decide (keyLevel s key = 3) := rfl
@[simp] theorem closeLine_isSealed : (closeLine s dpa key heat plain).isSealed = decide (2 ≤ keyLevel s key) := rfl

theorem closeLine_mac : (closeLine s dpa key heat plain).mac =
    if keyLevel s key < 2 then lineCheck (closeLine s dpa key heat plain).data dpa key
    else lineTag s (closeLine s dpa key heat plain).data dpa key (keyLevel s key = 3) (counterValue s dpa) := rfl

theorem closeLine_data : (closeLine s dpa key heat plain).data =
    if keyLevel s key = 0 then plain else Config.xts (keyOf s key).xts dpa plain := rfl

/-- What Seal deciphers of a line it stored is the plaintext. -/
theorem closeLine_deciphered : (if keyLevel s key = 0 then (closeLine s dpa key heat plain).data
    else (Config.xts (keyOf s key).xts dpa).symm (closeLine s dpa key heat plain).data) = plain := by
  rw [closeLine_data]
  split
  · rfl
  · exact Equiv.symm_apply_apply _ _

variable {s dpa key plain}

theorem openLine_closeLine (hkey : 0 < key ∨ keyLevel s key = 0)
    (hfound : keyLevel s key = 3 → leafLost s (leafOf dpa) = false) :
    openLine s dpa key (closeLine s dpa key heat plain) = .data plain := by
  have hplain := closeLine_deciphered s dpa key heat plain
  have hmac := closeLine_mac s dpa key heat plain
  rw [openLine, if_neg (by simp)]
  split
  case isTrue hblank =>
    -- Only plaintext zero under index 0, which is then plain, is stored as a blank line (R210).
    obtain ⟨hdata, -, hindex, -⟩ := hblank
    have hlevel : keyLevel s key = 0 := hkey.resolve_left (by rw [closeLine_key] at hindex; omega)
    rw [closeLine_data, if_pos hlevel] at hdata
    rw [hdata]
  case isFalse =>
    rw [if_neg (by simp)]
    simp only [hplain]
    rw [if_neg (by simp)]
    by_cases hlevel : keyLevel s key < 2
    · rw [if_pos hlevel, if_pos (by rw [hmac, if_pos hlevel])]
    · rw [if_neg hlevel, if_neg (fun h => by simp [hfound h.1] at h), if_pos (by rw [hmac, if_neg hlevel])]

theorem openLine_closeLine_other {other : Nat} (hkey : 0 < key) (hother : other ≠ key) :
    openLine s dpa other (closeLine s dpa key heat plain) = if keyState s key = 0 then .orphaned else .violation :=
  openLine_other (closeLine_poison ..) hkey.ne' hother.symm

end

/-- Settles O21: a stored line is blank only where its plaintext is zero under a plain index 0. -/
theorem storedLinesOpenToTheirPlaintext : Obligations.StoredLinesOpenToTheirPlaintext :=
  ⟨fun _ _ _ heat _ hkey hfound => openLine_closeLine heat hkey hfound,
    fun _ _ _ _ heat _ hkey hother => openLine_closeLine_other heat hkey hother,
    fun _ _ _ _ h => openLine_poisoned h, fun _ _ _ => openLine_blank⟩

/-! ### TSP (R233) -/

section
variable {s : State} {p : Fin 64} {k : Fin 4} {d : Fin 16}

theorem tspAnswer_done (s : State) (name : String) : tspAnswer s name true = s.send (.answer name 0 []) := rfl
theorem tspAnswer_refused (s : State) (name : String) : tspAnswer s name false = s.send (.answer name 1 []) := rfl

theorem loadable_iff {x : Nat} : loadable x = true ↔ 0 < x ∧ x < 1024 := by
  rw [loadable, Bool.and_eq_true, decide_eq_true_iff, decide_eq_true_iff, Nat.succ_le_iff]

theorem resealing_idle (h : s.sealing.reseal = none) (x : Nat) : resealing s x = false := by rw [resealing, h]

variable (hto : tspTo s p k d = true)
include hto

theorem tspGetVersion_reached : exec (.tspGetVersion p k d) s = .next (s.send (.answer "TSP_GET_VERSION" 0 [])) := by
  show execTspGetVersion p k d s = _
  rw [execTspGetVersion, if_pos hto, tspAnswer_done]

theorem tspLockTargetConfig_reached : exec (.tspLockTargetConfig p k d) s =
    .next ((s.put (SEL_LD_KEY_LOCKED p (tspIndex k d)) 1).send (.answer "TSP_LOCK_TARGET_CONFIG" 0 [])) := by
  show execTspLockTargetConfig p k d s = _
  rw [execTspLockTargetConfig, if_pos hto, tspAnswer_done]

/-- The configuration is taken until it is locked. -/
theorem tspSetTargetConfig_reached (c : BitVec 32) (conf : Bool) {id : Nat} (hid : id = 64 * p.val + tspIndex k d) :
    exec (.tspSetTargetConfig p k d c conf) s = .next (
      if s.get (SEL_LD_KEY_LOCKED p (tspIndex k d)) = 0 then
        ({ s with sealing := { s.sealing with
            tspSet := Tab.set s.sealing.tspSet id c.toNat
            tspConf := if conf then id :: s.sealing.tspConf.filter (· != id) else s.sealing.tspConf.filter (· != id) } }).send
          (.answer "TSP_SET_TARGET_CONFIG" 0 [])
      else s.send (.answer "TSP_SET_TARGET_CONFIG" 1 [])) := by
  subst hid
  show execTspSetTargetConfig p k d c conf s = _
  rw [execTspSetTargetConfig, if_neg (by simp [hto])]
  by_cases hlocked : s.get (SEL_LD_KEY_LOCKED p (tspIndex k d)) = 0
  · rw [if_neg (by simp [State.on, hlocked]), if_pos hlocked, tspAnswer_done]
    rfl
  · rw [if_pos (by simp [State.on, hlocked]), if_neg hlocked, tspAnswer_refused]

/-- A key goes into an EMPTY entry that no reseal names. -/
theorem tspSetKey_reached (x : BitVec 16) (xts : BitVec 512) (ik : BitVec 256) (hreseal : s.sealing.reseal = none) :
    exec (.tspSetKey p k d x xts ik) s = .next (
      if 0 < x.toNat ∧ x.toNat < 1024 ∧ keyState s x.toNat = 0 then
        (fillKey s x.toNat (if s.sealing.tspConf.contains (64 * p.val + tspIndex k d) then 1 else 2) 1 (linkOwner p k d) 0
          ⟨xts, ik, 0⟩).send (.answer "TSP_SET_KEY" 0 [])
      else s.send (.answer "TSP_SET_KEY" 1 [])) := by
  have hrefused : (!loadable x.toNat || keyState s x.toNat ≠ 0 || resealing s x.toNat) = true ↔
      ¬ (0 < x.toNat ∧ x.toNat < 1024 ∧ keyState s x.toNat = 0) := by
    rw [resealing_idle hreseal, ← and_assoc, ← loadable_iff, not_and_or]
    simp
  show execTspSetKey p k d x xts ik s = _
  rw [execTspSetKey, if_neg (by simp [hto])]
  simp only [hrefused, ite_not, tspAnswer_done, tspAnswer_refused]

/-- The key that TSP set on this link is cleared, and no other. -/
theorem tspClearKey_reached (x : BitVec 16) : exec (.tspClearKey p k d x) s = .next (
    if 0 < x.toNat ∧ x.toNat < 1024 ∧ keyState s x.toNat = 1 ∧ s.get (SEL_KEY_ATTR_SOURCE x.toNat) = 1
        ∧ s.get (SEL_KEY_ATTR_BINDING x.toNat) = linkOwner p k d then
      (s.put (SEL_KEY_ATTR_STATE x.toNat) 2).send (.answer "TSP_CLEAR_KEY" 0 [])
    else s.send (.answer "TSP_CLEAR_KEY" 1 [])) := by
  have hrefused : (!loadable x.toNat || keyState s x.toNat ≠ 1 || s.get (SEL_KEY_ATTR_SOURCE x.toNat) ≠ 1
      || s.get (SEL_KEY_ATTR_BINDING x.toNat) ≠ linkOwner p k d) = true ↔
      ¬ (0 < x.toNat ∧ x.toNat < 1024 ∧ keyState s x.toNat = 1 ∧ s.get (SEL_KEY_ATTR_SOURCE x.toNat) = 1
        ∧ s.get (SEL_KEY_ATTR_BINDING x.toNat) = linkOwner p k d) := by
    rw [← and_assoc, ← loadable_iff]
    simp only [not_and_or, Bool.or_eq_true, Bool.not_eq_true', decide_eq_true_iff, Bool.not_eq_true, or_assoc, ne_eq]
  show execTspClearKey p k d x s = _
  rw [execTspClearKey, if_neg (by simp [hto])]
  simp only [hrefused, ite_not, tspAnswer_done, tspAnswer_refused, clearKey]

/-- TE follows an aligned range within the node's capacity. -/
theorem tspSetTeState_reached (a n : BitVec 52) (te : Bool) : exec (.tspSetTeState p k d a n te) s = .next (
    if a.toNat % 2 ^ 21 = 0 ∧ n.toNat % 2 ^ 21 = 0 ∧ a.toNat + n.toNat ≤ s.variant.leaves * 4096 then
      ({ s with sealing := { s.sealing with
          te := (if te then (List.range (n.toNat / 2 ^ 21)).map (a.toNat / 2 ^ 21 + ·) else []) ++
            s.sealing.te.filter fun q => !((List.range (n.toNat / 2 ^ 21)).map (a.toNat / 2 ^ 21 + ·)).contains q } }).send
        (.answer "TSP_SET_TE_STATE" 0 [])
    else s.send (.answer "TSP_SET_TE_STATE" 1 [])) := by
  show execTspSetTeState p k d a n te s = _
  rw [execTspSetTeState, if_neg (by simp [hto])]
  by_cases h : a.toNat % 2 ^ 21 = 0 ∧ n.toNat % 2 ^ 21 = 0 ∧ a.toNat + n.toNat ≤ s.variant.leaves * 4096
  · rw [if_neg (by omega), if_pos h, tspAnswer_done]
    cases te <;> rfl
  · rw [if_pos (by omega), if_neg h, tspAnswer_refused]

end

/-- Settles O19, command by command. -/
theorem tspCommandsActOnTheirDevice : Obligations.TspCommandsActOnTheirDevice := by
  rintro s p k d hto _ _ rfl rfl
  exact ⟨tspGetVersion_reached hto, tspLockTargetConfig_reached hto,
    fun c conf => tspSetTargetConfig_reached hto c conf rfl, fun x xts ik hreseal => tspSetKey_reached hto x xts ik hreseal,
    tspClearKey_reached hto, tspSetTeState_reached hto⟩

/-! ### Reseals (R228 to R230) -/

/-- The model's division that rounds up is Mathlib's. -/
theorem ceilDiv_le_iff {n d m : Nat} (hd : 0 < d) : ceilDiv n d ≤ m ↔ n ≤ d * m := by
  rw [ceilDiv, ← Nat.ceilDiv_eq_add_pred_div, ceilDiv_le_iff_le_mul hd]

theorem newChallenge_challenge (s : State) : (newChallenge s).sealing.challenge = s.freeNow := rfl
theorem newChallenge_free (s : State) : (newChallenge s).free = s.free + 1 := rfl

section
variable {s : State} {k level node : Nat}

/-- A reseal that names a key index and a node of the tree (R228). -/
def ResealNamed (s : State) (k level node : Nat) : Prop :=
  0 < k ∧ k < 1024 ∧ level ≤ 4 ∧ 64 ^ level * node < s.variant.leaves

theorem resealUnnamed_iff : (!loadable k || 4 < level || ceilDiv s.variant.leaves (64 ^ level) ≤ node) = true ↔
    ¬ ResealNamed s k level node := by
  rw [ResealNamed, ← and_assoc, ← loadable_iff, ← not_le (b := 64 ^ level * node), ← ceilDiv_le_iff (Nat.pow_pos (by decide))]
  simp only [not_and_or, Bool.or_eq_true, Bool.not_eq_true', decide_eq_true_iff, Bool.not_eq_true, or_assoc, not_le, not_lt]

/-- What admits a reseal: AUTH, or for an EMPTY index a node under the unverifiable list (R228, R230). -/
def ResealAdmitted (s : State) (k level node : Nat) : Prop :=
  if keyState s k = 0 then underLost s level node = true else resealAuth s k level node = s.sealing.auth

theorem resealAdmitted_iff :
    (if keyState s k = 0 then underLost s level node else resealAuth s k level node == s.sealing.auth) = true ↔
      ResealAdmitted s k level node := by
  rw [ResealAdmitted]
  split
  · rfl
  · exact beq_iff_eq

theorem not_resealAdmitted_iff : ¬ ResealAdmitted s k level node ↔
    if keyState s k = 0 then underLost s level node = false else resealAuth s k level node ≠ s.sealing.auth := by
  rw [ResealAdmitted]
  split
  · exact Bool.not_eq_true _ |>.to_iff
  · rfl

theorem startReseal_unnamed (h : ¬ ResealNamed s k level node) : startReseal s k level node = (s, 4) := by
  rw [startReseal, if_pos (resealUnnamed_iff.2 h)]

theorem startReseal_busy (hnamed : ResealNamed s k level node) (h : s.sealing.reseal ≠ none ∨ s.fabric.adding ≠ none) :
    startReseal s k level node = (s, 5) := by
  rw [startReseal, if_neg (mt resealUnnamed_iff.1 (not_not_intro hnamed)),
    if_pos (by simpa only [Bool.or_eq_true, Option.isSome_iff_ne_none] using h)]

section
variable (hnamed : ResealNamed s k level node) (hreseal : s.sealing.reseal = none) (hadding : s.fabric.adding = none)
include hnamed hreseal hadding

theorem startReseal_refused (h : ¬ ResealAdmitted s k level node) :
    startReseal s k level node = (sealEvent s 9 428 k, 3) := by
  rw [startReseal, if_neg (mt resealUnnamed_iff.1 (not_not_intro hnamed)), if_neg (by simp [hreseal, hadding])]
  simp only [Bool.eq_false_iff.2 (mt resealAdmitted_iff.1 h), Bool.not_false, if_true]

/-- With no counted leaf beneath the node there is no line to blank and no holder to ask. -/
theorem startReseal_runs_empty (h : ResealAdmitted s k level node) (hleaves : leavesUnder s level node = []) :
    startReseal s k level node =
      (({ s with sealing := { s.sealing with reseal := some ⟨k, level, node⟩ } }).put SEL_RESEAL_STATUS_LEFT 0, 1) := by
  rw [startReseal, if_neg (mt resealUnnamed_iff.1 (not_not_intro hnamed)), if_neg (by simp [hreseal, hadding])]
  simp only [resealAdmitted_iff.2 h, hleaves]
  rfl

end

end

section
variable {s u : State} {v : BitVec 64} {k level node : Nat}

theorem resealStart_index_zero (h : bitsOf v.toNat 48 10 = 0) : exec (.resealStart v) s = .next (notice s 428) := by
  show Host.Outcome.next (writeResealCmd s v) = _
  rw [writeResealCmd, if_pos h]

section
variable (hk : k = bitsOf v.toNat 48 10) (hlevel : level = bitsOf v.toNat 45 3) (hnode : node = bitsOf v.toNat 16 27)
  (hpos : 0 < k) (hle : level ≤ 4)
  (hu : u = s.setWord SEL_RESEAL_CMD_KEY_INDEX.addr (BitVec.ofNat 64 (k * 2 ^ 48 + level * 2 ^ 45 + node * 2 ^ 16)))
include hk hlevel hnode hpos hle hu

/-- A write of SEL_RESEAL_CMD in range stores its fields, and START acts on what they name. -/
theorem resealStart_stored : exec (.resealStart v) s = .next (if v.getLsbD 0 = true then
    newChallenge ((startReseal u k level node).1.put SEL_RESEAL_STATUS_STATUS (startReseal u k level node).2) else u) := by
  show Host.Outcome.next (writeResealCmd s v) = _
  rw [writeResealCmd, if_neg (by omega)]
  simp only [← hk, ← hlevel, ← hnode, if_neg (not_lt.2 hle), ← hu]
  cases v.getLsbD 0 <;> rfl

theorem resealStart_without_start (h : v.getLsbD 0 = false) : exec (.resealStart v) s = .next u := by
  rw [resealStart_stored hk hlevel hnode hpos hle hu, if_neg (by rw [h]; exact Bool.false_ne_true)]

/-- START takes the challenge, whatever becomes of the reseal (R228). -/
theorem resealStart_start (h : v.getLsbD 0 = true) {t : State} {status : Nat} (ht : startReseal u k level node = (t, status)) :
    exec (.resealStart v) s = .next (newChallenge (t.put SEL_RESEAL_STATUS_STATUS status)) := by
  rw [resealStart_stored hk hlevel hnode hpos hle hu, if_pos h, ht]

end

/-! ### The end of a reseal (R229) -/

theorem resealComplete_idle (h : s.sealing.reseal = none) : exec .resealComplete s = .next s := by
  show execResealComplete s = _
  rw [execResealComplete, h]

/-- Every holder has answered and nothing on the unverifiable list is left: the lines are blanked, the nodes rebuilt. -/
theorem resealComplete_answered {w : State} {r : Reseal} (hr : s.sealing.reseal = some r)
    (hanswered : ∀ x ∈ s.fabric.snoops, x.why ≠ .reseal)
    (hu : u = rebuild (newEpoch ((leavesUnder s r.level r.node).foldl (fun t leaf => resealLeaf t r.key leaf) s) r.level r.node)
      r.level r.node)
    (hlist : unverifiable u = []) (hextra : u.sealing.extraLost = [])
    (hw : w = settleLost { u with sealing := { u.sealing with reseal := none } }) :
    exec .resealComplete s = .next (showLocked ((w.put SEL_RESEAL_STATUS_STATUS 2).put SEL_RESEAL_STATUS_LEFT 0)) := by
  have hnone : (s.fabric.snoops.any fun x => x.why == .reseal) = false := by
    simpa only [List.any_eq_false, beq_iff_eq] using hanswered
  have hkept : setSeal u { u.sealing with reseal := none, extraLost := [] } =
      { u with sealing := { u.sealing with reseal := none } } := by
    rw [← hextra]
    rfl
  show execResealComplete s = _
  rw [execResealComplete, hr, hw, ← hkept]
  simp only [hnone, State.each, ← hu, hlist, hextra, List.filter_nil, List.foldl_nil, Bool.false_eq_true, if_false]

/-! ### Link IDE (R231) -/

section
variable {id : BitVec 32} {p : Fin 64} {i ks : Fin 2} {c : Bool} {key : BitVec 256} {x : Session} {st : IdeStream}
  (hx : sessionOf s id.toNat = some x) (hport : ideSession s x p = true)
include hx hport

theorem ideKmMessage_program (hst : st = Tab.at s.sealing.ide (2 * p.val + i.val) {}) :
    exec (.ideKmMessage id p i 0 ks c key) s = .next ({ s with sealing := { s.sealing with
      ide := Tab.set s.sealing.ide (2 * p.val + i.val) ⟨(ks.val, key) :: st.keys.filter fun k => k.1 != ks.val⟩ } }.send
        (.answer "IDE_KM_MESSAGE" 0 [])) := by
  subst hst
  show execIdeKmMessage id p i 0 ks c key s = _
  simp only [execIdeKmMessage, hx, hport]
  rfl

/-- A switch to a programmed key set; the second stream also takes the message's containment mode. -/
theorem ideKmMessage_switch (hst : st = Tab.at s.sealing.ide (2 * p.val + i.val) {})
    (hset : (st.keys.any fun k => k.1 == ks.val) = true) :
    exec (.ideKmMessage id p i 1 ks c key) s = .next ((if i = 1 then
      (((s.put (ideState p i) 1).put (ideKeyset p i) ks).putB (SEL_IDE_S1_MODE p) c)
      else (s.put (ideState p i) 1).put (ideKeyset p i) ks).send (.answer "IDE_KM_MESSAGE" 0 [])) := by
  subst hst
  show execIdeKmMessage id p i 1 ks c key s = _
  simp only [execIdeKmMessage, hx, hport, hset]
  rfl

theorem ideKmMessage_stop : exec (.ideKmMessage id p i 2 ks c key) s =
    .next (({ s.put (ideState p i) 0 with sealing := { s.sealing with
      ide := Tab.del s.sealing.ide (2 * p.val + i.val) } }).send (.answer "IDE_KM_MESSAGE" 0 [])) := by
  show execIdeKmMessage id p i 2 ks c key s = _
  simp only [execIdeKmMessage, hx, hport]
  rfl

end

/-- Only a secure stream fails, and its failure is reported to the Blotter and to the Seal's Scribe. -/
theorem ideIntegrityFailure_eq {p : Fin 64} {i : Fin 2} (hu : u = (s.put (ideState p i) 2).inc (SEL_IDE_FAILS p)) :
    exec (.ideIntegrityFailure p i) s = .next (if s.get (ideState p i) = 1 then
      postEvent (event u 0x7A (448 + p.val) i) (u.get SEL_CTRL_EVENT_SCRIBE) (descriptor 5 10) else s) := by
  subst hu
  show execIdeIntegrityFailure p i s = _
  rw [execIdeIntegrityFailure, ite_not, sealEvent]

end

/-- Settles O20: each command by its own lemma, START by what `startReseal` makes of the node and index named. -/
theorem resealsAndLinkIde : Obligations.ResealsAndLinkIde := by
  refine ⟨fun _ _ h => resealStart_index_zero h, ?_, fun s => ⟨newChallenge_challenge s, newChallenge_free s⟩,
    fun _ _ _ _ hr hanswered hu hlist hextra hv => resealComplete_answered hr hanswered hu hlist hextra hv,
    fun _ h => resealComplete_idle h, ?_, fun _ _ _ _ hu => ideIntegrityFailure_eq hu⟩
  -- RESEAL_START
  · intro s v k level node u hk hlevel hnode hpos hle hu
    have hstart := @resealStart_start s u v k level node hk hlevel hnode hpos hle hu
    have hvariant : u.variant = s.variant := by rw [hu, State.setWord_variant]
    have hnamed (h : 64 ^ level * node < s.variant.leaves) : ResealNamed u k level node :=
      ⟨hpos, hk ▸ bitsOf_lt _ _ _, hle, hvariant ▸ h⟩
    refine ⟨resealStart_without_start hk hlevel hnode hpos hle hu, fun h hout => ?_, fun h hin => ⟨fun hbusy => ?_, ?_, ?_⟩⟩
    · exact hstart h (startReseal_unnamed fun ⟨_, _, _, hin⟩ => absurd (hvariant ▸ hin) (not_lt.2 hout))
    · exact hstart h (startReseal_busy (hnamed hin) hbusy)
    · exact fun hreseal hadding hnot =>
        hstart h (startReseal_refused (hnamed hin) hreseal hadding (not_resealAdmitted_iff.2 hnot))
    · exact fun hreseal hadding hadmitted hleaves =>
        hstart h (startReseal_runs_empty (hnamed hin) hreseal hadding hadmitted hleaves)
  -- IDE_KM_MESSAGE
  · intro s id p i ks c key x hx hport st hst
    refine ⟨ideKmMessage_program hx hport hst, ?_, ?_, ideKmMessage_stop hx hport⟩
    · rintro hset rfl
      exact ideKmMessage_switch hx hport hst hset
    · rintro hset rfl
      exact ideKmMessage_switch hx hport hst hset

end Sys2Proof.Machine
end

section
/-! Links come up, fail and recover (R240, R244, R250 to R253, R291). -/

namespace Sys2Proof.Machine

/-- An alternative may be stated by the condition under which it is taken, or by the one under which it is passed by. -/
theorem ite_eq_ite_of_iff_not {α : Type} {c d : Prop} [Decidable c] [Decidable d] {a b : α} (h : c ↔ ¬ d) :
    (if c then a else b) = if d then b else a := by
  by_cases hd : d
  · rw [if_neg (mt h.1 (not_not_intro hd)), if_pos hd]
  · rw [if_pos (h.2 hd), if_neg hd]

/-! ### Training -/

/-- A sub-link that may train at a width and rate comes to L0 with the lanes of R252. -/
theorem linkTrainingComplete_trains {s u : State} {p : Fin 64} {k : Fin 4} {w r : Fin 6} {m high : Bool} {pol : BitVec 16}
    (hterm : terminated s p = true) (hon : terminationsOn s p = true) (hsub : subExists s p k = true) (hdown : linkUp s p k = false)
    (hpos : 0 < w.val) (hwide : w.val ≤ fullWidth s p) (hrate : r.val ≤ s.get (LAN_PORT_CTRL_MAX_RATE p))
    (hlanes : laneSet s p k w = some high)
    (hu : u = (setWidth (if m then { s with lanes := { s.lanes with mirrored := (4 * p.val + k.val) :: s.lanes.mirrored } } else s)
      p k w high).put (linkRateF p k) r) :
    exec (.linkTrainingComplete p k w r m pol) s = .next (sendDoze (goodWake (setLink
      (((List.range (subLanes u p k).2).map ((subLanes u p k).1 + ·)).foldl
        (fun t l => t.setFlag (LAN_LANES_POLARITY_INVERTED p) l (pol.getLsbD l)) u) p k 3) p) p) := by
  subst hu
  show execLinkTrainingComplete p k w r m pol s = _
  simp only [execLinkTrainingComplete]
  rw [if_neg (by simp [hterm, hon, hsub, hdown]; omega)]
  simp only [hlanes]
  rfl

theorem linkTrainingFailed_rests {s : State} {p : Fin 64} {k : Fin 4} (r : Fin 3) (hterm : terminated s p = true)
    (hdown : linkUp s p k = false) :
    exec (.linkTrainingFailed p k r) s = .next (if r = 0 then event (setLink s p k (restState s p k)) 0x84 (256 + p) k
      else if r = 1 then event (setLink s p k (restState s p k)) 0x96 (320 + p) k
      else notice (setLink s p k (restState s p k)) (256 + p)) := by
  show execLinkTrainingFailed p k r s = _
  simp only [execLinkTrainingFailed]
  rw [if_neg (by simp [hterm, hdown])]

/-! ### Symbol lock -/

theorem lockLoss_present {s u : State} {p : Fin 64} {l : Fin 16} (hp : p.val < s.variant.ports)
    (hu : u = s.inc (LAN_LANE_ERRORS_LOCK_LOSSES p l)) :
    exec (.lockLoss p l) s = .next (if laneInUse u p l = true then { u with lanes := { u.lanes with
      lockLost := (16 * p.val + l.val) :: u.lanes.lockLost.filter (· != 16 * p.val + l.val) } } else u) := by
  subst hu
  show execLockLoss p l s = _
  simp only [execLockLoss]
  rw [if_neg (not_le.2 hp)]
  exact congrArg _ (ite_eq_ite_of_iff_not (by simp))

theorem lockTimeout_eq (s : State) (p : Fin 64) (l : Fin 16) : exec (.lockTimeout p l) s = .next (
    if 16 * p.val + l.val ∈ s.lanes.lockLost then declareLane s p l else s) :=
  congrArg _ (if_congr List.contains_iff_mem rfl rfl)

/-! ### A lane is declared failed -/

section
variable {s e u : State} {p l : Nat} (hfailed : laneFailed s p l = false)
  (he : e = event (countPort (s.setFlag (LAN_LANES_LANE_FAILED p) l) p 0 0 1 0) 0x80 (256 + p) l)
  (hu : u = { e with lanes := { e.lanes with
    lockLost := e.lanes.lockLost.filter (· != 16 * p + l), recFails := Tab.del e.lanes.recFails (16 * p + l) } })
include hfailed he hu

/-- What declaring a lane makes of its sub-link, from the state in which the failure is recorded (R250, R251, R263). -/
theorem declareLane_recorded {k : Nat} (hk : k = subOf u p l) : declareLane s p l =
    if (!terminated u p) = true then u
    else if (selectWidth u p k).isNone = true then event (subDown u p k) 0x81 (256 + p) k
    else setLanes (setLink u p k 4) { (setLink u p k 4).lanes with
      narrowing := (4 * p + k) :: u.lanes.narrowing.filter (· != 4 * p + k) } := by
  subst hk hu he
  rw [declareLane, if_neg (by rw [hfailed]; exact Bool.false_ne_true)]
  rfl

theorem declareLane_of_pair (hpair : terminated u p = false) : declareLane s p l = u := by
  rw [declareLane_recorded hfailed he hu rfl, if_pos (by simp [hpair])]

theorem declareLane_of_no_width (hterm : terminated u p = true) (hnone : selectWidth u p (subOf u p l) = none) :
    declareLane s p l = event (subDown u p (subOf u p l)) 0x81 (256 + p) (subOf u p l) := by
  rw [declareLane_recorded hfailed he hu rfl, if_neg (by simp [hterm]), if_pos (Option.isNone_iff_eq_none.2 hnone)]

theorem declareLane_of_width (hterm : terminated u p = true) (hsome : selectWidth u p (subOf u p l) ≠ none) :
    ∃ n : List Nat, (4 * p + subOf u p l) ∈ n ∧
      declareLane s p l = setLanes (setLink u p (subOf u p l) 4) { (setLink u p (subOf u p l) 4).lanes with narrowing := n } := by
  refine ⟨(4 * p + subOf u p l) :: u.lanes.narrowing.filter (· != 4 * p + subOf u p l), List.mem_cons_self, ?_⟩
  rw [declareLane_recorded hfailed he hu rfl, if_neg (by simp [hterm]), if_neg (mt Option.isNone_iff_eq_none.1 hsome)]

end

/-! ### Recovery -/

theorem recoveryEntry_eq (s : State) (p : Fin 64) (k : Fin 4) : exec (.recoveryEntry p k) s = .next (
    if terminated s p = true ∧ s.get (linkStateF p k) = 3 then setLink s p k 4 else s) :=
  congrArg _ (if_congr (by simp) rfl rfl)

section
variable {s : State} {p : Fin 64} {k : Fin 4} (hrec : s.get (linkStateF p k) = 4)
include hrec

/-- A Recovery that the partner does not complete ends with the sub-link down. -/
theorem recoveryComplete_unanswered (l : List (Fin 16)) (hterm : terminated s p = true) :
    exec (.recoveryComplete p k false l) s = .next (if 4 * p.val + k.val ∈ s.lanes.narrowing then
      event (subDown s p k) 0x81 (256 + p) k else subDown s p k) := by
  show execRecoveryComplete p k false l s = _
  simp only [execRecoveryComplete, hrec, hterm, List.contains_iff_mem, ne_eq, not_true_eq_false, if_false, Bool.not_true, Bool.not_false,
    Bool.false_eq_true, if_true]

/-- On a through-pair a Recovery only says which lanes locked (R263). -/
theorem recoveryComplete_of_pair (b : Bool) (l : List (Fin 16)) (hpair : terminated s p = false) :
    exec (.recoveryComplete p k b l) s = .next (noteUnlocked s p k false (l.map Fin.val)) := by
  show execRecoveryComplete p k b l s = _
  simp only [execRecoveryComplete, hrec, hpair, ne_eq, not_true_eq_false, if_false, Bool.not_false, if_true]

/-- A Recovery in which no further lane is declared ends in L0, at the width of R252 after a lane failure or a retrain. -/
theorem recoveryComplete_in_L0 {u v w : State} {l : List (Fin 16)} (hterm : terminated s p = true)
    (hu : u = noteUnlocked s p k (s.lanes.retrain.contains (4 * p.val + k.val)) (l.map Fin.val))
    (hlanes : u.get (LAN_LANES_LANE_FAILED p) = s.get (LAN_LANES_LANE_FAILED p)) (hstate : u.get (linkStateF p k) = 4)
    (hv : v = if 4 * p.val + k.val ∈ s.lanes.narrowing ∨ 4 * p.val + k.val ∈ u.lanes.retrain then
        (match selectWidth u p k with | some (w, h) => setWidth u p k w h | none => u)
      else u)
    (hw : w = if v.get (linkWidthF p k) = u.get (linkWidthF p k) then eventOnce v 0x82 (256 + p) p k else v) :
    exec (.recoveryComplete p k true l) s = .next (setLink (setLanes w { w.lanes with
      retrain := w.lanes.retrain.filter (· != 4 * p.val + k.val)
      narrowing := w.lanes.narrowing.filter (· != 4 * p.val + k.val) }) p k 3) := by
  show execRecoveryComplete p k true l s = _
  simp only [execRecoveryComplete, hrec, hterm, ← hu, hlanes, hstate, ne_eq, not_true_eq_false, Bool.not_true, Bool.false_eq_true,
    Bool.or_eq_true, decide_false, or_self, if_false, List.contains_iff_mem]
  subst hw hv
  rfl

end

/-- Settles O22, row by row. -/
theorem linksTrainFailAndRecover : Obligations.LinksTrainFailAndRecover := by
  refine ⟨?_, ?_, ?_, fun _ _ _ => rfl, lockTimeout_eq, ?_, recoveryEntry_eq, ?_, ?_, ?_⟩
  -- LINK_TRAINING_COMPLETE
  · exact fun s u p k w r m pol high hterm hon hsub hdown hpos hwide hrate hlanes hu =>
      linkTrainingComplete_trains hterm hon hsub hdown hpos hwide hrate hlanes hu
  -- LINK_TRAINING_FAILED
  · exact fun s p k r hterm hdown => linkTrainingFailed_rests r hterm hdown
  -- LOCK_LOSS
  · exact fun s u p l hp hu => lockLoss_present hp hu
  -- a lane declared failed
  · exact fun s e u p l hfailed he hu => ⟨declareLane_of_pair hfailed he hu, declareLane_of_no_width hfailed he hu,
      declareLane_of_width hfailed he hu⟩
  -- RECOVERY_COMPLETE without the partner
  · exact fun s p k l hrec hterm => recoveryComplete_unanswered hrec l hterm
  -- RECOVERY_COMPLETE of a through-pair
  · exact fun s p k b l hrec hpair => recoveryComplete_of_pair hrec b l hpair
  -- RECOVERY_COMPLETE to L0
  · exact fun s u v w p k l hrec hterm hu hlanes hstate hv hw => recoveryComplete_in_L0 hrec hterm hu hlanes hstate hv hw

end Sys2Proof.Machine
end

section
/-! The settings of lanes and the registers of the ports' lanes (R239, R246 to R248, R253, R271). -/

namespace Sys2Proof.Machine

/-! ### Equalization -/

theorem equalizationRequest_legal {s : State} {p : Fin 64} {l : Fin 16} {r : Fin 6} (q : Fin 16) (a b c d : BitVec 6)
    (h : equalizes s p l r = true) :
    exec (.equalizationRequest p ⟨l, r⟩ true q a b c d) s = .next (((((s.put (LAN_LANE_EQ_CM2 p l) a.toNat).put
      (LAN_LANE_EQ_CM1 p l) b.toNat).put (LAN_LANE_EQ_C0 p l) c.toNat).put (LAN_LANE_EQ_CP1 p l) d.toNat).put (LAN_LANE_EQ_PRESET p l) q) := by
  show execEqualizationRequest p ⟨l, r⟩ true q a b c d s = _
  rw [execEqualizationRequest, if_neg (by simp [h])]

theorem equalizes_rate {s : State} {p l r : Nat} (h : equalizes s p l r = true) : 2 ≤ r := by
  by_contra hlow
  rw [equalizes, if_pos (by simp; omega)] at h
  exact Bool.false_ne_true h

/-- The runs without a pattern error. -/
def errorFree (l : List (Nat × EyeRun)) : List (Nat × EyeRun) := l.filter fun x => !x.2.errors

theorem mem_errorFree {l : List (Nat × EyeRun)} {x : Nat × EyeRun} : x ∈ errorFree l ↔ x ∈ l ∧ x.2.errors = false := by
  rw [errorFree, List.mem_filter, Bool.not_eq_true']

/-- The best run is the first error-free one whose eye is the largest of them. -/
theorem bestEye_eq (l : List (Nat × EyeRun)) :
    bestEye l = (errorFree l).find? fun x => x.2.eye == ((errorFree l).map fun y => y.2.eye).max?.getD 0 := by
  have hlargest (g : List (Nat × EyeRun)) : g.foldl (fun b y => max b y.2.eye) 0 = (g.map fun y => y.2.eye).max?.getD 0 := by
    rw [← List.foldl_map (f := fun y : Nat × EyeRun => y.2.eye), List.foldl_max, Nat.zero_max]
  rw [bestEye]
  simp only [hlargest, errorFree]

theorem bestEye_is_best {l : List (Nat × EyeRun)} {x : Nat × EyeRun} (h : bestEye l = some x) :
    x ∈ l ∧ x.2.errors = false ∧ ∀ y ∈ l, y.2.errors = false → y.2.eye ≤ x.2.eye := by
  rw [bestEye_eq] at h
  obtain ⟨hmem, hgood⟩ := mem_errorFree.1 (List.mem_of_find?_eq_some h)
  refine ⟨hmem, hgood, fun y hy herrors => ?_⟩
  have heye := List.find?_some h
  rw [beq_iff_eq] at heye
  rw [heye]
  exact List.le_max?_getD_of_mem (List.mem_map_of_mem (mem_errorFree.2 ⟨hy, herrors⟩))

theorem bestEye_eq_none_iff (l : List (Nat × EyeRun)) : bestEye l = none ↔ ∀ y ∈ l, y.2.errors = true := by
  rw [bestEye_eq, List.find?_eq_none]
  constructor
  · intro h y hy
    by_contra herrors
    have hgood : y ∈ errorFree l := mem_errorFree.2 ⟨hy, Bool.eq_false_iff.2 herrors⟩
    -- the largest eye of the error-free runs is that of one of them
    obtain ⟨m, hm⟩ := Option.isSome_iff_exists.1
      (List.isSome_max?_iff.2 (List.ne_nil_of_mem (List.mem_map_of_mem (f := fun y => y.2.eye) hgood)))
    obtain ⟨z, hz, hzm⟩ := List.mem_map.1 (List.max?_mem hm)
    exact h z hz (by rw [hm, Option.getD_some, hzm, beq_self_eq_true])
  · intro h x hx
    obtain ⟨hmem, hgood⟩ := mem_errorFree.1 hx
    exact absurd (h x hmem) (Bool.eq_false_iff.1 hgood)

/-- At the end of a phase the lane has asked its partner for every preset and at most 24 changes, and takes what calibration makes of
the best run (R246, R466). -/
theorem equalizationPhaseEnd_settled {s t u : State} {p : Fin 64} {l : Fin 16} {r : Fin 6} {presets : List (Fin 16 × EyeRun)}
    {steps : List (BitVec 24 × EyeRun)} {first best : Option (Nat × EyeRun)} {drift : Nat} {c : State × Nat}
    (h : equalizes s p l r = true) (hfirst : first = bestEye (presets.map fun x => (x.1.val, x.2)))
    (hbest : best = bestEye (first.toList ++ (steps.take 24).map fun x => ((first.map Prod.fst).getD 0, x.2)))
    (ht : t = (steps.take 24).foldl (fun t x => t.send (.equalize p l none x.1))
      (presets.foldl (fun t x => t.send (.equalize p l (some x.1.val) 0)) s))
    (hu : u = if best = none then event t 0x83 (256 + p) l else t)
    (hc : c = calibrateLane u p l (best.map fun x => (x.2.setting.toNat, x.1, x.2.eye)) drift) :
    exec (.equalizationPhaseEnd p ⟨l, r⟩ ⟨presets, steps, drift⟩) s = .next (c.1.put (LAN_LANE_EQ_RX_SETTING p l) c.2) := by
  show execEqualizationPhaseEnd p ⟨l, r⟩ ⟨presets, steps, drift⟩ s = _
  simp only [execEqualizationPhaseEnd]
  rw [if_neg (by simp [h])]
  simp only [← hfirst, Option.isNone_iff_eq_none]
  subst hc hu ht hbest
  cases first <;> rfl

/-! ### Margining -/

theorem marginStart_present {s : State} {p : Fin 64} {l : Fin 16} (v : BitVec 64) (h : absentUnit s.variant .LAN_LANE_MARGIN p l = false) :
    exec (.marginStart p l v) s = .next (writeMargin s p l v) := by
  show execMarginStart p l v s = _
  rw [execMarginStart, h, if_neg Bool.false_ne_true]

theorem writeMargin_in_range {s u : State} {p l : Nat} {v : BitVec 64}
    (hu : u = (((s.put (LAN_LANE_MARGIN_ERROR_LIMIT p l) (bitsOf v.toNat 10 6)).put (LAN_LANE_MARGIN_STEPS p l)
      (bitsOf v.toNat 3 7)).put (LAN_LANE_MARGIN_SIDE p l) (bitsOf v.toNat 2 1)).put (LAN_LANE_MARGIN_KIND p l) (bitsOf v.toNat 1 1))
    (hlimit : 0 < bitsOf v.toNat 10 6) (hsteps : 0 < bitsOf v.toNat 3 7)
    (hrange : bitsOf v.toNat 3 7 ≤ if bitsOf v.toNat 1 1 = 0 then 32 else 64) :
    writeMargin s p l v = if v.getLsbD 0 = true then
        { (u.put (LAN_LANE_MARGIN_SAMPLES p l) 0).put (LAN_LANE_MARGIN_ERRORS p l) 0 with
          lanes := { s.lanes with margins := (16 * p + l) :: s.lanes.margins.filter (· != 16 * p + l) } }
      else u := by
  subst hu
  rw [writeMargin, if_neg (not_or.2 ⟨hlimit.ne', not_or.2 ⟨hsteps.ne', not_lt.2 hrange⟩⟩)]
  exact ite_eq_ite_of_iff_not (by simp)

theorem marginStepComplete_eq (s : State) (p : Fin 64) (l : Fin 16) (n e : Nat) : exec (.marginStepComplete p l n e) s = .next (
    if 16 * p.val + l.val ∈ s.lanes.margins then
      { (s.put (LAN_LANE_MARGIN_SAMPLES p l) (min n 65535)).put (LAN_LANE_MARGIN_ERRORS p l)
          (min e (s.get (LAN_LANE_MARGIN_ERROR_LIMIT p l))) with
        lanes := { s.lanes with margins := s.lanes.margins.filter (· != 16 * p.val + l.val) } }
    else s) :=
  congrArg _ (ite_eq_ite_of_iff_not (by simp))

/-! ### The port's control register -/

theorem portRetrain_present {s : State} {p : Fin 64} (v : BitVec 64) (h : absentUnit s.variant .LAN_PORT_CTRL p 0 = false) :
    exec (.portRetrain p v) s = .next (writeLanCtrl s p v) := by
  show execPortRetrain p v s = _
  rw [execPortRetrain, h, if_neg Bool.false_ne_true]

/-- A write of LAN_PORT_CTRL without a reserved code stores its fields, holds or releases the port, and RETRAIN takes the links
that are up through Recovery (R244, R253). -/
theorem writeLanCtrl_in_range {s u w : State} {p : Nat} {v : BitVec 64}
    (hu : u = (((((s.put (LAN_PORT_CTRL_MAX_RATE p) (bitsOf v.toNat 20 4)).put (LAN_PORT_CTRL_CLOCK_MODE p)
      (bitsOf v.toNat 18 2)).put (LAN_PORT_CTRL_L0P_ENABLE p) (bitsOf v.toNat 17 1)).put (LAN_PORT_CTRL_L1_ENABLE p)
      (bitsOf v.toNat 16 1)).put (LAN_PORT_CTRL_LANE_REVERSE_ALLOW p) (bitsOf v.toNat 3 1)).put (LAN_PORT_CTRL_HOLD_DETECT p)
      (bitsOf v.toNat 1 1))
    (hrate : bitsOf v.toNat 20 4 ≤ 5) (hmode : bitsOf v.toNat 18 2 ≠ 3) (hterm : terminated u p = true)
    (hw : w = if bit v.toNat 1 = true then portDown u p else showRest u p) :
    writeLanCtrl s p v = if bit v.toNat 2 = true ∧ terminated w p = true then
      (List.range 4).foldl (fun t k => if t.get (linkStateF p k) = 3 ∨ t.get (linkStateF p k) = 4 ∨ t.get (linkStateF p k) = 5 then
        setLanes (setLink t p k 4) { t.lanes with retrain := (4 * p + k) :: t.lanes.retrain.filter (· != 4 * p + k) }
        else t) w
      else w := by
  have hgood : (decide (5 < bitsOf v.toNat 20 4) || bitsOf v.toNat 18 2 == 3) = false := by simp [hrate, hmode]
  rw [writeLanCtrl]
  simp only [hgood, if_neg (not_lt.2 hrate), if_neg hmode, Bool.false_eq_true, if_false, ← hu, hterm, Bool.not_true, ← hw]
  exact ite_eq_ite_of_iff_not (by simp [-not_and, not_and_or])

/-! ### Bifurcation -/

theorem bifurcationWrite_present {s : State} {q : Fin 4} (v : BitVec 64) (h : absentUnit s.variant .LAN_QUAD q 0 = false) :
    exec (.bifurcationWrite q v) s = .next (writeQuad s q v) := by
  show execBifurcationWrite q v s = _
  rw [execBifurcationWrite, h, if_neg Bool.false_ne_true]

theorem writeQuad_refused {s : State} {q : Nat} {v : BitVec 64} (h : strapLocked s 0 = true ∨ v.toNat % 4 = 3) :
    writeQuad s q v = notice s (256 + 16 * q) := by
  rw [writeQuad, if_pos (by simpa using h)]

section
variable {s : State} {q : Nat} {v : BitVec 64} (hfree : strapLocked s 0 = false) (hcode : v.toNat % 4 ≠ 3)
include hfree hcode

theorem writeQuad_pair_in_use
    (huse : (((List.range 8).map (8 * q + ·)).any fun k => pairEnabled s k && (List.range 4).any fun j =>
      s.get (linkStateF (2 * k) j) != 0 || s.get (linkStateF (2 * k + 1) j) != 0) = true) :
    writeQuad s q v = event s 0x85 (256 + 16 * q) := by
  rw [writeQuad, if_neg (by simp [hfree, hcode]), if_pos huse]

/-- With no pair of the quadrant enabled its terminated ports go to Detect and the code is taken. -/
theorem writeQuad_taken {ports : List Nat} {u : State} (hpairs : ∀ k : Nat, k < 8 → pairEnabled s (8 * q + k) = false)
    (hports : ports = ((List.range 16).map (16 * q + ·)).filter (terminated s))
    (hu : u = (ports.foldl portDown s).put (LAN_QUAD_BIFURCATION q) (v.toNat % 4)) :
    writeQuad s q v = ports.foldl showRest u := by
  subst hu hports
  rw [writeQuad, if_neg (by simp [hfree, hcode]), if_neg (by simp +contextual [hpairs])]
  rfl

end

/-- Settles O23, row by row. -/
theorem laneSettingsAndBifurcation : Obligations.LaneSettingsAndBifurcation := by
  refine ⟨?_, ?_, fun _ _ => bestEye_is_best, bestEye_eq_none_iff, fun _ _ _ _ => equalizes_rate, ?_, marginStepComplete_eq, ?_, ?_⟩
  -- EQUALIZATION_REQUEST
  · exact fun s p l q r a b c d => ⟨equalizationRequest_legal q a b c d, rfl⟩
  -- EQUALIZATION_PHASE_END
  · exact fun s t u p l r presets steps first best drift c h hfirst hbest ht hu hc => equalizationPhaseEnd_settled h hfirst hbest ht hu hc
  -- MARGIN_START
  · intro s p l v h u hu
    rw [marginStart_present v h]
    refine ⟨fun hout => ?_, fun hlimit hsteps hrange => congrArg _ (writeMargin_in_range hu hlimit hsteps hrange)⟩
    rw [writeMargin, if_pos hout]
  -- PORT_RETRAIN
  · intro s p v h u hu hrate hmode hterm w hw
    rw [portRetrain_present v h, writeLanCtrl_in_range hu hrate hmode hterm hw]
  -- BIFURCATION_WRITE
  · intro s q v h
    rw [bifurcationWrite_present v h]
    refine ⟨fun hrefused => congrArg _ (writeQuad_refused hrefused), fun hfree hcode huse => ?_, fun hfree hcode hpairs ports u hports hu => ?_⟩
    · rw [writeQuad_pair_in_use hfree hcode huse]
    · rw [writeQuad_taken hfree hcode hpairs hports hu]

end Sys2Proof.Machine
end

section
/-! Through-pairs bond, become ready and forward (R255, R260 to R263, R271). -/

namespace Sys2Proof.Machine

theorem pairEnableWrite_present {s u : State} {k : Fin 32} {v : BitVec 64} (hk : absentUnit s.variant .LAN_PAIR k 0 = false)
    (hu : u = s.put (LAN_PAIR_ORIENT k) (bitsOf v.toNat 1 1)) :
    exec (.pairEnableWrite k v) s = .next (if v.getLsbD 0 = pairEnabled u k then u
      else if strapLocked u 1 = true then notice u (256 + 2 * k.val) else runPair u k (v.getLsbD 0)) := by
  subst hu
  show execPairEnableWrite k v s = _
  rw [execPairEnableWrite, hk, if_neg Bool.false_ne_true, writePair]

/-- Taking away what a list does not hold leaves the list. -/
theorem filter_ne_eq_self {l : List Nat} {n : Nat} (h : n ∉ l) : l.filter (· != n) = l :=
  List.filter_eq_self.2 fun _ hm => bne_iff_ne.2 (ne_of_mem_of_not_mem hm h)

section
variable {s : State} {k : Fin 32} {sub : Fin 4} (hon : pairEnabled s k = true) (hready : s.on (LAN_PAIR_READY k) = true)
include hon hready

/-- A training set from the lower port leaves by the upper one, with the rates above MAX_RATE masked (Table 8-4). -/
theorem pairForward_training_set (r : BitVec 6) (hsub : subExists s (2 * k.val) sub = true) (hidle : 2 * k.val ∉ s.lanes.pairIdle)
    (hL0 : s.get (linkStateF (2 * k.val) sub) ≠ 3) (hrec : s.get (linkStateF (2 * k.val) sub) ≠ 4) :
    exec (.pairForward k false sub 0 r ⟨[], false⟩ false) s = .next (setLink (setLink { s with
      out := s.out ++ [.pairForward (2 * k.val + 1) sub 0
        (r &&& BitVec.ofNat 6 (2 ^ (s.get (LAN_PORT_CTRL_MAX_RATE (2 * k.val)) + 1) - 1))] } (2 * k.val) sub 2) (2 * k.val + 1) sub 2) := by
  have hkeep : s.lanes.pairIdle.filter (· != 2 * k.val) = s.lanes.pairIdle := filter_ne_eq_self hidle
  have hactive : s.lanes.pairIdle.contains (2 * k.val) = false := by simpa using hidle
  have hstate : ∀ (o : Output) (x : Lanes), ¬ ((setLanes (s.send o) x).get (linkStateF (2 * k.val) sub) = 3 ∨
      (setLanes (s.send o) x).get (linkStateF (2 * k.val) sub) = 4) := fun _ _ => not_or.2 ⟨hL0, hrec⟩
  show execPairForward k false sub 0 r ⟨[], false⟩ false s = _
  simp only [execPairForward, b2n, hon, hready, hsub, hkeep, State.send_lanes, Bool.not_true, Bool.not_false, Bool.or_self,
    Bool.false_eq_true, Fin.reduceEq, Nat.add_zero, if_true, if_false, hstate, zero_ne_one]
  simp only [setLanes, hactive, Bool.false_and, Bool.false_eq_true, if_false]
  rfl

/-- A flit from the upper port leaves by the lower one and is counted where it came in, with its errors; an overrun is reported. -/
theorem pairForward_flit {r : BitVec 6} {l : List (Fin 16)} (hsub : subExists s (2 * k.val + 1) sub = true)
    (hidle : 2 * k.val + 1 ∉ s.lanes.pairIdle) (hl : l ≠ []) :
    exec (.pairForward k true sub 4 r ⟨l, false⟩ true) s = .next (event ((l.map Fin.val).foldl
      (fun t l => t.incW (LAN_LANE_ERRORS_CORRECTED_SYMBOLS (2 * k.val + 1) l))
      (((setLink (setLink (s.send (.pairForward (2 * k.val) sub 4 r)) (2 * k.val + 1) sub 3) (2 * k.val) sub 3).incW
        (LAN_FLITS_ALL (2 * k.val + 1))).incW (LAN_LINK_ERRORS_FEC_CORRECTED (2 * k.val + 1)))) 0x86 (256 + (2 * k.val + 1)) k) := by
  have hkeep : s.lanes.pairIdle.filter (· != 2 * k.val + 1) = s.lanes.pairIdle := filter_ne_eq_self hidle
  have hactive : s.lanes.pairIdle.contains (2 * k.val + 1) = false := by simpa using hidle
  have hcorrected : l.isEmpty = false := by simpa using hl
  show execPairForward k true sub 4 r ⟨l, false⟩ true s = _
  simp only [execPairForward, b2n, hon, hready, hsub, hkeep, hcorrected, State.send_lanes, Bool.not_true, Bool.or_self,
    Bool.false_eq_true, Fin.reduceEq, Nat.add_zero, if_true, if_false]
  simp only [setLanes, hactive, Bool.false_and, Bool.false_eq_true, if_false, List.foldl_map]
  rfl

end

theorem pairForward_not_ready {s : State} {k : Fin 32} (sub : Fin 4) (kind : Fin 6) (r : BitVec 6) (l : List (Fin 16)) (up un ov : Bool)
    (h : pairEnabled s k = false ∨ s.on (LAN_PAIR_READY k) = false) : exec (.pairForward k up sub kind r ⟨l, un⟩ ov) s = .next s := by
  have hguard : (!pairEnabled s k || !s.on (LAN_PAIR_READY k)) = true := by simpa using h
  show execPairForward k up sub kind r ⟨l, un⟩ ov s = _
  simp only [execPairForward, hguard, Bool.true_or, if_true]

theorem pairReady_eq (s : State) (k : Fin 32) (a b : BitVec 8) : exec (.pairReady k a b) s = .next (
    if pairEnabled s k = true ∧ domainUp s (k / 2) = true ∧ s.on (CLK_QUAD_COAST (k / 8)) = false then
      ((s.put (LAN_PAIR_READY k) 1).put (LAN_PAIR_LAT_UP k) a.toNat).put (LAN_PAIR_LAT_DOWN k) b.toNat
    else s) := by
  refine congrArg _ (ite_eq_ite_of_iff_not ?_)
  simp [-not_and, not_and_or, or_assoc]

theorem pairReadyTimeout_eq (s : State) (k : Fin 32) : exec (.pairReadyTimeout k) s = .next (
    if pairEnabled s k = true ∧ s.on (LAN_PAIR_READY k) = false then event s 0x87 (256 + 2 * k.val) k else s) :=
  congrArg _ (if_congr (by simp) rfl rfl)

/-- Settles O24, row by row; the lanes of a flit's errors are counted by their numbers. -/
theorem throughPairsBondAndForward : Obligations.ThroughPairsBondAndForward := by
  refine ⟨?_, ?_, ?_, ?_, fun s k sub kind r l up un ov h => pairForward_not_ready sub kind r l up un ov h, pairReady_eq, pairReadyTimeout_eq⟩
  -- PAIR_ENABLE_WRITE
  · exact fun s k v hk u hu => pairEnableWrite_present hk hu
  -- what bonds or parts a pair
  · rintro s u k n on' rfl rfl
    rfl
  -- PAIR_FORWARD of a training set
  · exact fun s k sub r hon hready hsub hidle hL0 hrec => pairForward_training_set hon hready r hsub hidle hL0 hrec
  -- PAIR_FORWARD of a flit
  · intro s k sub r l hon hready hsub hidle hl
    simpa only [bind_pure_comp, List.map_eq_map] using pairForward_flit hon hready hsub hidle hl

end Sys2Proof.Machine
end

section
/-! Low-power states of the links (R264 to R268). -/

namespace Sys2Proof.Machine

/-! ### L0p and L1 -/

theorem l0pNarrow_eq (s : State) (p : Fin 64) (k : Fin 4) (partner : Bool) : exec (.l0pNarrow p k partner) s = .next (
    if terminated s p = true ∧ s.get (linkStateF p k) = 3 ∧ 1 < s.get (linkActiveF p k)
      ∧ (partner = true ∨ (s.on (LAN_PORT_CTRL_L0P_ENABLE p) = true ∧ linkGuaranteed s p k = false)) then
      showActive (s.put (linkActiveF p k) (s.get (linkActiveF p k) - 1)) p k
    else s) := by
  refine congrArg _ (ite_eq_ite_of_iff_not ?_)
  simp [-not_and, not_and_or, or_assoc]

section
variable {s : State} {p : Fin 64} {k : Fin 4} (hterm : terminated s p = true) (hstate : s.get (linkStateF p k) = 3)
  (hwidth : s.get (linkActiveF p k) < s.get (linkWidthF p k))
include hterm hstate hwidth

theorem l0pWiden_locked :
    exec (.l0pWiden p k none) s = .next (showActive (s.put (linkActiveF p k) (s.get (linkActiveF p k) + 1)) p k) := by
  show execL0pWiden p k none s = _
  simp only [execL0pWiden]
  rw [if_neg (by simp [hterm, hstate, hwidth])]

theorem l0pWiden_stuck (l : Fin 16) : exec (.l0pWiden p k (some l)) s = .next (
    if subOf s p l = k.val ∧ s.flag (LAN_LANES_LANE_ACTIVE p) l = false then declareLane s p l else s) := by
  show execL0pWiden p k (some l) s = _
  simp only [execL0pWiden]
  rw [if_neg (by simp [hterm, hstate, hwidth])]
  simp only [Bool.not_eq_true']

end

theorem aspmL1Entry_eq (s : State) (p : Fin 64) (k : Fin 4) : exec (.aspmL1Entry p k) s = .next (
    if terminated s p = true ∧ s.get (linkStateF p k) = 3 ∧ s.on (LAN_PORT_CTRL_L1_ENABLE p) = true ∧ s.fatal = false then
      setLink s p k 5 else s) :=
  congrArg _ (if_congr (by simp [and_assoc]) rfl rfl)

/-! ### Half-doze -/

theorem lanDozeWrite_present {s : State} {p : Fin 64} (v : BitVec 64) (hp : absentUnit s.variant .LAN_DOZE p 0 = false) :
    exec (.lanDozeWrite p v) s = .next (writeDoze s p v) := by
  show execLanDozeWrite p v s = _
  rw [execLanDozeWrite, hp, if_neg Bool.false_ne_true]

theorem writeDoze_in_range {s u w : State} {p : Nat} {v : BitVec 64} (hu : u = s.put (LAN_DOZE_IDLE_LINES p) (bitsOf v.toNat 8 8))
    (hw : w = u.putB (LAN_DOZE_ENABLE p) (v.getLsbD 0)) (hpos : 0 < bitsOf v.toNat 8 8) :
    writeDoze s p v = if v.getLsbD 0 = u.on (LAN_DOZE_ENABLE p) then u
      else if (List.range 4).any (fun k => linkUp w p k) = true then sendDoze w p else w := by
  subst hw hu
  rw [writeDoze, if_neg hpos.ne']

/-- A direction of a Peer link in L0 enters half-doze when both ends enable it, and the node's own when neither a guarantee nor the
Fatal state forbids it. -/
theorem halfDozeEntry_eq {s : State} {p : Fin 64} {k : Fin 4} {partner : Bool} {f : Fld}
    (hf : f = if partner then linkDozeRxF p k else linkDozeTxF p k) :
    exec (.halfDozeEntry p k partner) s = .next (
      if s.get (PRT_PORT_CTRL_ROLE p) = 1 ∧ s.get (linkStateF p k) = 3 ∧ s.on (LAN_DOZE_ENABLE p) = true
        ∧ s.on (LAN_DOZE_PARTNER_ENABLE p) = true ∧ s.on f = false ∧ (partner = true ∨ (linkGuaranteed s p k = false ∧ s.fatal = false)) then
        (s.put f 1).incW (LAN_DOZE_ENTRIES p)
      else s) := by
  subst hf
  refine congrArg _ (ite_eq_ite_of_iff_not ?_)
  cases partner <;> simp [-not_and, not_and_or, or_assoc]

theorem halfDozeWake_eq {s : State} {p : Fin 64} {k : Fin 4} {partner : Bool} {f : Fld}
    (hf : f = if partner then linkDozeRxF p k else linkDozeTxF p k) :
    exec (.halfDozeWake p k partner) s = .next (
      if s.on f = true then (if partner then goodWake (s.put f 0) p else s.put f 0) else s) := by
  subst hf
  rfl

/-! ### Wake attempts -/

theorem electricalIdleExit_eq {s u : State} {p : Fin 64} {l : Fin 16} {k id st : Nat} (hk : k = subOf s p l) (hid : id = 16 * p.val + l.val)
    (hst : st = s.get (linkStateF p k)) (hu : u = { s with lanes := { s.lanes with attempts := id :: s.lanes.attempts.filter (· != id) } }) :
    exec (.electricalIdleExit p l) s = .next (
      if id ∈ s.lanes.ignoring ∨ ¬ (st < 2 ∨ st = 5 ∨ st = 6 ∨ s.on (linkDozeRxF p k) = true) then s
      else if st = 0 ∧ terminated s p = true ∧ terminationsOn s p = true then setLink u p k 1 else u) := by
  subst hk hid hst hu
  exact congrArg _ (if_congr (by simp [and_assoc]) rfl rfl)

section
variable {s u v : State} {p : Fin 64} {l : Fin 16} {k id b : Nat} (hk : k = subOf s p l) (hid : id = 16 * p.val + l.val)
  (hattempt : id ∈ s.lanes.attempts) (hb : b = s.get (LAN_WAKE_BACKOFF p))
  (hu : u = (s.inc (LAN_WAKE_FALSE_WAKES p)).put (LAN_WAKE_BACKOFF p) (if b = 0 then 1 else min 1024 (2 * b)))
  (hv : v = { u with lanes := { u.lanes with
    attempts := u.lanes.attempts.filter (· != id)
    ignoring := id :: u.lanes.ignoring.filter (· != id) } })
include hk hid hattempt hb hu hv

/-- A false wake is counted and doubles the port's backoff; its sub-link leaves Polling when no other lane of it attempts a wake. -/
theorem falseWake_attempted : exec (.falseWake p l) s = .next (eventOnce
    (if v.get (linkStateF p k) = 1 ∧ (v.lanes.attempts.any fun i => i / 16 == p.val && subOf v p (i % 16) == k) = false then
      setLink v p k (restState v p k) else v) 0x88 (256 + p) p l) := by
  subst hk hid hb hu hv
  show execFalseWake p l s = _
  simp only [execFalseWake]
  rw [if_neg (by simp [hattempt])]
  rfl

theorem falseWake_elsewhere (hstate : v.get (linkStateF p k) ≠ 1) :
    exec (.falseWake p l) s = .next (eventOnce v 0x88 (256 + p) p l) := by
  rw [falseWake_attempted hk hid hattempt hb hu hv, if_neg fun h => hstate h.1]

theorem falseWake_last_attempt (hstate : v.get (linkStateF p k) = 1)
    (hlast : ∀ i ∈ v.lanes.attempts, i / 16 = p.val → subOf v p (i % 16) ≠ k) :
    exec (.falseWake p l) s = .next (eventOnce (setLink v p k (restState v p k)) 0x88 (256 + p) p l) := by
  rw [falseWake_attempted hk hid hattempt hb hu hv, if_pos ⟨hstate, by simpa using hlast⟩]

end

/-- Settles O25, row by row. -/
theorem linksEnterAndLeaveLowPower : Obligations.LinksEnterAndLeaveLowPower := by
  refine ⟨l0pNarrow_eq, ?_, aspmL1Entry_eq, fun _ _ _ => rfl, fun _ _ _ => rfl, ?_, ?_, ?_, ?_, fun _ _ => rfl⟩
  -- L0P_WIDEN
  · exact fun s p k hterm hstate hwidth => ⟨l0pWiden_locked hterm hstate hwidth, l0pWiden_stuck hterm hstate hwidth⟩
  -- LAN_DOZE_WRITE
  · intro s p v hp
    rw [lanDozeWrite_present v hp]
    refine ⟨fun h => ?_, fun u w hu hw hpos => congrArg _ (writeDoze_in_range hu hw hpos)⟩
    rw [writeDoze, if_pos h]
  -- HALF_DOZE_ENTRY and HALF_DOZE_WAKE
  · exact fun s p k partner f hf => ⟨halfDozeEntry_eq hf, halfDozeWake_eq hf⟩
  -- ELECTRICAL_IDLE_EXIT
  · exact fun s u p l k id st hk hid hst hu => electricalIdleExit_eq hk hid hst hu
  -- FALSE_WAKE
  · exact fun s u v p l k id b hk hid hattempt hb hu hv =>
      ⟨falseWake_elsewhere hk hid hattempt hb hu hv, falseWake_last_attempt hk hid hattempt hb hu hv⟩

end Sys2Proof.Machine
end

section
/-! Ports, logical devices and what is not memory (R271 to R276, R280, R281, R290, R291). -/

namespace Sys2Proof.Machine

/-! ### Roles and logical devices -/

theorem roleWrite_present {s : State} {p : Fin 64} (v : BitVec 64) (hp : absentUnit s.variant .PRT_PORT_CTRL p 0 = false) :
    exec (.roleWrite p v) s = .next (writePortCtrl s p v) := by
  show execRoleWrite p v s = _
  rw [execRoleWrite, hp, if_neg Bool.false_ne_true]

theorem writePortCtrl_in_range {s u : State} {p : Nat} {v : BitVec 64} (hreserve : bitsOf v.toNat 24 8 ≤ 24)
    (hu : u = (s.put (PRT_PORT_CTRL_EXTRA_RESERVE p) (bitsOf v.toNat 24 8)).put (PRT_PORT_CTRL_PEER_UPSTREAM p) (bitsOf v.toNat 17 1)) :
    writePortCtrl s p v =
      if s.get (PRT_PORT_CTRL_ROLE p) = 2 ∨ v.toNat % 4 = s.get (PRT_PORT_CTRL_ROLE p) then portReserves u
      else if v.toNat % 4 = 2 then notice (portReserves u) (320 + p)
      else portReserves (linkVotes (showRest ((portDown u p).put (PRT_PORT_CTRL_ROLE p) (v.toNat % 4)) p) p) := by
  subst hu
  rw [writePortCtrl, if_neg (not_lt.2 hreserve)]

theorem prtLdWrite_present {s : State} {p : Fin 64} {d : Fin 16} (v : BitVec 64) (hp : absentUnit s.variant .PRT_LD p d = false) :
    exec (.prtLdWrite p d v) s = .next (writeLd s p d v) := by
  show execPrtLdWrite p d v s = _
  rw [execPrtLdWrite, hp, if_neg Bool.false_ne_true]

theorem writeLd_free {s : State} {p d : Nat} (v : BitVec 64) (hfree : holdsExtent s (16 * p + d) = false) :
    writeLd s p d v = s.setWord (PRT_LD_VALID p d).addr (BitVec.ofNat 64 (bitsOf v.toNat 60 4 * 2 ^ 60)) := by
  rw [writeLd, hfree, Bool.and_false, if_neg Bool.false_ne_true]

/-- A device that holds an extent stays VALID (R274). -/
theorem writeLd_invalidating {s : State} {p d : Nat} {v : BitVec 64} (hheld : holdsExtent s (16 * p + d) = true)
    (hvalid : s.on (PRT_LD_VALID p d) = true) (hclear : v.getLsbD 63 = false) : writeLd s p d v = notice s (320 + p) := by
  rw [writeLd, if_pos (by simp only [hheld, hvalid, hclear, Bool.not_false, Bool.and_true, Bool.true_or])]

theorem dcRegionWrite_present {s : State} {p : Fin 64} {d : Fin 16} {r : Fin 8} (v : BitVec 64)
    (hp : absentUnit s.variant .PRT_DC_REGION (16 * p + d) r = false) : exec (.dcRegionWrite p d r v) s = .next (writeRegion s p d r v) := by
  show execDcRegionWrite p d r v s = _
  rw [execDcRegionWrite, hp, if_neg Bool.false_ne_true]

theorem regionRefused_held {s : State} {p d r : Nat} (v : BitVec 64) (hheld : s.get (PRT_DC_USE_HELD (16 * p + d) r) ≠ 0) :
    regionRefused s p d r v = true := by
  simp [regionRefused, hheld]

/-- Nothing stands in the way of a write that invalidates an empty region or makes it sharable (R276). -/
theorem regionRefused_empty {s : State} {p d r : Nat} {v : BitVec 64} (hheld : s.get (PRT_DC_USE_HELD (16 * p + d) r) = 0)
    (hpending : s.get (PRT_DC_USE_PENDING (16 * p + d) r) = 0) (hadding : s.fabric.adding = none)
    (hclash : v.getLsbD 63 = false ∨ v.getLsbD 62 = true) : regionRefused s p d r v = false := by
  have hpasses : (v.getLsbD 63 && !v.getLsbD 62) = false := by
    rw [Bool.and_eq_false_iff, Bool.not_eq_false']
    exact hclash
  simp only [regionRefused, hpasses, hheld, hpending, hadding, bne_self_eq_false, Bool.false_and, Bool.or_false]

/-! ### Transit -/

section
variable {s : State} {p : Fin 64} {k : Fin 4} {a : Fin 4096} (b : Fin 4096) (tag : BitVec 16) (wr : Bool) (hup : linkUp s p k = true)
  (hrole : s.get (PRT_PORT_CTRL_ROLE p) = 1) (hother : a.val ≠ s.get PRT_CTRL_PBR_ID) (hfatal : s.fatal = false)
include hup hrole hother hfatal

theorem pbrTransit_routed {q j : Nat} (hroute : routeOf s a = some (q, j)) :
    exec (.pbrTransit p k a b tag wr) s = .next (s.send (.transit q j a b tag.toNat)) := by
  show execPbrTransit p k a b tag wr s = _
  rw [execPbrTransit, if_neg (by simp [hup, hrole, hother, hfatal]), hroute]

theorem pbrTransit_unrouted (hroute : routeOf s a = none) : exec (.pbrTransit p k a b tag wr) s =
    .next (report (s.send (.transitRefused p k b tag.toNat wr))
      { type := 0x94, source := 320 + p, pbr := b, access := if wr then 2 else 1, detail := BitVec.ofNat 64 a }) := by
  show execPbrTransit p k a b tag wr s = _
  rw [execPbrTransit, if_neg (by simp [hup, hrole, hother, hfatal]), hroute]

end

/-! ### Accesses to the BARs -/

section
variable {s u : State} {p : Fin 64} {k : Fin 4} {d : Fin 16} (hup : linkUp s p k = true) (hrole : s.get (PRT_PORT_CTRL_ROLE p) = 0)
  (hu : u = linkActivity s)
include hup hrole hu

theorem barAccess_fatal (x : BitVec 64) (wr : Bool) (hfatal : u.fatal = true) :
    exec (.barAccess p k d wr x) s = .next (if wr then u else u.send (.ioUnsupported p k d)) := by
  subst hu
  show execBarAccess p k d wr x s = _
  rw [execBarAccess, if_neg (by simp [hup, hrole])]
  simp only [hfatal, if_true]

theorem barAccess_unanswered (x : BitVec 64) (wr : Bool) (hfatal : u.fatal = false) (hld : ldOn u p k d = false) :
    exec (.barAccess p k d wr x) s = .next (
      if wr then barRefused u p k d wr x.toNat else u.send (.ioUnsupported p k d)) := by
  subst hu
  show execBarAccess p k d wr x s = _
  rw [execBarAccess, if_neg (by simp [hup, hrole])]
  cases wr <;> simp only [hfatal, hld, Bool.false_eq_true, if_false, Bool.not_false, if_true]

theorem barAccess_recorded {v : State} {x : BitVec 64} {wr : Bool} (hfatal : u.fatal = false)
    (hv : v = openEvent u (320 + p) 0 (some (linkMaster p k d)) (if wr then 2 else 1) x.toNat) :
    exec (.barAccess p k d wr x) s = .next (if wr then v
      else if ldOn u p k d = true then v.send (.ioData p k d 0) else u.send (.ioUnsupported p k d)) := by
  subst hv
  cases hld : ldOn u p k d with
  | true =>
    rw [barAccess_answered x wr hup hrole hu hfatal hld, if_pos rfl]
    rfl
  | false =>
    rw [barAccess_unanswered hup hrole hu x wr hfatal hld, if_neg Bool.false_ne_true]
    rfl

end

theorem viralReceived_up {s : State} {p : Fin 64} {k : Fin 4} (hup : linkUp s p k = true) (hrole : s.get (PRT_PORT_CTRL_ROLE p) = 0) :
    exec (.viralReceived p k) s = .next (notice { s with
      fabric := { s.fabric with viralSeen := s.fabric.viralSeen ++ [(p.val, k.val)] } } (320 + p)) :=
  congrArg _ (if_neg (by simp [hup, hrole]))

/-! ### Configuration space -/

section
variable {s u : State} {p : Fin 64} {k : Fin 4} {d : Fin 16} (hup : linkUp s p k = true) (hrole : s.get (PRT_PORT_CTRL_ROLE p) = 0)
include hup hrole

theorem configRequest_booting (f : Fin 8) (m : ConfigArea) (o : Fin 1024) (w : Option (BitVec 32)) (hboot : s.boot.ready = false) :
    exec (.configRequest p k d f m o w) s = .next (s.send (.ioRetry p k d)) := by
  show execConfigRequest p k d f m o w s = _
  rw [execConfigRequest, if_neg (by simp [hup, hrole]), if_pos (by simp [hboot])]

variable (hu : u = linkActivity s) (hboot : s.boot.ready = true)
include hu hboot

theorem configRequest_no_function {f : Fin 8} (m : ConfigArea) (o : Fin 1024) (w : Option (BitVec 32)) (hf : 2 ≤ f.val) :
    exec (.configRequest p k d f m o w) s = .next (u.send (.ioUnsupported p k d)) := by
  subst hu
  show execConfigRequest p k d f m o w s = _
  rw [execConfigRequest, if_neg (by simp [hup, hrole]), if_neg (by simp [hboot])]
  exact congrArg _ (if_pos (by simp [hf]))

variable (hfatal : u.fatal = false) (hld : ldOn u p k d = true)
include hfatal hld

omit hu in
/-- The guards of CONFIG_REQUEST let through what a host asks of a function of a device that answers, after the boot (R275, R558). -/
theorem config_guards_passed {f : Fin 8} {a b c x : State} (hf : f.val < 2) :
    (if !linkUp s p k || s.get (PRT_PORT_CTRL_ROLE p) ≠ 0 then a else if !s.boot.ready then b
      else if u.fatal || !ldOn u p k d || 2 ≤ f.val then c else x) = x := by
  rw [if_neg (by simp [hup, hrole]), if_neg (by simp [hboot]), if_neg (by simp [hfatal, hld, hf])]

/-- Of the writes only those of function 1's command register and of the lanes' margining act; a read gives what the model fixes of
its doubleword and draws the rest (R248, R275, R381). -/
theorem configRequest_served (o : Fin 1024) :
    (∀ w, exec (.configRequest p k d 1 .header 1 (some w)) s = .next (setBusMaster u (linkOwner p k d) (w.getLsbD 2))) ∧
    (∀ i w, exec (.configRequest p k d 0 .header o (some w)) s = .next u ∧ exec (.configRequest p k d 0 (.dvsec i) o (some w)) s = .next u) ∧
    (∀ l w, exec (.configRequest p k d 0 (.margin l) o (some w)) s = .next (hostMargin u p k l (w.setWidth 16))) ∧
    (∀ l, exec (.configRequest p k d 0 (.margin l) o none) s = .next (u.drew.send
      (.ioData p k d (BitVec.ofNat 64 (hostMarginWord u p k l u.freeNow.toNat))))) ∧
    (∀ i, exec (.configRequest p k d 1 (.dvsec i) o none) s = .next (u.drew.send
      (.ioData p k d (BitVec.ofNat 64 (dvsecWord u p k d (pairsOf u p k d).length i).toNat)))) ∧
    exec (.configRequest p k d 1 .header 2 none) s = .next (u.drew.send
      (.ioData p k d (BitVec.ofNat 64 (0x12000000 + u.freeNow.toNat % 2 ^ 32 % 256)))) := by
  have hpass (f : Fin 8) (hf : f.val < 2) {a b c x : State} :=
    config_guards_passed hup hrole hboot hfatal hld hf (a := a) (b := b) (c := c) (x := x)
  subst hu
  exact ⟨fun _ => congrArg _ (hpass 1 (by decide)), fun _ _ => ⟨congrArg _ (hpass 0 (by decide)), congrArg _ (hpass 0 (by decide))⟩,
    fun _ _ => congrArg _ (hpass 0 (by decide)), fun _ => congrArg _ (hpass 0 (by decide)), fun _ => congrArg _ (hpass 1 (by decide)),
    congrArg _ (hpass 1 (by decide))⟩

end

/-- Settles O26, row by row. -/
theorem portsRoutesAndPlainIo : Obligations.PortsRoutesAndPlainIo := by
  refine ⟨?_, ?_, ?_, ?_, ?_, ?_, fun _ _ _ => rfl⟩
  -- ROLE_WRITE
  · intro s p v hp
    rw [roleWrite_present v hp]
    refine ⟨fun hreserve => ?_, fun hreserve u hu => congrArg _ (writePortCtrl_in_range hreserve hu)⟩
    rw [writePortCtrl, if_pos hreserve]
  -- PRT_LD_WRITE
  · intro s p d v hp
    rw [prtLdWrite_present v hp]
    exact ⟨fun hfree => congrArg _ (writeLd_free v hfree),
      fun hheld hvalid hclear => congrArg _ (writeLd_invalidating hheld hvalid hclear)⟩
  -- DC_REGION_WRITE
  · intro s p d r v hp
    rw [dcRegionWrite_present v hp, writeRegion]
    exact ⟨fun hheld => congrArg _ (if_pos (regionRefused_held v hheld)), fun hheld hpending hadding hclash =>
      congrArg _ (if_neg (Bool.eq_false_iff.1 (regionRefused_empty hheld hpending hadding hclash)))⟩
  -- PBR_TRANSIT
  · exact fun s p k a b tag wr hup hrole hother hfatal => ⟨fun q j => pbrTransit_routed b tag wr hup hrole hother hfatal,
      pbrTransit_unrouted b tag wr hup hrole hother hfatal⟩
  -- BAR_ACCESS and VIRAL_RECEIVED
  · exact fun s p k d x hup hrole => ⟨fun u wr hu => ⟨barAccess_fatal hup hrole hu x wr,
      fun hfatal v hv => barAccess_recorded hup hrole hu hfatal hv⟩, viralReceived_up hup hrole⟩
  -- CONFIG_REQUEST
  · intro s u p k d o hup hrole hu
    exact ⟨fun hboot f m w => configRequest_booting hup hrole f m o w hboot,
      fun hboot => ⟨fun m w => configRequest_no_function hup hrole hu hboot m o w le_rfl,
        fun hfatal hld => configRequest_served hup hrole hu hboot hfatal hld o⟩⟩

end Sys2Proof.Machine
end

section
/-! The commands of the CXL memory device (R273, R511). -/

namespace Sys2Proof.Machine

/-- No device, no answer. -/
theorem memoryDeviceCommands_unheard {s : State} {p : Fin 64} {d : Fin 16} (h : ldAlive s p d = false) :
    exec (.identifyMemoryDevice p d) s = .next s ∧ exec (.getSupportedLogs p d) s = .next s ∧
    (∀ u o l, exec (.getLog p d u o l) s = .next s) ∧ (∀ g, exec (.cxlGetEventRecords p d g) s = .next s) ∧
    (∀ g a q, exec (.cxlClearEventRecords p d g a q) s = .next s) ∧
    exec (.getDcConfiguration p d) s = .next s ∧ exec (.getDcExtentList p d) s = .next s := by
  have hgone : (!ldAlive s p d) = true := by rw [h, Bool.not_false]
  exact ⟨congrArg _ (if_pos hgone), congrArg _ (if_pos hgone), fun _ _ _ => congrArg _ (if_pos hgone), fun _ => congrArg _ (if_pos hgone),
    fun _ _ _ => congrArg _ (if_pos hgone), congrArg _ (if_pos hgone), congrArg _ (if_pos hgone)⟩

section
variable {s : State} {p : Fin 64} {d : Fin 16} (halive : (!ldAlive s p d) ≠ true)
include halive

/-- The Command Effects Log is read within its bounds. -/
theorem getLog_heard (u : BitVec 128) (o l : Nat) :
    exec (.getLog p d u o l) s = .next (s.send (if 4 * cxlOpcodes.length < o + l then .answer "GET_LOG" 2 [u.toNat]
      else .answer "GET_LOG" 0 ((cxlOpcodes.drop (o / 4)).take (l / 4)))) := by
  rw [apply_ite s.send]
  exact congrArg _ (if_neg halive)

theorem getEventRecords_heard {g : Fin 4} {n : Nat} (hn : n = 8 * (16 * p.val + d.val) + g.val) :
    exec (.cxlGetEventRecords p d g) s = .next (s.send (.answer "CXL_GET_EVENT_RECORDS" 0
      (Tab.at s.blotter.cxlOverflow n 0 :: (Tab.at s.blotter.cxlLogs n []).map (·.seq)))) := by
  subst hn
  exact congrArg _ (if_neg halive)

theorem clearEventRecords_all {g : Fin 4} {n : Nat} (q : List (BitVec 64)) (hn : n = 8 * (16 * p.val + d.val) + g.val) :
    exec (.cxlClearEventRecords p d g true q) s = .next (({ s with
      blotter := { s.blotter with
        cxlLogs := Tab.set s.blotter.cxlLogs n []
        cxlOverflow := Tab.del s.blotter.cxlOverflow n } }).send (.answer "CXL_CLEAR_EVENT_RECORDS" 0 [])) := by
  subst hn
  exact congrArg _ (if_neg halive)

/-- A clear that names a record the log does not hold is refused whole. -/
theorem clearEventRecords_unknown {g : Fin 4} {n : Nat} {q : List (BitVec 64)} (hn : n = 8 * (16 * p.val + d.val) + g.val)
    (hunknown : ∃ x ∈ q, ∀ r ∈ Tab.at s.blotter.cxlLogs n [], r.seq ≠ x.toNat) :
    exec (.cxlClearEventRecords p d g false q) s = .next (s.send (.answer "CXL_CLEAR_EVENT_RECORDS" 2 [])) := by
  subst hn
  exact congrArg _ ((if_neg halive).trans (if_pos (by simpa using hunknown)))

end

/-- Settles O29: a device that is not there is not heard, and one that is gives each command its one answer. -/
theorem memoryDeviceCommandsAnswerOnce : Obligations.MemoryDeviceCommandsAnswerOnce := by
  refine fun s p d => ⟨memoryDeviceCommands_unheard, fun h => ?_⟩
  have halive : (!ldAlive s p d) ≠ true := by simp [h]
  exact ⟨congrArg _ (if_neg halive), congrArg _ (if_neg halive), getLog_heard halive,
    fun g n hn => ⟨getEventRecords_heard halive hn, fun q => clearEventRecords_all halive q hn,
      fun q => clearEventRecords_unknown halive hn⟩,
    congrArg _ (if_neg halive), congrArg _ (if_neg halive)⟩

end Sys2Proof.Machine
end

section
/-! Predicates and guards of a core (R308). -/

namespace Sys2Proof.Machine

/-- Taking away a bit that a number has leaves its other bits. -/
theorem testBit_sub_two_pow {n i : Nat} (h : n.testBit i = true) (j : Nat) :
    (n - 2 ^ i).testBit j = (n.testBit j && !decide (i = j)) := by
  have hshared : n &&& 2 ^ i = 2 ^ i := by rw [Nat.and_two_pow, h, Bool.toNat_true, Nat.one_mul]
  rw [← Nat.testBit_two_pow, ← testBit_sub_and, hshared]

theorem testBit_clearBit (n i j : Nat) : (clearBit n i).testBit j = (n.testBit j && !decide (i = j)) := by
  rw [clearBit, bit_eq_testBit]
  cases h : n.testBit i
  · by_cases hij : i = j
    · subst hij; simp [h]
    · simp [hij]
  · rw [if_pos rfl, testBit_sub_two_pow h]

theorem testBit_setBit (n i j : Nat) : (setBit n i).testBit j = (n.testBit j || decide (i = j)) := by
  rw [setBit, bit_eq_testBit]
  cases h : n.testBit i
  · have hset : (n + 2 ^ i).testBit i = true := by rw [Nat.add_comm, Nat.testBit_two_pow_add_eq, h, Bool.not_false]
    have hback : n.testBit j = ((n + 2 ^ i).testBit j && !decide (i = j)) := by
      rw [← testBit_sub_two_pow hset, Nat.add_sub_cancel]
    by_cases hij : i = j
    · subst hij; simp [hset]
    · simpa [hij] using hback.symm
  · by_cases hij : i = j
    · subst hij; simp [h]
    · simp [hij]

theorem testBit_putBit (n i : Nat) (b : Bool) (j : Nat) : (putBit n i b).testBit j = if i = j then b else n.testBit j := by
  cases b <;> by_cases hij : i = j <;> simp [putBit, testBit_setBit, testBit_clearBit, hij]

/-- A predicate reads as written, and the others as before. -/
theorem p_setP (c : CoreState) {n : Fin 8} (hn : n ≠ 0) (v : Bool) (m : Fin 8) : (c.setP n v).p m = if m = n then v else c.p m := by
  have hn' : n.val ≠ 0 := Fin.val_ne_of_ne hn
  rw [CoreState.setP, if_neg hn', CoreState.p, BitVec.getLsbD_ofNat, testBit_putBit, CoreState.p]
  by_cases hmn : m = n
  · subst hmn; simp [hn']
  · simp [hmn, Fin.val_ne_of_ne (Ne.symm hmn), BitVec.testBit_toNat]

theorem setP_frame (c : CoreState) (n : Nat) (v : Bool) : { c.setP n v with preds := c.preds } = c := by
  rw [CoreState.setP]
  split <;> rfl

theorem guard_eq_true_iff (c : CoreState) (n : Nat) (neg : Bool) :
    c.guard n neg = true ↔ (c.p n = true ∧ neg = false) ∨ (c.p n = false ∧ neg = true) := by
  rw [CoreState.guard]
  cases c.p n <;> cases neg <;> decide

/-- Settles O36, from the bits that a write of a predicate leaves. -/
theorem predicatesAndGuardsFollowTheirRule : Obligations.PredicatesAndGuardsFollowTheirRule := by
  refine fun c n v => ⟨rfl, rfl, fun hn => ⟨?_, fun m hm => ?_⟩, setP_frame c n v, guard_eq_true_iff c n, rfl, rfl⟩
  · rw [p_setP c hn, if_pos rfl]
  · rw [p_setP c hn, if_neg hm]

end Sys2Proof.Machine
end

section
/-! Integer and ALUX instructions, and division (R302, R325 to R328). -/

namespace Sys2Proof.Machine

/-- Equal states are equal outcomes. -/
theorem next_congr {s t : State} (h : s = t) : (Host.Outcome.next s : Host.Outcome State Fault Refusal) = .next t := congrArg _ h

section
variable {s : State} {r : CoreRun} (d a b : Fin 32)

theorem alu_ready (h : Ready s r 1) (op : BitVec 64 → BitVec 64 → BitVec 64) :
    alu s r d a b op = advance s r.core 1 fun z => z.setW d (op ((core s r.core).w a) ((core s r.core).w b)) :=
  compute_ready s r 1 _ d _ h

theorem aluImm_ready {len : Nat} (h : Ready s r len) (op : BitVec 64 → BitVec 64) :
    aluImm s r len d a op = advance s r.core len fun z => z.setW d (op ((core s r.core).w a)) :=
  compute_ready s r len _ d _ h

/-- An ALUX function whose operands are legal, or whose guard is false so that they are not checked. -/
theorem alux_ready (h : Ready s r 2) (g : Fin 8) (n unary : Bool) (op : BitVec 64 → BitVec 64 → BitVec 64)
    (hlegal : unary = false ∨ (core s r.core).guard g n = false ∨ b = 0) :
    alux s r d a b g n unary op = advance s r.core 2 fun z =>
      if (core s r.core).guard g n then z.setW d (op ((core s r.core).w a) ((core s r.core).w b)) else z := by
  rw [alux, issue_ready s r _ _ h (by simp) (by simp)]
  cases hg : (core s r.core).guard g n
  · rfl
  · have hchecked : (unary && b != 0) = false := by
      obtain hu | hf | hb := hlegal
      · rw [hu, Bool.false_and]
      · rw [hg] at hf; contradiction
      · rw [hb, bne_self_eq_false, Bool.and_false]
    simp only [hchecked, Bool.not_true, Bool.false_eq_true, if_false, if_true]

/-- Under a true guard a function of one operand that names another register than w0 is illegal. -/
theorem alux_unary_illegal (h : Ready s r 2) {g : Fin 8} {n : Bool} (op : BitVec 64 → BitVec 64 → BitVec 64)
    (hg : (core s r.core).guard g n = true) (hb : b ≠ 0) : alux s r d a b g n true op = fault s r.core 0x01 := by
  rw [alux, issue_ready s r _ _ h (by simp) (by simp)]
  simp only [hg, Bool.not_true, Bool.false_eq_true, if_false, Bool.true_and, bne_iff_ne, ne_eq, hb, not_false_eq_true, if_true]

end

/-- CS_CAUSE of a precise trap that is no memory access holds its cause and CODE. -/
theorem word_precise (cause code : Nat) (faddr epc : BitVec 64) :
    Trap.word { cause := cause, code := code, faddr := faddr, epc := epc } = BitVec.ofNat 64 (cause + code * 2 ^ 8) := by
  simp only [Trap.word, b2n, Bool.false_eq_true, if_false, Nat.zero_mul, Nat.add_zero]

/-- An illegal instruction with nothing outstanding, traps enabled and a handler. -/
theorem illegal_handled {s : State} {k : Nat} (ho : (core s k).outstanding = []) (he : (core s k).enable = true)
    (ht : (core s k).tvec ≠ 0) : fault s k 0x01 = setCore s k { core s k with
      epc := (core s k).pc
      cause := 1
      faddr := 0
      enable := false
      pc := (core s k).tvec } := by
  rw [fault_handled s k 0x01 0 0 ho he ht (by decide), word_precise]
  rfl

/-! ### The obligations -/

/-- Settles O30: every form is a computation from registers and immediates on a ready core. -/
theorem integerFormsWriteTheirResult : Obligations.IntegerFormsWriteTheirResult := by
  rintro s r c d a b rfl
  refine ⟨fun h => ⟨?_, fun i => ?_, fun i => congrArg _ (compute_ready s r 1 [] d _ h)⟩, fun h i => ?_⟩
  · have two (op : BitVec 64 → BitVec 64 → BitVec 64) := next_congr (alu_ready d a b h op)
    simp only [List.forall_mem_cons]
    exact ⟨two (· + ·), two (· - ·), two (· &&& ·), two (· ||| ·), two (· ^^^ ·), two shl, two shr, two sar, two (· * ·),
      List.forall_mem_nil _⟩
  · have imm (op : BitVec 64 → BitVec 64) := next_congr (aluImm_ready d a h op)
    simp only [List.forall_mem_cons]
    exact ⟨imm (· + sext i), imm (· <<< i.toNat), imm (· >>> i.toNat), imm (·.sshiftRight i.toNat), List.forall_mem_nil _⟩
  · have imm (op : BitVec 64 → BitVec 64) := next_congr (aluImm_ready d a h op)
    simp only [List.forall_mem_cons]
    exact ⟨imm (· + sext i), imm (· &&& sext i), imm (· ||| zext i), imm (· ^^^ zext i), imm (fun x => (x <<< 20) ||| zext i),
      List.forall_mem_nil _⟩

/-- Settles O31: a function runs under its guard, and one of one operand is checked under a true guard only. -/
theorem aluxFunctionsRunUnderTheirGuard : Obligations.AluxFunctionsRunUnderTheirGuard := by
  rintro s r c d a b g n rfl h x y rfl rfl
  obtain ⟨-, -, hout, -⟩ := id h
  constructor
  · have two (op : BitVec 64 → BitVec 64 → BitVec 64) := next_congr (alux_ready d a b h g n false op (.inl rfl))
    simp only [List.forall_mem_cons]
    exact ⟨two (· + ·), two (· - ·), two (· &&& ·), two (· ||| ·), two (· ^^^ ·), two (fun x y => x &&& ~~~y), two shl, two shr,
      two sar, two (· * ·), two mulh, two mulhu, two divS, two divU, two remS, two remU, two _, two _, two _, two _,
      List.forall_mem_nil _⟩
  · have legal (op : BitVec 64 → BitVec 64) (hl) := next_congr (alux_ready d a b h g n true (fun x _ => op x) (.inr hl))
    have illegal (op : BitVec 64 → BitVec 64) (hg : (core s r.core).guard g n = true) (hb : b ≠ 0) (he) (ht) :=
      next_congr ((alux_unary_illegal d a b h (fun x _ => op x) hg hb).trans (illegal_handled hout he ht))
    simp only [List.forall_mem_cons]
    exact ⟨⟨legal clz, illegal _⟩, ⟨legal ctz, illegal _⟩, ⟨legal popc, illegal _⟩, ⟨legal bswap, illegal _⟩,
      ⟨legal fun x => sext (x.truncate 32), illegal _⟩, ⟨legal fun x => zext (x.truncate 32), illegal _⟩, List.forall_mem_nil _⟩

/-- The most negative number has no quotient by -1 but itself, and no remainder. -/
theorem divS_intMin_neg_one : divS (BitVec.intMin 64) (-1) = BitVec.intMin 64 :=
  (if_neg (by decide)).trans BitVec.intMin_sdiv_neg_one

theorem remS_intMin_neg_one : remS (BitVec.intMin 64) (-1) = 0 := by decide

/-- Settles O37: each function writes its quotient or remainder, which is the stated one in the two cases. -/
theorem divisionNeverFaults : Obligations.DivisionNeverFaults := by
  rintro s r c d a b g n rfl h res hres
  have run (op : BitVec 64 → BitVec 64 → BitVec 64) :=
    (next_congr (alux_ready d a b h g n false op (.inl rfl))).trans (hres _).symm
  have hdiv : exec (.aluxDiv r d a b g n) s = res _ := run divS
  have hdivu : exec (.aluxDivu r d a b g n) s = res _ := run divU
  have hrem : exec (.aluxRem r d a b g n) s = res _ := run remS
  have hremu : exec (.aluxRemu r d a b g n) s = res _ := run remU
  refine ⟨⟨_, _, _, _, hdiv, hdivu, hrem, hremu⟩, fun hb => ?_, fun ha hb => ?_⟩
  · rw [hdiv, hdivu, hrem, hremu, hb]
    exact ⟨congrArg res (if_pos rfl), congrArg res (if_pos rfl), congrArg res (if_pos rfl), congrArg res (if_pos rfl)⟩
  · rw [hdiv, hrem, ha, hb]
    exact ⟨congrArg res divS_intMin_neg_one, congrArg res remS_intMin_neg_one⟩

end Sys2Proof.Machine
end

section
/-! Compares, predicates, conditional moves, branches and NOP (R329 to R332, R337). -/

namespace Sys2Proof.Machine

/-- The conditions of Table 10-14. -/
theorem condition_of_mem {x y : BitVec 64} : ∀ e ∈ ([(0, x == y), (1, decide (x.toInt < y.toInt)), (2, decide (x.toNat < y.toNat)),
    (3, x &&& y != 0)] : List (Fin 4 × Bool)), condition e.1 x y = e.2 := by
  simp only [List.forall_mem_cons]
  exact ⟨rfl, rfl, rfl, rfl, List.forall_mem_nil _⟩

section
variable {s : State} {r : CoreRun} {len : Nat}

/-- A ready core's compare writes the predicate with its condition. -/
theorem compare_ready (h : Ready s r len) (reads : List Nat) (p : Fin 8) {cond : Fin 4} (x y : CoreState → BitVec 64) {v : Bool}
    (hv : condition cond (x (core s r.core)) (y (core s r.core)) = v) :
    compare s r len reads p cond x y = advance s r.core len fun z => z.setP p v := by
  rw [compare, issue_ready s r _ _ h (by simp) (by simp), hv]

theorem branch_ready (h : Ready s r len) (p : Fin 8) (n : Bool) (off : BitVec 64) :
    branch s r len p n off =
      if (core s r.core).guard p n then jump s r.core ((core s r.core).pc + off) else advance s r.core len :=
  issue_ready s r { len := len } _ h (by simp) (by simp)

theorem plog_ready (h : Ready s r 1) (p q t : Fin 8) : ∀ e ∈ ([(0, (core s r.core).p q && (core s r.core).p t),
    (1, (core s r.core).p q || (core s r.core).p t), (2, (core s r.core).p q != (core s r.core).p t),
    (3, (core s r.core).p q && !(core s r.core).p t)] : List (Fin 4 × Bool)),
    exec (.plog r p e.1 q t) s = .next (advance s r.core 1 fun z => z.setP p e.2) := by
  have combined (f) := next_congr (issue_ready s r {} f h (by simp) (by simp))
  simp only [List.forall_mem_cons]
  exact ⟨combined _, combined _, combined _, combined _, List.forall_mem_nil _⟩

end

/-- Settles O32, from what a ready core's compare, branch and combination of predicates do. -/
theorem comparesAndBranchesFollowTheirRules : Obligations.ComparesAndBranchesFollowTheirRules := by
  rintro s r c p q t d a b n rfl
  constructor
  · intro h
    have issued (reads : List Nat) (f) := next_congr (issue_ready s r { reads := reads } f h (by simp) (by simp))
    exact ⟨fun e he => congrArg _ (compare_ready h _ p _ _ (condition_of_mem e he)),
      fun i e he => congrArg _ (compare_ready h _ p _ _ (condition_of_mem e he)), plog_ready h p q t, issued _ _,
      fun o => congrArg _ (branch_ready h p n _), fun o => issued _ _, issued _ _, issued _ _⟩
  · intro h
    exact ⟨fun i e he => congrArg _ (compare_ready h _ p _ _ (condition_of_mem e he)),
      fun o => ⟨congrArg _ (branch_ready h p n _), congrArg _ (issue_ready s r { len := 2 } _ h (by simp) (by simp))⟩⟩

end Sys2Proof.Machine
end

section
/-! Traps, faults, returns and the core status registers (R318, R319, R323, R337). -/

namespace Sys2Proof.Machine

/-- A trap with traps enabled and a handler is saved and goes to the handler. -/
theorem raiseTrap_handled {s : State} {k : Nat} {t : Trap} (hc : t.cause ≠ 0x0D) (he : (core s k).enable = true)
    (ht : (core s k).tvec ≠ 0) : raiseTrap s k t = setCore s k { core s k with
      epc := t.epc
      cause := t.word
      faddr := t.faddr
      enable := false
      pc := (core s k).tvec } := by
  simp only [raiseTrap, he, if_neg hc, if_neg ht, Bool.not_true, Bool.false_eq_true, if_false]

section
variable {s : State} {r : CoreRun} (h : Ready s r 1)
include h

theorem trap_ready (code : BitVec 10) (he : (core s r.core).enable = true) (ht : (core s r.core).tvec ≠ 0) :
    exec (.trap r code) s = .next (setCore s r.core { core s r.core with
      epc := (core s r.core).pc + 1
      cause := BitVec.ofNat 64 (0x0C + code.toNat * 2 ^ 8)
      faddr := 0
      enable := false
      pc := (core s r.core).tvec }) := by
  show execTrap r code s = _
  rw [execTrap, issue_ready s r _ _ h (by simp) (by simp), raiseTrap_handled (Nat.ne_of_beq_eq_false rfl) he ht, word_precise]

theorem fault_ready (code : BitVec 10) : exec (.fault r code) s = .next (
    if r.core.val < 8 then endScribe s r.core 0x0D (core s r.core).pc 0 else endCore s r.core csFault 0x0D code.toNat) :=
  congrArg _ (issue_ready s r {} _ h (by simp) (by simp))

theorem rett_ready : exec (.rett r) s = .next (if (core s r.core).enable then fault s r.core 0x01 else
    jump s r.core (core s r.core).epc fun z => { z with enable := true }) :=
  congrArg _ (issue_ready s r { drains := true } _ h (by simp) (by simp))

theorem fence_ready : exec (.fence r) s = .next (advance s r.core 1) := by
  obtain ⟨-, -, hout, -⟩ := id h
  show execFence r s = _
  rw [execFence, issue_ready s r _ _ h (by simp) (by simp), hout]
  rfl

/-- A read of an existing status register; the count of cycles uses up a free value. -/
theorem rdcs_ready {d index : Fin 32} {v : BitVec 64} (hv : readStatus s r.core (core s r.core) index = some v) :
    exec (.rdcs r d index) s =
      .next (advance (if index.val = 6 then s.drew else s) r.core 1 fun z => z.setW d v) := by
  show execRdcs r d index s = _
  rw [execRdcs, issue_ready s r _ _ h (by simp) (by simp), hv]

/-- A write of an existing status register. -/
theorem wrcs_ready {index : Fin 32} (a : Fin 32) (hi : ¬ 10 ≤ index.val) :
    exec (.wrcs r index a) s = .next (advance s r.core 1 fun z => match index.val with
      | 1 => { z with tvec := (core s r.core).w a }
      | 2 => { z with epc := (core s r.core).w a }
      | 5 => { z with enable := ((core s r.core).w a).getLsbD 0 }
      | 8 => { z with scratch := (core s r.core).w a }
      | _ => z) := by
  show execWrcs r index a s = _
  rw [execWrcs, issue_ready s r _ _ h (by simp) (by simp)]
  exact congrArg _ (if_neg hi)

end

/-- CS_TSTATE shows ENABLE. -/
theorem ofNat_b2n (b : Bool) : BitVec.ofNat 64 (b2n b) = if b then 1 else 0 := by cases b <;> rfl

/-- Settles O33, from what each instruction does on a ready core. -/
theorem trapsSaveAndReturnRestores : Obligations.TrapsSaveAndReturnRestores := by
  rintro s r c d a rfl h
  obtain ⟨-, -, hout, -⟩ := id h
  refine ⟨trap_ready h, fault_ready h, fun he => ?_, fun he ht => ?_, fence_ready h, ?_, rdcs_ready h (index := 6) rfl,
    wrcs_ready h a (index := 1) (by decide), wrcs_ready h a (index := 2) (by decide), wrcs_ready h a (index := 5) (by decide),
    wrcs_ready h a (index := 8) (by decide), ?_⟩
  · rw [rett_ready h, he, if_neg Bool.false_ne_true]
  · rw [rett_ready h, he, if_pos rfl, illegal_handled hout he ht]
  · rw [← ofNat_b2n]
    simp only [List.forall_mem_cons]
    exact ⟨rdcs_ready h rfl, rdcs_ready h rfl, rdcs_ready h rfl, rdcs_ready h rfl, rdcs_ready h rfl, rdcs_ready h rfl,
      rdcs_ready h rfl, rdcs_ready h rfl, List.forall_mem_nil _⟩
  · have discarded {index : Fin 32} (hi : ¬ 10 ≤ index.val) := wrcs_ready h a hi
    simp only [List.forall_mem_cons]
    exact ⟨discarded (index := 0) (by decide), discarded (index := 3) (by decide), discarded (index := 4) (by decide),
      discarded (index := 6) (by decide), discarded (index := 7) (by decide), discarded (index := 9) (by decide),
      List.forall_mem_nil _⟩

end Sys2Proof.Machine
end

section
/-! Accesses that leave their core, and what comes back for them (R312 to R315, R318, R321, R337, R352, R374). -/

namespace Sys2Proof.Machine

/-! ### Leaving the core -/

/-- With nothing outstanding neither the limit nor the line holds an access back. -/
theorem mayLaunch_of_none_outstanding {c : CoreState} (k ea : Nat) (h : c.outstanding = []) : mayLaunch k c ea = true := by
  have hlimit : 0 < if k < 8 then 8 else 16 := by split <;> decide
  simpa [mayLaunch, h] using hlimit

/-- An aligned address in the working memory of a Scribe's rubric has no fault. -/
theorem addressCauses_work {s : State} {k ea size : Nat} (hk : k < 8) (hs : ea / 2 ^ 62 = 1) (ha : ea % size = 0)
    (hl : ea % 2 ^ 62 + size ≤ workSize s k) : addressCauses s k ea size size = [] := by
  simp only [addressCauses, ha, hs, not_true_eq_false, if_false, List.nil_append, ne_eq, if_neg (Nat.not_le.2 hk),
    if_neg (Nat.not_lt.2 hl)]

/-- An aligned device address that the core may name has no fault. -/
theorem addressCauses_device {s : State} {k ea size : Nat} (hs : ea / 2 ^ 62 = 2) (ha : ea % size = 0) (hb : bitsOf ea 52 10 = 0)
    (ho : inOperands s k ea size = true) : addressCauses s k ea size size = [] := by
  simp only [addressCauses, ha, hs, hb, ho, not_true_eq_false, if_false, List.nil_append, ne_eq, Bool.not_true,
    Bool.false_eq_true, or_self]

/-- A line inside an operand is where the operand's lines are. -/
theorem operandLine_inside {s : State} {k o : Nat} {op : Fin 4} {p : Operand}
    (hp : ((core s k).item.bind (itemAt s)).bind (fun x => x.operands[op.val]?) = some p) (ha : o % 64 = 0) (hl : o < 64 * p.lines) :
    operandLine s k op o = ([], BitVec.ofNat 64 (2 ^ 63 + p.addr + o)) := by
  simp [operandLine, hp, ha, hl]

section
variable {s : State} {r : CoreRun} {a : Fin 32} {ea : BitVec 64} {len size : Nat} {d : Fin 32} {offset : BitVec 64}

theorem load_work {sign : Bool} (h : Ready s r len) (he : ea = (core s r.core).w a + offset) (ha : ea.toNat % size = 0)
    (hk : r.core.val < 8) (hs : ea.toNat / 2 ^ 62 = 1) (hl : ea.toNat % 2 ^ 62 + size ≤ workSize s r.core) {u : State × Nat}
    (hu : u = launch (chargeNow s 4094 64) r.core len ea (.load (destination d) size sign)) :
    load s r len d a offset size sign =
      respond u.1 (.core r.core u.2) 0 (.data (workLine u.1 (workBase u.1 r.core + ea.toNat % 2 ^ 62))) := by
  subst he hu
  obtain ⟨-, -, hout, -⟩ := id h
  rw [load, issue_ready s r _ _ h (by simp) (by simp)]
  simp only [addressCauses_work hk hs ha hl, checked, hs, mayLaunch_of_none_outstanding _ _ hout]
  rfl

theorem load_device {sign : Bool} (h : Ready s r len) (he : ea = (core s r.core).w a + offset) (ha : ea.toNat % size = 0)
    (hs : ea.toNat / 2 ^ 62 = 2) (hb : bitsOf ea.toNat 52 10 = 0) (ho : inOperands s r.core ea.toNat size = true) :
    load s r len d a offset size sign = deviceRead s r.core len ea (.load (destination d) size sign) := by
  subst he
  obtain ⟨-, -, hout, -⟩ := id h
  rw [load, issue_ready s r _ _ h (by simp) (by simp)]
  simp only [addressCauses_device hs ha hb ho, checked, hs, mayLaunch_of_none_outstanding _ _ hout]
  rfl

theorem store_device {m : ReadRun} (h : Ready s r len) (he : ea = (core s r.core).w a + offset) (ha : ea.toNat % size = 0)
    (hs : ea.toNat / 2 ^ 62 = 2) (hb : bitsOf ea.toNat 52 10 = 0) (ho : inOperands s r.core ea.toNat size = true) :
    store s r len d a offset size m = deviceWrite s r.core len ea
      (BitVec.ofNat 512 (leNat (leBytes size ((core s r.core).w d).toNat) * 2 ^ (8 * (ea.toNat % 64))))
      (BitVec.ofNat 64 ((2 ^ size - 1) * 2 ^ (ea.toNat % 64))) 3 m := by
  subst he
  obtain ⟨-, -, hout, -⟩ := id h
  rw [store, issue_ready s r _ _ h (by simp) (by simp)]
  simp only [addressCauses_device hs ha hb ho, checked, hs, mayLaunch_of_none_outstanding _ _ hout]
  rfl

variable {v : Fin 16} {op : Fin 4} {i : BitVec 16} {p : Operand} {x : Nat}

/-- The line loads and stores of a nib core act on the line of the operand that they name. -/
theorem vldl_vstl_ready (h : Ready s r 2) (hk : 8 ≤ r.core.val)
    (hp : ((core s r.core).item.bind (itemAt s)).bind (fun x => x.operands[op.val]?) = some p)
    (hx : x = ((core s r.core).w a + i.signExtend 64 * 64).toNat) (ha : x % 64 = 0) (hl : x < 64 * p.lines)
    (he : ea = BitVec.ofNat 64 (2 ^ 63 + p.addr + x)) :
    exec (.vldl r v a op i) s = .next (deviceRead s r.core 2 ea (.vector (some v))) ∧
    exec (.vstl r v a op i) s = .next (deviceWrite s r.core 2 ea ((core s r.core).v v) (BitVec.allOnes 64) 2 {}) := by
  subst hx he
  obtain ⟨-, -, hout, -⟩ := id h
  have hline := operandLine_inside hp ha hl
  constructor
  · show execVldl r v a op i s = _
    rw [execVldl, issue_ready s r _ _ h (by simp) fun _ => hk]
    simp only [sext, hline, checked, mayLaunch_of_none_outstanding _ _ hout]
    rfl
  · show execVstl r v a op i s = _
    rw [execVstl, issue_ready s r _ _ h (by simp) fun _ => hk]
    simp only [sext, hline, checked, mayLaunch_of_none_outstanding _ _ hout]
    rfl

end

/-! ### Coming back -/

section
variable {s : State} {k : Fin 264}

theorem deviceLoadReturn_answered {a : CoreAccess} {v : BitVec 512} (h : answered s k false = some (a, v)) :
    exec (.deviceLoadReturn k) s = .next (settle (dropAccess (deliver s k a v) k a.slot) k) := by
  show execDeviceLoadReturn k s = _
  rw [execDeviceLoadReturn, h]

theorem deviceLoadReturn_unanswered (h : answered s k false = none) : exec (.deviceLoadReturn k) s = .next s := by
  show execDeviceLoadReturn k s = _
  rw [execDeviceLoadReturn, h]

theorem deviceStorePerformed_answered {a : CoreAccess} {v : BitVec 512} (h : answered s k true = some (a, v)) :
    exec (.deviceStorePerformed k) s = .next (settle (dropAccess s k a.slot) k) := by
  show execDeviceStorePerformed k s = _
  rw [execDeviceStorePerformed, h]

theorem deviceStorePerformed_unanswered (h : answered s k true = none) : exec (.deviceStorePerformed k) s = .next s := by
  show execDeviceStorePerformed k s = _
  rw [execDeviceStorePerformed, h]

end

theorem settle_outstanding {s : State} {k : Nat} (h : (core s k).outstanding ≠ []) : settle s k = s := by
  simp [settle, h]

section
variable {s : State} {k : Nat} (h : (core s k).outstanding = [])
include h

theorem settle_fence (hw : (core s k).wait = some .fence) :
    settle s k = advance (setCore s k { core s k with wait := none }) k 1 := by
  simp only [settle, h, hw, List.isEmpty_nil, Bool.not_true, Bool.false_eq_true, if_false, modCore]

theorem settle_itemEnd (hw : (core s k).wait = some .itemEnd) : settle s k = endCore s k csSuccess 0 ((core s k).w 1).toNat := by
  simp only [settle, h, hw, List.isEmpty_nil, Bool.not_true, Bool.false_eq_true, if_false]

end

theorem settle_of_no_wait {s : State} {k : Nat} (hw : (core s k).wait = none) : settle s k = s := by
  simp only [settle, hw, ite_self]

/-- A core that runs takes the fault of its oldest failed access, unless its program ends or was stopped. -/
theorem impreciseFault_running {s : State} {k : Fin 264} {a : CoreAccess} {cause : Nat} (hrun : (core s k).running = true)
    (hwait : (core s k).wait = none ∨ (core s k).wait = some .fence) (hpc : k.val < 8 ∨ (core s k).pc ≠ completionAddress)
    (hf : failedAccess s k = some (a, cause)) :
    exec (.impreciseFault k) s = .next (raiseTrap (modCore (dropAccess s k a.slot) k fun c => { c with wait := none }) k
      { cause := cause, access := a.kind.access, faddr := a.addr, imprecise := true, epc := a.pc }) := by
  have hdone : (decide (8 ≤ k.val) && (core s k).pc == completionAddress) = false := by
    obtain hk | hp := hpc
    · rw [decide_eq_false (Nat.not_le.2 hk), Bool.false_and]
    · rw [beq_eq_false_iff_ne.2 hp, Bool.and_false]
  show execImpreciseFault k s = _
  obtain hw | hw := hwait <;> simp only [execImpreciseFault, hf, hw, hrun, hdone] <;> rfl

/-! ### The obligation -/

/-- Settles O35: what leaves a core with nothing outstanding, and what each answer brings. -/
theorem outstandingAccessesDeliverAndFault : Obligations.OutstandingAccessesDeliverAndFault := by
  refine ⟨?_, ?_, fun s k => ⟨fun a v => deviceLoadReturn_answered, deviceLoadReturn_unanswered,
    fun a v => deviceStorePerformed_answered, deviceStorePerformed_unanswered⟩, ?_, ?_⟩
  · rintro s r c d a i ea rfl h he ha
    exact ⟨fun hk hs hl u hu => congrArg _ (load_work h he ha hk hs hl hu),
      fun hs hb ho => ⟨congrArg _ (load_device h he ha hs hb ho), fun m => congrArg _ (store_device h he ha hs hb ho)⟩⟩
  · rintro s r c v a op i p x ea rfl h hk hp hx ha hl he
    exact vldl_vstl_ready h hk hp hx ha hl he
  · rintro s k c rfl
    exact ⟨settle_outstanding, settle_fence, settle_itemEnd, fun _ => settle_of_no_wait⟩
  · rintro s u k c a cause rfl hrun hwait hpc hf hc rfl he ht
    have hcleared := core_setCore (dropAccess s k a.slot) k { core (dropAccess s k a.slot) k with wait := none }
    rw [impreciseFault_running hrun hwait hpc hf, modCore, raiseTrap_handled hc (by rw [hcleared]; exact he) (by rw [hcleared]; exact ht),
      hcleared]

end Sys2Proof.Machine
end

section
/-! One step: the front command, and the canonical forms of the desk and the media (log entries 5 to 9). -/

namespace Sys2Proof.Machine

theorem step_cons {s : State} {c : Instr} {rest : List Instr} (h : s.pending = c :: rest) :
    step s = exec c { s with pending := rest } := by
  rw [step, h]

theorem step_nil {s : State} (h : s.pending = []) : step s = .next s := by
  rw [step, h]

/-- Settles O3: a step looks at the queue alone. -/
theorem stepRunsTheFrontCommand : Obligations.StepRunsTheFrontCommand :=
  ⟨fun _ _ _ => step_cons, fun _ => step_nil⟩

/-- A step that goes on either waits for a command or ends as its front command does. -/
theorem step_next {s t : State} (h : step s = .next t) : t = s ∨ ∃ rest, Kept { s with pending := rest } t := by
  cases hp : s.pending with
  | nil =>
    rw [step_nil hp] at h
    exact .inl (Host.Outcome.next.inj h).symm
  | cons c rest =>
    obtain ⟨u, hu, hk⟩ := exec_ends c { s with pending := rest }
    rw [step_cons hp, hu] at h
    exact .inr ⟨rest, Host.Outcome.next.inj h ▸ hk⟩

/-- Settles O5: the queue is in neither form, and every command keeps both. -/
theorem everyStepKeepsTheCanonicalForms : Obligations.EveryStepKeepsTheCanonicalForms := by
  intro s t hdesk hmedia h
  obtain rfl | ⟨rest, hk⟩ := step_next h
  · exact ⟨hdesk, hmedia⟩
  · exact ⟨hk.desk hdesk, hk.media hmedia⟩

end Sys2Proof.Machine
end

section
/-! Ruled time, events and messages of a core (R343 to R347, R353). -/

namespace Sys2Proof.Machine

section
variable {s : State} {r : CoreRun} (d a : Fin 32)

/-! ### Waits -/

theorem rtWaitl_ready {u : State} (h : Ready s r 1) (hu : u = advance s r.core 1) : exec (.rtWaitl r a) s = .next (
    if ((core s r.core).w a).toNat ≤ u.ruling.line then u else block u r.core (.line ((core s r.core).w a))) := by
  subst hu
  exact next_congr (issue_ready s r { reads := [a.val] } _ h (by simp) (by simp))

theorem rtWaitt_ready {v : State} {tick : Fin 1024} (h : Ready s r 1) (hv : v = (advance s r.core 1).passed tick) :
    exec (.rtWaitt r a tick) s = .next (if ((core s r.core).w a).toNat ≤ (ruledTime v v.ruling.tick).toNat then v
      else block v r.core (.time ((core s r.core).w a))) := by
  subst hv
  exact next_congr (issue_ready s r { reads := [a.val] } _ h (by simp) (by simp))

/-! ### Slots -/

section
variable {n : Nat} (hk : r.core.val < 8) (h : Ready s r 1) (hn : n = ((core s r.core).w d).toNat % 64)
include hk h hn

theorem rtArm_ready : exec (.rtArm r d a) s = .next (if slotGranted s r.core n then
    advance (writeEventCtrl (writeEventTime (writeEventCtrl s n 0) n ((core s r.core).w a)) n
      (BitVec.ofNat 64 (2 ^ (8 + r.core.val) + 1))) r.core 1 else fault s r.core 8) := by
  subst hn
  refine next_congr ((issue_ready s r { scribeOnly := true, reads := [a.val, d.val] } _ h (fun _ => hk) (by simp)).trans ?_)
  exact ite_eq_ite_of_iff_not (by simp)

theorem rtDisarm_ready : exec (.rtDisarm r d) s = .next (if slotGranted s r.core n then
    advance (writeEventCtrl s n (BitVec.ofNat 64 (s.get (RUL_EVENT_CTRL_WAKE n) * 256
      + s.get (RUL_EVENT_CTRL_WRITE n) * 8 + s.get (RUL_EVENT_CTRL_PERIODIC n) * 4))) r.core 1 else fault s r.core 8) := by
  subst hn
  refine next_congr ((issue_ready s r { scribeOnly := true, reads := [d.val] } _ h (fun _ => hk) (by simp)).trans ?_)
  exact ite_eq_ite_of_iff_not (by simp)

end

/-! ### Events -/

section
variable (hk : r.core.val < 8) (h : Ready s r 1)
include hk h

theorem evtWait_evtPoll_taken {u : State} {e : BitVec 64} (hx : takeEvent s r.core ((core s r.core).w a) = some (u, e)) :
    exec (.evtWait r d a) s = .next (advance u r.core 1 fun z => z.setW d e) ∧
    exec (.evtPoll r d a) s = .next (advance u r.core 1 fun z => z.setW d e) := by
  refine ⟨next_congr ((issue_ready s r { scribeOnly := true, reads := [a.val] } _ h (fun _ => hk) (by simp)).trans ?_),
    next_congr ((issue_ready s r { scribeOnly := true, reads := [a.val] } _ h (fun _ => hk) (by simp)).trans ?_)⟩ <;>
  simp only [hx]

theorem evtWait_evtPoll_none (hx : takeEvent s r.core ((core s r.core).w a) = none) :
    exec (.evtWait r d a) s = .next (block (advance s r.core 1) r.core (.event d ((core s r.core).w a))) ∧
    exec (.evtPoll r d a) s = .next (advance s r.core 1 fun z => z.setW d 0) := by
  refine ⟨next_congr ((issue_ready s r { scribeOnly := true, reads := [a.val] } _ h (fun _ => hk) (by simp)).trans ?_),
    next_congr ((issue_ready s r { scribeOnly := true, reads := [a.val] } _ h (fun _ => hk) (by simp)).trans ?_)⟩ <;>
  simp only [hx]

theorem evtBeat_ready : exec (.evtBeat r) s =
    .next (advance (modRubric s r.core fun r => { r with beat := true }) r.core 1) :=
  next_congr (issue_ready s r { scribeOnly := true } _ h (fun _ => hk) (by simp))

end

/-! ### Messages -/

/-- Sixty-four bytes inside the 256 KiB at a multiple of 8 have no fault. -/
theorem localCauses_body {ea : Nat} (ha : ea % 8 = 0) (hl : ea + 64 ≤ 2 ^ 18) : localCauses ea 64 8 = [] := by
  have hin : ¬ localSize < ea + 64 := by simp only [localSize]; omega
  simp [localCauses, ha, hin]

section
variable (h : Ready s r 1) (ha : ((core s r.core).w a).toNat % 8 = 0) (hl : ((core s r.core).w a).toNat + 64 ≤ 2 ^ 18)
include h ha hl

theorem evtPost_ready {p : State × Nat} (hd : r.data = .clean)
    (hp : p = post s r.core ((core s r.core).w d).toNat (bytesAt (core s r.core).mem ((core s r.core).w a).toNat 64)) :
    exec (.evtPost r d a) s = .next (advance p.1 r.core 1 fun z => z.setW d (statusWord p.2 0)) := by
  subst hp
  refine next_congr ((issue_ready s r { reads := [a.val, d.val], access := true } _ h (by simp) (by simp)).trans ?_)
  simp only [localCauses_body ha hl, checked, hd, eccCorrected_clean, reduceCtorEq, if_false]

section
variable (hk : r.core.val < 8)
include hk

theorem evtRecv_none (hm : (rubricAt s r.core).bind (fun r => r.inbox.head?) = none) :
    exec (.evtRecv r d a) s = .next (advance s r.core 1 fun z => z.setW d 0) := by
  refine next_congr ((issue_ready s r { scribeOnly := true, reads := [a.val], access := true } _ h (fun _ => hk) (by simp)).trans ?_)
  simp only [localCauses_body ha hl, checked, hm]

theorem evtRecv_oldest {y : Message} (hm : (rubricAt s r.core).bind (fun r => r.inbox.head?) = some y) :
    exec (.evtRecv r d a) s = .next (advance (modRubric s r.core fun r => { r with inbox := r.inbox.drop 1 }) r.core 1 fun z =>
      CoreState.setW { z with mem := putBytes z.mem ((core s r.core).w a).toNat (leBytes 64 y.body.toNat) } d
        (BitVec.ofNat 64 (2 ^ 63 + y.kind * 2 ^ 16 + y.source))) := by
  refine next_congr ((issue_ready s r { scribeOnly := true, reads := [a.val], access := true } _ h (fun _ => hk) (by simp)).trans ?_)
  simp only [localCauses_body ha hl, checked, hm]

end

end

end

/-! ### Going on -/

section
variable {s : State} {k : Fin 264}

theorem waitResume_line {t : BitVec 64} (tick : Fin 1024) (h : (core s k).wait = some (.line t)) :
    exec (.waitResume k tick) s = .next (if t.toNat ≤ s.ruling.line then unblock s k else s) := by
  show execWaitResume k tick s = _
  simp only [execWaitResume, h]

theorem waitResume_time {t : BitVec 64} {v : State} {tick : Fin 1024} (h : (core s k).wait = some (.time t)) (hv : v = s.passed tick) :
    exec (.waitResume k tick) s = .next (if t.toNat ≤ (ruledTime v v.ruling.tick).toNat then unblock v k else v) := by
  subst hv
  show execWaitResume k tick s = _
  simp only [execWaitResume, h]

theorem waitResume_event_none {d : Nat} {m : BitVec 64} (tick : Fin 1024) (h : (core s k).wait = some (.event d m))
    (hx : takeEvent s k m = none) : exec (.waitResume k tick) s = .next s := by
  show execWaitResume k tick s = _
  simp only [execWaitResume, h, hx]

theorem waitResume_event_taken {d : Nat} {m e : BitVec 64} {u : State} (tick : Fin 1024) (h : (core s k).wait = some (.event d m))
    (hx : takeEvent s k m = some (u, e)) : exec (.waitResume k tick) s = .next (setReg (unblock u k) k d e) := by
  show execWaitResume k tick s = _
  simp only [execWaitResume, h, hx]

theorem waitResume_running (tick : Fin 1024) (h : (core s k).wait = none) : exec (.waitResume k tick) s = .next s := by
  show execWaitResume k tick s = _
  simp only [execWaitResume, h]

end

/-- Settles O40, from what each instruction does on a ready core and what each wait takes to end. -/
theorem ruledTimeAndEventsOfACore : Obligations.RuledTimeAndEventsOfACore := by
  constructor
  · rintro s r c d a tick rfl h
    refine ⟨next_congr (issue_ready s r {} _ h (by simp) (by simp)), ?_, ?_, ?_, fun hk => evtBeat_ready hk h, ?_⟩
    · exact fun u hu => ⟨rtWaitl_ready a h hu, fun v hv => rtWaitt_ready a h (hu ▸ hv)⟩
    · intro hk n hn
      rw [rtArm_ready d a hk h hn, rtDisarm_ready d hk h hn]
      exact ⟨fun hg => by simp only [hg, if_true, and_self], fun hg => by simp only [hg, Bool.false_eq_true, if_false, and_self]⟩
    · rintro hk x rfl
      exact ⟨fun u e => evtWait_evtPoll_taken d a hk h, evtWait_evtPoll_none d a hk h⟩
    · refine fun ha hl => ⟨fun hd p => evtPost_ready d a h ha hl hd, ?_⟩
      rintro hk m rfl
      exact ⟨evtRecv_none d a h ha hl hk, fun y => evtRecv_oldest d a h ha hl hk⟩
  · exact fun s k tick => ⟨fun t => waitResume_line tick, fun t v => waitResume_time, ⟨rfl, rfl⟩,
      fun d m h => ⟨waitResume_event_none tick h, fun u e => waitResume_event_taken tick h⟩, waitResume_running tick⟩

end Sys2Proof.Machine
end

section
/-! Rubrics on their Scribes: heartbeats, failures, takeovers and handovers (R353 to R357). -/

namespace Sys2Proof.Machine

section
variable {s : State}

/-! ### The heartbeat (R353) -/

theorem heartbeatCheck_not_due (h : s.lineInFolio ≠ 0 ∨ s.on MBX_CTRL_HEARTBEAT = false ∨ s.fatal = true) :
    exec .heartbeatCheck s = .next s :=
  congrArg _ (if_pos (by simpa [or_assoc] using h))

/-- What the check finds on a Scribe: a rubric that has run for a whole folio. -/
def heartbeatDue (s : State) (k : Nat) : Option (Nat × Rubric) :=
  match rubricAt s k with
  | some r => if s.get (MBX_SCRIBE_STATE k) = 1 ∧ r.started + 1024 ≤ s.ruling.gen then some (k, r) else none
  | none => none

theorem heartbeatDue_none {k : Nat} (h : rubricAt s k = none) : heartbeatDue s k = none := by
  simp only [heartbeatDue, h]

/-- A function that has a value at one number alone gives that value of a range. -/
theorem filterMap_range_single {α : Type} {f : Nat → Option α} {k n : Nat} {x : α} (hk : k < n) (hx : f k = some x)
    (hnone : ∀ j, j < n → j ≠ k → f j = none) : (List.range n).filterMap f = [x] := by
  obtain ⟨m, rfl⟩ := Nat.exists_eq_add_of_lt hk
  have hbelow : (List.range k).filterMap f = [] :=
    List.filterMap_eq_nil_iff.2 fun j hj => hnone j (by have := List.mem_range.1 hj; omega) (List.mem_range.1 hj).ne
  have habove : (List.range m).filterMap (fun i => f (k + (i + 1))) = [] :=
    List.filterMap_eq_nil_iff.2 fun i hi => hnone _ (by have := List.mem_range.1 hi; omega) (by omega)
  rw [Nat.add_assoc, List.range_add, List.range_succ_eq_map, List.filterMap_append, hbelow]
  simp [List.filterMap_map, Function.comp_def, hx, habove]

theorem heartbeatCheck_only {k : Nat} {r : Rubric} (hline : s.lineInFolio = 0) (hon : s.on MBX_CTRL_HEARTBEAT = true)
    (hfatal : s.fatal = false) (hk : k < 8) (hr : rubricAt s k = some r) (hstate : s.get (MBX_SCRIBE_STATE k) = 1)
    (hrun : r.started + 1024 ≤ s.ruling.gen) (honly : ∀ j, j < 8 → j ≠ k → rubricAt s j = none) :
    exec .heartbeatCheck s = .next (if r.beat = true ∨ s.on (MBX_SCRIBE_BLOCKED k) = true
      then setRubric s r.handle { r with beat := false } else restartRubric (event s 0xB1 (404 + k) r.handle) r.handle) := by
  have hdue : (List.range 8).filterMap (heartbeatDue s) = [(k, r)] := by
    refine filterMap_range_single hk ?_ fun j hj hne => heartbeatDue_none (honly j hj hne)
    simp only [heartbeatDue, hr, hstate, hrun, and_self, if_true]
  have hcheck : exec .heartbeatCheck s = .next (((List.range 8).filterMap (heartbeatDue s)).foldl
      (fun s (k, r) => if r.beat || s.on (MBX_SCRIBE_BLOCKED k) then setRubric s r.handle { r with beat := false }
        else restartRubric (event s 0xB1 (404 + k) r.handle) r.handle) s) :=
    congrArg _ (if_neg (by simp [hline, hon, hfatal]))
  rw [hcheck, hdue]
  exact congrArg _ (if_congr (by simp) rfl rfl)

/-! ### Restarts (R354) -/

section
variable {h k : Nat} {r : Rubric} (hr : Tab.find s.rubrics h = some r) (hk : scribeOf s h = some k)
include hr hk

theorem restartRubric_fourth (hmany : 3 ≤ (recentRestarts s r).length) : restartRubric s h = stopRubric s h := by
  simp only [restartRubric, hr, hk, hmany, if_true]

theorem restartRubric_again (hfew : (recentRestarts s r).length < 3) : restartRubric s h = tellMoved (startRubric
    (setRubric s h { r with restarts := s.folio :: recentRestarts s r }) k h) h k := by
  simp only [restartRubric, hr, hk, if_neg (Nat.not_le.2 hfew)]

end

/-! ### Failures and takeovers (R355) -/

theorem scribeFault_failed {k : Fin 8} (h : s.get (MBX_SCRIBE_STATE k) = 3) : exec (.scribeFault k) s = .next s :=
  congrArg _ (if_pos h)

section
variable {k : Fin 8} {u : State} (h : s.get (MBX_SCRIBE_STATE k) ≠ 3)
  (hu : u = haltCore (((event s 0xB2 (404 + k) (s.get (MBX_SCRIBE_HANDLE k))).put (MBX_SCRIBE_STATE k) 3).put
    (MBX_SCRIBE_BLOCKED k) 0) k)
include h hu

theorem scribeFault_empty (hr : Tab.find u.rubrics (s.get (MBX_SCRIBE_HANDLE k)) = none) :
    exec (.scribeFault k) s = .next (syncLoader u) := by
  subst hu
  show Host.Outcome.next (scribeFault s k) = _
  rw [scribeFault, if_neg h]
  simp only [hr]

theorem scribeFault_none_free {r : Rubric} (hr : Tab.find u.rubrics (s.get (MBX_SCRIBE_HANDLE k)) = some r)
    (hfree : freeScribe u = none) : exec (.scribeFault k) s = .next (stopRubric u (s.get (MBX_SCRIBE_HANDLE k))) := by
  subst hu
  show Host.Outcome.next (scribeFault s k) = _
  rw [scribeFault, if_neg h]
  simp only [hr, hfree]

theorem scribeFault_moved {r : Rubric} {j : Nat} {w : State} (hr : Tab.find u.rubrics (s.get (MBX_SCRIBE_HANDLE k)) = some r)
    (hfree : freeScribe u = some j) (hw : w = seat (unseat u k) j r 2) : exec (.scribeFault k) s = .next (syncLoader
      { w with scribes := { w.scribes with takeover := (w.scribes.takeover.filter fun x =>
        x.1 != s.get (MBX_SCRIBE_HANDLE k)) ++ [(s.get (MBX_SCRIBE_HANDLE k), j)] } }) := by
  subst hu hw
  show Host.Outcome.next (scribeFault s k) = _
  rw [scribeFault, if_neg h]
  simp only [hr, hfree]

end

theorem takeoverCopyComplete_idle (h : s.scribes.takeover = []) : exec .takeoverCopyComplete s = .next s := by
  show execTakeoverCopyComplete s = _
  rw [execTakeoverCopyComplete, h]

theorem takeoverCopyComplete_oldest {h k : Nat} {l : List (Nat × Nat)} (hl : s.scribes.takeover = (h, k) :: l) :
    exec .takeoverCopyComplete s =
      .next (tellMoved (startRubric { s with scribes := { s.scribes with takeover := l } } k h) h k) := by
  show execTakeoverCopyComplete s = _
  rw [execTakeoverCopyComplete, hl]

/-! ### Handovers (R357) -/

theorem rubricHandover_other_line (h : s.lineInFolio ≠ 0) : exec .rubricHandover s = .next s :=
  congrArg _ (if_pos h)

/-- A committed rubric whose role no other rubric has starts on its Scribe, in no rubric's place. -/
theorem rubricHandover_new_role {h k : Nat} {r : Rubric} {u : State} (hline : s.lineInFolio = 0)
    (hdue : s.scribes.handover = [(h, k)]) (hr : Tab.find s.rubrics h = some r)
    (hrole : ∀ x ∈ s.rubrics, x.1 ≠ h → x.2.role ≠ r.role) (hu : u = { s with scribes := { s.scribes with handover := [] } }) :
    exec .rubricHandover s = .next (startRubric (setRubric u h { r with overBase := false }) k h) := by
  have hold : (s.rubrics.filter fun (q, o) => q != h && o.role == r.role && !o.stopped) = [] := by
    refine List.filter_eq_nil_iff.2 fun x hx => ?_
    simp only [Bool.and_eq_true, bne_iff_ne, beq_iff_eq, not_and]
    exact fun hall => absurd hall.2 (hrole x hx hall.1)
  subst hu
  show execRubricHandover s = _
  rw [execRubricHandover, if_neg (by simp [hline]), hdue]
  simp only [State.each_cons, State.each_nil, hr, hold, List.any_nil]

theorem startRubric_runs {u v : State} {k h : Nat} {r : Rubric} (hr : Tab.find s.rubrics h = some r)
    (hv : v = seat (setRubric s h { r with started := s.ruling.gen, beat := false, stopped := false }) k
      { r with started := s.ruling.gen, beat := false, stopped := false } 1)
    (hu : u = if r.role = 1 then armEpochSlot v else v) :
    startRubric s k h = syncLoader (setCore u k {
      running := true, pc := BitVec.ofNat 64 r.entry.toNat, code := r.code
      nextSlot := (core u k).nextSlot, fetchFolio := (core u k).fetchFolio
      regs := Tab.put (Tab.put (Tab.put [] 1 (BitVec.ofNat 64 h) 0) 2 (BitVec.ofNat 64 (r.units * 2 ^ 21)) 0) 3
        (BitVec.ofNat 64 (recentRestarts u r).length) 0
      mem := putBytes [] 0 r.data }) := by
  subst hu hv
  rw [startRubric, hr]
  rfl

end

/-- Settles O42, row by row. -/
theorem rubricsRestartMoveAndHandOver : Obligations.RubricsRestartMoveAndHandOver :=
  ⟨fun _ => heartbeatCheck_not_due, fun _ _ _ => heartbeatCheck_only,
    fun _ _ _ _ hr hk => ⟨restartRubric_fourth hr hk, restartRubric_again hr hk⟩,
    fun _ _ => ⟨scribeFault_failed, fun h _ hu => ⟨scribeFault_empty h hu, fun _ hr =>
      ⟨scribeFault_none_free h hu hr, fun _ _ => scribeFault_moved h hu hr⟩⟩⟩,
    fun _ => ⟨takeoverCopyComplete_idle, fun _ _ _ => takeoverCopyComplete_oldest⟩,
    fun _ => ⟨rubricHandover_other_line, fun _ _ _ _ => rubricHandover_new_role⟩, fun _ => rfl,
    fun _ _ _ _ _ _ => startRubric_runs⟩

end Sys2Proof.Machine
end

section
/-! The host mailbox (R345, R346, R358 to R360, Tables 11-8 to 11-10). -/

namespace Sys2Proof.Machine

section
variable {s : State} {n : Fin 4096}

/-! ### What a host writes (R358) -/

theorem mailboxDoorbell_unreached (v : BitVec 32) (h : boxReached s n = false) : exec (.mailboxDoorbell n v) s = .next s :=
  congrArg _ (if_pos (by rw [h]; rfl))

theorem mailboxDoorbell_reached {v : BitVec 32} {u : State} (h : boxReached s n = true) (hu : u = boxPut (linkActivity s) n 4
      [BitVec.ofNat 8 (v.toNat % 8 / 2 * 2 + b2n (doorbell (linkActivity s) n || v.getLsbD 0))]) :
    exec (.mailboxDoorbell n v) s =
      .next (if doorbell (linkActivity s) n = true ∨ v.getLsbD 0 = false then u else submitBox u n) := by
  subst hu
  show execMailboxDoorbell n v s = _
  rw [execMailboxDoorbell, h, if_neg (by simp)]
  exact congrArg _ (if_congr (by simp) rfl rfl)

section
variable {u : State} {o : BitVec 16} {l : List (BitVec 8)} (h : boxReached s n = true) (hu : u = linkActivity s)
include h hu

theorem mailboxAreaWrite_command_or_payload
    (ho : 8 ≤ o.toNat ∧ o.toNat + l.length ≤ 16 ∨ 0x1000 ≤ o.toNat ∧ o.toNat + l.length ≤ 0x10000) :
    exec (.mailboxAreaWrite n o l) s =
      .next (if doorbell u n = true then notice u (320 + boxPort n) else boxPut u n o.toNat l) := by
  subst hu
  show execMailboxAreaWrite n o l s = _
  simp only [execMailboxAreaWrite, h]
  rw [if_neg (by simp), if_pos (by simpa using ho)]

theorem mailboxAreaWrite_asyncHead (ho : o.toNat = 0x20) (hl : l.length = 4) (hlt : leNat l < 32) :
    exec (.mailboxAreaWrite n o l) s = .next (boxPut u n 0x20 l) := by
  subst hu
  show execMailboxAreaWrite n o l s = _
  simp only [execMailboxAreaWrite, h, ho, hl]
  rw [if_neg (by simp), if_neg (by simp), if_neg (by simp), if_pos (by simp), if_pos hlt]

end

theorem mailboxTimeout_submitted {f : Nat} (h : (box s n).since = some f) : exec (.mailboxTimeout n) s =
    .next (if doorbell s n = true ∧ f + 64 ≤ s.folio then finish s n 9 0 [] else s) := by
  show execMailboxTimeout n s = _
  rw [execMailboxTimeout, h]
  rfl

/-! ### Serving -/

/-- A mailbox without the command under way, or whose handler does not run, is left as it is. -/
theorem serve_not_due {op : Nat} {ready : Bool} (f : State → List (BitVec 8) → State × Served)
    (h : doorbell s n = false ∨ boxOpcode s n ≠ op ∨ ready = false ∨ s.fatal = true) : serve s n op ready f = s := by
  rw [serve, if_pos]
  obtain h | h | h | h := h <;> simp [h]

theorem getInfo_served (h : Serving s n 1) (hr : loaderReady s = true) : exec (.getInfo n) s = .next (finish s n 0 0
    (leBytes 2 1 ++ leBytes 2 (variantCode s.variant) ++ leBytes 2 ((List.range 8).filter fun k =>
      s.get (MBX_SCRIBE_STATE k) == 1).length ++ leBytes 2 0)) :=
  congrArg _ (serve_serving s n _ _ _ h hr)

/-! ### Loads (R357) -/

theorem loadBegin_opened (kernel : Bool) {p : List (BitVec 8)} (hzero : field p 4 4 = 0) (hlen : 3988 ≤ field p 0 4)
    (hp : 8 ≤ p.length) (hroom : s.scribes.sessions.length < 65536) : loadBegin kernel s p =
      ((openSession s kernel (field p 0 4)).1, { resp := leBytes 2 (openSession s kernel (field p 0 4)).2 }) := by
  rw [loadBegin, if_neg (by simp [hzero]; omega), if_neg (by omega)]

theorem loadChunk_stored {kernel : Bool} {p : List (BitVec 8)} {x : LoadSession}
    (hx : Tab.find s.scribes.sessions (field p 0 2) = some x) (hk : x.kernel = kernel) (hp : 8 ≤ p.length)
    (hzero : field p 2 2 = 0) (hfits : field p 4 4 + (p.drop 8).length ≤ x.length) :
    loadChunk kernel s p = ({ s with scribes := { s.scribes with
      sessions := Tab.set s.scribes.sessions (field p 0 2)
        { x with bytes := putBytes x.bytes (field p 4 4) (p.drop 8) } } }, {}) := by
  have hsession : (some x).filter (fun y => y.kernel == kernel) = some x := by simp [hk]
  simp only [loadChunk, hx, hsession]
  rw [if_neg (by simp only [Bool.or_eq_true, decide_eq_true_eq]; omega)]

section
variable {p : List (BitVec 8)} (hp : p = payload s n)
include hp

theorem rubricLoadBegin_opened {x : State × Nat} (h : Serving s n 0x11) (hr : loaderReady s = true) (hzero : field p 4 4 = 0)
    (hlen : 3988 ≤ field p 0 4) (hsize : 8 ≤ p.length) (hroom : s.scribes.sessions.length < 65536)
    (hx : x = openSession s false (field p 0 4)) : exec (.rubricLoadBegin n) s = .next (finish x.1 n 0 0 (leBytes 2 x.2)) := by
  subst hx
  show execRubricLoadBegin n s = _
  rw [execRubricLoadBegin, serve_serving s n _ _ _ h hr, ← hp, loadBegin_opened false hzero hlen hsize hroom]

theorem rubricLoadChunk_stored {x : LoadSession} (h : Serving s n 0x12) (hr : loaderReady s = true)
    (hx : Tab.find s.scribes.sessions (field p 0 2) = some x) (hk : x.kernel = false) (hsize : 8 ≤ p.length)
    (hzero : field p 2 2 = 0) (hfits : field p 4 4 + (p.drop 8).length ≤ x.length) :
    exec (.rubricLoadChunk n) s = .next (finish { s with scribes := { s.scribes with
      sessions := Tab.set s.scribes.sessions (field p 0 2)
        { x with bytes := putBytes x.bytes (field p 4 4) (p.drop 8) } } } n 0 0 []) := by
  show execRubricLoadChunk n s = _
  rw [execRubricLoadChunk, serve_serving s n _ _ _ h hr, ← hp, loadChunk_stored hx hk hsize hzero hfits]

/-- An image that is refused without an event: INVALID, NOSPACE or CONFLICT (Table 11-10). -/
theorem rubricLoadCommit_refused {e : Nat} {x : LoadSession} (h : Serving s n 0x13) (hr : loaderReady s = true)
    (hx : Tab.find s.scribes.sessions (field p 0 2) = some x) (hk : x.kernel = false)
    (hj : judgeRubric (closeSession s (field p 0 2)) (bytesAt x.bytes 0 x.length) = .inl e) (he : e = 2 ∨ e = 7 ∨ e = 10) :
    exec (.rubricLoadCommit n) s = .next (finish (closeSession s (field p 0 2)) n e 0 []) := by
  rw [rubricLoadCommit_judged h hr hp hx hk rfl rfl fun _ => rfl, hj]
  simp only
  rw [if_neg (by omega)]

theorem rubricStop_found {r : Rubric} (h : Serving s n 0x14) (hr : loaderReady s = true)
    (hf : Tab.find s.rubrics (field p 0 2) = some r) :
    exec (.rubricStop n) s = .next (if r.base = true then finish s n 2 0 [] else
      finish (if r.role = 0 then dropRubric s (field p 0 2) else stopRubric s (field p 0 2)) n 0 0 []) := by
  show execRubricStop n s = _
  rw [execRubricStop, serve_serving s n _ _ _ h hr, ← hp]
  simp only [hf]
  cases r.base <;> rfl

/-! ### Commands of the management rubric, and messages -/

theorem resealGetChallenge_given (h : Serving s n 0x70) (hr : (managementReady s && baseRuns s 4) = true) (hsize : 8 ≤ p.length)
    (hzero : field p 3 1 = 0) :
    exec (.resealGetChallenge n) s = .next (finish s n 0 0 (leBytes 8 s.sealing.challenge.toNat)) := by
  show execResealGetChallenge n s = _
  rw [execResealGetChallenge, serve_serving s n _ _ _ h hr, ← hp, if_neg (by simp [hzero]; omega)]

section
variable (h : Serving s n 0x20) (hsize : 4 ≤ p.length) (hzero : field p 2 2 = 0)
include h hsize hzero

theorem rubricMessage_unknown (hrun : runningRubric s (field p 0 2) = false) :
    exec (.rubricMessage n) s = .next (finish s n 8 0 []) := by
  obtain ⟨hbell, hsince, htoken, hop, hfatal⟩ := h
  subst hp
  refine congrArg _ ((if_neg ?_).trans ((if_neg ?_).trans (if_pos ?_)))
  · simp [hbell, htoken, hop, hfatal, Option.isSome_iff_ne_none.1 hsince]
  · simp [hzero]; omega
  · simp [hrun]

theorem rubricMessage_taken {t : Nat} {u : State} (hrun : runningRubric s (field p 0 2) = true)
    (ht : t = unused (s.freeNow.toNat % 65536) (s.scribes.boxes.filterMap fun (_, b) => b.token))
    (hu : toInbox s.drew (field p 0 2) { kind := 1, source := t, body := BitVec.ofNat 512 (field p 4 64) } = (u, true)) :
    exec (.rubricMessage n) s = .next (setBox u n { box u n with token := some t }) := by
  obtain ⟨hbell, hsince, htoken, hop, hfatal⟩ := h
  subst hp ht
  refine congrArg _ ((if_neg ?_).trans ((if_neg ?_).trans ((if_neg ?_).trans ?_)))
  · simp [hbell, htoken, hop, hfatal, Option.isSome_iff_ne_none.1 hsince]
  · simp [hzero]; omega
  · simp [hrun]
  · simp only [hu]

end

end

end

/-- Settles O43, row by row. -/
theorem mailboxCommandsAreServedOnce : Obligations.MailboxCommandsAreServedOnce := by
  refine ⟨fun s n v => ⟨mailboxDoorbell_unreached v, fun h u => mailboxDoorbell_reached h⟩,
    fun s u n o l h hu => ⟨mailboxAreaWrite_command_or_payload h hu, mailboxAreaWrite_asyncHead h hu⟩,
    fun s n f => mailboxTimeout_submitted, fun _ _ => rfl, fun s n => getInfo_served, ?_, ?_⟩
  · intro s n op i ready hmem hidle
    have idle {op : Nat} {ready : Bool} {f : State → List (BitVec 8) → State × Served}
        (h : doorbell s n = false ∨ boxOpcode s n ≠ op ∨ ready = false ∨ s.fatal = true) :=
      next_congr (serve_not_due f h)
    simp only [List.mem_cons, Prod.mk.injEq, List.not_mem_nil, or_false] at hmem
    obtain ⟨rfl, rfl, rfl⟩ | ⟨rfl, rfl, rfl⟩ | ⟨rfl, rfl, rfl⟩ | ⟨rfl, rfl, rfl⟩ | ⟨rfl, rfl, rfl⟩ | ⟨rfl, rfl, rfl⟩ |
      ⟨rfl, rfl, rfl⟩ | ⟨rfl, rfl, rfl⟩ | ⟨rfl, rfl, rfl⟩ | ⟨rfl, rfl, rfl⟩ | ⟨rfl, rfl, rfl⟩ | ⟨rfl, rfl, rfl⟩ := hmem <;>
    exact idle hidle
  · intro s n p hp
    exact ⟨fun h hr hzero hlen hsize hroom x => rubricLoadBegin_opened hp h hr hzero hlen hsize hroom,
      fun x => rubricLoadChunk_stored hp, fun e x => rubricLoadCommit_refused hp, fun h hr r => rubricStop_found hp h hr,
      resealGetChallenge_given hp, rubricMessage_unknown hp,
      fun h hsize hzero hrun t u => rubricMessage_taken hp h hsize hzero hrun⟩

end Sys2Proof.Machine
end

section
/-! Vector instructions of a nib core (R370 to R373). -/

namespace Sys2Proof.Machine

section
variable {s : State} {r : CoreRun} {len : Nat}

/-! ### The shared operations -/

/-- A vector instruction with legal operands writes its one vector register. -/
theorem vector_ready (hk : 8 ≤ r.core.val) (h : Ready s r len) (d : Fin 16) (reads : List Nat) {ok : Bool} (hok : ok = true)
    (g : State → CoreState → BitVec 512) :
    vector s r len d reads ok g = advance (drewLanes s) r.core len fun z => z.setV d (g s (core s r.core)) := by
  rw [vector, issue_ready s r _ _ h (by simp) fun _ => hk, hok, Bool.not_true, if_neg Bool.false_ne_true]

section
variable (hk : 8 ≤ r.core.val) (h : Ready s r 2) {ty : Fin 8} {g : Fin 8} {n : Bool}
include hk h

theorem vop_unguarded (hg : (core s r.core).guard g n = false) (d : Fin 16) (reads : List Nat) (ok : VType → Bool)
    (f : State → CoreState → VType → BitVec 512) : vop s r ty d g n reads ok f = advance s r.core 2 := by
  rw [vop, hg, Bool.not_false, if_pos rfl, issue_ready s r _ _ h (by simp) fun _ => hk]

theorem vop_guarded (hg : (core s r.core).guard g n = true) {t : VType} (ht : vtype ty = some t) (d : Fin 16) (reads : List Nat)
    {ok : VType → Bool} (hok : ok t = true) (f : State → CoreState → VType → BitVec 512) :
    vop s r ty d g n reads ok f = advance (drewLanes s) r.core 2 fun z => z.setV d (f s (core s r.core) t) := by
  rw [vop, hg, Bool.not_true, if_neg Bool.false_ne_true, ht]
  exact vector_ready hk h d reads hok _

/-! ### Vector and scalar (R373) -/

variable {t : VType} (ht : vtype ty = some t)
include ht

theorem vsplat_ready (d : Fin 16) (a : Fin 32) : exec (.vsplat r ty d a) s =
    .next (advance s r.core 2 fun z => z.setV d (ofLanes t.width t.lanes fun _ => ((core s r.core).w a).toNat)) := by
  show execVsplat r ty d a s = _
  rw [execVsplat, issue_ready s r _ _ h (by simp) fun _ => hk, ht]

theorem vext_ready (e : Fin 32) (v : Fin 16) {l : Fin 64} (hl : l.val < t.lanes) : exec (.vext r ty e v l) s =
    .next (advance s r.core 2 fun z => z.setW e (if t.width = 16 then BitVec.ofNat 64 (lane ((core s r.core).v v) t.width l)
      else BitVec.ofInt 64 (signed t.width (lane ((core s r.core).v v) t.width l)))) := by
  show execVext r ty e v l s = _
  rw [execVext, issue_ready s r _ _ h (by simp) fun _ => hk, ht]
  exact congrArg _ (if_neg (Nat.not_le.2 hl))

theorem vins_ready (d : Fin 16) (a : Fin 32) {l : Fin 64} (hl : l.val < t.lanes) : exec (.vins r ty d a l) s =
    .next (advance s r.core 2 fun z => z.setV d (ofLanes t.width t.lanes fun i =>
      if i = l.val then ((core s r.core).w a).toNat else lane ((core s r.core).v d) t.width i)) := by
  show execVins r ty d a l s = _
  rw [execVins, issue_ready s r _ _ h (by simp) fun _ => hk, ht]
  exact congrArg _ (if_neg (Nat.not_le.2 hl))

theorem vrsum_int_ready (e : Fin 32) (v : Fin 16) {w : Nat} (hw : t = .int w) : exec (.vrsum r ty e v) s =
    .next (advance (drewLanes s) r.core 2 fun z => z.setW e (BitVec.ofInt 64 (signed w
      (((List.range t.lanes).map fun i => lane ((core s r.core).v v) w i).foldl (· + ·) 0)))) := by
  subst hw
  show execVrsum r ty e v s = _
  rw [execVrsum, issue_ready s r _ _ h (by simp) fun _ => hk, ht]
  rfl

end

/-- A Scribe has no vector registers: a vector instruction is illegal there (R370). -/
theorem issue_vector_of_scribe (n : Needs) (f : State → CoreState → State) (h : Ready s r n.len) (hk : r.core.val < 8)
    (hs : n.scribeOnly = false) (hv : n.vector = true) : issue s r n f = fault s r.core 0x01 := by
  obtain ⟨hrun, hwait, hout, hpc, hcode, hfetch, -⟩ := h
  have hfailed : failedAccess s r.core = none := by simp [failedAccess, hout]
  have hnib : decide (8 ≤ r.core.val) = false := decide_eq_false (Nat.not_le.2 hk)
  have hscribe : decide (r.core.val < 8) = true := decide_eq_true hk
  simp only [issue, hrun, hwait, hfailed, hnib, hfetch, hs, hv, hscribe]
  rw [if_neg (by simp), if_neg (Nat.not_lt.2 hcode)]
  rfl

theorem vxor_of_scribe (d a b : Fin 16) (h : Ready s r 1) (hk : r.core.val < 8) (he : (core s r.core).enable = true)
    (ht : (core s r.core).tvec ≠ 0) : exec (.vxor r d a b) s = .next (setCore s r.core { core s r.core with
      epc := (core s r.core).pc
      cause := 1
      faddr := 0
      enable := false
      pc := (core s r.core).tvec }) := by
  obtain ⟨-, -, hout, -⟩ := id h
  rw [← illegal_handled hout he ht]
  exact next_congr (issue_vector_of_scribe { len := 1, vector := true, readsV := [a.val, b.val] } _ h hk rfl rfl)

end

theorem even_and_even {a b : Fin 16} (ha : a.val % 2 = 0) (hb : b.val % 2 = 0) : (even a && even b) = true := by
  simp [even, ha, hb]

/-- Settles O45, from the shared operations; each form gives its function of the lanes. -/
theorem vectorFormsWriteTheirLanes : Obligations.VectorFormsWriteTheirLanes := by
  rintro s u r c rfl rfl
  refine ⟨fun d a b hk h => ?_, fun ty d a b g n hk h => ⟨fun hg => ?_, fun hg t ht => ?_⟩,
    fun ty d a e v l t hk h ht => ⟨vsplat_ready hk h ht d a, fun hl => ⟨vext_ready hk h ht e v hl, vins_ready hk h ht d a hl⟩,
      fun w => vrsum_int_ready hk h ht e v⟩, fun d a b hk h => vxor_of_scribe d a b h hk, fun _ _ _ _ _ _ => rfl,
    fun _ _ _ _ _ => ⟨rfl, rfl, rfl, rfl⟩⟩
  · have short (reads : List Nat) (g) := next_congr (vector_ready hk h d reads rfl g)
    refine ⟨?_, fun ha hb => ?_⟩
    · simp only [List.forall_mem_cons]
      exact ⟨short _ _, short _ _, short _ _, short _ _, short _ _, List.forall_mem_nil _⟩
    · have pair (ty : VType) := next_congr (vector_ready hk h d (dotReads d a b) (even_and_even ha hb) fun s c => dot s c ty d a b)
      simp only [List.forall_mem_cons]
      exact ⟨pair _, pair _, pair _, List.forall_mem_nil _⟩
  · have passed (reads : List Nat) (ok) (f) := next_congr (vop_unguarded hk h (ty := ty) hg d reads ok f)
    simp only [List.forall_mem_cons]
    exact ⟨passed _ _ _, passed _ _ _, passed _ _ _, passed _ _ _, passed _ _ _, passed _ _ _, passed _ _ _, passed _ _ _,
      passed _ _ _, passed _ _ _, passed _ _ _, List.forall_mem_nil _⟩
  · have ran (reads : List Nat) {ok : VType → Bool} (hok : ok t = true) (f) := next_congr (vop_guarded hk h hg ht d reads hok f)
    refine ⟨?_, fun hty => ?_, fun hw ha hb => ?_, fun w hb hw => ?_⟩
    · have lanes (op : Nat) := ran ([a.val, b.val] ++ if op = 3 then [d.val] else []) (ok := fun _ => true) rfl
        fun s c t => lanewise s c t op d a b
      simp only [List.forall_mem_cons]
      exact ⟨lanes 0, lanes 1, lanes 2, lanes 3, lanes 4, lanes 5, List.forall_mem_nil _⟩
    · subst hty
      obtain rfl : VType.int 32 = t := Option.some.inj ht
      have bits (f : BitVec 512 → BitVec 512 → BitVec 512) := ran [a.val, b.val]
        (ok := fun t => match t with | .int w => w == 32 | _ => false) rfl fun _ c _ => f (c.v a) (c.v b)
      simp only [List.forall_mem_cons]
      exact ⟨bits _, bits _, bits _, List.forall_mem_nil _⟩
    · exact ran (dotReads d a b) (ok := fun t => decide (t.width < 32) && even a && even b)
        (by rw [Bool.and_assoc, even_and_even ha hb, decide_eq_true hw]; rfl) fun s c t => dot s c t d a b
    · show execVopCvt r ty d a b g n s = _
      rw [execVopCvt, if_pos hb, hw]
      exact ran [a.val] (ok := fun _ => true) rfl _

end Sys2Proof.Machine
end

section
/-! A write of a clock output (R12, R399). -/

namespace Sys2Proof.Machine

/-- A source whose reporting wire has failed is masked (R503): its event leaves no more than the drawn value of its open type. -/
theorem notice_masked {s : State} {src : Nat} (hmask : s.on (BLT_SOURCE_WIRE_FAULT src) = true) (hdue : s.blotter.overflowDue = []) :
    notice s src = s.drew := by
  have hon : s.drew.on (BLT_SOURCE_WIRE_FAULT src) = true := hmask
  have hnone : s.drew.blotter.overflowDue = [] := hdue
  simp only [notice, openEvent, report, reportOne, hon, if_true, drainOverflow, hnone]

/-- After reset, with the wire of source 434, the clocks, failed. -/
def clocksMasked : State := State.reset.put (BLT_SOURCE_WIRE_FAULT 434) 1

theorem clocksMasked_on : clocksMasked.on (BLT_SOURCE_WIRE_FAULT 434) = true := by
  have hget : clocksMasked.get (BLT_SOURCE_WIRE_FAULT 434) = 1 := State.get_put _ _ _ (by decide)
  simp [State.on, hget]

theorem clocksMasked_disabled_on : (clocksMasked.put (CLK_OUT_ENABLE 0) 0).on (BLT_SOURCE_WIRE_FAULT 434) = true := by
  have hget : (clocksMasked.put (CLK_OUT_ENABLE 0) 0).get (BLT_SOURCE_WIRE_FAULT 434) = clocksMasked.get (BLT_SOURCE_WIRE_FAULT 434) :=
    State.get_put_addr _ _ _ _ (by decide)
  rw [State.on, hget]
  exact clocksMasked_on

/-- An output is enabled after reset. -/
theorem clocksMasked_enabled : clocksMasked.get (CLK_OUT_ENABLE 0) = 1 := by
  have hget : clocksMasked.get (CLK_OUT_ENABLE 0) = State.reset.get (CLK_OUT_ENABLE 0) := State.get_put_addr _ _ _ _ (by decide)
  rw [hget]
  decide

/-- A write that asks for a reserved source takes ENABLE all the same (R12). -/
theorem clkOutWrite_reserved (s : State) (o : Fin 2) {v : BitVec 64} (h : 4 < v.toNat % 8) :
    exec (.clkOutWrite o v) s = .next (notice (s.put (CLK_OUT_ENABLE o) (bitsOf v.toNat 3 1)) 434) :=
  congrArg _ (if_pos h)

theorem clkOutWrite_reserved_disables :
    exec (.clkOutWrite 0 5) clocksMasked = .next (clocksMasked.put (CLK_OUT_ENABLE 0) 0).drew :=
  (clkOutWrite_reserved clocksMasked 0 (by decide)).trans (congrArg _ (notice_masked clocksMasked_disabled_on rfl))

/-- Refutes O48: its clause of CLK_OUT_WRITE for a reserved source states the Notice on the state before the write, and the model keeps
ENABLE of the same write (R12 leaves only the reserved field). -/
theorem not_clocksFollowTheirSources : ¬ Obligations.ClocksFollowTheirSources := by
  rintro ⟨-, -, -, -, -, -, hout⟩
  obtain ⟨hreserved, -⟩ := hout clocksMasked _ 0 5 5 rfl rfl
  have hnotice := hreserved (by decide)
  rw [clkOutWrite_reserved_disables, notice_masked clocksMasked_on rfl] at hnotice
  have henable := congrArg (State.get · (CLK_OUT_ENABLE 0)) (Host.Outcome.next.inj hnotice)
  simp only [State.get_drew, clocksMasked_enabled, State.get_put clocksMasked (CLK_OUT_ENABLE 0) 0 (by decide)] at henable
  contradiction

end Sys2Proof.Machine
end

section
/-! Power domains, power states, their pins and the limiter (R422 to R425, R429 to R433, R436, R437). -/

namespace Sys2Proof.Machine

section
variable {s : State}

/-! ### Requests for a state (R429) -/

theorem pwrRequest_unknown {v : BitVec 64} (hq : v.toNat % 8 ≠ stQuiet) (hc : v.toNat % 8 ≠ stCapped) (hw : v.toNat % 8 ≠ stWriting) :
    exec (.pwrRequest v) s = .next (notice s 435) :=
  congrArg _ (if_neg (by simp [hq, hc, hw]))

theorem pwrRequest_known {v : BitVec 64} (h : v.toNat % 8 = stQuiet ∨ v.toNat % 8 = stCapped ∨ v.toNat % 8 = stWriting) :
    exec (.pwrRequest v) s = .next (requestState s (v.toNat % 8) 1) :=
  congrArg _ (if_pos h)

section
variable {t : Nat} (hfatal : s.colophon.fatalShadow = false) (hstate : powerState s ≠ 0)
include hfatal hstate

theorem requestState_writing_refused (cause : Nat) (ht : t = stWriting) (hpin : s.on PWR_STATE_SHUTDOWN = true) :
    requestState s t cause = event s 0xE4 435 := by
  rw [requestState, if_neg (by simp [hfatal, hstate]), if_pos ⟨ht, hpin⟩]

variable (hallowed : t ≠ stWriting ∨ s.on PWR_STATE_SHUTDOWN = false)
include hallowed

/-- A request that SHUTDOWN_N does not forbid waits for a transition under way, and starts one otherwise. -/
theorem requestState_allowed (cause : Nat) : requestState s t cause =
    if s.on PWR_STATE_IN_TRANSITION = true then
      (if s.power.entryLine = s.ruling.gen ∧ s.get PWR_STATE_LAST_CAUSE = cause ∧ s.get PWR_STATE_TARGET ≠ stWriting ∧
          powerState s ≠ t then s.put PWR_STATE_TARGET t
       else setPower s { s.power with request := some t })
    else if t = powerState s then s
    else if t = stWriting then leaveFor (s.put PWR_WAKE_LAST_SOURCE (if cause = 5 then 3 else 4)) stWriting cause
    else if powerState s = stQuiet then s
    else leaveFor s t cause := by
  have hgo : ¬ (t = stWriting ∧ s.on PWR_STATE_SHUTDOWN = true) := by
    rintro ⟨ht, hpin⟩
    simp [ht, hpin] at hallowed
  rw [requestState, if_neg (by simp [hfatal, hstate]), if_neg hgo]

theorem requestState_waits (cause : Nat) (htrans : s.on PWR_STATE_IN_TRANSITION = true) (hline : s.power.entryLine ≠ s.ruling.gen) :
    requestState s t cause = { s with power := { s.power with request := some t } } := by
  rw [requestState_allowed hfatal hstate hallowed, if_pos htrans, if_neg fun h => hline h.1]
  rfl

variable (hsteady : s.on PWR_STATE_IN_TRANSITION = false)
include hsteady

theorem requestState_held (cause : Nat) (ht : t = powerState s) : requestState s t cause = s := by
  rw [requestState_allowed hfatal hstate hallowed, if_neg (by simp [hsteady]), if_pos ht]

theorem requestState_writing (ht : t = stWriting) (hne : t ≠ powerState s) :
    requestState s t 1 = leaveFor (s.put PWR_WAKE_LAST_SOURCE 4) stWriting 1 := by
  rw [requestState_allowed hfatal hstate hallowed, if_neg (by simp [hsteady]), if_neg hne, if_pos ht, if_neg (by decide)]

theorem requestState_leaves (cause : Nat) (ht : t ≠ stWriting) (hne : t ≠ powerState s) (hquiet : powerState s ≠ stQuiet) :
    requestState s t cause = leaveFor s t cause := by
  rw [requestState_allowed hfatal hstate hallowed, if_neg (by simp [hsteady]), if_neg hne, if_neg ht, if_neg hquiet]

end

/-! ### SHUTDOWN_N and WAKE_N (R429, R431) -/

theorem takeShutdown_not_due (h : powerState s = 0 ∨ s.on PWR_STATE_SHUTDOWN = !s.pins.shutdownN ∨
    recentChange s s.power.shutdownGen = true) : takeShutdown s = s := by
  rw [takeShutdown, if_pos]
  simpa [or_assoc] using h

theorem takeShutdown_due (hstate : powerState s ≠ 0) (hlevel : s.on PWR_STATE_SHUTDOWN = s.pins.shutdownN)
    (hrecent : recentChange s s.power.shutdownGen = false) {u : State}
    (hu : u = { s with power := { s.power with shutdownGen := some s.ruling.gen } }) :
    takeShutdown s = if s.pins.shutdownN then shutdownHigh u else shutdownLow u := by
  subst hu
  rw [takeShutdown, if_neg (by simp [hstate, hlevel, hrecent])]
  rfl

theorem shutdownLow_leaves {v : State} (hv : v = s.put PWR_STATE_SHUTDOWN 1) (hfatal : s.colophon.fatalShadow = false)
    (hactive : s.boot.active = true) (hsteady : v.on PWR_STATE_IN_TRANSITION = false) (hwriting : powerState v = stWriting) :
    shutdownLow s = leaveFor { v with power := { v.power with capByPin := true } } stCapped 2 := by
  subst hv
  rw [shutdownLow, if_neg (by simp [hfatal, hactive]), if_neg (Bool.eq_false_iff.1 hsteady), if_pos hwriting]
  rfl

theorem shutdownHigh_leaves {v : State} (hv : v = s.put PWR_STATE_SHUTDOWN 0) (hfatal : s.colophon.fatalShadow = false)
    (hsteady : v.on PWR_STATE_IN_TRANSITION = false) (hcapped : powerState v = stCapped) (hpin : s.power.capByPin = true) :
    shutdownHigh s = leaveFor v stWriting 2 := by
  subst hv
  rw [shutdownHigh, if_neg (by simp [hfatal, hsteady]), if_pos (by simp [hcapped, hpin])]

theorem wakeN_not_due (h : s.colophon.fatalShadow = true ∨ powerState s = 0 ∨ recentChange s s.power.wakeGen = true) :
    exec .wakeN s = .next s :=
  congrArg _ (if_pos (by simpa [or_assoc] using h))

theorem wakeN_due (hfatal : s.colophon.fatalShadow = false) (hstate : powerState s ≠ 0) (hrecent : recentChange s s.power.wakeGen = false) :
    exec .wakeN s = .next (wake { s with power := { s.power with wakeGen := some s.ruling.gen } } 2) :=
  congrArg _ (if_neg (by simp [hfatal, hstate, hrecent]))

/-! ### Entries (R430, R432) -/

theorem drainTimeout_due {u : State} (hwriting : powerState s = stWriting) (htrans : s.on PWR_STATE_IN_TRANSITION = true)
    (htarget : s.get PWR_STATE_TARGET ≠ stWriting) (hdrained : s.power.drained = false)
    (hlines : s.power.entryLine + s.get PWR_CTRL_DRAIN_LINES ≤ s.ruling.gen) (hu : u = { s with power := { s.power with drained := true } }) :
    exec .drainTimeout s = .next (((List.range s.variant.channels).filterMap fun g =>
        if (core u (8 + g)).item.isSome then some (8 + g) else none).foldl
      (fun t k => endCore (event t 0xE5 435 (k - 8)) k csTimeout 0 ((core t k).w 1).toNat) u) := by
  subst hu
  refine congrArg _ (if_neg ?_)
  simp only [Bool.or_eq_true, decide_eq_true_eq, not_or]
  simp [htrans, htarget, hwriting, hdrained, hlines]

section
variable (hstate : powerState s ≠ 0) (hfatal : s.colophon.fatalShadow = false)
include hstate hfatal

omit hstate hfatal in
theorem stateEntryComplete_steady (h : s.on PWR_STATE_IN_TRANSITION = false) : exec .stateEntryComplete s = .next s :=
  congrArg _ (if_pos (by simp [h]))

theorem stateEntryComplete_draining (htrans : s.on PWR_STATE_IN_TRANSITION = true) (htarget : s.get PWR_STATE_TARGET ≠ stWriting)
    (hdrained : drainedNow s = false) : exec .stateEntryComplete s = .next s :=
  congrArg _ ((if_neg (by simp [htrans, hstate, hfatal])).trans (if_pos (by simp [htarget, hdrained])))

theorem stateEntryComplete_holds (htrans : s.on PWR_STATE_IN_TRANSITION = true)
    (h : s.get PWR_STATE_TARGET = stWriting ∨ drainedNow s = true) : exec .stateEntryComplete s = .next (holdState s) := by
  refine congrArg _ ((if_neg (by simp [htrans, hstate, hfatal])).trans (if_neg ?_))
  obtain h | h := h <;> simp [h]

end

theorem cappedIdleExpiry_eq : exec .cappedIdleExpiry s = .next (if powerState s = stCapped ∧ s.on PWR_STATE_IN_TRANSITION = false
    ∧ drainedNow s = true ∧ s.power.activeGen + s.get PWR_CTRL_CAPPED_IDLE_LINES ≤ s.ruling.gen then towersSleep s else s) :=
  congrArg _ (if_congr (by simp [and_assoc]) rfl rfl)

/-! ### The limiter (R436) -/

theorem eventOnce_variant (s : State) (type source unit detail : Nat) : (eventOnce s type source unit detail).variant = s.variant :=
  (eventOnce_kept (.refl s)).variant

section
variable {u : State} {l m under full : Nat} (hline : s.ruling.line % 64 = 0) (hm : s.power.windowLines = m) (hpos : 0 < m)
  (hl : l = (s.put PWR_INK_POWER (min 65535 (s.power.windowSum / m))).get PWR_CLASS_LIMIT_STEP)
  (hunder : under = if 100 * s.power.windowSum < 95 * (powerCap s * m) then s.power.limUnder + 1 else 0)
  (hfull : full = if powerCap s * m < s.power.windowSum ∧ l = 24 then s.power.limOver + 1 else 0)
  (hu : u = { s.put PWR_INK_POWER (min 65535 (s.power.windowSum / m)) with power := { s.power with
    windowSum := 0, windowLines := 0, limUnder := under, limOver := full } })
include hline hm hpos hl hunder hfull hu

/-- The end of a window: the mean is shown, and the step goes up over the cap, or down after 64 windows under 95 percent of it. -/
theorem limiterWindow_ended {v : State} (hv : v = if powerCap s * m < s.power.windowSum then
      (if l < 24 then eventOnce (u.put PWR_CLASS_LIMIT_STEP (l + 1)) 0xE7 435 0
       else if u.power.limOver = 16 then event u 0xE6 435 else u)
    else if under = 64 then { u.put PWR_CLASS_LIMIT_STEP (l - 1) with power := { u.power with limUnder := 0 } } else u) :
    exec .limiterWindow s = .next ((List.range v.variant.clusters).foldl showCluster v) := by
  subst hm hv hu hfull hunder hl
  exact congrArg _ (if_neg (by simp [hline, hpos.ne']))

theorem limiterWindow_up (hcap : powerCap s * m < s.power.windowSum) (hstep : l < 24) :
    exec .limiterWindow s = .next ((List.range u.variant.clusters).foldl showCluster
      (eventOnce (u.put PWR_CLASS_LIMIT_STEP (l + 1)) 0xE7 435 0)) := by
  rw [limiterWindow_ended hline hm hpos hl hunder hfull hu rfl, if_pos hcap, if_pos hstep, eventOnce_variant, State.put_variant]

theorem limiterWindow_same (hcap : s.power.windowSum ≤ powerCap s * m) (h64 : under ≠ 64) :
    exec .limiterWindow s = .next ((List.range u.variant.clusters).foldl showCluster u) := by
  rw [limiterWindow_ended hline hm hpos hl hunder hfull hu rfl, if_neg (Nat.not_lt.2 hcap), if_neg h64]

theorem limiterWindow_down (hcap : s.power.windowSum ≤ powerCap s * m) (h64 : under = 64) :
    exec .limiterWindow s = .next ((List.range u.variant.clusters).foldl showCluster
      { u.put PWR_CLASS_LIMIT_STEP (l - 1) with power := { u.power with limUnder := 0 } }) := by
  rw [limiterWindow_ended hline hm hpos hl hunder hfull hu rfl, if_neg (Nat.not_lt.2 hcap), if_pos h64]
  rfl

end

end

/-- Settles O49, row by row. -/
theorem domainsAndPowerStatesMove : Obligations.DomainsAndPowerStatesMove := by
  refine ⟨?_, ?_, ?_, fun s => ⟨wakeN_not_due, wakeN_due⟩, fun s u => drainTimeout_due, ?_, ?_⟩
  · exact fun s k n => ⟨fun h => ⟨congrArg _ (if_pos h), congrArg _ (if_pos h)⟩,
      fun h => ⟨congrArg _ (if_neg (by simp [h])), congrArg _ (if_neg (by simp [h]))⟩, rfl, rfl⟩
  · rintro s v t rfl
    refine ⟨pwrRequest_unknown, fun ht hfatal hstate => ?_⟩
    rw [pwrRequest_known ht]
    exact ⟨fun hw hpin => congrArg _ (requestState_writing_refused hfatal hstate 1 hw hpin),
      fun hok htrans hline => congrArg _ (requestState_waits hfatal hstate hok 1 htrans hline),
      fun hok hsteady => ⟨fun hheld => congrArg _ (requestState_held hfatal hstate hok hsteady 1 hheld),
        fun hw hne => congrArg _ (requestState_writing hfatal hstate hok hsteady hw hne),
        fun hw hne hquiet => congrArg _ (requestState_leaves hfatal hstate hok hsteady 1 hw hne hquiet)⟩⟩
  · rintro s u v high rfl rfl
    refine ⟨fun h => ?_, fun hstate hlevel hrecent hfatal hsteady => ⟨?_, ?_⟩⟩
    · cases high <;> exact congrArg _ (takeShutdown_not_due h)
    · rintro rfl hactive hwriting
      exact congrArg _ ((takeShutdown_due (s := { s with pins := { s.pins with shutdownN := false } }) hstate hlevel hrecent rfl).trans
        (shutdownLow_leaves rfl hfatal hactive hsteady hwriting))
    · rintro rfl hcapped hpin
      exact congrArg _ ((takeShutdown_due (s := { s with pins := { s.pins with shutdownN := true } }) hstate hlevel hrecent rfl).trans
        (shutdownHigh_leaves rfl hfatal hsteady hcapped hpin))
  · exact fun s hstate hfatal => ⟨stateEntryComplete_steady, stateEntryComplete_draining hstate hfatal,
      stateEntryComplete_holds hstate hfatal, cappedIdleExpiry_eq⟩
  · exact fun s u l m under full hline hm hpos hl hunder hfull hu => ⟨limiterWindow_up hline hm hpos hl hunder hfull hu,
      limiterWindow_same hline hm hpos hl hunder hfull hu, limiterWindow_down hline hm hpos hl hunder hfull hu⟩

end Sys2Proof.Machine
end

section
/-! The cause that Standby shows (R429, Table 14-9). -/

namespace Sys2Proof.Machine

/-- LAST_CAUSE is 8 bits wide. -/
theorem toStandby_lastCause (s : State) (c : Nat) : (toStandby s c).get PWR_STATE_LAST_CAUSE = c % 2 ^ 8 :=
  State.get_put _ _ _ (by decide)

/-- Refutes O50: its clause for any number `c` says that LAST_CAUSE shows `c` modulo 16, and the field holds 16 as 16. -/
theorem not_supplyEventsMoveTheRails : ¬ Obligations.SupplyEventsMoveTheRails := by
  rintro ⟨-, -, -, hstandby, -⟩
  obtain ⟨hcause, -⟩ := hstandby State.reset _ 16 rfl
  rw [toStandby_lastCause] at hcause
  exact absurd hcause (by decide)

end Sys2Proof.Machine
end

section
/-! Heat: steps, hot layers, the fast limiter, peak grants, limits and sensors (R441 to R446, R450 to R452, R458, R460). -/

namespace Sys2Proof.Machine

section
variable {s : State}

theorem stepDecay_early {i : Fin 20} (h : Tab.at s.thermal.below i 0 < 64) : exec (.stepDecay i) s = .next s :=
  congrArg _ (if_pos h)

theorem stepDecay_due {i : Fin 20} {u : State} (h : 64 ≤ Tab.at s.thermal.below i 0) (hu : u = countBelow s i false) :
    exec (.stepDecay i) s = .next (if i.val < 16 then setClusterStep u i (u.get (THM_CLUSTER_STEP i) - 1)
      else setTowerStep u (i - 16) (u.get (THM_TOWER_CHANNEL_STEP (i - 16)) - 1)) := by
  subst hu
  exact congrArg _ (if_neg (Nat.not_lt.2 h))

theorem layerCool_not_due {t : Fin 4} {l : Fin 17} (h : s.flag (THM_TOWER_HOT t) l = false ∨ Tab.at s.thermal.cool (32 * t + l) 0 < 128) :
    exec (.layerCool t l) s = .next s :=
  congrArg _ (if_pos (by simpa using h))

theorem layerCool_due {t : Fin 4} {l : Fin 17} (hhot : s.flag (THM_TOWER_HOT t) l = true) (h : 128 ≤ Tab.at s.thermal.cool (32 * t + l) 0) :
    exec (.layerCool t l) s = .next (tellHeat (s.setFlag (THM_TOWER_HOT t) l false) 4 (32 * t + l) (dieTemp s t l)) :=
  congrArg _ (if_neg (by simp [hhot, h]))

theorem fastLimiterRelease_not_due (h : s.on THM_CTRL_FAST_ACTIVE = false ∨ s.thermal.fastUnder < 64) :
    exec .fastLimiterRelease s = .next s :=
  congrArg _ (if_pos (by simpa using h))

theorem fastLimiterRelease_due {u : State} (hon : s.on THM_CTRL_FAST_ACTIVE = true) (h : 64 ≤ s.thermal.fastUnder)
    (hu : u = tellHeat (s.put THM_CTRL_FAST_ACTIVE 0) 6 1 0) :
    exec .fastLimiterRelease s = .next ((List.range u.variant.clusters).foldl showCluster u) := by
  subst hu
  exact congrArg _ (if_neg (by simp [hon, h]))

/-- What a write of the grants does for a cluster: a new grant that a condition forbids is told, a withdrawn one ends peak (R450, R458). -/
theorem peakGrant_of_cluster {t : State} {c new old : Nat} :
    (if bit new c && !bit old c then (if (failing t c).isSome then tellHeat t 2 c (clusterTemp t c) else t)
      else if bit old c && !bit new c then endPeak t c 8 else t) =
    if bit new c = true ∧ bit old c = false then (if failing t c = none then t else tellHeat t 2 c (clusterTemp t c))
      else if bit old c = true ∧ bit new c = false then endPeak t c 8 else t :=
  if_congr (by simp) (ite_eq_ite_of_iff_not (by simp [Option.isSome_iff_ne_none])) (if_congr (by simp) rfl rfl)

theorem peakGrantWrite_eq {u : State} {v : BitVec 64} {g : Nat} (hg : g = bitsOf (v.toNat &&& presentBits s.variant .THM_PEAK) 16 16)
    (hu : u = s.put THM_PEAK_GRANT g) : exec (.peakGrantWrite v) s = .next
    ((List.range u.variant.clusters).foldl (fun t c =>
      if bit g c = true ∧ bit (s.get THM_PEAK_GRANT) c = false then
        (if failing t c = none then t else tellHeat t 2 c (clusterTemp t c))
      else if bit (s.get THM_PEAK_GRANT) c = true ∧ bit g c = false then endPeak t c 8 else t) u) := by
  subst hg hu
  simp only [← peakGrant_of_cluster]
  rfl

theorem thmLimitsWrite_out_of_range {v : BitVec 64}
    (h : ∃ x ∈ limitFields, bitsOf v.toNat x.1.lo x.1.width < x.2.1 ∨ x.2.2 < bitsOf v.toNat x.1.lo x.1.width) :
    exec (.thmLimitsWrite v) s = .next (notice s 437) := by
  refine congrArg _ (if_neg ?_)
  obtain ⟨x, hx, hrange⟩ := h
  intro hall
  have hin : x.2.1 ≤ bitsOf v.toNat x.1.lo x.1.width ∧ bitsOf v.toNat x.1.lo x.1.width ≤ x.2.2 := by
    simpa using List.all_eq_true.1 hall x hx
  omega

theorem thmLimitsWrite_in_range {v : BitVec 64}
    (h : ∀ x ∈ limitFields, x.2.1 ≤ bitsOf v.toNat x.1.lo x.1.width ∧ bitsOf v.toNat x.1.lo x.1.width ≤ x.2.2) :
    exec (.thmLimitsWrite v) s =
      .next (limitFields.foldl (fun t x => t.put x.1 (bitsOf v.toNat x.1.lo x.1.width)) s) :=
  congrArg _ (if_pos (List.all_eq_true.2 fun x hx => by simpa using h x hx))

theorem setClusterStep_eq {u : State} {c n : Nat} (hu : u = showCluster (s.put (THM_CLUSTER_STEP c) n) c) :
    setClusterStep s c n = if s.get (THM_CLUSTER_STEP c) = n then s else tellHeat u 0 c (clusterTemp s c) := by
  subst hu
  rfl

end

/-- Settles O51, row by row. -/
theorem heatStepsLimitsAndPeakGrants : Obligations.HeatStepsLimitsAndPeakGrants :=
  ⟨fun _ _ => ⟨stepDecay_early, fun h _ => stepDecay_due h⟩, fun _ _ _ => ⟨layerCool_not_due, layerCool_due⟩,
    fun _ => ⟨fastLimiterRelease_not_due, fun hon h _ => fastLimiterRelease_due hon h⟩, fun _ _ _ _ => peakGrantWrite_eq,
    fun _ _ => ⟨thmLimitsWrite_out_of_range, thmLimitsWrite_in_range⟩, fun _ _ => rfl,
    fun _ _ _ _ hu => ⟨fun h => (setClusterStep_eq hu).trans (if_pos h), fun h => (setClusterStep_eq hu).trans (if_neg h)⟩,
    fun _ _ _ => ⟨rfl, fun h => if_pos h, fun h => if_neg h⟩⟩

end Sys2Proof.Machine
end

section
/-! Calibration: evaluation, requests, holds and records (R462 to R470, R473). -/

namespace Sys2Proof.Machine

section
variable {s : State}

/-! ### Line 0 of a folio (R465, R467) -/

theorem calFolioEvaluate_other_line (h : s.lineInFolio ≠ 0) : exec .calFolioEvaluate s = .next s :=
  congrArg _ (if_pos h)

theorem calFolioEvaluate_line_zero {u : State} (h : s.lineInFolio = 0) (hu : u = (List.range (s.variant.ports / 16)).foldl (fun t q =>
      t.put (COL_CAL_QUAD_TEMP q) (satSigned 12 (drivingTemp t (256 + q) 0))) s) :
    exec .calFolioEvaluate s = .next (baseCalibration ((calUnits u).foldl (fun t i =>
      if (calUnit t i).loadFolio = some t.folio then t else evaluateUnit t i) u)) := by
  subst hu
  exact congrArg _ (if_neg (by simp [h]))

theorem baseCalibration_off (h : s.variant = .v4384 ∨ s.on COL_CAL_CTRL_FULL_ENABLE = false ∨ baseRuns s 5 = false) :
    baseCalibration s = s := by
  rw [baseCalibration, if_pos (by simpa using h)]

/-- Requesting every channel of a list requests those channels and no others. -/
theorem calUnit_foldl_request (l : List Nat) (s : State) (g : Nat) :
    calUnit (l.foldl (fun s g => setCal s g { calUnit s g with requested := true }) s) g =
      if g ∈ l then { calUnit s g with requested := true } else calUnit s g := by
  induction l generalizing s with
  | nil => rfl
  | cons k r ih =>
    rw [List.foldl_cons, ih]
    by_cases hk : g = k
    · subst hk
      have hset : calUnit (setCal s g { calUnit s g with requested := true }) g = { calUnit s g with requested := true } :=
        Tab.at_set_self _ _ _ _
      rw [hset, ite_self, if_pos List.mem_cons_self]
    · have hset : calUnit (setCal s k { calUnit s k with requested := true }) g = calUnit s g := Tab.at_set_ne _ _ _ hk
      rw [hset]
      simp [hk]

theorem baseCalibration_requests {g : Nat} (hv : s.variant ≠ .v4384) (hon : s.on COL_CAL_CTRL_FULL_ENABLE = true)
    (hrun : baseRuns s 5 = true) (hg : g < s.variant.channels) :
    calUnit (baseCalibration s) g = if fullDue s g = true then { calUnit s g with requested := true } else calUnit s g := by
  rw [baseCalibration, if_neg (by simp [hv, hon, hrun]), State.each, calUnit_foldl_request]
  simp [hg]

section
variable {i : Nat} {b : Tab Int} (hb : b = (unitValues i).foldl (fun t v =>
  Tab.put t v (baseValue (calUnit s i) v (drivingTemp s i v)) 0) [])
include hb

theorem evaluateUnit_same (h : (calUnit s i).holdGen ≠ none ∨ s.on COL_CAL_CTRL_APPLY_ENABLE = false ∨ b = (calUnit s i).base) :
    evaluateUnit s i = s := by
  subst hb
  rw [evaluateUnit]
  by_cases hskip : (calUnit s i).holdGen ≠ none ∨ s.on COL_CAL_CTRL_APPLY_ENABLE = false
  · exact if_pos (by simpa [Option.isSome_iff_ne_none] using hskip)
  · exact (if_neg (by simpa [Option.isSome_iff_ne_none] using hskip)).trans (if_pos (by tauto))

theorem evaluateUnit_differs (hidle : (calUnit s i).holdGen = none) (hon : s.on COL_CAL_CTRL_APPLY_ENABLE = true)
    (hne : b ≠ (calUnit s i).base) :
    evaluateUnit s i = setCal s i { calUnit s i with shadow := some b, loadFolio := some s.folio } := by
  subst hb
  rw [evaluateUnit]
  exact (if_neg (by simp [hidle, hon])).trans (if_neg hne)

end

/-! ### Lane sets (R465) -/

theorem laneSetSwap_not_due {q : Fin 4}
    (h : (calUnit s (256 + q)).shadow = none ∨ (calUnit s (256 + q)).loadFolio = some s.folio ∧ s.lineInFolio = 0) :
    exec (.laneSetSwap q) s = .next s := by
  obtain h | h := h
  · have hswap : swapBank s (256 + q) = s := by rw [swapBank, h]
    exact congrArg _ ((congrArg _ hswap).trans (ite_self s))
  · exact congrArg _ (if_pos (by simp [h]))

theorem laneSetSwap_due {q : Fin 4} {b : Tab Int} (hb : (calUnit s (256 + q)).shadow = some b)
    (h : (calUnit s (256 + q)).loadFolio ≠ some s.folio ∨ s.lineInFolio ≠ 0) :
    exec (.laneSetSwap q) s = .next (setCal s (256 + q) { calUnit s (256 + q) with base := b, shadow := none }) := by
  have hswap : swapBank s (256 + q) = setCal s (256 + q) { calUnit s (256 + q) with base := b, shadow := none } := by
    rw [swapBank, hb]
  rw [← hswap]
  exact congrArg _ (if_neg (by simpa [← not_and_or, -not_and] using h))

/-! ### Requests and holds (R466, R467) -/

section
variable {v : BitVec 64} {g : Nat} (hg : g = v.toNat % 256)
include hg

theorem calRequest_refused (hgo : v.getLsbD 8 = true)
    (h : s.variant = .v4384 ∨ s.on COL_CAL_CTRL_FULL_ENABLE = false ∨ s.variant.channels ≤ g) :
    exec (.calRequest v) s = .next (notice s 439) := by
  subst hg
  exact congrArg _ ((if_neg (by simp [hgo])).trans (if_pos (by simpa using h)))

theorem calRequest_taken (hgo : v.getLsbD 8 = true) (hv : s.variant ≠ .v4384) (hon : s.on COL_CAL_CTRL_FULL_ENABLE = true)
    (hlt : g < s.variant.channels) :
    exec (.calRequest v) s = .next (setCal s g { calUnit s g with requested := true }) := by
  subst hg
  exact congrArg _ ((if_neg (by simp [hgo])).trans (if_neg (by simp [hv, hon, hlt])))

end

/-- Another channel of the tower has been held in this folio. -/
def TowerHeld (s : State) (g : Nat) : Prop := ∃ y ∈ s.cal, y.1 < 256 ∧ y.1 / 64 = g / 64 ∧ y.2.heldFolio = some s.folio

/-- A lower channel of the tower waits. -/
def LowerWaits (s : State) (g : Nat) : Prop :=
  ∃ h : Nat, h < g ∧ h / 64 = g / 64 ∧ (calUnit s h).requested = true ∧ usableChan s h = true

theorem towerHeld_iff (s : State) (g : Nat) :
    (s.cal.any fun (u, y) => decide (u < 256) && u / 64 == g / 64 && y.heldFolio == some s.folio) = true ↔ TowerHeld s g := by
  simp [TowerHeld, and_assoc]

theorem lowerWaits_iff (s : State) (g : Nat) :
    ((List.range (g % 64)).any fun i => (calUnit s (64 * (g / 64) + i)).requested && usableChan s (64 * (g / 64) + i)) = true ↔
      LowerWaits s g := by
  simp only [List.any_eq_true, List.mem_range, Bool.and_eq_true, LowerWaits]
  constructor
  · rintro ⟨i, hi, hwaits⟩
    exact ⟨64 * (g / 64) + i, by omega, by omega, hwaits⟩
  · rintro ⟨h, hlt, htower, hwaits⟩
    refine ⟨h % 64, by omega, ?_⟩
    rwa [← htower, Nat.div_add_mod]

/-- The hold of a channel begins on this line edge (R467). -/
def HoldDue (s : State) (g : Nat) : Prop :=
  (calUnit s g).requested = true ∧ usableChan s g = true ∧ ¬ LowerWaits s g ∧ s.ruling.gen % 64 = 16 * (g / 64) + 1 ∧
    ¬ TowerHeld s g ∧ (calUnit s g).holdGen = none

theorem holdDue_iff (s : State) (g : Nat) :
    ((calUnit s g).requested && usableChan s g
      && !((List.range (g % 64)).any fun i => (calUnit s (64 * (g / 64) + i)).requested && usableChan s (64 * (g / 64) + i))
      && s.ruling.gen % 64 == 16 * (g / 64) + 1
      && !(s.cal.any fun (u, y) => decide (u < 256) && u / 64 == g / 64 && y.heldFolio == some s.folio)
      && (calUnit s g).holdGen.isNone) = true ↔ HoldDue s g := by
  rw [HoldDue, ← towerHeld_iff, ← lowerWaits_iff]
  simp only [Bool.and_eq_true, Bool.not_eq_true', Bool.not_eq_true, beq_iff_eq, Option.isNone_iff_eq_none, and_assoc]

theorem calHoldStart_due {g : Fin 256} (h : HoldDue s g) : exec (.calHoldStart g) s = .next ((setCal s g { calUnit s g with
    requested := false
    holdGen := some s.ruling.gen
    heldFolio := some s.folio }).put (COL_CAL_CHANNEL_HOLDING g) 1) :=
  congrArg _ (if_pos ((holdDue_iff s g).2 h))

theorem calHoldStart_not_due {g : Fin 256} (h : ¬ HoldDue s g) : exec (.calHoldStart g) s = .next s :=
  congrArg _ (if_neg fun hdue => h ((holdDue_iff s g).1 hdue))

theorem calHoldComplete_held {u : State} {g : Fin 256} {t : Int} {l : List (Nat × Int)} {e : Bool} {n : Nat} {r : Tab Int}
    (hhold : (calUnit s g).holdGen ≠ none) (hu : u = s.put (COL_CAL_CHANNEL_HOLDING g) 0)
    (hr : r = l.foldl (fun t (v, z) => if v < 131 then Tab.put t v z 0 else t) []) :
    exec (.calHoldComplete g t l e n) s = .next (if e = true ∧ n ≤ 12 ∧ withinSteps (calUnit s g) r = true then
      acceptResult u g t r else rejectResult u g) := by
  subst hu hr
  refine congrArg _ ((if_neg (by simpa using hhold)).trans (if_congr ?_ rfl rfl))
  simp only [Bool.and_eq_true, decide_eq_true_eq, and_assoc]

theorem rejectResult_eq {u : State} {i : Nat} (hu : u = event (((setCal s i { calUnit s i with
      rejections := (calUnit s i).rejections + 1
      rejectedAt := if 1 ≤ (calUnit s i).rejections then some (drivingTemp s i 0) else none
      holdGen := none }).put (rejectedF i) 1).inc COL_CAL_COUNTS_REJECTED) 0x100 439 i) :
    rejectResult s i = if (calUnit s i).rejections = 1 then event u 0x102 439 i else u := by
  subst hu
  exact if_congr (by simp) rfl rfl

/-! ### Records (R473) -/

section
variable {i : Fin 260} {x : CalUnit} (hx : x = calUnit s i)
include hx

theorem calRecordFlush_due (hfield : x.field ≠ none) (hne : x.field ≠ x.stored)
    (hdue : x.storedAt = none ∨ ∃ t, x.storedAt = some t ∧ t + 600 ≤ s.colophon.life.seconds) :
    exec (.calRecordFlush i) s = .next (setCal s i { x with stored := x.field, storedAt := some s.colophon.life.seconds }) := by
  subst hx
  refine congrArg _ (if_pos ?_)
  obtain hnever | ⟨t, hat, ht⟩ := hdue
  · simp [hnever, hne, Option.isSome_iff_ne_none.2 hfield]
  · simp [hat, ht, hne, Option.isSome_iff_ne_none.2 hfield]

theorem calRecordFlush_not_due
    (h : x.field = x.stored ∨ ∃ t, x.storedAt = some t ∧ s.colophon.life.seconds < t + 600) :
    exec (.calRecordFlush i) s = .next s := by
  subst hx
  refine congrArg _ (if_neg ?_)
  obtain hsame | ⟨t, hat, ht⟩ := h
  · simp [hsame]
  · simp [hat, ht]

end

end

/-- Settles O52, row by row. -/
theorem calibrationEvaluatesHoldsAndFlushes : Obligations.CalibrationEvaluatesHoldsAndFlushes := by
  refine ⟨fun s u => ⟨calFolioEvaluate_other_line, calFolioEvaluate_line_zero⟩, fun s => baseCalibration_off,
    fun s g => baseCalibration_requests, fun s i b hb => ⟨evaluateUnit_same hb, evaluateUnit_differs hb⟩,
    fun s q => ⟨laneSetSwap_not_due, fun b => laneSetSwap_due⟩,
    fun s v g hg => ⟨fun h => congrArg _ (if_pos (by rw [h]; rfl)), calRequest_refused hg, calRequest_taken hg⟩, ?_,
    fun s u g t l e n r => calHoldComplete_held, fun s u i => rejectResult_eq,
    fun s i x hx => ⟨calRecordFlush_due hx, calRecordFlush_not_due hx⟩⟩
  rintro s g x rfl
  refine ⟨fun hreq huse hline hhold hheld hlower => calHoldStart_due ⟨hreq, huse, ?_, hline, ?_, hhold⟩,
    fun h => calHoldStart_not_due ?_⟩
  · rintro ⟨k, hlt, htower, hkreq, hkuse⟩
    obtain hno | hno := hlower k hlt htower
    · rw [hkreq] at hno; contradiction
    · rw [hkuse] at hno; contradiction
  · exact fun ⟨y, hy, hchan, htower, hfolio⟩ => hheld y hy hchan htower hfolio
  · rintro ⟨hreq, huse, hlower, hline, hheld, hhold⟩
    obtain h | h | h | h | h | h := h
    · rw [hreq] at h; contradiction
    · rw [huse] at h; contradiction
    · exact h hline
    · exact h hhold
    · exact hlower h
    · exact hheld h

end Sys2Proof.Machine
end

section
/-! Fuses: programming, reading and locks (R482 to R488). -/

namespace Sys2Proof.Machine

section
variable {s : State}

/-! ### Programming (R485, R486) -/

theorem fuseProgram_without_effect {k : Option (Fin 8)} {v : BitVec 64} (p : Bool) (h : v.getLsbD 16 = false ∨ fusWriter s k = false) :
    exec (.fuseProgram k v p) s = .next s := by
  show Host.Outcome.next (if fusWriter s k then writeProgCmd s (programmerOf s k) v p else s) = _
  obtain h | h := h
  · rw [writeProgCmd, h, Bool.not_false, if_pos rfl, ite_self]
  · rw [h, if_neg Bool.false_ne_true]

section
variable {k : Option (Fin 8)} {v : BitVec 64} {p : Bool} (hgo : v.getLsbD 16 = true) (hwriter : fusWriter s k = true)
include hgo hwriter

theorem fuseProgram_ordered :
    exec (.fuseProgram k v p) s = .next (programWord s (programmerOf s k) (v.toNat % 1024) (s.get FUS_PROG_DATA_DATA) p).1 := by
  show Host.Outcome.next (if fusWriter s k then writeProgCmd s (programmerOf s k) v p else s) = _
  rw [hwriter, if_pos rfl, writeProgCmd, hgo, Bool.not_true, if_neg Bool.false_ne_true]

theorem fuseProgram_refused {st : Nat}
    (ho : programRefusal s (programmerOf s k) (v.toNat % 1024) (s.get FUS_PROG_DATA_DATA) p = some st) :
    exec (.fuseProgram k v p) s = .next (fuseEvent (progStatus s st (v.toNat % 1024)) 3 (v.toNat % 1024)) := by
  rw [fuseProgram_ordered hgo hwriter, programWord, ho]

theorem fuseProgram_begun
    (ho : programRefusal s (programmerOf s k) (v.toNat % 1024) (s.get FUS_PROG_DATA_DATA) p = none) :
    exec (.fuseProgram k v p) s = .next (progStatus { s with fuses := { s.fuses with
      program := some (v.toNat % 1024, BitVec.ofNat 32 (s.get FUS_PROG_DATA_DATA)) } } 1 (v.toNat % 1024)) := by
  rw [fuseProgram_ordered hgo hwriter, programWord, ho]

end

theorem programRefusal_busy (p : Programmer) (w d : Nat) (b : Bool) (h : s.fuses.program ≠ none) :
    programRefusal s p w d b = some 3 := by
  rw [programRefusal, if_pos (Option.isSome_iff_ne_none.2 h)]

theorem programRefusal_progLock (p : Programmer) {w n : Nat} (d : Nat) (b : Bool) (h : s.fuses.program = none)
    (hn : regionOf w = some n) (hlock : s.on (FUS_REGION_PROG_LOCK n) = true) : programRefusal s p w d b = some 5 := by
  rw [programRefusal, if_neg (by simp [h]), hn]
  exact if_pos (by rw [hlock, Bool.true_or])

theorem fuseProgramComplete_idle (x : Option (Fin 3)) (r : FuseReading) (h : s.fuses.program = none) :
    exec (.fuseProgramComplete x r) s = .next s := by
  show Host.Outcome.next (programmed s x r).1 = _
  rw [programmed, h]

/-- The status of a word whose programming ends: done, aborted while blank, or bad (R486). -/
def endStatus (x : Option (Fin 3)) (r : FuseReading) (d : BitVec 32) : Nat :=
  x.elim (if r.blank = false ∧ r.corrected = false ∧ r.uncorrectable = false ∧ r.marginal = false ∧ r.data = d then 2 else 12)
    fun c => if r.blank then 9 + c.val else 12

/-- The region of a word is computed again, when it lies in one. -/
def recomputeOf (s : State) (w : Nat) : State := (regionOf w).elim s (recompute s)

theorem fuseProgramComplete_ended {u y z : State} {x : Option (Fin 3)} {r : FuseReading} {w st : Nat} {d : BitVec 32}
    (h : s.fuses.program = some (w, d)) (hst : st = endStatus x r d)
    (hu : u = progStatus { s with fuses := { s.fuses with
      program := none
      array := if r.blank then s.fuses.array else Tab.set s.fuses.array w r.data } } st w)
    (hy : y = if r.blank then u else setShadow u w false r) (hz : z = recomputeOf y w) :
    exec (.fuseProgramComplete x r) s =
      .next (toColophon (if st = 12 then fuseEvent z 4 w else z) (.fuse w d.toNat st)) := by
  have hclean : (!r.blank && !r.corrected && !r.uncorrectable && !r.marginal && r.data == d) = true ↔
      r.blank = false ∧ r.corrected = false ∧ r.uncorrectable = false ∧ r.marginal = false ∧ r.data = d := by
    simp [and_assoc]
  subst hz hy hu
  show Host.Outcome.next (programmed s x r).1 = _
  simp only [programmed, h, recomputeOf, hclean]
  cases x with
  | none =>
    obtain rfl := hst
    cases regionOf w <;> rfl
  | some c =>
    obtain rfl := hst
    cases regionOf w <;> rfl

/-! ### Reading and locks (R482, R488) -/

theorem fuseRead_eq (v : BitVec 64) : exec (.fuseRead v) s = .next (if v.getLsbD 16 = true then
      { (s.put FUS_READ_WORD (v.toNat % 1024)).put FUS_READ_RESULT_DONE 0 with
        fuses := { s.fuses with reading := some (v.toNat % 1024) } }
    else s.put FUS_READ_WORD (v.toNat % 1024)) :=
  congrArg _ (ite_eq_ite_of_iff_not (by simp))

theorem fuseReadComplete_not_served (r : FuseReading) (h : s.fuses.reading = none ∨ s.fuses.program ≠ none) :
    exec (.fuseReadComplete r) s = .next s := by
  show execFuseReadComplete r s = _
  rw [execFuseReadComplete]
  cases hr : s.fuses.reading with
  | none => rfl
  | some w => exact congrArg _ (if_pos (Option.isSome_iff_ne_none.2 (h.resolve_left (by simp [hr]))))

/-- A word of a region whose reads are locked. -/
def readLocked (s : State) (w : Nat) : Bool := (regionOf w).elim false fun n => s.on (FUS_REGION_READ_LOCK n)

theorem fuseReadComplete_served {r : FuseReading} {w : Nat} {u y : State} {hidden bad : Bool} (hr : s.fuses.reading = some w)
    (hp : s.fuses.program = none) (hu : u = { s with fuses := { s.fuses with reading := none } }) (hbad : bad = !agreesShadow u w r)
    (hhidden : hidden = readLocked u w) (hy : y = u.setWord FUS_READ_RESULT_DONE.addr (readResult hidden bad r)) :
    exec (.fuseReadComplete r) s = .next (if bad = true then fuseEvent y 2 w else y) := by
  subst hy hhidden hbad hu
  show execFuseReadComplete r s = _
  simp only [execFuseReadComplete, hr, hp, readLocked]
  cases regionOf w <;> rfl

end

/-- Settles O53, row by row. -/
theorem fusesProgramReadAndLock : Obligations.FusesProgramReadAndLock := by
  refine ⟨?_, fun s p w d b => programRefusal_busy p w d b, fun s p w d n b => programRefusal_progLock p d b,
    fun s x r => fuseProgramComplete_idle x r, ?_, fun s => fuseRead_eq, fun s r => ⟨fuseReadComplete_not_served r, ?_⟩,
    fun r => rfl, fun s v => rfl⟩
  · rintro s k v p w rfl
    refine ⟨fuseProgram_without_effect p, fun hgo hwriter o ho => ⟨fun st hst => ?_, fun hnone => ?_⟩⟩
    · exact fuseProgram_refused hgo hwriter (ho.symm.trans hst)
    · exact fuseProgram_begun hgo hwriter (ho.symm.trans hnone)
  · intro s u y z x r w st d h hst hu hy hz
    refine fuseProgramComplete_ended h (hst.trans ?_) hu hy (hz.trans ?_)
    · cases x <;> rfl
    · rw [recomputeOf]
      cases regionOf w <;> rfl
  · intro w u hidden bad hr hp hu hbad hhidden y hy
    refine fuseReadComplete_served hr hp hu hbad (hhidden.trans ?_) hy
    rw [readLocked]
    cases regionOf w <;> rfl

end Sys2Proof.Machine
end

section
/-! The Blotter: reports, wire faults, severities, latches and alerts (R503, R507, R510, R512). -/

namespace Sys2Proof.Machine

section
variable {s : State}

/-! ### Reports and wires (R503, R512) -/

theorem blotterReport_eq (ty : Fin 384) (src : Fin 608) (m : Option (BitVec 16)) (a : Fin 10) (d : Option (BitVec 52))
    (x : Option (BitVec 40)) (v : BitVec 64) (full : Bool) :
    exec (.blotterReport ty src m a d x v full) s = .next (
      if defaultSeverity ty < 5 ∧ absentUnit s.variant .BLT_SOURCE src 0 = false then
        report s { type := ty, source := src, master := m.map BitVec.toNat, access := a, dpa := d.map BitVec.toNat
                   media := x.map BitVec.toNat, detail := v, queueFull := full }
      else s) :=
  congrArg _ (if_congr (and_congr_right' (Bool.not_eq_true _).to_iff) rfl rfl)

theorem wireFault_masked {src : Fin 608} (h : s.on (BLT_SOURCE_WIRE_FAULT src) = true) :
    exec (.wireFault src) s = .next s :=
  congrArg _ (if_pos (by rw [h, Bool.true_or]))

theorem wireFault_recorded {src : Fin 608} (h : s.on (BLT_SOURCE_WIRE_FAULT src) = false)
    (hsrc : absentUnit s.variant .BLT_SOURCE src 0 = false) :
    exec (.wireFault src) s = .next (drainOverflow (recordOwn ((s.put (BLT_SOURCE_WIRE_FAULT src) 1).inc BLT_STATUS_WIRE_FAULTS)
      (if guardsFatal src = true then 0x121 else 0x120) src)) :=
  congrArg _ (if_neg (by simp [h, hsrc]))

/-! ### Severities (R507) -/

section
variable (ty : Fin 384) (v : BitVec 64)

theorem severityWrite_fatal_kept (hd : defaultSeverity ty = 4) (hv : v.toNat % 8 < 4) :
    exec (.severityWrite ty v) s = .next (event s 0x12A 444 ty) :=
  congrArg _ (if_pos ⟨hd, hv⟩)

theorem severityWrite_reserved (hv : 4 < v.toNat % 8) : exec (.severityWrite ty v) s = .next (notice s 444) :=
  congrArg _ ((if_neg (by omega)).trans (if_pos hv))

theorem severityWrite_taken (hd : defaultSeverity ty ≠ 4) (hv : v.toNat % 8 ≤ 4) :
    exec (.severityWrite ty v) s = .next { s.put (BLT_SEVERITY_SEVERITY ty) (v.toNat % 8) with
      blotter := { s.blotter with sevChange := Tab.set s.blotter.sevChange ty (s.ruling.line, severityOf s ty) } } :=
  congrArg _ ((if_neg fun h => hd h.1).trans (if_neg (by omega)))

end

/-! ### Injected events and latches (R507, R512) -/

theorem eventInject_closed (k : Option (Fin 8)) (v : BitVec 64) (h : s.on FUS_STATUS_DEBUG_OPEN = false) :
    exec (.eventInject k v) s = .next (deskRefused s (deskMaster k) 8 0x050020) :=
  congrArg _ (if_pos (by rw [h, Bool.not_false]))

theorem eventInject_open (k : Option (Fin 8)) (v : BitVec 64) (h : s.on FUS_STATUS_DEBUG_OPEN = true) :
    exec (.eventInject k v) s = .next (
      if 4 < bitsOf v.toNat 20 3 ∨ 608 ≤ bitsOf v.toNat 0 10 then notice s 444
      else report s { type := bitsOf v.toNat 11 9, source := bitsOf v.toNat 0 10, injected := some (bitsOf v.toNat 20 3) }) :=
  congrArg _ (if_neg (by simp [h]))

theorem latchRearm_unlatched {src : Fin 608} (h : Tab.find s.blotter.latchFolio src = none) :
    exec (.latchRearm src) s = .next s := by
  show execLatchRearm src s = _
  rw [execLatchRearm, h]

theorem latchRearm_latched {src : Fin 608} {f : Nat} (h : Tab.find s.blotter.latchFolio src = some f) :
    exec (.latchRearm src) s = .next (
      if s.get BLT_CTRL_REARM_FOLIOS ≠ 0 ∧ s.lineInFolio = 0 ∧ f + s.get BLT_CTRL_REARM_FOLIOS ≤ s.folio then clearLatch s src
      else s) := by
  show execLatchRearm src s = _
  rw [execLatchRearm, h]

end

/-- Settles O54, row by row. -/
theorem blotterReportsLatchesAndAlerts : Obligations.BlotterReportsLatchesAndAlerts := by
  refine ⟨fun s => blotterReport_eq, fun s src => ⟨wireFault_masked, wireFault_recorded⟩, ?_,
    fun s k v => ⟨eventInject_closed k v, eventInject_open k v, rfl⟩, ?_⟩
  · rintro s ty v c rfl
    exact ⟨severityWrite_fatal_kept ty v, severityWrite_reserved ty v, severityWrite_taken ty v⟩
  · rintro s u src rfl
    exact ⟨rfl, latchRearm_unlatched, fun f => latchRearm_latched⟩

end Sys2Proof.Machine
end

section
/-! The Colophon's records, its minute and checkpoints, the calendar, and the Inkwell's inputs (R453, R525 to R534, R536, R545, R550). -/

namespace Sys2Proof.Machine

section
variable {s : State}

/-! ### Commits (R525, R529) -/

theorem colophonCommit_idle (bad : Bool) (h : s.power.rails = .off ∨ s.colophon.waiting = []) :
    exec (.colophonCommit bad) s = .next s := by
  show execColophonCommit bad s = _
  obtain h | h := h
  · exact congrArg _ (if_pos h)
  · rw [execColophonCommit, h, ite_self]

section
variable {b : ColBody} {l : List ColBody} {u : State} (hrails : s.power.rails ≠ .off) (hwaiting : s.colophon.waiting = b :: l)
  (hu : u = { s with colophon := { s.colophon with waiting := l } })
include hrails hwaiting hu

theorem colophonCommit_other (hb : ∀ t r, b ≠ .blotter t r) : exec (.colophonCommit false) s = .next (commit u b) := by
  subst hu
  show execColophonCommit false s = _
  rw [execColophonCommit, if_neg hrails, hwaiting]
  cases b with
  | blotter t r => exact absurd rfl (hb t r)
  | _ => rfl

section
variable (hb : ∃ t r, b = .blotter t r) (hfatal : s.colophon.fatalShadow = false)
include hb hfatal

theorem colophonCommit_dropped {w : State} (bad : Bool) (hrate : u.get COL_CTRL_EVENT_RATE ≤ s.colophon.blotterMinute)
    (hw : w = { u with colophon := { u.colophon with
      droppedMinute := u.colophon.droppedMinute + 1
      dropped := u.colophon.dropped + 1 } }) :
    exec (.colophonCommit bad) s = .next (showColophon (if w.power.rails = .up then eventOnce w 0x136 442 0 else w)) := by
  obtain ⟨t, r, rfl⟩ := hb
  subst hw hu
  show execColophonCommit bad s = _
  rw [execColophonCommit, if_neg hrails, hwaiting]
  exact congrArg _ (if_pos (by simpa [setCol, hfatal] using hrate))

theorem colophonCommit_within_rate (hrate : s.colophon.blotterMinute < u.get COL_CTRL_EVENT_RATE) :
    exec (.colophonCommit false) s =
      .next (commit { u with colophon := { u.colophon with blotterMinute := u.colophon.blotterMinute + 1 } } b) := by
  obtain ⟨t, r, rfl⟩ := hb
  subst hu
  show execColophonCommit false s = _
  rw [execColophonCommit, if_neg hrails, hwaiting]
  have hlimited : (!(setCol s { s.colophon with waiting := l }).colophon.fatalShadow) = true := by simp [setCol, hfatal]
  refine congrArg _ ((if_neg ?_).trans (congrArg (fun x => commit x _) (if_pos hlimited)))
  simpa [setCol, hfatal] using hrate

end
end

/-! ### The minute (R525, R526, R453) -/

/-- The state `t` differs from `s`, among the Colophon, the media and the cores, in the lifetime counters only. -/
structure SameButLife (s t : State) : Prop where
  colophon : t.colophon = { s.colophon with life := t.colophon.life }
  media : t.media = s.media
  cores : t.cores = s.cores

theorem SameButLife.refl (s : State) : SameButLife s s := ⟨rfl, rfl, rfl⟩

theorem SameButLife.trans {s t u : State} (h : SameButLife s t) (k : SameButLife t u) : SameButLife s u :=
  ⟨k.colophon.trans (by rw [h.colophon]), k.media.trans h.media, k.cores.trans h.cores⟩

theorem SameButLife.foldl {α : Type} {s t : State} {l : List α} {f : State → α → State} (h : SameButLife s t)
    (hf : ∀ x a, SameButLife x (f x a)) : SameButLife s (l.foldl f t) :=
  List.foldlRecOn l f h fun _ hx a _ => hx.trans (hf _ a)

theorem showBoost_sameButLife (s : State) (c : Nat) : SameButLife s (showBoost s c) := by
  rw [showBoost]
  exact ⟨rfl, rfl, rfl⟩

theorem showColophon_sameButLife (s : State) : SameButLife s (showColophon s) := by
  rw [showColophon]
  refine SameButLife.foldl ⟨?_, ?_, ?_⟩ showBoost_sameButLife <;> simp

theorem addBoost_sameButLife (s : State) (c p k : Nat) : SameButLife s (addBoost s c p k) := ⟨rfl, rfl, rfl⟩

theorem minuteSummary_down (h : s.power.rails ≠ .up) : exec .minuteSummary s = .next s := congrArg _ (if_pos h)

/-- A list kept to its last `n` entries after a new one still ends in it. -/
theorem getLast?_drop_append_singleton {α : Type} (l : List α) (a : α) (n : Nat) (hn : 0 < n) :
    ((l ++ [a]).drop ((l ++ [a]).length - n)).getLast? = some a := by
  rw [List.getLast?_drop, if_neg (by rw [List.length_append, List.length_singleton]; omega), List.getLast?_concat]

/-- What a minute's end leaves of the Colophon, its lifetime counters apart, of the media and of the cores. -/
structure MinuteEnded (s t : State) : Prop where
  minuteSeq : t.colophon.minuteSeq = s.colophon.minuteSeq + 1
  classCounts : t.colophon.classCounts = [0, 0, 0, 0, 0]
  droppedMinute : t.colophon.droppedMinute = 0
  blotterMinute : t.colophon.blotterMinute = 0
  dieMax : t.colophon.dieMax = []
  energy : t.colophon.energy = s.colophon.energy % 10000000
  eventRing : t.colophon.eventRing = s.colophon.eventRing
  last : (t.colophon.minuteRing.getLast?.map (·.seq)) = some s.colophon.minuteSeq
  media : t.media = s.media
  cores : t.cores = s.cores

theorem MinuteEnded.sameButLife {s t u : State} (h : MinuteEnded s t) (k : SameButLife t u) : MinuteEnded s u where
  minuteSeq := by rw [k.colophon, ← h.minuteSeq]
  classCounts := by rw [k.colophon, ← h.classCounts]
  droppedMinute := by rw [k.colophon, ← h.droppedMinute]
  blotterMinute := by rw [k.colophon, ← h.blotterMinute]
  dieMax := by rw [k.colophon, ← h.dieMax]
  energy := by rw [k.colophon, ← h.energy]
  eventRing := by rw [k.colophon, ← h.eventRing]
  last := by rw [k.colophon, ← h.last]
  media := k.media.trans h.media
  cores := k.cores.trans h.cores

theorem setCol_media (s : State) (c : Colophon) : (setCol s c).media = s.media := rfl

theorem setCol_cores (s : State) (c : Colophon) : (setCol s c).cores = s.cores := rfl

theorem minuteSummary_up (h : s.power.rails = .up) : ∃ t, exec .minuteSummary s = .next t ∧ MinuteEnded s t := by
  show ∃ t, execMinuteSummary s = .next t ∧ _
  rw [execMinuteSummary, if_neg (not_not.2 h)]
  refine ⟨_, rfl, ?_⟩
  refine MinuteEnded.sameButLife (.sameButLife ?_ (.foldl (.refl _) ?_)) (showColophon_sameButLife _)
  · refine ⟨rfl, rfl, rfl, rfl, rfl, rfl, by dsimp only [setCol], ?_, setCol_media _ _, setCol_cores _ _⟩
    dsimp only [setCol]
    rw [getLast?_drop_append_singleton _ _ 2730 (by decide), Option.map_some]
  · rintro x ⟨⟨p, k⟩, c⟩
    show SameButLife x (if p < 1000 then x else addBoost x c (p / 1000) (k / 1000))
    split
    · exact .refl x
    · exact addBoost_sameButLife x c _ _

/-! ### Checkpoints and the flush (R526, R534, R536) -/

theorem checkpointWrite_not_due (l : Bool) (h : s.power.rails = .off ∨ s.colophon.checkpointDue = false) :
    exec (.checkpointWrite l) s = .next s :=
  congrArg _ (if_pos (by simpa using h))

theorem checkpointWrite_written (hrails : s.power.rails ≠ .off) (hdue : s.colophon.checkpointDue = true) :
    exec (.checkpointWrite false) s = .next (writeCheckpoint s) :=
  congrArg _ (if_neg (by simp [hrails, hdue]))

theorem checkpointWrite_lost (hrails : s.power.rails ≠ .off) (hdue : s.colophon.checkpointDue = true) :
    exec (.checkpointWrite true) s = .next { s with colophon := if s.colophon.copyLast = 0 then { s.colophon with copyB := none }
      else { s.colophon with copyA := none } } :=
  congrArg _ (if_neg (by simp [hrails, hdue]))

theorem colophonFlush_out_of_range {v : BitVec 64} (h : v.toNat % 32 = 0 ∨ 16 < v.toNat % 32) :
    exec (.colophonFlush v) s = .next (notice s 442) :=
  congrArg _ (if_pos (by omega))

theorem colophonFlush_set {v : BitVec 64} {u : State} (h0 : 0 < v.toNat % 32) (h1 : v.toNat % 32 ≤ 16)
    (hu : u = s.put COL_CTRL_EVENT_RATE (v.toNat % 32)) : exec (.colophonFlush v) s = .next (
      if v.getLsbD 8 = true then { u with colophon := { u.colophon with checkpointDue := true } } else u) := by
  subst hu
  exact congrArg _ (if_neg (by omega))

/-! ### The calendar (R531, R532) -/

theorem calendarSet_refused (m : Bool) (v : BitVec 64) (hrails : s.power.rails = .up) (hrun : s.ruling.running = true)
    (hq : s.get RUL_STATUS_QUALITY = 0) : exec (.calendarSet m v) s = .next (event s 0x137 442) :=
  congrArg _ (if_pos ⟨hrails, hrun, hq⟩)

theorem calendarSet_set (m : Bool) (v : BitVec 64)
    (h : s.power.rails ≠ .up ∨ s.ruling.running = false ∨ s.get RUL_STATUS_QUALITY ≠ 0) :
    exec (.calendarSet m v) s = .next (setRtc s (v.toNat * 32768) (if m then 2 else 3)) := by
  refine congrArg _ (if_neg fun ⟨hrails, hrun, hq⟩ => ?_)
  obtain h | h | h := h
  · exact h hrails
  · exact Bool.false_ne_true (h.symm.trans hrun)
  · exact h hq

theorem setRtc_eq {u : State} {t w : Nat} (hu : u = (if s.colophon.rtc + 32768 ≤ t ∨ t + 32768 ≤ s.colophon.rtc
      ∨ s.colophon.everSet = false ∨ s.colophon.rtcValid = false then toColophon s (.calendar (calendarNow s) (t / 32768) w) else s)) :
    setRtc s t w = showColophon { u with colophon := { u.colophon with
      rtc := t
      rtcValid := true
      calSource := w
      everSet := true } } := by
  subst hu
  refine congrArg (fun x => showColophon (setCol x { x.colophon with rtc := t, rtcValid := true, calSource := w, everSet := true }))
    (if_congr ?_ rfl rfl)
  simp [or_assoc]

/-! ### The Inkwell's inputs (R545, R550) -/

theorem vioOverload_eq : exec .vioOverload s = .next (if s.power.rails = .off ∨ s.power.vioOff = true then s
    else inkEvent { s with power := { s.power with vioOff := true } } 0x142 436 0) :=
  congrArg _ (if_congr (by simp) rfl rfl)

end

/-- Settles O55, row by row. -/
theorem colophonKeepsRecordsAndTheCalendar : Obligations.ColophonKeepsRecordsAndTheCalendar := by
  refine ⟨fun s bad => ⟨colophonCommit_idle bad, fun b l u hrails hwaiting hu => ⟨?_, fun hb hfatal => ⟨?_, ?_⟩⟩⟩,
    fun s => ⟨minuteSummary_down, fun h => ?_⟩,
    fun s => ⟨fun h l => checkpointWrite_not_due l h, fun hr hd => ⟨checkpointWrite_written hr hd, checkpointWrite_lost hr hd⟩⟩,
    ?_, fun s u t w => setRtc_eq, fun s => ⟨vioOverload_eq, rfl, rfl, rfl⟩⟩
  · exact colophonCommit_other hrails hwaiting hu
  · exact fun hrate w hw => colophonCommit_dropped hrails hwaiting hu hb hfatal bad hrate hw
  · exact colophonCommit_within_rate hrails hwaiting hu hb hfatal
  · obtain ⟨t, ht, hend⟩ := minuteSummary_up h
    exact ⟨t, ht, hend.minuteSeq, hend.classCounts, hend.droppedMinute, hend.blotterMinute, hend.dieMax, hend.energy,
      hend.eventRing, hend.last, hend.media, hend.cores⟩
  · rintro s v n m rfl
    exact ⟨colophonFlush_out_of_range, fun h0 h1 u => colophonFlush_set h0 h1, calendarSet_refused m v, calendarSet_set m v⟩

end Sys2Proof.Machine
end

section
/-! The boot: release, the slots, training, the base rubrics, Memory_Active and recovery (R557 to R568). -/

namespace Sys2Proof.Machine

section
variable {s : State}

/-! ### Release and slots (R557 to R563) -/

theorem resetRelease_eq (b : BootInput) : exec (.resetRelease b) s = .next (if s.power.rails = .up ∧ s.boot.stage = .held
    ∧ s.pins.resetN = true ∧ s.colophon.fatalShadow = false then release s b else s) :=
  congrArg _ (if_congr (by simp [and_assoc]) rfl rfl)

theorem trySlot_refused {r : Option (List (BitVec 8))} {a e : Nat} (n : Nat) (re : Bool) (h : checkSlot s r = some (a, e)) :
    trySlot s r n re = (event s 0x150 440 (refusalDetail a n e), false) := by
  unfold trySlot
  rw [h]

theorem trySlot_accepted {l : List (BitVec 8)} (n : Nat) (h : checkSlot s (some l) = none) :
    trySlot s (some l) n true = (runSlot s l n, true) := by
  unfold trySlot
  rw [h]
  rfl

theorem trySlot_changed {l : List (BitVec 8)} (n : Nat) (h : checkSlot s (some l) = none) :
    trySlot s (some l) n false = (event s 0x153 440
      (refusalDetail 9 n (((slotEntries l).findIdx? fun e => e.kind == 1).getD 0xFF)), false) := by
  unfold trySlot
  rw [h]
  rfl

theorem slotCheckComplete_idle (l : Option (List (BitVec 8))) (re : Bool) (h : s.boot.stage ≠ .checking ∨ s.boot.order = []) :
    exec (.slotCheckComplete l re) s = .next s := by
  show execSlotCheckComplete l re s = _
  obtain h | h := h
  · exact congrArg _ (if_pos h)
  · rw [execSlotCheckComplete, h, ite_self]

section
variable {n : Nat} {o : List Nat} {u t : State} (l : Option (List (BitVec 8))) (re : Bool)
  (hstage : s.boot.stage = .checking) (horder : s.boot.order = n :: o) (hu : u = { s with boot := { s.boot with order := o } })
include hstage horder hu

theorem slotCheckComplete_given_way (htry : trySlot u l n re = (t, false)) :
    exec (.slotCheckComplete l re) s = .next (nextSlot t) := by
  subst hu
  show execSlotCheckComplete l re s = _
  rw [execSlotCheckComplete, if_neg (not_not.2 hstage), horder]
  exact congrArg (fun p : State × Bool => Host.Outcome.next (if p.2 = true then p.1 else nextSlot p.1)) htry

theorem slotCheckComplete_run (htry : trySlot u l n re = (t, true)) : exec (.slotCheckComplete l re) s = .next t := by
  subst hu
  show execSlotCheckComplete l re s = _
  rw [execSlotCheckComplete, if_neg (not_not.2 hstage), horder]
  exact congrArg (fun p : State × Bool => Host.Outcome.next (if p.2 = true then p.1 else nextSlot p.1)) htry

end

theorem nextSlot_more (h : s.boot.order ≠ []) :
    nextSlot s = { s with boot := { s.boot with stage := .checking, slot := none } } := by
  rw [nextSlot]
  split
  next hnil => exact absurd hnil h
  next => rfl

theorem nextSlot_last (h : s.boot.order = []) : nextSlot s = noSlotLeft s := by rw [nextSlot, h]

theorem noSlotLeft_untrained (h : s.boot.trained = false) :
    noSlotLeft s = { s with boot := { s.boot with stage := .training, slot := none } } := by
  rw [noSlotLeft, h]
  rfl

theorem noSlotLeft_trained {u : State} (h : s.boot.trained = true)
    (hu : u = { s with boot := { s.boot with stage := .recovery, slot := none } }) :
    noSlotLeft s = if strap u 7 = 2 then u else event u 0x151 440 := by
  subst hu
  rw [noSlotLeft, h]
  rfl

theorem checkSlot_blank {x : List (BitVec 8)} (h : (x.take 32).all (· == 0xFF#8) = true) : checkSlot s (some x) = some (1, 0xFF) :=
  if_pos h

theorem recoveryPackageReceived_unasked (x : List (BitVec 8)) (h : s.boot.stage ≠ .recovery) :
    exec (.recoveryPackageReceived x) s = .next s :=
  congrArg _ (if_pos h)

theorem recoveryPackageReceived_tried {x : List (BitVec 8)} {t : State} {accepted : Bool} (h : s.boot.stage = .recovery)
    (htry : trySlot s (some x) 2 true = (t, accepted)) :
    exec (.recoveryPackageReceived x) s = .next (if accepted = true then event t 0x152 440 else t) := by
  show Host.Outcome.next (runPackage s x) = _
  rw [runPackage, if_neg (not_not.2 h), htry]

/-! ### Training (R564) -/

theorem towerTrainingComplete_unasked (f : TrainingInput) (h : s.boot.stage ≠ .training) :
    exec (.towerTrainingComplete f) s = .next s :=
  congrArg _ (if_pos h)

theorem towerTrainingComplete_trained {u : State} {f : TrainingInput} (h : s.boot.stage = .training) (hu : u = trainTowers s f) :
    exec (.towerTrainingComplete f) s = .next (
      if u.boot.slot = none then noSlotLeft u else { u with boot := { u.boot with stage := .starting } }) := by
  subst hu
  exact congrArg _ ((if_neg (not_not.2 h)).trans (ite_eq_ite_of_iff_not Option.isSome_iff_ne_none))

/-- The state that training hands to the blanking of the media is some state, whatever the towers' results were. -/
theorem trainTowers_blanked (s : State) (f : TrainingInput) : ∃ u : State, trainTowers s f =
    { ((bootReserve (blankMedia u)).put DCT_CTRL_MAP_READY 1).put SEL_CTRL_TREE_READY 1 with
      boot := { (bootReserve (blankMedia u)).boot with trained := true } } := by
  rw [trainTowers]
  exact ⟨_, rfl⟩

theorem trainTowers_trained (s : State) (f : TrainingInput) : (trainTowers s f).boot.trained = true := by
  obtain ⟨u, hu⟩ := trainTowers_blanked s f
  rw [hu]

/-! ### Base rubrics and Memory_Active (R567, R568) -/

theorem baseRubricsStart_unasked (l : List (Fin 6)) (h : s.boot.stage ≠ .starting) : exec (.baseRubricsStart l) s = .next s :=
  congrArg _ (if_pos h)

theorem baseRubricsStart_started {u : State} (h : s.boot.stage = .starting)
    (hu : u = [1, 2, 3, 4, 5, 6].foldl (fun t role => loadBase t role (baseScribe role)) s) :
    exec (.baseRubricsStart []) s = .next { u with boot := { u.boot with stage := .activating } } := by
  have hrun : (State.each s [1, 2, 3, 4, 5, 6] fun t role => loadBase t role (baseScribe role)) = u := hu.symm
  show execBaseRubricsStart [] s = _
  rw [execBaseRubricsStart, if_neg (not_not.2 h)]
  dsimp only
  rw [hrun]
  rfl

theorem baseRubricsStart_changed (r : Fin 6) (l : List (Fin 6)) (h : s.boot.stage = .starting) :
    exec (.baseRubricsStart (r :: l)) s = .next (nextSlot (resetScribes
      (event s 0x153 440 (refusalDetail 9 (s.boot.slot.getD 0) (Tab.at s.boot.entries (r.val + 1) 0xFF))))) :=
  congrArg _ (if_neg (not_not.2 h))

/-- Memory_Active with its events: 0x154, and 0x155 for a boot from a slot that took over 2.5 s. -/
def activated (s : State) (ms : BitVec 32) : State :=
  let u := event { s with boot := { s.boot with stage := .running, active := true } } 0x154 440
    (s.boot.slot.getD 0 * 2 ^ 56 + ms.toNat)
  if 2500 < ms.toNat ∧ s.boot.slot.getD 0 ≠ 2 then event u 0x155 440 ms.toNat else u

theorem memoryActive_started {ms : BitVec 32} {a b : Rubric} (hstage : s.boot.stage = .activating) (hrun1 : baseRuns s 1 = true)
    (hrun2 : baseRuns s 2 = true) (ha : Tab.find s.rubrics 1 = some a) (hb : Tab.find s.rubrics 2 = some b)
    (hstart1 : a.started < s.ruling.gen) (hstart2 : b.started < s.ruling.gen) :
    exec (.memoryActive ms) s = .next (if (activated s ms).on PWR_STATE_SHUTDOWN = true then
      leaveFor { activated s ms with power := { (activated s ms).power with capByPin := true } } stCapped 2 else activated s ms) := by
  show execMemoryActive ms s = _
  exact congrArg _ (if_neg (by simp [hstage, hrun1, hrun2, ha, hb, hstart1, hstart2]))

end

/-- Settles O56, row by row. -/
theorem bootGoesThroughItsSteps : Obligations.BootGoesThroughItsSteps := by
  refine ⟨fun s => resetRelease_eq, fun s l re => ⟨slotCheckComplete_idle l re, fun n o u hstage horder hu => ⟨?_, ?_⟩⟩,
    fun s => ⟨nextSlot_more, fun h ht => (nextSlot_last h).trans (noSlotLeft_untrained ht),
      fun u h ht hu => (nextSlot_last h).trans (noSlotLeft_trained ht hu)⟩,
    ?_, fun s u f => ⟨towerTrainingComplete_unasked f, towerTrainingComplete_trained⟩, fun s => ⟨rfl, rfl, rfl⟩,
    fun s f => ⟨trainTowers_trained s f, trainTowers_blanked s f⟩,
    fun s => ⟨fun h l => baseRubricsStart_unasked l h, fun h u => baseRubricsStart_started h,
      fun h r l => baseRubricsStart_changed r l h⟩, ?_,
    fun s x => ⟨recoveryPackageReceived_unasked x, fun h a e hc => recoveryPackageReceived_tried h (trySlot_refused 2 true hc),
      fun h hc => recoveryPackageReceived_tried h (trySlot_accepted 2 hc)⟩⟩
  · exact fun a e hc => slotCheckComplete_given_way l re hstage horder hu (trySlot_refused n re hc)
  · rintro x rfl hc
    refine ⟨?_, ?_⟩
    · rintro rfl
      exact slotCheckComplete_run _ _ hstage horder hu (trySlot_accepted n hc)
    · rintro rfl
      exact slotCheckComplete_given_way _ _ hstage horder hu (trySlot_changed n hc)
  · rintro s _ x rfl
    exact ⟨checkSlot_blank, rfl⟩
  · intro s u v ms a b hstage hrun1 hrun2 ha hb hstart1 hstart2 hu hslow hquick
    have hv : v = activated s ms := by
      rw [activated, ← hu]
      split
      next h => exact hslow h
      next h => exact hquick (by omega)
    subst hv
    exact memoryActive_started hstage hrun1 hrun2 ha hb hstart1 hstart2

end Sys2Proof.Machine
end

section
/-! The management endpoint and the vendor-defined commands (R572, R573, R575 to R578). -/

namespace Sys2Proof.Machine

/-- A slot's image passes checks 1 to 6 and its version is at least `v` (R578). -/
def slotReaches (s : State) (v : Nat) (x : Option (List (BitVec 8))) : Bool :=
  passesSix s x && x.elim false fun l => decide (v ≤ slotVersion l)

/-- The boot and both slots reach version `v`, and there is no quarantine (R578). -/
def rollbackReached (s : State) (v : Nat) (a b : Option (List (BitVec 8))) : Bool :=
  decide (v ≤ s.boot.security) && !s.on FUS_STATUS_QUARANTINE && [a, b].all (slotReaches s v)

theorem not_rollbackReached (s : State) (v : Nat) (a b : Option (List (BitVec 8))) :
    (decide (s.boot.security < v) || !slotReaches s v a || !slotReaches s v b || s.on FUS_STATUS_QUARANTINE) =
      !rollbackReached s v a b := by
  rw [rollbackReached, Bool.eq_iff_iff]
  simp only [List.all_cons, List.all_nil, Bool.or_eq_true, Bool.not_eq_true', Bool.and_eq_false_iff, decide_eq_true_eq,
    decide_eq_false_iff_not, Bool.not_eq_false', Bool.true_eq_false, Nat.not_le]
  tauto

section
variable {s : State} {e : Envelope}

/-! ### Delivery (R572 to R575) -/

/-- A row whose message reaches the responder goes on to what serving it gives. -/
theorem accept_next {c b : Bool} {f : State → State} {t : State} (h : Reached s e c b) (hf : f s = t) :
    (Host.Outcome.next (accept s e c b f) : Host.Outcome State Fault Refusal) = .next t :=
  congrArg _ ((accept_reached s e c b f h).trans hf)

theorem rubricCommand_served (h : Reached s e false false) (hr : rubricServes s = true) (name : String) (cmd : Nat)
    (tag : BitVec 16) (f : State → State) : rubricCommand s e name cmd tag f = f s :=
  (accept_reached s e false false _ h).trans (if_pos hr)

theorem rubricCommand_not_ready (h : Reached s e false false) (hr : rubricServes s = false) (name : String) (cmd : Nat)
    (tag : BitVec 16) (f : State → State) : rubricCommand s e name cmd tag f = vendorAnswer s name cmd tag 1 [] :=
  (accept_reached s e false false _ h).trans (if_neg (by simp [hr]))

/-- A row that the base management rubric serves goes on to what serving it gives. -/
theorem rubricCommand_next {name : String} {cmd : Nat} {tag : BitVec 16} {f : State → State} {t : State}
    (h : Reached s e false false) (hr : rubricServes s = true) (hf : f s = t) :
    (Host.Outcome.next (rubricCommand s e name cmd tag f) : Host.Outcome State Fault Refusal) = .next t :=
  congrArg _ ((rubricCommand_served h hr name cmd tag f).trans hf)

theorem accept_too_long (c b : Bool) (f : State → State) (hrails : s.power.rails ≠ .off) (hvdm : e.vdm = none)
    (hsize : 4096 < e.size) : accept s e c b f = inkEvent s 0x165 441 0 := by
  rw [accept, if_neg hrails, hvdm]
  exact if_pos hsize

/-! ### The endpoint (R572, R573) -/

section
variable (h : Reached s e true true)
include h

theorem setEndpointId_reserved {x : BitVec 8} (hx : x.toNat < 8 ∨ x.toNat = 255) :
    exec (.setEndpointId e x) s = .next (s.send (.answer "ERROR_INVALID_DATA" 0 [])) :=
  accept_next h (if_pos hx)

theorem setEndpointId_set {x : BitVec 8} (hlow : 8 ≤ x.toNat) (hx : x.toNat ≠ 255) :
    exec (.setEndpointId e x) s = .next ({ s with mgmt := { s.mgmt with
      eid := Tab.set s.mgmt.eid (bindingOf e) x.toNat } }.send (.answer "SET_ENDPOINT_ID" 0 [x.toNat])) :=
  accept_next h (if_neg (by omega))

theorem getEndpointId_answered :
    exec (.getEndpointId e) s = .next (s.send (.answer "GET_ENDPOINT_ID" 0 [Tab.at s.mgmt.eid (bindingOf e) 0])) :=
  accept_next h rfl

theorem getEndpointUuid_answered :
    exec (.getEndpointUuid e) s = .next (s.send (.answer "GET_ENDPOINT_UUID" 0 [Config.endpointUuid.toNat])) :=
  accept_next h rfl

theorem getMctpVersionSupport_answered (x : BitVec 8) : exec (.getMctpVersionSupport e x) s = .next (
      if x = 0 ∨ x = 255 then s.send (.answer "GET_MCTP_VERSION_SUPPORT" 0 [1, 3])
      else if x.toNat ∈ [0, 1, 5, 6, 7, 126] then s.drew.send (.answer "GET_MCTP_VERSION_SUPPORT" 0 [s.freeNow.toNat])
      else s.send (.answer "ERROR_TYPE_NOT_SUPPORTED" 0 [])) :=
  accept_next h (if_congr Iff.rfl rfl (if_congr List.contains_iff_mem rfl rfl))

theorem getMessageTypeSupport_answered :
    exec (.getMessageTypeSupport e) s = .next (s.send (.answer "GET_MESSAGE_TYPE_SUPPORT" 0 [0, 1, 5, 6, 7, 126])) :=
  accept_next h rfl

theorem getVendorDefinedMessageSupport_answered : exec (.getVendorDefinedMessageSupport e) s =
    .next (s.drew.send (.answer "GET_VENDOR_DEFINED_MESSAGE_SUPPORT" 0 [s.freeNow.toNat % 65536])) :=
  accept_next h rfl

end

section
variable {static dynamic : BitVec 7} (hrails : s.power.rails ≠ .off) (hmode : strap s 6 = 1)
include hrails hmode

theorem setdasa_addressed (hstatic : static.toNat = 100 + strap s 3) : exec (.setdasa static dynamic) s =
    .next { s with mgmt := { s.mgmt with address := some dynamic.toNat } } :=
  congrArg _ (if_neg (by simp [hrails, i3cMode, hmode, hstatic, addressBase]))

omit hrails hmode in
theorem setdasa_other (hstatic : static.toNat ≠ 100 + strap s 3) : exec (.setdasa static dynamic) s = .next s :=
  congrArg _ (if_pos (by simp [addressBase, hstatic]))

theorem entdaa_unassigned (haddr : s.mgmt.address = none) : exec (.entdaa dynamic) s =
    .next ({ s with mgmt := { s.mgmt with address := some dynamic.toNat } }.send
      (.answer "ENTDAA" 0 [Config.mipiManufacturer.toNat, partNumber s.variant, strap s 3])) :=
  congrArg _ (if_neg (by simp [hrails, i3cMode, hmode, haddr]))

omit hrails hmode in
theorem entdaa_assigned (haddr : s.mgmt.address ≠ none) : exec (.entdaa dynamic) s = .next s :=
  congrArg _ (if_pos (by simp [Option.isSome_iff_ne_none, haddr]))

end

/-! ### COLOPHON_READ, POWER and the Inkwell cycle (R575, R577) -/

section
variable (tag : BitVec 16) (h : Reached s e false false)
include h

section
variable {area : BitVec 8} (start : BitVec 32) {most : BitVec 16}

theorem colophonRead_invalid (hinvalid : 5 < area.toNat ∨ most.toNat < 64 ∨ 4032 < most.toNat) :
    exec (.colophonRead e tag area start most) s = .next (vendorAnswer s "COLOPHON_READ" 1 tag 2 []) :=
  accept_next h (if_pos hinvalid)

section
variable (harea : area.toNat ≤ 5) (hlow : 64 ≤ most.toNat) (hhigh : most.toNat ≤ 4032)
include harea hlow hhigh

theorem colophonRead_not_ready (hlog : area = 5) (hrails : s.power.rails ≠ .up) :
    exec (.colophonRead e tag area start most) s = .next (vendorAnswer s "COLOPHON_READ" 1 tag 1 []) :=
  accept_next h ((if_neg (by omega)).trans (if_pos ⟨hlog, hrails⟩))

theorem colophonRead_read {next : Nat} {bytes : List (BitVec 8)} (hup : area ≠ 5 ∨ s.power.rails = .up)
    (hread : colophonArea s area.toNat start.toNat most.toNat = (next, bytes)) :
    exec (.colophonRead e tag area start most) s = .next (vendorAnswer (if area = 4 then s.drew else s) "COLOPHON_READ" 1 tag 0
      (next % 2 ^ 32 :: bytes.map BitVec.toNat)) := by
  refine accept_next h ((if_neg (by omega)).trans ((if_neg ?_).trans ?_))
  · exact fun ⟨hlog, hrails⟩ => hup.elim (· hlog) hrails
  · rw [hread]
    rfl

end
end

theorem power_invalid {x : BitVec 8} (h2 : x ≠ 2) (h3 : x ≠ 3) (h4 : x ≠ 4) :
    exec (.power e tag x) s = .next (vendorAnswer s "POWER" 2 tag 2 []) :=
  accept_next h (if_pos
    ⟨fun hx => h2 (BitVec.eq_of_toNat_eq hx), fun hx => h3 (BitVec.eq_of_toNat_eq hx), fun hx => h4 (BitVec.eq_of_toNat_eq hx)⟩)

section
variable {x : BitVec 8} (hx : x = 2 ∨ x = 3 ∨ x = 4)
include hx

theorem power_down (hrails : s.power.rails ≠ .up) : exec (.power e tag x) s = .next (vendorAnswer s "POWER" 2 tag 1 []) := by
  refine accept_next h ((if_neg ?_).trans (if_pos hrails))
  rcases hx with rfl | rfl | rfl <;> decide

theorem power_requested {u v : State} (hrails : s.power.rails = .up) (hu : u = { s with mgmt := { s.mgmt with update := none } })
    (hv : v = (if x = 2 ∧ ((s.mgmt.update.map (·.stage)) == some .downloading) = true then event u 0x163 441 else s)) :
    exec (.power e tag x) s = .next (vendorAnswer (requestState v x.toNat 5) "POWER" 2 tag 0 []) := by
  subst hv hu
  refine accept_next h ((if_neg ?_).trans ((if_neg (not_not.2 hrails)).trans ?_))
  · rcases hx with rfl | rfl | rfl <;> decide
  · refine congrArg (fun y => vendorAnswer (requestState y x.toNat 5) "POWER" 2 tag 0 []) (if_congr ?_ rfl rfl)
    refine and_congr ⟨fun ht => BitVec.eq_of_toNat_eq ht, fun ht => congrArg BitVec.toNat ht⟩ ?_
    cases s.mgmt.update <;> rfl

end

theorem inkwellArm_armed : exec (.inkwellArm e tag) s = .next (vendorAnswer { s.drew with mgmt := { s.mgmt with
    armed := some (s.freeNow.truncate 32) } } "INKWELL_ARM" 3 tag 0 [(s.freeNow.truncate 32).toNat]) :=
  accept_next h rfl

theorem inkwellCycle_served {nonce : BitVec 32} (harmed : s.mgmt.armed = some nonce) :
    exec (.inkwellCycle e tag nonce true) s =
      .next (inkwellCycle (vendorAnswer { s with mgmt := { s.mgmt with armed := none } } "INKWELL_CYCLE" 4 tag 0 [])) :=
  accept_next h (if_pos ⟨harmed, rfl⟩)

theorem inkwellCycle_refused {nonce : BitVec 32} (inTime : Bool) (hrefused : s.mgmt.armed ≠ some nonce ∨ inTime = false) :
    exec (.inkwellCycle e tag nonce inTime) s =
      .next (vendorAnswer (inkEvent s.drew 0x166 441 0) "INKWELL_CYCLE" 4 tag 3 [s.freeNow.toNat % 256]) := by
  refine accept_next h (if_neg fun ⟨harmed, htime⟩ => ?_)
  exact hrefused.elim (· harmed) fun hlate => Bool.false_ne_true (hlate.symm.trans htime)

/-! ### Owner provisioning and the rollback minimum (R576, R578) -/

section
variable (hr : rubricServes s = true)
include hr

theorem ownerChallenge_invalid {o : BitVec 8} (ho : 4 ≤ o.toNat) :
    exec (.ownerChallenge e tag o) s = .next (vendorAnswer s "OWNER_CHALLENGE" 16 tag 2 []) :=
  rubricCommand_next h hr (if_pos ho)

theorem ownerChallenge_drawn {o : BitVec 8} (ho : o.toNat < 4) : exec (.ownerChallenge e tag o) s =
    .next (vendorAnswer { s.drew with mgmt := { s.mgmt with challenge := some (o.toNat, s.freeNow) } } "OWNER_CHALLENGE" 16 tag 0
      [s.freeNow.toNat]) :=
  rubricCommand_next h hr (if_neg (by omega))

section
variable {o : BitVec 8} (hash : BitVec 256) {sig : List (BitVec 8)} (p : Bool) (runs : List WordRun)

theorem ownerProvision_invalid (hinvalid : 4 ≤ o.toNat ∨ sig.length ≠ 2420) :
    exec (.ownerProvision e tag o hash sig p runs) s = .next (vendorAnswer s "OWNER_PROVISION" 17 tag 2 []) :=
  rubricCommand_next h hr (if_pos hinvalid)

theorem ownerProvision_checked {u t : State} {w st : Nat} (hu : u = { s with mgmt := { s.mgmt with challenge := none } })
    (ho : o.toNat < 4) (hsig : sig.length = 2420) (hw : w = (regionSpan (7 + o.toNat)).1)
    (hprog : programAll .authorised p u (ownerWords o.toNat hash) runs = (t, st)) :
    exec (.ownerProvision e tag o hash sig p runs) s = .next (
      if vendorAuthorises s o.toNat hash sig = false then vendorAnswer (event u 0x166 441) "OWNER_PROVISION" 17 tag 3 [1]
      else if programAllowed u .authorised w (7 + o.toNat) 0 = false then vendorAnswer u "OWNER_PROVISION" 17 tag 3 [2]
      else vendorAnswer t "OWNER_PROVISION" 17 tag 0 [st]) := by
  subst hw hu
  refine rubricCommand_next h hr ((if_neg (by omega)).trans ?_)
  refine if_congr (by simp) rfl (if_congr (by rw [Bool.not_eq_true']; rfl) rfl ?_)
  exact congrArg (fun x : State × Nat => vendorAnswer x.1 "OWNER_PROVISION" 17 tag 0 [x.2]) hprog

end

section
variable {v : BitVec 16} (a b : Option (List (BitVec 8))) (p : Bool) (runs : List WordRun)

theorem rollbackRaise_invalid (hv : v = 0 ∨ 256 < v.toNat) :
    exec (.rollbackRaise e tag v a b p runs) s = .next (vendorAnswer s "ROLLBACK_RAISE" 18 tag 2 []) := by
  refine rubricCommand_next h hr (if_pos ?_)
  exact hv.imp_left fun h0 => by rw [h0]; decide

section
variable (h0 : v ≠ 0) (hv : v.toNat ≤ 256)
include h0 hv

omit h hr in
/-- A version that can be asked for. -/
theorem rollbackVersion_valid : ¬(v.toNat < 1 ∨ 256 < v.toNat) := by
  rintro (hlow | hhigh)
  · exact h0 (BitVec.eq_of_toNat_eq (Nat.lt_one_iff.1 hlow))
  · omega

theorem rollbackRaise_in_update (hupdate : s.mgmt.update ≠ none) : exec (.rollbackRaise e tag v a b p runs) s =
    .next (vendorAnswer (event s 0x162 441) "ROLLBACK_RAISE" 18 tag 3 [4]) := by
  refine rubricCommand_next h hr ((if_neg (rollbackVersion_valid h0 hv)).trans (if_pos ?_))
  exact Option.isSome_iff_ne_none.2 hupdate

theorem rollbackRaise_not_reached (hupdate : s.mgmt.update = none) (hgood : rollbackReached s v.toNat a b = false) :
    exec (.rollbackRaise e tag v a b p runs) s = .next (vendorAnswer s "ROLLBACK_RAISE" 18 tag 3 [3]) := by
  refine rubricCommand_next h hr ((if_neg (rollbackVersion_valid h0 hv)).trans ((if_neg (by simp [hupdate])).trans (if_pos ?_)))
  have hrefused := (not_rollbackReached s v.toNat a b).trans (congrArg not hgood)
  cases a <;> cases b <;> exact hrefused

theorem rollbackRaise_raised {t w : State} {now st m : Nat} (hupdate : s.mgmt.update = none)
    (hgood : rollbackReached s v.toNat a b = true) (hnow : now = s.get FUS_STATUS_MIN_SECURITY)
    (hprog : programAll (programmerOf s (managementScribe s)) p s
      ((List.range (v.toNat - now)).map fun i => (512 + now + 1 + i, 1)) runs = (t, st))
    (hm : m = t.get FUS_STATUS_MIN_SECURITY) (hw : w = (if now < m then event t 0x168 441 m else t)) :
    exec (.rollbackRaise e tag v a b p runs) s =
      .next (vendorAnswer w "ROLLBACK_RAISE" 18 tag 0 [w.get FUS_STATUS_MIN_SECURITY]) := by
  subst hw hm hnow
  refine rubricCommand_next h hr ((if_neg (rollbackVersion_valid h0 hv)).trans ((if_neg (by simp [hupdate])).trans
    ((if_neg ?_).trans ?_)))
  · have hserved := Bool.eq_false_iff.1 ((not_rollbackReached s v.toNat a b).trans (congrArg not hgood))
    cases a <;> cases b <;> exact hserved
  · dsimp only
    rw [hprog]
    rfl

end
end
end
end
end

/-- Settles O57, row by row: a message that reaches the endpoint is served, in the order of its refusals. -/
theorem managementCommandsAreServed : Obligations.ManagementCommandsAreServed := by
  refine ⟨?_, fun s e x hrails hvdm hsize => ?_, fun s static dynamic hrails hmode => ?_, ?_⟩
  · rintro s e h n rfl
    exact ⟨fun x => ⟨setEndpointId_reserved h, setEndpointId_set h⟩, getEndpointId_answered h, getEndpointUuid_answered h,
      getMctpVersionSupport_answered h, getMessageTypeSupport_answered h, getVendorDefinedMessageSupport_answered h⟩
  · exact ⟨congrArg _ (accept_too_long _ _ _ hrails hvdm hsize), congrArg _ (accept_too_long _ _ _ hrails hvdm hsize),
      congrArg _ (accept_too_long _ _ _ hrails hvdm hsize)⟩
  · exact ⟨setdasa_addressed hrails hmode, setdasa_other, entdaa_unassigned hrails hmode, entdaa_assigned⟩
  · rintro s e tag h n rfl
    refine ⟨fun area start most => ⟨colophonRead_invalid tag h start, fun harea hlow hhigh =>
        ⟨colophonRead_not_ready tag h start harea hlow hhigh, fun hup next bytes => colophonRead_read tag h start harea hlow hhigh hup⟩⟩,
      fun x => ⟨power_invalid tag h, fun hx => ⟨power_down tag h hx, fun hrails u v => power_requested tag h hx hrails⟩⟩,
      inkwellArm_armed tag h, fun nonce => ⟨inkwellCycle_served tag h, inkwellCycle_refused tag h⟩,
      fun hr => ⟨fun o => congrArg _ (rubricCommand_not_ready h hr _ _ _ _),
        fun o hash sig p runs => congrArg _ (rubricCommand_not_ready h hr _ _ _ _),
        fun v a b p runs => congrArg _ (rubricCommand_not_ready h hr _ _ _ _)⟩,
      fun hr => ⟨fun o => ⟨ownerChallenge_invalid tag h hr, ownerChallenge_drawn tag h hr⟩,
        fun o hash sig p runs u hu => ⟨ownerProvision_invalid tag h hr hash p runs,
          fun ho hsig w t st => ownerProvision_checked tag h hr hash p runs hu ho hsig⟩, ?_⟩⟩
    intro v a b p runs good hgood
    have hgood : good = rollbackReached s v.toNat a b := hgood.trans (by cases a <;> cases b <;> rfl)
    refine ⟨rollbackRaise_invalid tag h hr a b p runs, fun h0 hv => ⟨rollbackRaise_in_update tag h hr a b p runs h0 hv, ?_⟩⟩
    intro hupdate now t st hnow hprog m hm w hw
    split
    next hg => exact rollbackRaise_raised tag h hr a b p runs h0 hv hupdate (hgood.symm.trans hg) hnow hprog hm hw
    next hg => exact rollbackRaise_not_reached tag h hr a b p runs h0 hv hupdate (hgood.symm.trans (Bool.eq_false_iff.2 hg))

end Sys2Proof.Machine
end

section
/-! PLDM: sensors, platform events and firmware update (R579 to R581). -/

namespace Sys2Proof.Machine

section
variable {s : State} {e : Envelope}

/-! ### Sensors and events (R579) -/

section
variable (h : Reached s e false true)
include h

theorem getSensorReading_answered (x y : BitVec 16) {n : Nat} (hn : n = x.toNat) :
    exec (.getSensorReading e x y) s = .next (s.send (
      if n ∉ numericSensors ∨ sensorPresent s n = false then .answer "INVALID_SENSOR_ID" 0 [n]
      else if 7 < n ∧ rubricServes s = false then .answer "SENSOR_UNAVAILABLE" 0 [n]
      else if s.power.rails = .up then .answer "GET_SENSOR_READING" 0 [n, reading s n]
      else .answer "GET_SENSOR_READING" 0 [n, y.toNat])) := by
  subst hn
  refine accept_next h ?_
  simp only [apply_ite s.send]
  refine if_congr (by simp) rfl (if_congr (by simp [sensorServed]) rfl ?_)
  split <;> rfl

theorem getStateSensorReadings_answered (x : BitVec 16) {n : Nat} (hn : n = x.toNat) :
    exec (.getStateSensorReadings e x) s = .next (s.send (
      if n ∉ [6, 7, 40, 42] then .answer "INVALID_SENSOR_ID" 0 [n]
      else if 7 < n ∧ rubricServes s = false then .answer "SENSOR_UNAVAILABLE" 0 [n]
      else if s.power.rails = .up then .answer "GET_STATE_SENSOR_READINGS" 0 [n, reading s n]
      else .answer "GET_STATE_SENSOR_READINGS" 0 [n, sensorSource s n])) := by
  subst hn
  refine accept_next h ?_
  simp only [apply_ite s.send]
  refine if_congr (by simp [stateSensors]) rfl (if_congr (by simp [sensorServed]) rfl ?_)
  split <;> rfl

theorem pollForPlatformEventMessage_empty (hevents : s.mgmt.events = []) : exec (.pollForPlatformEventMessage e) s =
    .next (s.send (.answer "POLL_FOR_PLATFORM_EVENT_MESSAGE" 0 [])) :=
  accept_next h (by rw [hevents])

theorem pollForPlatformEventMessage_oldest {n v : Nat} {l : List (Nat × Nat)} (hevents : s.mgmt.events = (n, v) :: l) :
    exec (.pollForPlatformEventMessage e) s =
      .next ({ s with mgmt := { s.mgmt with events := l } }.send (.answer "POLL_FOR_PLATFORM_EVENT_MESSAGE" 0 [n, v])) :=
  accept_next h (by rw [hevents]; rfl)

end

/-! ### Firmware update (R580, R581) -/

theorem pldmFive_not_ready (f : State → State) (h : Reached s e false false) (hr : rubricServes s = false)
    (hstate : s.boot.stage ≠ .recovery ∨ s.power.rails ≠ .up ∨ s.fatal = true) :
    pldmFive s e f = s.send (.answer "ERROR_NOT_READY" 0 []) := by
  refine (accept_reached s e _ _ _ h).trans (if_pos ?_)
  rcases hstate with hstage | hrails | hfatal <;> simp [inRecovery, *]

section
variable (h : Reached s e false false) (hz : e.size ≤ 1024)
  (hr : rubricServes s = true ∨ s.boot.stage = .recovery ∧ s.power.rails = .up ∧ s.fatal = false)
include h hz hr

/-- A PLDM Type 5 row goes on to what serving its request gives. -/
theorem pldmFive_next {f : State → State} {t : State} (hf : f s = t) :
    (Host.Outcome.next (pldmFive s e f) : Host.Outcome State Fault Refusal) = .next t :=
  congrArg _ ((pldmFive_reached s e f h hz hr).trans hf)

theorem getFirmwareParameters_answered : exec (.getFirmwareParameters e) s = .next (s.drew.send (.answer "GET_FIRMWARE_PARAMETERS" 0
    ((if s.boot.stage = .recovery then [1, 2, 3] else [1, 2]) ++ [s.freeNow.toNat]))) := by
  refine pldmFive_next h hz hr ?_
  simp only [inRecovery, beq_iff_eq]

theorem requestUpdate_already (hu : s.mgmt.update ≠ none) :
    exec (.requestUpdate e) s = .next (s.send (.answer "ALREADY_IN_UPDATE_MODE" 0 [])) :=
  pldmFive_next h hz hr (if_pos (Option.isSome_iff_ne_none.2 hu))

theorem requestUpdate_begun (hu : s.mgmt.update = none) : exec (.requestUpdate e) s = .next ({ s with mgmt := { s.mgmt with
    update := some {} } }.send (.answer "REQUEST_UPDATE" 0 [])) :=
  pldmFive_next h hz hr (if_neg (by simp [hu]))

theorem cancelUpdate_without (hu : s.mgmt.update = none) :
    exec (.cancelUpdate e) s = .next (s.send (.answer "NOT_IN_UPDATE_MODE" 0 [])) :=
  pldmFive_next h hz hr (by rw [hu])

section
variable {u : Update} (hu : s.mgmt.update = some u)
include hu

/-- A row inside an update goes on to what serving its request gives. -/
theorem inUpdate_next {f : State → Update → State} {t : State} (hf : f s u = t) :
    (Host.Outcome.next (inUpdate s e f) : Host.Outcome State Fault Refusal) = .next t :=
  pldmFive_next h hz hr (by rw [hu]; exact hf)

theorem cancelUpdate_cancelled : exec (.cancelUpdate e) s = .next ((setUpdate s none).send (.answer "CANCEL_UPDATE" 0 [])) :=
  inUpdate_next h hz hr hu rfl

theorem cancelUpdateComponent_eq : exec (.cancelUpdateComponent e) s = .next (
    if u.stage = .downloading ∨ u.stage = .verified then
      (setUpdate s (some { u with stage := .ready, received := 0, staged := [] })).send (.answer "CANCEL_UPDATE_COMPONENT" 0 [])
    else outOfState s) :=
  inUpdate_next h hz hr hu (ite_eq_ite_of_iff_not (by tauto))

theorem passComponentTable_out_of_state (c : BitVec 16) (x : Option (List (BitVec 8)))
    (hstage : u.stage = .downloading ∨ u.stage = .verified) : exec (.passComponentTable e c x) s = .next (outOfState s) :=
  inUpdate_next h hz hr hu (if_pos (by rcases hstage with h | h <;> simp [h]))

theorem passComponentTable_answered (c : BitVec 16) (x : Option (List (BitVec 8)))
    (hstage : u.stage = .learning ∨ u.stage = .ready) : exec (.passComponentTable e c x) s = .next (
      if (c = 1 ∨ c = 2) ∧ passesSix s x = true ∨ c = 3 ∧ s.boot.stage = .recovery then
        (setUpdate s (some { u with stage := .ready, component := c.toNat })).send (.answer "PASS_COMPONENT_TABLE" 0 [c.toNat])
      else s.send (.answer "PASS_COMPONENT_TABLE" 1 [c.toNat])) := by
  refine inUpdate_next h hz hr hu ((if_neg (by tauto)).trans (if_congr ?_ rfl rfl))
  have hc (n : Nat) (hn : n < 2 ^ 16) : c.toNat = n ↔ c = BitVec.ofNat 16 n := by
    rw [← BitVec.toNat_inj, BitVec.toNat_ofNat, Nat.mod_eq_of_lt hn]
  simp only [hc 1 (by decide), hc 2 (by decide)]
  split
  next hslot => rcases hslot with rfl | rfl <;> simp
  next hslot => simp [inRecovery, hc 3 (by decide), not_or.1 hslot]

theorem updateComponent_out_of_state (c : BitVec 16) (n : BitVec 32) (hplace : u.stage ≠ .ready ∨ u.component ≠ c.toNat) :
    exec (.updateComponent e c n) s = .next (outOfState s) :=
  inUpdate_next h hz hr hu (if_pos (by simpa using hplace))

theorem updateComponent_begun {c : BitVec 16} {n : BitVec 32} {w : Update} {t : State} (hstage : u.stage = .ready)
    (hc : u.component = c.toNat) (hlow : 0 < n.toNat) (hhigh : n.toNat ≤ 67108864)
    (hw : w = { u with stage := .downloading, length := n.toNat, received := 0, staged := [] })
    (ht : t = (setUpdate s (some w)).send (.answer "UPDATE_COMPONENT" 0 [u.component])) :
    exec (.updateComponent e c n) s = .next ((if u.component < 3 then t.send (.flashErase (u.component - 1)) else t).send
      (.answer "REQUEST_FIRMWARE_DATA" 0 [0, min 1024 n.toNat])) := by
  subst ht hw
  refine inUpdate_next h hz hr hu ((if_neg (by simp [hstage, hc])).trans ((if_neg (by omega)).trans ?_))
  exact if_neg (Nat.not_le.2 hlow)

theorem firmwareDataResponse_unasked (bytes : List (BitVec 8)) (hplace : u.stage ≠ .downloading ∨ u.length ≤ u.received) :
    exec (.firmwareDataResponse e bytes) s = .next s :=
  inUpdate_next h hz hr hu (if_pos hplace)

section
variable {bytes : List (BitVec 8)} (hstage : u.stage = .downloading) (hmore : u.received < u.length)
include hstage hmore

theorem firmwareDataResponse_wrong_length (hlength : bytes.length ≠ min 1024 (u.length - u.received)) :
    exec (.firmwareDataResponse e bytes) s =
      .next (s.send (.answer "REQUEST_FIRMWARE_DATA" 0 [u.received, min 1024 (u.length - u.received)])) := by
  refine inUpdate_next h hz hr hu ((if_neg ?_).trans ((if_pos hlength).trans (if_neg (Nat.not_le.2 hmore))))
  simp [hstage, hmore]

theorem firmwareDataResponse_written {w : Update} (hlength : bytes.length = min 1024 (u.length - u.received))
    (hw : w = { u with
      received := u.received + bytes.length
      staged := if u.component = 3 then putBytes u.staged u.received bytes else u.staged }) :
    exec (.firmwareDataResponse e bytes) s = .next (requestPiece { (if u.component < 3 then
      s.send (.flashWrite (u.component - 1) u.received bytes) else s) with mgmt := { s.mgmt with update := some w } } w) := by
  subst hw
  refine inUpdate_next h hz hr hu ((if_neg ?_).trans ((if_neg (not_not.2 hlength)).trans ?_))
  · simp [hstage, hmore]
  · dsimp only
    split <;> rfl

end

theorem activateFirmware_out_of_state (hstage : u.stage ≠ .verified) : exec (.activateFirmware e) s = .next (outOfState s) :=
  inUpdate_next h hz hr hu (if_pos hstage)

theorem activateFirmware_activated {t : State} (hstage : u.stage = .verified)
    (ht : t = (setUpdate s none).send (.answer "ACTIVATE_FIRMWARE" 0 [])) :
    exec (.activateFirmware e) s = .next (if u.component = 3 then runPackage t (bytesAt u.staged 0 u.length) else t) := by
  subst ht
  exact inUpdate_next h hz hr hu (if_neg (not_not.2 hstage))

end
end

theorem transferComplete_without (x : Option (List (BitVec 8))) (hu : s.mgmt.update = none) :
    exec (.transferComplete x) s = .next s := by
  show execTransferComplete x s = _
  rw [execTransferComplete, hu]

section
variable {u : Update} {x image : Option (List (BitVec 8))} (hu : s.mgmt.update = some u) (hrails : s.power.rails = .up)
  (hfatal : s.fatal = false) (hstage : u.stage = .downloading) (hall : u.length ≤ u.received)
  (himage : image = (if u.component = 3 then some (bytesAt u.staged 0 u.length) else x))
include hu hrails hfatal hstage hall himage

theorem transferComplete_rejected {r k : Nat} (hcheck : checkSlot s image = some (r, k)) : exec (.transferComplete x) s =
    .next ((setUpdate s (some { u with stage := .ready })).send (.answer "VERIFY_COMPLETE" r [])) := by
  subst himage
  show execTransferComplete x s = _
  rw [execTransferComplete, hu]
  refine congrArg _ ((if_neg (by simp [hrails, hfatal, hstage, hall])).trans ?_)
  dsimp only
  rw [hcheck]

theorem transferComplete_verified (hcheck : checkSlot s image = none) : exec (.transferComplete x) s =
    .next ((setUpdate (if u.component = 3 then s else event s 0x167 441 (u.component - 1)) (some { u with stage := .verified })).send
      (.answer "VERIFY_COMPLETE" 0 [])) := by
  subst himage
  show execTransferComplete x s = _
  rw [execTransferComplete, hu]
  refine congrArg _ ((if_neg (by simp [hrails, hfatal, hstage, hall])).trans ?_)
  dsimp only
  rw [hcheck]

end
end

/-- Settles O58, row by row: a request that reaches the responder is served, in the order of its refusals. -/
theorem pldmSensorsAndUpdatesAreServed : Obligations.PldmSensorsAndUpdatesAreServed := by
  refine ⟨?_, fun s e h hr hstate =>
      ⟨congrArg _ (pldmFive_not_ready _ h hr hstate), congrArg _ (pldmFive_not_ready _ h hr hstate)⟩, ?_, ?_,
    fun s x => transferComplete_without x⟩
  · rintro s e h f rfl
    exact ⟨accept_next h rfl, fun x => accept_next h rfl,
      fun x y n hn => ⟨getSensorReading_answered h x y hn, getStateSensorReadings_answered h x hn⟩, fun x => accept_next h rfl,
      pollForPlatformEventMessage_empty h, fun n v l => pollForPlatformEventMessage_oldest h⟩
  · intro s e h hz hr
    refine ⟨pldmFive_next h hz hr rfl, getFirmwareParameters_answered h hz hr, pldmFive_next h hz hr rfl,
      requestUpdate_already h hz hr, fun hu => ⟨requestUpdate_begun h hz hr hu, cancelUpdate_without h hz hr hu⟩, ?_⟩
    intro u hu st hst
    obtain rfl : st = setUpdate s := funext hst
    exact ⟨cancelUpdate_cancelled h hz hr hu, cancelUpdateComponent_eq h hz hr hu,
      fun c x => ⟨passComponentTable_out_of_state h hz hr hu c x, passComponentTable_answered h hz hr hu c x⟩,
      fun c n => ⟨updateComponent_out_of_state h hz hr hu c n,
        fun hstage hc hlow hhigh w t => updateComponent_begun h hz hr hu hstage hc hlow hhigh⟩,
      fun bytes => ⟨firmwareDataResponse_unasked h hz hr hu bytes, fun hstage hmore =>
        ⟨firmwareDataResponse_wrong_length h hz hr hu hstage hmore, fun hlength w =>
          firmwareDataResponse_written h hz hr hu hstage hmore hlength⟩⟩,
      activateFirmware_out_of_state h hz hr hu, fun hstage t => activateFirmware_activated h hz hr hu hstage⟩
  · intro s u x image hu hrails hfatal hstage hall himage st hst
    simp only [hst]
    rcases hcheck : checkSlot s image with _ | ⟨r, k⟩
    · exact transferComplete_verified hu hrails hfatal hstage hall himage hcheck
    · exact transferComplete_rejected hu hrails hfatal hstage hall himage hcheck

end Sys2Proof.Machine
end

section
/-! The SPDM responder: connections, certificates, measurements and sessions (R582 to R584). -/

namespace Sys2Proof.Machine

section
variable {s : State} {e : Envelope} (h : Reached s e false true)
include h

theorem spdm_busy (f : State → State) (hr : rubricServes s = false) :
    spdm s e f = s.send (.answer "ERROR_BUSY" 0 []) :=
  (accept_reached s e _ _ _ h).trans (if_neg (by simp [hr]))

section
variable (hr : rubricServes s = true)
include hr

/-- An SPDM row goes on to what serving its request gives. -/
theorem spdm_next {f : State → State} {t : State} (hf : f s = t) :
    (Host.Outcome.next (spdm s e f) : Host.Outcome State Fault Refusal) = .next t :=
  accept_next h ((if_pos hr).trans hf)

/-! ### The connection (R582) -/

theorem getCapabilities_eq : exec (.getCapabilities e) s = .next (if (conn s e).version = true then
    (setConn s e { conn s e with caps := true }).send (.answer "GET_CAPABILITIES" 0 [spdmCapabilities]) else spdmError s) :=
  spdm_next h hr (ite_eq_ite_of_iff_not (by simp))

theorem negotiateAlgorithms_eq (common : Bool) : exec (.negotiateAlgorithms e common) s = .next (
    if (conn s e).caps = false then spdmError s
    else if common = false then s.send (.answer "ERROR_UNSUPPORTED_REQUEST" 0 [])
    else (setConn s e { conn s e with algs := true }).send (.answer "NEGOTIATE_ALGORITHMS" 0 [])) :=
  spdm_next h hr (if_congr (by simp) rfl (if_congr (by simp) rfl rfl))

theorem chunk_next (name : String) (handle seq : Nat) (last : Bool) {want : Nat}
    (hwant : want = (((conn s e).chunks.filter (·.1 == handle)).map (·.2)).getD 0) :
    (Host.Outcome.next (chunk s e name handle seq last) : Host.Outcome State Fault Refusal) = .next (
      if (conn s e).caps = false then spdmError s
      else if seq ≠ want then spdmError (setConn s e { conn s e with chunks := none })
      else (setConn s e { conn s e with chunks := if last then none else some (handle, seq + 1) }).send
        (.answer name 0 [handle, seq])) := by
  subst hwant
  refine spdm_next h hr (if_congr (by simp) rfl (if_congr (not_congr (Eq.congr rfl ?_)) rfl rfl))
  rcases (conn s e).chunks with _ | ⟨i, n⟩
  · rfl
  · by_cases hi : i = handle <;> simp [hi, Option.filter]

/-! ### Certificates and measurements (R583, R584) -/

theorem negotiated_before {f : State → State} (halgs : (conn s e).algs = false) :
    (Host.Outcome.next (negotiated s e f) : Host.Outcome State Fault Refusal) = .next (spdmError s) :=
  spdm_next h hr (if_neg (by simp [halgs]))

section
variable (halgs : (conn s e).algs = true)
include halgs

/-- A row that follows the negotiation goes on to what serving its request gives. -/
theorem negotiated_next {f : State → State} {t : State} (hf : f s = t) :
    (Host.Outcome.next (negotiated s e f) : Host.Outcome State Fault Refusal) = .next t :=
  spdm_next h hr ((if_pos halgs).trans hf)

section
variable {i : BitVec 8}

theorem getMeasurements_unknown (sign : Bool) (hhigh : 16 < i.toNat) (hall : i ≠ 255) :
    exec (.getMeasurements e i sign) s = .next (spdmError s) :=
  negotiated_next h hr halgs (if_pos ⟨hhigh, fun hi => hall (BitVec.eq_of_toNat_eq hi)⟩)

theorem getMeasurements_count (hi : i = 0) :
    exec (.getMeasurements e i false) s = .next (s.send (.answer "GET_MEASUREMENTS" 0 [16])) := by
  subst hi
  exact negotiated_next h hr halgs rfl

theorem getMeasurements_all (hi : i = 255) {blocks : List Nat}
    (hblocks : blocks = ((List.range 16).flatMap fun n => [n + 1, measurement s n])) :
    exec (.getMeasurements e i false) s = .next (s.send (.answer "GET_MEASUREMENTS" 0 blocks)) := by
  subst hi hblocks
  exact negotiated_next h hr halgs rfl

section
variable {blocks : List Nat} (hlow : 0 < i.toNat) (hhigh : i.toNat ≤ 16) (hblocks : blocks = [i.toNat, measurement s (i.toNat - 1)])
include hlow hhigh hblocks

theorem getMeasurements_one :
    exec (.getMeasurements e i false) s = .next (s.send (.answer "GET_MEASUREMENTS" 0 blocks)) := by
  subst hblocks
  refine negotiated_next h hr halgs ((if_neg (by omega)).trans ?_)
  simp [show i.toNat ≠ 0 by omega, show i.toNat ≠ 255 by omega]

theorem getMeasurements_one_signed (hid : hasIdentity s = true) : exec (.getMeasurements e i true) s =
    .next (s.drew.send (.answer "GET_MEASUREMENTS" 0 (blocks ++ [s.freeNow.toNat]))) := by
  subst hblocks
  refine negotiated_next h hr halgs ((if_neg (by omega)).trans ((if_neg (by simp [hid])).trans ?_))
  simp [show i.toNat ≠ 0 by omega, show i.toNat ≠ 255 by omega]

end
end

section
variable (hid : hasIdentity s = false)
include hid

theorem getDigests_without_identity : exec (.getDigests e) s = .next (spdmError s) :=
  negotiated_next h hr halgs (if_pos (by simp [hid]))

theorem challenge_without_identity (n : Fin 16) : exec (.challenge e n) s = .next (s.send (.answer "ERROR_UNSPECIFIED" 0 [])) :=
  negotiated_next h hr halgs (if_pos (by simp [hid]))

theorem getCertificate_without_identity (n : Fin 16) (a b : BitVec 16) :
    exec (.getCertificate e n a b) s = .next (s.send (.answer "ERROR_UNSPECIFIED" 0 [])) :=
  negotiated_next h hr halgs (if_pos (by simp [hid]))

end

section
variable (hid : hasIdentity s = true)
include hid

theorem getDigests_answered :
    exec (.getDigests e) s = .next (s.send (.answer "GET_DIGESTS" 0 [1, (Config.sha3 (chain s)).toNat])) :=
  negotiated_next h hr halgs (if_neg (by simp [hid]))

theorem challenge_answered (n : Fin 16) : exec (.challenge e n) s = .next (if n = 0 then
    s.drew.send (.answer "CHALLENGE_AUTH" 0 [(Config.sha3 (chain s)).toNat, s.freeNow.toNat]) else spdmError s) :=
  negotiated_next h hr halgs ((if_neg (by simp [hid])).trans (ite_eq_ite_of_iff_not Iff.rfl))

theorem getCertificate_answered (n : Fin 16) (a b : BitVec 16) {part : List (BitVec 8)}
    (hpart : part = ((chain s).drop a.toNat).take b.toNat) :
    exec (.getCertificate e n a b) s = .next (if n ≠ 0 ∨ (chain s).length ≤ a.toNat then spdmError s
      else s.send (.answer "GET_CERTIFICATE" 0
        ([part.length, (chain s).length - a.toNat - part.length] ++ part.map BitVec.toNat))) := by
  subst hpart
  exact negotiated_next h hr halgs (if_neg (by simp [hid]))

theorem keyExchange_answered (i : BitVec 32) : exec (.keyExchange e i) s = .next (
    if (Tab.find s.mgmt.sessions i.toNat).isSome = true then spdmError s
    else { s.drew with mgmt := { s.mgmt with
        sessions := Tab.set s.mgmt.sessions i.toNat { port := Option.map (fun v : Fin 64 × Fin 4 × Fin 16 × Fin 8 => v.1.val) e.vdm } } }.send
      (.answer "KEY_EXCHANGE" 0 [i.toNat, s.freeNow.toNat])) :=
  negotiated_next h hr halgs (if_congr (by simp [hid]) rfl rfl)

end
end

/-! ### Sessions (R582) -/

section
variable {i : BitVec 32}

/-- A row of a session that the connection has not is refused. -/
theorem inSession_without {f : State → Session → State} (hx : sessionHere s e i.toNat = none) :
    (Host.Outcome.next (inSession s e i.toNat f) : Host.Outcome State Fault Refusal) = .next (spdmError s) :=
  spdm_next h hr (by rw [hx])

section
variable {x : Session} (hx : sessionHere s e i.toNat = some x)
include hx

/-- A row of a session goes on to what serving its request gives. -/
theorem inSession_next {f : State → Session → State} {t : State} (hf : f s x = t) :
    (Host.Outcome.next (inSession s e i.toNat f) : Host.Outcome State Fault Refusal) = .next t :=
  spdm_next h hr (by rw [hx]; exact hf)

section
variable (hnew : x.established = false)
include hnew

theorem finish_verified : exec (.finish e i true) s =
    .next ((setSession s i.toNat { x with established := true }).send (.answer "FINISH" 0 [i.toNat])) :=
  inSession_next h hr hx (if_neg (by simp [hnew]))

theorem finish_failed : exec (.finish e i false) s = .next (spdmError (endSession s i.toNat)) :=
  inSession_next h hr hx (if_neg (by simp [hnew]))

theorem getEncapsulatedRequest_new :
    exec (.getEncapsulatedRequest e i) s = .next (s.send (.answer "ENCAPSULATED_REQUEST" 0 [i.toNat])) :=
  inSession_next h hr hx (if_neg (by simp [hnew]))

theorem deliverEncapsulatedResponse_valid (leaf root : BitVec 256) : exec (.deliverEncapsulatedResponse e i leaf root true) s =
    .next ((setSession s i.toNat { x with mutAuth := true, leaf := leaf, root := root }).send
      (.answer "ENCAPSULATED_RESPONSE_ACK" 0 [i.toNat])) :=
  inSession_next h hr hx (if_neg (by simp [hnew]))

omit hnew in
theorem deliverEncapsulatedResponse_invalid (leaf root : BitVec 256) :
    exec (.deliverEncapsulatedResponse e i leaf root false) s = .next (spdmError s) :=
  inSession_next h hr hx (if_pos (by simp))

theorem heartbeat_new : exec (.heartbeat e i) s = .next (spdmError s) :=
  inSession_next h hr hx (if_neg (by simp [hnew]))

theorem keyUpdate_new : exec (.keyUpdate e i) s = .next (spdmError s) :=
  inSession_next h hr hx (if_neg (by simp [hnew]))

theorem endSession_new : exec (.endSession e i) s = .next (spdmError s) :=
  inSession_next h hr hx (if_neg (by simp [hnew]))

end

section
variable (hold : x.established = true)
include hold

theorem heartbeat_established : exec (.heartbeat e i) s = .next (s.send (.answer "HEARTBEAT_ACK" 0 [i.toNat])) :=
  inSession_next h hr hx (if_pos hold)

theorem keyUpdate_established : exec (.keyUpdate e i) s = .next (s.send (.answer "KEY_UPDATE_ACK" 0 [i.toNat])) :=
  inSession_next h hr hx (if_pos hold)

theorem endSession_established :
    exec (.endSession e i) s = .next ((endSession s i.toNat).send (.answer "END_SESSION_ACK" 0 [i.toNat])) :=
  inSession_next h hr hx (if_pos hold)

theorem finish_established (v : Bool) : exec (.finish e i v) s = .next (spdmError s) :=
  inSession_next h hr hx (if_pos hold)

theorem getEncapsulatedRequest_established : exec (.getEncapsulatedRequest e i) s = .next (spdmError s) :=
  inSession_next h hr hx (if_pos hold)

end
end
end
end
end

/-- Settles O59, row by row: a request that reaches the responder is served, in the order of its refusals. -/
theorem spdmResponderServesItsMessages : Obligations.SpdmResponderServesItsMessages := by
  refine ⟨fun s e h hr => ⟨congrArg _ (spdm_busy h _ hr), congrArg _ (spdm_busy h _ hr)⟩, ?_⟩
  intro s e h hr c st hc hst
  subst hc
  obtain rfl : st = setConn s e := funext hst
  refine ⟨spdm_next h hr rfl, getCapabilities_eq h hr, negotiateAlgorithms_eq h hr,
    fun handle n last want hwant => ⟨chunk_next h hr _ _ _ last hwant, chunk_next h hr _ _ _ last hwant⟩,
    fun halgs => ⟨negotiated_before h hr halgs, fun n => negotiated_before h hr halgs, fun n => negotiated_before h hr halgs⟩,
    fun halgs hid => ⟨getDigests_without_identity h hr halgs hid, fun n =>
      ⟨challenge_without_identity h hr halgs hid n, getCertificate_without_identity h hr halgs hid n⟩⟩,
    fun halgs i blocks => ⟨fun hhigh hall g => getMeasurements_unknown h hr halgs g hhigh hall, getMeasurements_count h hr halgs,
      fun hlow hhigh hblocks => ⟨getMeasurements_one h hr halgs hlow hhigh hblocks,
        getMeasurements_one_signed h hr halgs hlow hhigh hblocks⟩, fun hi hblocks => getMeasurements_all h hr halgs hi hblocks⟩, ?_, ?_⟩
  · rintro halgs hid l rfl
    exact ⟨getDigests_answered h hr halgs hid, challenge_answered h hr halgs hid,
      fun n a b part => getCertificate_answered h hr halgs hid n a b, keyExchange_answered h hr halgs hid⟩
  · refine fun i => ⟨fun hx => ⟨fun v => inSession_without h hr hx, inSession_without h hr hx⟩, ?_⟩
    rintro x hx t ht
    simp only [ht]
    refine ⟨fun hnew => ⟨finish_verified h hr hx hnew, finish_failed h hr hx hnew, getEncapsulatedRequest_new h hr hx hnew,
        fun leaf root => ⟨deliverEncapsulatedResponse_valid h hr hx hnew leaf root,
          deliverEncapsulatedResponse_invalid h hr hx leaf root⟩,
        heartbeat_new h hr hx hnew, keyUpdate_new h hr hx hnew, endSession_new h hr hx hnew⟩,
      fun hold => ⟨heartbeat_established h hr hx hold, keyUpdate_established h hr hx hold, endSession_established h hr hx hold,
        finish_established h hr hx hold, getEncapsulatedRequest_established h hr hx hold⟩⟩

end Sys2Proof.Machine
end

section
/-! The CXL FM API (R585). -/

namespace Sys2Proof.Machine

section
variable {s : State} {e : Envelope} (h : Reached s e false false)
include h

theorem fmApi_busy (f : State → State) (hr : rubricServes s = false) : fmApi s e f = s.send (.answer "FM_BUSY" 0 []) :=
  (accept_reached s e _ _ _ h).trans (if_neg (by simp [hr]))

section
variable (hr : rubricServes s = true)
include hr

/-- An FM API row goes on to what serving its command gives. -/
theorem fmApi_next {f : State → State} {t : State} (hf : f s = t) :
    (Host.Outcome.next (fmApi s e f) : Host.Outcome State Fault Refusal) = .next t :=
  accept_next h ((if_pos hr).trans hf)

/-- A row about a port that is not a Host port of the node is invalid. -/
theorem fmPort_invalid {p : Nat} {f : State → State} (hp : s.variant.ports ≤ p ∨ s.get (PRT_PORT_CTRL_ROLE p) ≠ 0) :
    (Host.Outcome.next (fmPort s e p f) : Host.Outcome State Fault Refusal) = .next (s.send (.answer "FM_INVALID_INPUT" 0 [])) := by
  refine fmApi_next h hr (if_neg fun ⟨hport, hrole⟩ => ?_)
  exact hp.elim (Nat.not_le.2 hport) (· hrole)

section
variable {p : Fin 64} (hport : p.val < s.variant.ports) (hrole : s.get (PRT_PORT_CTRL_ROLE p) = 0)
include hport hrole

/-- A row about a Host port of the node goes on to what serving its command gives. -/
theorem fmPort_next {f : State → State} {t : State} (hf : f s = t) :
    (Host.Outcome.next (fmPort s e p f) : Host.Outcome State Fault Refusal) = .next t :=
  fmApi_next h hr ((if_pos ⟨hport, hrole⟩).trans hf)

theorem setDcRegionConfiguration_set (d : Fin 16) (r : Fin 8) (v : BitVec 64) (hfree : regionRefused s p d r v = false) :
    exec (.setDcRegionConfiguration e p d r v) s =
      .next ((s.setWord (PRT_DC_REGION_VALID (16 * p.val + d.val) r).addr
        (BitVec.ofNat 64 (bitsOf v.toNat 62 2 * 2 ^ 62 + v.toNat % 2 ^ 36))).send (.answer "SET_DC_REGION_CONFIGURATION" 0 [])) :=
  fmPort_next h hr hport hrole (by rw [writeRegion, hfree]; rfl)

theorem setDcRegionConfiguration_refused (d : Fin 16) (r : Fin 8) (v : BitVec 64) (hrefused : regionRefused s p d r v = true) :
    exec (.setDcRegionConfiguration e p d r v) s = .next ((notice s (320 + p.val)).send (.answer "FM_INVALID_INPUT" 0 [])) :=
  fmPort_next h hr hport hrole (by rw [writeRegion, hrefused]; rfl)

end
end
end

/-- The answer to an extent command, by the code of its status (R585). -/
theorem fmExtent_eq (s t : State) (code : Nat) (name : String) : fmExtent s name (t, code) =
    if code = 5 then s.send (.answer "FM_BUSY" 0 [])
    else (t.put PRT_EXTENT_STATUS_STATUS code).send (if code = 4 then .answer "FM_INVALID_INPUT" 0 []
      else if code = 6 then .answer "FM_RESOURCES_EXHAUSTED" 0 [] else .answer name 0 [code]) := by
  refine if_congr Iff.rfl rfl ?_
  by_cases h4 : code = 4
  · subst h4
    rfl
  · by_cases h6 : code = 6
    · subst h6
      rfl
    · rw [if_neg h4, if_neg h6, if_neg h4, if_neg h6]
      rfl

/-- Settles O60, row by row: a command that reaches the node is served, in the order of its refusals. -/
theorem fmApiServesCapacityCommands : Obligations.FmApiServesCapacityCommands := by
  refine ⟨fun s e h hr => ⟨congrArg _ (fmApi_busy h _ hr), congrArg _ (fmApi_busy h _ hr), fun v => congrArg _ (fmApi_busy h _ hr)⟩,
    fun s e h hr => ⟨fmApi_next h hr rfl, fmApi_next h hr rfl, fmApi_next h hr rfl, fun p => ⟨fun hp =>
      ⟨fmPort_invalid h hr hp, fmPort_invalid h hr hp, fun d => fmPort_invalid h hr hp⟩, fun hport hrole =>
      ⟨fmPort_next h hr hport hrole rfl, fmPort_next h hr hport hrole rfl, fun d => ⟨fmPort_next h hr hport hrole rfl,
        fmPort_next h hr hport hrole rfl, fun r v => ⟨setDcRegionConfiguration_set h hr hport hrole d r v,
          setDcRegionConfiguration_refused h hr hport hrole d r v⟩⟩⟩⟩, ?_⟩⟩
  intro v t code result hresult
  simp only [hresult, ← fmExtent_eq]
  exact ⟨fun hadd => fmApi_next h hr (congrArg _ hadd), fun hrel => fmApi_next h hr (congrArg _ hrel)⟩

end Sys2Proof.Machine
end
